-- ==== Sys2Proof/Word.lean ====
section
/-! DEFINITION. The word types, the sparse table type and the field reference type, with their plainest arithmetic. -/

namespace Sys2Proof

/-- A register of the register bus (R26). -/
abbrev Word := BitVec 32

/-- One byte of a frame, a message or a flash. -/
abbrev Byte := BitVec 8

/-- A sparse table: keys strictly rising, no entry equal to what an unlisted key reads as. The operations on it, which keep
this form, stand in Machine/Ops.lean. -/
abbrev Tab (β : Type) := List (Nat × β)

/-- A reference to one register field: the register's byte address, the field's lowest bit and its width. -/
structure FRef where
  addr : Nat
  lo : Nat
  width : Nat
  deriving DecidableEq, Repr

end Sys2Proof
end

