-- ==== Sys2Proof/Syntax.lean ====
section
/-! DEFINITION. The commands of the block: one constructor of `Instr` per row of spec/opcode_table.json, with the operands
that the row's event brings from outside the device, and the records that operands are made of. -/

namespace Sys2Proof

/-- A configuration record of an image or an amendment (R51 to R54), field by field. -/
inductive CfgRec where
  /-- Register write record (R51). -/
  | reg (addr mask value : Nat)
  /-- Bulk table record (R52): TABLE_ID, FLAGS, ENTRY_WORDS, reserved bytes, FIRST_INDEX, and the COUNT entries. -/
  | bulk (tid flags entryWords res first : Nat) (entries : List (List Nat))
  /-- Key record (R53). -/
  | key (slot kind res : Nat) (nonce key tag : List Byte)
  /-- Store record (R54): PIPE_MASK, reserved bytes, FIRST_WORD, and the COUNT microwords. -/
  | store (pipes res first res2 : Nat) (words : List Nat)
  deriving DecidableEq, Repr

/-- What the best master clock algorithm of an instance decided on a message (R320): the algorithm itself is IEEE 1588's or
IEEE 802.1AS's, and the spec gives only where its outcome shows (TIME_INST_STATUS). -/
structure Bmca where
  parent : Bool
  gm : Bool
  slavePort : Nat
  steps : Nat
  deriving DecidableEq, Repr

/-- What the device reads of a module (R98 to R102): identifier and revision bytes, vendor OUI and part number, medium as MEDIA
of R101, host lanes, declared maximum power in mW, the applications it advertises as (MODE, FEC) of R69 and R70, in order, and
the longest of its advertised data-path and power-up durations in ms. -/
structure ModId where
  identifier : Nat
  revision : Nat
  oui : List Byte
  pn : List Byte
  media : Nat
  lanes : Nat
  powerMw : Nat
  apps : List (Nat × Nat)
  durMs : Nat
  deriving DecidableEq, Repr


/-- A command of the table: one constructor per row of spec/opcode_table.json. -/
inductive Instr where
  /-- PWR_GOOD_RISE (R44): Rising PWR_GOOD sets time zero, disables all ports and starts the root PLL. -/
  | pwrGoodRise (bootSel nvmMode : Nat)
  /-- POR_ASSERT (R399): POR_N held low causes a full reset with the root PLL stopped. -/
  | porAssert
  /-- PWR_GOOD_FALL (R399): A falling PWR_GOOD acts as POR_N low within 1 µs. -/
  | pwrGoodFall
  /-- SYS_RST_ASSERT (R399): SYS_RST_N low resets the device with the root PLL kept locked; the straps are re-sampled at its rising edge. -/
  | sysRstAssert (bootSel nvmMode : Nat)
  /-- PLL_LOCK_DONE (R44): Once the PLL locks, the core clocks run, memories are initialised, free lists are threaded and the boot ROM starts on SUP-A. -/
  | pllLockDone
  /-- AVS_APPLIED (R402): READ_VOUT agrees with the setpoint within 5 mV, which sets APPLIED and permits tokens above the fixed base. -/
  | avsApplied (readVout : Nat)
  /-- NVM_DISCOVERY (R37): SFDP is read from NVA and NVB, and capacity and protocol are checked; a failing device is treated as absent. -/
  | nvmDiscovery
  /-- IMAGE_HEADER_CHECK (R55): The header, section table and signature of a candidate image are read and checked in order, and a result code is recorded. -/
  | imageHeaderCheck
  /-- FIRMWARE_SECTION_LOAD (R49): The Chewipor section is checked against its Daxnov signature and loaded into both supervisors, and SUP-A starts as active. -/
  | firmwareSectionLoad
  /-- SECTION_HASH_CHECK (R55): The SHA-256 of a streamed section is compared with its table hash; a mismatch fails the image with 0x17. -/
  | sectionHashCheck
  /-- REGISTER_WRITE_RECORD (R51): A register write record is applied as master 0x1F under its mask, or refused. -/
  | registerWriteRecord (addr mask value : Nat)
  /-- BULK_TABLE_RECORD (R52): A bulk table record writes indexed entries or inserts and deletes keyed entries, or it is refused. -/
  | bulkTableRecord (tid flags entryWords res first : Nat) (entries : List (List Nat))
  /-- KEY_RECORD (R53): A key record is decrypted and checked if needed, then written to a key slot or the amendment engine, or refused. -/
  | keyRecord (slot kind res : Nat) (nonce key tag : List Byte)
  /-- STORE_RECORD (R54): A store record writes microwords into every bank copy of the selected pipelines. -/
  | storeRecord (pipes res first res2 : Nat) (words : List Nat)
  /-- HBM_TRAINING_DONE (R44): HBM training completes, or the stack fails if training does not complete. -/
  | hbmTrainingDone (stack : Nat) (ok : Bool)
  /-- JOURNAL_ENTRY_REPLAY (R61): A merged journal entry is re-verified, then applied, skipped or marked for re-staging according to its markers. -/
  | journalEntryReplay
  /-- FORWARDING_RELEASE (R44): Forwarding is released on one alignment edge: ports start link training, remaining seeds latch and DEV_BOOT_TIME is recorded. -/
  | forwardingRelease
  /-- FUSE_ADVANCE (R42): After release, epoch fuses are blown until the count equals SECURITY_EPOCH. -/
  | fuseAdvance
  /-- RECOVERY_RESTART (R68): In recovery, the device restarts 100 ms after the last write of an image store. -/
  | recoveryRestart
  /-- AMEND_SUBMIT (R57): A Flollina amendment submission is checked and, if accepted, appended to the journals. -/
  | amendSubmit (chan : Nat) (bytes : List Byte)
  /-- JOURNAL_WRITTEN (R59): The entry reads back WRITTEN on every present NVM and the submitter is acknowledged. -/
  | journalWritten (seq : Nat) (okA okB : Bool)
  /-- AMENDMENT_STAGE (R62): An amendment is written into shadow state after the preceding commit and its cleanup. -/
  | amendmentStage
  /-- STAGING_COMPLETE (R63): Staging completes and the amendment engine arms the commit in hardware. -/
  | stagingComplete
  /-- COMMIT (R63): On the first alignment edge at or after activation, shadow state and next-configuration entries become current on every unit. -/
  | commit
  /-- COMMIT_CLEANUP_DONE (R63): Cleanup removes superseded entries, COMMITTED is set in both journals and DEV_AMD_SEQ is updated. -/
  | commitCleanupDone
  /-- LATE_COMMIT (R64): A late commit takes place at the first whole millisecond after staging completes with a supervisor running, and sets LATE. -/
  | lateCommit
  /-- IMAGE_STORE (R68): An image store request checks the image, then erases, programs and verifies the named NVMs. -/
  | imageStore (chan : Nat) (bytes : List Byte)
  /-- NVM_PROGRAM_DONE (R68): Programming of one NVM completes and is verified by read-back before the next is written. -/
  | nvmProgramDone (ok : Bool)
  /-- LINK_DOWN (R89): A link-down condition declares link down at once and enters Hold or the flush sequence. -/
  | linkDown (port cause : Nat)
  /-- LINK_UP (R89): Link up is declared once no link-down condition has held for LINK_UP_STABLE. -/
  | linkUp (port clearFor : Nat)
  /-- HOLD_EXPIRY (R90): LINK_HOLD expires with the link still down, and every frame queued for the port is flushed. -/
  | holdExpiry (port : Nat)
  /-- FLUSH_DONE (R90): The link-down flush completes and FLUSHING clears. -/
  | flushDone (port : Nat)
  /-- ADMIN_EN_CLEAR (R91): Clearing ADMIN_EN takes the link down, skips Hold and flushes the port's frames as egress_disabled. -/
  | adminEnClear (port : Nat)
  /-- PAUSE_CFG_CHANGE (R83): A change of pause MODE or TX_EN sends XON for classes in XOFF, then re-evaluates every pair. -/
  | pauseCfgChange (port value : Nat)
  /-- MAC_FRAME_END (R77): The MAC delimits a received frame, counts it and applies the runt, FCS and oversize checks. -/
  | macFrameEnd (port mac ago : Nat) (bytes : List Byte)
  /-- PAUSE_RX (R82): A received Annex 31B pause stops or releases all classes of the port. -/
  | pauseRx (port : Nat) (bytes : List Byte)
  /-- PFC_RX (R82): A received PFC frame stops or releases each enabled class. -/
  | pfcRx (port : Nat) (bytes : List Byte)
  /-- MAC_CTRL_IGNORED (R81): A control frame that the port's mode does not select is consumed and counted. -/
  | macCtrlIgnored (port : Nat) (bytes : List Byte)
  /-- PAUSE_EXPIRY (R82): The pause time of a class elapses and the class is released. -/
  | pauseExpiry (port cls : Nat)
  /-- XOFF_REPEAT (R83): XOFF is resent each time half of QUANTA has elapsed while the count stays above LOW. -/
  | xoffRepeat (port cls : Nat)
  /-- PAUSE_WD_TRIP (R85): Received pause held beyond WD_MS trips the watchdog, and pause is ignored for WD_HOLD_MS. -/
  | pauseWdTrip (port cls : Nat)
  /-- PAUSE_WD_HOLD_END (R85): WD_HOLD_MS ends and the class obeys received pause again. -/
  | pauseWdHoldEnd (port cls : Nat)
  /-- PREEMPT_FRAGMENT_RX (R87): A preemption fragment is received and reassembled, or the frame is rejected as preempt_reassembly. -/
  | preemptFragmentRx (port ago : Nat) (start : Bool) (count : Nat) (last : Bool) (bytes : List Byte)
  /-- PREEMPT_VERIFY_TIMEOUT (R86): The verify time expires during MAC merge verification. -/
  | preemptVerifyTimeout (port : Nat)
  /-- RX_ADAPT_UPDATE (R75): Receiver adaptation applies updated coefficients in an idle gap between frames. -/
  | rxAdaptUpdate (port : Nat)
  /-- MODULE_INSERT (R98): Insertion is declared after 10 low samples, and the module is put into reset. -/
  | moduleInsert (cage : Nat)
  /-- MODULE_RESET_RELEASE (R98): MOD_RST_N is released after 20 µs and the cage enters WAIT_READY. -/
  | moduleResetRelease (cage : Nat)
  /-- MODULE_READY_POLL (R98): Byte 0 of the module is polled every 20 ms until the module is ready. -/
  | moduleReadyPoll (cage : Nat) (answer : Option (Nat × Bool))
  /-- MODULE_READY_TIMEOUT (R98): A module not ready within 5 s enters READ_FAIL. -/
  | moduleReadyTimeout (cage : Nat)
  /-- MODULE_IDENTIFY (R99): The identifier and identity fields are read and decoded, then checked. -/
  | moduleIdentify (cage : Nat) (ident : ModId)
  /-- MODULE_POWER_GRANT (R100): A waiting module power request is granted from the module budget. -/
  | modulePowerGrant
  /-- MODULE_DATAPATH_READY (R98): The module reaches READY and its ports start link bring-up. -/
  | moduleDatapathReady (cage : Nat)
  /-- MODULE_STEP9_TIMEOUT (R98): The cap of step 9 is exceeded, which is handled as a module fault. -/
  | moduleStep9Timeout (cage : Nat)
  /-- MODULE_REMOVE (R105): Removal is declared: the grant is returned, the state is cleared to EMPTY and the ports go down. -/
  | moduleRemove (cage : Nat)
  /-- MODULE_INT (R104): A low MOD_INT_N causes the latched flags of the bus's cages to be read. -/
  | moduleInt (bus : Nat) (low : Bool) (flags : List (Nat × Nat × Nat × Nat × Bool))
  /-- I2C_TRANSACTION (R97): One module bus transaction is run in priority order. -/
  | i2cTransaction (bus : Nat) (ok muxOk : Bool)
  /-- I2C_RETRY (R96): A failed transaction is retried after 1 ms. -/
  | i2cRetry (bus : Nat) (ok muxOk sdaLow : Bool)
  /-- READ_FAIL_RESTART (R96): A cage in READ_FAIL restarts at step 3 after 1 s. -/
  | readFailRestart (cage : Nat)
  /-- TELEMETRY_READ (R97): Chewipor reads module telemetry at low priority. -/
  | telemetryRead (cage : Nat)
  /-- PARSE_READY (R107): A frame's first 256 bytes pass the runt check and the frame joins the parse intake. -/
  | parseReady (port mac ago : Nat) (bytes : List Byte)
  /-- ENGINE_START (R110): A free engine takes a frame, initialises the header vector and latches the region and HOOK_EN. -/
  | engineStart (pipe engine : Nat)
  /-- SEQ (R119): Executes a microword and continues at the next word. -/
  | seq (pipe engine flips : Nat)
  /-- JUMP (R119): Executes a microword and continues at NA_ADDR. -/
  | jump (pipe engine flips : Nat)
  /-- CJUMP (R119): Executes a microword and jumps to NA_ADDR if the condition is true. -/
  | cjump (pipe engine flips : Nat)
  /-- CALL (R119): Executes a microword, pushes the return address and continues at NA_ADDR. -/
  | call (pipe engine flips : Nat)
  /-- CCALL (R119): Executes a microword and calls NA_ADDR if the condition is true. -/
  | ccall (pipe engine flips : Nat)
  /-- RET (R119): Executes a microword and continues at the popped address. -/
  | ret (pipe engine flips : Nat)
  /-- CRET (R119): Executes a microword and returns if the condition is true. -/
  | cret (pipe engine flips : Nat)
  /-- DISPATCH (R119): Executes a microword and branches to NA_ADDR plus a 4-bit register field. -/
  | dispatch (pipe engine flips : Nat)
  /-- DONE (R110): Executes a microword, delivers the header vector and frees the engine. -/
  | done (pipe engine flips : Nat)
  /-- SIDE_LOOKUP_RESULT (R128): The side lookup result arrives in GR7 within 12 cycles. -/
  | sideLookupResult (pipe engine : Nat) (bad : List Nat)
  /-- RESUME (R111): At frame end a parked context resumes on the next free engine. -/
  | resume (pipe engine : Nat)
  /-- HANDOFF_WAIT_EXPIRY (R126): HANDOFF_WAIT elapses without an entry, and beater_handoff_timeout is counted. -/
  | handoffWaitExpiry (pipe engine : Nat)
  /-- STOP_REQUEST (R132): The cycles spent on a frame exceed MAX_CYCLES, which raises a stop. -/
  | stopRequest (pipe engine : Nat)
  /-- COPY_RELOAD_DONE (R137): A rewritten copy reads back correctly and returns to service, or is held out. -/
  | copyReloadDone (pipe copy : Nat) (ok : Bool)
  /-- STORE_SCRUB (R138): Every 10 s each in-service copy is compared with its reference. -/
  | storeScrub (pipe : Nat) (upsets : List (Nat × Nat × Nat × Nat))
  /-- SIDE_ENTRY_REWRITE (R129): The supervisor rewrites a side table entry that failed parity. -/
  | sideEntryRewrite (pipe index : Nat)
  /-- STORE_WORD_READ (R51): PARS_STORE_SEL.READ reads the selected store word into PARS_STORE_DATA. -/
  | storeWordRead (master pipe value : Nat)
  /-- FORWARDING_DECISION (R147): At step 8 the VLAN is resolved, DA and SA are looked up, and the forwarding set is formed. -/
  | forwardingDecision (frame : Nat) (bad : List (Nat × Nat))
  /-- LEARNING_RING_DELIVER (R151): The ring delivers a learn event to the other pipelines' learn queues. -/
  | learningRingDeliver
  /-- LEARN_WRITE (R152): The table writer applies a queued learn event: insert, refresh, move or ignore. -/
  | learnWrite (pipe : Nat)
  /-- AGING_TICK (R158): At each aging tick, learned entries at AGE 0 are removed and the others decremented. -/
  | agingTick (pipe fid : Nat) (bad : List (Nat × Nat))
  /-- MOVE_WINDOW_END (R154): At the end of MOVE_WINDOW_MS the sweep clears MOVE_CNT. -/
  | moveWindowEnd (pipe : Nat)
  /-- REMOVAL_PASS_DONE (R159): The link-down removal pass completes and FLUSHING clears. -/
  | removalPassDone (pipe : Nat)
  /-- STATIC_COMPARE (R161): Every 10 s the static entries are compared with the reference and corrected. -/
  | staticCompare (upsets : List (Nat × Nat × Nat))
  /-- STATIC_REINSERT (R162): The supervisor re-inserts static entries whose bucket held a failed slot. -/
  | staticReinsert
  /-- STREAM_IDENTIFY (R172): Identification probes assign a stream handle to the frame. -/
  | streamIdentify (frame : Nat)
  /-- STREAM_FILTER (R176): The stream filter, gate, octet limit and meter act on the frame. -/
  | streamFilter (frame : Nat)
  /-- PORT_POLICER (R182): The port aggregate policer passes the frame or drops it as port_policer_excess. -/
  | portPolicer (frame : Nat)
  /-- STREAM_GATE_ENTRY (R177): A stream gate list entry interval starts and resets the octet count. -/
  | streamGateEntry (handle : Nat)
  /-- STREAM_GATE_TAKEOVER (R178): A pending stream gate schedule takes over at its first cycle start. -/
  | streamGateTakeover (handle : Nat)
  /-- NODE_INSERT (R194): The node writer inserts a remote or proxy entry and allocates contexts. -/
  | nodeInsert
  /-- NODE_SWEEP (R194): Each second AGE_S is incremented and forgotten nodes are removed. -/
  | nodeSweep
  /-- TAKE_ANY_SWEEP (R200): Each second TAKE_ANY is set on contexts idle beyond RESET_MS. -/
  | takeAnySweep
  /-- SUPERVISION_TX (R204): A supervision frame is sent on A and B, spread over LIFE_MS. -/
  | supervisionTx (pair slot : Nat)
  /-- COMMAND_DECISION (R209): At step 9 the frame is judged for sealing, screened and staged into the Deckle. -/
  | commandDecision (frames ue : List Nat)
  /-- ENGINE_GRANT (R228): A free engine is granted to a queue's head frame by reservation and rotation. -/
  | engineGrant (ed : Bool) (engine : Nat)
  /-- SEAL_VERIFY_DONE (R216): An engine finishes checking the TAG and the frame passes or drops. -/
  | sealVerifyDone (ed : Bool) (engine : Nat)
  /-- RELEASE_TO_ADMISSION (R221): A verified frame is released to admission in its context's order. -/
  | releaseToAdmission (frame : Nat)
  /-- SEAL_LOG_SUMMARY (R231): Once per second a summary record of suppressed reports is written per port. -/
  | sealLogSummary (port : Nat)
  /-- CLUSTER_FAULT (R230): A cache parity error or engine timeout takes a cluster out of service and requeues its frames. -/
  | clusterFault (cluster cause : Nat)
  /-- CLUSTER_RESET (R230): The supervisor resets a faulted cluster and returns it to service. -/
  | clusterReset (cluster : Nat)
  /-- CELL_WRITE (R237): A filled cell of a frame is allocated and written into the bank. -/
  | cellWrite (writes : List (Nat × Nat × Nat × List Byte))
  /-- ADMISSION (R251): Step 10 checks each copy against quarantine, flush state and the static limits. -/
  | admission (frame : Nat)
  /-- COPY_RELEASE (R238): A copy releases its references and cells reaching zero are freed. -/
  | copyRelease (copy flip : Nat)
  /-- BANK_SWEEP (R240): The bank sweep reads cells and link RAM and corrects single-bit errors. -/
  | bankSweep (pipe : Nat) (found : List (Nat × Nat))
  /-- LIST_REBUILD_DONE (R240): The rebuild completes and the sub-bank rejoins allocation. -/
  | listRebuildDone (pipe sub : Nat)
  /-- SPILL (R243): The spill engine writes a whole frame to a spill Vat block. -/
  | spill (pipes : List Nat) (cuts : List (Nat × Nat × Bool))
  /-- SPILL_COMPLETE (R244): A spilled block reads back complete and the frame's cells are released. -/
  | spillComplete (copy : Nat)
  /-- REFILL (R246): A spilled entry is age-checked and read back into bank cells. -/
  | refill (pipe : Nat)
  /-- REFILL_DONE (R246): The refill completes and the entry becomes resident. -/
  | refillDone (copy corr : Nat) (ue : Bool) (flip : Nat)
  /-- PRIV_CACHE_REFILL (R247): A privileged Vat free cache below half refills from its ring. -/
  | privCacheRefill (vat : Nat) (bad : List Nat)
  /-- SPILL_BURST_RETURN (R404): A spill engine returns its burst tokens 10 µs after its queue empties. -/
  | spillBurstReturn (pipe : Nat)
  /-- HBM_STACK_FAIL (R255): A stack fails and its Vat halves stop taking allocations. -/
  | hbmStackFail (stack : Nat)
  /-- CREDIT_REQUEST (R272): A head copy sends a credit request to its egress group. -/
  | creditRequest (copy : Nat)
  /-- CREDIT_GRANT (R272): The egress group grants credit covering the copy's cells. -/
  | creditGrant (group : Nat)
  /-- CREDIT_REVOKE (R273): LEAD_NS before a gate close, credit of unsent frames is revoked. -/
  | creditRevoke (port cls : Nat)
  /-- SLOT_MATCH (R265): Each plane matches ingress to egress groups with three iterations per slot. -/
  | slotMatch (ue : List Nat)
  /-- SEQ_REPORT (R269): A Headbox reports the last sent sequence to each Couch. -/
  | seqReport (src dst : Nat)
  /-- CELL_ARRIVE (R268): The Couch receives a cell, checks its CRC and releases cells in order. -/
  | cellArrive (src dst seq : Nat) (crcOk : Bool)
  /-- COUCH_GAP_TIMEOUT (R269): An open gap reaches COUCH_TIMEOUT_US, and the missing cells are declared lost. -/
  | couchGapTimeout (src dst : Nat)
  /-- PLANE_HEARTBEAT_MISS (R278): No heartbeat from a plane for 1,500 ns reports a miss. -/
  | planeHeartbeatMiss (plane group : Nat)
  /-- PLANE_AUDIT_MARKER (R278): At each 1 ms marker the cells sent and received on each plane are compared. -/
  | planeAuditMarker
  /-- SPARE_SYNC_DONE (R280): The spare locks and aligns and joins from a slot that is a multiple of 16. -/
  | spareSyncDone
  /-- SPARE_BRINGUP_TIMEOUT (R278): A spare not synchronised within 30 µs fails with cause 0x4. -/
  | spareBringupTimeout
  /-- PLANE_SELFTEST (R281): The supervisor tests a failed plane and makes it the spare if it passes. -/
  | planeSelftest (plane : Nat) (pass : Bool)
  /-- ROTATION_START (R282): FABR_ROT.START starts a planned rotation of PLANE, or it is refused. -/
  | rotationStart (master plane : Nat)
  /-- ROTATION_SCHEDULE (R282): The scheduled interval expires and a rotation starts. -/
  | rotationSchedule
  /-- ROTATION_CHANGEOVER (R282): At slot S the Headboxes use the spare in place of the plane being rotated out. -/
  | rotationChangeover
  /-- ROTATION_COMPLETE (R282): The old plane drains and balances and becomes the spare. -/
  | rotationComplete
  /-- SCHEDULER_SELECT (R287): When the MAC is ready, the scheduler picks the class by gates, shapers, strict priority and WFQ. -/
  | schedulerSelect (port mac : Nat)
  /-- PREEMPT (R298): A preemptable frame is preempted at the next permitted fragment boundary. -/
  | preempt (port : Nat)
  /-- GATE_STATE_CHANGE (R290): A gate list entry starts and the gate states change. -/
  | gateStateChange (port : Nat)
  /-- GATE_TAKEOVER (R291): A pending gate schedule takes over, cutting the entry in progress. -/
  | gateTakeover (port : Nat)
  /-- FRAME_TRANSMIT_END (R92): A frame finishes transmission, is counted, and its staging cells and credit are freed. -/
  | frameTransmitEnd (port mac : Nat)
  /-- OFFSET_SAMPLE (R313): The servo applies an offset sample, possibly stepping the base, and advances its state. -/
  | offsetSample (tb : Nat) (off tclk : Int)
  /-- SOURCE_LOSS (R314): Loss of the time source moves a base to HOLDOVER or FREERUN. -/
  | sourceLoss (tb : Nat)
  /-- HOLDOVER_EXPIRY (R314): HOLDOVER beyond HOLDOVER_S returns the base to FREERUN. -/
  | holdoverExpiry (tb : Nat)
  /-- PAIR_REVERT (R318): PRIMARY completes REVERT_S of LOCKED and becomes the source again. -/
  | pairRevert (pair : Nat)
  /-- PAIR_SLEW (R318): D moves toward zero by at most 10 ns per millisecond. -/
  | pairSlew (pair : Nat)
  /-- PTP_RX (R321): A PTP frame is matched to an instance and consumed or forwarded. -/
  | ptpRx (frame : Nat) (bmca : Option Bmca)
  /-- PTP_TX (R323): The engine sends a PTP message at its interval. -/
  | ptpTx (inst port : Nat) (bytes : List Byte)
  /-- TC2_FORWARD (R322): A held Follow_Up or Delay_Resp is sent with the residence time added. -/
  | tc2Forward (inst src seqId port : Nat)
  /-- TC2_ABANDON (R322): After 10 ms without a timestamp entry, no copy is sent for that port. -/
  | tc2Abandon (inst src seqId port : Nat)
  /-- TIO_OUTPUT_EDGE (R326): A TIO output pin changes level at its scheduled instant. -/
  | tioOutputEdge (tio : Nat)
  /-- TIO_CAPTURE (R327): An edge on a capture pin is stamped and queued. -/
  | tioCapture (tio : Nat) (rising : Bool)
  /-- TIO_CAP_READ (R327): Reading TIO_CAP_NS removes the oldest capture and latches its seconds. -/
  | tioCapRead (master tio : Nat)
  /-- PPS_IN_EDGE (R328): PPS_IN is stamped on every base and gives samples to bases with SRC PPS_IN. -/
  | ppsInEdge (rising : Bool) (tclk : Int)
  /-- TCLK_LOST (R315): No TCLK_IN edge for 1 µs sets TCLK_LOST and the servo uses I. -/
  | tclkLost
  /-- TCLK_RETURN (R315): TCLK_IN returns and the frequency is again measured from it. -/
  | tclkReturn
  /-- TB_TIME_READ (R307): Reading TIME_TB_NS or PNS latches the two registers that follow. -/
  | tbTimeRead (master tb : Nat) (pres : Bool)
  /-- SUPV_HEARTBEAT (R331): A supervisor writes SUPV_HB. -/
  | supvHeartbeat (master sup value : Nat)
  /-- SUPV_HEARTBEAT_MISS (R331): No heartbeat for 200 µs marks the supervisor FAILED. -/
  | supvHeartbeatMiss (sup : Nat)
  /-- SUPV_MACHINE_CHECK (R332): A supervisor machine check sets it FAILED and holds it in reset. -/
  | supvMachineCheck (sup : Nat)
  /-- TAKEOVER_COMPLETE (R334): The new supervisor becomes ACTIVE, writes a heartbeat and logs the takeover. -/
  | takeoverComplete
  /-- CHECKPOINT_WRITE (R333): Every 10 ms the ACTIVE supervisor writes a checkpoint slot. -/
  | checkpointWrite (ok : Bool)
  /-- CHECKPOINT_LOAD (R333): The STANDBY supervisor loads a complete checkpoint slot. -/
  | checkpointLoad (slot : Nat)
  /-- SUPERVISOR_RESTART (R338): The ACTIVE supervisor power-cycles a FAILED one and releases it in RESYNC. -/
  | supervisorRestart (sup : Nat) (copyOk : Bool)
  /-- RESYNC_DONE (R338): The restarted supervisor loads a checkpoint and becomes STANDBY. -/
  | resyncDone
  /-- FORCED_SWITCH (R337): SUPV_PAIR_CTRL.SWITCH writes a final checkpoint and hands over to the STANDBY. -/
  | forcedSwitch (master : Nat)
  /-- WATCHDOG_EXPIRY (R340): No heartbeat for WDOG_MS drives WDOG_OUT_N low. -/
  | watchdogExpiry
  /-- SENSOR_SAMPLE (R342): Die, HBM and voltage sensors are sampled and compared with thresholds. -/
  | sensorSample (sensor : Nat) (reading : Option Int)
  /-- THERMAL_SHUTDOWN (R344): Two consecutive readings at 120 °C or more shut the device down. -/
  | thermalShutdown
  /-- VOLTAGE_OUT_OF_WINDOW (R345): Three samples outside the window raise ALM1 and are logged. -/
  | voltageOutOfWindow (monitor : Nat)
  /-- RAIL_CURRENT_READ (R345): Every 10 ms the steward reads READ_IOUT of each regulator. -/
  | railCurrentRead (rail : Nat) (reading : Option Nat)
  /-- REGULATOR_ALERT (R402): PMB_ALERT_N low makes the ACTIVE supervisor read and log STATUS_WORD. -/
  | regulatorAlert (status : List (Nat × Nat))
  /-- LOG_ACCEPT (R348): The log writer accepts a record, assigns SEQ and time, and writes both rings. -/
  | logAccept
  /-- LOG_PUT_SUBMIT (R349): A write of SUPV_LOG_PUT word 15 submits the staged record. -/
  | logPutSubmit (master sup value : Nat)
  /-- LOG_OVERRUN_SUMMARY (R348): Once per second with discards, a 0xB030 summary is written. -/
  | logOverrunSummary
  /-- LOG_PERSIST (R350): The ACTIVE supervisor copies records to the NVM log regions. -/
  | logPersist (nvm : Nat)
  /-- LOG_CLEAR_CMD (R351): SUPV_LOG_CFG.CLEAR empties both rings and clears SUPV_ALM. -/
  | logClearCmd (master : Nat)
  /-- FIRMWARE_AUDIT (R352): Every 10 s configuration is compared with its reference. -/
  | firmwareAudit (upsets : List (Nat × Nat))
  /-- PMC_EVENT (R354): A performance counter counts an event, wraps and may interrupt. -/
  | pmcEvent (sup event count : Nat)
  /-- PMC_CLEAR (R354): A write to SUPV_PMC_LO clears the counter. -/
  | pmcClear (master sup counter : Nat)
  /-- PMC_READ (R354): A read of SUPV_PMC_LO latches SUPV_PMC_HI. -/
  | pmcRead (master sup counter : Nat)
  /-- MB_SUBMIT (R366): A host read of HOST_MB_SUBMIT copies STAGE into a mailbox, or aborts. -/
  | mbSubmit (master mb : Nat) (writes : List (Nat × Byte))
  /-- MB_POST (R365): POST stamps the master, increments SEQ, sets FULL and rings the doorbell. -/
  | mbPost (master mb : Nat)
  /-- MB_RELEASE (R365): RELEASE sets the mailbox EMPTY. -/
  | mbRelease (master mb : Nat)
  /-- PCIE_RESET (R358): PERST_N or FLR clears staging and HOST_INT_EN and abandons DMA. -/
  | pcieReset
  /-- DEBUG_CHALLENGE_READ (R362): A read of HOST_DBG_CHAL word 0 generates a fresh challenge. -/
  | debugChallengeRead (master word : Nat)
  /-- DEBUG_CHECK (R362): CHECK verifies the response signature and unlocks or blocks debug. -/
  | debugCheck (master : Nat)
  /-- DEBUG_LOCK (R362): LOCK clears UNLOCKED. -/
  | debugLock (master : Nat)
  /-- DEBUG_BLOCK_EXPIRY (R362): The 1 s block after a failed check ends. -/
  | debugBlockExpiry
  /-- HELLO (R370): Opens a channel and negotiates the protocol version. -/
  | hello (chan : Nat)
  /-- GET_INFO (R371): Returns identity, boot, amendment and firmware information. -/
  | getInfo (chan : Nat)
  /-- READ_REGS (R371): Returns up to 56 register values, read with privilege. -/
  | readRegs (chan : Nat)
  /-- SNAPSHOT (R380): Requests a counter snapshot at one alignment edge. -/
  | snapshot (chan : Nat)
  /-- SNAPSHOT_CAPTURE (R380): The named counters are copied at edge T and delivered. -/
  | snapshotCapture
  /-- TABLE_DUMP (R371): Delivers table entries to a destination. -/
  | tableDump (chan : Nat)
  /-- LOG_READ (R371): Delivers log records from a ring or NVM region. -/
  | logRead (chan : Nat)
  /-- MODULE_READ (R371): Reads module memory inline at telemetry priority. -/
  | moduleRead (chan : Nat) (data : Option (List Byte))
  /-- GET_NONCE (R373): Returns a 16-byte nonce for the channel. -/
  | getNonce (chan : Nat)
  /-- NONCE_EXPIRY (R373): A nonce expires after 60 s. -/
  | nonceExpiry (chan : Nat)
  /-- COUNTER_DIR (R379): Delivers the counter directory. -/
  | counterDir (chan : Nat)
  /-- FORCE_SWITCH (R337): A signed request for a forced supervisor switch. -/
  | forceSwitch (chan : Nat)
  /-- PLANE_ROTATE (R282): A signed request for a planned plane rotation. -/
  | planeRotate (chan : Nat)
  /-- LOG_CLEAR (R351): A signed request that erases the log regions and clears the log. -/
  | logClear (chan : Nat)
  /-- PROVISION (R374): A signed provisioning request that blows the owner fuses. -/
  | provision (chan : Nat)
  /-- UNKNOWN_CODE (R371): A request with an unknown CODE receives STATUS 0x01. -/
  | unknownCode (chan : Nat)
  /-- MG_SEGMENT (R369): A Flollina frame segment received on MG0 or MG1 is acknowledged stop and wait. -/
  | mgSegment (frame : Nat)
  /-- DMA_DONE (R376): A DMA transfer completes or fails, and the reply is posted. -/
  | dmaDone (chan result : Nat)
  /-- BEC_CLR (R378): HOST_BEC_CMD.CLR clears a bus event counter. -/
  | becClr (master counter : Nat)
  /-- BEC_CLR_OVF (R378): HOST_BEC_CMD.CLR_OVF clears a bus event counter's OVF. -/
  | becClrOvf (master counter : Nat)
  /-- BEC_READ (R378): A read of HOST_BEC_LO latches the high bits. -/
  | becRead (master counter : Nat)
  /-- REAM_WIN_CLR (R379): REAM_WIN_CMD.CLR clears the selected counter. -/
  | reamWinClr (master window : Nat)
  /-- REAM_WIN_CLR_OVF (R379): REAM_WIN_CMD.CLR_OVF clears the selected counter's OVF. -/
  | reamWinClrOvf (master window : Nat)
  /-- REAM_WIN_READ (R379): A read of REAM_WIN_LO latches HI and FLAG atomically. -/
  | reamWinRead (master window : Nat)
  /-- AMD_SEQ_READ (R63): A read of DEV_AMD_SEQ_LO latches DEV_AMD_SEQ_HI. -/
  | amdSeqRead (master : Nat)
  /-- REGISTER_WRITE (R15): A write to a register with no row of its own, under access type, privilege and clamping. -/
  | registerWrite (master addr value byteEn hwSet : Nat)
  /-- AUDIT_CHECK (R383): Every millisecond the audit unit latches every conserved term on one edge. -/
  | auditCheck
  /-- AUDIT_COMPARE_DONE (R385): The 0.5 ms comparison ends and any discrepancies are found. -/
  | auditCompareDone
  /-- POWER_TOKEN_GRANT (R406): The steward grants a waiting token request that fits. -/
  | powerTokenGrant
  /-- RAMP_SLOT_END (R407): A holder's ramp slot ends. -/
  | rampSlotEnd (holder : Nat)
  /-- RAMP_DOWN_END (R407): A holder's fall ends and its tokens become free. -/
  | rampDownEnd (holder : Nat)
  /-- DOMAIN_POWER_GOOD (R409): A domain reports power good and leaves isolation. -/
  | domainPowerGood (domain : Nat)
  /-- REFCLK_LOSS (R411): REFCLK absent for 100 ns sets REFCLK_LOST and the PLL holds. -/
  | refclkLoss
  /-- REFCLK_RETURN (R411): REFCLK returns and the PLL relocks by slewing. -/
  | refclkReturn
  /-- SREF_LOSS (R411): SREFk absent takes its groups' transmitters to idle and their links down. -/
  | srefLoss (k : Nat)
  /-- SREF_RETURN (R411): SREFk returns and link bring-up restarts. -/
  | srefReturn (k : Nat)
  /-- PCIE_REFCLK_LOSS (R411): Loss of PCIE_REFCLK takes the PCI Express link down. -/
  | pcieRefclkLoss
  /-- POR_RELEASE (R43): The rising edge of POR_N, when it comes after PWR_GOOD, latches the straps and counts time zero. -/
  | porRelease (bootSel nvmMode : Nat)
  /-- PCIE_LINK_DOWN (R356): Loss of the PCI Express link for a reason other than PERST_N, FLR or reference clock loss acts on zone HOST only and clears HOST_UP. -/
  | pcieLinkDown
  /-- PCIE_LINK_UP (R356): The PCI Express link trains up, which sets HOST_UP in HOST_PEER_ALIVE and raises the PEER interrupt source. -/
  | pcieLinkUp
  /-- BUS_MASTER_ENABLE_CHANGE (R375): A host configuration write changes Bus Master Enable; clearing it abandons DMA with DETAIL 0x05 and clears HOST_UP. -/
  | busMasterEnableChange (on : Bool)
  /-- AUTONEG_COMPLETE (R71): Clause 73 or Clause 37 auto-negotiation completes, which sets AN_DONE and reports the resolved FEC in FEC_ACTIVE. -/
  | autonegComplete (port fec : Nat)
  /-- LINK_TRAINING_COMPLETE (R71): Link training completes, which sets LT_DONE and fixes the transmit coefficients shown in PORT_LANE_TXEQ_ACT. -/
  | linkTrainingComplete (port : Nat) (coefs : List Nat)
  /-- VERIFY_MPACKET_RX (R86): A received verify or respond mPacket of Clause 99 either draws a response or ends verification as succeeded, which sets PREEMPT_ACTIVE. -/
  | verifyMpacketRx (port : Nat) (respond : Bool)
  /-- CBS_CREDIT_REACHES_ZERO (R294): The negative credit of a credit-based shaper class rises to zero, so the class becomes eligible for selection and for fabric credit. -/
  | cbsCreditReachesZero (port cls : Nat)
  /-- TOKEN_BUCKET_REACHES_ZERO (R297): A negative class or port token bucket refills to zero, which releases its scope for selection. -/
  | tokenBucketReachesZero (port cls : Nat)
  /-- STANDBY_READY_LAPSE (R333): The newest checkpoint loaded by the STANDBY supervisor becomes 20 ms old, which clears STANDBY_READY. -/
  | standbyReadyLapse
  deriving DecidableEq, Repr

end Sys2Proof
end

