-- ==== Sys2Proof/WellFormed.lean ====
section
/-! DEFINITION. Which commands are well formed: every operand lies in the range of what it names (a master ID of 8 bits, a 32-bit
word, one of 259 port numbers and so on). A command that is not well formed names nothing of the device; its meaning is still a
function, and says what exec answers on it, but nothing of the spec speaks about it. -/

namespace Sys2Proof

/-- A number below a bound. -/
def below (n v : Nat) : Bool := decide (v < n)

/-- A master ID (R359: 8 bits). -/
def isMaster (m : Nat) : Bool := below 256 m

/-- A 32-bit word. -/
def isWord (v : Nat) : Bool := below (2 ^ 32) v

/-- A 16-bit number. -/
def halfWord (v : Nat) : Bool := below (2 ^ 16) v

/-- An 8-bit number. -/
def isByte (v : Nat) : Bool := below 256 v

/-- A Flollina channel (R370): one of the mailbox channels 0 to 4, or a requester's address on MG0 or MG1 from 0x100 on. -/
def isChan (c : Nat) : Bool := below 5 c || (decide (0x100 ≤ c) && below (0x100 + 2 * 2 ^ 48) c)

/-- Every operand of a command lies in its range. -/
def Instr.wf (i : Instr) : Bool :=
  match i with
  | .pwrGoodRise bootSel nvmMode => below 4 bootSel && below 2 nvmMode
  | .porAssert => true
  | .pwrGoodFall => true
  | .sysRstAssert bootSel nvmMode => below 4 bootSel && below 2 nvmMode
  | .pllLockDone => true
  | .avsApplied _ => true
  | .nvmDiscovery => true
  | .imageHeaderCheck => true
  | .firmwareSectionLoad => true
  | .sectionHashCheck => true
  | .registerWriteRecord addr mask value => isWord addr && isWord mask && isWord value
  | .bulkTableRecord tid flags entryWords res first entries => halfWord tid && halfWord flags && halfWord entryWords && halfWord res && isWord first && entries.all fun e => e.all isWord
  | .keyRecord slot kind res nonce key tag => halfWord slot && isByte kind && isByte res && nonce.length == 12 && key.length == 32 && tag.length == 16
  | .storeRecord pipes res first res2 words => isByte pipes && isByte res && halfWord first && halfWord res2 && words.all fun w => below (2 ^ 256) w
  | .hbmTrainingDone stack _ => below 2 stack
  | .journalEntryReplay => true
  | .forwardingRelease => true
  | .fuseAdvance => true
  | .recoveryRestart => true
  | .amendSubmit chan _ => isChan chan
  | .journalWritten _ _ _ => true
  | .amendmentStage => true
  | .stagingComplete => true
  | .commit => true
  | .commitCleanupDone => true
  | .lateCommit => true
  | .imageStore chan _ => isChan chan
  | .nvmProgramDone _ => true
  | .amdSeqRead master => isMaster master
  | .offsetSample tb _ _ => below 8 tb
  | .sourceLoss tb => below 8 tb
  | .holdoverExpiry tb => below 8 tb
  | .pairRevert pair => below 4 pair
  | .pairSlew pair => below 4 pair
  | .ptpRx _ _ => true
  | .ptpTx inst port _ => below 8 inst && below 259 port
  | .tc2Forward inst _ _ port => below 8 inst && below 259 port
  | .tc2Abandon inst _ _ port => below 8 inst && below 259 port
  | .tioOutputEdge tio => below 8 tio
  | .tioCapture tio _ => below 8 tio
  | .tioCapRead master tio => isMaster master && below 8 tio
  | .ppsInEdge _ _ => true
  | .tclkLost => true
  | .tclkReturn => true
  | .tbTimeRead master tb _ => isMaster master && below 8 tb
  | .supvHeartbeat master sup value => isMaster master && below 2 sup && isWord value
  | .supvHeartbeatMiss sup => below 2 sup
  | .supvMachineCheck sup => below 2 sup
  | .takeoverComplete => true
  | .checkpointWrite _ => true
  | .checkpointLoad slot => below 2 slot
  | .supervisorRestart sup _ => below 2 sup
  | .resyncDone => true
  | .forcedSwitch master => isMaster master
  | .watchdogExpiry => true
  | .sensorSample sensor _ => below 58 sensor
  | .thermalShutdown => true
  | .voltageOutOfWindow monitor => below 32 monitor
  | .railCurrentRead rail _ => below 10 rail
  | .regulatorAlert _ => true
  | .logAccept => true
  | .logPutSubmit master sup value => isMaster master && below 2 sup && isWord value
  | .logOverrunSummary => true
  | .logPersist nvm => below 2 nvm
  | .logClearCmd master => isMaster master
  | .firmwareAudit _ => true
  | .pmcEvent sup _ _ => below 2 sup
  | .pmcClear master sup counter => isMaster master && below 2 sup && below 8 counter
  | .pmcRead master sup counter => isMaster master && below 2 sup && below 8 counter
  | .mbSubmit master mb _ => isMaster master && below 16 mb
  | .mbPost master mb => isMaster master && below 16 mb
  | .mbRelease master mb => isMaster master && below 16 mb
  | .pcieReset => true
  | .debugChallengeRead master word => isMaster master && below 8 word
  | .debugCheck master => isMaster master
  | .debugLock master => isMaster master
  | .debugBlockExpiry => true
  | .hello chan => isChan chan
  | .getInfo chan => isChan chan
  | .readRegs chan => isChan chan
  | .snapshot chan => isChan chan
  | .snapshotCapture => true
  | .tableDump chan => isChan chan
  | .logRead chan => isChan chan
  | .moduleRead chan _ => isChan chan
  | .getNonce chan => isChan chan
  | .nonceExpiry chan => isChan chan
  | .counterDir chan => isChan chan
  | .forceSwitch chan => isChan chan
  | .planeRotate chan => isChan chan
  | .logClear chan => isChan chan
  | .provision chan => isChan chan
  | .unknownCode chan => isChan chan
  | .mgSegment _ => true
  | .dmaDone chan result => isChan chan && below 5 result
  | .becClr master counter => isMaster master && below 16 counter
  | .becClrOvf master counter => isMaster master && below 16 counter
  | .becRead master counter => isMaster master && below 16 counter
  | .reamWinClr master window => isMaster master && below 8 window
  | .reamWinClrOvf master window => isMaster master && below 8 window
  | .reamWinRead master window => isMaster master && below 8 window
  | .registerWrite master addr value byteEn hwSet => isMaster master && isWord addr && isWord value && below 16 byteEn && isWord hwSet
  | .auditCheck => true
  | .auditCompareDone => true
  | .powerTokenGrant => true
  | .rampSlotEnd holder => below 100 holder
  | .rampDownEnd holder => below 100 holder
  | .domainPowerGood domain => below 100 domain
  | .refclkLoss => true
  | .refclkReturn => true
  | .srefLoss k => below 8 k
  | .srefReturn k => below 8 k
  | .pcieRefclkLoss => true
  | .porRelease bootSel nvmMode => below 4 bootSel && below 2 nvmMode
  | .pcieLinkDown => true
  | .pcieLinkUp => true
  | .busMasterEnableChange _ => true
  | .standbyReadyLapse => true
  | .linkDown port _ => below 258 port
  | .linkUp port _ => below 258 port
  | .holdExpiry port => below 259 port
  | .flushDone port => below 259 port
  | .adminEnClear port => below 259 port
  | .pauseCfgChange port value => below 259 port && isWord value
  | .macFrameEnd port mac _ _ => below 259 port && below 2 mac
  | .pauseRx port _ => below 259 port
  | .pfcRx port _ => below 259 port
  | .macCtrlIgnored port _ => below 259 port
  | .pauseExpiry port cls => below 259 port && below 8 cls
  | .xoffRepeat port cls => below 259 port && below 8 cls
  | .pauseWdTrip port cls => below 259 port && below 8 cls
  | .pauseWdHoldEnd port cls => below 259 port && below 8 cls
  | .preemptFragmentRx port _ _ _ _ _ => below 256 port
  | .preemptVerifyTimeout port => below 259 port
  | .rxAdaptUpdate port => below 259 port
  | .autonegComplete port _ => below 259 port
  | .linkTrainingComplete port _ => below 259 port
  | .verifyMpacketRx port _ => below 259 port
  | .parseReady port mac _ _ => below 259 port && below 2 mac
  | .engineStart pipe engine => below 4 pipe && below 128 engine
  | .seq pipe engine _ => below 4 pipe && below 128 engine
  | .jump pipe engine _ => below 4 pipe && below 128 engine
  | .cjump pipe engine _ => below 4 pipe && below 128 engine
  | .call pipe engine _ => below 4 pipe && below 128 engine
  | .ccall pipe engine _ => below 4 pipe && below 128 engine
  | .ret pipe engine _ => below 4 pipe && below 128 engine
  | .cret pipe engine _ => below 4 pipe && below 128 engine
  | .dispatch pipe engine _ => below 4 pipe && below 128 engine
  | .done pipe engine _ => below 4 pipe && below 128 engine
  | .sideLookupResult pipe engine _ => below 4 pipe && below 128 engine
  | .resume pipe engine => below 4 pipe && below 128 engine
  | .handoffWaitExpiry pipe engine => below 4 pipe && below 128 engine
  | .stopRequest pipe engine => below 4 pipe && below 128 engine
  | .copyReloadDone pipe copy _ => below 4 pipe && below 16 copy
  | .storeScrub pipe _ => below 4 pipe
  | .sideEntryRewrite pipe index => below 4 pipe && below 4096 index
  | .storeWordRead master pipe value => isMaster master && below 4 pipe && isWord value
  | .nodeInsert => true
  | .nodeSweep => true
  | .takeAnySweep => true
  | .supervisionTx pair _ => below 32 pair
  | .streamIdentify _ => true
  | .streamFilter _ => true
  | .portPolicer _ => true
  | .streamGateEntry handle => below 65536 handle
  | .streamGateTakeover handle => below 65536 handle
  | .forwardingDecision _ _ => true
  | .learningRingDeliver => true
  | .learnWrite pipe => below 4 pipe
  | .agingTick pipe fid _ => below 4 pipe && below 4096 fid
  | .moveWindowEnd pipe => below 4 pipe
  | .removalPassDone pipe => below 4 pipe
  | .staticCompare _ => true
  | .staticReinsert => true
  | .commandDecision _ _ => true
  | .engineGrant _ engine => below 32 engine
  | .sealVerifyDone _ engine => below 32 engine
  | .releaseToAdmission _ => true
  | .sealLogSummary port => below 259 port
  | .clusterFault cluster cause => below 4 cluster && below 2 cause
  | .clusterReset cluster => below 4 cluster
  | .cellWrite _ => true
  | .admission _ => true
  | .copyRelease _ _ => true
  | .bankSweep pipe _ => below 4 pipe
  | .listRebuildDone pipe sub => below 4 pipe && below 32 sub
  | .spill _ _ => true
  | .spillComplete _ => true
  | .spillBurstReturn pipe => below 4 pipe
  | .refill pipe => below 4 pipe
  | .refillDone _ _ _ _ => true
  | .privCacheRefill vat _ => below 2 vat
  | .hbmStackFail stack => below 2 stack
  | .creditRequest _ => true
  | .creditGrant group => below 64 group
  | .creditRevoke port cls => below 259 port && below 8 cls
  | .slotMatch _ => true
  | .cellArrive src dst _ _ => below 64 src && below 64 dst
  | .seqReport src dst => below 64 src && below 64 dst
  | .couchGapTimeout src dst => below 64 src && below 64 dst
  | .planeHeartbeatMiss plane group => below 10 plane && below 64 group
  | .planeAuditMarker => true
  | .spareSyncDone => true
  | .spareBringupTimeout => true
  | .planeSelftest plane _ => below 10 plane
  | .rotationStart master plane => isMaster master && below 16 plane
  | .rotationSchedule => true
  | .rotationChangeover => true
  | .rotationComplete => true
  | .schedulerSelect port mac => below 258 port && below 2 mac
  | .frameTransmitEnd port mac => below 258 port && below 2 mac
  | .preempt port => below 256 port
  | .gateStateChange port => below 258 port
  | .gateTakeover port => below 258 port
  | .cbsCreditReachesZero port cls => below 258 port && below 8 cls
  | .tokenBucketReachesZero port cls => below 258 port && below 9 cls
  | .moduleInsert cage => below 64 cage
  | .moduleResetRelease cage => below 64 cage
  | .moduleReadyPoll cage _ => below 64 cage
  | .moduleReadyTimeout cage => below 64 cage
  | .moduleIdentify cage _ => below 64 cage
  | .modulePowerGrant => true
  | .moduleDatapathReady cage => below 64 cage
  | .moduleStep9Timeout cage => below 64 cage
  | .moduleRemove cage => below 64 cage
  | .moduleInt bus _ _ => below 8 bus
  | .i2cTransaction bus _ _ => below 8 bus
  | .i2cRetry bus _ _ _ => below 8 bus
  | .readFailRestart cage => below 64 cage
  | .telemetryRead cage => below 64 cage

end Sys2Proof
end

