-- ==== Sys2Proof/Machine/Counters.lean ====
section
/-! DEFINITION. The counters of the Ream by name, with their scopes (R379). -/

namespace Sys2Proof.Machine

/-- Every counter of the Ream the spec names (R92, R106, R141, R166, R185, R206, R233, R256, R285, R305, R329, R355, R395,
R423), in the order of the chapters. -/
inductive Ctr where
  -- R92
  | rxFrames
  | rxOctets
  | rxFramesOk
  | rxOctetsOk
  | rxRunt
  | rxFcsError
  | rxOversize
  | rxPause
  | txPause
  | rxPfcC0
  | rxPfcC1
  | rxPfcC2
  | rxPfcC3
  | rxPfcC4
  | rxPfcC5
  | rxPfcC6
  | rxPfcC7
  | txPfcC0
  | txPfcC1
  | txPfcC2
  | txPfcC3
  | txPfcC4
  | txPfcC5
  | txPfcC6
  | txPfcC7
  | rxMacCtrlIgnored
  | txFrames
  | txOctets
  | txStomped
  | pauseWdTrip
  | rxPreemptFragments
  | txPreemptFragments
  | txPreempted
  | rxPreemptAssyError
  | fecCorrectedCw
  | fecUncorrectedCw
  | fecSymbolErrors
  | linkDownEvents
  -- R106
  | modInsert
  | modRemove
  | modQuarantine
  | modFault
  | modReadyTimeout
  | modI2cError
  -- R141
  | beaterFrames
  | beaterRestart
  | beaterParity
  | beaterStack
  | beaterIllegal
  | beaterCycleLimit
  | beaterOverrun
  | beaterHandoffTimeout
  | beaterFallbackFrames
  | sideParity
  -- R166
  | lkupDaHit
  | lkupDaMiss
  | learnEvents
  | learnRateDrop
  | learnDrop
  | learnInsert
  | learnRefresh
  | learnMove
  | learnFail
  | learnEvict
  | learnStaticConflict
  | movePinned
  | ageRemoved
  | flushRemoved
  | lkupParity
  | staticRewrite
  | mirrorCopies
  -- R185
  | streamFrames
  | streamSduDrop
  | streamGateDrop
  | streamGateOctets
  | meterGreen
  | meterYellow
  | meterRed
  | polPassFrames
  | polPassOctets
  | polDropFrames
  | streamIdHit
  | streamIdMiss
  | streamBlocked
  -- R206
  | rcvPassed
  | rcvDiscarded
  | rcvOutOfOrder
  | rcvRogue
  | rcvResets
  | rcvNoContext
  | rcvNoSeq
  | rcvStale
  | rnRxA
  | rnRxB
  | rnWrongLan
  | rnUntagged
  | rnOwnRemoved
  | rnNodeInsert
  | rnNodeForget
  | rnTableFull
  | rnSupTx
  | rnSupRx
  | frerGenFrames
  -- R233
  | sealVerified
  | sealTagFail
  | sealStaged
  | sealQBacklog
  | sealLogSuppressed
  | sealUnsyncPass
  | sealClusterFault
  -- R256
  | cellEccCorrected
  | cellEccUncorrectable
  | refcntError
  | listRebuild
  | spillFrames
  | spillDeferred
  | spillFallback
  | refillFrames
  | lastElementContest
  | pointerCheckEvents
  | hbmEccCorrected
  | hbmEccUncorrectable
  | hbmLostFrames
  -- R285
  | fabCellsTx
  | fabCellsRx
  | couchReorder
  | couchLostCells
  | ctFrames
  | ctRefused
  | creditRevoked
  | fabLateCell
  | planeCells
  | planeCrcError
  | planeHbMiss
  | planeFailEvents
  | planeRotations
  -- R305
  | egrQFrames
  | txClassFrames
  | txClassOctets
  | gateTooLong
  | ageDrop
  | gateTakeovers
  | tc1Updates
  | tc1SkippedSealed
  | mirrorTruncated
  -- R329
  | tbSamples
  | tbSteps
  | tbFaults
  | tbHoldoverEntries
  | pairSwitches
  | ptpRx
  | ptpTx
  | tsQueueOverflow
  | tc2Abandoned
  | ptpEngineDrop
  | ptpMgmtIgnored
  | bmcaChanges
  | tioCaptures
  | tioCaptureOverflow
  | tioLate
  -- R355
  | supvTakeovers
  | supvFailures
  | supvForcedSwitches
  | supvCheckpoints
  | thermWarnEvents
  | vmonEvents
  | logRecords
  | logOverrun
  | logPersistLost
  | auditPasses
  | auditMismatch
  | auditRepair
  -- R395
  | auditUnitChecks
  | auditUnitDiscrepancies
  | copiesCreated
  | framesConsumed
  | framesOriginated
  | framesInFlight
  | drop
  -- R423
  | pwrGrants
  | pwrWaits
  | refclkLossEvents
  | srefLossEvents
  deriving DecidableEq, Repr

/-- Part 0 of the counter directory: counter, NAME, SCOPE of R379. -/
def ctrTable0 : List (Ctr × String × Nat) := [
  (.rxFrames, "rx_frames", 1),
  (.rxOctets, "rx_octets", 1),
  (.rxFramesOk, "rx_frames_ok", 1),
  (.rxOctetsOk, "rx_octets_ok", 1),
  (.rxRunt, "rx_runt", 1),
  (.rxFcsError, "rx_fcs_error", 1),
  (.rxOversize, "rx_oversize", 1),
  (.rxPause, "rx_pause", 1),
  (.txPause, "tx_pause", 1),
  (.rxPfcC0, "rx_pfc_c0", 1),
  (.rxPfcC1, "rx_pfc_c1", 1),
  (.rxPfcC2, "rx_pfc_c2", 1),
  (.rxPfcC3, "rx_pfc_c3", 1),
  (.rxPfcC4, "rx_pfc_c4", 1),
  (.rxPfcC5, "rx_pfc_c5", 1),
  (.rxPfcC6, "rx_pfc_c6", 1),
  (.rxPfcC7, "rx_pfc_c7", 1),
  (.txPfcC0, "tx_pfc_c0", 1),
  (.txPfcC1, "tx_pfc_c1", 1),
  (.txPfcC2, "tx_pfc_c2", 1),
  (.txPfcC3, "tx_pfc_c3", 1),
  (.txPfcC4, "tx_pfc_c4", 1),
  (.txPfcC5, "tx_pfc_c5", 1),
  (.txPfcC6, "tx_pfc_c6", 1),
  (.txPfcC7, "tx_pfc_c7", 1),
  (.rxMacCtrlIgnored, "rx_mac_ctrl_ignored", 1),
  (.txFrames, "tx_frames", 1),
  (.txOctets, "tx_octets", 1),
  (.txStomped, "tx_stomped", 1),
  (.pauseWdTrip, "pause_wd_trip", 1)]

/-- Part 1 of the counter directory: counter, NAME, SCOPE of R379. -/
def ctrTable1 : List (Ctr × String × Nat) := [
  (.rxPreemptFragments, "rx_preempt_fragments", 1),
  (.txPreemptFragments, "tx_preempt_fragments", 1),
  (.txPreempted, "tx_preempted", 1),
  (.rxPreemptAssyError, "rx_preempt_assy_error", 1),
  (.fecCorrectedCw, "fec_corrected_cw", 1),
  (.fecUncorrectedCw, "fec_uncorrected_cw", 1),
  (.fecSymbolErrors, "fec_symbol_errors", 1),
  (.linkDownEvents, "link_down_events", 1),
  (.modInsert, "mod_insert", 11),
  (.modRemove, "mod_remove", 11),
  (.modQuarantine, "mod_quarantine", 11),
  (.modFault, "mod_fault", 11),
  (.modReadyTimeout, "mod_ready_timeout", 11),
  (.modI2cError, "mod_i2c_error", 11),
  (.beaterFrames, "beater_frames", 3),
  (.beaterRestart, "beater_restart", 3),
  (.beaterParity, "beater_parity", 3),
  (.beaterStack, "beater_stack", 3),
  (.beaterIllegal, "beater_illegal", 3),
  (.beaterCycleLimit, "beater_cycle_limit", 3),
  (.beaterOverrun, "beater_overrun", 3),
  (.beaterHandoffTimeout, "beater_handoff_timeout", 3),
  (.beaterFallbackFrames, "beater_fallback_frames", 3),
  (.sideParity, "side_parity", 3),
  (.lkupDaHit, "lkup_da_hit", 3),
  (.lkupDaMiss, "lkup_da_miss", 3),
  (.learnEvents, "learn_events", 3),
  (.learnRateDrop, "learn_rate_drop", 3),
  (.learnDrop, "learn_drop", 3),
  (.learnInsert, "learn_insert", 3)]

/-- Part 2 of the counter directory: counter, NAME, SCOPE of R379. -/
def ctrTable2 : List (Ctr × String × Nat) := [
  (.learnRefresh, "learn_refresh", 3),
  (.learnMove, "learn_move", 3),
  (.learnFail, "learn_fail", 3),
  (.learnEvict, "learn_evict", 3),
  (.learnStaticConflict, "learn_static_conflict", 3),
  (.movePinned, "move_pinned", 3),
  (.ageRemoved, "age_removed", 3),
  (.flushRemoved, "flush_removed", 3),
  (.lkupParity, "lkup_parity", 3),
  (.staticRewrite, "static_rewrite", 3),
  (.mirrorCopies, "mirror_copies", 14),
  (.streamFrames, "stream_frames", 6),
  (.streamSduDrop, "stream_sdu_drop", 6),
  (.streamGateDrop, "stream_gate_drop", 6),
  (.streamGateOctets, "stream_gate_octets", 6),
  (.meterGreen, "meter_green", 6),
  (.meterYellow, "meter_yellow", 6),
  (.meterRed, "meter_red", 6),
  (.polPassFrames, "pol_pass_frames", 2),
  (.polPassOctets, "pol_pass_octets", 2),
  (.polDropFrames, "pol_drop_frames", 2),
  (.streamIdHit, "stream_id_hit", 3),
  (.streamIdMiss, "stream_id_miss", 3),
  (.streamBlocked, "stream_blocked", 3),
  (.rcvPassed, "rcv_passed", 7),
  (.rcvDiscarded, "rcv_discarded", 7),
  (.rcvOutOfOrder, "rcv_out_of_order", 7),
  (.rcvRogue, "rcv_rogue", 7),
  (.rcvResets, "rcv_resets", 7),
  (.rcvNoContext, "rcv_no_context", 3)]

/-- Part 3 of the counter directory: counter, NAME, SCOPE of R379. -/
def ctrTable3 : List (Ctr × String × Nat) := [
  (.rcvNoSeq, "rcv_no_seq", 3),
  (.rcvStale, "rcv_stale", 3),
  (.rnRxA, "rn_rx_a", 8),
  (.rnRxB, "rn_rx_b", 8),
  (.rnWrongLan, "rn_wrong_lan", 8),
  (.rnUntagged, "rn_untagged", 8),
  (.rnOwnRemoved, "rn_own_removed", 8),
  (.rnNodeInsert, "rn_node_insert", 8),
  (.rnNodeForget, "rn_node_forget", 8),
  (.rnTableFull, "rn_table_full", 8),
  (.rnSupTx, "rn_sup_tx", 8),
  (.rnSupRx, "rn_sup_rx", 8),
  (.frerGenFrames, "frer_gen_frames", 6),
  (.sealVerified, "seal_verified", 9),
  (.sealTagFail, "seal_tag_fail", 9),
  (.sealStaged, "seal_staged", 10),
  (.sealQBacklog, "seal_q_backlog", 10),
  (.sealLogSuppressed, "seal_log_suppressed", 1),
  (.sealUnsyncPass, "seal_unsync_pass", 15),
  (.sealClusterFault, "seal_cluster_fault", 15),
  (.cellEccCorrected, "cell_ecc_corrected", 3),
  (.cellEccUncorrectable, "cell_ecc_uncorrectable", 3),
  (.refcntError, "refcnt_error", 3),
  (.listRebuild, "list_rebuild", 3),
  (.spillFrames, "spill_frames", 3),
  (.spillDeferred, "spill_deferred", 3),
  (.spillFallback, "spill_fallback", 3),
  (.refillFrames, "refill_frames", 3),
  (.lastElementContest, "last_element_contest", 3),
  (.pointerCheckEvents, "pointer_check_events", 17)]

/-- Part 4 of the counter directory: counter, NAME, SCOPE of R379. -/
def ctrTable4 : List (Ctr × String × Nat) := [
  (.hbmEccCorrected, "hbm_ecc_corrected", 16),
  (.hbmEccUncorrectable, "hbm_ecc_uncorrectable", 16),
  (.hbmLostFrames, "hbm_lost_frames", 16),
  (.fabCellsTx, "fab_cells_tx", 4),
  (.fabCellsRx, "fab_cells_rx", 4),
  (.couchReorder, "couch_reorder", 4),
  (.couchLostCells, "couch_lost_cells", 4),
  (.ctFrames, "ct_frames", 4),
  (.ctRefused, "ct_refused", 4),
  (.creditRevoked, "credit_revoked", 4),
  (.fabLateCell, "fab_late_cell", 4),
  (.planeCells, "plane_cells", 5),
  (.planeCrcError, "plane_crc_error", 5),
  (.planeHbMiss, "plane_hb_miss", 5),
  (.planeFailEvents, "plane_fail_events", 5),
  (.planeRotations, "plane_rotations", 5),
  (.egrQFrames, "egr_q_frames", 2),
  (.txClassFrames, "tx_class_frames", 2),
  (.txClassOctets, "tx_class_octets", 2),
  (.gateTooLong, "gate_too_long", 2),
  (.ageDrop, "age_drop", 2),
  (.gateTakeovers, "gate_takeovers", 1),
  (.tc1Updates, "tc1_updates", 1),
  (.tc1SkippedSealed, "tc1_skipped_sealed", 1),
  (.mirrorTruncated, "mirror_truncated", 14),
  (.tbSamples, "tb_samples", 12),
  (.tbSteps, "tb_steps", 12),
  (.tbFaults, "tb_faults", 12),
  (.tbHoldoverEntries, "tb_holdover_entries", 12),
  (.pairSwitches, "pair_switches", 23)]

/-- Part 5 of the counter directory: counter, NAME, SCOPE of R379. -/
def ctrTable5 : List (Ctr × String × Nat) := [
  (.ptpRx, "ptp_rx", 1),
  (.ptpTx, "ptp_tx", 1),
  (.tsQueueOverflow, "ts_queue_overflow", 1),
  (.tc2Abandoned, "tc2_abandoned", 1),
  (.ptpEngineDrop, "ptp_engine_drop", 18),
  (.ptpMgmtIgnored, "ptp_mgmt_ignored", 18),
  (.bmcaChanges, "bmca_changes", 18),
  (.tioCaptures, "tio_captures", 13),
  (.tioCaptureOverflow, "tio_capture_overflow", 13),
  (.tioLate, "tio_late", 13),
  (.supvTakeovers, "supv_takeovers", 15),
  (.supvFailures, "supv_failures", 15),
  (.supvForcedSwitches, "supv_forced_switches", 15),
  (.supvCheckpoints, "supv_checkpoints", 15),
  (.thermWarnEvents, "therm_warn_events", 15),
  (.vmonEvents, "vmon_events", 15),
  (.logRecords, "log_records", 15),
  (.logOverrun, "log_overrun", 15),
  (.logPersistLost, "log_persist_lost", 15),
  (.auditPasses, "audit_passes", 15),
  (.auditMismatch, "audit_mismatch", 15),
  (.auditRepair, "audit_repair", 15),
  (.auditUnitChecks, "audit_unit_checks", 15),
  (.auditUnitDiscrepancies, "audit_unit_discrepancies", 15),
  (.copiesCreated, "copies_created", 15),
  (.framesConsumed, "frames_consumed", 15),
  (.framesOriginated, "frames_originated", 15),
  (.framesInFlight, "frames_in_flight", 15),
  (.drop, "drop", 19),
  (.pwrGrants, "pwr_grants", 21)]

/-- Part 6 of the counter directory: counter, NAME, SCOPE of R379. -/
def ctrTable6 : List (Ctr × String × Nat) := [
  (.pwrWaits, "pwr_waits", 21),
  (.refclkLossEvents, "refclk_loss_events", 15),
  (.srefLossEvents, "sref_loss_events", 22)]

/-- Every counter with its NAME and SCOPE (R379). -/
def ctrTable : List (Ctr × String × Nat) :=
  ctrTable0 ++ ctrTable1 ++ ctrTable2 ++ ctrTable3 ++ ctrTable4 ++ ctrTable5 ++ ctrTable6

/-- Instances of a counter of a SCOPE (R379): the size of the scope the owning chapters give. -/
def scopeSize : Nat → Nat
  | 1 => 259
  | 2 => 2072
  | 3 => 4
  | 4 => 64
  | 5 => 10
  | 6 => 65536
  | 7 => 65536
  | 8 => 32
  | 9 => 512
  | 10 => 259
  | 11 => 64
  | 12 => 8
  | 13 => 16
  | 14 => 8
  | 15 => 1
  | 16 => 2
  | 17 => 9
  | 18 => 8
  | 19 => 256
  | 20 => 16
  | 21 => 10
  | 22 => 8
  | 23 => 4
  | _ => 0

/-- The model's own number of a counter, from 1 in the order of `Ctr`. The spec gives no KIND numbers; the directory in State
(`HostSt.dir`) maps a KIND to this number. -/
def Ctr.code (c : Ctr) : Nat := c.ctorIdx + 1

/-- Key of instance `i` of counter `c` in the counter store: laid out as a counter ID of R379. -/
def Ctr.key (c : Ctr) (i : Nat) : Nat := 0x100000 * c.code + i % 0x100000

/-- The directory row of a counter's number: NAME and SCOPE. -/
def ctrRow (code : Nat) : Option (Ctr × String × Nat) := ctrTable.find? (fun r => r.1.code == code)

end Sys2Proof.Machine
end

