-- ==== Sys2Proof/Machine/RegMap.lean ====
section
/-! DEFINITION. The register map: every register of the spec with its address, its reset value and its fields
(access type of R15, privilege of R16, range of R424), and a reference for every field. The addresses, resets and
fields are transcribed from the register sections of spec/00_scope.md to spec/17_physical.md; R25 and R27 give the
address structure. -/

namespace Sys2Proof.Machine

/-- Access types of R15. No field of the spec is RWH. -/
inductive Acc where
  | rw | ro | w1c | w1s | cnt | wo
  deriving DecidableEq, Repr

/-- A range stated for a field (R424). `zeroOr` also admits zero, which the field's entry gives a meaning of its own. -/
inductive Rng where
  | any
  | within (lo hi : Nat)
  | zeroOr (lo hi : Nat)
  deriving DecidableEq, Repr

/-- One field of a register: lowest bit, width, access type, /P suffix, range. -/
structure RField where
  lo : Nat
  width : Nat
  acc : Acc
  priv : Bool
  rng : Rng
  deriving DecidableEq, Repr

/-- One register heading of the spec. `blocks` lists (base address, index ranges as (count, stride), outermost first);
`resets` holds one reset value, or one per value of the first index. -/
structure RDecl where
  name : String
  blocks : List (Nat × List (Nat × Nat))
  resets : List Nat
  fields : List RField
  deriving DecidableEq, Repr

/-- Offset of port `n`'s block from the start of zone PORT (R27): the group's unit and the lane's 4 KiB block; MG0 and MG1
are units 0x40 and 0x41. -/
def portBlock (n : Nat) : Nat :=
  if n < 256 then 0x10000 * (n / 4) + 0x1000 * (n % 4) else 0x400000 + 0x10000 * (n - 256)

/-- Offset of port `n`'s block from the start of zone EGRS (R27): MG0 and MG1 are blocks k = 4 and 5 of unit 0x00. -/
def egrsBlock (n : Nat) : Nat :=
  if n < 256 then 0x10000 * (n / 4) + 0x1000 * (n % 4) else 0x4000 + 0x1000 * (n - 256)

namespace Reg

/-- Address of DEV_IDENT (spec/00_scope.md). -/
def DEV_IDENT.addr : Nat := 0x00000000
def DEV_IDENT.PART : FRef := ⟨DEV_IDENT.addr, 16, 16⟩
def DEV_IDENT.STEPPING : FRef := ⟨DEV_IDENT.addr, 8, 8⟩
def DEV_IDENT.GRADE : FRef := ⟨DEV_IDENT.addr, 4, 4⟩
/-- Address of DEV_STRAP (spec/02_startup.md). -/
def DEV_STRAP.addr : Nat := 0x00000004
def DEV_STRAP.NVM_MODE : FRef := ⟨DEV_STRAP.addr, 2, 1⟩
def DEV_STRAP.BOOT_SEL : FRef := ⟨DEV_STRAP.addr, 0, 2⟩
/-- Address of DEV_BOOT_STATUS (spec/02_startup.md). -/
def DEV_BOOT_STATUS.addr : Nat := 0x00000008
def DEV_BOOT_STATUS.PHASE : FRef := ⟨DEV_BOOT_STATUS.addr, 28, 4⟩
def DEV_BOOT_STATUS.SOURCE : FRef := ⟨DEV_BOOT_STATUS.addr, 26, 2⟩
def DEV_BOOT_STATUS.UNPROV : FRef := ⟨DEV_BOOT_STATUS.addr, 25, 1⟩
def DEV_BOOT_STATUS.NVA_RESULT : FRef := ⟨DEV_BOOT_STATUS.addr, 16, 8⟩
def DEV_BOOT_STATUS.NVB_RESULT : FRef := ⟨DEV_BOOT_STATUS.addr, 8, 8⟩
/-- Address of DEV_BOOT_TIME (spec/02_startup.md). -/
def DEV_BOOT_TIME.addr : Nat := 0x0000000C
def DEV_BOOT_TIME.RELEASE_US : FRef := ⟨DEV_BOOT_TIME.addr, 0, 32⟩
/-- Address of DEV_AMD_STATUS (spec/02_startup.md). -/
def DEV_AMD_STATUS.addr : Nat := 0x00000100
def DEV_AMD_STATUS.STAGED : FRef := ⟨DEV_AMD_STATUS.addr, 31, 1⟩
def DEV_AMD_STATUS.LATE : FRef := ⟨DEV_AMD_STATUS.addr, 30, 1⟩
def DEV_AMD_STATUS.DEGRADED : FRef := ⟨DEV_AMD_STATUS.addr, 29, 1⟩
def DEV_AMD_STATUS.LAST_REJECT : FRef := ⟨DEV_AMD_STATUS.addr, 16, 8⟩
def DEV_AMD_STATUS.JOURNAL_FREE : FRef := ⟨DEV_AMD_STATUS.addr, 0, 9⟩
/-- Address of DEV_AMD_SEQ_LO (spec/02_startup.md). -/
def DEV_AMD_SEQ_LO.addr : Nat := 0x00000104
def DEV_AMD_SEQ_LO.SEQ : FRef := ⟨DEV_AMD_SEQ_LO.addr, 0, 32⟩
/-- Address of DEV_AMD_SEQ_HI (spec/02_startup.md). -/
def DEV_AMD_SEQ_HI.addr : Nat := 0x00000108
def DEV_AMD_SEQ_HI.SEQ : FRef := ⟨DEV_AMD_SEQ_HI.addr, 0, 32⟩
/-- Address of DEV_FUSE_DEVNUM (spec/02_startup.md). -/
def DEV_FUSE_DEVNUM.addr : Nat := 0x00010000
def DEV_FUSE_DEVNUM.DEVNUM : FRef := ⟨DEV_FUSE_DEVNUM.addr, 0, 16⟩
/-- Address of DEV_FUSE_REALM (spec/02_startup.md). -/
def DEV_FUSE_REALM.addr : Nat := 0x00010004
def DEV_FUSE_REALM.REALM_ID : FRef := ⟨DEV_FUSE_REALM.addr, 0, 32⟩
/-- Address of DEV_FUSE_COUNT (spec/02_startup.md). -/
def DEV_FUSE_COUNT.addr : Nat := 0x00010008
def DEV_FUSE_COUNT.EPOCH : FRef := ⟨DEV_FUSE_COUNT.addr, 0, 7⟩
/-- Address of DEV_FUSE_MAC_LO (spec/02_startup.md). -/
def DEV_FUSE_MAC_LO.addr : Nat := 0x0001000C
def DEV_FUSE_MAC_LO.MAC_LO : FRef := ⟨DEV_FUSE_MAC_LO.addr, 0, 32⟩
/-- Address of DEV_FUSE_MAC_HI (spec/02_startup.md). -/
def DEV_FUSE_MAC_HI.addr : Nat := 0x00010010
def DEV_FUSE_MAC_HI.MAC_HI : FRef := ⟨DEV_FUSE_MAC_HI.addr, 0, 16⟩
/-- Address of PORT_GRP_MODE (spec/03_lanes_ports.md). -/
def PORT_GRP_MODE.addr (i : Nat) : Nat := 0x01000000 + 0x10000 * i
def PORT_GRP_MODE.RX_POL (i : Nat) : FRef := ⟨PORT_GRP_MODE.addr i, 8, 4⟩
def PORT_GRP_MODE.TX_POL (i : Nat) : FRef := ⟨PORT_GRP_MODE.addr i, 4, 4⟩
def PORT_GRP_MODE.MODE (i : Nat) : FRef := ⟨PORT_GRP_MODE.addr i, 0, 4⟩
/-- Address of PORT_GRP_STATUS (spec/03_lanes_ports.md). -/
def PORT_GRP_STATUS.addr (i : Nat) : Nat := 0x01000004 + 0x10000 * i
def PORT_GRP_STATUS.TX_PLL_LOCK (i : Nat) : FRef := ⟨PORT_GRP_STATUS.addr i, 16, 1⟩
def PORT_GRP_STATUS.TXEQ_ERR (i : Nat) : FRef := ⟨PORT_GRP_STATUS.addr i, 12, 4⟩
def PORT_GRP_STATUS.CDR_LOCK (i : Nat) : FRef := ⟨PORT_GRP_STATUS.addr i, 8, 4⟩
def PORT_GRP_STATUS.SIG_DET (i : Nat) : FRef := ⟨PORT_GRP_STATUS.addr i, 4, 4⟩
def PORT_GRP_STATUS.MODE_ACTIVE (i : Nat) : FRef := ⟨PORT_GRP_STATUS.addr i, 0, 4⟩
/-- Address of PORT_LANE_TXEQ (spec/03_lanes_ports.md). -/
def PORT_LANE_TXEQ.addr (i j : Nat) : Nat := 0x01000100 + 0x10000 * i + 0x4 * j
def PORT_LANE_TXEQ.C_M3 (i j : Nat) : FRef := ⟨PORT_LANE_TXEQ.addr i j, 25, 6⟩
def PORT_LANE_TXEQ.C_M2 (i j : Nat) : FRef := ⟨PORT_LANE_TXEQ.addr i j, 19, 6⟩
def PORT_LANE_TXEQ.C_M1 (i j : Nat) : FRef := ⟨PORT_LANE_TXEQ.addr i j, 13, 6⟩
def PORT_LANE_TXEQ.C_P1 (i j : Nat) : FRef := ⟨PORT_LANE_TXEQ.addr i j, 7, 6⟩
def PORT_LANE_TXEQ.C_0 (i j : Nat) : FRef := ⟨PORT_LANE_TXEQ.addr i j, 0, 7⟩
/-- Address of PORT_LANE_TXEQ_ACT (spec/03_lanes_ports.md). -/
def PORT_LANE_TXEQ_ACT.addr (i j : Nat) : Nat := 0x01000110 + 0x10000 * i + 0x4 * j
def PORT_LANE_TXEQ_ACT.C_M3 (i j : Nat) : FRef := ⟨PORT_LANE_TXEQ_ACT.addr i j, 25, 6⟩
def PORT_LANE_TXEQ_ACT.C_M2 (i j : Nat) : FRef := ⟨PORT_LANE_TXEQ_ACT.addr i j, 19, 6⟩
def PORT_LANE_TXEQ_ACT.C_M1 (i j : Nat) : FRef := ⟨PORT_LANE_TXEQ_ACT.addr i j, 13, 6⟩
def PORT_LANE_TXEQ_ACT.C_P1 (i j : Nat) : FRef := ⟨PORT_LANE_TXEQ_ACT.addr i j, 7, 6⟩
def PORT_LANE_TXEQ_ACT.C_0 (i j : Nat) : FRef := ⟨PORT_LANE_TXEQ_ACT.addr i j, 0, 7⟩
/-- Address of PORT_CFG (spec/03_lanes_ports.md). -/
def PORT_CFG.addr (n : Nat) : Nat := 0x01004000 + portBlock n
def PORT_CFG.ADMIN_EN (n : Nat) : FRef := ⟨PORT_CFG.addr n, 31, 1⟩
def PORT_CFG.KEEP_LEARNED (n : Nat) : FRef := ⟨PORT_CFG.addr n, 30, 1⟩
def PORT_CFG.AN_EN (n : Nat) : FRef := ⟨PORT_CFG.addr n, 29, 1⟩
def PORT_CFG.LT_EN (n : Nat) : FRef := ⟨PORT_CFG.addr n, 28, 1⟩
def PORT_CFG.FEC (n : Nat) : FRef := ⟨PORT_CFG.addr n, 26, 2⟩
def PORT_CFG.MAX_FRAME (n : Nat) : FRef := ⟨PORT_CFG.addr n, 0, 14⟩
/-- Address of PORT_LINK_TIMING (spec/03_lanes_ports.md). -/
def PORT_LINK_TIMING.addr (n : Nat) : Nat := 0x01004004 + portBlock n
def PORT_LINK_TIMING.LINK_UP_STABLE (n : Nat) : FRef := ⟨PORT_LINK_TIMING.addr n, 18, 10⟩
def PORT_LINK_TIMING.LINK_HOLD (n : Nat) : FRef := ⟨PORT_LINK_TIMING.addr n, 0, 17⟩
/-- Address of PORT_STATUS (spec/03_lanes_ports.md). -/
def PORT_STATUS.addr (n : Nat) : Nat := 0x01004008 + portBlock n
def PORT_STATUS.LINK_UP (n : Nat) : FRef := ⟨PORT_STATUS.addr n, 31, 1⟩
def PORT_STATUS.HOLD (n : Nat) : FRef := ⟨PORT_STATUS.addr n, 30, 1⟩
def PORT_STATUS.FLUSHING (n : Nat) : FRef := ⟨PORT_STATUS.addr n, 29, 1⟩
def PORT_STATUS.AN_DONE (n : Nat) : FRef := ⟨PORT_STATUS.addr n, 28, 1⟩
def PORT_STATUS.LT_DONE (n : Nat) : FRef := ⟨PORT_STATUS.addr n, 27, 1⟩
def PORT_STATUS.LOCAL_FAULT (n : Nat) : FRef := ⟨PORT_STATUS.addr n, 26, 1⟩
def PORT_STATUS.REMOTE_FAULT (n : Nat) : FRef := ⟨PORT_STATUS.addr n, 25, 1⟩
def PORT_STATUS.CFG_ERR (n : Nat) : FRef := ⟨PORT_STATUS.addr n, 24, 1⟩
def PORT_STATUS.CFG_CLAMP (n : Nat) : FRef := ⟨PORT_STATUS.addr n, 23, 1⟩
def PORT_STATUS.PREEMPT_ACTIVE (n : Nat) : FRef := ⟨PORT_STATUS.addr n, 22, 1⟩
def PORT_STATUS.VERIFY_STATUS (n : Nat) : FRef := ⟨PORT_STATUS.addr n, 20, 2⟩
def PORT_STATUS.FEC_ACTIVE (n : Nat) : FRef := ⟨PORT_STATUS.addr n, 18, 2⟩
/-- Address of PORT_PAUSE_CFG (spec/03_lanes_ports.md). -/
def PORT_PAUSE_CFG.addr (n : Nat) : Nat := 0x01004010 + portBlock n
def PORT_PAUSE_CFG.MODE (n : Nat) : FRef := ⟨PORT_PAUSE_CFG.addr n, 30, 2⟩
def PORT_PAUSE_CFG.TX_EN (n : Nat) : FRef := ⟨PORT_PAUSE_CFG.addr n, 29, 1⟩
def PORT_PAUSE_CFG.RX_EN (n : Nat) : FRef := ⟨PORT_PAUSE_CFG.addr n, 28, 1⟩
def PORT_PAUSE_CFG.PFC_CLASSES (n : Nat) : FRef := ⟨PORT_PAUSE_CFG.addr n, 16, 8⟩
def PORT_PAUSE_CFG.QUANTA (n : Nat) : FRef := ⟨PORT_PAUSE_CFG.addr n, 0, 16⟩
/-- Address of PORT_PAUSE_WD (spec/03_lanes_ports.md). -/
def PORT_PAUSE_WD.addr (n : Nat) : Nat := 0x01004014 + portBlock n
def PORT_PAUSE_WD.WD_HOLD_MS (n : Nat) : FRef := ⟨PORT_PAUSE_WD.addr n, 16, 16⟩
def PORT_PAUSE_WD.WD_MS (n : Nat) : FRef := ⟨PORT_PAUSE_WD.addr n, 0, 14⟩
/-- Address of PORT_PAUSE_STAT (spec/03_lanes_ports.md). -/
def PORT_PAUSE_STAT.addr (n : Nat) : Nat := 0x01004018 + portBlock n
def PORT_PAUSE_STAT.WD_HOLD (n : Nat) : FRef := ⟨PORT_PAUSE_STAT.addr n, 16, 8⟩
def PORT_PAUSE_STAT.RX_PAUSED (n : Nat) : FRef := ⟨PORT_PAUSE_STAT.addr n, 8, 8⟩
def PORT_PAUSE_STAT.TX_XOFF (n : Nat) : FRef := ⟨PORT_PAUSE_STAT.addr n, 0, 8⟩
/-- Address of PORT_PREEMPT_CFG (spec/03_lanes_ports.md). -/
def PORT_PREEMPT_CFG.addr (n : Nat) : Nat := 0x0100401C + portBlock n
def PORT_PREEMPT_CFG.EN (n : Nat) : FRef := ⟨PORT_PREEMPT_CFG.addr n, 31, 1⟩
def PORT_PREEMPT_CFG.VERIFY_DIS (n : Nat) : FRef := ⟨PORT_PREEMPT_CFG.addr n, 30, 1⟩
def PORT_PREEMPT_CFG.VERIFY_TIME (n : Nat) : FRef := ⟨PORT_PREEMPT_CFG.addr n, 16, 8⟩
def PORT_PREEMPT_CFG.ADD_FRAG_SIZE (n : Nat) : FRef := ⟨PORT_PREEMPT_CFG.addr n, 0, 2⟩
/-- Address of PORT_TS_ADJ (spec/03_lanes_ports.md). -/
def PORT_TS_ADJ.addr (n : Nat) : Nat := 0x01004020 + portBlock n
def PORT_TS_ADJ.TX_ADJ (n : Nat) : FRef := ⟨PORT_TS_ADJ.addr n, 16, 16⟩
def PORT_TS_ADJ.RX_ADJ (n : Nat) : FRef := ⟨PORT_TS_ADJ.addr n, 0, 16⟩
/-- Address of PORT_PAUSE_HI (spec/03_lanes_ports.md). -/
def PORT_PAUSE_HI.addr (n c : Nat) : Nat := 0x01004040 + portBlock n + 0x4 * c
def PORT_PAUSE_HI.CELLS (n c : Nat) : FRef := ⟨PORT_PAUSE_HI.addr n c, 0, 18⟩
/-- Address of PORT_PAUSE_LO (spec/03_lanes_ports.md). -/
def PORT_PAUSE_LO.addr (n c : Nat) : Nat := 0x01004060 + portBlock n + 0x4 * c
def PORT_PAUSE_LO.CELLS (n c : Nat) : FRef := ⟨PORT_PAUSE_LO.addr n c, 0, 18⟩
/-- Address of MODL_BUS_CFG (spec/04_modules.md). -/
def MODL_BUS_CFG.addr (i : Nat) : Nat := 0x02000000 + 0x10000 * i
def MODL_BUS_CFG.MUX_EN (i : Nat) : FRef := ⟨MODL_BUS_CFG.addr i, 5, 1⟩
def MODL_BUS_CFG.MUX_ADDR (i : Nat) : FRef := ⟨MODL_BUS_CFG.addr i, 2, 3⟩
def MODL_BUS_CFG.SPEED (i : Nat) : FRef := ⟨MODL_BUS_CFG.addr i, 0, 2⟩
/-- Address of MODL_BUS_STATUS (spec/04_modules.md). -/
def MODL_BUS_STATUS.addr (i : Nat) : Nat := 0x02000004 + 0x10000 * i
def MODL_BUS_STATUS.STUCK (i : Nat) : FRef := ⟨MODL_BUS_STATUS.addr i, 2, 1⟩
def MODL_BUS_STATUS.MUX_ERR (i : Nat) : FRef := ⟨MODL_BUS_STATUS.addr i, 1, 1⟩
def MODL_BUS_STATUS.INT_ACTIVE (i : Nat) : FRef := ⟨MODL_BUS_STATUS.addr i, 0, 1⟩
/-- Address of MODL_PRS_LO (spec/04_modules.md). -/
def MODL_PRS_LO.addr : Nat := 0x02100000
def MODL_PRS_LO.PRESENT : FRef := ⟨MODL_PRS_LO.addr, 0, 32⟩
/-- Address of MODL_PRS_HI (spec/04_modules.md). -/
def MODL_PRS_HI.addr : Nat := 0x02100004
def MODL_PRS_HI.PRESENT : FRef := ⟨MODL_PRS_HI.addr, 0, 32⟩
/-- Address of MODL_CAGE_CFG (spec/04_modules.md). -/
def MODL_CAGE_CFG.addr (i : Nat) : Nat := 0x02100100 + 0x4 * i
def MODL_CAGE_CFG.EN (i : Nat) : FRef := ⟨MODL_CAGE_CFG.addr i, 31, 1⟩
def MODL_CAGE_CFG.APP_AUTO (i : Nat) : FRef := ⟨MODL_CAGE_CFG.addr i, 30, 1⟩
def MODL_CAGE_CFG.INIT_RESET (i : Nat) : FRef := ⟨MODL_CAGE_CFG.addr i, 29, 1⟩
def MODL_CAGE_CFG.PRIORITY (i : Nat) : FRef := ⟨MODL_CAGE_CFG.addr i, 24, 3⟩
def MODL_CAGE_CFG.WIDTH (i : Nat) : FRef := ⟨MODL_CAGE_CFG.addr i, 12, 2⟩
def MODL_CAGE_CFG.FIRST_LANE (i : Nat) : FRef := ⟨MODL_CAGE_CFG.addr i, 10, 2⟩
def MODL_CAGE_CFG.GROUP (i : Nat) : FRef := ⟨MODL_CAGE_CFG.addr i, 0, 6⟩
/-- Address of MODL_CAGE_STATUS (spec/04_modules.md). -/
def MODL_CAGE_STATUS.addr (i : Nat) : Nat := 0x02100200 + 0x4 * i
def MODL_CAGE_STATUS.STATE (i : Nat) : FRef := ⟨MODL_CAGE_STATUS.addr i, 28, 4⟩
def MODL_CAGE_STATUS.QREASON (i : Nat) : FRef := ⟨MODL_CAGE_STATUS.addr i, 24, 4⟩
def MODL_CAGE_STATUS.SPEC (i : Nat) : FRef := ⟨MODL_CAGE_STATUS.addr i, 21, 3⟩
def MODL_CAGE_STATUS.PRESENT (i : Nat) : FRef := ⟨MODL_CAGE_STATUS.addr i, 20, 1⟩
def MODL_CAGE_STATUS.GRANTED (i : Nat) : FRef := ⟨MODL_CAGE_STATUS.addr i, 19, 1⟩
def MODL_CAGE_STATUS.CFG_ERR (i : Nat) : FRef := ⟨MODL_CAGE_STATUS.addr i, 18, 1⟩
def MODL_CAGE_STATUS.GRANT (i : Nat) : FRef := ⟨MODL_CAGE_STATUS.addr i, 0, 8⟩
/-- Address of PARS_CFG (spec/05_beater.md). -/
def PARS_CFG.addr (i : Nat) : Nat := 0x03000000 + 0x10000 * i
def PARS_CFG.HANDOFF_WAIT (i : Nat) : FRef := ⟨PARS_CFG.addr i, 24, 8⟩
def PARS_CFG.HOOK_EN (i : Nat) : FRef := ⟨PARS_CFG.addr i, 20, 4⟩
def PARS_CFG.MAX_CYCLES (i : Nat) : FRef := ⟨PARS_CFG.addr i, 0, 16⟩
/-- Address of PARS_STATUS (spec/05_beater.md). -/
def PARS_STATUS.addr (i : Nat) : Nat := 0x03000004 + 0x10000 * i
def PARS_STATUS.FALLBACK (i : Nat) : FRef := ⟨PARS_STATUS.addr i, 31, 1⟩
def PARS_STATUS.CUST_SEL (i : Nat) : FRef := ⟨PARS_STATUS.addr i, 30, 1⟩
def PARS_STATUS.IN_SERVICE (i : Nat) : FRef := ⟨PARS_STATUS.addr i, 16, 5⟩
def PARS_STATUS.PARKED (i : Nat) : FRef := ⟨PARS_STATUS.addr i, 0, 8⟩
/-- Address of PARS_COPY_STATUS (spec/05_beater.md). -/
def PARS_COPY_STATUS.addr (i : Nat) : Nat := 0x03000008 + 0x10000 * i
def PARS_COPY_STATUS.RELOADING (i : Nat) : FRef := ⟨PARS_COPY_STATUS.addr i, 16, 16⟩
def PARS_COPY_STATUS.OUT (i : Nat) : FRef := ⟨PARS_COPY_STATUS.addr i, 0, 16⟩
/-- Address of PARS_MC_LOG (spec/05_beater.md). -/
def PARS_MC_LOG.addr (i : Nat) : Nat := 0x03000010 + 0x10000 * i
def PARS_MC_LOG.VALID (i : Nat) : FRef := ⟨PARS_MC_LOG.addr i, 31, 1⟩
def PARS_MC_LOG.TYPE (i : Nat) : FRef := ⟨PARS_MC_LOG.addr i, 28, 3⟩
def PARS_MC_LOG.COPY (i : Nat) : FRef := ⟨PARS_MC_LOG.addr i, 24, 4⟩
def PARS_MC_LOG.ENGINE (i : Nat) : FRef := ⟨PARS_MC_LOG.addr i, 17, 7⟩
def PARS_MC_LOG.WORD (i : Nat) : FRef := ⟨PARS_MC_LOG.addr i, 0, 14⟩
/-- Address of PARS_SIDE_ERR (spec/05_beater.md). -/
def PARS_SIDE_ERR.addr (i : Nat) : Nat := 0x03000014 + 0x10000 * i
def PARS_SIDE_ERR.VALID (i : Nat) : FRef := ⟨PARS_SIDE_ERR.addr i, 31, 1⟩
def PARS_SIDE_ERR.INDEX (i : Nat) : FRef := ⟨PARS_SIDE_ERR.addr i, 0, 12⟩
/-- Address of PARS_STORE_SEL (spec/05_beater.md). -/
def PARS_STORE_SEL.addr (i : Nat) : Nat := 0x03000020 + 0x10000 * i
def PARS_STORE_SEL.READ (i : Nat) : FRef := ⟨PARS_STORE_SEL.addr i, 31, 1⟩
def PARS_STORE_SEL.COPY (i : Nat) : FRef := ⟨PARS_STORE_SEL.addr i, 16, 4⟩
def PARS_STORE_SEL.HALF (i : Nat) : FRef := ⟨PARS_STORE_SEL.addr i, 15, 1⟩
def PARS_STORE_SEL.WORD (i : Nat) : FRef := ⟨PARS_STORE_SEL.addr i, 0, 14⟩
/-- Address of PARS_STORE_DATA (spec/05_beater.md). -/
def PARS_STORE_DATA.addr (i j : Nat) : Nat := 0x03000040 + 0x10000 * i + 0x4 * j
def PARS_STORE_DATA.DATA (i j : Nat) : FRef := ⟨PARS_STORE_DATA.addr i j, 0, 32⟩
/-- Address of LKUP_TBL_CTRL (spec/06_lookup.md). -/
def LKUP_TBL_CTRL.addr (i : Nat) : Nat := 0x04000000 + 0x10000 * i
def LKUP_TBL_CTRL.LEARN_EN (i : Nat) : FRef := ⟨LKUP_TBL_CTRL.addr i, 31, 1⟩
def LKUP_TBL_CTRL.AGE_EN (i : Nat) : FRef := ⟨LKUP_TBL_CTRL.addr i, 30, 1⟩
/-- Address of LKUP_HASH_SEED0 (spec/06_lookup.md). -/
def LKUP_HASH_SEED0.addr (i : Nat) : Nat := 0x04000004 + 0x10000 * i
def LKUP_HASH_SEED0.SEED (i : Nat) : FRef := ⟨LKUP_HASH_SEED0.addr i, 0, 32⟩
/-- Address of LKUP_HASH_SEED1 (spec/06_lookup.md). -/
def LKUP_HASH_SEED1.addr (i : Nat) : Nat := 0x04000008 + 0x10000 * i
def LKUP_HASH_SEED1.SEED (i : Nat) : FRef := ⟨LKUP_HASH_SEED1.addr i, 0, 32⟩
/-- Address of LKUP_MOVE_CFG (spec/06_lookup.md). -/
def LKUP_MOVE_CFG.addr (i : Nat) : Nat := 0x0400000C + 0x10000 * i
def LKUP_MOVE_CFG.MOVE_LIMIT (i : Nat) : FRef := ⟨LKUP_MOVE_CFG.addr i, 28, 4⟩
def LKUP_MOVE_CFG.MOVE_WINDOW_MS (i : Nat) : FRef := ⟨LKUP_MOVE_CFG.addr i, 0, 16⟩
/-- Address of LKUP_TBL_STATUS (spec/06_lookup.md). -/
def LKUP_TBL_STATUS.addr (i : Nat) : Nat := 0x04000010 + 0x10000 * i
def LKUP_TBL_STATUS.COMMIT_VIEW (i : Nat) : FRef := ⟨LKUP_TBL_STATUS.addr i, 31, 1⟩
def LKUP_TBL_STATUS.RELOCATING (i : Nat) : FRef := ⟨LKUP_TBL_STATUS.addr i, 30, 1⟩
def LKUP_TBL_STATUS.FLUSHING (i : Nat) : FRef := ⟨LKUP_TBL_STATUS.addr i, 29, 1⟩
def LKUP_TBL_STATUS.LEARN_Q (i : Nat) : FRef := ⟨LKUP_TBL_STATUS.addr i, 0, 11⟩
/-- Address of LKUP_TBL_COUNT (spec/06_lookup.md). -/
def LKUP_TBL_COUNT.addr (i : Nat) : Nat := 0x04000014 + 0x10000 * i
def LKUP_TBL_COUNT.LEARNED (i : Nat) : FRef := ⟨LKUP_TBL_COUNT.addr i, 0, 22⟩
/-- Address of LKUP_TBL_STATIC (spec/06_lookup.md). -/
def LKUP_TBL_STATIC.addr (i : Nat) : Nat := 0x04000018 + 0x10000 * i
def LKUP_TBL_STATIC.STATIC (i : Nat) : FRef := ⟨LKUP_TBL_STATIC.addr i, 0, 19⟩
/-- Address of LKUP_PAR_ERR (spec/06_lookup.md). -/
def LKUP_PAR_ERR.addr (i : Nat) : Nat := 0x0400001C + 0x10000 * i
def LKUP_PAR_ERR.VALID (i : Nat) : FRef := ⟨LKUP_PAR_ERR.addr i, 31, 1⟩
def LKUP_PAR_ERR.INDEX (i : Nat) : FRef := ⟨LKUP_PAR_ERR.addr i, 0, 21⟩
/-- Address of LKUP_PORT_CFG (spec/06_lookup.md). -/
def LKUP_PORT_CFG.addr (i j : Nat) : Nat := 0x04001000 + 0x10000 * i + 0x4 * j
def LKUP_PORT_CFG.LEARN_EN (i j : Nat) : FRef := ⟨LKUP_PORT_CFG.addr i j, 31, 1⟩
def LKUP_PORT_CFG.INGRESS_FILTER (i j : Nat) : FRef := ⟨LKUP_PORT_CFG.addr i j, 30, 1⟩
def LKUP_PORT_CFG.HAIRPIN (i j : Nat) : FRef := ⟨LKUP_PORT_CFG.addr i j, 29, 1⟩
def LKUP_PORT_CFG.TPID_SEL (i j : Nat) : FRef := ⟨LKUP_PORT_CFG.addr i j, 28, 1⟩
def LKUP_PORT_CFG.PVID (i j : Nat) : FRef := ⟨LKUP_PORT_CFG.addr i j, 0, 12⟩
/-- Address of LKUP_RING_CFG (spec/06_lookup.md). -/
def LKUP_RING_CFG.addr : Nat := 0x04100000
def LKUP_RING_CFG.RATE_K : FRef := ⟨LKUP_RING_CFG.addr, 0, 12⟩
/-- Address of LKUP_MIR_CFG (spec/06_lookup.md). -/
def LKUP_MIR_CFG.addr (i : Nat) : Nat := 0x04210000 + 0x100 * i
def LKUP_MIR_CFG.EN (i : Nat) : FRef := ⟨LKUP_MIR_CFG.addr i, 31, 1⟩
def LKUP_MIR_CFG.DIR (i : Nat) : FRef := ⟨LKUP_MIR_CFG.addr i, 30, 1⟩
def LKUP_MIR_CFG.BY_STREAM (i : Nat) : FRef := ⟨LKUP_MIR_CFG.addr i, 29, 1⟩
def LKUP_MIR_CFG.CFG_ERR (i : Nat) : FRef := ⟨LKUP_MIR_CFG.addr i, 28, 1⟩
def LKUP_MIR_CFG.CLASS (i : Nat) : FRef := ⟨LKUP_MIR_CFG.addr i, 20, 3⟩
def LKUP_MIR_CFG.DEST (i : Nat) : FRef := ⟨LKUP_MIR_CFG.addr i, 0, 9⟩
/-- Address of LKUP_MIR_STREAM (spec/06_lookup.md). -/
def LKUP_MIR_STREAM.addr (i : Nat) : Nat := 0x04210004 + 0x100 * i
def LKUP_MIR_STREAM.LAST (i : Nat) : FRef := ⟨LKUP_MIR_STREAM.addr i, 16, 16⟩
def LKUP_MIR_STREAM.FIRST (i : Nat) : FRef := ⟨LKUP_MIR_STREAM.addr i, 0, 16⟩
/-- Address of LKUP_MIR_PORTS (spec/06_lookup.md). -/
def LKUP_MIR_PORTS.addr (i j : Nat) : Nat := 0x04210040 + 0x100 * i + 0x4 * j
def LKUP_MIR_PORTS.PORTS (i j : Nat) : FRef := ⟨LKUP_MIR_PORTS.addr i j, 0, 32⟩
/-- Address of STRM_CFG (spec/07_streams.md). -/
def STRM_CFG.addr (i : Nat) : Nat := 0x05000000 + 0x10000 * i
def STRM_CFG.ID_EN (i : Nat) : FRef := ⟨STRM_CFG.addr i, 31, 1⟩
/-- Address of STRM_ID_SEED (spec/07_streams.md). -/
def STRM_ID_SEED.addr (i : Nat) : Nat := 0x05000004 + 0x10000 * i
def STRM_ID_SEED.SEED (i : Nat) : FRef := ⟨STRM_ID_SEED.addr i, 0, 32⟩
/-- Address of STRM_BLOCKS_LO (spec/07_streams.md). -/
def STRM_BLOCKS_LO.addr (i : Nat) : Nat := 0x05000008 + 0x10000 * i
def STRM_BLOCKS_LO.OWN (i : Nat) : FRef := ⟨STRM_BLOCKS_LO.addr i, 0, 32⟩
/-- Address of STRM_BLOCKS_HI (spec/07_streams.md). -/
def STRM_BLOCKS_HI.addr (i : Nat) : Nat := 0x0500000C + 0x10000 * i
def STRM_BLOCKS_HI.OWN (i : Nat) : FRef := ⟨STRM_BLOCKS_HI.addr i, 0, 32⟩
/-- Address of STRM_STATUS (spec/07_streams.md). -/
def STRM_STATUS.addr (i : Nat) : Nat := 0x05000010 + 0x10000 * i
def STRM_STATUS.ENTRIES (i : Nat) : FRef := ⟨STRM_STATUS.addr i, 8, 17⟩
def STRM_STATUS.WAITING (i : Nat) : FRef := ⟨STRM_STATUS.addr i, 0, 8⟩
/-- Address of STRM_ID_COUNT (spec/07_streams.md). -/
def STRM_ID_COUNT.addr (i : Nat) : Nat := 0x05000014 + 0x10000 * i
def STRM_ID_COUNT.IP (i : Nat) : FRef := ⟨STRM_ID_COUNT.addr i, 24, 8⟩
def STRM_ID_COUNT.ACTIVE (i : Nat) : FRef := ⟨STRM_ID_COUNT.addr i, 16, 8⟩
def STRM_ID_COUNT.NULL (i : Nat) : FRef := ⟨STRM_ID_COUNT.addr i, 8, 8⟩
def STRM_ID_COUNT.SMAC (i : Nat) : FRef := ⟨STRM_ID_COUNT.addr i, 0, 8⟩
/-- Address of STRM_BLOCKED_CNT (spec/07_streams.md). -/
def STRM_BLOCKED_CNT.addr (i : Nat) : Nat := 0x05000018 + 0x10000 * i
def STRM_BLOCKED_CNT.BLOCKED (i : Nat) : FRef := ⟨STRM_BLOCKED_CNT.addr i, 0, 17⟩
/-- Address of STRM_IP_PROFILE (spec/07_streams.md). -/
def STRM_IP_PROFILE.addr (i j : Nat) : Nat := 0x05000020 + 0x10000 * i + 0x4 * j
def STRM_IP_PROFILE.EN (i j : Nat) : FRef := ⟨STRM_IP_PROFILE.addr i j, 31, 1⟩
def STRM_IP_PROFILE.VID (i j : Nat) : FRef := ⟨STRM_IP_PROFILE.addr i j, 7, 1⟩
def STRM_IP_PROFILE.DA (i j : Nat) : FRef := ⟨STRM_IP_PROFILE.addr i j, 6, 1⟩
def STRM_IP_PROFILE.SRC (i j : Nat) : FRef := ⟨STRM_IP_PROFILE.addr i j, 5, 1⟩
def STRM_IP_PROFILE.DST (i j : Nat) : FRef := ⟨STRM_IP_PROFILE.addr i j, 4, 1⟩
def STRM_IP_PROFILE.DSCP (i j : Nat) : FRef := ⟨STRM_IP_PROFILE.addr i j, 3, 1⟩
def STRM_IP_PROFILE.PROTO (i j : Nat) : FRef := ⟨STRM_IP_PROFILE.addr i j, 2, 1⟩
def STRM_IP_PROFILE.SPORT (i j : Nat) : FRef := ⟨STRM_IP_PROFILE.addr i j, 1, 1⟩
def STRM_IP_PROFILE.DPORT (i j : Nat) : FRef := ⟨STRM_IP_PROFILE.addr i j, 0, 1⟩
/-- Address of STRM_POL_CFG (spec/07_streams.md). -/
def STRM_POL_CFG.addr (i j k : Nat) : Nat := 0x05002000 + 0x10000 * i + 0x40 * j + 0x8 * k
def STRM_POL_CFG.EN (i j k : Nat) : FRef := ⟨STRM_POL_CFG.addr i j k, 31, 1⟩
def STRM_POL_CFG.BURST (i j k : Nat) : FRef := ⟨STRM_POL_CFG.addr i j k, 6, 24⟩
def STRM_POL_CFG.OVERHEAD (i j k : Nat) : FRef := ⟨STRM_POL_CFG.addr i j k, 0, 6⟩
/-- Address of STRM_POL_RATE (spec/07_streams.md). -/
def STRM_POL_RATE.addr (i j k : Nat) : Nat := 0x05002004 + 0x10000 * i + 0x40 * j + 0x8 * k
def STRM_POL_RATE.RATE (i j k : Nat) : FRef := ⟨STRM_POL_RATE.addr i j k, 0, 32⟩
/-- Address of STRM_RC_BLOCKS_LO (spec/08_redundancy.md). -/
def STRM_RC_BLOCKS_LO.addr (i : Nat) : Nat := 0x05100000 + 0x10000 * i
def STRM_RC_BLOCKS_LO.OWN (i : Nat) : FRef := ⟨STRM_RC_BLOCKS_LO.addr i, 0, 32⟩
/-- Address of STRM_RC_BLOCKS_HI (spec/08_redundancy.md). -/
def STRM_RC_BLOCKS_HI.addr (i : Nat) : Nat := 0x05100004 + 0x10000 * i
def STRM_RC_BLOCKS_HI.OWN (i : Nat) : FRef := ⟨STRM_RC_BLOCKS_HI.addr i, 0, 32⟩
/-- Address of STRM_RC_STATUS (spec/08_redundancy.md). -/
def STRM_RC_STATUS.addr (i : Nat) : Nat := 0x05100008 + 0x10000 * i
def STRM_RC_STATUS.IN_USE (i : Nat) : FRef := ⟨STRM_RC_STATUS.addr i, 0, 17⟩
/-- Address of STRM_RED_PORT (spec/08_redundancy.md). -/
def STRM_RED_PORT.addr (i j : Nat) : Nat := 0x05101000 + 0x10000 * i + 0x4 * j
def STRM_RED_PORT.RTAG_PUSH (i j : Nat) : FRef := ⟨STRM_RED_PORT.addr i j, 31, 1⟩
def STRM_RED_PORT.RTAG_POP (i j : Nat) : FRef := ⟨STRM_RED_PORT.addr i j, 30, 1⟩
/-- Address of STRM_RN_CFG (spec/08_redundancy.md). -/
def STRM_RN_CFG.addr : Nat := 0x05200000
def STRM_RN_CFG.FORGET_S : FRef := ⟨STRM_RN_CFG.addr, 0, 16⟩
/-- Address of STRM_RN_SEED (spec/08_redundancy.md). -/
def STRM_RN_SEED.addr : Nat := 0x05200004
def STRM_RN_SEED.SEED : FRef := ⟨STRM_RN_SEED.addr, 0, 32⟩
/-- Address of STRM_RN_STATUS (spec/08_redundancy.md). -/
def STRM_RN_STATUS.addr : Nat := 0x05200008
def STRM_RN_STATUS.ENTRIES : FRef := ⟨STRM_RN_STATUS.addr, 0, 17⟩
/-- Address of STRM_RN_PAIR_STATUS (spec/08_redundancy.md). -/
def STRM_RN_PAIR_STATUS.addr (i : Nat) : Nat := 0x05200100 + 0x4 * i
def STRM_RN_PAIR_STATUS.ACTIVE (i : Nat) : FRef := ⟨STRM_RN_PAIR_STATUS.addr i, 31, 1⟩
def STRM_RN_PAIR_STATUS.CFG_ERR (i : Nat) : FRef := ⟨STRM_RN_PAIR_STATUS.addr i, 30, 1⟩
def STRM_RN_PAIR_STATUS.SEQ_DEFAULT (i : Nat) : FRef := ⟨STRM_RN_PAIR_STATUS.addr i, 0, 16⟩
/-- Address of SEAL_CFG (spec/09_deckle.md). -/
def SEAL_CFG.addr : Nat := 0x06000000
def SEAL_CFG.CLU_EN : FRef := ⟨SEAL_CFG.addr, 28, 4⟩
def SEAL_CFG.LOG_BURST : FRef := ⟨SEAL_CFG.addr, 8, 8⟩
def SEAL_CFG.LOG_RATE : FRef := ⟨SEAL_CFG.addr, 0, 8⟩
/-- Address of SEAL_STATUS (spec/09_deckle.md). -/
def SEAL_STATUS.addr : Nat := 0x06000004
def SEAL_STATUS.CLU_UP : FRef := ⟨SEAL_STATUS.addr, 28, 4⟩
def SEAL_STATUS.CFG_ERR : FRef := ⟨SEAL_STATUS.addr, 27, 1⟩
def SEAL_STATUS.BLOCKS_USED : FRef := ⟨SEAL_STATUS.addr, 0, 15⟩
/-- Address of SEAL_PROTECT (spec/09_deckle.md). -/
def SEAL_PROTECT.addr (i : Nat) : Nat := 0x06000100 + 0x4 * i
def SEAL_PROTECT.PORTS (i : Nat) : FRef := ⟨SEAL_PROTECT.addr i, 0, 32⟩
/-- Address of SEAL_INGRESS (spec/09_deckle.md). -/
def SEAL_INGRESS.addr (i : Nat) : Nat := 0x06000140 + 0x4 * i
def SEAL_INGRESS.PORTS (i : Nat) : FRef := ⟨SEAL_INGRESS.addr i, 0, 32⟩
/-- Address of SEAL_Q_RES (spec/09_deckle.md). -/
def SEAL_Q_RES.addr (i : Nat) : Nat := 0x06002000 + 0x8 * i
def SEAL_Q_RES.RES_HM (i : Nat) : FRef := ⟨SEAL_Q_RES.addr i, 16, 11⟩
def SEAL_Q_RES.RES_ED (i : Nat) : FRef := ⟨SEAL_Q_RES.addr i, 0, 11⟩
/-- Address of SEAL_Q_BLOCKS (spec/09_deckle.md). -/
def SEAL_Q_BLOCKS.addr (i : Nat) : Nat := 0x06002004 + 0x8 * i
def SEAL_Q_BLOCKS.MAX (i : Nat) : FRef := ⟨SEAL_Q_BLOCKS.addr i, 16, 15⟩
def SEAL_Q_BLOCKS.MIN (i : Nat) : FRef := ⟨SEAL_Q_BLOCKS.addr i, 0, 15⟩
/-- Address of SEAL_SLOT_POLICY (spec/09_deckle.md). -/
def SEAL_SLOT_POLICY.addr (i : Nat) : Nat := 0x06004000 + 0x8 * i
def SEAL_SLOT_POLICY.V2_OK (i : Nat) : FRef := ⟨SEAL_SLOT_POLICY.addr i, 31, 1⟩
def SEAL_SLOT_POLICY.V1_OK (i : Nat) : FRef := ⟨SEAL_SLOT_POLICY.addr i, 30, 1⟩
def SEAL_SLOT_POLICY.TRUNC_OK (i : Nat) : FRef := ⟨SEAL_SLOT_POLICY.addr i, 29, 1⟩
def SEAL_SLOT_POLICY.FULL_OK (i : Nat) : FRef := ⟨SEAL_SLOT_POLICY.addr i, 28, 1⟩
def SEAL_SLOT_POLICY.ACCEPT_UNSYNC (i : Nat) : FRef := ⟨SEAL_SLOT_POLICY.addr i, 27, 1⟩
def SEAL_SLOT_POLICY.V1_TB (i : Nat) : FRef := ⟨SEAL_SLOT_POLICY.addr i, 24, 3⟩
def SEAL_SLOT_POLICY.TB_MASK (i : Nat) : FRef := ⟨SEAL_SLOT_POLICY.addr i, 16, 8⟩
/-- Address of SEAL_SLOT_WINDOW (spec/09_deckle.md). -/
def SEAL_SLOT_WINDOW.addr (i : Nat) : Nat := 0x06004004 + 0x8 * i
def SEAL_SLOT_WINDOW.WINDOW_US (i : Nat) : FRef := ⟨SEAL_SLOT_WINDOW.addr i, 0, 26⟩
/-- Address of SEAL_CLU_STATUS (spec/09_deckle.md). -/
def SEAL_CLU_STATUS.addr (i : Nat) : Nat := 0x06100000 + 0x10000 * i
def SEAL_CLU_STATUS.IN_SERVICE (i : Nat) : FRef := ⟨SEAL_CLU_STATUS.addr i, 31, 1⟩
def SEAL_CLU_STATUS.FAULT (i : Nat) : FRef := ⟨SEAL_CLU_STATUS.addr i, 30, 1⟩
def SEAL_CLU_STATUS.HM_BUSY (i : Nat) : FRef := ⟨SEAL_CLU_STATUS.addr i, 8, 4⟩
def SEAL_CLU_STATUS.ED_BUSY (i : Nat) : FRef := ⟨SEAL_CLU_STATUS.addr i, 0, 4⟩
/-- Address of SEAL_KEY_STATUS (spec/09_deckle.md). -/
def SEAL_KEY_STATUS.addr (i : Nat) : Nat := 0x06200000 + 0x40 * i
def SEAL_KEY_STATUS.VALID (i : Nat) : FRef := ⟨SEAL_KEY_STATUS.addr i, 31, 1⟩
def SEAL_KEY_STATUS.KIND (i : Nat) : FRef := ⟨SEAL_KEY_STATUS.addr i, 29, 2⟩
def SEAL_KEY_STATUS.GEN (i : Nat) : FRef := ⟨SEAL_KEY_STATUS.addr i, 0, 16⟩
/-- Address of SEAL_KEY_FPR (spec/09_deckle.md). -/
def SEAL_KEY_FPR.addr (i : Nat) : Nat := 0x06200004 + 0x40 * i
def SEAL_KEY_FPR.FPR (i : Nat) : FRef := ⟨SEAL_KEY_FPR.addr i, 0, 32⟩
/-- Address of SEAL_KEY_MAT (spec/09_deckle.md). -/
def SEAL_KEY_MAT.addr (i j : Nat) : Nat := 0x06200020 + 0x40 * i + 0x4 * j
def SEAL_KEY_MAT.KEY (i j : Nat) : FRef := ⟨SEAL_KEY_MAT.addr i j, 0, 32⟩
/-- Address of SEAL_CTX_SEED (spec/09_deckle.md). -/
def SEAL_CTX_SEED.addr : Nat := 0x06300000
def SEAL_CTX_SEED.SEED : FRef := ⟨SEAL_CTX_SEED.addr, 0, 32⟩
/-- Address of SEAL_CTX_STATUS (spec/09_deckle.md). -/
def SEAL_CTX_STATUS.addr : Nat := 0x06300004
def SEAL_CTX_STATUS.ENTRIES : FRef := ⟨SEAL_CTX_STATUS.addr, 0, 15⟩
/-- Address of BUFF_BANK_STATUS (spec/10_vats.md). -/
def BUFF_BANK_STATUS.addr (i : Nat) : Nat := 0x07000000 + 0x10000 * i
def BUFF_BANK_STATUS.FREE (i : Nat) : FRef := ⟨BUFF_BANK_STATUS.addr i, 0, 19⟩
/-- Address of BUFF_BANK_PEND (spec/10_vats.md). -/
def BUFF_BANK_PEND.addr (i : Nat) : Nat := 0x07000004 + 0x10000 * i
def BUFF_BANK_PEND.REBUILDING (i : Nat) : FRef := ⟨BUFF_BANK_PEND.addr i, 31, 1⟩
def BUFF_BANK_PEND.PENDING (i : Nat) : FRef := ⟨BUFF_BANK_PEND.addr i, 0, 19⟩
/-- Address of BUFF_BANK_ERR (spec/10_vats.md). -/
def BUFF_BANK_ERR.addr (i : Nat) : Nat := 0x07000008 + 0x10000 * i
def BUFF_BANK_ERR.VALID (i : Nat) : FRef := ⟨BUFF_BANK_ERR.addr i, 31, 1⟩
def BUFF_BANK_ERR.LINK (i : Nat) : FRef := ⟨BUFF_BANK_ERR.addr i, 30, 1⟩
def BUFF_BANK_ERR.CELL (i : Nat) : FRef := ⟨BUFF_BANK_ERR.addr i, 0, 18⟩
/-- Address of BUFF_ILIM (spec/10_vats.md). -/
def BUFF_ILIM.addr (i j k : Nat) : Nat := 0x07001000 + 0x10000 * i + 0x40 * j + 0x8 * k
def BUFF_ILIM.CELLS (i j k : Nat) : FRef := ⟨BUFF_ILIM.addr i j k, 0, 18⟩
/-- Address of BUFF_ILIM_DE (spec/10_vats.md). -/
def BUFF_ILIM_DE.addr (i j k : Nat) : Nat := 0x07001004 + 0x10000 * i + 0x40 * j + 0x8 * k
def BUFF_ILIM_DE.CELLS (i j k : Nat) : FRef := ⟨BUFF_ILIM_DE.addr i j k, 0, 18⟩
/-- Address of BUFF_ICOUNT (spec/10_vats.md). -/
def BUFF_ICOUNT.addr (i j k : Nat) : Nat := 0x07003000 + 0x10000 * i + 0x20 * j + 0x4 * k
def BUFF_ICOUNT.IC (i j k : Nat) : FRef := ⟨BUFF_ICOUNT.addr i j k, 0, 19⟩
/-- Address of BUFF_CLASS_CFG (spec/10_vats.md). -/
def BUFF_CLASS_CFG.addr (i : Nat) : Nat := 0x07100000 + 0x8 * i
def BUFF_CLASS_CFG.MODE (i : Nat) : FRef := ⟨BUFF_CLASS_CFG.addr i, 31, 1⟩
def BUFF_CLASS_CFG.DET (i : Nat) : FRef := ⟨BUFF_CLASS_CFG.addr i, 30, 1⟩
def BUFF_CLASS_CFG.SPILL_THRESH (i : Nat) : FRef := ⟨BUFF_CLASS_CFG.addr i, 0, 18⟩
/-- Address of BUFF_CLASS_DEEP (spec/10_vats.md). -/
def BUFF_CLASS_DEEP.addr (i : Nat) : Nat := 0x07100004 + 0x8 * i
def BUFF_CLASS_DEEP.REFILL_THRESH (i : Nat) : FRef := ⟨BUFF_CLASS_DEEP.addr i, 16, 16⟩
def BUFF_CLASS_DEEP.DEEP_LIMIT (i : Nat) : FRef := ⟨BUFF_CLASS_DEEP.addr i, 0, 16⟩
/-- Address of BUFF_VAT_CFG (spec/10_vats.md). -/
def BUFF_VAT_CFG.addr : Nat := 0x07100100
def BUFF_VAT_CFG.S_SIZE : FRef := ⟨BUFF_VAT_CFG.addr, 8, 6⟩
def BUFF_VAT_CFG.M_SIZE : FRef := ⟨BUFF_VAT_CFG.addr, 0, 6⟩
/-- Address of BUFF_VAT_FREE (spec/10_vats.md). -/
def BUFF_VAT_FREE.addr (i j : Nat) : Nat := 0x07100200 + 0x8 * i + 0x4 * j
def BUFF_VAT_FREE.FREE (i j : Nat) : FRef := ⟨BUFF_VAT_FREE.addr i j, 0, 26⟩
/-- Address of BUFF_PTR_ERR (spec/10_vats.md). -/
def BUFF_PTR_ERR.addr : Nat := 0x07100300
def BUFF_PTR_ERR.VALID : FRef := ⟨BUFF_PTR_ERR.addr, 31, 1⟩
def BUFF_PTR_ERR.STORE : FRef := ⟨BUFF_PTR_ERR.addr, 24, 4⟩
def BUFF_PTR_ERR.VALUE : FRef := ⟨BUFF_PTR_ERR.addr, 0, 24⟩
/-- Address of BUFF_PRIV_FREE (spec/10_vats.md). -/
def BUFF_PRIV_FREE.addr : Nat := 0x07110000
def BUFF_PRIV_FREE.SUP_FREE : FRef := ⟨BUFF_PRIV_FREE.addr, 16, 16⟩
def BUFF_PRIV_FREE.SEAL_FREE : FRef := ⟨BUFF_PRIV_FREE.addr, 0, 16⟩
/-- Address of BUFF_HBM_STATUS (spec/10_vats.md). -/
def BUFF_HBM_STATUS.addr (i : Nat) : Nat := 0x07200000 + 0x10000 * i
def BUFF_HBM_STATUS.TRAINED (i : Nat) : FRef := ⟨BUFF_HBM_STATUS.addr i, 31, 1⟩
def BUFF_HBM_STATUS.FAILED (i : Nat) : FRef := ⟨BUFF_HBM_STATUS.addr i, 30, 1⟩
def BUFF_HBM_STATUS.CAUSE (i : Nat) : FRef := ⟨BUFF_HBM_STATUS.addr i, 28, 2⟩
def BUFF_HBM_STATUS.UE_1S (i : Nat) : FRef := ⟨BUFF_HBM_STATUS.addr i, 0, 8⟩
/-- Address of FABR_CTRL (spec/11_fabric.md). -/
def FABR_CTRL.addr : Nat := 0x08F00000
def FABR_CTRL.CT_EN : FRef := ⟨FABR_CTRL.addr, 31, 1⟩
def FABR_CTRL.COUCH_TIMEOUT_US : FRef := ⟨FABR_CTRL.addr, 16, 6⟩
def FABR_CTRL.LEAD_NS : FRef := ⟨FABR_CTRL.addr, 0, 16⟩
/-- Address of FABR_CREDIT_CFG (spec/11_fabric.md). -/
def FABR_CREDIT_CFG.addr : Nat := 0x08F00004
def FABR_CREDIT_CFG.CREDIT_MAX : FRef := ⟨FABR_CREDIT_CFG.addr, 0, 11⟩
/-- Address of FABR_STATUS (spec/11_fabric.md). -/
def FABR_STATUS.addr : Nat := 0x08F00008
def FABR_STATUS.DEGRADED : FRef := ⟨FABR_STATUS.addr, 31, 1⟩
def FABR_STATUS.ROTATING : FRef := ⟨FABR_STATUS.addr, 30, 1⟩
def FABR_STATUS.FAILED : FRef := ⟨FABR_STATUS.addr, 20, 10⟩
def FABR_STATUS.SPARE : FRef := ⟨FABR_STATUS.addr, 16, 4⟩
def FABR_STATUS.SPARE_READY : FRef := ⟨FABR_STATUS.addr, 15, 1⟩
def FABR_STATUS.ACTIVE : FRef := ⟨FABR_STATUS.addr, 0, 10⟩
/-- Address of FABR_ROT (spec/11_fabric.md). -/
def FABR_ROT.addr : Nat := 0x08F0000C
def FABR_ROT.START : FRef := ⟨FABR_ROT.addr, 31, 1⟩
def FABR_ROT.RESULT : FRef := ⟨FABR_ROT.addr, 4, 4⟩
def FABR_ROT.PLANE : FRef := ⟨FABR_ROT.addr, 0, 4⟩
/-- Address of FABR_ROT_SCHED (spec/11_fabric.md). -/
def FABR_ROT_SCHED.addr : Nat := 0x08F00010
def FABR_ROT_SCHED.INTERVAL_H : FRef := ⟨FABR_ROT_SCHED.addr, 0, 16⟩
/-- Address of FABR_CT_EN (spec/11_fabric.md). -/
def FABR_CT_EN.addr (i : Nat) : Nat := 0x08F00100 + 0x4 * i
def FABR_CT_EN.PORTS (i : Nat) : FRef := ⟨FABR_CT_EN.addr i, 0, 32⟩
/-- Address of FABR_PLANE_STATUS (spec/11_fabric.md). -/
def FABR_PLANE_STATUS.addr (i : Nat) : Nat := 0x08400000 + 0x10000 * i
def FABR_PLANE_STATUS.ROLE (i : Nat) : FRef := ⟨FABR_PLANE_STATUS.addr i, 30, 2⟩
def FABR_PLANE_STATUS.CAUSE (i : Nat) : FRef := ⟨FABR_PLANE_STATUS.addr i, 27, 3⟩
def FABR_PLANE_STATUS.SYNC (i : Nat) : FRef := ⟨FABR_PLANE_STATUS.addr i, 26, 1⟩
def FABR_PLANE_STATUS.HB_GROUP (i : Nat) : FRef := ⟨FABR_PLANE_STATUS.addr i, 16, 6⟩
def FABR_PLANE_STATUS.CRC_1MS (i : Nat) : FRef := ⟨FABR_PLANE_STATUS.addr i, 0, 4⟩
/-- Address of FABR_GRP_CREDIT (spec/11_fabric.md). -/
def FABR_GRP_CREDIT.addr (i : Nat) : Nat := 0x08000000 + 0x10000 * i
def FABR_GRP_CREDIT.STAGED (i : Nat) : FRef := ⟨FABR_GRP_CREDIT.addr i, 16, 11⟩
def FABR_GRP_CREDIT.OUTSTANDING (i : Nat) : FRef := ⟨FABR_GRP_CREDIT.addr i, 0, 11⟩
/-- Address of FABR_GRP_COUCH (spec/11_fabric.md). -/
def FABR_GRP_COUCH.addr (i : Nat) : Nat := 0x08000004 + 0x10000 * i
def FABR_GRP_COUCH.GAPS (i : Nat) : FRef := ⟨FABR_GRP_COUCH.addr i, 24, 8⟩
def FABR_GRP_COUCH.REASM (i : Nat) : FRef := ⟨FABR_GRP_COUCH.addr i, 0, 8⟩
/-- Address of FABR_VOQ_STATUS (spec/11_fabric.md). -/
def FABR_VOQ_STATUS.addr (i : Nat) : Nat := 0x08800000 + 0x10000 * i
def FABR_VOQ_STATUS.WAIT_CREDIT (i : Nat) : FRef := ⟨FABR_VOQ_STATUS.addr i, 16, 16⟩
def FABR_VOQ_STATUS.CREDITED (i : Nat) : FRef := ⟨FABR_VOQ_STATUS.addr i, 0, 16⟩
/-- Address of EGRS_PORT_SCHED (spec/12_egress.md). -/
def EGRS_PORT_SCHED.addr (n : Nat) : Nat := 0x09004000 + egrsBlock n
def EGRS_PORT_SCHED.PREEMPTABLE (n : Nat) : FRef := ⟨EGRS_PORT_SCHED.addr n, 24, 8⟩
def EGRS_PORT_SCHED.STRICT (n : Nat) : FRef := ⟨EGRS_PORT_SCHED.addr n, 16, 8⟩
def EGRS_PORT_SCHED.CBS_EN (n : Nat) : FRef := ⟨EGRS_PORT_SCHED.addr n, 8, 8⟩
def EGRS_PORT_SCHED.TBS_EN (n : Nat) : FRef := ⟨EGRS_PORT_SCHED.addr n, 0, 8⟩
/-- Address of EGRS_PORT_WEIGHT_LO (spec/12_egress.md). -/
def EGRS_PORT_WEIGHT_LO.addr (n : Nat) : Nat := 0x09004004 + egrsBlock n
def EGRS_PORT_WEIGHT_LO.WEIGHT (n : Nat) : FRef := ⟨EGRS_PORT_WEIGHT_LO.addr n, 0, 32⟩
/-- Address of EGRS_PORT_WEIGHT_HI (spec/12_egress.md). -/
def EGRS_PORT_WEIGHT_HI.addr (n : Nat) : Nat := 0x09004008 + egrsBlock n
def EGRS_PORT_WEIGHT_HI.WEIGHT (n : Nat) : FRef := ⟨EGRS_PORT_WEIGHT_HI.addr n, 0, 32⟩
/-- Address of EGRS_PORT_SHAPE (spec/12_egress.md). -/
def EGRS_PORT_SHAPE.addr (n : Nat) : Nat := 0x0900400C + egrsBlock n
def EGRS_PORT_SHAPE.PORT_TBS_EN (n : Nat) : FRef := ⟨EGRS_PORT_SHAPE.addr n, 31, 1⟩
def EGRS_PORT_SHAPE.OVERHEAD (n : Nat) : FRef := ⟨EGRS_PORT_SHAPE.addr n, 0, 6⟩
/-- Address of EGRS_GATE_CTRL (spec/12_egress.md). -/
def EGRS_GATE_CTRL.addr (n : Nat) : Nat := 0x09004010 + egrsBlock n
def EGRS_GATE_CTRL.GATE_EN (n : Nat) : FRef := ⟨EGRS_GATE_CTRL.addr n, 31, 1⟩
def EGRS_GATE_CTRL.TB (n : Nat) : FRef := ⟨EGRS_GATE_CTRL.addr n, 24, 3⟩
def EGRS_GATE_CTRL.INIT_STATES (n : Nat) : FRef := ⟨EGRS_GATE_CTRL.addr n, 16, 8⟩
/-- Address of EGRS_GATE_LIST (spec/12_egress.md). -/
def EGRS_GATE_LIST.addr (n : Nat) : Nat := 0x09004014 + egrsBlock n
def EGRS_GATE_LIST.LIST_LEN (n : Nat) : FRef := ⟨EGRS_GATE_LIST.addr n, 16, 11⟩
def EGRS_GATE_LIST.LIST_BASE (n : Nat) : FRef := ⟨EGRS_GATE_LIST.addr n, 0, 13⟩
/-- Address of EGRS_GATE_BASE_NS (spec/12_egress.md). -/
def EGRS_GATE_BASE_NS.addr (n : Nat) : Nat := 0x09004018 + egrsBlock n
def EGRS_GATE_BASE_NS.BASE (n : Nat) : FRef := ⟨EGRS_GATE_BASE_NS.addr n, 0, 30⟩
/-- Address of EGRS_GATE_BASE_SLO (spec/12_egress.md). -/
def EGRS_GATE_BASE_SLO.addr (n : Nat) : Nat := 0x0900401C + egrsBlock n
def EGRS_GATE_BASE_SLO.BASE (n : Nat) : FRef := ⟨EGRS_GATE_BASE_SLO.addr n, 0, 32⟩
/-- Address of EGRS_GATE_BASE_SHI (spec/12_egress.md). -/
def EGRS_GATE_BASE_SHI.addr (n : Nat) : Nat := 0x09004020 + egrsBlock n
def EGRS_GATE_BASE_SHI.BASE (n : Nat) : FRef := ⟨EGRS_GATE_BASE_SHI.addr n, 0, 16⟩
/-- Address of EGRS_GATE_CYCLE (spec/12_egress.md). -/
def EGRS_GATE_CYCLE.addr (n : Nat) : Nat := 0x09004024 + egrsBlock n
def EGRS_GATE_CYCLE.CYCLE_NS (n : Nat) : FRef := ⟨EGRS_GATE_CYCLE.addr n, 0, 32⟩
/-- Address of EGRS_GATE_STATUS (spec/12_egress.md). -/
def EGRS_GATE_STATUS.addr (n : Nat) : Nat := 0x09004028 + egrsBlock n
def EGRS_GATE_STATUS.PENDING (n : Nat) : FRef := ⟨EGRS_GATE_STATUS.addr n, 31, 1⟩
def EGRS_GATE_STATUS.OPER (n : Nat) : FRef := ⟨EGRS_GATE_STATUS.addr n, 30, 1⟩
def EGRS_GATE_STATUS.STATES (n : Nat) : FRef := ⟨EGRS_GATE_STATUS.addr n, 16, 8⟩
def EGRS_GATE_STATUS.ENTRY (n : Nat) : FRef := ⟨EGRS_GATE_STATUS.addr n, 0, 10⟩
/-- Address of EGRS_CBS_IDLE (spec/12_egress.md). -/
def EGRS_CBS_IDLE.addr (n c : Nat) : Nat := 0x09004100 + egrsBlock n + 0x10 * c
def EGRS_CBS_IDLE.IDLE_SLOPE (n c : Nat) : FRef := ⟨EGRS_CBS_IDLE.addr n c, 0, 32⟩
/-- Address of EGRS_CBS_CREDIT (spec/12_egress.md). -/
def EGRS_CBS_CREDIT.addr (n c : Nat) : Nat := 0x09004104 + egrsBlock n + 0x10 * c
def EGRS_CBS_CREDIT.HI_CREDIT (n c : Nat) : FRef := ⟨EGRS_CBS_CREDIT.addr n c, 16, 16⟩
def EGRS_CBS_CREDIT.LO_CREDIT (n c : Nat) : FRef := ⟨EGRS_CBS_CREDIT.addr n c, 0, 16⟩
/-- Address of EGRS_TBS_RATE (spec/12_egress.md). -/
def EGRS_TBS_RATE.addr (n c : Nat) : Nat := 0x09004108 + egrsBlock n + 0x10 * c
def EGRS_TBS_RATE.RATE (n c : Nat) : FRef := ⟨EGRS_TBS_RATE.addr n c, 0, 32⟩
/-- Address of EGRS_TBS_BURST (spec/12_egress.md). -/
def EGRS_TBS_BURST.addr (n c : Nat) : Nat := 0x0900410C + egrsBlock n + 0x10 * c
def EGRS_TBS_BURST.BURST (n c : Nat) : FRef := ⟨EGRS_TBS_BURST.addr n c, 0, 24⟩
/-- Address of EGRS_AGE_LIMIT (spec/12_egress.md). -/
def EGRS_AGE_LIMIT.addr (n c : Nat) : Nat := 0x09004200 + egrsBlock n + 0x4 * c
def EGRS_AGE_LIMIT.LIMIT_US (n c : Nat) : FRef := ⟨EGRS_AGE_LIMIT.addr n c, 0, 21⟩
/-- Address of EGRS_Q_STATUS (spec/12_egress.md). -/
def EGRS_Q_STATUS.addr (n c : Nat) : Nat := 0x09004240 + egrsBlock n + 0x4 * c
def EGRS_Q_STATUS.CBS_NEG (n c : Nat) : FRef := ⟨EGRS_Q_STATUS.addr n c, 31, 1⟩
def EGRS_Q_STATUS.CELLS (n c : Nat) : FRef := ⟨EGRS_Q_STATUS.addr n c, 16, 11⟩
def EGRS_Q_STATUS.FRAMES (n c : Nat) : FRef := ⟨EGRS_Q_STATUS.addr n c, 0, 16⟩
/-- Address of EGRS_EDIT_PORT (spec/12_egress.md). -/
def EGRS_EDIT_PORT.addr (i j : Nat) : Nat := 0x09801000 + 0x10000 * i + 0x4 * j
def EGRS_EDIT_PORT.PCP_REMARK (i j : Nat) : FRef := ⟨EGRS_EDIT_PORT.addr i j, 31, 1⟩
def EGRS_EDIT_PORT.TC1_EN (i j : Nat) : FRef := ⟨EGRS_EDIT_PORT.addr i j, 30, 1⟩
/-- Address of EGRS_MIR_EGR (spec/12_egress.md). -/
def EGRS_MIR_EGR.addr (i : Nat) : Nat := 0x09F00000 + 0x100 * i
def EGRS_MIR_EGR.TAG_EN (i : Nat) : FRef := ⟨EGRS_MIR_EGR.addr i, 31, 1⟩
def EGRS_MIR_EGR.TPID_SEL (i : Nat) : FRef := ⟨EGRS_MIR_EGR.addr i, 30, 1⟩
def EGRS_MIR_EGR.TRUNC (i : Nat) : FRef := ⟨EGRS_MIR_EGR.addr i, 16, 14⟩
def EGRS_MIR_EGR.VID (i : Nat) : FRef := ⟨EGRS_MIR_EGR.addr i, 0, 12⟩
/-- Address of TIME_TB_CFG (spec/13_time.md). -/
def TIME_TB_CFG.addr (i : Nat) : Nat := 0x0A000000 + 0x10000 * i
def TIME_TB_CFG.SRC (i : Nat) : FRef := ⟨TIME_TB_CFG.addr i, 30, 2⟩
def TIME_TB_CFG.FREQ_TCLK (i : Nat) : FRef := ⟨TIME_TB_CFG.addr i, 29, 1⟩
def TIME_TB_CFG.STEP_EN (i : Nat) : FRef := ⟨TIME_TB_CFG.addr i, 28, 1⟩
def TIME_TB_CFG.HOLDOVER_S (i : Nat) : FRef := ⟨TIME_TB_CFG.addr i, 0, 16⟩
/-- Address of TIME_TB_THRESH (spec/13_time.md). -/
def TIME_TB_THRESH.addr (i : Nat) : Nat := 0x0A000004 + 0x10000 * i
def TIME_TB_THRESH.STEP_US (i : Nat) : FRef := ⟨TIME_TB_THRESH.addr i, 16, 16⟩
def TIME_TB_THRESH.LOCK_NS (i : Nat) : FRef := ⟨TIME_TB_THRESH.addr i, 0, 16⟩
/-- Address of TIME_TB_KP (spec/13_time.md). -/
def TIME_TB_KP.addr (i : Nat) : Nat := 0x0A000008 + 0x10000 * i
def TIME_TB_KP.GAIN (i : Nat) : FRef := ⟨TIME_TB_KP.addr i, 0, 32⟩
/-- Address of TIME_TB_KI (spec/13_time.md). -/
def TIME_TB_KI.addr (i : Nat) : Nat := 0x0A00000C + 0x10000 * i
def TIME_TB_KI.GAIN (i : Nat) : FRef := ⟨TIME_TB_KI.addr i, 0, 32⟩
/-- Address of TIME_TB_STATUS (spec/13_time.md). -/
def TIME_TB_STATUS.addr (i : Nat) : Nat := 0x0A000010 + 0x10000 * i
def TIME_TB_STATUS.STATE (i : Nat) : FRef := ⟨TIME_TB_STATUS.addr i, 30, 2⟩
def TIME_TB_STATUS.SYNC (i : Nat) : FRef := ⟨TIME_TB_STATUS.addr i, 29, 1⟩
def TIME_TB_STATUS.STEPPED (i : Nat) : FRef := ⟨TIME_TB_STATUS.addr i, 28, 1⟩
def TIME_TB_STATUS.CLAMP (i : Nat) : FRef := ⟨TIME_TB_STATUS.addr i, 27, 1⟩
def TIME_TB_STATUS.TCLK_LOST (i : Nat) : FRef := ⟨TIME_TB_STATUS.addr i, 26, 1⟩
def TIME_TB_STATUS.EVER_LOCKED (i : Nat) : FRef := ⟨TIME_TB_STATUS.addr i, 25, 1⟩
/-- Address of TIME_TB_OFFSET (spec/13_time.md). -/
def TIME_TB_OFFSET.addr (i : Nat) : Nat := 0x0A000014 + 0x10000 * i
def TIME_TB_OFFSET.VALUE (i : Nat) : FRef := ⟨TIME_TB_OFFSET.addr i, 0, 32⟩
/-- Address of TIME_TB_FREQ (spec/13_time.md). -/
def TIME_TB_FREQ.addr (i : Nat) : Nat := 0x0A000018 + 0x10000 * i
def TIME_TB_FREQ.VALUE (i : Nat) : FRef := ⟨TIME_TB_FREQ.addr i, 0, 32⟩
/-- Address of TIME_TB_AVG (spec/13_time.md). -/
def TIME_TB_AVG.addr (i : Nat) : Nat := 0x0A00001C + 0x10000 * i
def TIME_TB_AVG.VALUE (i : Nat) : FRef := ⟨TIME_TB_AVG.addr i, 0, 32⟩
/-- Address of TIME_TB_NS (spec/13_time.md). -/
def TIME_TB_NS.addr (i : Nat) : Nat := 0x0A000020 + 0x10000 * i
def TIME_TB_NS.TIME (i : Nat) : FRef := ⟨TIME_TB_NS.addr i, 0, 32⟩
/-- Address of TIME_TB_SLO (spec/13_time.md). -/
def TIME_TB_SLO.addr (i : Nat) : Nat := 0x0A000024 + 0x10000 * i
def TIME_TB_SLO.TIME (i : Nat) : FRef := ⟨TIME_TB_SLO.addr i, 0, 32⟩
/-- Address of TIME_TB_SHI (spec/13_time.md). -/
def TIME_TB_SHI.addr (i : Nat) : Nat := 0x0A000028 + 0x10000 * i
def TIME_TB_SHI.TIME (i : Nat) : FRef := ⟨TIME_TB_SHI.addr i, 0, 32⟩
/-- Address of TIME_TB_PNS (spec/13_time.md). -/
def TIME_TB_PNS.addr (i : Nat) : Nat := 0x0A000030 + 0x10000 * i
def TIME_TB_PNS.TIME (i : Nat) : FRef := ⟨TIME_TB_PNS.addr i, 0, 32⟩
/-- Address of TIME_TB_PSLO (spec/13_time.md). -/
def TIME_TB_PSLO.addr (i : Nat) : Nat := 0x0A000034 + 0x10000 * i
def TIME_TB_PSLO.TIME (i : Nat) : FRef := ⟨TIME_TB_PSLO.addr i, 0, 32⟩
/-- Address of TIME_TB_PSHI (spec/13_time.md). -/
def TIME_TB_PSHI.addr (i : Nat) : Nat := 0x0A000038 + 0x10000 * i
def TIME_TB_PSHI.TIME (i : Nat) : FRef := ⟨TIME_TB_PSHI.addr i, 0, 32⟩
/-- Address of TIME_PAIR_CFG (spec/13_time.md). -/
def TIME_PAIR_CFG.addr (i : Nat) : Nat := 0x0A001000 + 0x10 * i
def TIME_PAIR_CFG.EN (i : Nat) : FRef := ⟨TIME_PAIR_CFG.addr i, 31, 1⟩
def TIME_PAIR_CFG.REVERT (i : Nat) : FRef := ⟨TIME_PAIR_CFG.addr i, 30, 1⟩
def TIME_PAIR_CFG.PRIMARY (i : Nat) : FRef := ⟨TIME_PAIR_CFG.addr i, 24, 3⟩
def TIME_PAIR_CFG.SECONDARY (i : Nat) : FRef := ⟨TIME_PAIR_CFG.addr i, 16, 3⟩
def TIME_PAIR_CFG.REVERT_S (i : Nat) : FRef := ⟨TIME_PAIR_CFG.addr i, 0, 16⟩
/-- Address of TIME_PAIR_STATUS (spec/13_time.md). -/
def TIME_PAIR_STATUS.addr (i : Nat) : Nat := 0x0A001004 + 0x10 * i
def TIME_PAIR_STATUS.SOURCE (i : Nat) : FRef := ⟨TIME_PAIR_STATUS.addr i, 31, 1⟩
def TIME_PAIR_STATUS.SLEWING (i : Nat) : FRef := ⟨TIME_PAIR_STATUS.addr i, 30, 1⟩
def TIME_PAIR_STATUS.CFG_ERR (i : Nat) : FRef := ⟨TIME_PAIR_STATUS.addr i, 29, 1⟩
/-- Address of TIME_PAIR_D (spec/13_time.md). -/
def TIME_PAIR_D.addr (i : Nat) : Nat := 0x0A001008 + 0x10 * i
def TIME_PAIR_D.D (i : Nat) : FRef := ⟨TIME_PAIR_D.addr i, 0, 32⟩
/-- Address of TIME_INST_CFG (spec/13_time.md). -/
def TIME_INST_CFG.addr (i : Nat) : Nat := 0x0A100000 + 0x40 * i
def TIME_INST_CFG.EN (i : Nat) : FRef := ⟨TIME_INST_CFG.addr i, 31, 1⟩
def TIME_INST_CFG.PROFILE (i : Nat) : FRef := ⟨TIME_INST_CFG.addr i, 28, 3⟩
def TIME_INST_CFG.TYPE (i : Nat) : FRef := ⟨TIME_INST_CFG.addr i, 25, 3⟩
def TIME_INST_CFG.TRANSPORT (i : Nat) : FRef := ⟨TIME_INST_CFG.addr i, 23, 2⟩
def TIME_INST_CFG.CLASS (i : Nat) : FRef := ⟨TIME_INST_CFG.addr i, 18, 3⟩
def TIME_INST_CFG.ONE_STEP (i : Nat) : FRef := ⟨TIME_INST_CFG.addr i, 17, 1⟩
def TIME_INST_CFG.SDO (i : Nat) : FRef := ⟨TIME_INST_CFG.addr i, 12, 4⟩
def TIME_INST_CFG.DOMAIN (i : Nat) : FRef := ⟨TIME_INST_CFG.addr i, 0, 8⟩
/-- Address of TIME_INST_DS (spec/13_time.md). -/
def TIME_INST_DS.addr (i : Nat) : Nat := 0x0A100004 + 0x40 * i
def TIME_INST_DS.PRIORITY1 (i : Nat) : FRef := ⟨TIME_INST_DS.addr i, 24, 8⟩
def TIME_INST_DS.PRIORITY2 (i : Nat) : FRef := ⟨TIME_INST_DS.addr i, 16, 8⟩
def TIME_INST_DS.CLOCK_CLASS (i : Nat) : FRef := ⟨TIME_INST_DS.addr i, 8, 8⟩
def TIME_INST_DS.CLOCK_ACC (i : Nat) : FRef := ⟨TIME_INST_DS.addr i, 0, 8⟩
/-- Address of TIME_INST_INTV (spec/13_time.md). -/
def TIME_INST_INTV.addr (i : Nat) : Nat := 0x0A100008 + 0x40 * i
def TIME_INST_INTV.LOG_SYNC (i : Nat) : FRef := ⟨TIME_INST_INTV.addr i, 24, 8⟩
def TIME_INST_INTV.LOG_ANN (i : Nat) : FRef := ⟨TIME_INST_INTV.addr i, 16, 8⟩
def TIME_INST_INTV.LOG_DREQ (i : Nat) : FRef := ⟨TIME_INST_INTV.addr i, 8, 8⟩
def TIME_INST_INTV.ANN_TO (i : Nat) : FRef := ⟨TIME_INST_INTV.addr i, 0, 8⟩
/-- Address of TIME_INST_STATUS (spec/13_time.md). -/
def TIME_INST_STATUS.addr (i : Nat) : Nat := 0x0A10000C + 0x40 * i
def TIME_INST_STATUS.CFG_ERR (i : Nat) : FRef := ⟨TIME_INST_STATUS.addr i, 31, 1⟩
def TIME_INST_STATUS.GM (i : Nat) : FRef := ⟨TIME_INST_STATUS.addr i, 30, 1⟩
def TIME_INST_STATUS.PARENT_VALID (i : Nat) : FRef := ⟨TIME_INST_STATUS.addr i, 29, 1⟩
def TIME_INST_STATUS.SLAVE_PORT (i : Nat) : FRef := ⟨TIME_INST_STATUS.addr i, 16, 9⟩
def TIME_INST_STATUS.STEPS_REMOVED (i : Nat) : FRef := ⟨TIME_INST_STATUS.addr i, 0, 16⟩
/-- Address of TIME_INST_PORTS (spec/13_time.md). -/
def TIME_INST_PORTS.addr (i j : Nat) : Nat := 0x0A100010 + 0x40 * i + 0x4 * j
def TIME_INST_PORTS.PORTS (i j : Nat) : FRef := ⟨TIME_INST_PORTS.addr i j, 0, 32⟩
/-- Address of TIME_PORT_TB (spec/13_time.md). -/
def TIME_PORT_TB.addr (i : Nat) : Nat := 0x0A101000 + 0x4 * i
def TIME_PORT_TB.TB (i : Nat) : FRef := ⟨TIME_PORT_TB.addr i, 0, 3⟩
/-- Address of TIO_CFG (spec/13_time.md). -/
def TIO_CFG.addr (i : Nat) : Nat := 0x0A200000 + 0x40 * i
def TIO_CFG.MODE (i : Nat) : FRef := ⟨TIO_CFG.addr i, 30, 2⟩
def TIO_CFG.POL (i : Nat) : FRef := ⟨TIO_CFG.addr i, 29, 1⟩
def TIO_CFG.EDGE (i : Nat) : FRef := ⟨TIO_CFG.addr i, 27, 2⟩
def TIO_CFG.TB (i : Nat) : FRef := ⟨TIO_CFG.addr i, 24, 3⟩
/-- Address of TIO_START_NS (spec/13_time.md). -/
def TIO_START_NS.addr (i : Nat) : Nat := 0x0A200004 + 0x40 * i
def TIO_START_NS.START (i : Nat) : FRef := ⟨TIO_START_NS.addr i, 0, 30⟩
/-- Address of TIO_START_SLO (spec/13_time.md). -/
def TIO_START_SLO.addr (i : Nat) : Nat := 0x0A200008 + 0x40 * i
def TIO_START_SLO.START (i : Nat) : FRef := ⟨TIO_START_SLO.addr i, 0, 32⟩
/-- Address of TIO_START_SHI (spec/13_time.md). -/
def TIO_START_SHI.addr (i : Nat) : Nat := 0x0A20000C + 0x40 * i
def TIO_START_SHI.START (i : Nat) : FRef := ⟨TIO_START_SHI.addr i, 0, 16⟩
/-- Address of TIO_PERIOD (spec/13_time.md). -/
def TIO_PERIOD.addr (i : Nat) : Nat := 0x0A200010 + 0x40 * i
def TIO_PERIOD.NS (i : Nat) : FRef := ⟨TIO_PERIOD.addr i, 0, 32⟩
/-- Address of TIO_WIDTH (spec/13_time.md). -/
def TIO_WIDTH.addr (i : Nat) : Nat := 0x0A200014 + 0x40 * i
def TIO_WIDTH.NS (i : Nat) : FRef := ⟨TIO_WIDTH.addr i, 0, 32⟩
/-- Address of TIO_ADJ (spec/13_time.md). -/
def TIO_ADJ.addr (i : Nat) : Nat := 0x0A200018 + 0x40 * i
def TIO_ADJ.ADJ (i : Nat) : FRef := ⟨TIO_ADJ.addr i, 0, 16⟩
/-- Address of TIO_STATUS (spec/13_time.md). -/
def TIO_STATUS.addr (i : Nat) : Nat := 0x0A20001C + 0x40 * i
def TIO_STATUS.LATE (i : Nat) : FRef := ⟨TIO_STATUS.addr i, 31, 1⟩
def TIO_STATUS.OVF (i : Nat) : FRef := ⟨TIO_STATUS.addr i, 30, 1⟩
def TIO_STATUS.LAST_EDGE (i : Nat) : FRef := ⟨TIO_STATUS.addr i, 29, 1⟩
def TIO_STATUS.CFG_ERR (i : Nat) : FRef := ⟨TIO_STATUS.addr i, 28, 1⟩
def TIO_STATUS.FIFO (i : Nat) : FRef := ⟨TIO_STATUS.addr i, 0, 4⟩
/-- Address of TIO_CAP_NS (spec/13_time.md). -/
def TIO_CAP_NS.addr (i : Nat) : Nat := 0x0A200020 + 0x40 * i
def TIO_CAP_NS.CAP (i : Nat) : FRef := ⟨TIO_CAP_NS.addr i, 0, 32⟩
/-- Address of TIO_CAP_SLO (spec/13_time.md). -/
def TIO_CAP_SLO.addr (i : Nat) : Nat := 0x0A200024 + 0x40 * i
def TIO_CAP_SLO.CAP (i : Nat) : FRef := ⟨TIO_CAP_SLO.addr i, 0, 32⟩
/-- Address of TIO_CAP_SHI (spec/13_time.md). -/
def TIO_CAP_SHI.addr (i : Nat) : Nat := 0x0A200028 + 0x40 * i
def TIO_CAP_SHI.CAP (i : Nat) : FRef := ⟨TIO_CAP_SHI.addr i, 0, 32⟩
/-- Address of TIME_PPS_CFG (spec/13_time.md). -/
def TIME_PPS_CFG.addr : Nat := 0x0A200400
def TIME_PPS_CFG.EN : FRef := ⟨TIME_PPS_CFG.addr, 31, 1⟩
def TIME_PPS_CFG.POL : FRef := ⟨TIME_PPS_CFG.addr, 30, 1⟩
def TIME_PPS_CFG.PPS_ADJ : FRef := ⟨TIME_PPS_CFG.addr, 0, 16⟩
/-- Address of TIME_TCLK_CFG (spec/13_time.md). -/
def TIME_TCLK_CFG.addr : Nat := 0x0A200404
def TIME_TCLK_CFG.OUT_EN : FRef := ⟨TIME_TCLK_CFG.addr, 31, 1⟩
def TIME_TCLK_CFG.OUT_TB : FRef := ⟨TIME_TCLK_CFG.addr, 24, 3⟩
/-- Address of SUPV_CORE_STATUS (spec/14_supervisors.md). -/
def SUPV_CORE_STATUS.addr (i : Nat) : Nat := 0x0B000000 + 0x10000 * i
def SUPV_CORE_STATUS.ROLE (i : Nat) : FRef := ⟨SUPV_CORE_STATUS.addr i, 29, 3⟩
def SUPV_CORE_STATUS.STANDBY_READY (i : Nat) : FRef := ⟨SUPV_CORE_STATUS.addr i, 28, 1⟩
def SUPV_CORE_STATUS.DISABLED (i : Nat) : FRef := ⟨SUPV_CORE_STATUS.addr i, 27, 1⟩
def SUPV_CORE_STATUS.LAST_CAUSE (i : Nat) : FRef := ⟨SUPV_CORE_STATUS.addr i, 24, 3⟩
def SUPV_CORE_STATUS.FAILS_1H (i : Nat) : FRef := ⟨SUPV_CORE_STATUS.addr i, 0, 8⟩
/-- Address of SUPV_HB (spec/14_supervisors.md). -/
def SUPV_HB.addr (i : Nat) : Nat := 0x0B000004 + 0x10000 * i
def SUPV_HB.BEAT (i : Nat) : FRef := ⟨SUPV_HB.addr i, 0, 32⟩
/-- Address of SUPV_PMC_CFG (spec/14_supervisors.md). -/
def SUPV_PMC_CFG.addr (i j : Nat) : Nat := 0x0B000200 + 0x10000 * i + 0x10 * j
def SUPV_PMC_CFG.EN (i j : Nat) : FRef := ⟨SUPV_PMC_CFG.addr i j, 31, 1⟩
def SUPV_PMC_CFG.INT_EN (i j : Nat) : FRef := ⟨SUPV_PMC_CFG.addr i j, 30, 1⟩
def SUPV_PMC_CFG.OVF (i j : Nat) : FRef := ⟨SUPV_PMC_CFG.addr i j, 29, 1⟩
def SUPV_PMC_CFG.EVENT (i j : Nat) : FRef := ⟨SUPV_PMC_CFG.addr i j, 0, 8⟩
/-- Address of SUPV_PMC_LO (spec/14_supervisors.md). -/
def SUPV_PMC_LO.addr (i j : Nat) : Nat := 0x0B000204 + 0x10000 * i + 0x10 * j
def SUPV_PMC_LO.COUNT (i j : Nat) : FRef := ⟨SUPV_PMC_LO.addr i j, 0, 32⟩
/-- Address of SUPV_PMC_HI (spec/14_supervisors.md). -/
def SUPV_PMC_HI.addr (i j : Nat) : Nat := 0x0B000208 + 0x10000 * i + 0x10 * j
def SUPV_PMC_HI.COUNT (i j : Nat) : FRef := ⟨SUPV_PMC_HI.addr i j, 0, 16⟩
/-- Address of SUPV_PAIR_CTRL (spec/14_supervisors.md). -/
def SUPV_PAIR_CTRL.addr : Nat := 0x0B000100
def SUPV_PAIR_CTRL.SWITCH : FRef := ⟨SUPV_PAIR_CTRL.addr, 31, 1⟩
def SUPV_PAIR_CTRL.WDOG_MS : FRef := ⟨SUPV_PAIR_CTRL.addr, 0, 14⟩
/-- Address of SUPV_PAIR_STATUS (spec/14_supervisors.md). -/
def SUPV_PAIR_STATUS.addr : Nat := 0x0B000104
def SUPV_PAIR_STATUS.TAKING_OVER : FRef := ⟨SUPV_PAIR_STATUS.addr, 31, 1⟩
def SUPV_PAIR_STATUS.WDOG : FRef := ⟨SUPV_PAIR_STATUS.addr, 30, 1⟩
def SUPV_PAIR_STATUS.ACTIVE_SUP : FRef := ⟨SUPV_PAIR_STATUS.addr, 29, 1⟩
/-- Address of SUPV_ALM (spec/14_supervisors.md). -/
def SUPV_ALM.addr : Nat := 0x0B000108
def SUPV_ALM.ALM3_SRC : FRef := ⟨SUPV_ALM.addr, 24, 8⟩
def SUPV_ALM.ALM2_SRC : FRef := ⟨SUPV_ALM.addr, 16, 8⟩
def SUPV_ALM.ALM1_SRC : FRef := ⟨SUPV_ALM.addr, 8, 8⟩
def SUPV_ALM.ALM0_SRC : FRef := ⟨SUPV_ALM.addr, 0, 8⟩
/-- Address of SUPV_GPIO_OUT (spec/14_supervisors.md). -/
def SUPV_GPIO_OUT.addr : Nat := 0x0B000110
def SUPV_GPIO_OUT.GPIO : FRef := ⟨SUPV_GPIO_OUT.addr, 0, 32⟩
/-- Address of SUPV_GPIO_OE (spec/14_supervisors.md). -/
def SUPV_GPIO_OE.addr : Nat := 0x0B000114
def SUPV_GPIO_OE.GPIO : FRef := ⟨SUPV_GPIO_OE.addr, 0, 32⟩
/-- Address of SUPV_AUDIT_POLICY (spec/14_supervisors.md). -/
def SUPV_AUDIT_POLICY.addr : Nat := 0x0B000120
def SUPV_AUDIT_POLICY.ZONE : FRef := ⟨SUPV_AUDIT_POLICY.addr, 0, 30⟩
/-- Address of SUPV_THERM_CFG (spec/14_supervisors.md). -/
def SUPV_THERM_CFG.addr : Nat := 0x0B100000
def SUPV_THERM_CFG.HBM_WARN : FRef := ⟨SUPV_THERM_CFG.addr, 16, 7⟩
def SUPV_THERM_CFG.HYST : FRef := ⟨SUPV_THERM_CFG.addr, 8, 5⟩
def SUPV_THERM_CFG.THERM_WARN : FRef := ⟨SUPV_THERM_CFG.addr, 0, 7⟩
/-- Address of SUPV_THERM_STATUS (spec/14_supervisors.md). -/
def SUPV_THERM_STATUS.addr : Nat := 0x0B100004
def SUPV_THERM_STATUS.WARN : FRef := ⟨SUPV_THERM_STATUS.addr, 31, 1⟩
def SUPV_THERM_STATUS.HBM_WARN_ACT : FRef := ⟨SUPV_THERM_STATUS.addr, 30, 1⟩
def SUPV_THERM_STATUS.MAX_SENSOR : FRef := ⟨SUPV_THERM_STATUS.addr, 16, 5⟩
def SUPV_THERM_STATUS.MAX : FRef := ⟨SUPV_THERM_STATUS.addr, 0, 16⟩
/-- Address of SUPV_TEMP (spec/14_supervisors.md). -/
def SUPV_TEMP.addr (i : Nat) : Nat := 0x0B100100 + 0x4 * i
def SUPV_TEMP.VALID (i : Nat) : FRef := ⟨SUPV_TEMP.addr i, 31, 1⟩
def SUPV_TEMP.FAULT (i : Nat) : FRef := ⟨SUPV_TEMP.addr i, 30, 1⟩
def SUPV_TEMP.TEMP (i : Nat) : FRef := ⟨SUPV_TEMP.addr i, 0, 16⟩
/-- Address of SUPV_VMON (spec/14_supervisors.md). -/
def SUPV_VMON.addr (i : Nat) : Nat := 0x0B100200 + 0x8 * i
def SUPV_VMON.OUT (i : Nat) : FRef := ⟨SUPV_VMON.addr i, 31, 1⟩
def SUPV_VMON.MV (i : Nat) : FRef := ⟨SUPV_VMON.addr i, 0, 16⟩
/-- Address of SUPV_VMON_WIN (spec/14_supervisors.md). -/
def SUPV_VMON_WIN.addr (i : Nat) : Nat := 0x0B100204 + 0x8 * i
def SUPV_VMON_WIN.HIGH (i : Nat) : FRef := ⟨SUPV_VMON_WIN.addr i, 16, 16⟩
def SUPV_VMON_WIN.LOW (i : Nat) : FRef := ⟨SUPV_VMON_WIN.addr i, 0, 16⟩
/-- Address of SUPV_RAIL_I (spec/14_supervisors.md). -/
def SUPV_RAIL_I.addr (i : Nat) : Nat := 0x0B100400 + 0x4 * i
def SUPV_RAIL_I.STALE (i : Nat) : FRef := ⟨SUPV_RAIL_I.addr i, 31, 1⟩
def SUPV_RAIL_I.CURRENT (i : Nat) : FRef := ⟨SUPV_RAIL_I.addr i, 0, 16⟩
/-- Address of SUPV_SHUTDOWN (spec/14_supervisors.md). -/
def SUPV_SHUTDOWN.addr : Nat := 0x0B100800
def SUPV_SHUTDOWN.VALID : FRef := ⟨SUPV_SHUTDOWN.addr, 31, 1⟩
def SUPV_SHUTDOWN.SENSOR : FRef := ⟨SUPV_SHUTDOWN.addr, 16, 5⟩
def SUPV_SHUTDOWN.TEMP : FRef := ⟨SUPV_SHUTDOWN.addr, 0, 16⟩
/-- Address of SUPV_LOG_CFG (spec/14_supervisors.md). -/
def SUPV_LOG_CFG.addr : Nat := 0x0B200000
def SUPV_LOG_CFG.CLEAR : FRef := ⟨SUPV_LOG_CFG.addr, 31, 1⟩
def SUPV_LOG_CFG.PERSIST_SEV : FRef := ⟨SUPV_LOG_CFG.addr, 0, 3⟩
/-- Address of SUPV_LOG_STATUS (spec/14_supervisors.md). -/
def SUPV_LOG_STATUS.addr : Nat := 0x0B200004
def SUPV_LOG_STATUS.NEXT_SEQ : FRef := ⟨SUPV_LOG_STATUS.addr, 0, 32⟩
/-- Address of SUPV_LOG_PUT (spec/14_supervisors.md). -/
def SUPV_LOG_PUT.addr (i j : Nat) : Nat := 0x0B200100 + 0x40 * i + 0x4 * j
def SUPV_LOG_PUT.WORD (i j : Nat) : FRef := ⟨SUPV_LOG_PUT.addr i j, 0, 32⟩
/-- Address of HOST_INT_STATUS (spec/15_host.md). -/
def HOST_INT_STATUS.addr : Nat := 0x0C000000
def HOST_INT_STATUS.PIN_EN : FRef := ⟨HOST_INT_STATUS.addr, 24, 8⟩
def HOST_INT_STATUS.MSI_EN : FRef := ⟨HOST_INT_STATUS.addr, 16, 8⟩
def HOST_INT_STATUS.SRC : FRef := ⟨HOST_INT_STATUS.addr, 0, 7⟩
/-- Address of HOST_INT_EN (spec/15_host.md). -/
def HOST_INT_EN.addr : Nat := 0x0C000004
def HOST_INT_EN.PIN_EN : FRef := ⟨HOST_INT_EN.addr, 8, 8⟩
def HOST_INT_EN.MSI_EN : FRef := ⟨HOST_INT_EN.addr, 0, 8⟩
/-- Address of HOST_PEER_ALIVE (spec/15_host.md). -/
def HOST_PEER_ALIVE.addr : Nat := 0x0C000010
def HOST_PEER_ALIVE.DBG_UNLOCKED : FRef := ⟨HOST_PEER_ALIVE.addr, 4, 1⟩
def HOST_PEER_ALIVE.HOST_UP : FRef := ⟨HOST_PEER_ALIVE.addr, 3, 1⟩
def HOST_PEER_ALIVE.ACTIVE_PRESENT : FRef := ⟨HOST_PEER_ALIVE.addr, 2, 1⟩
def HOST_PEER_ALIVE.SUP_B : FRef := ⟨HOST_PEER_ALIVE.addr, 1, 1⟩
def HOST_PEER_ALIVE.SUP_A : FRef := ⟨HOST_PEER_ALIVE.addr, 0, 1⟩
/-- Address of HOST_WIN_POS (spec/15_host.md). -/
def HOST_WIN_POS.addr : Nat := 0x0C000020
def HOST_WIN_POS.POS : FRef := ⟨HOST_WIN_POS.addr, 0, 8⟩
/-- Address of HOST_DBG_CTRL (spec/15_host.md). -/
def HOST_DBG_CTRL.addr : Nat := 0x0C000100
def HOST_DBG_CTRL.UNLOCKED : FRef := ⟨HOST_DBG_CTRL.addr, 31, 1⟩
def HOST_DBG_CTRL.LOCK : FRef := ⟨HOST_DBG_CTRL.addr, 1, 1⟩
def HOST_DBG_CTRL.CHECK : FRef := ⟨HOST_DBG_CTRL.addr, 0, 1⟩
/-- Address of HOST_DBG_CHAL (spec/15_host.md). -/
def HOST_DBG_CHAL.addr (i : Nat) : Nat := 0x0C000120 + 0x4 * i
def HOST_DBG_CHAL.DATA (i : Nat) : FRef := ⟨HOST_DBG_CHAL.addr i, 0, 32⟩
/-- Address of HOST_DBG_RESP (spec/15_host.md). -/
def HOST_DBG_RESP.addr (i : Nat) : Nat := 0x0C000140 + 0x4 * i
def HOST_DBG_RESP.DATA (i : Nat) : FRef := ⟨HOST_DBG_RESP.addr i, 0, 32⟩
/-- Address of HOST_MB_CTRL (spec/15_host.md). -/
def HOST_MB_CTRL.addr (i : Nat) : Nat := 0x0C100000 + 0x10 * i
def HOST_MB_CTRL.FULL (i : Nat) : FRef := ⟨HOST_MB_CTRL.addr i, 31, 1⟩
def HOST_MB_CTRL.POST (i : Nat) : FRef := ⟨HOST_MB_CTRL.addr i, 30, 1⟩
def HOST_MB_CTRL.RELEASE (i : Nat) : FRef := ⟨HOST_MB_CTRL.addr i, 29, 1⟩
def HOST_MB_CTRL.SEQ (i : Nat) : FRef := ⟨HOST_MB_CTRL.addr i, 0, 16⟩
/-- Address of HOST_MB_SUBMIT (spec/15_host.md). -/
def HOST_MB_SUBMIT.addr (i : Nat) : Nat := 0x0C100004 + 0x10 * i
def HOST_MB_SUBMIT.ACCEPTED (i : Nat) : FRef := ⟨HOST_MB_SUBMIT.addr i, 31, 1⟩
def HOST_MB_SUBMIT.SEQ (i : Nat) : FRef := ⟨HOST_MB_SUBMIT.addr i, 0, 16⟩
/-- Address of HOST_MB_BUF (spec/15_host.md). -/
def HOST_MB_BUF.addr (i j : Nat) : Nat := 0x0C108000 + 0x100 * i + 0x4 * j
def HOST_MB_BUF.DATA (i j : Nat) : FRef := ⟨HOST_MB_BUF.addr i j, 0, 32⟩
/-- Address of HOST_BEC_CFG (spec/15_host.md). -/
def HOST_BEC_CFG.addr (i : Nat) : Nat := 0x0C200000 + 0x20 * i
def HOST_BEC_CFG.EN (i : Nat) : FRef := ⟨HOST_BEC_CFG.addr i, 31, 1⟩
def HOST_BEC_CFG.MASTER_MASK (i : Nat) : FRef := ⟨HOST_BEC_CFG.addr i, 10, 5⟩
def HOST_BEC_CFG.PRIV (i : Nat) : FRef := ⟨HOST_BEC_CFG.addr i, 8, 2⟩
def HOST_BEC_CFG.CLASS (i : Nat) : FRef := ⟨HOST_BEC_CFG.addr i, 0, 5⟩
/-- Address of HOST_BEC_BASE (spec/15_host.md). -/
def HOST_BEC_BASE.addr (i : Nat) : Nat := 0x0C200004 + 0x20 * i
def HOST_BEC_BASE.ADDR (i : Nat) : FRef := ⟨HOST_BEC_BASE.addr i, 0, 32⟩
/-- Address of HOST_BEC_LIMIT (spec/15_host.md). -/
def HOST_BEC_LIMIT.addr (i : Nat) : Nat := 0x0C200008 + 0x20 * i
def HOST_BEC_LIMIT.ADDR (i : Nat) : FRef := ⟨HOST_BEC_LIMIT.addr i, 0, 32⟩
/-- Address of HOST_BEC_LO (spec/15_host.md). -/
def HOST_BEC_LO.addr (i : Nat) : Nat := 0x0C20000C + 0x20 * i
def HOST_BEC_LO.COUNT (i : Nat) : FRef := ⟨HOST_BEC_LO.addr i, 0, 32⟩
/-- Address of HOST_BEC_HI (spec/15_host.md). -/
def HOST_BEC_HI.addr (i : Nat) : Nat := 0x0C200010 + 0x20 * i
def HOST_BEC_HI.OVF (i : Nat) : FRef := ⟨HOST_BEC_HI.addr i, 31, 1⟩
def HOST_BEC_HI.COUNT (i : Nat) : FRef := ⟨HOST_BEC_HI.addr i, 0, 16⟩
/-- Address of HOST_BEC_CMD (spec/15_host.md). -/
def HOST_BEC_CMD.addr (i : Nat) : Nat := 0x0C200014 + 0x20 * i
def HOST_BEC_CMD.CLR_OVF (i : Nat) : FRef := ⟨HOST_BEC_CMD.addr i, 1, 1⟩
def HOST_BEC_CMD.CLR (i : Nat) : FRef := ⟨HOST_BEC_CMD.addr i, 0, 1⟩
/-- Address of REAM_WIN_SEL (spec/15_host.md). -/
def REAM_WIN_SEL.addr (i : Nat) : Nat := 0x0D100000 + 0x10 * i
def REAM_WIN_SEL.ID (i : Nat) : FRef := ⟨REAM_WIN_SEL.addr i, 0, 32⟩
/-- Address of REAM_WIN_CMD (spec/15_host.md). -/
def REAM_WIN_CMD.addr (i : Nat) : Nat := 0x0D10000C + 0x10 * i
def REAM_WIN_CMD.CLR_OVF (i : Nat) : FRef := ⟨REAM_WIN_CMD.addr i, 1, 1⟩
def REAM_WIN_CMD.CLR (i : Nat) : FRef := ⟨REAM_WIN_CMD.addr i, 0, 1⟩
/-- Address of REAM_WIN_LO (spec/15_host.md). -/
def REAM_WIN_LO.addr (i : Nat) : Nat := 0x0D100004 + 0x10 * i
def REAM_WIN_LO.COUNT (i : Nat) : FRef := ⟨REAM_WIN_LO.addr i, 0, 32⟩
/-- Address of REAM_WIN_HI (spec/15_host.md). -/
def REAM_WIN_HI.addr (i : Nat) : Nat := 0x0D100008 + 0x10 * i
def REAM_WIN_HI.COUNT (i : Nat) : FRef := ⟨REAM_WIN_HI.addr i, 0, 32⟩
/-- Address of REAM_WIN_FLAG (spec/15_host.md). -/
def REAM_WIN_FLAG.addr (i : Nat) : Nat := 0x0D100080 + 0x4 * i
def REAM_WIN_FLAG.OVF (i : Nat) : FRef := ⟨REAM_WIN_FLAG.addr i, 31, 1⟩
def REAM_WIN_FLAG.NONE (i : Nat) : FRef := ⟨REAM_WIN_FLAG.addr i, 30, 1⟩
/-- Address of REAM_SNAP_STATUS (spec/15_host.md). -/
def REAM_SNAP_STATUS.addr : Nat := 0x0D200000
def REAM_SNAP_STATUS.BUSY : FRef := ⟨REAM_SNAP_STATUS.addr, 31, 1⟩
def REAM_SNAP_STATUS.ENTRIES : FRef := ⟨REAM_SNAP_STATUS.addr, 0, 24⟩
/-- Address of DEV_AUDIT_STATUS (spec/16_guarantees.md). -/
def DEV_AUDIT_STATUS.addr : Nat := 0x00020000
def DEV_AUDIT_STATUS.RUNNING : FRef := ⟨DEV_AUDIT_STATUS.addr, 31, 1⟩
def DEV_AUDIT_STATUS.DISC : FRef := ⟨DEV_AUDIT_STATUS.addr, 30, 1⟩
def DEV_AUDIT_STATUS.OPEN : FRef := ⟨DEV_AUDIT_STATUS.addr, 0, 8⟩
/-- Address of DEV_AUDIT_ERR (spec/16_guarantees.md). -/
def DEV_AUDIT_ERR.addr : Nat := 0x00020004
def DEV_AUDIT_ERR.VALID : FRef := ⟨DEV_AUDIT_ERR.addr, 31, 1⟩
def DEV_AUDIT_ERR.CHECK : FRef := ⟨DEV_AUDIT_ERR.addr, 28, 3⟩
def DEV_AUDIT_ERR.WHERE : FRef := ⟨DEV_AUDIT_ERR.addr, 16, 8⟩
/-- Address of DEV_AUDIT_EXP (spec/16_guarantees.md). -/
def DEV_AUDIT_EXP.addr : Nat := 0x00020008
def DEV_AUDIT_EXP.VALUE : FRef := ⟨DEV_AUDIT_EXP.addr, 0, 32⟩
/-- Address of DEV_AUDIT_FOUND (spec/16_guarantees.md). -/
def DEV_AUDIT_FOUND.addr : Nat := 0x0002000C
def DEV_AUDIT_FOUND.VALUE : FRef := ⟨DEV_AUDIT_FOUND.addr, 0, 32⟩
/-- Address of DEV_AUDIT_LOST (spec/16_guarantees.md). -/
def DEV_AUDIT_LOST.addr (i : Nat) : Nat := 0x00020100 + 0x4 * i
def DEV_AUDIT_LOST.LOST (i : Nat) : FRef := ⟨DEV_AUDIT_LOST.addr i, 0, 26⟩
/-- Address of PWCK_RAIL_BUDGET (spec/17_physical.md). -/
def PWCK_RAIL_BUDGET.addr (i : Nat) : Nat := 0x0E000000 + 0x10 * i
def PWCK_RAIL_BUDGET.RESERVED (i : Nat) : FRef := ⟨PWCK_RAIL_BUDGET.addr i, 16, 10⟩
def PWCK_RAIL_BUDGET.BUDGET (i : Nat) : FRef := ⟨PWCK_RAIL_BUDGET.addr i, 0, 10⟩
/-- Address of PWCK_RAIL_STATUS (spec/17_physical.md). -/
def PWCK_RAIL_STATUS.addr (i : Nat) : Nat := 0x0E000004 + 0x10 * i
def PWCK_RAIL_STATUS.RAMPING (i : Nat) : FRef := ⟨PWCK_RAIL_STATUS.addr i, 31, 1⟩
def PWCK_RAIL_STATUS.WAITING (i : Nat) : FRef := ⟨PWCK_RAIL_STATUS.addr i, 26, 5⟩
def PWCK_RAIL_STATUS.RES_FREE (i : Nat) : FRef := ⟨PWCK_RAIL_STATUS.addr i, 16, 10⟩
def PWCK_RAIL_STATUS.GRANTED (i : Nat) : FRef := ⟨PWCK_RAIL_STATUS.addr i, 0, 10⟩
/-- Address of PWCK_MOD_BUDGET (spec/17_physical.md). -/
def PWCK_MOD_BUDGET.addr : Nat := 0x0E000100
def PWCK_MOD_BUDGET.GRANTED : FRef := ⟨PWCK_MOD_BUDGET.addr, 16, 12⟩
def PWCK_MOD_BUDGET.BUDGET : FRef := ⟨PWCK_MOD_BUDGET.addr, 0, 12⟩
/-- Address of PWCK_AVS (spec/17_physical.md). -/
def PWCK_AVS.addr : Nat := 0x0E000200
def PWCK_AVS.APPLIED : FRef := ⟨PWCK_AVS.addr, 31, 1⟩
def PWCK_AVS.PMB_ERR : FRef := ⟨PWCK_AVS.addr, 30, 1⟩
def PWCK_AVS.SETPOINT_MV : FRef := ⟨PWCK_AVS.addr, 16, 10⟩
def PWCK_AVS.VOUT_MV : FRef := ⟨PWCK_AVS.addr, 0, 10⟩
/-- Address of PWCK_CLK_STATUS (spec/17_physical.md). -/
def PWCK_CLK_STATUS.addr : Nat := 0x0E100000
def PWCK_CLK_STATUS.PLL_LOCK : FRef := ⟨PWCK_CLK_STATUS.addr, 31, 1⟩
def PWCK_CLK_STATUS.REFCLK_LOST : FRef := ⟨PWCK_CLK_STATUS.addr, 30, 1⟩
def PWCK_CLK_STATUS.SREF_LOST : FRef := ⟨PWCK_CLK_STATUS.addr, 16, 8⟩
/-- Address of PWCK_DOM_STATUS (spec/17_physical.md). -/
def PWCK_DOM_STATUS.addr (i : Nat) : Nat := 0x0E200000 + 0x4 * i
def PWCK_DOM_STATUS.STATE (i : Nat) : FRef := ⟨PWCK_DOM_STATUS.addr i, 30, 2⟩
def PWCK_DOM_STATUS.LEVEL (i : Nat) : FRef := ⟨PWCK_DOM_STATUS.addr i, 28, 2⟩
def PWCK_DOM_STATUS.WAITING (i : Nat) : FRef := ⟨PWCK_DOM_STATUS.addr i, 27, 1⟩
def PWCK_DOM_STATUS.CORE_TOKENS (i : Nat) : FRef := ⟨PWCK_DOM_STATUS.addr i, 0, 10⟩

end Reg

/-- Registers of zone 0x00. -/
def regZone0 : List RDecl := [
  ⟨"DEV_IDENT", [(0x00000000, [])], [0x02561000],
    [⟨16, 16, .ro, false, .any⟩, ⟨8, 8, .ro, false, .any⟩, ⟨4, 4, .ro, false, .any⟩]⟩,
  ⟨"DEV_STRAP", [(0x00000004, [])], [0x00000000],
    [⟨2, 1, .ro, false, .any⟩, ⟨0, 2, .ro, false, .any⟩]⟩,
  ⟨"DEV_BOOT_STATUS", [(0x00000008, [])], [0x00000000],
    [⟨28, 4, .ro, false, .any⟩, ⟨26, 2, .ro, false, .any⟩, ⟨25, 1, .ro, false, .any⟩, ⟨16, 8, .ro, false, .any⟩, ⟨8, 8, .ro, false, .any⟩]⟩,
  ⟨"DEV_BOOT_TIME", [(0x0000000C, [])], [0x00000000],
    [⟨0, 32, .ro, false, .any⟩]⟩,
  ⟨"DEV_AMD_STATUS", [(0x00000100, [])], [0x00000000],
    [⟨31, 1, .ro, false, .any⟩, ⟨30, 1, .w1c, true, .any⟩, ⟨29, 1, .ro, false, .any⟩, ⟨16, 8, .ro, false, .any⟩, ⟨0, 9, .ro, false, .any⟩]⟩,
  ⟨"DEV_AMD_SEQ_LO", [(0x00000104, [])], [0x00000000],
    [⟨0, 32, .ro, false, .any⟩]⟩,
  ⟨"DEV_AMD_SEQ_HI", [(0x00000108, [])], [0x00000000],
    [⟨0, 32, .ro, false, .any⟩]⟩,
  ⟨"DEV_FUSE_DEVNUM", [(0x00010000, [])], [0x00000000],
    [⟨0, 16, .ro, false, .any⟩]⟩,
  ⟨"DEV_FUSE_REALM", [(0x00010004, [])], [0x00000000],
    [⟨0, 32, .ro, false, .any⟩]⟩,
  ⟨"DEV_FUSE_COUNT", [(0x00010008, [])], [0x00000000],
    [⟨0, 7, .ro, false, .any⟩]⟩,
  ⟨"DEV_FUSE_MAC_LO", [(0x0001000C, [])], [0x00000000],
    [⟨0, 32, .ro, false, .any⟩]⟩,
  ⟨"DEV_FUSE_MAC_HI", [(0x00010010, [])], [0x00000000],
    [⟨0, 16, .ro, false, .any⟩]⟩,
  ⟨"DEV_AUDIT_STATUS", [(0x00020000, [])], [0x00000000],
    [⟨31, 1, .ro, false, .any⟩, ⟨30, 1, .ro, false, .any⟩, ⟨0, 8, .ro, false, .any⟩]⟩,
  ⟨"DEV_AUDIT_ERR", [(0x00020004, [])], [0x00000000],
    [⟨31, 1, .w1c, true, .any⟩, ⟨28, 3, .ro, false, .any⟩, ⟨16, 8, .ro, false, .any⟩]⟩,
  ⟨"DEV_AUDIT_EXP", [(0x00020008, [])], [0x00000000],
    [⟨0, 32, .ro, false, .any⟩]⟩,
  ⟨"DEV_AUDIT_FOUND", [(0x0002000C, [])], [0x00000000],
    [⟨0, 32, .ro, false, .any⟩]⟩,
  ⟨"DEV_AUDIT_LOST", [(0x00020100, [(12, 0x4)])], [0x00000000],
    [⟨0, 26, .ro, false, .any⟩]⟩]
/-- Registers of zone 0x01. -/
def regZone1 : List RDecl := [
  ⟨"PORT_GRP_MODE", [(0x01000000, [(66, 0x10000)])], [0x00000000],
    [⟨8, 4, .rw, true, .any⟩, ⟨4, 4, .rw, true, .any⟩, ⟨0, 4, .rw, true, .any⟩]⟩,
  ⟨"PORT_GRP_STATUS", [(0x01000004, [(66, 0x10000)])], [0x00000000],
    [⟨16, 1, .ro, false, .any⟩, ⟨12, 4, .ro, false, .any⟩, ⟨8, 4, .ro, false, .any⟩, ⟨4, 4, .ro, false, .any⟩, ⟨0, 4, .ro, false, .any⟩]⟩,
  ⟨"PORT_LANE_TXEQ", [(0x01000100, [(66, 0x10000), (4, 0x4)])], [0x00000040],
    [⟨25, 6, .rw, true, .any⟩, ⟨19, 6, .rw, true, .any⟩, ⟨13, 6, .rw, true, .any⟩, ⟨7, 6, .rw, true, .any⟩, ⟨0, 7, .rw, true, .any⟩]⟩,
  ⟨"PORT_LANE_TXEQ_ACT", [(0x01000110, [(66, 0x10000), (4, 0x4)])], [0x00000040],
    [⟨25, 6, .ro, false, .any⟩, ⟨19, 6, .ro, false, .any⟩, ⟨13, 6, .ro, false, .any⟩, ⟨7, 6, .ro, false, .any⟩, ⟨0, 7, .ro, false, .any⟩]⟩,
  ⟨"PORT_CFG", [(0x01004000, [(64, 0x10000), (4, 0x1000)]), (0x01404000, [(2, 0x10000)])], [0x000007D0],
    [⟨31, 1, .rw, true, .any⟩, ⟨30, 1, .rw, true, .any⟩, ⟨29, 1, .rw, true, .any⟩, ⟨28, 1, .rw, true, .any⟩, ⟨26, 2, .rw, true, .any⟩, ⟨0, 14, .rw, true, .within 1518 12288⟩]⟩,
  ⟨"PORT_LINK_TIMING", [(0x01004004, [(64, 0x10000), (4, 0x1000)]), (0x01404004, [(2, 0x10000)])], [0x00282710],
    [⟨18, 10, .rw, true, .within 0 1000⟩, ⟨0, 17, .rw, true, .within 0 100000⟩]⟩,
  ⟨"PORT_STATUS", [(0x01004008, [(64, 0x10000), (4, 0x1000)]), (0x01404008, [(2, 0x10000)])], [0x00000000],
    [⟨31, 1, .ro, false, .any⟩, ⟨30, 1, .ro, false, .any⟩, ⟨29, 1, .ro, false, .any⟩, ⟨28, 1, .ro, false, .any⟩, ⟨27, 1, .ro, false, .any⟩, ⟨26, 1, .ro, false, .any⟩, ⟨25, 1, .ro, false, .any⟩, ⟨24, 1, .ro, false, .any⟩, ⟨23, 1, .ro, false, .any⟩, ⟨22, 1, .ro, false, .any⟩, ⟨20, 2, .ro, false, .any⟩, ⟨18, 2, .ro, false, .any⟩]⟩,
  ⟨"PORT_PAUSE_CFG", [(0x01004010, [(64, 0x10000), (4, 0x1000)]), (0x01404010, [(2, 0x10000)])], [0x0000FFFF],
    [⟨30, 2, .rw, true, .any⟩, ⟨29, 1, .rw, true, .any⟩, ⟨28, 1, .rw, true, .any⟩, ⟨16, 8, .rw, true, .any⟩, ⟨0, 16, .rw, true, .any⟩]⟩,
  ⟨"PORT_PAUSE_WD", [(0x01004014, [(64, 0x10000), (4, 0x1000)]), (0x01404014, [(2, 0x10000)])], [0x03E80032],
    [⟨16, 16, .rw, true, .within 10 60000⟩, ⟨0, 14, .rw, true, .within 1 10000⟩]⟩,
  ⟨"PORT_PAUSE_STAT", [(0x01004018, [(64, 0x10000), (4, 0x1000)]), (0x01404018, [(2, 0x10000)])], [0x00000000],
    [⟨16, 8, .ro, false, .any⟩, ⟨8, 8, .ro, false, .any⟩, ⟨0, 8, .ro, false, .any⟩]⟩,
  ⟨"PORT_PREEMPT_CFG", [(0x0100401C, [(64, 0x10000), (4, 0x1000)]), (0x0140401C, [(2, 0x10000)])], [0x000A0000],
    [⟨31, 1, .rw, true, .any⟩, ⟨30, 1, .rw, true, .any⟩, ⟨16, 8, .rw, true, .within 1 128⟩, ⟨0, 2, .rw, true, .any⟩]⟩,
  ⟨"PORT_TS_ADJ", [(0x01004020, [(64, 0x10000), (4, 0x1000)]), (0x01404020, [(2, 0x10000)])], [0x00000000],
    [⟨16, 16, .rw, true, .any⟩, ⟨0, 16, .rw, true, .any⟩]⟩,
  ⟨"PORT_PAUSE_HI", [(0x01004040, [(64, 0x10000), (4, 0x1000), (8, 0x4)]), (0x01404040, [(2, 0x10000), (8, 0x4)])], [0x0003FFFF],
    [⟨0, 18, .rw, true, .any⟩]⟩,
  ⟨"PORT_PAUSE_LO", [(0x01004060, [(64, 0x10000), (4, 0x1000), (8, 0x4)]), (0x01404060, [(2, 0x10000), (8, 0x4)])], [0x00000000],
    [⟨0, 18, .rw, true, .any⟩]⟩]
/-- Registers of zone 0x02. -/
def regZone2 : List RDecl := [
  ⟨"MODL_BUS_CFG", [(0x02000000, [(8, 0x10000)])], [0x00000001],
    [⟨5, 1, .rw, true, .any⟩, ⟨2, 3, .rw, true, .any⟩, ⟨0, 2, .rw, true, .any⟩]⟩,
  ⟨"MODL_BUS_STATUS", [(0x02000004, [(8, 0x10000)])], [0x00000000],
    [⟨2, 1, .ro, false, .any⟩, ⟨1, 1, .w1c, true, .any⟩, ⟨0, 1, .ro, false, .any⟩]⟩,
  ⟨"MODL_PRS_LO", [(0x02100000, [])], [0x00000000],
    [⟨0, 32, .ro, false, .any⟩]⟩,
  ⟨"MODL_PRS_HI", [(0x02100004, [])], [0x00000000],
    [⟨0, 32, .ro, false, .any⟩]⟩,
  ⟨"MODL_CAGE_CFG", [(0x02100100, [(64, 0x4)])], [0x00000000],
    [⟨31, 1, .rw, true, .any⟩, ⟨30, 1, .rw, true, .any⟩, ⟨29, 1, .rw, true, .any⟩, ⟨24, 3, .rw, true, .any⟩, ⟨12, 2, .rw, true, .any⟩, ⟨10, 2, .rw, true, .any⟩, ⟨0, 6, .rw, true, .any⟩]⟩,
  ⟨"MODL_CAGE_STATUS", [(0x02100200, [(64, 0x4)])], [0x00000000],
    [⟨28, 4, .ro, false, .any⟩, ⟨24, 4, .ro, false, .any⟩, ⟨21, 3, .ro, false, .any⟩, ⟨20, 1, .ro, false, .any⟩, ⟨19, 1, .ro, false, .any⟩, ⟨18, 1, .ro, false, .any⟩, ⟨0, 8, .ro, false, .any⟩]⟩]
/-- Registers of zone 0x03. -/
def regZone3 : List RDecl := [
  ⟨"PARS_CFG", [(0x03000000, [(4, 0x10000)])], [0x00000100],
    [⟨24, 8, .rw, true, .any⟩, ⟨20, 4, .rw, true, .any⟩, ⟨0, 16, .rw, true, .any⟩]⟩,
  ⟨"PARS_STATUS", [(0x03000004, [(4, 0x10000)])], [0x00000000],
    [⟨31, 1, .ro, false, .any⟩, ⟨30, 1, .ro, false, .any⟩, ⟨16, 5, .ro, false, .any⟩, ⟨0, 8, .ro, false, .any⟩]⟩,
  ⟨"PARS_COPY_STATUS", [(0x03000008, [(4, 0x10000)])], [0x0000FFFF],
    [⟨16, 16, .ro, false, .any⟩, ⟨0, 16, .ro, false, .any⟩]⟩,
  ⟨"PARS_MC_LOG", [(0x03000010, [(4, 0x10000)])], [0x00000000],
    [⟨31, 1, .w1c, true, .any⟩, ⟨28, 3, .ro, false, .any⟩, ⟨24, 4, .ro, false, .any⟩, ⟨17, 7, .ro, false, .any⟩, ⟨0, 14, .ro, false, .any⟩]⟩,
  ⟨"PARS_SIDE_ERR", [(0x03000014, [(4, 0x10000)])], [0x00000000],
    [⟨31, 1, .w1c, true, .any⟩, ⟨0, 12, .ro, false, .any⟩]⟩,
  ⟨"PARS_STORE_SEL", [(0x03000020, [(4, 0x10000)])], [0x00000000],
    [⟨31, 1, .w1s, true, .any⟩, ⟨16, 4, .rw, true, .any⟩, ⟨15, 1, .rw, true, .any⟩, ⟨0, 14, .rw, true, .any⟩]⟩,
  ⟨"PARS_STORE_DATA", [(0x03000040, [(4, 0x10000), (8, 0x4)])], [0x00000000],
    [⟨0, 32, .ro, true, .any⟩]⟩]
/-- Registers of zone 0x04. -/
def regZone4 : List RDecl := [
  ⟨"LKUP_TBL_CTRL", [(0x04000000, [(4, 0x10000)])], [0x00000000],
    [⟨31, 1, .rw, true, .any⟩, ⟨30, 1, .rw, true, .any⟩]⟩,
  ⟨"LKUP_HASH_SEED0", [(0x04000004, [(4, 0x10000)])], [0x00000000],
    [⟨0, 32, .rw, true, .any⟩]⟩,
  ⟨"LKUP_HASH_SEED1", [(0x04000008, [(4, 0x10000)])], [0xFFFFFFFF],
    [⟨0, 32, .rw, true, .any⟩]⟩,
  ⟨"LKUP_MOVE_CFG", [(0x0400000C, [(4, 0x10000)])], [0x500003E8],
    [⟨28, 4, .rw, true, .within 1 15⟩, ⟨0, 16, .rw, true, .within 100 60000⟩]⟩,
  ⟨"LKUP_TBL_STATUS", [(0x04000010, [(4, 0x10000)])], [0x00000000],
    [⟨31, 1, .ro, false, .any⟩, ⟨30, 1, .ro, false, .any⟩, ⟨29, 1, .ro, false, .any⟩, ⟨0, 11, .ro, false, .any⟩]⟩,
  ⟨"LKUP_TBL_COUNT", [(0x04000014, [(4, 0x10000)])], [0x00000000],
    [⟨0, 22, .ro, false, .any⟩]⟩,
  ⟨"LKUP_TBL_STATIC", [(0x04000018, [(4, 0x10000)])], [0x00000000],
    [⟨0, 19, .ro, false, .any⟩]⟩,
  ⟨"LKUP_PAR_ERR", [(0x0400001C, [(4, 0x10000)])], [0x00000000],
    [⟨31, 1, .w1c, true, .any⟩, ⟨0, 21, .ro, false, .any⟩]⟩,
  ⟨"LKUP_PORT_CFG", [(0x04001000, [(4, 0x10000), (64, 0x4)]), (0x04001100, [(3, 0x4)])], [0x00000001],
    [⟨31, 1, .rw, true, .any⟩, ⟨30, 1, .rw, true, .any⟩, ⟨29, 1, .rw, true, .any⟩, ⟨28, 1, .rw, true, .any⟩, ⟨0, 12, .rw, true, .any⟩]⟩,
  ⟨"LKUP_RING_CFG", [(0x04100000, [])], [0x000007D0],
    [⟨0, 12, .rw, true, .within 1 4000⟩]⟩,
  ⟨"LKUP_MIR_CFG", [(0x04210000, [(8, 0x100)])], [0x00000000],
    [⟨31, 1, .rw, true, .any⟩, ⟨30, 1, .rw, true, .any⟩, ⟨29, 1, .rw, true, .any⟩, ⟨28, 1, .ro, false, .any⟩, ⟨20, 3, .rw, true, .any⟩, ⟨0, 9, .rw, true, .any⟩]⟩,
  ⟨"LKUP_MIR_STREAM", [(0x04210004, [(8, 0x100)])], [0x00000000],
    [⟨16, 16, .rw, true, .any⟩, ⟨0, 16, .rw, true, .any⟩]⟩,
  ⟨"LKUP_MIR_PORTS", [(0x04210040, [(8, 0x100), (9, 0x4)])], [0x00000000],
    [⟨0, 32, .rw, true, .any⟩]⟩]
/-- Registers of zone 0x05. -/
def regZone5 : List RDecl := [
  ⟨"STRM_CFG", [(0x05000000, [(4, 0x10000)])], [0x00000000],
    [⟨31, 1, .rw, true, .any⟩]⟩,
  ⟨"STRM_ID_SEED", [(0x05000004, [(4, 0x10000)])], [0x00000000],
    [⟨0, 32, .rw, true, .any⟩]⟩,
  ⟨"STRM_BLOCKS_LO", [(0x05000008, [(4, 0x10000)])], [0x00000000],
    [⟨0, 32, .rw, true, .any⟩]⟩,
  ⟨"STRM_BLOCKS_HI", [(0x0500000C, [(4, 0x10000)])], [0x00000000],
    [⟨0, 32, .rw, true, .any⟩]⟩,
  ⟨"STRM_STATUS", [(0x05000010, [(4, 0x10000)])], [0x00000000],
    [⟨8, 17, .ro, false, .any⟩, ⟨0, 8, .ro, false, .any⟩]⟩,
  ⟨"STRM_ID_COUNT", [(0x05000014, [(4, 0x10000)])], [0x00000000],
    [⟨24, 8, .ro, false, .any⟩, ⟨16, 8, .ro, false, .any⟩, ⟨8, 8, .ro, false, .any⟩, ⟨0, 8, .ro, false, .any⟩]⟩,
  ⟨"STRM_BLOCKED_CNT", [(0x05000018, [(4, 0x10000)])], [0x00000000],
    [⟨0, 17, .ro, false, .any⟩]⟩,
  ⟨"STRM_IP_PROFILE", [(0x05000020, [(4, 0x10000), (4, 0x4)])], [0x00000000],
    [⟨31, 1, .rw, true, .any⟩, ⟨7, 1, .rw, true, .any⟩, ⟨6, 1, .rw, true, .any⟩, ⟨5, 1, .rw, true, .any⟩, ⟨4, 1, .rw, true, .any⟩, ⟨3, 1, .rw, true, .any⟩, ⟨2, 1, .rw, true, .any⟩, ⟨1, 1, .rw, true, .any⟩, ⟨0, 1, .rw, true, .any⟩]⟩,
  ⟨"STRM_POL_CFG", [(0x05002000, [(4, 0x10000), (67, 0x40), (8, 0x8)])], [0x00000014],
    [⟨31, 1, .rw, true, .any⟩, ⟨6, 24, .rw, true, .any⟩, ⟨0, 6, .rw, true, .any⟩]⟩,
  ⟨"STRM_POL_RATE", [(0x05002004, [(4, 0x10000), (67, 0x40), (8, 0x8)])], [0x00000000],
    [⟨0, 32, .rw, true, .any⟩]⟩,
  ⟨"STRM_RC_BLOCKS_LO", [(0x05100000, [(4, 0x10000)])], [0x00000000],
    [⟨0, 32, .rw, true, .any⟩]⟩,
  ⟨"STRM_RC_BLOCKS_HI", [(0x05100004, [(4, 0x10000)])], [0x00000000],
    [⟨0, 32, .rw, true, .any⟩]⟩,
  ⟨"STRM_RC_STATUS", [(0x05100008, [(4, 0x10000)])], [0x00000000],
    [⟨0, 17, .ro, false, .any⟩]⟩,
  ⟨"STRM_RED_PORT", [(0x05101000, [(4, 0x10000), (67, 0x4)])], [0x00000000],
    [⟨31, 1, .rw, true, .any⟩, ⟨30, 1, .rw, true, .any⟩]⟩,
  ⟨"STRM_RN_CFG", [(0x05200000, [])], [0x0000003C],
    [⟨0, 16, .rw, true, .within 1 3600⟩]⟩,
  ⟨"STRM_RN_SEED", [(0x05200004, [])], [0x00000000],
    [⟨0, 32, .rw, true, .any⟩]⟩,
  ⟨"STRM_RN_STATUS", [(0x05200008, [])], [0x00000000],
    [⟨0, 17, .ro, false, .any⟩]⟩,
  ⟨"STRM_RN_PAIR_STATUS", [(0x05200100, [(32, 0x4)])], [0x00000000],
    [⟨31, 1, .ro, false, .any⟩, ⟨30, 1, .ro, false, .any⟩, ⟨0, 16, .ro, false, .any⟩]⟩]
/-- Registers of zone 0x06. -/
def regZone6 : List RDecl := [
  ⟨"SEAL_CFG", [(0x06000000, [])], [0x0000100A],
    [⟨28, 4, .rw, true, .any⟩, ⟨8, 8, .rw, true, .within 1 255⟩, ⟨0, 8, .rw, true, .within 1 255⟩]⟩,
  ⟨"SEAL_STATUS", [(0x06000004, [])], [0x00000000],
    [⟨28, 4, .ro, false, .any⟩, ⟨27, 1, .ro, false, .any⟩, ⟨0, 15, .ro, false, .any⟩]⟩,
  ⟨"SEAL_PROTECT", [(0x06000100, [(9, 0x4)])], [0x00000000],
    [⟨0, 32, .rw, true, .any⟩]⟩,
  ⟨"SEAL_INGRESS", [(0x06000140, [(9, 0x4)])], [0x00000000],
    [⟨0, 32, .rw, true, .any⟩]⟩,
  ⟨"SEAL_Q_RES", [(0x06002000, [(259, 0x8)])], [0x00000000],
    [⟨16, 11, .rw, true, .any⟩, ⟨0, 11, .rw, true, .any⟩]⟩,
  ⟨"SEAL_Q_BLOCKS", [(0x06002004, [(259, 0x8)])], [0x08000000],
    [⟨16, 15, .rw, true, .within 0 16384⟩, ⟨0, 15, .rw, true, .within 0 16384⟩]⟩,
  ⟨"SEAL_SLOT_POLICY", [(0x06004000, [(512, 0x8)])], [0x80FF0000],
    [⟨31, 1, .rw, true, .any⟩, ⟨30, 1, .rw, true, .any⟩, ⟨29, 1, .rw, true, .any⟩, ⟨28, 1, .rw, true, .any⟩, ⟨27, 1, .rw, true, .any⟩, ⟨24, 3, .rw, true, .any⟩, ⟨16, 8, .rw, true, .any⟩]⟩,
  ⟨"SEAL_SLOT_WINDOW", [(0x06004004, [(512, 0x8)])], [0x0007A120],
    [⟨0, 26, .rw, true, .within 1 60000000⟩]⟩,
  ⟨"SEAL_CLU_STATUS", [(0x06100000, [(4, 0x10000)])], [0x00000000],
    [⟨31, 1, .ro, false, .any⟩, ⟨30, 1, .w1c, true, .any⟩, ⟨8, 4, .ro, false, .any⟩, ⟨0, 4, .ro, false, .any⟩]⟩,
  ⟨"SEAL_KEY_STATUS", [(0x06200000, [(512, 0x40)])], [0x00000000],
    [⟨31, 1, .ro, false, .any⟩, ⟨29, 2, .ro, false, .any⟩, ⟨0, 16, .ro, false, .any⟩]⟩,
  ⟨"SEAL_KEY_FPR", [(0x06200004, [(512, 0x40)])], [0x00000000],
    [⟨0, 32, .ro, false, .any⟩]⟩,
  ⟨"SEAL_KEY_MAT", [(0x06200020, [(512, 0x40), (8, 0x4)])], [0x00000000],
    [⟨0, 32, .wo, true, .any⟩]⟩,
  ⟨"SEAL_CTX_SEED", [(0x06300000, [])], [0x00000000],
    [⟨0, 32, .rw, true, .any⟩]⟩,
  ⟨"SEAL_CTX_STATUS", [(0x06300004, [])], [0x00000000],
    [⟨0, 15, .ro, false, .any⟩]⟩]
/-- Registers of zone 0x07. -/
def regZone7 : List RDecl := [
  ⟨"BUFF_BANK_STATUS", [(0x07000000, [(4, 0x10000)])], [0x00040000],
    [⟨0, 19, .ro, false, .any⟩]⟩,
  ⟨"BUFF_BANK_PEND", [(0x07000004, [(4, 0x10000)])], [0x00000000],
    [⟨31, 1, .ro, false, .any⟩, ⟨0, 19, .ro, false, .any⟩]⟩,
  ⟨"BUFF_BANK_ERR", [(0x07000008, [(4, 0x10000)])], [0x00000000],
    [⟨31, 1, .w1c, true, .any⟩, ⟨30, 1, .ro, false, .any⟩, ⟨0, 18, .ro, false, .any⟩]⟩,
  ⟨"BUFF_ILIM", [(0x07001000, [(4, 0x10000), (67, 0x40), (8, 0x8)])], [0x0003FFFF],
    [⟨0, 18, .rw, true, .any⟩]⟩,
  ⟨"BUFF_ILIM_DE", [(0x07001004, [(4, 0x10000), (67, 0x40), (8, 0x8)])], [0x0003FFFF],
    [⟨0, 18, .rw, true, .any⟩]⟩,
  ⟨"BUFF_ICOUNT", [(0x07003000, [(4, 0x10000), (67, 0x20), (8, 0x4)])], [0x00000000],
    [⟨0, 19, .ro, false, .any⟩]⟩,
  ⟨"BUFF_CLASS_CFG", [(0x07100000, [(8, 0x8)])], [0x00000000],
    [⟨31, 1, .rw, true, .any⟩, ⟨30, 1, .rw, true, .any⟩, ⟨0, 18, .rw, true, .any⟩]⟩,
  ⟨"BUFF_CLASS_DEEP", [(0x07100004, [(8, 0x8)])], [0x00400000],
    [⟨16, 16, .rw, true, .any⟩, ⟨0, 16, .rw, true, .any⟩]⟩,
  ⟨"BUFF_VAT_CFG", [(0x07100100, [])], [0x00001018],
    [⟨8, 6, .rw, true, .any⟩, ⟨0, 6, .rw, true, .any⟩]⟩,
  ⟨"BUFF_VAT_FREE", [(0x07100200, [(3, 0x8), (2, 0x4)])], [0x00000000],
    [⟨0, 26, .ro, false, .any⟩]⟩,
  ⟨"BUFF_PTR_ERR", [(0x07100300, [])], [0x00000000],
    [⟨31, 1, .w1c, true, .any⟩, ⟨24, 4, .ro, false, .any⟩, ⟨0, 24, .ro, false, .any⟩]⟩,
  ⟨"BUFF_PRIV_FREE", [(0x07110000, [])], [0x00000000],
    [⟨16, 16, .ro, false, .any⟩, ⟨0, 16, .ro, false, .any⟩]⟩,
  ⟨"BUFF_HBM_STATUS", [(0x07200000, [(2, 0x10000)])], [0x00000000],
    [⟨31, 1, .ro, false, .any⟩, ⟨30, 1, .ro, false, .any⟩, ⟨28, 2, .ro, false, .any⟩, ⟨0, 8, .ro, false, .any⟩]⟩]
/-- Registers of zone 0x08. -/
def regZone8 : List RDecl := [
  ⟨"FABR_CTRL", [(0x08F00000, [])], [0x00141388],
    [⟨31, 1, .rw, true, .any⟩, ⟨16, 6, .rw, true, .any⟩, ⟨0, 16, .rw, true, .within 1000 50000⟩]⟩,
  ⟨"FABR_CREDIT_CFG", [(0x08F00004, [])], [0x00000300],
    [⟨0, 11, .rw, true, .within 103 1536⟩]⟩,
  ⟨"FABR_STATUS", [(0x08F00008, [])], [0x000F0000],
    [⟨31, 1, .ro, false, .any⟩, ⟨30, 1, .ro, false, .any⟩, ⟨20, 10, .ro, false, .any⟩, ⟨16, 4, .ro, false, .any⟩, ⟨15, 1, .ro, false, .any⟩, ⟨0, 10, .ro, false, .any⟩]⟩,
  ⟨"FABR_ROT", [(0x08F0000C, [])], [0x00000000],
    [⟨31, 1, .w1s, true, .any⟩, ⟨4, 4, .ro, false, .any⟩, ⟨0, 4, .rw, true, .any⟩]⟩,
  ⟨"FABR_ROT_SCHED", [(0x08F00010, [])], [0x00000000],
    [⟨0, 16, .rw, true, .any⟩]⟩,
  ⟨"FABR_CT_EN", [(0x08F00100, [(8, 0x4)])], [0x00000000],
    [⟨0, 32, .rw, true, .any⟩]⟩,
  ⟨"FABR_PLANE_STATUS", [(0x08400000, [(10, 0x10000)])], [0x00000000],
    [⟨30, 2, .ro, false, .any⟩, ⟨27, 3, .ro, false, .any⟩, ⟨26, 1, .ro, false, .any⟩, ⟨16, 6, .ro, false, .any⟩, ⟨0, 4, .ro, false, .any⟩]⟩,
  ⟨"FABR_GRP_CREDIT", [(0x08000000, [(64, 0x10000)])], [0x00000000],
    [⟨16, 11, .ro, false, .any⟩, ⟨0, 11, .ro, false, .any⟩]⟩,
  ⟨"FABR_GRP_COUCH", [(0x08000004, [(64, 0x10000)])], [0x00000000],
    [⟨24, 8, .ro, false, .any⟩, ⟨0, 8, .ro, false, .any⟩]⟩,
  ⟨"FABR_VOQ_STATUS", [(0x08800000, [(4, 0x10000)])], [0x00000000],
    [⟨16, 16, .ro, false, .any⟩, ⟨0, 16, .ro, false, .any⟩]⟩]
/-- Registers of zone 0x09. -/
def regZone9 : List RDecl := [
  ⟨"EGRS_PORT_SCHED", [(0x09004000, [(64, 0x10000), (4, 0x1000)]), (0x09008000, [(2, 0x1000)])], [0x00000000],
    [⟨24, 8, .rw, true, .any⟩, ⟨16, 8, .rw, true, .any⟩, ⟨8, 8, .rw, true, .any⟩, ⟨0, 8, .rw, true, .any⟩]⟩,
  ⟨"EGRS_PORT_WEIGHT_LO", [(0x09004004, [(64, 0x10000), (4, 0x1000)]), (0x09008004, [(2, 0x1000)])], [0x01010101],
    [⟨0, 32, .rw, true, .any⟩]⟩,
  ⟨"EGRS_PORT_WEIGHT_HI", [(0x09004008, [(64, 0x10000), (4, 0x1000)]), (0x09008008, [(2, 0x1000)])], [0x01010101],
    [⟨0, 32, .rw, true, .any⟩]⟩,
  ⟨"EGRS_PORT_SHAPE", [(0x0900400C, [(64, 0x10000), (4, 0x1000)]), (0x0900800C, [(2, 0x1000)])], [0x00000014],
    [⟨31, 1, .rw, true, .any⟩, ⟨0, 6, .rw, true, .any⟩]⟩,
  ⟨"EGRS_GATE_CTRL", [(0x09004010, [(64, 0x10000), (4, 0x1000)]), (0x09008010, [(2, 0x1000)])], [0x00FF0000],
    [⟨31, 1, .rw, true, .any⟩, ⟨24, 3, .rw, true, .any⟩, ⟨16, 8, .rw, true, .any⟩]⟩,
  ⟨"EGRS_GATE_LIST", [(0x09004014, [(64, 0x10000), (4, 0x1000)]), (0x09008014, [(2, 0x1000)])], [0x00000000],
    [⟨16, 11, .rw, true, .within 0 1024⟩, ⟨0, 13, .rw, true, .any⟩]⟩,
  ⟨"EGRS_GATE_BASE_NS", [(0x09004018, [(64, 0x10000), (4, 0x1000)]), (0x09008018, [(2, 0x1000)])], [0x00000000],
    [⟨0, 30, .rw, true, .within 0 999999999⟩]⟩,
  ⟨"EGRS_GATE_BASE_SLO", [(0x0900401C, [(64, 0x10000), (4, 0x1000)]), (0x0900801C, [(2, 0x1000)])], [0x00000000],
    [⟨0, 32, .rw, true, .any⟩]⟩,
  ⟨"EGRS_GATE_BASE_SHI", [(0x09004020, [(64, 0x10000), (4, 0x1000)]), (0x09008020, [(2, 0x1000)])], [0x00000000],
    [⟨0, 16, .rw, true, .any⟩]⟩,
  ⟨"EGRS_GATE_CYCLE", [(0x09004024, [(64, 0x10000), (4, 0x1000)]), (0x09008024, [(2, 0x1000)])], [0x000F4240],
    [⟨0, 32, .rw, true, .within 1000 4000000000⟩]⟩,
  ⟨"EGRS_GATE_STATUS", [(0x09004028, [(64, 0x10000), (4, 0x1000)]), (0x09008028, [(2, 0x1000)])], [0x00000000],
    [⟨31, 1, .ro, false, .any⟩, ⟨30, 1, .ro, false, .any⟩, ⟨16, 8, .ro, false, .any⟩, ⟨0, 10, .ro, false, .any⟩]⟩,
  ⟨"EGRS_CBS_IDLE", [(0x09004100, [(64, 0x10000), (4, 0x1000), (8, 0x10)]), (0x09008100, [(2, 0x1000), (8, 0x10)])], [0x00000000],
    [⟨0, 32, .rw, true, .within 0 400000000⟩]⟩,
  ⟨"EGRS_CBS_CREDIT", [(0x09004104, [(64, 0x10000), (4, 0x1000), (8, 0x10)]), (0x09008104, [(2, 0x1000), (8, 0x10)])], [0xFFFFFFFF],
    [⟨16, 16, .rw, true, .any⟩, ⟨0, 16, .rw, true, .any⟩]⟩,
  ⟨"EGRS_TBS_RATE", [(0x09004108, [(64, 0x10000), (4, 0x1000), (9, 0x10)]), (0x09008108, [(2, 0x1000), (9, 0x10)])], [0x00000000],
    [⟨0, 32, .rw, true, .within 0 400000000⟩]⟩,
  ⟨"EGRS_TBS_BURST", [(0x0900410C, [(64, 0x10000), (4, 0x1000), (9, 0x10)]), (0x0900810C, [(2, 0x1000), (9, 0x10)])], [0x00000000],
    [⟨0, 24, .rw, true, .any⟩]⟩,
  ⟨"EGRS_AGE_LIMIT", [(0x09004200, [(64, 0x10000), (4, 0x1000), (8, 0x4)]), (0x09008200, [(2, 0x1000), (8, 0x4)])], [0x00000000],
    [⟨0, 21, .rw, true, .any⟩]⟩,
  ⟨"EGRS_Q_STATUS", [(0x09004240, [(64, 0x10000), (4, 0x1000), (8, 0x4)]), (0x09008240, [(2, 0x1000), (8, 0x4)])], [0x00000000],
    [⟨31, 1, .ro, false, .any⟩, ⟨16, 11, .ro, false, .any⟩, ⟨0, 16, .ro, false, .any⟩]⟩,
  ⟨"EGRS_EDIT_PORT", [(0x09801000, [(4, 0x10000), (64, 0x4)]), (0x09801100, [(2, 0x4)])], [0x00000000],
    [⟨31, 1, .rw, true, .any⟩, ⟨30, 1, .rw, true, .any⟩]⟩,
  ⟨"EGRS_MIR_EGR", [(0x09F00000, [(8, 0x100)])], [0x00000000],
    [⟨31, 1, .rw, true, .any⟩, ⟨30, 1, .rw, true, .any⟩, ⟨16, 14, .rw, true, .zeroOr 64 12288⟩, ⟨0, 12, .rw, true, .any⟩]⟩]
/-- Registers of zone 0x0A. -/
def regZoneA : List RDecl := [
  ⟨"TIME_TB_CFG", [(0x0A000000, [(8, 0x10000)])], [0x10000E10],
    [⟨30, 2, .rw, true, .any⟩, ⟨29, 1, .rw, true, .any⟩, ⟨28, 1, .rw, true, .any⟩, ⟨0, 16, .rw, true, .within 1 65535⟩]⟩,
  ⟨"TIME_TB_THRESH", [(0x0A000004, [(8, 0x10000)])], [0x00640064],
    [⟨16, 16, .rw, true, .within 1 65535⟩, ⟨0, 16, .rw, true, .within 1 65535⟩]⟩,
  ⟨"TIME_TB_KP", [(0x0A000008, [(8, 0x10000)])], [0x00040000],
    [⟨0, 32, .rw, true, .any⟩]⟩,
  ⟨"TIME_TB_KI", [(0x0A00000C, [(8, 0x10000)])], [0x00008000],
    [⟨0, 32, .rw, true, .any⟩]⟩,
  ⟨"TIME_TB_STATUS", [(0x0A000010, [(8, 0x10000)])], [0x00000000],
    [⟨30, 2, .ro, false, .any⟩, ⟨29, 1, .ro, false, .any⟩, ⟨28, 1, .w1c, true, .any⟩, ⟨27, 1, .ro, false, .any⟩, ⟨26, 1, .ro, false, .any⟩, ⟨25, 1, .ro, false, .any⟩]⟩,
  ⟨"TIME_TB_OFFSET", [(0x0A000014, [(8, 0x10000)])], [0x00000000],
    [⟨0, 32, .ro, false, .any⟩]⟩,
  ⟨"TIME_TB_FREQ", [(0x0A000018, [(8, 0x10000)])], [0x00000000],
    [⟨0, 32, .ro, false, .any⟩]⟩,
  ⟨"TIME_TB_AVG", [(0x0A00001C, [(8, 0x10000)])], [0x00000000],
    [⟨0, 32, .ro, false, .any⟩]⟩,
  ⟨"TIME_TB_NS", [(0x0A000020, [(8, 0x10000)])], [0x00000000],
    [⟨0, 32, .ro, false, .any⟩]⟩,
  ⟨"TIME_TB_SLO", [(0x0A000024, [(8, 0x10000)])], [0x00000000],
    [⟨0, 32, .ro, false, .any⟩]⟩,
  ⟨"TIME_TB_SHI", [(0x0A000028, [(8, 0x10000)])], [0x00000000],
    [⟨0, 32, .ro, false, .any⟩]⟩,
  ⟨"TIME_TB_PNS", [(0x0A000030, [(8, 0x10000)])], [0x00000000],
    [⟨0, 32, .ro, false, .any⟩]⟩,
  ⟨"TIME_TB_PSLO", [(0x0A000034, [(8, 0x10000)])], [0x00000000],
    [⟨0, 32, .ro, false, .any⟩]⟩,
  ⟨"TIME_TB_PSHI", [(0x0A000038, [(8, 0x10000)])], [0x00000000],
    [⟨0, 32, .ro, false, .any⟩]⟩,
  ⟨"TIME_PAIR_CFG", [(0x0A001000, [(4, 0x10)])], [0x0000003C],
    [⟨31, 1, .rw, true, .any⟩, ⟨30, 1, .rw, true, .any⟩, ⟨24, 3, .rw, true, .any⟩, ⟨16, 3, .rw, true, .any⟩, ⟨0, 16, .rw, true, .within 1 65535⟩]⟩,
  ⟨"TIME_PAIR_STATUS", [(0x0A001004, [(4, 0x10)])], [0x00000000],
    [⟨31, 1, .ro, false, .any⟩, ⟨30, 1, .ro, false, .any⟩, ⟨29, 1, .ro, false, .any⟩]⟩,
  ⟨"TIME_PAIR_D", [(0x0A001008, [(4, 0x10)])], [0x00000000],
    [⟨0, 32, .ro, false, .any⟩]⟩,
  ⟨"TIME_INST_CFG", [(0x0A100000, [(8, 0x40)])], [0x001C0000],
    [⟨31, 1, .rw, true, .any⟩, ⟨28, 3, .rw, true, .any⟩, ⟨25, 3, .rw, true, .any⟩, ⟨23, 2, .rw, true, .any⟩, ⟨18, 3, .rw, true, .any⟩, ⟨17, 1, .rw, true, .any⟩, ⟨12, 4, .rw, true, .any⟩, ⟨0, 8, .rw, true, .any⟩]⟩,
  ⟨"TIME_INST_DS", [(0x0A100004, [(8, 0x40)])], [0x8080F8FE],
    [⟨24, 8, .rw, true, .any⟩, ⟨16, 8, .rw, true, .any⟩, ⟨8, 8, .rw, true, .any⟩, ⟨0, 8, .rw, true, .any⟩]⟩,
  ⟨"TIME_INST_INTV", [(0x0A100008, [(8, 0x40)])], [0x00010003],
    [⟨24, 8, .rw, true, .any⟩, ⟨16, 8, .rw, true, .any⟩, ⟨8, 8, .rw, true, .any⟩, ⟨0, 8, .rw, true, .any⟩]⟩,
  ⟨"TIME_INST_STATUS", [(0x0A10000C, [(8, 0x40)])], [0x00000000],
    [⟨31, 1, .ro, false, .any⟩, ⟨30, 1, .ro, false, .any⟩, ⟨29, 1, .ro, false, .any⟩, ⟨16, 9, .ro, false, .any⟩, ⟨0, 16, .ro, false, .any⟩]⟩,
  ⟨"TIME_INST_PORTS", [(0x0A100010, [(8, 0x40), (9, 0x4)])], [0x00000000],
    [⟨0, 32, .rw, true, .any⟩]⟩,
  ⟨"TIME_PORT_TB", [(0x0A101000, [(259, 0x4)])], [0x00000000],
    [⟨0, 3, .rw, true, .any⟩]⟩,
  ⟨"TIO_CFG", [(0x0A200000, [(16, 0x40)])], [0x00000000],
    [⟨30, 2, .rw, true, .any⟩, ⟨29, 1, .rw, true, .any⟩, ⟨27, 2, .rw, true, .any⟩, ⟨24, 3, .rw, true, .any⟩]⟩,
  ⟨"TIO_START_NS", [(0x0A200004, [(16, 0x40)])], [0x00000000],
    [⟨0, 30, .rw, true, .within 0 999999999⟩]⟩,
  ⟨"TIO_START_SLO", [(0x0A200008, [(16, 0x40)])], [0x00000000],
    [⟨0, 32, .rw, true, .any⟩]⟩,
  ⟨"TIO_START_SHI", [(0x0A20000C, [(16, 0x40)])], [0x00000000],
    [⟨0, 16, .rw, true, .any⟩]⟩,
  ⟨"TIO_PERIOD", [(0x0A200010, [(16, 0x40)])], [0x3B9ACA00],
    [⟨0, 32, .rw, true, .any⟩]⟩,
  ⟨"TIO_WIDTH", [(0x0A200014, [(16, 0x40)])], [0x05F5E100],
    [⟨0, 32, .rw, true, .any⟩]⟩,
  ⟨"TIO_ADJ", [(0x0A200018, [(16, 0x40)])], [0x00000000],
    [⟨0, 16, .rw, true, .any⟩]⟩,
  ⟨"TIO_STATUS", [(0x0A20001C, [(16, 0x40)])], [0x00000000],
    [⟨31, 1, .w1c, true, .any⟩, ⟨30, 1, .w1c, true, .any⟩, ⟨29, 1, .ro, false, .any⟩, ⟨28, 1, .ro, false, .any⟩, ⟨0, 4, .ro, false, .any⟩]⟩,
  ⟨"TIO_CAP_NS", [(0x0A200020, [(16, 0x40)])], [0x00000000],
    [⟨0, 32, .ro, true, .any⟩]⟩,
  ⟨"TIO_CAP_SLO", [(0x0A200024, [(16, 0x40)])], [0x00000000],
    [⟨0, 32, .ro, true, .any⟩]⟩,
  ⟨"TIO_CAP_SHI", [(0x0A200028, [(16, 0x40)])], [0x00000000],
    [⟨0, 32, .ro, true, .any⟩]⟩,
  ⟨"TIME_PPS_CFG", [(0x0A200400, [])], [0x00000000],
    [⟨31, 1, .rw, true, .any⟩, ⟨30, 1, .rw, true, .any⟩, ⟨0, 16, .rw, true, .any⟩]⟩,
  ⟨"TIME_TCLK_CFG", [(0x0A200404, [])], [0x00000000],
    [⟨31, 1, .rw, true, .any⟩, ⟨24, 3, .rw, true, .any⟩]⟩]
/-- Registers of zone 0x0B. -/
def regZoneB : List RDecl := [
  ⟨"SUPV_CORE_STATUS", [(0x0B000000, [(2, 0x10000)])], [0x00000000],
    [⟨29, 3, .ro, false, .any⟩, ⟨28, 1, .ro, false, .any⟩, ⟨27, 1, .ro, false, .any⟩, ⟨24, 3, .ro, false, .any⟩, ⟨0, 8, .ro, false, .any⟩]⟩,
  ⟨"SUPV_HB", [(0x0B000004, [(2, 0x10000)])], [0x00000000],
    [⟨0, 32, .wo, true, .any⟩]⟩,
  ⟨"SUPV_PMC_CFG", [(0x0B000200, [(2, 0x10000), (8, 0x10)])], [0x00000000],
    [⟨31, 1, .rw, true, .any⟩, ⟨30, 1, .rw, true, .any⟩, ⟨29, 1, .w1c, true, .any⟩, ⟨0, 8, .rw, true, .any⟩]⟩,
  ⟨"SUPV_PMC_LO", [(0x0B000204, [(2, 0x10000), (8, 0x10)])], [0x00000000],
    [⟨0, 32, .cnt, false, .any⟩]⟩,
  ⟨"SUPV_PMC_HI", [(0x0B000208, [(2, 0x10000), (8, 0x10)])], [0x00000000],
    [⟨0, 16, .ro, false, .any⟩]⟩,
  ⟨"SUPV_PAIR_CTRL", [(0x0B000100, [])], [0x00000064],
    [⟨31, 1, .w1s, true, .any⟩, ⟨0, 14, .rw, true, .within 1 10000⟩]⟩,
  ⟨"SUPV_PAIR_STATUS", [(0x0B000104, [])], [0x00000000],
    [⟨31, 1, .ro, false, .any⟩, ⟨30, 1, .ro, false, .any⟩, ⟨29, 1, .ro, false, .any⟩]⟩,
  ⟨"SUPV_ALM", [(0x0B000108, [])], [0x00000000],
    [⟨24, 8, .w1c, true, .any⟩, ⟨16, 8, .w1c, true, .any⟩, ⟨8, 8, .w1c, true, .any⟩, ⟨0, 8, .ro, false, .any⟩]⟩,
  ⟨"SUPV_GPIO_OUT", [(0x0B000110, [])], [0x00000000],
    [⟨0, 32, .rw, true, .any⟩]⟩,
  ⟨"SUPV_GPIO_OE", [(0x0B000114, [])], [0x00000000],
    [⟨0, 32, .rw, true, .any⟩]⟩,
  ⟨"SUPV_AUDIT_POLICY", [(0x0B000120, [])], [0x15555555],
    [⟨0, 30, .rw, true, .any⟩]⟩,
  ⟨"SUPV_THERM_CFG", [(0x0B100000, [])], [0x00550569],
    [⟨16, 7, .rw, true, .within 60 105⟩, ⟨8, 5, .rw, true, .within 1 20⟩, ⟨0, 7, .rw, true, .within 60 115⟩]⟩,
  ⟨"SUPV_THERM_STATUS", [(0x0B100004, [])], [0x00000000],
    [⟨31, 1, .ro, false, .any⟩, ⟨30, 1, .ro, false, .any⟩, ⟨16, 5, .ro, false, .any⟩, ⟨0, 16, .ro, false, .any⟩]⟩,
  ⟨"SUPV_TEMP", [(0x0B100100, [(26, 0x4)])], [0x00000000],
    [⟨31, 1, .ro, false, .any⟩, ⟨30, 1, .ro, false, .any⟩, ⟨0, 16, .ro, false, .any⟩]⟩,
  ⟨"SUPV_VMON", [(0x0B100200, [(32, 0x8)])], [0x00000000],
    [⟨31, 1, .ro, false, .any⟩, ⟨0, 16, .ro, false, .any⟩]⟩,
  ⟨"SUPV_VMON_WIN", [(0x0B100204, [(32, 0x8)])], [0xFFFF0000],
    [⟨16, 16, .rw, true, .any⟩, ⟨0, 16, .rw, true, .any⟩]⟩,
  ⟨"SUPV_RAIL_I", [(0x0B100400, [(10, 0x4)])], [0x00000000],
    [⟨31, 1, .ro, false, .any⟩, ⟨0, 16, .ro, false, .any⟩]⟩,
  ⟨"SUPV_SHUTDOWN", [(0x0B100800, [])], [0x00000000],
    [⟨31, 1, .w1c, true, .any⟩, ⟨16, 5, .ro, false, .any⟩, ⟨0, 16, .ro, false, .any⟩]⟩,
  ⟨"SUPV_LOG_CFG", [(0x0B200000, [])], [0x00000004],
    [⟨31, 1, .w1s, true, .any⟩, ⟨0, 3, .rw, true, .any⟩]⟩,
  ⟨"SUPV_LOG_STATUS", [(0x0B200004, [])], [0x00000000],
    [⟨0, 32, .ro, false, .any⟩]⟩,
  ⟨"SUPV_LOG_PUT", [(0x0B200100, [(2, 0x40), (16, 0x4)])], [0x00000000],
    [⟨0, 32, .wo, true, .any⟩]⟩]
/-- Registers of zone 0x0C. -/
def regZoneC : List RDecl := [
  ⟨"HOST_INT_STATUS", [(0x0C000000, [])], [0x00000000],
    [⟨24, 8, .ro, false, .any⟩, ⟨16, 8, .ro, false, .any⟩, ⟨0, 7, .w1c, false, .any⟩]⟩,
  ⟨"HOST_INT_EN", [(0x0C000004, [])], [0x00000000],
    [⟨8, 8, .wo, false, .any⟩, ⟨0, 8, .wo, false, .any⟩]⟩,
  ⟨"HOST_PEER_ALIVE", [(0x0C000010, [])], [0x00000000],
    [⟨4, 1, .ro, false, .any⟩, ⟨3, 1, .ro, false, .any⟩, ⟨2, 1, .ro, false, .any⟩, ⟨1, 1, .ro, false, .any⟩, ⟨0, 1, .ro, false, .any⟩]⟩,
  ⟨"HOST_WIN_POS", [(0x0C000020, [])], [0x00000000],
    [⟨0, 8, .ro, false, .any⟩]⟩,
  ⟨"HOST_DBG_CTRL", [(0x0C000100, [])], [0x00000000],
    [⟨31, 1, .ro, false, .any⟩, ⟨1, 1, .w1s, false, .any⟩, ⟨0, 1, .w1s, false, .any⟩]⟩,
  ⟨"HOST_DBG_CHAL", [(0x0C000120, [(8, 0x4)])], [0x00000000],
    [⟨0, 32, .ro, false, .any⟩]⟩,
  ⟨"HOST_DBG_RESP", [(0x0C000140, [(16, 0x4)])], [0x00000000],
    [⟨0, 32, .wo, false, .any⟩]⟩,
  ⟨"HOST_MB_CTRL", [(0x0C100000, [(16, 0x10)])], [0x00000000],
    [⟨31, 1, .ro, false, .any⟩, ⟨30, 1, .w1s, false, .any⟩, ⟨29, 1, .w1s, false, .any⟩, ⟨0, 16, .ro, false, .any⟩]⟩,
  ⟨"HOST_MB_SUBMIT", [(0x0C100004, [(4, 0x10)])], [0x00000000],
    [⟨31, 1, .ro, false, .any⟩, ⟨0, 16, .ro, false, .any⟩]⟩,
  ⟨"HOST_MB_BUF", [(0x0C108000, [(16, 0x100), (64, 0x4)])], [0x00000000],
    [⟨0, 32, .rw, false, .any⟩]⟩,
  ⟨"HOST_BEC_CFG", [(0x0C200000, [(16, 0x20)])], [0x00000000],
    [⟨31, 1, .rw, true, .any⟩, ⟨10, 5, .rw, true, .any⟩, ⟨8, 2, .rw, true, .any⟩, ⟨0, 5, .rw, true, .any⟩]⟩,
  ⟨"HOST_BEC_BASE", [(0x0C200004, [(16, 0x20)])], [0x00000000],
    [⟨0, 32, .rw, true, .any⟩]⟩,
  ⟨"HOST_BEC_LIMIT", [(0x0C200008, [(16, 0x20)])], [0x0FFFFFFC],
    [⟨0, 32, .rw, true, .any⟩]⟩,
  ⟨"HOST_BEC_LO", [(0x0C20000C, [(16, 0x20)])], [0x00000000],
    [⟨0, 32, .ro, false, .any⟩]⟩,
  ⟨"HOST_BEC_HI", [(0x0C200010, [(16, 0x20)])], [0x00000000],
    [⟨31, 1, .ro, false, .any⟩, ⟨0, 16, .ro, false, .any⟩]⟩,
  ⟨"HOST_BEC_CMD", [(0x0C200014, [(16, 0x20)])], [0x00000000],
    [⟨1, 1, .w1s, true, .any⟩, ⟨0, 1, .w1s, true, .any⟩]⟩]
/-- Registers of zone 0x0D. -/
def regZoneD : List RDecl := [
  ⟨"REAM_WIN_SEL", [(0x0D100000, [(8, 0x10)])], [0x00000000],
    [⟨0, 32, .wo, false, .any⟩]⟩,
  ⟨"REAM_WIN_CMD", [(0x0D10000C, [(8, 0x10)])], [0x00000000],
    [⟨1, 1, .w1s, true, .any⟩, ⟨0, 1, .w1s, true, .any⟩]⟩,
  ⟨"REAM_WIN_LO", [(0x0D100004, [(8, 0x10)])], [0x00000000],
    [⟨0, 32, .ro, false, .any⟩]⟩,
  ⟨"REAM_WIN_HI", [(0x0D100008, [(8, 0x10)])], [0x00000000],
    [⟨0, 32, .ro, false, .any⟩]⟩,
  ⟨"REAM_WIN_FLAG", [(0x0D100080, [(8, 0x4)])], [0x00000000],
    [⟨31, 1, .ro, false, .any⟩, ⟨30, 1, .ro, false, .any⟩]⟩,
  ⟨"REAM_SNAP_STATUS", [(0x0D200000, [])], [0x00000000],
    [⟨31, 1, .ro, false, .any⟩, ⟨0, 24, .ro, false, .any⟩]⟩]
/-- Registers of zone 0x0E. -/
def regZoneE : List RDecl := [
  ⟨"PWCK_RAIL_BUDGET", [(0x0E000000, [(10, 0x10)])], [0x00280258, 40, 128, 64, 24, 24, 2, 2, 2, 1],
    [⟨16, 10, .rw, true, .any⟩, ⟨0, 10, .rw, true, .any⟩]⟩,
  ⟨"PWCK_RAIL_STATUS", [(0x0E000004, [(10, 0x10)])], [0x00000000],
    [⟨31, 1, .ro, false, .any⟩, ⟨26, 5, .ro, false, .any⟩, ⟨16, 10, .ro, false, .any⟩, ⟨0, 10, .ro, false, .any⟩]⟩,
  ⟨"PWCK_MOD_BUDGET", [(0x0E000100, [])], [0x00000000],
    [⟨16, 12, .ro, false, .any⟩, ⟨0, 12, .rw, true, .any⟩]⟩,
  ⟨"PWCK_AVS", [(0x0E000200, [])], [0x00000000],
    [⟨31, 1, .ro, false, .any⟩, ⟨30, 1, .w1c, true, .any⟩, ⟨16, 10, .ro, false, .any⟩, ⟨0, 10, .ro, false, .any⟩]⟩,
  ⟨"PWCK_CLK_STATUS", [(0x0E100000, [])], [0x00000000],
    [⟨31, 1, .ro, false, .any⟩, ⟨30, 1, .ro, false, .any⟩, ⟨16, 8, .ro, false, .any⟩]⟩,
  ⟨"PWCK_DOM_STATUS", [(0x0E200000, [(96, 0x4)])], [0x00000000],
    [⟨30, 2, .ro, false, .any⟩, ⟨28, 2, .ro, false, .any⟩, ⟨27, 1, .ro, false, .any⟩, ⟨0, 10, .ro, false, .any⟩]⟩]
/-- The registers the spec gives the device, by zone (R25): bits 31 to 24 of their addresses. -/
def regTable (zone : Nat) : List RDecl :=
  match zone with
  | 0x00 => regZone0
  | 0x01 => regZone1
  | 0x02 => regZone2
  | 0x03 => regZone3
  | 0x04 => regZone4
  | 0x05 => regZone5
  | 0x06 => regZone6
  | 0x07 => regZone7
  | 0x08 => regZone8
  | 0x09 => regZone9
  | 0x0A => regZoneA
  | 0x0B => regZoneB
  | 0x0C => regZoneC
  | 0x0D => regZoneD
  | 0x0E => regZoneE
  | _ => []

end Sys2Proof.Machine
end

