-- ==== Sys2Proof/Config.lean ====
section
/-! DEFINITION. What the spec leaves open: free values, which no proof can see, and the constants an implementation fixes. -/

namespace Sys2Proof.Config

/-- The free values, numbered by a counter the state holds (log entry 4): challenges and nonces (R362, R373), contents of
memories the spec gives no value, and every result the spec leaves unstated. -/
opaque freeValue : Nat → Nat

/-- The class a port gives an untagged frame (R135, R140): the spec names a port default and no register that holds it. -/
opaque portClass : Nat → Nat

/-- The owner public key whose hash is fused, as a debug unlock in recovery uses it (R362): the device holds only the hash. -/
opaque keyOfHash : List Byte → List Byte

/-- The version number of the Chewipor firmware, as GET_INFO reports it (R371): true of the copy in the boot ROM (recovery) or of
the loaded image. -/
opaque chewipor : Bool → Nat

/-- Daxnov's public key, under which the firmware section is signed (R49): the device holds it and the spec does not print it. -/
opaque daxnovKey : List Byte

end Sys2Proof.Config
end

