-- ==== Sys2Proof/Machine/State.lean ====
section
/-! DEFINITION. The state of the block as plain data, the reasons a step can stop, and the state after reset. Registers have
their home in the register file `Dev.regs`; the structures here hold the state the spec gives the device beside its
registers, chapter by chapter. -/

namespace Sys2Proof.Machine

/-! ### What stands for the outside -/

/-- What left the device, oldest first: the model's own record of its outputs (log entry 3). It is no register and no rule
reads it back. -/
inductive Out where
  /-- A frame, or a fragment of a preempted frame, left the MAC of a port; `good` is false for a stomped FCS (R79). -/
  | frame (port : Nat) (bytes : List Byte) (good : Bool)
  /-- A pause frame (Annex 31B) or a PFC frame left a port: the classes named and the quanta of each (R83). -/
  | pause (port : Nat) (pfc : Bool) (quanta : List (Nat × Nat))
  /-- A verify or respond mPacket left a port (R86). -/
  | mpacket (port : Nat) (respond : Bool)
  /-- A register bus or BAR2 read completed towards a master with this value. -/
  | completion (master : Nat) (addr : Nat) (value : Nat)
  /-- A read completed with Completer Abort (R366), or a bus error was answered (R365). -/
  | busError (master : Nat) (addr : Nat)
  /-- An MSI-X vector was signalled (R359). -/
  | msix (vector : Nat)
  /-- A memory write of the DMA engine to host memory (R376). -/
  | dmaWrite (addr : Nat) (bytes : List Byte)
  /-- A module bus multiplexer's channel register was written (R94). -/
  | mux (bus value : Nat)
  /-- A module was put into its high-power (true) or low-power mode under the specification named as in SPEC (R100, R103). -/
  | modulePower (cage spec : Nat) (high : Bool)
  /-- A CMIS module's data paths were initialised for an application, after deinitialisation where `again` (R98, R102). -/
  | moduleApp (cage mode fec : Nat) (again : Bool)
  /-- A level driven on a named output pin. -/
  | pin (name : String) (index : Nat) (level : Bool)
  /-- A PMBus command to a regulator (R402): rail and value. -/
  | pmbus (rail : Nat) (value : Nat)
  deriving DecidableEq, Repr

/-- Reset and clock conditions of the part (R43, R344, R399). -/
structure HoldSt where
  por : Bool
  pwrGood : Bool
  shutdown : Bool
  clocks : Bool
  deriving DecidableEq, Repr


/-! ### Log (R346 to R350) -/

/-- A record as a source submits it to the log writer: the fields of R346 that the source supplies. DATA shorter than
36 bytes is filled with zeros at acceptance (R347). -/
structure LogRec where
  typ : Nat
  sev : Nat
  origin : Nat
  unit : Nat
  summary : Bool
  data : List Byte
  deriving DecidableEq, Repr

/-- A record as the log writer wrote it to the rings (R346). -/
structure LogEnt where
  seq : Nat
  boot : Nat
  body : LogRec
  sec : Nat
  ns : Nat
  sync : Bool
  crc : Nat
  deriving DecidableEq, Repr

/-- One sector of a log region in use (R350): sector number, sector sequence, the 0xB0F0 header and the records after it,
oldest first. -/
structure LogSector where
  sector : Nat
  order : Nat
  recs : List LogEnt
  deriving DecidableEq, Repr

/-! ### Time bases and time protocol engine (chapter 13) -/

/-- One time base. `own` is the own time in units of 2^-32 ns, modulo 2^48 s (R307). `integ` is the servo's integral term I,
`good` the consecutive good samples in ACQUIRING, `bad` the consecutive samples over STEP_US in LOCKED (R313, R314).
`lockedAt`, `holdAt` and `lastSample` are the ns counts at which LOCKED and HOLDOVER were entered and a sample came.
STATE, FREQ, AVG and the flags have their home in TIME_TB_STATUS, TIME_TB_FREQ and TIME_TB_AVG. -/
structure TbSt where
  own : Nat
  integ : Int
  good : Nat
  bad : Nat
  lockedAt : Nat
  holdAt : Nat
  lastSample : Nat
  deriving DecidableEq, Repr

/-- One pair: D in units of 2^-32 ns (R318) and the time of its last slew. The source has its home in TIME_PAIR_STATUS. -/
structure PairSt where
  dRem : Int
  slewAt : Nat
  deriving DecidableEq, Repr

/-- An entry of a port's egress timestamp queue (R324). `ing` is the own time captured at ingress of a forwarded event message
(R312), from which the engine takes the residence time. -/
structure TsEntry where
  port : Nat
  seqId : Nat
  msgType : Nat
  inst : Nat
  src : Nat
  time : Nat
  ing : Nat
  deriving DecidableEq, Repr

/-- A message waiting in the time protocol engine's receive buffer (R325), until the engine has dealt with it at `done`. -/
structure PtpMsg where
  inst : Nat
  port : Nat
  msgType : Nat
  seqId : Nat
  src : Nat
  done : Nat
  deriving DecidableEq, Repr

/-- A general message that a TC2 instance holds (R322): the frame and the offset of its PTP header, the ports already served or
given up, and when it was taken. -/
structure Tc2Held where
  inst : Nat
  msgType : Nat
  seqId : Nat
  src : Nat
  bytes : List Byte
  off : Nat
  served : List Nat
  since : Nat
  deriving DecidableEq, Repr

/-- The time part of the state. `startMark` is START_MARK of each base in ns (R218) and `startSet` marks those set by a first
synchronisation. -/
structure TimeSt where
  tb : List TbSt
  pair : List PairSt
  tsq : Tab (List TsEntry)
  ptpBuf : List PtpMsg
  tc2 : List Tc2Held
  tioActive : Tab Nat
  tioDone : Tab Nat
  tioFifo : Tab (List (Nat × Nat))
  ppsLast : Option Nat
  tclkAbsent : Bool
  startMark : Tab Nat
  startSet : Tab Nat
  deriving DecidableEq, Repr

/-! ### Supervisors, sensors and log (chapter 14) -/

/-- The management state a checkpoint carries (R333), as far as the spec names it: the log position persisted per NVM, the
firmware audit position, and the open Flollina exchanges as (channel, TAG). -/
structure Mgmt where
  persist : List Nat
  auditPos : Nat
  opens : List (Nat × Nat)
  deriving DecidableEq, Repr

/-- One checkpoint slot (R333). -/
structure Ckpt where
  slot : Nat
  seq : Nat
  at_ : Nat
  mgmt : Mgmt
  deriving DecidableEq, Repr

/-- A takeover in progress (R334): the supervisor taking over, the cause, and when step 2 fell. -/
structure Takeover where
  sup : Nat
  cause : Nat
  since : Nat
  deriving DecidableEq, Repr

/-- The supervisor, sensor and log part of the state. Roles and status bits have their home in the SUPV registers. -/
structure SupvSt where
  lastHb : Tab Nat
  fails : List (Nat × Nat)
  mgmt : Mgmt
  ckpts : List Ckpt
  ckptSeq : Nat
  loaded : Option Ckpt
  takeover : Option Takeover
  over120 : Tab Nat
  vOut : Tab Nat
  vIn : Tab Nat
  railAt : Tab Nat
  pmc : Tab Nat
  logQ : List LogRec
  flight : List LogEnt
  hbmRing : List LogEnt
  lostRecs : Nat
  lastSummary : Option Nat
  refRegs : Tab Word
  refTabs : Tab Word
  deriving DecidableEq, Repr

/-! ### Host interface (chapter 15) -/

/-- A nonce issued on a channel and when (R373). -/
structure Nonce where
  bytes : List Byte
  at_ : Nat
  deriving DecidableEq, Repr

/-- A request taken on a channel and not yet answered (R372): CODE and TAG. -/
structure OpenReq where
  code : Nat
  tag : Nat
  deriving DecidableEq, Repr

/-- A Flollina channel (R370): the version chosen (0 before HELLO), the open exchange, the nonce, a reply that waits for its
mailbox, and for an MG channel the message received so far (R369): its port, the last SEG and its header, the payload joined,
whether it is complete, and the reply last sent. -/
structure Chan where
  ver : Nat
  opened : Option OpenReq
  nonce : Option Nonce
  outbox : List Byte
  port : Nat
  seg : Option Nat
  head : List Byte
  body : List Byte
  ready : Bool
  reply : List (List Byte)
  deriving DecidableEq, Repr

/-- A DMA or window delivery in progress (R376): the channel to answer, the CODE and TAG, the destination KIND and address
and the bytes still to be delivered. -/
structure DmaJob where
  chan : Nat
  code : Nat
  tag : Nat
  kind : Nat
  length : Nat
  addr : Nat
  bytes : List Byte
  deriving DecidableEq, Repr

/-- A snapshot requested and not yet captured (R380). -/
structure SnapReq where
  chan : Nat
  tag : Nat
  kind : Nat
  length : Nat
  addr : Nat
  items : List (Nat × Nat × Nat)
  deriving DecidableEq, Repr

/-- The host part of the state. Mailbox buffers, FULL and SEQ have their home in the HOST registers. `snapChan` is the channel
whose output the snapshot area holds. -/
structure HostSt where
  stage : Tab Byte
  chans : Tab Chan
  jobs : List DmaJob
  snapReq : Option SnapReq
  snapArea : List Byte
  snapChan : Nat
  snapId : Nat
  bec : Tab Nat
  dbgChal : Bool
  dbgBlock : Option Nat
  pcieLink : Bool
  busMaster : Bool
  dir : List (Nat × Nat)
  deriving DecidableEq, Repr

/-! ### Conservation audit (chapter 16) -/

/-- One term pair latched by a check (R383, R385): CHECK, WHERE, expected side, found side. -/
structure AuditTerm where
  check : Nat
  loc : Nat
  expected : Nat
  found : Nat
  deriving DecidableEq, Repr

/-- A location with a discrepancy (R385): the difference last reported and when. -/
structure AuditOpen where
  check : Nat
  loc : Nat
  diff : Int
  loggedAt : Nat
  deriving DecidableEq, Repr

/-- The audit part of the state. Lost elements have their home in DEV_AUDIT_LOST. -/
structure AuditSt where
  terms : List AuditTerm
  checkAt : Nat
  comparing : Bool
  opens : List AuditOpen
  deriving DecidableEq, Repr

/-! ### Configuration memory, boot and amendments (chapter 02) -/

/-- The OTP fuses (R41, R42) and the fused grade and AVS setpoint (R4, R402). -/
structure Fuses where
  ownerHash : List Byte
  realm : Nat
  devnum : Nat
  kek : List Byte
  epoch : Nat
  baseMac : Nat
  grade : Nat
  setpointMv : Nat
  deriving DecidableEq, Repr

/-- One journal entry (R60): the three markers as programmed and the amendment record verbatim. -/
structure JEntry where
  seq : Nat
  written : Nat
  committed : Nat
  abandoned : Nat
  bytes : List Byte
  deriving DecidableEq, Repr

/-- One NOR flash (R37 to R39): whether a device is attached and answers SFDP, its capacity in MiB, the protocols it
advertises, whether writes to it succeed, whether discovery accepted it, and its three regions. -/
structure Nvm where
  attached : Bool
  capacity : Nat
  quad : Bool
  octal : Bool
  writable : Bool
  ok : Bool
  image : List Byte
  journal : List JEntry
  log : List LogSector
  deriving DecidableEq, Repr

/-- One entry of a section table (R49). -/
structure Section where
  typ : Nat
  minStep : Nat
  res1 : Nat
  offset : Nat
  length : Nat
  res2 : Nat
  hash : List Byte
  deriving DecidableEq, Repr

/-- The image header (R48). -/
structure ImgHeader where
  magic : Nat
  format : Nat
  hdrLen : Nat
  version : Nat
  epoch : Nat
  sectCount : Nat
  realm : Nat
  devFirst : Nat
  devLast : Nat
  imageLen : Nat
  tableOff : Nat
  sigOff : Nat
  flags : Nat
  seqBase : Nat
  ownerKey : List Byte
  buildId : List Byte
  reserved : List Byte
  deriving DecidableEq, Repr

/-- A candidate image being applied (steps 4 to 6 of R44), and the image that loaded: its NVM, header and sections, the section
being streamed and how many of its bytes have been applied, and the hash of the firmware section once it is loaded (R338). -/
structure Load where
  nv : Nat
  hdr : ImgHeader
  sects : List Section
  cur : Nat
  pos : Nat
  fwHash : List Byte
  deriving DecidableEq, Repr

/-- Where an amendment stands between its acceptance and its commit. -/
inductive AmdPhase where
  /-- Accepted and being programmed into the journals (R59). -/
  | journaling
  /-- WRITTEN, waiting to be staged (R61, R62). -/
  | waiting
  /-- In the shadow (R62). -/
  | staged
  deriving DecidableEq, Repr

/-- An amendment that is not committed yet: its record, the channel and TAG to answer, and where it stands. -/
structure Amd where
  seq : Nat
  bytes : List Byte
  chan : Nat
  tag : Nat
  phase : AmdPhase
  deriving DecidableEq, Repr

/-- A commit armed in hardware (R63): the base, the activation instant in ns of presentation time, the instant at which the
commit now falls, and whether it is late (R64). -/
structure Armed where
  tb : Nat
  act : Nat
  due : Nat
  late : Bool
  deriving DecidableEq, Repr

/-- An image store in progress (R68): the image, the NVMs still to be programmed, and the requester. -/
structure ImgStore where
  bytes : List Byte
  todo : List Nat
  chan : Nat
  tag : Nat
  deriving DecidableEq, Repr

/-- The boot and amendment part of the state. `t0` is time zero (R44), `bootCount` and `tb0Sec` stand on VDD_AON. `tried` are the
NVMs whose image has been tried, `bootOnB` says that SUP-B runs the boot (R46), `latched` the seed registers latched (R52),
`storePipes` the pipelines for which the image held a store record (R113), `delegates` the delegated amendment keys (R53),
`replay` the sequences still to be replayed (none before it begins), `shadow` the staged register, indexed table, key and store
records (R62), `cleanup` the sequences committed and not yet cleaned up (R63). -/
structure BootSt where
  fuses : Fuses
  nvm : List Nvm
  t0 : Nat
  bootCount : Nat
  tb0Sec : Nat
  tried : List Nat
  cand : Option Load
  loaded : Option Load
  released : Bool
  recovery : Bool
  bootOnB : Bool
  hbmDone : List Nat
  latched : List Nat
  storePipes : List Nat
  delegates : Tab (List Byte)
  replay : Option (List Nat)
  amds : List Amd
  armed : Option Armed
  shadow : List CfgRec
  cleanup : List Nat
  amdSeq : Nat
  imgStore : Option ImgStore
  restartAt : Option Nat
  deriving DecidableEq, Repr


/-! ### Power steward and clocks (chapter 17) -/

/-- A token request waiting at the power steward (R406): the power domain (R29) or spill burst 96 + p, the level, and the
tokens per rail as (rail, tokens), with the rails already counted short for it (pwr_waits). -/
structure TokReq where
  holder : Nat
  level : Nat
  tokens : List (Nat × Nat)
  short : List Nat
  deriving DecidableEq, Repr

/-- Tokens held (R403 to R407): when the ramp slot begins and ends (none once it has ended), and the end of the fall when the
holder is releasing. -/
structure TokHold where
  holder : Nat
  level : Nat
  tokens : List (Nat × Nat)
  rampAt : Nat
  rampEnd : Option Nat
  fallEnd : Option Nat
  deriving DecidableEq, Repr

/-- The power part of the state: waiting requests in order of arrival, grants, and when each rail's ramp slot becomes free.
Domain states and rail totals have their home in the PWCK registers. -/
structure PowerSt where
  waiting : List TokReq
  holds : List TokHold
  slotFree : Tab Nat
  goodAt : Tab Nat
  pmbFails : Tab Nat
  deriving DecidableEq, Repr


/-! ### Ports (chapter 03) -/

/-- What a port holds beside its registers: the end of Hold, a link up declared during a flush (R90), the fragment
count the next continuation of the frame open in reassembly must carry (R87), and verification (R86): attempts made and when the last began. -/
structure PortSt where
  holdEnd : Option Nat
  upPending : Bool
  reasm : Option Nat
  verTries : Nat
  verAt : Nat
  deriving DecidableEq, Repr

/-- Pause of one (port, class): the end of the received pause and since when it has held the class without release (R82,
R85), the end of a watchdog hold, and when XOFF was last sent (R83). -/
structure PauseSt where
  rxEnd : Option Nat
  since : Nat
  wdEnd : Nat
  xoffAt : Nat
  deriving DecidableEq, Repr

/-- The port part of the state, sparse over ports and (port, class) pairs 8 n + c. -/
structure PortsSt where
  port : Tab PortSt
  pause : Tab PauseSt
  deriving DecidableEq, Repr


/-! ### Pluggable modules (chapter 04) -/

/-- A cage beside its registers: when its sequence began or restarted, when its present step did, the next poll, the first
ACK, what was read of the module, the chosen application as (MODE, FEC) and whether none was eligible, the power asked for in
0.25 W, the instants of its faults, flags read but not yet dealt with as (page, offset, byte, fault), and its last telemetry
pass (R97 to R104). -/
structure CageSt where
  startAt : Nat
  stepAt : Nat
  pollAt : Nat
  ackAt : Option Nat
  ident : Option ModId
  app : Option (Nat × Nat)
  noApp : Bool
  want : Nat
  faults : List Nat
  flags : List (Nat × Nat × Nat × Bool)
  telAt : Nat
  deriving DecidableEq, Repr

/-- A module bus: the value last written to its multiplexer, the transaction waiting for a retry as (cage, retries made, last
failure), and the cage whose turn is next in each level of priority (R94, R96, R97). -/
structure MBus where
  mux : Option Nat
  retry : Option (Nat × Nat × Nat)
  turn : List Nat
  deriving DecidableEq, Repr

/-- The module part of the state: cages, buses, and the modes and FECs that applications gave to groups and ports, as
4 MODE + FEC + 1 by group (R102). -/
structure ModSt where
  cage : Tab CageSt
  bus : Tab MBus
  appOf : Tab Nat
  deriving DecidableEq, Repr


/-! ### Frames and copies: one frame's journey (R30) -/

/-- Where a frame stands between reception and step 11. -/
inductive Stage where
  /-- Arriving, not yet ready for parse (R107). -/
  | receiving
  /-- In the parse intake (R107). -/
  | intake
  /-- On engine `e` of its pipeline (R110). -/
  | engine (e : Nat)
  /-- Parked (R111). -/
  | parked
  /-- Its vector is complete and waits for earlier ones of its MAC (R110). -/
  | vector
  /-- Next: stream identification, step 5 (R172). -/
  | identify
  /-- Next, or waiting for frame end at, step 6 (R174, R176). -/
  | filter
  /-- Next: the port policer, step 7 (R182). -/
  | police
  /-- Next: address lookup, step 8 (R147). -/
  | lookup
  /-- Next: the command decision, step 9 (R209). -/
  | command
  /-- Staged in the Deckle, waiting for an engine (R226). -/
  | staged
  /-- On engine `e` of a kind (true Ed25519) of the Deckle (R228). -/
  | verifying (ed : Bool) (e : Nat)
  /-- Verified, waiting for earlier frames of its seal context (R221). -/
  | verified
  /-- Next: admission, step 10 (R251). -/
  | admission
  /-- Linked into VOQs, step 11 (R238). -/
  | linked
  /-- Dropped or consumed while its reception goes on. -/
  | gone
  deriving DecidableEq, Repr

/-- The parse context of a frame (R111, R121): word address, micro-stack, GR0 to GR7, cursor, flags, the customer half and
HOOK_EN latched at engine start (R112, R114), the header vector, cycles spent (R132), side lookups issued, the key and profile
of the outstanding one and the outcome of the last (R128), whether the next word is the first after start or restart (R130), whether the frame
was restarted (R136), a hand-off wait in progress and its start, and a pending stop request. -/
structure Parse where
  addr : Nat
  stack : List Nat
  gr : List Nat
  cur : Nat
  z : Bool
  n : Bool
  c : Bool
  w : Bool
  half : Nat
  hook : Nat
  hv : List Nat
  cycles : Nat
  lookups : Nat
  pend : Option (Nat × Nat)
  present : Bool
  hit : Bool
  first : Bool
  restarted : Bool
  waitAt : Option Nat
  waited : Bool
  stop : Bool
  deriving DecidableEq, Repr

/-- A request to the node table writer (R194): the pair, the source, the port it was seen on, its sequence, and whether it is
a proxy. -/
structure NodeReq where
  pair : Nat
  mac : Nat
  port : Nat
  seq : Nat
  proxy : Bool
  deriving DecidableEq, Repr

/-- A frame: its reception, its parse, and the results that travel with it (R31). `ts` is the ingress timestamp in units of
2^-32 ns on base `tsTb`; `own` the own times captured for a PTP event message (R312); `err` the drop reason of an error the
MAC found (0 none); `ready` its place in order of readiness; `order9` its place at step 9; `endNo` its place in
order of frame end; `set` the forwarding set as a bit
mask; `mirrors` the sessions that select it; `pairSeq` the sequence given per redundancy pair (R191); `ctx` and `ring` the node
contexts with their generations (R192); `learn` the learn event held until frame end (R150); `cells` its chain in the bank;
`pend` whether the chain is still pending (R237); `kept` the copies admission kept (R243); `blocks` its staging blocks (R227); `full` whether an allocation found the
bank empty after step 11 (R252); `refilled` whether its cells are refilled ones (R246); `whole` whether it waits for, or has
waited for, frame end at step 6 (R174); `inst` the time protocol instance that sent it. -/
structure Frame where
  id : Nat
  port : Nat
  mac : Nat
  bytes : List Byte
  ended : Bool
  err : Nat
  ts : Nat
  tsTb : Nat
  own : List Nat
  stage : Stage
  ready : Nat
  px : Parse
  handoff : Bool
  handle : Option Nat
  cls : Nat
  de : Bool
  whole : Bool
  vid : Nat
  set : Nat
  mirrors : List Nat
  seqSrc : Nat
  seq : Nat
  pairSeq : List (Nat × Nat)
  ctx : Option (Nat × Nat)
  ring : Option (Nat × Nat)
  learn : Option (Nat × Nat)
  node : Option NodeReq
  cmd : Bool
  ver : Bool
  slot : Nat
  gen : Nat
  sealQ : Nat
  sealCtx : Nat
  order9 : Nat
  endNo : Nat
  blocks : List Nat
  cells : List Nat
  pend : Bool
  kept : Nat
  full : Bool
  refilled : Bool
  inst : Option Nat
  deriving DecidableEq, Repr

/-- Whether a VOQ entry is in cells or in a spill Vat (R243 to R246). -/
inductive Spill where
  | resident
  | queued
  | writing
  | spilled
  | refilling
  deriving DecidableEq, Repr

/-- A copy of a frame, from step 11 until it has been transmitted or dropped. `src` is its source list's ingress group, 64 for
the management attachment; `dst` the egress port. The descriptor's per-copy fields (R262) are `ct`, `kind`, `ctx`, `ctxGen`
and `session`. `want` is an open credit request, `held` the credits of cells not yet sent, `sent` the cells the Headbox has
sent, `out` whether its last cell has left its source list, `arrived` the cells released in staging, `staged` the cells it holds in staging, `last` whether its last cell has
arrived, `lost` whether it lost a cell, `queued` whether it stands in its class queue, `txAt` when its transmission began,
`wire` the bytes as edited, `cutAt` the bytes sent before a preemption, `endErr` the drop reason its last cell carried (R79). `startNo`, `reqNo` and `qNo` are
its places in order of its first cell sent, its credit request and its class queue. -/
structure Copy where
  id : Nat
  frame : Nat
  inPort : Nat
  src : Nat
  dst : Nat
  cls : Nat
  ct : Bool
  kind : Nat
  ctx : Nat
  ctxGen : Nat
  session : Nat
  seqSrc : Nat
  seq : Nat
  spill : Spill
  block : Option (Nat × Nat × Nat)
  want : Option Nat
  held : Nat
  granted : Bool
  sent : Nat
  out : Bool
  read : Bool
  arrived : Nat
  staged : Nat
  last : Bool
  lost : Bool
  queued : Bool
  txAt : Option Nat
  wire : List Byte
  cutAt : Nat
  preempted : Bool
  endErr : Nat
  startNo : Nat
  reqNo : Nat
  qNo : Nat
  deriving DecidableEq, Repr

/-- The frames and copies in the device, oldest first, and the numbers the next ones take. -/
structure PathSt where
  frames : List Frame
  copies : List Copy
  nextFrame : Nat
  nextCopy : Nat
  nextReady : Nat
  nextStep9 : Nat
  nextEnd : Nat
  nextQ : Nat
  deriving DecidableEq, Repr

/-! ### Beater (chapter 05) -/

/-- The Beater of all pipelines. `store` holds the words as written, keyed (2 p + half) 2^14 + word; `bad` the bits in which a
copy's word differs from it, keyed ((16 p + k) 2 + half) 2^14 + word; `home` the copy that serves an engine where it is not
the engine's own (key 128 p + e, value k + 1); `outAt` when a copy left service and `backAt` when it returned, plus one ns, keyed 16 p + k;
`heldOut` the copies that stay out until restart (R137); `sideBad` the side table entries whose parity fails (R129), keyed
4,096 p + index. -/
structure BeaterSt where
  store : Tab Nat
  bad : Tab Nat
  half : Tab Nat
  home : Tab Nat
  outAt : Tab Nat
  backAt : Tab Nat
  heldOut : List Nat
  sideBad : Tab Nat
  deriving DecidableEq, Repr


/-! ### Address tables and learning (chapter 06) -/

/-- One slot of an address table (R144). Bit k of `bad` says that the parity of word k fails. -/
structure AEnt where
  valid : Bool
  mac : Nat
  fid : Nat
  typ : Nat
  new : Bool
  old : Bool
  pinned : Bool
  age : Nat
  moves : Nat
  rk : Nat
  res : Nat
  bad : Nat
  deriving DecidableEq, Repr

/-- A learn event (R150). -/
structure LearnEv where
  fid : Nat
  mac : Nat
  port : Nat
  deriving DecidableEq, Repr

/-- A leaky or token bucket: what has been taken from it, in its own units, and when it was last brought up to date. -/
structure Bucket where
  used : Int
  at_ : Nat
  deriving DecidableEq, Repr

/-- The lookup part of the state. `slots` is keyed 2^21 p + slot; `ring` holds events with their source pipeline; `removing`
is the mask of ports under removal per pipeline and `passing` of those the running pass serves (R159); `failed` the slots
whose parity failed, with when (R162); `refStatic` the reference of R66 for static entries, keyed 2^48 FID + MAC, and `refNext`
what the staged amendments make of it; `aged` the last aging tick per (pipeline, FID) and `moved` the last move window end. -/
structure LookupSt where
  slots : Tab AEnt
  victim : Tab Nat
  learnQ : Tab (List LearnEv)
  ring : List (Nat × LearnEv)
  rate : Tab Bucket
  removing : Tab Nat
  passing : Tab Nat
  failed : List (Nat × Nat)
  refStatic : Tab Nat
  refNext : List (Nat × Nat)
  aged : Tab Nat
  moved : Tab Nat
  deriving DecidableEq, Repr


/-! ### Streams, filters and policers (chapter 07) -/

/-- A slot of a keyed table that only records write: the entry's bytes (none when free) and the marks of staging (R62). -/
structure KEnt where
  bytes : List Byte
  new : Bool
  old : Bool
  deriving DecidableEq, Repr

/-- A gate schedule: base and cycle in ns, the list, the time base, and the instant of its takeover (R178, R291). -/
structure Sched where
  base : Nat
  cycle : Nat
  first : Nat
  len : Nat
  tb : Nat
  due : Nat
  deriving DecidableEq, Repr

/-- The gate of a stream handle (R177 to R179): the schedule in operation and the pending one, and the octets admitted in the
entry interval that began at `start`. -/
structure SGate where
  oper : Option Sched
  pend : Option Sched
  start : Nat
  octets : Nat
  deriving DecidableEq, Repr

/-- The buckets of a meter (R180): bytes with 16 fractional bits missing from each, and when they were brought up to date. -/
structure Meter where
  c : Nat
  e : Nat
  at_ : Nat
  deriving DecidableEq, Repr

/-- The stream part of the state: identification slots keyed 2^16 p + slot, gates, meters and blocked handles (1 oversize, 2
gate) by handle, policers by 8 n + c. -/
structure StreamSt where
  ids : Tab KEnt
  gate : Tab SGate
  meter : Tab Meter
  blocked : Tab Nat
  pol : Tab Bucket
  deriving DecidableEq, Repr


/-! ### Seamless redundancy (chapter 08) -/

/-- A slot of the node table (R193). -/
structure Node where
  valid : Bool
  mac : Nat
  pair : Nat
  proxy : Bool
  seen : Nat
  cs : Nat
  ring : Nat
  gen : Nat
  ringGen : Nat
  age : Nat
  deriving DecidableEq, Repr

/-- A recovery context's state (R197, R199). `alloc` holds PORT, RESET_MS and PORT_B's port for a context of a pair range that
the device has allocated (R194). -/
structure Rcv where
  takeAny : Bool
  recov : Nat
  last : Nat
  hist : Nat
  gen : Nat
  alloc : Option (Nat × Nat × Option Nat)
  deriving DecidableEq, Repr

/-- The redundancy part of the state: node slots, contexts, the next number per generator (R196), requests that wait for the
node writer (R194), the last node sweep and context sweep, and when each pair sent its last supervision frames. -/
structure RedundSt where
  nodes : Tab Node
  ctxs : Tab Rcv
  genNext : Tab Nat
  reqs : List NodeReq
  nodeSweep : Nat
  ctxSweep : Nat
  supAt : Tab Nat
  deriving DecidableEq, Repr


/-! ### The Deckle (chapter 09) -/

/-- A seal context (R220, R224). `key` is KEY_SLOT 2^16 + SENDER; `high` and `window` are H and W. -/
structure SCtx where
  valid : Bool
  key : Nat
  minSeq : Nat
  empty : Bool
  high : Nat
  window : Nat
  new : Bool
  old : Bool
  deriving DecidableEq, Repr

/-- The Deckle part of the state: key material by slot (R222), contexts by slot, staging blocks taken per queue (R227), grants
per (kind, queue) and per kind in the grant frame and the queue last served (R228), and per ingress port the report bucket, the
reports suppressed and when the last summary was written (R231). `held` is the key each engine read as it started, its kind first,
keyed 64 kind + engine; `faultAt` marks the clusters a fault took out. -/
structure DeckleSt where
  keys : Tab (List Byte)
  ctxs : Tab SCtx
  used : Tab Nat
  grants : Tab Nat
  grantN : Tab Nat
  lastQ : Tab Nat
  logB : Tab Bucket
  supp : Tab Nat
  summAt : Tab Nat
  faultAt : Tab Nat
  held : Tab (List Byte)
  deriving DecidableEq, Repr


/-! ### Cell memory and Vats (chapter 10) -/

/-- A link RAM entry (R236). -/
structure Link where
  next : Nat
  ref : Nat
  free : Bool
  last : Bool
  deriving DecidableEq, Repr

/-- A free list threaded through its free elements (R235, R242): the elements returned, head first, and after them the
elements from `fresh` on that have never been taken, in index order. -/
structure FreeList where
  pushed : List Nat
  fresh : Nat
  deriving DecidableEq, Repr

/-- A cell bank (R235): the sub-bank the rotation stands at, the free list of rows of each sub-bank, link RAM entries, cells
not free, the sub-banks whose list is being rebuilt with when that began (R240), and the cells counted as lost (R382). -/
structure Bank where
  rot : Nat
  sub : Tab FreeList
  links : Tab Link
  used : Nat
  rebuild : Tab Nat
  lost : List Nat
  deriving DecidableEq, Repr

/-- A privileged Vat's free store (R247): the on-chip cache of free block offsets and the ring behind it. -/
structure Priv where
  cache : List Nat
  ring : FreeList
  deriving DecidableEq, Repr

/-- A frame in the supervisor frame Vat (R247): the port it came from, its blocks and its bytes. -/
structure SupFrame where
  port : Nat
  blocks : List Nat
  bytes : List Byte
  deriving DecidableEq, Repr

/-- The buffer part of the state. `ic` and `ec` are the counts of R250, keyed 8 n + c and (259 p + m) 8 + c; `half` the free
lists of the spill Vat halves, keyed 2 v + s; `rot` the rotation pointers of R249 by
store; `spillQ` and `refillQ` the copies that wait for a pipeline's spill engine and refill engine; `burstEmpty` when a spill
queue last became empty; `ueAt` when the current second of a stack's error count began; `supFrames` the frames in
the supervisor frame Vat, oldest first. -/
structure VatSt where
  bank : Tab Bank
  ic : Tab Nat
  ec : Tab Nat
  half : Tab FreeList
  sealP : Priv
  supP : Priv
  rot : Tab Nat
  spillQ : Tab (List Nat)
  refillQ : Tab (List Nat)
  burstEmpty : Tab Nat
  ueAt : Tab Nat
  supFrames : List SupFrame
  deriving DecidableEq, Repr


/-! ### Headbox, Felt planes and the Couch (chapter 11) -/

/-- A data cell on the fabric or held by a Couch: the plane and slot it entered, its pair and SEQ, the copy it belongs to, and
the header bits the Couch acts on (R260), with its egress port and class. `dead` marks a cell discarded for its CRC, which its
Couch still waits for. -/
structure FCell where
  plane : Nat
  slot : Nat
  src : Nat
  dst : Nat
  seq : Nat
  copy : Nat
  first : Bool
  last : Bool
  err : Nat
  bytes : Nat
  port : Nat
  cls : Nat
  dead : Bool
  deriving DecidableEq, Repr

/-- A gap open at a Couch for one pair (R269): when it opened (less one ns; 0 when none is open), whether a later cell is held, and whether a
plane was declared failed during it. -/
structure Gap where
  at_ : Nat
  held : Bool
  failed : Bool
  deriving DecidableEq, Repr

/-- What the spare is being brought up for: failover (R280), or planned rotation of a plane (R282). `slot` is the changeover
slot once it is named, `changed` whether it has passed. -/
structure Rotation where
  out : Nat
  spare : Nat
  since : Nat
  slot : Option Nat
  changed : Bool
  deriving DecidableEq, Repr

/-- The fabric part of the state. Pairs are keyed 64 i + j, plane indices 64 n + index. `rot` is a pair's plane rotation (R263),
`gptr` and `aptr` the pointers of R265, `expect` E, `reported` S + 1 as last reported, `started` the source list a pair last
started (its place + 1), `issued` and `back` the credits issued and returned per group, `sentOn` and `recvOn` the cells sent and
received or discarded on each plane, `crcAt` when a plane's 1 ms window began, `spareAt` when a plane was last the spare, `join` a spare being synchronised for failover and since when, `joinSlot`
a synchronised plane and the slot from which it is used, `schedAt` the last scheduled rotation, `relAt` forwarding release, `grantAt` the port after the
one a group last granted credit, `bad` the planes that failed their self-test. -/
structure FabricSt where
  slot : Nat
  rot : Tab Nat
  gptr : Tab Nat
  aptr : Tab Nat
  seqNext : Tab Nat
  expect : Tab Nat
  reported : Tab Nat
  flight : List FCell
  held : List FCell
  gaps : Tab Gap
  started : Tab Nat
  issued : Tab Nat
  back : Tab Nat
  sentOn : Tab Nat
  recvOn : Tab Nat
  crcAt : Tab Nat
  spareAt : Tab Nat
  join : Option (Nat × Nat)
  joinSlot : Option (Nat × Nat)
  rotation : Option Rotation
  schedAt : Nat
  relAt : Nat
  grantAt : Tab Nat
  bad : List Nat
  deriving DecidableEq, Repr


/-! ### Egress queues, gates and shapers (chapter 12) -/

/-- The gates of a port (R289 to R291): the schedule in operation, the pending one, when the entry in progress began, and
whether an entry with Set-And-Hold-MAC holds the preemptable MAC (R298). -/
structure EGate where
  oper : Option Sched
  pend : Option Sched
  entryAt : Nat
  hold : Bool
  deriving DecidableEq, Repr

/-- Credit of a credit-based shaper (R294) in bytes with 16 fractional bits, and when it was brought up to date. -/
structure Cbs where
  credit : Int
  at_ : Nat
  deriving DecidableEq, Repr

/-- Start and finish tag of a class (R295) and whether it was eligible when last looked at. -/
structure Wfq where
  start : Nat
  finish : Nat
  active : Bool
  deriving DecidableEq, Repr

/-- The egress part of the state: gates and virtual time by port, shaper credit and tags by 8 n + c, token buckets by 9 n + c
with c = 8 for the port's own, the copy each MAC transmits by 2 n + m (copy + 1), and when its transmission ends. -/
structure EgressSt where
  gate : Tab EGate
  cbs : Tab Cbs
  tbs : Tab Bucket
  vtime : Tab Nat
  wfq : Tab Wfq
  tx : Tab Nat
  txEnd : Tab Nat
  deriving DecidableEq, Repr


/-! ### The whole device -/

/-- Everything the block holds but the queue of commands. `regs` is the register file (R25), `ctrs` and `ctrOvf` the counter
store (R379), `tabs` the indexed bulk tables (R52), `now` counts ns, `free` the free values used. -/
structure Dev where
  now : Nat
  free : Nat
  hold : HoldSt
  regs : Tab Word
  ctrs : Tab Nat
  ctrOvf : Tab Bool
  wire : List Out
  tabs : Tab Word
  time : TimeSt
  supv : SupvSt
  host : HostSt
  audit : AuditSt
  boot : BootSt
  power : PowerSt
  ports : PortsSt
  mods : ModSt
  path : PathSt
  beat : BeaterSt
  look : LookupSt
  strm : StreamSt
  red : RedundSt
  deck : DeckleSt
  vat : VatSt
  fab : FabricSt
  egr : EgressSt
  deriving DecidableEq, Repr

/-- The block: the device and the commands that wait, first in, first out. -/
structure State where
  dev : Dev
  pending : List Instr
  deriving DecidableEq, Repr

/-- Why a step stops with a fault. No command of this block stops it: every error the spec describes is reported by the
device, which goes on. The one constructor is raised by nobody; it is there because an outcome names a fault type. Safe. -/
inductive Fault where
  /-- Raised by nobody. Safe. -/
  | none
  deriving DecidableEq, Repr

/-- Why a step has no meaning. -/
inductive Refusal where
  /-- A command of the table whose meaning is not written. Raised by the dispatch only. Safe: nothing is claimed of it. -/
  | notModelled (mnemonic : String)
  deriving DecidableEq, Repr

/-- Core clocks run and nothing holds the core in reset (R44, R344, R399). -/
def HoldSt.live (h : HoldSt) : Bool := h.pwrGood && h.clocks && !h.por && !h.shutdown

/-- The fuses of the modelled part after reset (log entry 5): unprovisioned, LN256-C, setpoint 750 mV, base address zero. -/
def Fuses.blank : Fuses :=
  { ownerHash := List.replicate 32 0, realm := 0, devnum := 0, kek := List.replicate 32 0, epoch := 0, baseMac := 0,
    grade := 0, setpointMv := 750 }

/-- The flash device of either socket after reset (log entry 5): 128 MiB, both protocols advertised, erased. -/
def Nvm.blank : Nvm :=
  { attached := true, capacity := 128, quad := true, octal := true, writable := true, ok := false, image := [], journal := [],
    log := [] }

/-- A flash socket with no device. -/
def Nvm.empty : Nvm :=
  { attached := false, capacity := 0, quad := false, octal := false, writable := false, ok := false, image := [],
    journal := [], log := [] }

def TbSt.zero : TbSt := { own := 0, integ := 0, good := 0, bad := 0, lockedAt := 0, holdAt := 0, lastSample := 0 }

def TimeSt.zero : TimeSt :=
  { tb := List.replicate 8 TbSt.zero, pair := List.replicate 4 { dRem := 0, slewAt := 0 }, tsq := [], ptpBuf := [], tc2 := [],
    tioActive := [], tioDone := [], tioFifo := [], ppsLast := none, tclkAbsent := false, startMark := [], startSet := [] }

def Mgmt.zero : Mgmt := { persist := [0, 0], auditPos := 0, opens := [] }

def SupvSt.zero : SupvSt :=
  { lastHb := [], fails := [], mgmt := Mgmt.zero, ckpts := [], ckptSeq := 0, loaded := none, takeover := none,
    over120 := [], vOut := [], vIn := [], railAt := [], pmc := [], logQ := [], flight := [],
    hbmRing := [], lostRecs := 0, lastSummary := none, refRegs := [], refTabs := [] }

/-- KIND k names the k-th counter of the model's order (log entry 6): the spec gives no KIND numbers. -/
def HostSt.zero : HostSt :=
  { stage := [], chans := [], jobs := [], snapReq := none, snapArea := [], snapChan := 0, snapId := 0, bec := [], dbgChal := false,
    dbgBlock := none, pcieLink := false, busMaster := false, dir := (List.range 183).map (fun k => (k + 1, k + 1)) }

def Chan.zero : Chan :=
  { ver := 0, opened := none, nonce := none, outbox := [], port := 0, seg := none, head := [], body := [], ready := false, reply := [] }

def AuditSt.zero : AuditSt := { terms := [], checkAt := 0, comparing := false, opens := [] }

def BootSt.zero : BootSt :=
  { fuses := Fuses.blank, nvm := [Nvm.blank, Nvm.blank], t0 := 0, bootCount := 0, tb0Sec := 0,
    tried := [], cand := none, loaded := none, released := false, recovery := false, bootOnB := false, hbmDone := [],
    latched := [], storePipes := [], delegates := [], replay := none, amds := [], armed := none,
    shadow := [], cleanup := [], amdSeq := 0, imgStore := none, restartAt := none }

def PowerSt.zero : PowerSt := { waiting := [], holds := [], slotFree := [], goodAt := [], pmbFails := [] }
def PortSt.zero : PortSt := { holdEnd := none, upPending := false, reasm := none, verTries := 0, verAt := 0 }
def PauseSt.zero : PauseSt := { rxEnd := none, since := 0, wdEnd := 0, xoffAt := 0 }
def CageSt.zero : CageSt :=
  { startAt := 0, stepAt := 0, pollAt := 0, ackAt := none, ident := none, app := none, noApp := false, want := 0, faults := [],
    flags := [], telAt := 0 }
def MBus.zero : MBus := { mux := none, retry := none, turn := [0, 0, 0] }
def Parse.zero : Parse :=
  { addr := 0, stack := [], gr := List.replicate 8 0, cur := 0, z := false, n := false, c := false, w := false, half := 0,
    hook := 0, hv := List.replicate 64 0, cycles := 0, lookups := 0, pend := none, present := false, hit := false,
    first := true, restarted := false, waitAt := none, waited := false, stop := false }
def AEnt.zero : AEnt :=
  { valid := false, mac := 0, fid := 0, typ := 0, new := false, old := false, pinned := false, age := 0, moves := 0, rk := 0,
    res := 0, bad := 0 }
def Bucket.full : Bucket := { used := 0, at_ := 0 }
def KEnt.zero : KEnt := { bytes := [], new := false, old := false }
def SGate.zero : SGate := { oper := none, pend := none, start := 0, octets := 0 }
def Meter.full : Meter := { c := 0, e := 0, at_ := 0 }
def Node.zero : Node :=
  { valid := false, mac := 0, pair := 0, proxy := false, seen := 0, cs := 0, ring := 0, gen := 0, ringGen := 0, age := 0 }
def Rcv.zero : Rcv := { takeAny := true, recov := 0, last := 0, hist := 0, gen := 0, alloc := none }
def SCtx.zero : SCtx :=
  { valid := false, key := 0, minSeq := 0, empty := true, high := 0, window := 0, new := false, old := false }
def Link.zero : Link := { next := 0, ref := 0, free := true, last := false }
def FreeList.zero : FreeList := { pushed := [], fresh := 0 }
def Bank.zero : Bank := { rot := 0, sub := [], links := [], used := 0, rebuild := [], lost := [] }
def Priv.zero : Priv := { cache := [], ring := FreeList.zero }
def Gap.zero : Gap := { at_ := 0, held := false, failed := false }
def EGate.zero : EGate := { oper := none, pend := none, entryAt := 0, hold := false }
def Cbs.zero : Cbs := { credit := 0, at_ := 0 }
def Wfq.zero : Wfq := { start := 0, finish := 0, active := false }

/-- Registers whose reset value comes from the fuses (R14): the fuse view, PART with GRADE, and the AVS setpoint. -/
def fuseRegs (f : Fuses) : List (Nat × Nat) :=
  [(0x0, 0x02561000 + 0x10 * f.grade), (0x10000, f.devnum), (0x10004, f.realm), (0x10008, f.epoch),
   (0x1000C, f.baseMac % 2 ^ 32), (0x10010, f.baseMac / 2 ^ 32), (0x0E000200, 0x10000 * f.setpointMv)]

/-- The device before its first power-up: rails present, PWR_GOOD low, nothing programmed. -/
def Dev.zero : Dev :=
  { now := 0, free := 0, hold := { por := false, pwrGood := false, shutdown := false, clocks := false },
    regs := [(0x0E000200, 0x02EE0000)], ctrs := [], ctrOvf := [], wire := [], tabs := [], time := TimeSt.zero, supv := SupvSt.zero,
    host := HostSt.zero, audit := AuditSt.zero, boot := BootSt.zero, power := PowerSt.zero,
    ports := { port := [], pause := [] },
    mods := { cage := [], bus := [], appOf := [] },
    path := { frames := [], copies := [], nextFrame := 0, nextCopy := 0, nextReady := 0, nextStep9 := 0, nextEnd := 0, nextQ := 1 },
    beat := { store := [], bad := [], half := [], home := [], outAt := [], backAt := [], heldOut := [], sideBad := [] },
    look := { slots := [], victim := [], learnQ := [], ring := [], rate := [], removing := [], passing := [], failed := [], refStatic := [], refNext := [], aged := [], moved := [] },
    strm := { ids := [], gate := [], meter := [], blocked := [], pol := [] },
    red := { nodes := [], ctxs := [], genNext := [], reqs := [], nodeSweep := 0, ctxSweep := 0, supAt := [] },
    deck := { keys := [], ctxs := [], used := [], grants := [], grantN := [], lastQ := [], logB := [], supp := [], summAt := [], faultAt := [], held := [] },
    vat := { bank := [], ic := [], ec := [], half := [], sealP := Priv.zero, supP := Priv.zero, rot := [], spillQ := [], refillQ := [], burstEmpty := [], ueAt := [], supFrames := [] },
    fab := { slot := 0, rot := [], gptr := [], aptr := [], seqNext := [], expect := [], reported := [], flight := [], held := [], gaps := [], started := [], issued := [], back := [], sentOn := [], recvOn := [], crcAt := [], spareAt := [], join := none, joinSlot := none, rotation := none, schedAt := 0, relAt := 0, grantAt := [], bad := [] },
    egr := { gate := [], cbs := [], tbs := [], vtime := [], wfq := [], tx := [], txEnd := [] }
    }

/-- The block right after reset, before PWR_GOOD rises (time zero of R44 has not come), with no command waiting. -/
def State.reset : State := { dev := Dev.zero, pending := [] }

end Sys2Proof.Machine
end

