-- ==== Sys2Proof/Machine/Ops.lean ====
section
/-! DEFINITION. The named operations over the state that every family shares: sparse tables, register fields, counters,
byte order, CRC-32, interrupts, alarms, the log queue and the outside record. -/

namespace Sys2Proof.Machine

/-! ### Sparse tables -/

/-- What key `k` reads in table `t`, `d` where the key is not listed. -/
def tget {β : Type} (t : Tab β) (d : β) (k : Nat) : β :=
  match t with
  | [] => d
  | (a, v) :: r => if k = a then v else tget r d k

/-- `t` without key `k`. -/
def tdel {β : Type} (t : Tab β) (k : Nat) : Tab β := t.filter (fun e => e.1 != k)

/-- `t` with `k` holding `v`, at its place in the rising order of keys. -/
def tins {β : Type} (t : Tab β) (k : Nat) (v : β) : Tab β :=
  match t with
  | [] => [(k, v)]
  | (a, w) :: r => if k < a then (k, v) :: (a, w) :: r else if k = a then (k, v) :: r else (a, w) :: tins r k v

/-- The write of a sparse table whose key `k` reads `d` when unlisted: writing `d` removes the entry. -/
def tput {β : Type} [DecidableEq β] (t : Tab β) (d : β) (k : Nat) (v : β) : Tab β :=
  if v = d then tdel t k else tins t k v

/-- The canonical form of a sparse table: keys strictly rising, no entry equal to what its key reads when unlisted. -/
def twf {β : Type} [DecidableEq β] (d : Nat → β) : Tab β → Bool
  | [] => true
  | (a, v) :: r => decide (v ≠ d a) && (r.all fun e => decide (a < e.1)) && twf d r

/-! ### Register fields -/

/-- The index values at which offset `off` falls in the index ranges `dims`, where it falls in them. -/
def matchDims : List (Nat × Nat) → Nat → Option (List Nat)
  | [], off => if off = 0 then some [] else none
  | (c, s) :: r, off => if off / s < c then (matchDims r (off % s)).map (off / s :: ·) else none

/-- The register at byte address `a`, with its index values; none where no register is implemented (R17). -/
def findReg (a : Nat) : Option (RDecl × List Nat) :=
  (regTable (a / 2 ^ 24)).findSome? fun r => r.blocks.findSome? fun b =>
    if a < b.1 then none else (matchDims b.2 (a - b.1)).map (r, ·)

/-- The value address `a` reads after reset (R14): its register's reset value, zero where there is none. -/
def resetOf (a : Nat) : Word :=
  match findReg a with
  | some (r, ix) => BitVec.ofNat 32 ((r.resets[if r.resets.length ≤ 1 then 0 else ix.headD 0]?).getD 0)
  | none => 0

/-- Bits `lo + wd - 1 : lo` of a word. -/
def fget (w : Word) (lo wd : Nat) : Nat := w.toNat / 2 ^ lo % 2 ^ wd

/-- A word with bits `lo + wd - 1 : lo` replaced by the low bits of `v`. -/
def fput (w : Word) (lo wd v : Nat) : Word :=
  BitVec.ofNat 32 ((w.toNat / 2 ^ (lo + wd) * 2 ^ wd + v % 2 ^ wd) * 2 ^ lo + w.toNat % 2 ^ lo)

/-- The word register address `a` holds. -/
def Dev.reg (d : Dev) (a : Nat) : Word := tget d.regs (resetOf a) a

/-- The device with register address `a` holding `w`. -/
def Dev.setReg (d : Dev) (a : Nat) (w : Word) : Dev := { d with regs := tput d.regs (resetOf a) a w }

/-- A register field. -/
def Dev.rd (d : Dev) (r : FRef) : Nat := fget (d.reg r.addr) r.lo r.width

/-- The device with a register field written, every other bit of its register kept. -/
def Dev.wr (d : Dev) (r : FRef) (v : Nat) : Dev := d.setReg r.addr (fput (d.reg r.addr) r.lo r.width v)

/-- A one-bit field as a truth value. -/
def Dev.flag (d : Dev) (r : FRef) : Bool := d.rd r == 1

/-- The device with a one-bit field set or cleared. -/
def Dev.setFlag (d : Dev) (r : FRef) (b : Bool) : Dev := d.wr r (if b then 1 else 0)

/-- Bit `k` of a bit-mask field. -/
def Dev.bitOf (d : Dev) (r : FRef) (k : Nat) : Bool := (d.rd r).testBit k

/-- The device with bit `k` of a bit-mask field set or cleared. -/
def Dev.setBitOf (d : Dev) (r : FRef) (k : Nat) (b : Bool) : Dev :=
  d.wr r (if b then d.rd r ||| 2 ^ k else if (d.rd r).testBit k then d.rd r ^^^ 2 ^ k else d.rd r)

/-- `v` read as a two's complement number of `wd` bits. -/
def toSigned (wd v : Nat) : Int := if v < 2 ^ (wd - 1) then (v : Int) else (v : Int) - 2 ^ wd

/-- An integer as its two's complement of `wd` bits. -/
def ofSigned (wd : Nat) (v : Int) : Nat := (v % 2 ^ wd).toNat

/-- A field that holds a signed number. -/
def Dev.rdS (d : Dev) (r : FRef) : Int := toSigned r.width (d.rd r)

/-- The device with a signed field written. -/
def Dev.wrS (d : Dev) (r : FRef) (v : Int) : Dev := d.wr r (ofSigned r.width v)

/-- `v` limited to `lo` to `hi`. -/
def clampI (v lo hi : Int) : Int := if v < lo then lo else if hi < v then hi else v

/-! ### Indexed bulk tables (R52) -/

/-- Key of word `w` of entry `i` of table `tid` in the store of indexed tables; an entry has at most 16 words. -/
def tabKey (tid i w : Nat) : Nat := (tid * 2 ^ 17 + i) * 16 + w

/-- What a table word reads before it is written: zero, but for the egress limit tables, which reset to 0x3_FFFF (chapter
10). -/
def tabReset (k : Nat) : Word := if [0x7001, 0x7011, 0x7021, 0x7031].contains (k / 16 / 2 ^ 17) then 0x3FFFF else 0

/-- Word `w` of entry `i` of table `tid`. -/
def Dev.tabW (d : Dev) (tid i w : Nat) : Word := tget d.tabs (tabReset (tabKey tid i w)) (tabKey tid i w)

/-- The device with that word written. -/
def Dev.setTabW (d : Dev) (tid i w : Nat) (v : Word) : Dev :=
  { d with tabs := tput d.tabs (tabReset (tabKey tid i w)) (tabKey tid i w) v }

/-- Bits of a table word. -/
def Dev.tabF (d : Dev) (tid i w lo wd : Nat) : Nat := fget (d.tabW tid i w) lo wd

/-! ### Byte order -/

/-- The low `n` bytes of a number, least significant first (R10, R346, R368). -/
def le (n v : Nat) : List Byte :=
  match n with
  | 0 => []
  | k + 1 => BitVec.ofNat 8 v :: le k (v / 256)

/-- The low `n` bytes of a number, most significant first (wire order, R10). -/
def be (n v : Nat) : List Byte := (le n v).reverse

/-- The number whose bytes, least significant first, are given. -/
def fromLe : List Byte → Nat
  | [] => 0
  | b :: r => b.toNat + 256 * fromLe r

/-- The number whose bytes, most significant first, are given. -/
def fromBe (l : List Byte) : Nat := fromLe l.reverse

/-- Bytes `off` to `off + n - 1` of a list, zeros where it is shorter. -/
def slice (l : List Byte) (off n : Nat) : List Byte :=
  let s := (l.drop off).take n
  s ++ List.replicate (n - s.length) 0

/-- A list with bytes from `off` on replaced. -/
def patch (l : List Byte) (off : Nat) (b : List Byte) : List Byte :=
  l.take off ++ List.replicate (off - l.length) 0 ++ b ++ l.drop (off + b.length)

/-! ### CRC-32 -/

/-- One bit of the CRC-32 of R143, most significant bit first. -/
def crcBit (c : Nat) (bit : Bool) : Nat :=
  let s := c * 2 % 2 ^ 32
  if (c.testBit 31 != bit) then s ^^^ 0x04C11DB7 else s

/-- One byte of the CRC-32 of R143. -/
def crcByte (c : Nat) (b : Byte) : Nat :=
  [7, 6, 5, 4, 3, 2, 1, 0].foldl (fun c i => crcBit c (b.toNat.testBit i)) c

/-- The CRC-32 of R143 over bytes, from a start value. -/
def crc32 (start : Nat) (l : List Byte) : Nat := l.foldl crcByte start

/-! ### Outside record, free values, counters -/

/-- The device with an output recorded. -/
def Dev.out (d : Dev) (o : Out) : Dev := { d with wire := d.wire ++ [o] }

/-- The next free value: a number nothing constrains, and the device that has used it up. -/
def Dev.freeNat (d : Dev) : Nat × Dev := (Config.freeValue d.free, { d with free := d.free + 1 })

/-- The value of instance `i` of a counter. -/
def Dev.ctr (d : Dev) (c : Ctr) (i : Nat) : Nat := tget d.ctrs 0 (c.key i)

/-- The device with `n` events counted by instance `i` of a counter: past 2^64 - 1 it wraps and sets its OVF (R379). -/
def Dev.cntBy (d : Dev) (c : Ctr) (i n : Nat) : Dev :=
  let v := d.ctr c i + n
  { d with
    ctrs := tput d.ctrs 0 (c.key i) (v % 2 ^ 64),
    ctrOvf := if v < 2 ^ 64 then d.ctrOvf else tput d.ctrOvf false (c.key i) true }

/-- One event. -/
def Dev.cnt (d : Dev) (c : Ctr) (i : Nat) : Dev := d.cntBy c i 1

/-- One drop under a reason code of R390. -/
def Dev.dropCount (d : Dev) (reason : Nat) : Dev := d.cnt .drop reason

/-! ### Interrupts and alarms -/

/-- Sets interrupt source `v` (R359): the status bit, and MSI-X vector `v` where the bit was clear and MSI_EN bit `v` is set. -/
def Dev.irq (d : Dev) (v : Nat) : Dev :=
  if d.bitOf Reg.HOST_INT_STATUS.SRC v then d
  else
    let d := d.setBitOf Reg.HOST_INT_STATUS.SRC v true
    if d.bitOf Reg.HOST_INT_STATUS.MSI_EN v then d.out (.msix v) else d

/-- The level of INT_N (R359): low while a status bit and its PIN_EN bit are set together. -/
def Dev.intN (d : Dev) : Bool := (d.rd Reg.HOST_INT_STATUS.SRC &&& d.rd Reg.HOST_INT_STATUS.PIN_EN) == 0

/-- The field of SUPV_ALM that drives pin ALM `g` (R341). -/
def almField (g : Nat) : FRef :=
  match g with
  | 0 => Reg.SUPV_ALM.ALM0_SRC
  | 1 => Reg.SUPV_ALM.ALM1_SRC
  | 2 => Reg.SUPV_ALM.ALM2_SRC
  | _ => Reg.SUPV_ALM.ALM3_SRC

/-- Raises bit `b` of alarm group `g` (R341): the SUPV_ALM bit, and interrupt source ALM where the bit was clear (R359). -/
def Dev.alarm (d : Dev) (g b : Nat) : Dev :=
  if d.bitOf (almField g) b then d else (d.setBitOf (almField g) b true).irq 4

/-- The level of pin ALM `g` (R341): released, high, in reset or while any bit of its group is set. -/
def Dev.almPin (d : Dev) (g : Nat) : Bool := !d.hold.live || d.rd (almField g) != 0

/-- Writes a bit of HOST_PEER_ALIVE; a change raises interrupt source PEER (R359). -/
def Dev.setPeer (d : Dev) (r : FRef) (b : Bool) : Dev :=
  if d.flag r = b then d else (d.setFlag r b).irq 5

/-! ### Log queue (R346 to R348) -/

/-- SEVERITY of a TYPE (R346, R347). -/
def sevOf (typ : Nat) : Nat :=
  match typ with
  | 0x0001 => 2 | 0x0010 => 3 | 0x0011 => 3 | 0x0012 => 4 | 0x0013 => 4 | 0x0014 => 4 | 0x0020 => 4
  | 0x1001 => 4 | 0x2001 => 3 | 0x2002 => 4 | 0x2003 => 3 | 0x3001 => 3 | 0x3002 => 3
  | 0x4001 => 4 | 0x4002 => 5 | 0x4003 => 4 | 0x5001 => 4 | 0x6020 => 3
  | 0x7001 => 2 | 0x7002 => 2 | 0x7003 => 2 | 0x8001 => 2 | 0x8002 => 5
  | 0xB001 => 2 | 0xB002 => 2 | 0xB010 => 4 | 0xB011 => 0 | 0xB012 => 4 | 0xB020 => 3 | 0xB030 => 3
  | 0xB031 => 3 | 0xB032 => 5 | 0xB0F0 => 6 | 0xC001 => 5 | 0xC002 => 4 | 0xE001 => 3 | 0xE002 => 3
  | _ => 4

/-- Submits a record to the log writer's queue of 64; a record that finds it full is discarded and counted (R348). -/
def Dev.submit (d : Dev) (r : LogRec) : Dev :=
  if d.supv.logQ.length < 64 then { d with supv := { d.supv with logQ := d.supv.logQ ++ [r] } }
  else
    let d := d.cnt .logOverrun 0
    { d with supv := { d.supv with lostRecs := d.supv.lostRecs + 1 } }

/-- A hardware record: TYPE, UNIT, DATA (R347). -/
def Dev.log (d : Dev) (typ unit : Nat) (data : List Byte) : Dev := d.submit ⟨typ, sevOf typ, 0, unit, false, data⟩

/-- A record whose ORIGIN is a supervisor (0x1, 0x2) or the loader (0x3). -/
def Dev.logFrom (d : Dev) (origin typ unit : Nat) (data : List Byte) : Dev :=
  d.submit ⟨typ, sevOf typ, origin, unit, false, data⟩

/-- Words 0 and 1 of DATA (R347): a register's address and the value hardware holds. -/
def Dev.regData (d : Dev) (a : Nat) : List Byte := le 4 a ++ le 4 (d.reg a).toNat

/-- Words 0 and 1 of DATA where R347 shows a dash. -/
def noReg : List Byte := le 8 0

/-! ### Supervisors -/

/-- ROLE of supervisor `s` (R330). -/
def Dev.role (d : Dev) (s : Nat) : Nat := d.rd (Reg.SUPV_CORE_STATUS.ROLE s)

/-- The ACTIVE supervisor (R330), where there is one. -/
def Dev.activeSup (d : Dev) : Option Nat := if d.role 0 = 1 then some 0 else if d.role 1 = 1 then some 1 else none

/-- The STANDBY supervisor, where there is one. -/
def Dev.standbySup (d : Dev) : Option Nat := if d.role 0 = 2 then some 0 else if d.role 1 = 2 then some 1 else none

/-- A supervisor is ACTIVE, so that management acts (R3, R340). -/
def Dev.supRunning (d : Dev) : Bool := d.activeSup.isSome

/-- Master ID of supervisor `s` (R360), and the log's ORIGIN of it (R346). -/
def supMaster (s : Nat) : Nat := 0x10 + s

/-- ORIGIN of the ACTIVE supervisor in a log record. -/
def Dev.supOrigin (d : Dev) : Nat := match d.activeSup with | some s => s + 1 | none => 0

end Sys2Proof.Machine
end

