-- ==== Sys2Proof/Machine/Crypto.lean ====
section
/-! DEFINITION. The cryptographic functions the spec names by their standards: SHA-256 and SHA-512 (FIPS 180-4), HMAC-SHA-256
(RFC 2104, FIPS 198-1), Ed25519 verification (RFC 8032 section 5.1.7, cofactored) and AES-256-GCM decryption (SP 800-38D), used
by R50, R53, R55, R57, R215 and R362. Their content is PRESUMED from those standards. -/

namespace Sys2Proof.Machine

/-! ### SHA-2 -/

/-- The constants of one SHA-2 function: word size, rotation amounts of the large and small sigmas, round constants, initial
hash. -/
structure Sha where
  bits : Nat
  big0 : Nat × Nat × Nat
  big1 : Nat × Nat × Nat
  small0 : Nat × Nat × Nat
  small1 : Nat × Nat × Nat
  ks : List Nat
  start : List Nat
  deriving DecidableEq, Repr

/-- Round constants of SHA-256. -/
def sha256K : List Nat :=
  [0x428A2F98, 0x71374491, 0xB5C0FBCF, 0xE9B5DBA5, 0x3956C25B, 0x59F111F1, 0x923F82A4, 0xAB1C5ED5] ++
  [0xD807AA98, 0x12835B01, 0x243185BE, 0x550C7DC3, 0x72BE5D74, 0x80DEB1FE, 0x9BDC06A7, 0xC19BF174] ++
  [0xE49B69C1, 0xEFBE4786, 0x0FC19DC6, 0x240CA1CC, 0x2DE92C6F, 0x4A7484AA, 0x5CB0A9DC, 0x76F988DA] ++
  [0x983E5152, 0xA831C66D, 0xB00327C8, 0xBF597FC7, 0xC6E00BF3, 0xD5A79147, 0x06CA6351, 0x14292967] ++
  [0x27B70A85, 0x2E1B2138, 0x4D2C6DFC, 0x53380D13, 0x650A7354, 0x766A0ABB, 0x81C2C92E, 0x92722C85] ++
  [0xA2BFE8A1, 0xA81A664B, 0xC24B8B70, 0xC76C51A3, 0xD192E819, 0xD6990624, 0xF40E3585, 0x106AA070] ++
  [0x19A4C116, 0x1E376C08, 0x2748774C, 0x34B0BCB5, 0x391C0CB3, 0x4ED8AA4A, 0x5B9CCA4F, 0x682E6FF3] ++
  [0x748F82EE, 0x78A5636F, 0x84C87814, 0x8CC70208, 0x90BEFFFA, 0xA4506CEB, 0xBEF9A3F7, 0xC67178F2]

/-- Round constants of SHA-512. -/
def sha512K : List Nat :=
  [0x428A2F98D728AE22, 0x7137449123EF65CD, 0xB5C0FBCFEC4D3B2F, 0xE9B5DBA58189DBBC] ++
  [0x3956C25BF348B538, 0x59F111F1B605D019, 0x923F82A4AF194F9B, 0xAB1C5ED5DA6D8118] ++
  [0xD807AA98A3030242, 0x12835B0145706FBE, 0x243185BE4EE4B28C, 0x550C7DC3D5FFB4E2] ++
  [0x72BE5D74F27B896F, 0x80DEB1FE3B1696B1, 0x9BDC06A725C71235, 0xC19BF174CF692694] ++
  [0xE49B69C19EF14AD2, 0xEFBE4786384F25E3, 0x0FC19DC68B8CD5B5, 0x240CA1CC77AC9C65] ++
  [0x2DE92C6F592B0275, 0x4A7484AA6EA6E483, 0x5CB0A9DCBD41FBD4, 0x76F988DA831153B5] ++
  [0x983E5152EE66DFAB, 0xA831C66D2DB43210, 0xB00327C898FB213F, 0xBF597FC7BEEF0EE4] ++
  [0xC6E00BF33DA88FC2, 0xD5A79147930AA725, 0x06CA6351E003826F, 0x142929670A0E6E70] ++
  [0x27B70A8546D22FFC, 0x2E1B21385C26C926, 0x4D2C6DFC5AC42AED, 0x53380D139D95B3DF] ++
  [0x650A73548BAF63DE, 0x766A0ABB3C77B2A8, 0x81C2C92E47EDAEE6, 0x92722C851482353B] ++
  [0xA2BFE8A14CF10364, 0xA81A664BBC423001, 0xC24B8B70D0F89791, 0xC76C51A30654BE30] ++
  [0xD192E819D6EF5218, 0xD69906245565A910, 0xF40E35855771202A, 0x106AA07032BBD1B8] ++
  [0x19A4C116B8D2D0C8, 0x1E376C085141AB53, 0x2748774CDF8EEB99, 0x34B0BCB5E19B48A8] ++
  [0x391C0CB3C5C95A63, 0x4ED8AA4AE3418ACB, 0x5B9CCA4F7763E373, 0x682E6FF3D6B2B8A3] ++
  [0x748F82EE5DEFB2FC, 0x78A5636F43172F60, 0x84C87814A1F0AB72, 0x8CC702081A6439EC] ++
  [0x90BEFFFA23631E28, 0xA4506CEBDE82BDE9, 0xBEF9A3F7B2C67915, 0xC67178F2E372532B] ++
  [0xCA273ECEEA26619C, 0xD186B8C721C0C207, 0xEADA7DD6CDE0EB1E, 0xF57D4F7FEE6ED178] ++
  [0x06F067AA72176FBA, 0x0A637DC5A2C898A6, 0x113F9804BEF90DAE, 0x1B710B35131C471B] ++
  [0x28DB77F523047D84, 0x32CAAB7B40C72493, 0x3C9EBE0A15C9BEBC, 0x431D67C49C100D4C] ++
  [0x4CC5D4BECB3E42B6, 0x597F299CFC657E2A, 0x5FCB6FAB3AD6FAEC, 0x6C44198C4A475817]

/-- SHA-256. -/
def sha256Param : Sha :=
  { bits := 32, big0 := (2, 13, 22), big1 := (6, 11, 25), small0 := (7, 18, 3), small1 := (17, 19, 10), ks := sha256K,
    start := [0x6A09E667, 0xBB67AE85, 0x3C6EF372, 0xA54FF53A, 0x510E527F, 0x9B05688C, 0x1F83D9AB, 0x5BE0CD19] }

/-- SHA-512. -/
def sha512Param : Sha :=
  { bits := 64, big0 := (28, 34, 39), big1 := (14, 18, 41), small0 := (1, 8, 7), small1 := (19, 61, 6), ks := sha512K,
    start := [0x6A09E667F3BCC908, 0xBB67AE8584CAA73B, 0x3C6EF372FE94F82B, 0xA54FF53A5F1D36F1,
      0x510E527FADE682D1, 0x9B05688C2B3E6C1F, 0x1F83D9ABFB41BD6B, 0x5BE0CD19137E2179] }

/-- Rotation of a word to the right. -/
def rotr (bits x n : Nat) : Nat := (x / 2 ^ n + x * 2 ^ (bits - n)) % 2 ^ bits

/-- A large sigma. -/
def bigSigma (bits : Nat) (r : Nat × Nat × Nat) (x : Nat) : Nat := rotr bits x r.1 ^^^ rotr bits x r.2.1 ^^^ rotr bits x r.2.2

/-- A small sigma: its third amount is a shift. -/
def smallSigma (bits : Nat) (r : Nat × Nat × Nat) (x : Nat) : Nat := rotr bits x r.1 ^^^ rotr bits x r.2.1 ^^^ x / 2 ^ r.2.2

/-- The message schedule from its window of sixteen words. -/
def shaSchedule (c : Sha) : Nat → List Nat → List Nat
  | 0, _ => []
  | n + 1, w =>
    let g (i : Nat) : Nat := (w[i]?).getD 0
    g 0 :: shaSchedule c n (w.drop 1 ++ [(smallSigma c.bits c.small1 (g 14) + g 9 + smallSigma c.bits c.small0 (g 1) + g 0) % 2 ^ c.bits])

/-- One round. -/
def shaRound (c : Sha) (s : List Nat) (kw : Nat × Nat) : List Nat :=
  match s with
  | [a, b, cc, d, e, f, g, h] =>
    let t1 := h + bigSigma c.bits c.big1 e + ((e &&& f) ^^^ ((e ^^^ (2 ^ c.bits - 1)) &&& g)) + kw.1 + kw.2
    let t2 := bigSigma c.bits c.big0 a + ((a &&& b) ^^^ (a &&& cc) ^^^ (b &&& cc))
    [(t1 + t2) % 2 ^ c.bits, a, b, cc, (d + t1) % 2 ^ c.bits, e, f, g]
  | _ => s

/-- One block of sixteen words. -/
def shaBlock (c : Sha) (h block : List Nat) : List Nat :=
  let s := (c.ks.zip (shaSchedule c c.ks.length block)).foldl (shaRound c) h
  (h.zip s).map fun x => (x.1 + x.2) % 2 ^ c.bits

/-- A list cut into pieces of `n`. -/
def chunks {α : Type} (n : Nat) : Nat → List α → List (List α)
  | 0, _ => []
  | k + 1, l => if l.isEmpty then [] else l.take n :: chunks n k (l.drop n)

/-- The hash of a message. -/
def shaHash (c : Sha) (m : List Byte) : List Byte :=
  let wb := c.bits / 8
  let bb := 16 * wb
  let lenB := 2 * wb
  let padded := m ++ [(0x80 : Byte)] ++ List.replicate ((2 * bb - (m.length + 1 + lenB) % bb) % bb) 0 ++ be lenB (8 * m.length)
  let words := (chunks wb (padded.length / wb) padded).map fromBe
  let blocks := chunks 16 (words.length / 16) words
  (blocks.foldl (shaBlock c) c.start).flatMap (be wb)

/-- SHA-256. -/
def sha256 (m : List Byte) : List Byte := shaHash sha256Param m

/-- SHA-512. -/
def sha512 (m : List Byte) : List Byte := shaHash sha512Param m

/-- HMAC-SHA-256 under a key of at most 64 bytes. -/
def hmacSha256 (key m : List Byte) : List Byte :=
  let k := slice key 0 64
  sha256 (k.map (· ^^^ 0x5C) ++ sha256 (k.map (· ^^^ 0x36) ++ m))

/-! ### Ed25519 -/

/-- The field prime 2^255 - 19. -/
def edP : Nat := 2 ^ 255 - 19

/-- The group order. -/
def edL : Nat := 2 ^ 252 + 27742317777372353535851937790883648493

/-- `b ^ e` modulo `m`, `e` below 2^n. -/
def powMod (m : Nat) : Nat → Nat → Nat → Nat
  | 0, _, _ => 1 % m
  | n + 1, b, e => let r := powMod m n (b * b % m) (e / 2); if e % 2 = 1 then b * r % m else r

/-- The curve constant d = -121665 / 121666. -/
def edD : Nat := (edP - 121665) * powMod edP 255 121666 (edP - 2) % edP

/-- A point in extended coordinates. -/
structure EdPoint where
  x : Nat
  y : Nat
  z : Nat
  t : Nat
  deriving DecidableEq, Repr

/-- The neutral element. -/
def edZero : EdPoint := ⟨0, 1, 1, 0⟩

/-- Addition (RFC 8032 section 5.1.4). -/
def edAdd (p q : EdPoint) : EdPoint :=
  let m := edP
  let a := (p.y + m - p.x) * (q.y + m - q.x) % m
  let b := (p.y + p.x) * (q.y + q.x) % m
  let c := 2 * p.t * q.t * edD % m
  let dd := 2 * p.z * q.z % m
  let e := (b + m - a) % m
  let f := (dd + m - c) % m
  let g := (dd + c) % m
  let h := (b + a) % m
  ⟨e * f % m, g * h % m, f * g % m, e * h % m⟩

/-- Multiple of a point by a scalar below 2^n. -/
def edMul : Nat → Nat → EdPoint → EdPoint
  | 0, _, _ => edZero
  | n + 1, k, p => let r := edMul n (k / 2) (edAdd p p); if k % 2 = 1 then edAdd p r else r

/-- Two points are equal. -/
def edEq (p q : EdPoint) : Bool :=
  (p.x * q.z + (edP - q.x % edP) * p.z) % edP == 0 && (p.y * q.z + (edP - q.y % edP) * p.z) % edP == 0

/-- Decoding of a point (RFC 8032 section 5.1.3), none where it fails. -/
def edDecode (b : List Byte) : Option EdPoint :=
  let v := fromLe b
  let y := v % 2 ^ 255
  let sign := v / 2 ^ 255 % 2
  if b.length ≠ 32 || edP ≤ y then none
  else
    let m := edP
    let u := (y * y + m - 1) % m
    let w := (edD * (y * y % m) + 1) % m
    let w3 := w * w % m * w % m
    let c := u * w3 % m * powMod m 253 (u * (w3 * w3 % m * w % m) % m) ((m - 5) / 8) % m
    let root : Option Nat :=
      if w * (c * c % m) % m = u then some c
      else if (w * (c * c % m) + u) % m = 0 then some (c * powMod m 253 2 ((m - 1) / 4) % m)
      else none
    match root with
    | none => none
    | some x =>
      if x = 0 && sign = 1 then none
      else
        let x := if x % 2 = sign then x else m - x
        some ⟨x, y, 1, x * y % m⟩

/-- The base point. -/
def edBase : EdPoint :=
  (edDecode (le 32 (4 * powMod edP 255 5 (edP - 2) % edP))).getD edZero

/-- A public key that R215 accepts: it decodes, to a point that is not of small order. -/
def edKeyOk (key : List Byte) : Bool :=
  match edDecode key with
  | some a => !edEq (edMul 4 8 a) edZero
  | none => false

/-- Verification with the cofactored equation (R215). -/
def ed25519Verify (key m sig : List Byte) : Bool :=
  let rb := sig.take 32
  let s := fromLe (sig.drop 32)
  match edDecode key, edDecode rb with
  | some a, some r =>
    if sig.length ≠ 64 || edL ≤ s then false
    else
      let k := fromLe (sha512 (rb ++ key ++ m)) % edL
      edEq (edMul 4 8 (edMul 253 s edBase)) (edMul 4 8 (edAdd r (edMul 253 k a)))
  | _, _ => false

/-! ### AES-256-GCM -/

/-- Multiplication in the field of AES. -/
def gfMul (a b : Nat) : Nat :=
  ((List.range 8).foldl (fun (s : Nat × Nat) i =>
    ((if b.testBit i then s.1 ^^^ s.2 else s.1), (if s.2.testBit 7 then (s.2 * 2 % 256) ^^^ 0x1B else s.2 * 2))) (0, a)).1

/-- The S-box of FIPS 197, entry 0 in the lowest byte: thirty-two entries a number. -/
def aesBox : List Nat :=
  [0xC072A49CAFA2D4ADF04759FA7DC982CA76ABD7FE2B670130C56F6BF27B777C63,
    0x75B227EBE28012079A059618C323C7041531D871F1E5A534CCF73F362693FDB7,
    0xCF584C4A39BECB6A5BB1FC20ED00D153842FE329B3D63B52A05A6E1B1A2C8309,
    0xD2F3FF1021DAB6BCF5389D928F40A351A89F3C507F02F94585334D43FBAAEFD0,
    0xDB0B5EDE14B8EE4688902A22DC4F816073195D643D7EA7C41744975FEC130CCD,
    0x08AE7A65EAF4566CA94ED58D6D37C8E779E4959162ACD3C25C2406490A3A32E0,
    0x9E1DC186B95735610EF6034866B53E708A8BBD4B1F74DDE8C6B4A61C2E2578BA,
    0x16BB54B00F2D99416842E6BF0D89A18CDF2855CEE9871E9B948ED9691198F8E1]

/-- The S-box. -/
def sub8 (a : Nat) : Nat := (aesBox[a / 32]?).getD 0 / 2 ^ (8 * (a % 32)) % 256

/-- The key schedule of AES-256: sixty words of four bytes. `n` words are still to be made. -/
def aesExpand : Nat → Nat → Nat → List (List Nat) → List (List Nat)
  | 0, _, _, w => w
  | n + 1, i, rc, w =>
    let prev := (w[i - 1]?).getD []
    let back := (w[i - 8]?).getD []
    let t := if i % 8 = 0 then
        match (prev.drop 1 ++ prev.take 1).map sub8 with
        | x :: r => (x ^^^ rc) :: r
        | [] => []
      else if i % 8 = 4 then prev.map sub8 else prev
    aesExpand n (i + 1) (if i % 8 = 0 then gfMul rc 2 else rc) (w ++ [(back.zip t).map fun x => x.1 ^^^ x.2])

/-- Round keys of sixteen bytes. -/
def aesKeys (key : List Byte) : List (List Nat) :=
  let w := aesExpand 52 8 1 (chunks 4 8 (key.map BitVec.toNat))
  (chunks 4 15 w).map fun r => r.flatMap id

def xorL (a b : List Nat) : List Nat := (a.zip b).map fun x => x.1 ^^^ x.2

/-- ShiftRows on sixteen bytes in column order. -/
def aesShift (s : List Nat) : List Nat := (List.range 16).map fun i => (s[(i + 4 * (i % 4)) % 16]?).getD 0

/-- MixColumns. -/
def aesMix (s : List Nat) : List Nat :=
  (List.range 16).map fun i =>
    let g (k : Nat) : Nat := (s[i / 4 * 4 + (i + k) % 4]?).getD 0
    gfMul (g 0) 2 ^^^ gfMul (g 1) 3 ^^^ g 2 ^^^ g 3

/-- One block. -/
def aesBlock (keys : List (List Nat)) (b : List Nat) : List Nat :=
  let k (i : Nat) : List Nat := (keys[i]?).getD []
  let s := (List.range 13).foldl (fun s i => xorL (aesMix (aesShift (s.map sub8))) (k (i + 1))) (xorL b (k 0))
  xorL (aesShift (s.map sub8)) (k 14)

/-- Multiplication in the field of GCM, bit 127 of a number being the first bit of the block. -/
def ghMul (x y : Nat) : Nat :=
  ((List.range 128).foldl (fun (s : Nat × Nat) i =>
    ((if x.testBit (127 - i) then s.1 ^^^ s.2 else s.1),
      (if s.2 % 2 = 1 then (s.2 / 2) ^^^ (0xE1 * 2 ^ 120) else s.2 / 2))) (0, y)).1

/-- Zero bytes to a multiple of sixteen. -/
def pad16 (l : List Byte) : List Byte := l ++ List.replicate ((16 - l.length % 16) % 16) 0

/-- AES-256-GCM decryption with a nonce of 12 bytes and a tag of 16; none where the tag fails. -/
def gcmOpen (key nonce aad ct tag : List Byte) : Option (List Byte) :=
  let ks := aesKeys key
  let enc (b : List Byte) : List Byte := (aesBlock ks (b.map BitVec.toNat)).map fun v => BitVec.ofNat 8 v
  let h := fromBe (enc (List.replicate 16 0))
  let data := pad16 aad ++ pad16 ct ++ be 8 (8 * aad.length) ++ be 8 (8 * ct.length)
  let s := (chunks 16 (data.length / 16) data).foldl (fun x b => ghMul (x ^^^ fromBe b) h) 0
  let full := be 16 (s ^^^ fromBe (enc (nonce ++ be 4 1)))
  if full = tag then
    let blocks := chunks 16 (ct.length / 16 + 1) ct
    some ((List.range blocks.length).flatMap fun i =>
      (((blocks[i]?).getD []).zip (enc (nonce ++ be 4 (i + 2)))).map fun x => x.1 ^^^ x.2)
  else none

end Sys2Proof.Machine
end

