-- ==== Sys2Proof/Machine/TimeOps.lean ====
section
/-! DEFINITION. Reading time: own time, pairs, presentation time, full and short time, and the CLK_TIME cycle (R307 to R311,
R317, R318). -/

namespace Sys2Proof.Machine

/-- One nanosecond in the units in which a time base is held. -/
def nsUnit : Nat := 2 ^ 32

/-- Own time wraps at 2^48 s (R307). -/
def tbModulus : Nat := 2 ^ 48 * 10 ^ 9 * 2 ^ 32

/-- Time base `t`. -/
def Dev.tb (d : Dev) (t : Nat) : TbSt := (d.time.tb[t]?).getD TbSt.zero

/-- The device with time base `t` replaced. -/
def Dev.setTb (d : Dev) (t : Nat) (b : TbSt) : Dev := { d with time := { d.time with tb := d.time.tb.set t b } }

/-- Own time of base `t`, in units of 2^-32 ns. -/
def Dev.own (d : Dev) (t : Nat) : Nat := (d.tb t).own

/-- Pair `q`'s slew remainder. -/
def Dev.pairD (d : Dev) (q : Nat) : Int := ((d.time.pair[q]?).getD { dRem := 0, slewAt := 0 }).dRem

/-- Pair `q` is in operation (R317). -/
def Dev.pairOn (d : Dev) (q : Nat) : Bool := d.flag (Reg.TIME_PAIR_CFG.EN q) && !d.flag (Reg.TIME_PAIR_STATUS.CFG_ERR q)

/-- Base `t` is PRIMARY or SECONDARY of pair `q`. -/
def Dev.inPair (d : Dev) (q t : Nat) : Bool :=
  d.rd (Reg.TIME_PAIR_CFG.PRIMARY q) == t || d.rd (Reg.TIME_PAIR_CFG.SECONDARY q) == t

/-- The pair in operation that base `t` is a member of. -/
def Dev.pairOf (d : Dev) (t : Nat) : Option Nat := [0, 1, 2, 3].find? fun q => d.pairOn q && d.inPair q t

/-- The base pair `q` follows: PRIMARY or SECONDARY (R318). -/
def Dev.pairSource (d : Dev) (q : Nat) : Nat :=
  if d.flag (Reg.TIME_PAIR_STATUS.SOURCE q) then d.rd (Reg.TIME_PAIR_CFG.SECONDARY q) else d.rd (Reg.TIME_PAIR_CFG.PRIMARY q)

/-- The other member of pair `q`. -/
def Dev.pairOther (d : Dev) (q : Nat) : Nat :=
  if d.flag (Reg.TIME_PAIR_STATUS.SOURCE q) then d.rd (Reg.TIME_PAIR_CFG.PRIMARY q) else d.rd (Reg.TIME_PAIR_CFG.SECONDARY q)

/-- Presentation time of base `t` (R318): its own time, or for a member of a pair the source's own time less D. -/
def Dev.pres (d : Dev) (t : Nat) : Nat :=
  match d.pairOf t with
  | none => d.own t
  | some q => (((d.own (d.pairSource q) : Int) - d.pairD q) % (tbModulus : Int)).toNat

/-- Whole nanoseconds of a time. -/
def tNsTotal (u : Nat) : Nat := u / nsUnit

/-- Seconds of a time. -/
def tSec (u : Nat) : Nat := u / nsUnit / 10 ^ 9

/-- Nanoseconds of a time, below 10^9. -/
def tNs (u : Nat) : Nat := u / nsUnit % 10 ^ 9

/-- The visible sub-nanosecond fraction (R307). -/
def tFrac (u : Nat) : Nat := u % nsUnit / 2 ^ 16

/-- Presentation time of base `t` in whole ns. -/
def Dev.presNs (d : Dev) (t : Nat) : Nat := tNsTotal (d.pres t)

/-- Short time of R309. -/
def shortTime (u : Nat) : Nat := tNsTotal u % 2 ^ 32

/-- The signed difference of two short times (R309). -/
def shortDiff (a b : Nat) : Int := toSigned 32 ((a + 2 ^ 32 - b % 2 ^ 32) % 2 ^ 32)

/-- The time base of port `n` (R311). -/
def Dev.portTb (d : Dev) (n : Nat) : Nat := d.rd (Reg.TIME_PORT_TB.TB n)

/-- Base `t` is synchronised (R314): LOCKED or HOLDOVER, for a member of a pair the pair's source. -/
def Dev.tbSync (d : Dev) (t : Nat) : Bool :=
  match d.pairOf t with
  | none => d.flag (Reg.TIME_TB_STATUS.SYNC t)
  | some q => d.flag (Reg.TIME_TB_STATUS.SYNC (d.pairSource q))

/-- One CLK_TIME cycle of base `t`: 1 ns plus FREQ (R307). -/
def Dev.advanceTb (d : Dev) (t : Nat) : Dev :=
  let b := d.tb t
  d.setTb t { b with own := ((((b.own : Int) + nsUnit + d.rdS (Reg.TIME_TB_FREQ.VALUE t)) % (tbModulus : Int))).toNat }

/-- One CLK_TIME cycle (R307, R308): the model's ns count, every base, and the seconds of TB0 on VDD_AON. With the clocks
stopped the bases stand. -/
def Dev.tick (d : Dev) : Dev :=
  let d := { d with now := d.now + 1 }
  if d.hold.live then
    let d := [0, 1, 2, 3, 4, 5, 6, 7].foldl Dev.advanceTb d
    { d with boot := { d.boot with tb0Sec := tSec (d.own 0) } }
  else d

/-- PERIOD or WIDTH of an output pin out of range (R326). -/
def Dev.tioBad (d : Dev) (i : Nat) : Bool :=
  let per := d.rd (Reg.TIO_PERIOD.NS i)
  let wid := d.rd (Reg.TIO_WIDTH.NS i)
  (d.rd (Reg.TIO_CFG.MODE i) == 1 || d.rd (Reg.TIO_CFG.MODE i) == 2) &&
    (decide (per < 8) || decide (4000000000 < per) || decide (wid < 4) || decide (per ≤ wid))

/-- A 64-bit or 48-bit instant held in three registers (NS, SLO, SHI) as whole ns. -/
def instantNs (ns slo shi : Nat) : Nat := (shi % 2 ^ 16 * 2 ^ 32 + slo) * 10 ^ 9 + ns

/-- 6 bytes of seconds and 4 of ns (R347). -/
def instantData (ns : Nat) : List Byte := le 6 (ns / 10 ^ 9) ++ le 4 (ns % 10 ^ 9)

end Sys2Proof.Machine
end

