-- ==== Sys2Proof/Machine/Flags.lean ====
section
/-! DEFINITION. Register values that hardware computes from state held elsewhere: live counts and times that a read shows
(R15: an RO field returns the current value). -/

namespace Sys2Proof.Machine

/-- TIME_TB_SHI and TIME_TB_PSHI of a time: the sub-nanosecond fraction and seconds bits 47:32 (chapter 13). -/
def shiWord (u : Nat) : Nat := 2 ^ 16 * tFrac u + tSec u / 2 ^ 32 % 2 ^ 16

/-- The word a register shows, hardware's view: the stored word, with live fields in place. -/
def Dev.view (d : Dev) (a : Nat) : Word :=
  match findReg a with
  | none => 0
  | some (r, ix) =>
    let i := ix.headD 0
    let w := d.reg a
    match r.name with
    | "TIME_TB_NS" => BitVec.ofNat 32 (tNs (d.own i))
    | "TIME_TB_PNS" => BitVec.ofNat 32 (tNs (d.pres i))
    | "DEV_AMD_SEQ_LO" => BitVec.ofNat 32 d.boot.amdSeq
    | "TIO_CAP_NS" => BitVec.ofNat 32 (match tget d.time.tioFifo [] i with | e :: _ => tNs e.1 | [] => 0)
    | "TIO_STATUS" => fput (fput w 0 4 (tget d.time.tioFifo [] i).length) 28 1 (if d.tioBad i then 1 else 0)
    | "HOST_BEC_LO" => BitVec.ofNat 32 (tget d.host.bec 0 i)
    | "SUPV_PMC_LO" => BitVec.ofNat 32 (tget d.supv.pmc 0 (8 * i + (ix[1]?).getD 0))
    | _ => w

end Sys2Proof.Machine
end

