-- ==== Sys2Proof/Machine/Operands.lean ====
section
/-! DEFINITION. The forms in which a command reaches the device: how a command acts on the state, the masters of the register
bus with their privilege and path rules, the class of an access and the bus event counters, reads, and writes under access
type, privilege and range (R15 to R17, R26, R359, R360, R363, R377, R378, R424); and the index forms of ports. -/

namespace Sys2Proof.Machine

/-! ### A command and the queue -/

/-- The outcome of a command that acts whatever holds the device: the queue is not touched. -/
def State.always (s : State) (f : Dev → Dev) : Host.Outcome State Fault Refusal := .next { s with dev := f s.dev }

/-- The outcome of a command that needs running clocks and a core out of reset; otherwise nothing changes (log entry 7). -/
def State.on (s : State) (f : Dev → Dev) : Host.Outcome State Fault Refusal :=
  s.always fun d => if d.hold.live then f d else d

/-! ### Ports (R7, R21, R27) -/

/-- The pipeline of a port: ports 256 to 258 belong to P0 (R23). -/
def pipeOf (n : Nat) : Nat := if n < 256 then n / 64 else 0

/-- Index i of a port within its pipeline: 64p + i, and 64 to 66 for ports 256 to 258 of P0. -/
def portIdx (n : Nat) : Nat := if n < 256 then n % 64 else n - 192

/-- The port of pipeline `p`, index `i`. -/
def portOf (p i : Nat) : Nat := if i < 64 then 64 * p + i else 192 + i

/-- The group of a port; the management attachment shares G0 (R23). -/
def groupOf (n : Nat) : Nat := if n < 256 then n / 4 else 0

/-- The pipeline of a group. -/
def pipeOfGroup (g : Nat) : Nat := g / 16

/-- Ports that MODE configures in a front group, as first lanes (R7, R69). -/
def modeLanes (mode : Nat) : List Nat :=
  if [1, 2, 3, 4, 6].contains mode then [0, 1, 2, 3] else if [5, 7, 9].contains mode then [0, 2]
  else if [8, 10, 11].contains mode then [0] else []

/-- The ports of a mask of nine words, as bits (R8). -/
def maskBits (w : Nat → Nat) : Nat := (List.range 9).foldl (fun m k => m + w k * 2 ^ (32 * k)) 0 % 2 ^ 259

/-! ### Masters (R360) -/

/-- Privilege of a master at this moment (R360). -/
def Dev.privileged (d : Dev) (m : Nat) : Bool :=
  m == 0x10 || m == 0x11 || m == 0x1F || (m == 0x20 && d.flag Reg.HOST_DBG_CTRL.UNLOCKED)

/-- Bit of MASTER_MASK of a master (R378). -/
def masterBit (m : Nat) : Nat :=
  match m with
  | 0x01 => 0 | 0x10 => 1 | 0x11 => 2 | 0x1F => 3 | 0x20 => 4 | _ => 5

/-- Senders of mailbox `mb` (R364). -/
def mbSenders (mb : Nat) : List Nat :=
  if mb < 4 then [0x01] else if mb < 8 then [0x10, 0x11] else if mb < 10 then [0x10] else if mb < 12 then [0x11]
  else if mb < 14 then [0x20] else [0x10, 0x11]

/-- Receivers of mailbox `mb` (R364). -/
def mbReceivers (mb : Nat) : List Nat :=
  if mb < 4 then [0x10, 0x11] else if mb < 8 then [0x01] else if mb < 10 then [0x11] else if mb < 12 then [0x10]
  else if mb < 14 then [0x10, 0x11] else [0x20]

/-- The access breaks a path rule (R360): the registers it names, with the masters each accepts. -/
def Dev.pathBroken (d : Dev) (m a : Nat) (write : Bool) (v : Nat) : Bool :=
  match findReg a with
  | none => false
  | some (r, ix) =>
    let i := ix.headD 0
    match r.name with
    | "SEAL_KEY_MAT" => write && m != 0x1F
    | "SUPV_HB" => write && m != supMaster i
    | "SUPV_LOG_PUT" => write && m != supMaster i
    | "SUPV_LOG_CFG" => write && v.testBit 31 && d.activeSup.map supMaster != some m
    | "HOST_DBG_CTRL" => m != 0x20
    | "HOST_DBG_CHAL" => m != 0x20
    | "HOST_DBG_RESP" => m != 0x20
    | "HOST_MB_SUBMIT" => !write && m != 0x01
    | "HOST_MB_BUF" =>
      if write then !(mbSenders i).contains m || m == 0x01
      else !((mbSenders i).contains m || (mbReceivers i).contains m) || m == 0x01
    | "HOST_MB_CTRL" =>
      write && ((v.testBit 30 && (!(mbSenders i).contains m || m == 0x01)) || (v.testBit 29 && !(mbReceivers i).contains m))
    | _ => false

/-- The classes of R377. -/
inductive AccessClass where
  | error | reserved | denied | read | write
  deriving DecidableEq, Repr

/-- Bit of HOST_BEC_CFG.CLASS of a class. -/
def AccessClass.bit : AccessClass → Nat
  | .read => 0 | .write => 1 | .denied => 2 | .reserved => 3 | .error => 4

/-- A write or POST by the sender to a FULL mailbox (R365, R377). -/
def Dev.fullMailbox (d : Dev) (m a : Nat) (v : Nat) : Bool :=
  match findReg a with
  | none => false
  | some (r, ix) =>
    let i := ix.headD 0
    (mbSenders i).contains m && m != 0x01 && d.flag (Reg.HOST_MB_CTRL.FULL i) &&
      (r.name == "HOST_MB_BUF" || (r.name == "HOST_MB_CTRL" && v.testBit 30))

/-- The class of an access (R377), in the order of the table. -/
def Dev.classify (d : Dev) (m a : Nat) (write : Bool) (v byteEn : Nat) : AccessClass :=
  if a % 4 ≠ 0 || (write && byteEn ≠ 15) || (write && d.fullMailbox m a v) then .error
  else
    match findReg a with
    | none => .reserved
    | some (r, _) =>
      if ((r.fields.any fun f => f.priv) && !d.privileged m) || d.pathBroken m a write v then .denied
      else if write then .write else .read

/-- The privilege test of HOST_BEC_CFG.PRIV (R378). -/
def privPasses (sel : Nat) (p : Bool) : Bool :=
  match sel with
  | 1 => p
  | 2 => !p
  | _ => true

/-- Bus event counter `k` counts an access where every condition of R378 holds; a wrap sets OVF and interrupt source
BEC_OVF. -/
def Dev.becOne (d : Dev) (m a : Nat) (c : AccessClass) (k : Nat) : Dev :=
  if d.flag (Reg.HOST_BEC_CFG.EN k) && d.bitOf (Reg.HOST_BEC_CFG.MASTER_MASK k) (masterBit m) &&
      privPasses (d.rd (Reg.HOST_BEC_CFG.PRIV k)) (d.privileged m) &&
      decide (d.rd (Reg.HOST_BEC_BASE.ADDR k) ≤ a) && decide (a ≤ d.rd (Reg.HOST_BEC_LIMIT.ADDR k)) &&
      d.bitOf (Reg.HOST_BEC_CFG.CLASS k) c.bit then
    let v := tget d.host.bec 0 k + 1
    let d := { d with host := { d.host with bec := tput d.host.bec 0 k (v % 2 ^ 48) } }
    if v < 2 ^ 48 then d else (d.setFlag (Reg.HOST_BEC_HI.OVF k) true).irq 6
  else d

/-- Every bus event counter looks at an access (R378). -/
def Dev.becCount (d : Dev) (m a : Nat) (c : AccessClass) : Dev :=
  (List.range 16).foldl (fun d k => d.becOne m a c k) d

/-! ### Reads (R15, R16, R26) -/

/-- What master `m` reads at `a` where the register shows `w`: WO fields and fields of other privilege zero, a broken path or an
unaligned address zero. -/
def Dev.readWord (d : Dev) (m a : Nat) (w : Word) : Nat :=
  if a % 4 ≠ 0 || d.pathBroken m a false 0 then 0
  else
    match findReg a with
    | none => 0
    | some (r, _) =>
      let p := d.privileged m
      (r.fields.foldl (fun (acc : Word) f =>
        if f.acc = .wo || (f.priv && !p) then acc else fput acc f.lo f.width (fget w f.lo f.width)) 0).toNat

/-- What master `m` reads at `a`, with the live fields of `Dev.view` in place. -/
def Dev.readValue (d : Dev) (m a : Nat) : Nat := d.readWord m a (d.view a)

/-- An access of this master reaches the register bus: the host's only over a PCI Express link that is up (R356). -/
def Dev.reaches (d : Dev) (m : Nat) : Bool := m != 0x01 || d.host.pcieLink

/-- A read access to a register that shows `w`: classed, counted, and completed towards the master. -/
def Dev.busReadW (d : Dev) (m a : Nat) (w : Word) : Dev :=
  if d.reaches m then
    let v := d.readWord m a w
    (d.becCount m a (d.classify m a false 0 15)).out (.completion m a v)
  else d

/-- A read access, with the live fields of `Dev.view` in place. -/
def Dev.busRead (d : Dev) (m a : Nat) : Dev := d.busReadW m a (d.view a)

/-! ### Writes (R15, R16, R424, R363) -/

/-- A value brought into a field's range (R424). -/
def clampRng (r : Rng) (v : Nat) : Nat :=
  match r with
  | .any => v
  | .within lo hi => if v < lo then lo else if hi < v then hi else v
  | .zeroOr lo hi => if v = 0 then 0 else if v < lo then lo else if hi < v then hi else v

/-- One field of a written register. `old` and `w` are the register before and as built so far, `v` the value written, `hw`
the bits hardware sets in the same cycle, which win over a clear (R363). W1S fields have rows of their own. -/
def writeField (p : Bool) (old v hw : Word) (f : RField) (w : Word) : Word :=
  let x := fget v f.lo f.width
  let o := fget old f.lo f.width
  let h := fget hw f.lo f.width
  if f.priv && !p then fput w f.lo f.width (if f.acc = .w1c then o ||| h else o)
  else
    match f.acc with
    | .rw => fput w f.lo f.width (clampRng f.rng x)
    | .wo => fput w f.lo f.width x
    | .w1c => fput w f.lo f.width ((o &&& (x ^^^ (2 ^ f.width - 1))) ||| h)
    | .cnt => fput w f.lo f.width (if h = 0 then 0 else 1)
    | .ro => w
    | .w1s => w

/-- A register written with value `v` by a master of privilege `p`. -/
def writeWord (p : Bool) (r : RDecl) (old v hw : Word) : Word :=
  r.fields.foldl (fun w f => writeField p old v hw f w) old

/-- Some RW field of the written value is out of its range (R424). -/
def clamped (r : RDecl) (v : Word) : Bool :=
  r.fields.any fun f => f.acc = .rw && clampRng f.rng (fget v f.lo f.width) ≠ fget v f.lo f.width

/-- The port a PORT zone address belongs to: its block within the group's unit (R27). -/
def portOfAddr (a : Nat) : Option Nat :=
  if 0x01000000 ≤ a ∧ a < 0x01420000 ∧ 0x4000 ≤ a % 0x10000 ∧ a % 0x10000 < 0x8000 then
    let g := (a - 0x01000000) / 0x10000
    let k := (a % 0x10000 - 0x4000) / 0x1000
    if g < 64 then some (4 * g + k) else if k = 0 then some (256 + (g - 64)) else none
  else none

/-- A write by a master with privilege `p`: the fields it may write, and in zone PORT the flag CFG_CLAMP (R424). -/
def Dev.writeReg (d : Dev) (p : Bool) (a : Nat) (v hw : Word) : Dev :=
  match findReg a with
  | none => d
  | some (r, _) =>
    let d := d.setReg a (writeWord p r (d.reg a) v hw)
    match portOfAddr a with
    | some n => if p && r.fields.any (fun f => f.acc = .rw) then d.setFlag (Reg.PORT_STATUS.CFG_CLAMP n) (clamped r v) else d
    | none => d

/-- A write access has an effect: its class is neither error nor reserved-access, and it breaks no path rule. -/
def Dev.writeActs (d : Dev) (m a v byteEn : Nat) : Bool :=
  let c := d.classify m a true v byteEn
  d.reaches m && c != .error && c != .reserved && !d.pathBroken m a true v

/-- The access part of a write row: classed and counted, and whether the write has an effect. -/
def Dev.busWrite (d : Dev) (m a v byteEn : Nat) : Dev × Bool :=
  (if d.reaches m then d.becCount m a (d.classify m a true v byteEn) else d, d.writeActs m a v byteEn)

end Sys2Proof.Machine
end

