-- ==== Sys2Proof/Machine/Log.lean ====
section
/-! DEFINITION. The log (R346 to R351): acceptance, the rings, submission by a supervisor, the overrun summary, persistence and
the log clear. -/

namespace Sys2Proof.Machine

/-- Bytes 0 to 59 of a record (R346). -/
def logBytes (seq boot sec ns : Nat) (sync : Bool) (r : LogRec) : List Byte :=
  le 4 seq ++ le 2 boot ++ le 2 r.typ ++ le 1 r.sev ++ le 1 r.origin ++ le 1 r.unit ++ le 1 0 ++ le 4 ns ++ le 6 sec ++
    le 2 ((if sync then 1 else 0) + (if r.summary then 2 else 0)) ++ slice r.data 0 36

/-- The record the writer makes of a submission (R346): SEQ, BOOT, presentation time of TB0, TIME_SYNC and CRC are its own. -/
def Dev.logEntry (d : Dev) (r : LogRec) : LogEnt :=
  let seq := d.rd Reg.SUPV_LOG_STATUS.NEXT_SEQ
  let t := d.pres 0
  let sync := d.flag (Reg.TIME_TB_STATUS.SYNC 0)
  let boot := d.boot.bootCount % 2 ^ 16
  { seq := seq, boot := boot, body := { r with data := slice r.data 0 36 }, sec := tSec t, ns := tNs t, sync := sync,
    crc := crc32 0xFFFFFFFF (logBytes seq boot (tSec t) (tNs t) sync r) }

/-- Position up to which NVM `nv` has been written: the next SEQ to persist (R350). -/
def Dev.persistPos (d : Dev) (nv : Nat) : Nat := (d.supv.mgmt.persist[nv]?).getD 0

/-- A record is due for NVM `nv` and not yet there (R350). -/
def Dev.unpersisted (d : Dev) (nv : Nat) (e : LogEnt) : Bool :=
  ((d.boot.nvm[nv]?).getD Nvm.empty).ok && decide (e.body.sev ≤ d.rd Reg.SUPV_LOG_CFG.PERSIST_SEV) &&
    decide (d.persistPos nv ≤ e.seq)

/-- Appends to a ring that holds `n` records, the oldest leaving (R348). -/
def ringPut (n : Nat) (ring : List LogEnt) (e : LogEnt) : List LogEnt :=
  if ring.length < n then ring ++ [e] else ring.drop (ring.length + 1 - n) ++ [e]

/-- Writes a record to both rings (R348). A record lost from the HBM ring before it was persisted is reported (R350). -/
def Dev.acceptLog (d : Dev) (r : LogRec) : Dev :=
  let e := d.logEntry r
  let lost := if d.supv.hbmRing.length < 16384 then none else d.supv.hbmRing.head?
  let d := d.wr Reg.SUPV_LOG_STATUS.NEXT_SEQ (e.seq + 1)
  let d := d.cnt .logRecords 0
  let d := { d with supv := { d.supv with
    flight := ringPut 1024 d.supv.flight e, hbmRing := ringPut 16384 d.supv.hbmRing e } }
  match lost with
  | some o =>
    if d.unpersisted 0 o || d.unpersisted 1 o then (d.cnt .logPersistLost 0).log 0xB031 0x20 (le 4 o.seq ++ le 4 1) else d
  | none => d

/-- LOG_ACCEPT (R348): the writer takes the oldest record of its queue. -/
def acceptNext (d : Dev) : Dev :=
  match d.supv.logQ with
  | [] => d
  | r :: q => ({ d with supv := { d.supv with logQ := q } }).acceptLog r

def execLogAccept (s : State) : Host.Outcome State Fault Refusal := s.on acceptNext

/-- The record a supervisor has staged (R349): TYPE, SEVERITY at most 7, UNIT, SUMMARY and DATA from the staged words. -/
def Dev.stagedRec (d : Dev) (sup : Nat) : LogRec :=
  let w := fun i => d.rd (Reg.SUPV_LOG_PUT.WORD sup i)
  { typ := w 1 / 2 ^ 16, sev := min 7 (w 2 % 2 ^ 8), origin := sup + 1, unit := w 2 / 2 ^ 16 % 2 ^ 8,
    summary := (w 5).testBit 17, data := (List.range 9).flatMap fun i => le 4 (w (6 + i)) }

/-- LOG_PUT_SUBMIT (R349): a write of SUPV_LOG_PUT word 15 submits the staged record. -/
def putSubmit (master sup value : Nat) (d : Dev) : Dev :=
  let a := Reg.SUPV_LOG_PUT.addr sup 15
  let (d, ok) := d.busWrite master a value 15
  if ok && decide (sup < 2) then
    let d := d.wr (Reg.SUPV_LOG_PUT.WORD sup 15) value
    d.submit (d.stagedRec sup)
  else d

def execLogPutSubmit (master sup value : Nat) (s : State) : Host.Outcome State Fault Refusal := s.on (putSubmit master sup value)

/-- LOG_OVERRUN_SUMMARY (R348): at most once per second in which records were discarded. -/
def overrunSummary (d : Dev) : Dev :=
  let due := match d.supv.lastSummary with
    | none => true
    | some t => decide (t + 10 ^ 9 ≤ d.now)
  if d.supv.lostRecs ≠ 0 && due then
    let n := d.supv.lostRecs
    let d := { d with supv := { d.supv with lostRecs := 0, lastSummary := some d.now } }
    d.submit ⟨0xB030, 3, 0, 0x20, true, le 4 n⟩
  else d

def execLogOverrunSummary (s : State) : Host.Outcome State Fault Refusal := s.on overrunSummary

/-- Appends a record to a log region (R350): 128 sectors of a header and 1,023 records; a full region loses its oldest
sector. -/
def appendLog (log : List LogSector) (e : LogEnt) : List LogSector :=
  let fresh := if log.length < 128 then log ++ [⟨log.length, (log.getLast?.map fun s => s.order + 1).getD 0, [e]⟩]
    else log.drop 1 ++ [⟨(log.head?.map fun s => s.sector).getD 0, (log.getLast?.map fun s => s.order + 1).getD 0, [e]⟩]
  match log.getLast? with
  | some s => if s.recs.length < 1023 then log.dropLast ++ [{ s with recs := s.recs ++ [e] }] else fresh
  | none => fresh

/-- The device with NVM `nv` replaced. -/
def Dev.setNvm (d : Dev) (nv : Nat) (n : Nvm) : Dev := { d with boot := { d.boot with nvm := d.boot.nvm.set nv n } }

/-- NVM `nv` (0 NVA, 1 NVB). -/
def Dev.nvm (d : Dev) (nv : Nat) : Nvm := (d.boot.nvm[nv]?).getD Nvm.empty

/-- LOG_PERSIST (R350): the ACTIVE supervisor copies the next record due to the log region of one NVM. -/
def persistOne (nv : Nat) (d : Dev) : Dev :=
  if d.supRunning then
    match d.supv.hbmRing.find? (d.unpersisted nv) with
    | none => d
    | some e =>
      let d := d.setNvm nv { d.nvm nv with log := appendLog (d.nvm nv).log e }
      { d with supv := { d.supv with mgmt := { d.supv.mgmt with persist := d.supv.mgmt.persist.set nv (e.seq + 1) } } }
  else d

def execLogPersist (nvm : Nat) (s : State) : Host.Outcome State Fault Refusal := s.on (persistOne nvm)

/-- The log clear (R351): both rings empty, every SUPV_ALM bit clear, and a 0xB032 record as the first record. -/
def Dev.clearLog (d : Dev) (requester : Nat) : Dev :=
  let d := d.setReg Reg.SUPV_ALM.addr 0
  let d := { d with supv := { d.supv with flight := [], hbmRing := [] } }
  d.acceptLog ⟨0xB032, 5, d.supOrigin, 0x20, false, le 1 requester⟩

/-- LOG_CLEAR_CMD (R351): CLEAR is accepted from the ACTIVE supervisor only; any other master breaks the path rule. -/
def clearCmd (master : Nat) (d : Dev) : Dev :=
  let (d, ok) := d.busWrite master Reg.SUPV_LOG_CFG.addr (2 ^ 31 + d.rd Reg.SUPV_LOG_CFG.PERSIST_SEV) 15
  if ok then d.clearLog master else d

def execLogClearCmd (master : Nat) (s : State) : Host.Outcome State Fault Refusal := s.on (clearCmd master)

end Sys2Proof.Machine
end

