-- ==== Sys2Proof/Machine/Tokens.lean ====
section
/-! DEFINITION. The token account of the power steward as its holders see it (R403, R404, R407): what each holder needs, its
request, whether it holds its tokens, and its return. The grants are in Machine/Power.lean. -/

namespace Sys2Proof.Machine

/-- Tokens a holder needs, as (rail, tokens): power domains 0 to 95 (R29), and 96 + p the spill burst of pipeline p (R404). -/
def holderNeeds (h : Nat) : List (Nat × Nat) :=
  if h < 64 then [(0, 2), (2, 2), (3, 1)]
  else if h < 68 then [(0, 70)]
  else if h < 78 then [(0, 8)]
  else if h < 80 then [(4, 6), (5, 4), (6, 1)]
  else if h < 84 then [(0, 6)]
  else if h < 88 then [(1, 6)]
  else if h < 92 then [(1, 3)]
  else if h < 94 then [(0, 4)]
  else if h = 94 then [(0, 2)]
  else if h = 95 then [(0, 4)]
  else [(0, 3), (4, 3), (5, 4)]

/-- Level of a holder (R404), but for a spare plane being switched in. -/
def holderLevel (h : Nat) : Nat :=
  if h < 64 then 2 else if 80 ≤ h ∧ h < 84 then 0 else if h = 92 ∨ h = 93 then 0 else if h < 96 then 1 else 3

/-- The grant a holder has and is not returning. -/
def Dev.hold_ (d : Dev) (h : Nat) : Option TokHold := d.power.holds.find? fun x => x.holder == h && x.fallEnd.isNone

/-- A holder has its tokens and is not returning them; its grant takes effect at the start of its ramp slot (R407). -/
def Dev.holdsTokens (d : Dev) (h : Nat) : Bool :=
  match d.hold_ h with
  | some x => decide (x.rampAt ≤ d.now)
  | none => false

/-- A holder asks for its tokens, unless it has them or waits already (R403). -/
def Dev.requestTokens (d : Dev) (h level : Nat) : Dev :=
  if (d.power.waiting.any fun r => r.holder == h) || (d.hold_ h).isSome then d
  else { d with power := { d.power with waiting := d.power.waiting ++ [⟨h, level, holderNeeds h, []⟩] } }

/-- Ramp time in ns of a set of tokens: k / 8 µs on the rail with most (R407). -/
def rampNs (t : List (Nat × Nat)) : Nat := 125 * t.foldl (fun a x => max a x.2) 0

/-- A holder withdraws its request, or returns its tokens, which become free when its fall ends (R407). -/
def Dev.releaseTokens (d : Dev) (h : Nat) : Dev :=
  let d := { d with power := { d.power with
    waiting := d.power.waiting.filter fun (r : TokReq) => r.holder != h,
    holds := d.power.holds.map fun (x : TokHold) =>
      if x.holder = h && x.fallEnd.isNone then { x with rampEnd := none, fallEnd := some (d.now + rampNs x.tokens) } else x } }
  if h < 96 && (d.power.holds.any fun x => x.holder == h) then d.wr (Reg.PWCK_DOM_STATUS.STATE h) 3 else d

end Sys2Proof.Machine
end

