-- ==== Sys2Proof/Machine/Path.lean ====
section
/-! DEFINITION. What every stage of a frame's journey shares (R30): ports and their modes, frames and copies, cell banks and
their counts with the pause they drive, staging credit, and the drop of a frame or a copy. -/

namespace Sys2Proof.Machine

/-! ### Ports and their modes (R7, R69 to R71, R76) -/

/-- The mode and FEC that an application of a module gave to a group, as 4 MODE + FEC + 1; 0 none (R102). -/
def Dev.modeOver (d : Dev) (g : Nat) : Nat := tget d.mods.appOf 0 g

/-- MODE in effect of port `n`: that of its group, of MG0 and MG1, in recovery 1000BASE-X for MG0 (R67, R76, R102); the supervisor
port has none. -/
def Dev.portMode (d : Dev) (n : Nat) : Nat :=
  if n < 256 then (match d.modeOver (n / 4) with | 0 => d.rd (Reg.PORT_GRP_MODE.MODE (n / 4)) | k + 1 => k / 4)
  else if n = 256 && d.boot.recovery then 1
  else if n < 258 then d.rd (Reg.PORT_GRP_MODE.MODE (0x40 + n - 256)) else 0

/-- FEC in effect of port `n`, before auto-negotiation resolves one (R70, R102). -/
def Dev.portFec (d : Dev) (n : Nat) : Nat :=
  if n = 256 && d.boot.recovery then 0
  else match (if n < 256 then d.modeOver (n / 4) else 0) with | 0 => d.rd (Reg.PORT_CFG.FEC n) | k + 1 => k % 4

/-- Port `n` is a configured port (R7). -/
def Dev.configured (d : Dev) (n : Nat) : Bool :=
  if n < 256 then (modeLanes (d.portMode n)).contains (n % 4) else decide (n < 259)

/-- Rate of a mode in Mb/s (R69). -/
def modeRate (m : Nat) : Nat :=
  match m with
  | 1 => 1000 | 2 => 10000 | 3 => 25000 | 4 => 50000 | 5 => 50000 | 6 => 100000 | 7 => 100000 | 8 => 100000
  | 9 => 200000 | 10 => 200000 | 11 => 400000 | _ => 0

/-- Rate of port `n` in Mb/s. -/
def Dev.portRate (d : Dev) (n : Nat) : Nat := modeRate (d.portMode n)

/-- Time in ns, rounded up, that `bytes` bytes take on port `n`'s wire. -/
def Dev.wireNs (d : Dev) (n bytes : Nat) : Nat :=
  let r := d.portRate n
  if r = 0 then 0 else (bytes * 8000 + r - 1) / r

/-- The FEC values a mode supports (R70). -/
def fecOk (mode fec : Nat) : Bool :=
  match mode with
  | 1 => fec == 0
  | 2 => decide (fec < 2)
  | 3 => decide (fec < 3)
  | 8 => fec == 0 || fec == 2 || fec == 3
  | m => decide (4 ≤ m) && decide (m ≤ 11) && fec == 3

/-- Auto-negotiation and training exist in a mode with a FEC (R71). -/
def pmdOk (mode fec : Nat) : Bool := mode != 5 && !(mode == 8 && fec == 3)

/-- The cage a port lies in, where one is configured (R93). -/
def Dev.cageOf (d : Dev) (n : Nat) : Option Nat :=
  if n < 256 then
    (List.range 64).find? fun c =>
      d.flag (Reg.MODL_CAGE_CFG.EN c) && d.rd (Reg.MODL_CAGE_CFG.GROUP c) == n / 4 &&
        decide (d.rd (Reg.MODL_CAGE_CFG.FIRST_LANE c) ≤ n % 4) &&
        decide (n % 4 < d.rd (Reg.MODL_CAGE_CFG.FIRST_LANE c) + [1, 2, 4].getD (d.rd (Reg.MODL_CAGE_CFG.WIDTH c)) 1)
  else none

def Dev.cage (d : Dev) (c : Nat) : CageSt := tget d.mods.cage CageSt.zero c

/-- The cage of a port keeps it disabled: a configuration error (R93), or no eligible application (R102). -/
def Dev.cageBad (d : Dev) (n : Nat) : Bool :=
  match d.cageOf n with
  | some c => d.flag (Reg.MODL_CAGE_STATUS.CFG_ERR c) || (d.cage c).noApp
  | none => false

/-- The configuration holds port `n` down (R69, R70, R76, R93, R102): a reserved MODE, a FEC, auto-negotiation or training that its
mode does not support, or its cage. In recovery MG0 runs whatever its registers hold (R67). -/
def Dev.portBad (d : Dev) (n : Nat) : Bool :=
  let m := d.portMode n
  let f := d.portFec n
  let an := d.flag (Reg.PORT_CFG.AN_EN n)
  let lt := d.flag (Reg.PORT_CFG.LT_EN n)
  if n < 256 then d.cageBad n || decide (11 < m) || (m != 0 && (!fecOk m f || ((an || lt) && !pmdOk m f) || (lt && m == 1)))
  else if n = 256 && d.boot.recovery then false
  else decide (3 < m) || (m != 0 && (!fecOk m f || (an && m != 1) || lt))

/-- The port is administratively enabled: ADMIN_EN, and for a pair port a pair without CFG_ERR (R188). Port 258 always is. -/
def Dev.adminUp (d : Dev) (n : Nat) : Bool :=
  n == 258 || (n == 256 && d.boot.recovery) || (d.flag (Reg.PORT_CFG.ADMIN_EN n) &&
    !(List.range 32).any fun r => d.flag (Reg.STRM_RN_PAIR_STATUS.CFG_ERR r) &&
      (d.tabF 0x5201 r 0 16 16 == n || d.tabF 0x5201 r 1 0 16 == n))

/-- Link up is declared. -/
def Dev.linkUp (d : Dev) (n : Nat) : Bool := n == 258 || d.flag (Reg.PORT_STATUS.LINK_UP n)

/-- Bit of an admission refusal of R90 steps 3b and 4: the port is being flushed, or its link is down outside Hold. -/
def Dev.downDrop (d : Dev) (n : Nat) : Bool :=
  n != 258 && (d.flag (Reg.PORT_STATUS.FLUSHING n) || (!d.linkUp n && !d.flag (Reg.PORT_STATUS.HOLD n)))

/-- STATE 0x8 of a cage: Quarantine (R103). -/
def cageQuarantine : Nat := 8

/-- Port `n` lies in a quarantined cage. -/
def Dev.quarantined (d : Dev) (n : Nat) : Bool :=
  match d.cageOf n with
  | some c => d.rd (Reg.MODL_CAGE_STATUS.STATE c) == cageQuarantine
  | none => false

/-! ### Ethernet frames -/

/-- A byte with its bits in reverse order. -/
def revByte (b : Byte) : Byte :=
  BitVec.ofNat 8 ((List.range 8).foldl (fun a i => a * 2 + (if b.toNat.testBit i then 1 else 0)) 0)

/-- A 32-bit number with its bits in reverse order. -/
def rev32 (v : Nat) : Nat := (List.range 32).foldl (fun a i => a * 2 + (if v.testBit i then 1 else 0)) 0

/-- The FCS of a frame without it, as its four bytes on the wire (IEEE 802.3 clause 3.2.9). -/
def fcsOf (l : List Byte) : List Byte := le 4 (rev32 (crc32 0xFFFFFFFF (l.map revByte)) ^^^ 0xFFFFFFFF)

/-- A frame with a new FCS in place of its last four bytes. -/
def refcs (l : List Byte) : List Byte := l.take (l.length - 4) ++ fcsOf (l.take (l.length - 4))

/-- The FCS of a frame is right. -/
def fcsGood (l : List Byte) : Bool := l.drop (l.length - 4) == fcsOf (l.take (l.length - 4))

/-- Cells of a frame of `l` bytes (R234). -/
def cellsOf (l : Nat) : Nat := if l ≤ 104 then 1 else 1 + (l - 104 + 119) / 120

/-- Frame bytes in cell `k` of a frame of `l` bytes. -/
def cellBytes (l k : Nat) : Nat := if k = 0 then min 104 l else min 120 (l - (104 + 120 * (k - 1)))

/-! ### Frames and copies -/

def Dev.frame (d : Dev) (i : Nat) : Option Frame := d.path.frames.find? fun f => f.id == i

def Dev.setFrame (d : Dev) (f : Frame) : Dev :=
  { d with path := { d.path with frames := d.path.frames.map fun (g : Frame) => if g.id = f.id then f else g } }

def Dev.delFrame (d : Dev) (i : Nat) : Dev :=
  { d with path := { d.path with frames := d.path.frames.filter fun (g : Frame) => g.id != i } }

def Dev.copy (d : Dev) (i : Nat) : Option Copy := d.path.copies.find? fun c => c.id == i

def Dev.setCopy (d : Dev) (c : Copy) : Dev :=
  { d with path := { d.path with copies := d.path.copies.map fun (g : Copy) => if g.id = c.id then c else g } }

def Dev.delCopy (d : Dev) (i : Nat) : Dev :=
  { d with path := { d.path with copies := d.path.copies.filter fun (g : Copy) => g.id != i } }

/-- Length of a frame (R11). -/
def Frame.len (f : Frame) : Nat := f.bytes.length

/-- Pipeline that received a frame. -/
def Frame.pipe (f : Frame) : Nat := pipeOf f.port

/-- Source list of a frame's copies: its ingress group, 64 for the management attachment (R257). -/
def Frame.src (f : Frame) : Nat := if f.port < 256 then f.port / 4 else 64

/-- Word `k` of the header vector (R135). -/
def Frame.hv (f : Frame) (k : Nat) : Nat := (f.px.hv[k]?).getD 0

/-- Bits `lo + wd - 1 : lo` of word `k` of the header vector. -/
def Frame.hvF (f : Frame) (k lo wd : Nat) : Nat := f.hv k / 2 ^ lo % 2 ^ wd

/-- Bit `b` of FLAGS (R135). -/
def Frame.flagBit (f : Frame) (b : Nat) : Bool := (f.hv 0).testBit b

/-- Destination address. -/
def Frame.da (f : Frame) : Nat := f.hv 6 * 2 ^ 16 + f.hvF 7 16 16

/-- Source address. -/
def Frame.sa (f : Frame) : Nat := f.hvF 7 0 16 * 2 ^ 32 + f.hv 8

/-- The group bit of a MAC address (bit 0 of its first byte). -/
def groupBit (mac : Nat) : Bool := mac.testBit 40

/-- Presentation time at `ago` ns before now as a port stamps it at ingress (R88, R311): RX_ADJ is subtracted. -/
def Dev.ingressStamp (d : Dev) (n ago : Nat) : Nat :=
  (((d.pres (d.portTb n) : Int) - ((ago : Int) + d.rdS (Reg.PORT_TS_ADJ.RX_ADJ n)) * nsUnit) % (tbModulus : Int)).toNat

/-- Presentation time now as a port stamps it at egress: TX_ADJ is added. -/
def Dev.egressStamp (d : Dev) (n : Nat) : Nat :=
  (((d.pres (d.portTb n) : Int) + d.rdS (Reg.PORT_TS_ADJ.TX_ADJ n) * nsUnit) % (tbModulus : Int)).toNat

/-- A frame that begins at MAC `mac` (0 express, 1 preemptable) of a port, its timestamp point `ago` ns ago. -/
def Dev.newFrame (d : Dev) (port mac ago : Nat) : Frame :=
  { id := d.path.nextFrame, port := port, mac := mac, bytes := [], ended := false, err := 0, ts := d.ingressStamp port ago,
    tsTb := d.portTb port,
    own := (List.range 8).map fun t => (((d.own t : Int) - ((ago : Int) + d.rdS (Reg.PORT_TS_ADJ.RX_ADJ port)) * nsUnit)
      % (tbModulus : Int)).toNat,
    stage := .receiving, ready := 0, px := Parse.zero, handoff := false, handle := none, cls := 0, de := false, whole := false,
    vid := 0, set := 0, mirrors := [], seqSrc := 0, seq := 0, pairSeq := [], ctx := none, ring := none, learn := none,
    node := none, cmd := false, ver := false, slot := 0, gen := 0, sealQ := 0, sealCtx := 0, order9 := 0, endNo := 0, blocks := [],
    cells := [], pend := true, kept := 0, full := false, refilled := false, inst := none }

/-- The frame that MAC `mac` of a port is receiving. -/
def Dev.openRx (d : Dev) (port mac : Nat) : Option Frame :=
  d.path.frames.find? fun f => f.port == port && f.mac == mac && !f.ended

/-- The frame being received on a MAC, begun now if there is none. -/
def Dev.rxFrame (d : Dev) (port mac ago : Nat) : Frame × Dev :=
  match d.openRx port mac with
  | some f => (f, d)
  | none =>
    let f := d.newFrame port mac ago
    (f, { d with path := { d.path with frames := d.path.frames ++ [f], nextFrame := d.path.nextFrame + 1 } })

/-- The copies of a frame. -/
def Dev.copiesOf (d : Dev) (i : Nat) : List Copy := d.path.copies.filter fun c => c.frame == i

/-- A frame leaves the device's lists once its reception has ended and no copy of it is left. -/
def Dev.reap (d : Dev) (i : Nat) : Dev :=
  match d.frame i with
  | some f => if f.ended && (f.stage = .gone || f.stage = .linked) && (d.copiesOf i).isEmpty then d.delFrame i else d
  | none => d

/-! ### Vector order (R110) -/

/-- The Beater still works on a frame, so later vectors of its MAC wait. -/
def Stage.parsing : Stage → Bool
  | .intake => true
  | .engine _ => true
  | .parked => true
  | _ => false

/-- Delivers the vectors of one MAC that no earlier frame holds back (R110). -/
def Dev.deliver (d : Dev) (port mac : Nat) : Dev :=
  let fs := d.path.frames
  { d with path := { d.path with frames := fs.map fun (f : Frame) =>
      if f.stage = .vector && f.port == port && f.mac == mac &&
          !(fs.any fun g => g.port == port && g.mac == mac && g.stage.parsing && decide (g.ready < f.ready)) then
        { f with stage := .identify }
      else f } }

/-! ### Cell banks (R234 to R238) -/

def Dev.bank (d : Dev) (p : Nat) : Bank := tget d.vat.bank Bank.zero p

def Dev.setBank (d : Dev) (p : Nat) (b : Bank) : Dev := { d with vat := { d.vat with bank := tput d.vat.bank Bank.zero p b } }

/-- A free list of `n` elements has an element. -/
def FreeList.has (f : FreeList) (n : Nat) : Bool := !f.pushed.isEmpty || decide (f.fresh < n)

/-- The head of a free list of `n` elements, and the list without it. -/
def FreeList.take (f : FreeList) (n : Nat) : Option (Nat × FreeList) :=
  match f.pushed with
  | x :: r => some (x, { f with pushed := r })
  | [] => if f.fresh < n then some (f.fresh, { f with fresh := f.fresh + 1 }) else none

/-- A returned element goes to the head. -/
def FreeList.put (f : FreeList) (x : Nat) : FreeList := { f with pushed := x :: f.pushed }

/-- The oldest entry of a ring of `n` (R247): those never taken stand before those returned. -/
def FreeList.ringTake (f : FreeList) (n : Nat) : Option (Nat × FreeList) :=
  if f.fresh < n then some (f.fresh, { f with fresh := f.fresh + 1 })
  else
    match f.pushed with
    | x :: r => some (x, { f with pushed := r })
    | [] => none

/-- An entry spills over into a ring. -/
def FreeList.ringPut (f : FreeList) (x : Nat) : FreeList := { f with pushed := f.pushed ++ [x] }

/-- Elements on a free list of `n`. -/
def FreeList.count (f : FreeList) (n : Nat) : Nat := f.pushed.length + (n - f.fresh)

/-- Rows of a sub-bank. -/
def subRows : Nat := 8192

/-- Cells of a bank. -/
def bankCells : Nat := 262144

/-- Link RAM entry of cell `k`. -/
def Bank.link (b : Bank) (k : Nat) : Link := tget b.links Link.zero k

def Bank.setLink (b : Bank) (k : Nat) (l : Link) : Bank := { b with links := tput b.links Link.zero k l }

/-- The next sub-bank in rotation that has a free cell and no rebuild running (R235, R240). -/
def Bank.nextSub (b : Bank) : Option Nat :=
  ((List.range 32).map fun i => (b.rot + i) % 32).find? fun s =>
    (tget b.sub FreeList.zero s).has subRows && (tget b.rebuild 0 s == 0)

/-- Free cells of a bank as BUFF_BANK_STATUS shows them. -/
def Bank.freeCells (b : Bank) : Nat := bankCells - b.used

/-- Puts a free cell onto the head of its own sub-bank's list. -/
def Bank.release (b : Bank) (k : Nat) : Bank :=
  let s := k % 32
  ({ b with sub := tput b.sub FreeList.zero s ((tget b.sub FreeList.zero s).put (k / 32)), used := b.used - 1 }).setLink k
    Link.zero

/-- Adds lost elements to one of the twelve locations of DEV_AUDIT_LOST (R382). -/
def Dev.auditLost (d : Dev) (loc n : Nat) : Dev :=
  if loc < 12 then d.wr (Reg.DEV_AUDIT_LOST.LOST loc) (d.rd (Reg.DEV_AUDIT_LOST.LOST loc) + n) else d

/-- A pointer check failure (R248): counted, latched in BUFF_PTR_ERR, alarm, log; the element is lost to its store. -/
def Dev.ptrFail (d : Dev) (store value : Nat) : Dev :=
  let d := d.cnt .pointerCheckEvents store
  let d := if d.flag Reg.BUFF_PTR_ERR.VALID then d
    else ((d.setFlag Reg.BUFF_PTR_ERR.VALID true).wr Reg.BUFF_PTR_ERR.STORE store).wr Reg.BUFF_PTR_ERR.VALUE value
  (d.alarm 0 2).log 0x7002 0x10 (d.regData Reg.BUFF_PTR_ERR.addr)

/-- A cell pointer passes the checks of R248: bits 31:25 and 6:0 zero, the cell not free. -/
def Bank.ptrOk (b : Bank) (ptr : Nat) : Bool :=
  ptr % 128 == 0 && decide (ptr / 128 < bankCells) && !(b.link (ptr / 128)).free

/-- Returns cell `k` by its pointer (R235), checked under R248; `flip` is an upset of the pointer. -/
def Dev.returnCell (d : Dev) (p k flip : Nat) : Dev :=
  let ptr := (128 * k) ^^^ flip
  let b := d.bank p
  if b.ptrOk ptr then d.setBank p (b.release (ptr / 128))
  else ((d.setBank p { b with lost := b.lost ++ [k] }).ptrFail p (ptr / 128 % 2 ^ 24)).auditLost p 1

/-! ### Pause toward the peer (R83) -/

/-- MODE of a port's pause as it acts (R76, R81): 0 OFF, 1 PAUSE, 2 PFC. -/
def Dev.pauseMode (d : Dev) (n : Nat) : Nat :=
  match d.rd (Reg.PORT_PAUSE_CFG.MODE n) with
  | 1 => if n < 258 then 1 else 0
  | 2 => if n < 256 then 2 else 0
  | _ => 0

def Dev.pauseSt (d : Dev) (n c : Nat) : PauseSt := tget d.ports.pause PauseSt.zero (8 * n + c)

def Dev.setPauseSt (d : Dev) (n c : Nat) (s : PauseSt) : Dev :=
  { d with ports := { d.ports with pause := tput d.ports.pause PauseSt.zero (8 * n + c) s } }

/-- IC of a pair (R250). -/
def Dev.ic (d : Dev) (n c : Nat) : Nat := tget d.vat.ic 0 (8 * n + c)

/-- EC of a pair (R250). -/
def Dev.ec (d : Dev) (p m c : Nat) : Nat := tget d.vat.ec 0 ((259 * p + m) * 8 + c)

def Dev.addEc (d : Dev) (p m c k : Nat) : Dev :=
  { d with vat := { d.vat with ec := tput d.vat.ec 0 ((259 * p + m) * 8 + c) (d.ec p m c + k) } }

def Dev.subEc (d : Dev) (p m c k : Nat) : Dev :=
  { d with vat := { d.vat with ec := tput d.vat.ec 0 ((259 * p + m) * 8 + c) (d.ec p m c - k) } }

def txPfcCtr (c : Nat) : Ctr :=
  match c with
  | 0 => .txPfcC0 | 1 => .txPfcC1 | 2 => .txPfcC2 | 3 => .txPfcC3 | 4 => .txPfcC4 | 5 => .txPfcC5 | 6 => .txPfcC6 | _ => .txPfcC7

/-- Sends one PFC frame that names `cs`, each with XOFF or XON, or one Annex 31B frame (R83). Bits of TX_XOFF follow: in PAUSE
mode all eight stand for the one state of the port. -/
def Dev.sendPause (d : Dev) (n mode : Nat) (cs : List Nat) (xoff : Bool) : Dev :=
  let q := if xoff then d.rd (Reg.PORT_PAUSE_CFG.QUANTA n) else 0
  if mode = 2 then
    let d := cs.foldl (fun d c =>
      let d := (d.cnt (txPfcCtr c) n).setBitOf (Reg.PORT_PAUSE_STAT.TX_XOFF n) c xoff
      d.setPauseSt n c { d.pauseSt n c with xoffAt := d.now }) d
    d.out (.pause n true (cs.map fun c => (c, q)))
  else
    let d := (d.cnt .txPause n).wr (Reg.PORT_PAUSE_STAT.TX_XOFF n) (if xoff then 255 else 0)
    let d := d.setPauseSt n 0 { d.pauseSt n 0 with xoffAt := d.now }
    d.out (.pause n false [(0, q)])

/-- A pair can send pause: HIGH above LOW (R83). -/
def Dev.pairPauses (d : Dev) (n c : Nat) : Bool :=
  decide (d.rd (Reg.PORT_PAUSE_LO.CELLS n c) < d.rd (Reg.PORT_PAUSE_HI.CELLS n c))

/-- The count of a pair is above HIGH. -/
def Dev.aboveHigh (d : Dev) (n c : Nat) : Bool := d.pairPauses n c && decide (d.rd (Reg.PORT_PAUSE_HI.CELLS n c) < d.ic n c)

/-- The count of a pair is above LOW. -/
def Dev.aboveLow (d : Dev) (n c : Nat) : Bool := d.pairPauses n c && decide (d.rd (Reg.PORT_PAUSE_LO.CELLS n c) < d.ic n c)

def classes : List Nat := [0, 1, 2, 3, 4, 5, 6, 7]

/-- Compares the pairs of a port with their watermarks and sends the transitions due (R83). -/
def Dev.evalPause (d : Dev) (n : Nat) : Dev :=
  if !(d.flag (Reg.PORT_PAUSE_CFG.TX_EN n) && d.linkUp n) then d
  else
    let x := Reg.PORT_PAUSE_STAT.TX_XOFF n
    match d.pauseMode n with
    | 1 =>
      if d.rd x = 0 then (if classes.any (d.aboveHigh n) then d.sendPause n 1 [] true else d)
      else if classes.any (d.aboveLow n) then d else d.sendPause n 1 [] false
    | 2 =>
      let on := classes.filter fun c => d.bitOf (Reg.PORT_PAUSE_CFG.PFC_CLASSES n) c
      let offs := on.filter fun c => !d.bitOf x c && d.aboveHigh n c
      let ons := on.filter fun c => d.bitOf x c && !d.aboveLow n c
      let d := if offs.isEmpty then d else d.sendPause n 2 offs true
      if ons.isEmpty then d else d.sendPause n 2 ons false
    | _ => d

/-- Charges `k` cells to IC. -/
def Dev.addIc (d : Dev) (n c k : Nat) : Dev :=
  if k = 0 then d else
  ({ d with vat := { d.vat with ic := tput d.vat.ic 0 (8 * n + c) (d.ic n c + k) } }).evalPause n

/-- Removes `k` cells from IC. -/
def Dev.subIc (d : Dev) (n c k : Nat) : Dev :=
  if k = 0 then d else
  ({ d with vat := { d.vat with ic := tput d.vat.ic 0 (8 * n + c) (d.ic n c - k) } }).evalPause n

/-! ### References, credit, drops -/

/-- Decrements REFCNT of a cell; at zero the cell is returned (R238). The second part says whether it was. A decrement of
zero changes nothing but refcnt_error; a cell in use then is lost (R382). -/
def Dev.unref (d : Dev) (p k flip : Nat) : Dev × Bool :=
  let b := d.bank p
  let l := b.link k
  if l.ref = 0 then
    let d := d.cnt .refcntError p
    (if l.free || b.lost.contains k then d
      else (d.setBank p { b with lost := b.lost ++ [k] }).auditLost p 1, false)
  else if l.ref = 1 then ((d.setBank p (b.setLink k { l with ref := 0 })).returnCell p k flip, true)
  else (d.setBank p (b.setLink k { l with ref := l.ref - 1 }), false)

/-- A copy releases its references (R238): every cell of the frame is decremented, IC falls by the cells that reach zero and
EC by all of them. `flip` is an upset of the first pointer as it is returned. -/
def Dev.releaseRefs (d : Dev) (c : Copy) (flip : Nat) : Dev :=
  match d.frame c.frame with
  | none => d
  | some f =>
    if c.read then d
    else
      let p := f.pipe
      let r := f.cells.foldl (fun (a : Dev × Nat × Nat) k =>
        let u := a.1.unref p k a.2.2
        (u.1, (if u.2 then a.2.1 + 1 else a.2.1), 0)) (d, 0, flip)
      let d := r.1.subEc p c.dst c.cls f.cells.length
      let d := if f.refilled then d else d.subIc f.port f.cls r.2.1
      d.setCopy { c with read := true }

/-- Egress group of a port: the management attachment shares G0 (R23). -/
def dstGroup (n : Nat) : Nat := if n < 256 then n / 4 else 0

/-- Credits go back to the issuing group (R274). -/
def Dev.returnCredit (d : Dev) (g n : Nat) : Dev :=
  if n = 0 then d else
  let d := d.wr (Reg.FABR_GRP_CREDIT.OUTSTANDING g) (d.rd (Reg.FABR_GRP_CREDIT.OUTSTANDING g) - n)
  { d with fab := { d.fab with back := tput d.fab.back 0 g (tget d.fab.back 0 g + n) } }

/-- Cells leave staging, and their credits return (R274). -/
def Dev.unstage (d : Dev) (g n : Nat) : Dev :=
  if n = 0 then d else
  (d.wr (Reg.FABR_GRP_CREDIT.STAGED g) (d.rd (Reg.FABR_GRP_CREDIT.STAGED g) - n)).returnCredit g n

/-- Block size of a spill Vat: 0 VAT_S, 1 VAT_M, 2 VAT_L (R241). -/
def vatBlock (v : Nat) : Nat :=
  match v with
  | 0 => 512 | 1 => 2048 | _ => 12800

/-- First byte of a Vat half within its stack, and its length (R241). -/
def Dev.vatRegion (d : Dev) (v : Nat) : Nat × Nat :=
  let m := 2 ^ 28
  let s := d.rd Reg.BUFF_VAT_CFG.S_SIZE
  let t := d.rd Reg.BUFF_VAT_CFG.M_SIZE
  match v with
  | 0 => (0, s * m)
  | 1 => (s * m, t * m)
  | _ => ((s + t) * m, 62 * m - (s + t) * m)

/-- Blocks of a Vat half. -/
def Dev.vatBlocks (d : Dev) (v : Nat) : Nat := (d.vatRegion v).2 / vatBlock v

/-- HBM address of a block. -/
def Dev.blockAddr (d : Dev) (b : Nat × Nat × Nat) : Nat := b.2.1 * 2 ^ 34 + (d.vatRegion b.1).1 + b.2.2 * vatBlock b.1

/-- A block address passes the checks of R248 for a Vat half. -/
def Dev.blockOk (d : Dev) (v s a : Nat) : Bool :=
  let r := d.vatRegion v
  let lo := s * 2 ^ 34 + r.1
  decide (v < 3) && decide (s < 2) && decide (lo ≤ a) && decide (a < lo + r.2) && a % 256 == 0 && (a - lo) % vatBlock v == 0 && decide ((a - lo) / vatBlock v < d.vatBlocks v)

def Dev.vatHalf (d : Dev) (v s : Nat) : FreeList := tget d.vat.half FreeList.zero (2 * v + s)

def Dev.setVatHalf (d : Dev) (v s : Nat) (f : FreeList) : Dev :=
  { d with vat := { d.vat with half := tput d.vat.half FreeList.zero (2 * v + s) f } }

/-- A spill Vat block returns to its half's list, its address checked (R242, R248); not to a failed stack (R255). -/
def Dev.returnBlock (d : Dev) (b : Nat × Nat × Nat) (flip : Nat) : Dev :=
  let (v, s, _) := b
  let a := d.blockAddr b ^^^ flip
  if d.flag (Reg.BUFF_HBM_STATUS.FAILED s) then d
  else if d.blockOk v s a then
    let i := (a - s * 2 ^ 34 - (d.vatRegion v).1) / vatBlock v
    (d.setVatHalf v s ((d.vatHalf v s).put i)).wr (Reg.BUFF_VAT_FREE.FREE v s) (d.rd (Reg.BUFF_VAT_FREE.FREE v s) + 1)
  else (d.ptrFail (4 + v) (a / 256 % 2 ^ 24)).auditLost (4 + 2 * v + s) 1

/-- The MAC's transmission of a copy ends: the MAC is free again. -/
def Dev.clearTx (d : Dev) (i : Nat) : Dev :=
  { d with egr := { d.egr with
      txEnd := (d.egr.tx.filter fun e => e.2 == i + 1).foldl (fun t e => tdel t e.1) d.egr.txEnd,
      tx := d.egr.tx.filter fun e => e.2 != i + 1 } }

/-! ### Source lists and refills (R246, R257) -/

/-- Pipeline of a copy's source list. -/
def Copy.pipe (c : Copy) : Nat := if c.src < 64 then c.src / 16 else 0

/-- Two copies stand in one source list. -/
def Copy.sameList (a b : Copy) : Bool := !a.out && !b.out && a.src == b.src && a.dst == b.dst && a.cls == b.cls

/-- Cells of a copy still to be sent. -/
def Dev.unsentCells (d : Dev) (c : Copy) : Nat :=
  match d.frame c.frame with
  | some f => f.cells.length - c.sent
  | none => 0

/-- The first spilled entry of each source list of a pipeline asks for its refill once fewer than REFILL_THRESH resident cells
lie ahead of it (R246). -/
def Dev.askRefills (d : Dev) (p : Nat) : Dev :=
  if d.path.copies.all fun c => c.spill ≠ .spilled || c.pipe != p then d
  else
    d.path.copies.foldl (fun d c =>
      let q := tget d.vat.refillQ [] p
      if c.pipe == p && c.spill = .spilled && !q.contains c.id then
        let ahead := d.path.copies.filter fun a => a.sameList c && decide (a.id < c.id)
        if (ahead.any fun a => a.spill = .spilled) then d
        else
          let n := ahead.foldl (fun n a => if a.spill = .refilling then n else n + d.unsentCells a) 0
          if n < d.rd (Reg.BUFF_CLASS_DEEP.REFILL_THRESH c.cls) then
            { d with vat := { d.vat with refillQ := tput d.vat.refillQ [] p (q ++ [c.id]) } }
          else d
      else d) d

/-- Removes a copy and all it holds: references, a block, queue places, credits of unsent cells and staging. -/
def Dev.removeCopy (d : Dev) (c : Copy) : Dev :=
  let d := d.releaseRefs c 0
  let d := match c.block with
    | some b => d.returnBlock b 0
    | none => d
  let p := c.pipe
  let d := { d with vat := { d.vat with
    spillQ := tput d.vat.spillQ [] p ((tget d.vat.spillQ [] p).filter fun i => i != c.id),
    refillQ := tput d.vat.refillQ [] p ((tget d.vat.refillQ [] p).filter fun i => i != c.id) } }
  let g := dstGroup c.dst
  let d := (d.returnCredit g c.held).unstage g c.staged
  (((d.clearTx c.id).delCopy c.id).reap c.frame).askRefills p

/-- A copy is dropped under a reason (R388): once transmission has begun its frame is ended with a stomped FCS (R79, R277). -/
def Dev.dropCopy (d : Dev) (c : Copy) (reason : Nat) : Dev :=
  let d := d.dropCount reason
  let d := match c.txAt with
    | some _ => (d.cnt .txStomped c.dst).out (.frame c.dst (c.wire.take (c.wire.length - 4) ++
        (c.wire.drop (c.wire.length - 4)).map fun b => b ^^^ 0xFF) false)
    | none => d
  d.removeCopy c

/-- Every copy that meets a condition is dropped under a reason. -/
def Dev.dropCopies (d : Dev) (reason : Nat) (p : Copy → Bool) : Dev :=
  (d.path.copies.filter p).foldl (fun d c => match d.copy c.id with
    | some c => d.dropCopy c reason
    | none => d) d

/-- Returns a pending chain at once (R237). -/
def Dev.returnChain (d : Dev) (f : Frame) : Dev :=
  if f.pend then f.cells.foldl (fun d k => d.returnCell f.pipe k 0) d else d

/-- Blocks return to a privileged Vat of `n` blocks with a cache of `size` entries: to the cache, or to the ring when it is
full (R247). A block is named by its offset / 256, so entries are multiples of 8. -/
def Priv.giveBack (v : Priv) (size : Nat) (bs : List Nat) : Priv :=
  bs.foldl (fun v b => if v.cache.length < size then { v with cache := v.cache ++ [b] } else { v with ring := v.ring.ringPut (b / 8) }) v

/-- The staging blocks of a frame return, and its queue's count falls (R227). -/
def Dev.returnStaging (d : Dev) (f : Frame) : Dev :=
  if f.blocks.isEmpty then d
  else
    let n := f.blocks.length
    let d := { d with vat := { d.vat with sealP := d.vat.sealP.giveBack 128 f.blocks } }
    let d := { d with deck := { d.deck with used := tput d.deck.used 0 f.sealQ (tget d.deck.used 0 f.sealQ - n) } }
    let d := d.wr Reg.BUFF_PRIV_FREE.SEAL_FREE (d.rd Reg.BUFF_PRIV_FREE.SEAL_FREE + n)
    d.wr Reg.SEAL_STATUS.BLOCKS_USED (d.rd Reg.SEAL_STATUS.BLOCKS_USED - n)

/-- A frame leaves its journey before step 11: its pending chain and staging blocks return, its engine and hand-off entry are
free, and vectors behind it may leave. Its reception, and a learn event or node request it holds, go on to frame end. -/
def Dev.endFrame (d : Dev) (f : Frame) : Dev :=
  let d := (d.returnChain f).returnStaging f
  let d := d.setFrame { f with stage := .gone, cells := [], blocks := [], handoff := false }
  let d := d.reap f.id
  d.deliver f.port f.mac

/-- A frame is dropped before step 11: one drop (R388). -/
def Dev.dropFrame (d : Dev) (f : Frame) (reason : Nat) : Dev := (d.dropCount reason).endFrame f

/-- A frame is consumed before step 11 (R387). -/
def Dev.consumeFrame (d : Dev) (f : Frame) : Dev := (d.cnt .framesConsumed 0).endFrame f

/-! ### Writing cells during reception (R237, R238, R252) -/

/-- The frame is a MAC control frame (R81). -/
def isControl (b : List Byte) : Bool := slice b 12 2 == [0x88, 0x08]

/-- Copies of a frame that have not released their references. -/
def Dev.holders (d : Dev) (i : Nat) : List Copy := (d.copiesOf i).filter fun c => !c.read

/-- Cells of a frame that have filled (R237): none of a runt, none of a control frame that its MAC consumes. -/
def Frame.cellsDue (f : Frame) : Nat :=
  if f.stage = .receiving && isControl f.bytes then 0
  else if f.ended then (if f.err = 1 then 0 else cellsOf f.len)
  else if f.len < 104 then 0 else 1 + (f.len - 104) / 120

/-- A frame whose filled cells go to the bank: not one that is gone, found the bank empty, or is in the Deckle. -/
def Frame.takesCells (f : Frame) : Bool :=
  !f.full && (match f.stage with
    | .gone => false
    | .staged => false
    | .verifying _ _ => false
    | .verified => false
    | _ => true)

/-- Filled cells of a frame not yet written. -/
def Frame.cellsWanted (f : Frame) : Nat := if f.takesCells then f.cellsDue - f.cells.length else 0

/-- Cells of a bank that an allocation can take: those of sub-banks under rebuild are not among them (R240). -/
def Bank.allocable (b : Bank) : Nat :=
  (List.range 32).foldl (fun n s =>
    if tget b.rebuild 0 s == 0 then n + (tget b.sub FreeList.zero s).count subRows else n) 0

/-- The rebuild of a sub-bank's free list begins (R240): the sub-bank leaves allocation. -/
def Dev.startRebuild (d : Dev) (p s : Nat) : Dev :=
  let b := d.bank p
  if tget b.rebuild 0 s != 0 then d
  else
    let d := d.setBank p { b with rebuild := tput b.rebuild 0 s (d.now + 1) }
    (d.cnt .listRebuild p).setFlag (Reg.BUFF_BANK_PEND.REBUILDING p) true

/-- Takes a cell, its index k = 32 row + sub-bank, from the next sub-bank in rotation (R235); a list whose head has its FREE bit
clear is broken and is rebuilt (R240). `fuel` bounds the sub-banks tried. -/
def Dev.allocCell (d : Dev) (p : Nat) : Nat → Option Nat × Dev
  | 0 => (none, d)
  | fuel + 1 =>
    let b := d.bank p
    match b.nextSub with
    | none => (none, d)
    | some s =>
      match (tget b.sub FreeList.zero s).take subRows with
      | none => (none, d)
      | some (row, fl) =>
        let k := 32 * row + s
        if (b.link k).free then
          (some k, d.setBank p (({ b with
            sub := tput b.sub FreeList.zero s fl, rot := (s + 1) % 32, used := b.used + 1 }).setLink k
              { next := 0, ref := 0, free := false, last := false }))
        else (d.startRebuild p s).allocCell p fuel

/-- The bank was found empty (R252): before step 11 the frame drops, after it the frame ends with the cells written. -/
def Dev.bankEmpty (d : Dev) (f : Frame) : Dev :=
  if f.stage = .linked then d.setFrame { f with full := true } else d.dropFrame f 0x21

/-- A cell of a frame is written and joins its chain. After step 11 it takes the copies that still hold references as REFCNT and
is charged; without one it is returned at once, which leaves nothing changed. -/
def Dev.writeCell (d : Dev) (f : Frame) (last : Bool) : Dev :=
  let p := f.pipe
  let hs := d.holders f.id
  if f.stage = .linked && hs.isEmpty then d.setFrame { f with full := true }
  else
    match d.allocCell p 33 with
    | (none, d) => d.bankEmpty f
    | (some k, d) =>
      let b := d.bank p
      let b := b.setLink k { next := 0, ref := if f.stage = .linked then hs.length else 0, free := false, last := last }
      let b := match f.cells.getLast? with
        | some j => b.setLink j { b.link j with next := k, last := false }
        | none => b
      let d := (d.setBank p b).setFrame { f with cells := f.cells ++ [k] }
      if f.stage = .linked then
        let d := hs.foldl (fun d c => d.addEc p c.dst c.cls 1) d
        if f.refilled then d else d.addIc f.port f.cls 1
      else d

/-- Writes the filled cells of a frame; `fuel` bounds them. -/
def Dev.fillCells (d : Dev) (i : Nat) : Nat → Dev
  | 0 => d
  | fuel + 1 =>
    match d.frame i with
    | none => d
    | some f =>
      if f.cellsWanted = 0 then d else (d.writeCell f (f.ended && f.cells.length + 1 == f.cellsDue)).fillCells i fuel

/-- Cells of the longest frame (R78). -/
def maxCells : Nat := 104

/-- Writes the filled cells of a frame in a cycle of its own; fewer free cells than it asks for are a contest (R256). -/
def Dev.storeCells (d : Dev) (i : Nat) : Dev :=
  match d.frame i with
  | none => d
  | some f =>
    let d := if (d.bank f.pipe).allocable < f.cellsWanted then d.cnt .lastElementContest f.pipe else d
    d.fillCells i maxCells

/-! ### Offering a frame to the spill engine (R243, R245) -/

/-- A stack of the HBM is in service. -/
def Dev.hbmUp (d : Dev) (s : Nat) : Bool := d.flag (Reg.BUFF_HBM_STATUS.TRAINED s) && !d.flag (Reg.BUFF_HBM_STATUS.FAILED s)

/-- A class acts as DEEP (R253). -/
def Dev.deepClass (d : Dev) (c : Nat) : Bool :=
  d.flag (Reg.BUFF_CLASS_CFG.MODE c) && !d.flag (Reg.BUFF_CLASS_CFG.DET c) && (d.hbmUp 0 || d.hbmUp 1)

/-- At frame end a linked frame with one copy, of which nothing has been sent, is queued for the spill engine of its pipeline
when R243 holds; a full queue or a missing grant defers it for good, and a missing grant is asked for. -/
def Dev.offerSpill (d : Dev) (i : Nat) : Dev :=
  match d.frame i, d.copiesOf i with
  | some f, [c] =>
    let p := f.pipe
    if f.ended && f.err == 0 && f.stage = .linked && d.deepClass c.cls && f.kept == 1 && !f.cmd && decide (c.dst < 256) && c.sent == 0 && !c.out &&
        decide (d.rd (Reg.BUFF_CLASS_CFG.SPILL_THRESH c.cls) < d.ec p c.dst c.cls) then
      let q := tget d.vat.spillQ [] p
      if d.holdsTokens (96 + p) && decide (q.length < 64) then
        let d := { d with vat := { d.vat with spillQ := tput d.vat.spillQ [] p (q ++ [c.id]) } }
        let d := d.returnCredit (dstGroup c.dst) c.held
        d.setCopy { c with spill := .queued, want := none, held := 0, granted := false }
      else (d.cnt .spillDeferred p).requestTokens (96 + p) 3
    else d
  | _, _ => d

/-- frames_in_flight (R387): frames and copies between their rx_frames count and their final count, from the occupancy of the
holding points: frames ended and not linked, copies, less linked or gone frames whose end has not been counted. -/
def Dev.inFlight (d : Dev) : Int :=
  let fs := d.path.frames
  ((fs.filter fun f => f.ended && f.stage ≠ .linked && f.stage ≠ .gone).length : Int) + d.path.copies.length -
    (fs.filter fun f => !f.ended && (f.stage = .linked || f.stage = .gone)).length

end Sys2Proof.Machine
end

