-- ==== Sys2Proof/Machine/Ports.lean ====
section
/-! DEFINITION. Lanes, PCS and MACs (chapter 03): link up and down, Hold and flush, reception at the MAC, pause, the watchdog,
preemption, auto-negotiation and training. -/

namespace Sys2Proof.Machine

def Dev.portSt (d : Dev) (n : Nat) : PortSt := tget d.ports.port PortSt.zero n

def Dev.setPortSt (d : Dev) (n : Nat) (s : PortSt) : Dev := { d with ports := { d.ports with port := tput d.ports.port PortSt.zero n s } }

/-- Lanes of a port by mode (R69). -/
def modeWidth (m : Nat) : Nat :=
  if [1, 2, 3, 4, 6].contains m then 1 else if [5, 7, 9].contains m then 2 else if [8, 10, 11].contains m then 4 else 0

/-- The lanes of port `n`, as (group unit, lane). -/
def Dev.lanesOf (d : Dev) (n : Nat) : List (Nat × Nat) :=
  if n < 256 then (List.range (modeWidth (d.portMode n))).map fun k => (n / 4, n % 4 + k) else []

/-! ### Learned entries at link down (R159) -/

/-- Starts the removal of learned entries that point to a port, in every pipeline: a pass starts if none is running. -/
def Dev.startRemoval (d : Dev) (n : Nat) : Dev :=
  [0, 1, 2, 3].foldl (fun d p =>
    let rem := tget d.look.removing 0 p ||| 2 ^ n
    let run := tget d.look.passing 0 p
    let d := { d with look := { d.look with
      removing := tput d.look.removing 0 p rem,
      passing := tput d.look.passing 0 p (if run = 0 then rem else run) } }
    d.setFlag (Reg.LKUP_TBL_STATUS.FLUSHING p) true) d

/-! ### End of a reception (R77 to R79, R87, R89) -/

/-- A learn event passes the limiter and goes to its own queue and onto the ring (R151). The bucket holds 1,024 events in
units of 10^-6 events. -/
def Dev.issueLearn (d : Dev) (p : Nat) (e : LearnEv) : Dev :=
  let b := tget d.look.rate Bucket.full p
  let k := max 1 (d.rd Reg.LKUP_RING_CFG.RATE_K)
  let used := max 0 (b.used - (k * (d.now - b.at_) : Nat))
  if used + 10 ^ 6 ≤ 1024 * 10 ^ 6 then
    let d := d.cnt .learnEvents p
    let q := tget d.look.learnQ [] p
    let d := { d with look := { d.look with
      rate := tput d.look.rate Bucket.full p ⟨used + 10 ^ 6, d.now⟩,
      learnQ := if q.length < 1024 then tput d.look.learnQ [] p (q ++ [e]) else d.look.learnQ,
      ring := d.look.ring ++ [(p, e)] } }
    if q.length < 1024 then d else d.cnt .learnDrop p
  else
    ({ d with look := { d.look with rate := tput d.look.rate Bucket.full p ⟨used, d.now⟩ } }).cnt .learnRateDrop p

/-- A frame ended without error: the learn event and the node request it holds go on (R150, R194). -/
def Dev.issueHeld (d : Dev) (f : Frame) : Dev :=
  let d := match f.learn with
    | some (fid, mac) => d.issueLearn f.pipe ⟨fid, mac, f.port⟩
    | none => d
  match f.node with
  | some r => { d with red := { d.red with reqs := d.red.reqs ++ [r] } }
  | none => d

/-- The drop reason's MAC counter (R78, R87). -/
def Dev.countRxErr (d : Dev) (n reason : Nat) : Dev :=
  match reason with
  | 1 => d.cnt .rxRunt n
  | 2 => d.cnt .rxFcsError n
  | 3 => d.cnt .rxOversize n
  | 4 => d.cnt .rxPreemptAssyError n
  | _ => d

/-- A frame ends, or is cut off, with an error (a drop reason) or without (0). The frame is counted here. Before it is linked
an error drops it as in store-and-forward (R79); while the Beater holds it the abort waits for a safe point, but ends a parked
frame at once (R131); after linking the error travels with its last cell. -/
def Dev.finishRx (d : Dev) (f : Frame) (err : Nat) : Dev :=
  let n := f.port
  let d := (d.cnt .rxFrames n).cntBy .rxOctets n f.len
  let d := if err = 0 then (d.cnt .rxFramesOk n).cntBy .rxOctetsOk n f.len else d.countRxErr n err
  let hv := f.px.hv.set 2 (f.hv 2 / 2 ^ 14 * 2 ^ 14 + f.len % 2 ^ 14)
  let px := { f.px with hv := if f.stage = .receiving || f.stage = .intake then f.px.hv else hv }
  let g := { f with ended := true, err := err, px := px, learn := none, node := none, endNo := d.path.nextEnd }
  let d := { d with path := { d.path with nextEnd := d.path.nextEnd + 1 } }
  let d := d.setFrame g
  let d := (if err = 0 then d.issueHeld f else d).storeCells f.id
  if err = 0 then (d.offerSpill f.id).reap f.id
  else
    match d.frame f.id with
    | none => d
    | some g =>
      match g.stage with
      | .linked => d.reap f.id
      | .gone => d.reap f.id
      | .intake => d
      | .engine _ => d
      | _ => d.dropFrame g err

/-- A reception on a MAC is cut off by link down (R89): a frame in reassembly is a reassembly error, one under 64 bytes a
runt, one the Beater holds a parse abort, any other an FCS error; one without a byte is no frame. -/
def Dev.cutRx (d : Dev) (n mac : Nat) : Dev :=
  match d.openRx n mac with
  | none => d
  | some f =>
    if f.bytes.isEmpty then d.delFrame f.id
    else
      let held := match f.stage with
        | .engine _ => true
        | .parked => true
        | .vector => true
        | _ => false
      let err := if mac = 1 then 4 else if f.len < 64 then 1 else if held then 5 else 2
      d.finishRx f err

/-! ### Link down, Hold, flush (R89 to R91) -/

/-- A copy is dropped without a stomped end on the wire: its link is down. -/
def Dev.cutCopies (d : Dev) (reason : Nat) (p : Copy → Bool) : Dev :=
  (d.path.copies.filter p).foldl (fun d c => match d.copy c.id with
    | some c => (d.dropCount reason).removeCopy c
    | none => d) d

/-- Received and sent pause state of a port clears, with any watchdog hold (R82, R83, R85). -/
def Dev.clearPause (d : Dev) (n : Nat) : Dev :=
  classes.foldl (fun d c => d.setPauseSt n c PauseSt.zero) (d.setReg (Reg.PORT_PAUSE_STAT.addr n) 0)

/-- What going down does whatever follows: LINK_UP clears, receptions are cut off, pause clears, preemption ends. -/
def Dev.linkFalls (d : Dev) (n : Nat) : Dev :=
  let d := if d.flag (Reg.PORT_STATUS.LINK_UP n) then (d.cnt .linkDownEvents n).setFlag (Reg.PORT_STATUS.LINK_UP n) false else d
  let d := d.clearPause n
  let d := (d.setFlag (Reg.PORT_STATUS.PREEMPT_ACTIVE n) false).wr (Reg.PORT_STATUS.VERIFY_STATUS n) 0
  let d := (d.setFlag (Reg.PORT_STATUS.AN_DONE n) false).setFlag (Reg.PORT_STATUS.LT_DONE n) false
  let d := (d.cutRx n 0).cutRx n 1
  let d := d.setPortSt n { d.portSt n with reasm := none, upPending := false }
  if d.flag (Reg.PORT_CFG.KEEP_LEARNED n) then d else d.startRemoval n

/-- Step 3b of R90: Hold ends with the link down and every frame for the port is flushed. -/
def Dev.flushPort (d : Dev) (n : Nat) : Dev :=
  let d := (d.setFlag (Reg.PORT_STATUS.HOLD n) false).setFlag (Reg.PORT_STATUS.FLUSHING n) true
  let d := d.setPortSt n { d.portSt n with holdEnd := none }
  d.cutCopies 0x41 fun c => c.dst == n

/-- Step 1 of R90. LINK_HOLD 0 goes straight to step 3b. -/
def Dev.enterHold (d : Dev) (n : Nat) : Dev :=
  let d := d.linkFalls n
  let d := d.cutCopies 0x41 fun c => c.dst == n && c.txAt.isSome
  let cmd := (d.path.frames.filter fun f => f.cmd).map fun (f : Frame) => f.id
  let d := d.cutCopies 0x41 fun c => c.dst == n && cmd.contains c.frame
  let hold := d.rd (Reg.PORT_LINK_TIMING.LINK_HOLD n)
  if hold = 0 then d.flushPort n
  else (d.setFlag (Reg.PORT_STATUS.HOLD n) true).setPortSt n { d.portSt n with holdEnd := some (d.now + hold * 1000) }

/-- LINK_DOWN (R89, R90): `cause` 0 PCS lock or alignment, 1 FEC, 2 local fault, 3 remote fault. -/
def linkDown (port cause : Nat) (d : Dev) : Dev :=
  let d := match cause with
    | 0 => (d.lanesOf port).foldl (fun (d : Dev) (l : Nat × Nat) => d.setBitOf (Reg.PORT_GRP_STATUS.CDR_LOCK l.1) l.2 false) d
    | 2 => d.setFlag (Reg.PORT_STATUS.LOCAL_FAULT port) true
    | 3 => d.setFlag (Reg.PORT_STATUS.REMOTE_FAULT port) true
    | _ => d
  if d.flag (Reg.PORT_STATUS.LINK_UP port) then d.enterHold port else d

def execLinkDown (port cause : Nat) (s : State) : Host.Outcome State Fault Refusal := s.on (linkDown port cause)

/-- The port's module, where its lanes lie in a cage, is READY (R93, R98). -/
def Dev.moduleReady (d : Dev) (n : Nat) : Bool :=
  match d.cageOf n with
  | some c => d.rd (Reg.MODL_CAGE_STATUS.STATE c) == 7
  | none => true

/-- Verification begins, or preemption is active without it (R86). -/
def Dev.startVerify (d : Dev) (n : Nat) : Dev :=
  if n < 256 && d.flag (Reg.PORT_PREEMPT_CFG.EN n) && d.linkUp n then
    if d.flag (Reg.PORT_PREEMPT_CFG.VERIFY_DIS n) then
      (d.wr (Reg.PORT_STATUS.VERIFY_STATUS n) 0).setFlag (Reg.PORT_STATUS.PREEMPT_ACTIVE n) true
    else
      let d := (d.wr (Reg.PORT_STATUS.VERIFY_STATUS n) 1).setFlag (Reg.PORT_STATUS.PREEMPT_ACTIVE n) false
      (d.setPortSt n { d.portSt n with verTries := 1, verAt := d.now }).out (.mpacket n false)
  else (d.wr (Reg.PORT_STATUS.VERIFY_STATUS n) 0).setFlag (Reg.PORT_STATUS.PREEMPT_ACTIVE n) false

/-- Link up takes effect: Hold clears and credit resumes (step 3a of R90), pause starts afresh (R83), verification begins. -/
def Dev.linkRises (d : Dev) (n : Nat) : Dev :=
  let d := (d.setFlag (Reg.PORT_STATUS.LINK_UP n) true).setFlag (Reg.PORT_STATUS.HOLD n) false
  let d := d.setPortSt n { d.portSt n with holdEnd := none, upPending := false }
  (d.startVerify n).evalPause n

/-- A port is in use: after forwarding release every port, in recovery MG0 alone (R67). -/
def Dev.serves (d : Dev) (n : Nat) : Bool := d.boot.released || (d.boot.recovery && n == 256)

/-- Every lane of a port has a transmit clock: its group's PLL is locked (R409, R411). -/
def Dev.clocked (d : Dev) (n : Nat) : Bool := (d.lanesOf n).all fun l => d.flag (Reg.PORT_GRP_STATUS.TX_PLL_LOCK l.1)

/-- LINK_UP (R89): no link-down condition has held for `clearFor` ns. A link up during a flush waits for its end (R90). -/
def linkUpDecl (port clearFor : Nat) (d : Dev) : Dev :=
  if d.serves port && d.configured port && port != 258 && d.portMode port != 0 && d.adminUp port && !d.portBad port &&
      d.moduleReady port && d.clocked port && !d.flag (Reg.PORT_STATUS.LINK_UP port) &&
      decide (d.rd (Reg.PORT_LINK_TIMING.LINK_UP_STABLE port) * 10 ^ 6 ≤ clearFor) then
    let d := (d.setFlag (Reg.PORT_STATUS.LOCAL_FAULT port) false).setFlag (Reg.PORT_STATUS.REMOTE_FAULT port) false
    let d := (d.lanesOf port).foldl (fun (d : Dev) (l : Nat × Nat) =>
      (d.setBitOf (Reg.PORT_GRP_STATUS.CDR_LOCK l.1) l.2 true).setBitOf (Reg.PORT_GRP_STATUS.SIG_DET l.1) l.2 true) d
    if d.flag (Reg.PORT_STATUS.FLUSHING port) then d.setPortSt port { d.portSt port with upPending := true }
    else d.linkRises port
  else d

def execLinkUp (port clearFor : Nat) (s : State) : Host.Outcome State Fault Refusal := s.on (linkUpDecl port clearFor)

/-- HOLD_EXPIRY (R90 step 3b). -/
def holdExpiry (port : Nat) (d : Dev) : Dev :=
  match (d.portSt port).holdEnd with
  | some t => if t ≤ d.now && d.flag (Reg.PORT_STATUS.HOLD port) then d.flushPort port else d
  | none => d

def execHoldExpiry (port : Nat) (s : State) : Host.Outcome State Fault Refusal := s.on (holdExpiry port)

/-- FLUSH_DONE (R90 step 4); a link up declared meanwhile takes effect. -/
def flushDone (port : Nat) (d : Dev) : Dev :=
  if d.flag (Reg.PORT_STATUS.FLUSHING port) then
    let d := d.setFlag (Reg.PORT_STATUS.FLUSHING port) false
    if (d.portSt port).upPending then d.linkRises port else d
  else d

def execFlushDone (port : Nat) (s : State) : Host.Outcome State Fault Refusal := s.on (flushDone port)

/-- What clearing ADMIN_EN does (R91): the link goes down, no Hold, and frames for the port go as egress_disabled. -/
def Dev.adminFalls (d : Dev) (n : Nat) : Dev :=
  let d := d.linkFalls n
  let d := (d.setFlag (Reg.PORT_STATUS.HOLD n) false).setFlag (Reg.PORT_STATUS.FLUSHING n) false
  let d := d.setPortSt n { d.portSt n with holdEnd := none }
  d.cutCopies 0x43 fun c => c.dst == n

/-- ADMIN_EN_CLEAR (R91): ADMIN_EN of a port is cleared. -/
def adminEnClear (port : Nat) (d : Dev) : Dev :=
  if port < 258 && d.flag (Reg.PORT_CFG.ADMIN_EN port) then (d.setFlag (Reg.PORT_CFG.ADMIN_EN port) false).adminFalls port else d

def execAdminEnClear (port : Nat) (s : State) : Host.Outcome State Fault Refusal := s.on (adminEnClear port)

/-! ### Configuration of a port -/

/-- CFG_ERR of a port follows its configuration (R69, R70, R76, R83). -/
def Dev.portCheck (d : Dev) (n : Nat) : Dev :=
  let d := d.setFlag (Reg.PORT_STATUS.CFG_ERR n)
    (d.portBad n || (decide (256 ≤ n) && d.rd (Reg.PORT_PAUSE_CFG.MODE n) == 2) || classes.any fun c => !d.pairPauses n c)
  if d.portBad n && d.linkUp n then d.enterHold n else d

/-- The taps a lane uses, as (field value, lowest, highest), by mode (R74). -/
def txTaps (m3 m2 m1 c0 p1 : Int) (mode : Nat) : List (Int × Int × Int) :=
  let pam4 := [4, 6, 7, 9, 10, 11].contains mode
  (if pam4 then [(m3, -6, 0), (m2, 0, 12)] else []) ++ (if mode = 1 then [] else [(m1, -24, 0), (p1, -16, 0)]) ++ [(c0, 32, 64)]

/-- Applies PORT_LANE_TXEQ to a lane (R74): out of range, or a sum of magnitudes above 64, gives the reset coefficients and
TXEQ_ERR. -/
def Dev.applyTxeq (d : Dev) (g l : Nat) : Dev :=
  let mode := d.rd (Reg.PORT_GRP_MODE.MODE g)
  let taps := txTaps (d.rdS (Reg.PORT_LANE_TXEQ.C_M3 g l)) (d.rdS (Reg.PORT_LANE_TXEQ.C_M2 g l))
    (d.rdS (Reg.PORT_LANE_TXEQ.C_M1 g l)) (d.rd (Reg.PORT_LANE_TXEQ.C_0 g l)) (d.rdS (Reg.PORT_LANE_TXEQ.C_P1 g l)) mode
  let ok := taps.all (fun t => decide (t.2.1 ≤ t.1) && decide (t.1 ≤ t.2.2)) &&
    decide (taps.foldl (fun a t => a + t.1.natAbs) 0 ≤ 64)
  let d := d.setBitOf (Reg.PORT_GRP_STATUS.TXEQ_ERR g) l !ok
  d.setReg (Reg.PORT_LANE_TXEQ_ACT.addr g l) (if ok then d.reg (Reg.PORT_LANE_TXEQ.addr g l) else 0x40)

/-- A change of PORT_PAUSE_CFG from word `old` (R82, R83): XON in the old format for classes in XOFF, then every pair afresh;
a change of MODE or RX_EN clears received pause. -/
def Dev.pauseChanged (d : Dev) (n : Nat) (old : Word) : Dev :=
  let new := d.reg (Reg.PORT_PAUSE_CFG.addr n)
  let oldMode := match fget old 30 2 with
    | 1 => 1
    | 2 => if n < 256 then 2 else 0
    | _ => 0
  let d := if fget old 30 2 ≠ fget new 30 2 || fget old 29 1 ≠ fget new 29 1 then
      let xs := classes.filter fun c => d.bitOf (Reg.PORT_PAUSE_STAT.TX_XOFF n) c
      let d := if xs.isEmpty || !d.linkUp n || oldMode = 0 then d else d.sendPause n oldMode xs false
      (d.wr (Reg.PORT_PAUSE_STAT.TX_XOFF n) 0).evalPause n
    else d
  if fget old 30 2 ≠ fget new 30 2 || fget old 28 1 ≠ fget new 28 1 then
    classes.foldl (fun d c => d.setPauseSt n c { d.pauseSt n c with rxEnd := none }) (d.wr (Reg.PORT_PAUSE_STAT.RX_PAUSED n) 0)
  else d

/-- PAUSE_CFG_CHANGE (R83): PORT_PAUSE_CFG of a port takes a new value. -/
def pauseCfgChange (port value : Nat) (d : Dev) : Dev :=
  if port < 258 then
    let a := Reg.PORT_PAUSE_CFG.addr port
    let old := d.reg a
    ((d.writeReg true a (BitVec.ofNat 32 value) 0).pauseChanged port old).portCheck port
  else d

def execPauseCfgChange (port value : Nat) (s : State) : Host.Outcome State Fault Refusal := s.on (pauseCfgChange port value)

/-! ### Received pause (R81, R82, R85) -/

/-- Time in ns of pause quanta of 512 bit times at a port's rate, rounded up. -/
def Dev.quantaNs (d : Dev) (n q : Nat) : Nat :=
  let r := d.portRate n
  if r = 0 then 0 else (q * 512000 + r - 1) / r

/-- A received pause for a class (R82): quanta above zero stop it, zero releases it; under a watchdog hold it is ignored. -/
def Dev.pauseClass (d : Dev) (n c q : Nat) : Dev :=
  if d.bitOf (Reg.PORT_PAUSE_STAT.WD_HOLD n) c then d
  else
    let s := d.pauseSt n c
    if q = 0 then (d.setPauseSt n c { s with rxEnd := none }).setBitOf (Reg.PORT_PAUSE_STAT.RX_PAUSED n) c false
    else
      (d.setPauseSt n c { s with
        rxEnd := some (d.now + d.quantaNs n q), since := if s.rxEnd.isSome then s.since else d.now }).setBitOf
          (Reg.PORT_PAUSE_STAT.RX_PAUSED n) c true

def rxPfcCtr (c : Nat) : Ctr :=
  match c with
  | 0 => .rxPfcC0 | 1 => .rxPfcC1 | 2 => .rxPfcC2 | 3 => .rxPfcC3 | 4 => .rxPfcC4 | 5 => .rxPfcC5 | 6 => .rxPfcC6 | _ => .rxPfcC7

/-- What a control frame is to a port (R81): 1 a pause its MODE selects, 2 a PFC frame its MODE selects, 0 any other. -/
def Dev.ctrlKind (d : Dev) (n : Nat) (b : List Byte) : Nat :=
  let op := fromBe (slice b 14 2)
  if op = 0x0001 && d.pauseMode n = 1 then 1 else if op = 0x0101 && d.pauseMode n = 2 then 2 else 0

/-- The action of a control frame on its opcode (R81). -/
def Dev.control (d : Dev) (n : Nat) (b : List Byte) : Dev :=
  let rx := d.flag (Reg.PORT_PAUSE_CFG.RX_EN n)
  match d.ctrlKind n b with
  | 1 =>
    let d := d.cnt .rxPause n
    if rx then classes.foldl (fun d c => d.pauseClass n c (fromBe (slice b 16 2))) d else d
  | 2 =>
    classes.foldl (fun d c =>
      if (fromBe (slice b 16 2)).testBit c then
        let d := d.cnt (rxPfcCtr c) n
        if rx && d.bitOf (Reg.PORT_PAUSE_CFG.PFC_CLASSES n) c then d.pauseClass n c (fromBe (slice b (18 + 2 * c) 2)) else d
      else d) d
  | _ => d.cnt .rxMacCtrlIgnored n

/-- A frame by which a supervisor is addressed on MG0 or MG1 (R67, R369): EtherType 0x88B5, to the fused base MAC address or to
broadcast. -/
def Dev.flollinaFrame (d : Dev) (b : List Byte) : Bool :=
  slice b 12 2 == [0x88, 0xB5] && (fromBe (slice b 0 6) == d.boot.fuses.baseMac || fromBe (slice b 0 6) == 0xFFFFFFFFFFFF)

/-- In recovery a frame received on MG0 is consumed: the supervisors take those addressed to them (R67). -/
def Dev.recoveryRx (d : Dev) (f : Frame) : Dev :=
  let d := d.finishRx f 0
  match d.frame f.id with
  | some g =>
    let d := d.consumeFrame g
    if d.flollinaFrame g.bytes then
      { d with vat := { d.vat with supFrames := d.vat.supFrames ++ [(⟨256, [], g.bytes⟩ : SupFrame)] } } else d
  | none => d

/-- The MAC ends a frame it has received whole (R77, R78, R81): its length and FCS are checked, runt first; a control frame is
consumed. -/
def Dev.endRx (d : Dev) (f : Frame) : Dev :=
  let mx := d.rd (Reg.PORT_CFG.MAX_FRAME f.port)
  if f.bytes.isEmpty then d.delFrame f.id
  else if f.len < 64 then d.finishRx f 1
  else if mx < f.len then d.finishRx { f with bytes := f.bytes.take (mx + 1) } 3
  else if !fcsGood f.bytes then d.finishRx f (if f.mac = 1 then 4 else 2)
  else if isControl f.bytes && f.stage = .receiving then
    let d := d.finishRx f 0
    match d.frame f.id with
    | some g => (d.control g.port g.bytes).consumeFrame g
    | none => d
  else if d.boot.recovery then d.recoveryRx f
  else d.finishRx f 0

/-- Longest frame of a port: MAX_FRAME, and for the supervisor port the longest of the device (R11). -/
def Dev.maxFrame (d : Dev) (n : Nat) : Nat := if n < 258 then d.rd (Reg.PORT_CFG.MAX_FRAME n) else 12288

/-- A frame with more bytes; reception stops at byte MAX_FRAME + 1 (R78). -/
def Dev.addBytes (d : Dev) (f : Frame) (b : List Byte) : Frame :=
  { f with bytes := (f.bytes ++ b).take (d.maxFrame f.port + 1) }

/-- Bytes reach a MAC, and cells that fill are written (R237). -/
def Dev.takeBytes (d : Dev) (f : Frame) (b : List Byte) : Frame × Dev :=
  let g := d.addBytes f b
  let d := (d.setFrame g).storeCells g.id
  ((d.frame g.id).getD g, d)

/-- A MAC receives: its link is up, or for port 258 a supervisor sends. -/
def Dev.receives (d : Dev) (n : Nat) : Bool := d.serves n && decide (n < 258) && d.flag (Reg.PORT_STATUS.LINK_UP n)

/-- MAC_FRAME_END (R77): the last bytes of a frame reach a MAC and the frame ends. -/
def macFrameEnd (port mac ago : Nat) (bytes : List Byte) (d : Dev) : Dev :=
  if d.receives port then
    let (f, d) := d.rxFrame port (mac % 2) ago
    let (f, d) := d.takeBytes f bytes
    d.endRx f
  else d

def execMacFrameEnd (port mac ago : Nat) (bytes : List Byte) (s : State) : Host.Outcome State Fault Refusal :=
  s.on (macFrameEnd port mac ago bytes)

/-- A control frame of one kind arrives whole on the express MAC. -/
def Dev.rxControl (d : Dev) (n : Nat) (b : List Byte) (kind : Nat) : Dev :=
  if d.receives n && isControl b && d.ctrlKind n b = kind && (d.openRx n 0).isNone then
    let (f, d) := d.rxFrame n 0 0
    let (f, d) := d.takeBytes f b
    d.endRx f
  else d

/-- PAUSE_RX (R82). -/
def execPauseRx (port : Nat) (bytes : List Byte) (s : State) : Host.Outcome State Fault Refusal := s.on fun d => Dev.rxControl d port bytes 1

/-- PFC_RX (R82). -/
def execPfcRx (port : Nat) (bytes : List Byte) (s : State) : Host.Outcome State Fault Refusal := s.on fun d => Dev.rxControl d port bytes 2

/-- MAC_CTRL_IGNORED (R81). -/
def execMacCtrlIgnored (port : Nat) (bytes : List Byte) (s : State) : Host.Outcome State Fault Refusal :=
  s.on fun d => Dev.rxControl d port bytes 0

/-- PAUSE_EXPIRY (R82): the pause time of a class has elapsed. -/
def pauseExpiry (port cls : Nat) (d : Dev) : Dev :=
  match (d.pauseSt port cls).rxEnd with
  | some t => if t ≤ d.now then d.pauseClass port cls 0 else d
  | none => d

def execPauseExpiry (port cls : Nat) (s : State) : Host.Outcome State Fault Refusal := s.on (pauseExpiry port cls)

/-- XOFF_REPEAT (R83): half of QUANTA has elapsed since the last XOFF and the count stays above LOW. -/
def xoffRepeat (port cls : Nat) (d : Dev) : Dev :=
  let mode := d.pauseMode port
  let c := if mode = 1 then 0 else cls
  let above := if mode = 1 then classes.any (d.aboveLow port) else d.aboveLow port cls
  if d.flag (Reg.PORT_PAUSE_CFG.TX_EN port) && mode ≠ 0 && d.linkUp port && d.bitOf (Reg.PORT_PAUSE_STAT.TX_XOFF port) c && above &&
      decide ((d.pauseSt port c).xoffAt + d.quantaNs port (d.rd (Reg.PORT_PAUSE_CFG.QUANTA port)) / 2 ≤ d.now) then
    d.sendPause port mode [cls] true
  else d

def execXoffRepeat (port cls : Nat) (s : State) : Host.Outcome State Fault Refusal := s.on (xoffRepeat port cls)

/-- PAUSE_WD_TRIP (R85): received pause has held a class beyond WD_MS. -/
def pauseWdTrip (port cls : Nat) (d : Dev) : Dev :=
  let s := d.pauseSt port cls
  if s.rxEnd.isSome && decide (s.since + d.rd (Reg.PORT_PAUSE_WD.WD_MS port) * 10 ^ 6 < d.now) then
    let d := d.setPauseSt port cls { s with rxEnd := none, wdEnd := d.now + d.rd (Reg.PORT_PAUSE_WD.WD_HOLD_MS port) * 10 ^ 6 }
    let d := (d.setBitOf (Reg.PORT_PAUSE_STAT.RX_PAUSED port) cls false).setBitOf (Reg.PORT_PAUSE_STAT.WD_HOLD port) cls true
    let d := (d.cnt .pauseWdTrip port).alarm 3 0
    d.log 0x1001 (groupOf port) (d.regData (Reg.PORT_PAUSE_STAT.addr port) ++ le 2 port ++ le 1 cls)
  else d

def execPauseWdTrip (port cls : Nat) (s : State) : Host.Outcome State Fault Refusal := s.on (pauseWdTrip port cls)

/-- PAUSE_WD_HOLD_END (R85). -/
def pauseWdHoldEnd (port cls : Nat) (d : Dev) : Dev :=
  if d.bitOf (Reg.PORT_PAUSE_STAT.WD_HOLD port) cls && decide ((d.pauseSt port cls).wdEnd ≤ d.now) then
    d.setBitOf (Reg.PORT_PAUSE_STAT.WD_HOLD port) cls false
  else d

def execPauseWdHoldEnd (port cls : Nat) (s : State) : Host.Outcome State Fault Refusal := s.on (pauseWdHoldEnd port cls)

/-! ### Preemption (R86, R87) -/

/-- The frame open in reassembly is rejected (R87). -/
def Dev.rejectAssy (d : Dev) (n : Nat) : Dev :=
  let d := d.setPortSt n { d.portSt n with reasm := none }
  match d.openRx n 1 with
  | some f => d.finishRx f 4
  | none => d

/-- PREEMPT_FRAGMENT_RX (R87): a fragment arrives, without its mCRC. `start` marks a start fragment, `count` is a
continuation's fragment count, `last` says that it ends with the FCS. -/
def fragmentRx (port ago : Nat) (start : Bool) (count : Nat) (last : Bool) (bytes : List Byte) (d : Dev) : Dev :=
  if d.receives port && decide (port < 256) && d.flag (Reg.PORT_PREEMPT_CFG.EN port) && !bytes.isEmpty then
    let d := d.cnt .rxPreemptFragments port
    let opened := (d.portSt port).reasm
    let d := if start && opened.isSome then d.rejectAssy port else d
    if start || opened == some (count % 4) then
      let (f, d) := d.rxFrame port 1 ago
      let (f, d) := d.takeBytes f bytes
      if last then (d.setPortSt port { d.portSt port with reasm := none }).endRx f
      else d.setPortSt port { d.portSt port with reasm := some (if start then 0 else (count + 1) % 4) }
    else if opened.isSome then d.rejectAssy port
    else
      let (f, d) := d.rxFrame port 1 ago
      let (_, d) := d.takeBytes f bytes
      d.rejectAssy port
  else d

def execPreemptFragmentRx (port ago : Nat) (start : Bool) (count : Nat) (last : Bool) (bytes : List Byte) (s : State) :
    Host.Outcome State Fault Refusal :=
  s.on (fragmentRx port ago start count last bytes)

/-- PREEMPT_VERIFY_TIMEOUT (R86): after three attempts of IEEE 802.3 clause 99.4.3 verification has failed. -/
def verifyTimeout (port : Nat) (d : Dev) : Dev :=
  let s := d.portSt port
  if d.rd (Reg.PORT_STATUS.VERIFY_STATUS port) = 1 &&
      decide (s.verAt + d.rd (Reg.PORT_PREEMPT_CFG.VERIFY_TIME port) * 10 ^ 6 ≤ d.now) then
    if s.verTries < 3 then (d.setPortSt port { s with verTries := s.verTries + 1, verAt := d.now }).out (.mpacket port false)
    else d.wr (Reg.PORT_STATUS.VERIFY_STATUS port) 3
  else d

def execPreemptVerifyTimeout (port : Nat) (s : State) : Host.Outcome State Fault Refusal := s.on (verifyTimeout port)

/-- VERIFY_MPACKET_RX (R86): a verify mPacket draws a response; a response ends verification as succeeded. -/
def verifyRx (port : Nat) (respond : Bool) (d : Dev) : Dev :=
  if d.receives port && decide (port < 256) && d.flag (Reg.PORT_PREEMPT_CFG.EN port) then
    if respond then
      if d.rd (Reg.PORT_STATUS.VERIFY_STATUS port) = 1 then
        (d.wr (Reg.PORT_STATUS.VERIFY_STATUS port) 2).setFlag (Reg.PORT_STATUS.PREEMPT_ACTIVE port) true
      else d
    else d.out (.mpacket port true)
  else d

def execVerifyMpacketRx (port : Nat) (respond : Bool) (s : State) : Host.Outcome State Fault Refusal := s.on (verifyRx port respond)

/-! ### Lanes (R71, R74, R75) -/

/-- RX_ADAPT_UPDATE (R75): the receiver's own coefficients change between frames. No register or rule shows them, so nothing
else does. -/
def rxAdaptUpdate (_port : Nat) (d : Dev) : Dev := d

def execRxAdaptUpdate (port : Nat) (s : State) : Host.Outcome State Fault Refusal := s.on (rxAdaptUpdate port)

/-- AUTONEG_COMPLETE (R71): AN_DONE sets and FEC_ACTIVE shows the FEC resolved, at most the strongest advertised. -/
def autonegComplete (port fec : Nat) (d : Dev) : Dev :=
  let m := d.portMode port
  if d.serves port && d.flag (Reg.PORT_CFG.AN_EN port) && !d.portBad port && fecOk m fec &&
      decide (fec ≤ d.portFec port) then
    (d.setFlag (Reg.PORT_STATUS.AN_DONE port) true).wr (Reg.PORT_STATUS.FEC_ACTIVE port) fec
  else d

def execAutonegComplete (port fec : Nat) (s : State) : Host.Outcome State Fault Refusal := s.on (autonegComplete port fec)

/-- LINK_TRAINING_COMPLETE (R71, R74): LT_DONE sets, and the coefficients training reached stand in PORT_LANE_TXEQ_ACT. -/
def trainingComplete (port : Nat) (coefs : List Nat) (d : Dev) : Dev :=
  if d.boot.released && d.flag (Reg.PORT_CFG.LT_EN port) && !d.portBad port then
    let d := d.setFlag (Reg.PORT_STATUS.LT_DONE port) true
    ((d.lanesOf port).zip coefs).foldl (fun (d : Dev) (l, w) =>
      d.setReg (Reg.PORT_LANE_TXEQ_ACT.addr l.1 l.2) (BitVec.ofNat 32 (w % 2 ^ 31))) d
  else d

def execLinkTrainingComplete (port : Nat) (coefs : List Nat) (s : State) : Host.Outcome State Fault Refusal :=
  s.on (trainingComplete port coefs)

end Sys2Proof.Machine
end

