-- ==== Sys2Proof/Machine/Beater.lean ====
section
/-! DEFINITION. The Beater (chapter 05): parse intake, engines, the microword and its execution, parking, the side table, the
hand-off, machine checks, bank copies out of service, the scrub and the hardware fallback. -/

namespace Sys2Proof.Machine

/-! ### Control store (R112, R113) -/

/-- First word of the customer region. -/
def custBase : Nat := 12288

/-- Key of a store word of pipeline `p`: Daxnov words stand in half 0. -/
def storeKey (p half word : Nat) : Nat := (2 * p + (if word < custBase then 0 else half)) * 2 ^ 14 + word

/-- A word as written (the reference of R66 for its half). -/
def Dev.storeRef (d : Dev) (p half word : Nat) : Nat := tget d.beat.store 0 (storeKey p half word)

/-- Key of a word of bank copy `k`. -/
def copyKey (p k half word : Nat) : Nat := ((16 * p + k) * 2 + (if word < custBase then 0 else half)) * 2 ^ 14 + word

/-- A word as bank copy `k` holds it. -/
def Dev.storeWord (d : Dev) (p k half word : Nat) : Nat := d.storeRef p half word ^^^ tget d.beat.bad 0 (copyKey p k half word)

/-- Flips bits of a word of a bank copy. -/
def Dev.flipWord (d : Dev) (p k half word mask : Nat) : Dev :=
  let key := copyKey p k half word
  { d with beat := { d.beat with bad := tput d.beat.bad 0 key (tget d.beat.bad 0 key ^^^ mask % 2 ^ 256) } }

/-- Writes a word of the store: every copy of the pipeline takes it, so no flipped bit of it stays. -/
def Dev.writeStore (d : Dev) (p half word v : Nat) : Dev :=
  { d with beat := { d.beat with
    store := tput d.beat.store 0 (storeKey p half word) v,
    bad := d.beat.bad.filter fun e => e.1 / 2 ^ 19 != p || e.1 % 2 ^ 15 != copyKey p 0 half word % 2 ^ 15 } }

/-- Every parity group of a word holds an even number of ones (R117). -/
def wordParity (w : Nat) : Bool :=
  (List.range 4).all fun k =>
    ((List.range 64).foldl (fun (a : Bool) i => a != (decide (64 * k + i < 252) && w.testBit (64 * k + i))) false) == w.testBit (252 + k)

/-- Bits `hi : lo` of a microword (R116). -/
def wf (w hi lo : Nat) : Nat := w / 2 ^ lo % 2 ^ (hi - lo + 1)

/-- Bank copy `k` is in service (R113, R137). -/
def Dev.copyIn (d : Dev) (p k : Nat) : Bool := decide (k < 16) && !d.bitOf (Reg.PARS_COPY_STATUS.OUT p) k

/-- The copies in service. -/
def Dev.copiesIn (d : Dev) (p : Nat) : List Nat := (List.range 16).filter (d.copyIn p)

/-- The copy that serves engine `e`. -/
def Dev.homeOf (d : Dev) (p e : Nat) : Nat := match tget d.beat.home 0 (128 * p + e) with
  | 0 => e / 8
  | k + 1 => k

/-- IN_SERVICE and FALLBACK of PARS_STATUS follow the copies in service (R137, R140). -/
def Dev.copiesFollow (d : Dev) (p : Nat) : Dev :=
  let n := (d.copiesIn p).length
  (d.wr (Reg.PARS_STATUS.IN_SERVICE p) n).setFlag (Reg.PARS_STATUS.FALLBACK p) (d.boot.released && n == 0)

/-- Engine start finds engine `e` its copy (R137): its own when that is in service, else the one it was re-homed to, else the
copy in service that serves the fewest engines, the lowest number first. -/
def Dev.rehome (d : Dev) (p e : Nat) : Option (Nat × Dev) :=
  let put (k : Nat) : Dev := { d with beat := { d.beat with
    home := tput d.beat.home 0 (128 * p + e) (if k = e / 8 then 0 else k + 1) } }
  if d.copyIn p (e / 8) then some (e / 8, put (e / 8))
  else if d.copyIn p (d.homeOf p e) then some (d.homeOf p e, d)
  else
    let load (k : Nat) : Nat := ((List.range 128).filter fun x => d.homeOf p x == k).length
    match d.copiesIn p with
    | [] => none
    | k :: r =>
      let best := r.foldl (fun b k => if load k < load b then k else b) k
      some (best, put best)

/-! ### The intake (R107, R108) -/

/-- A frame joins its pipeline's intake, or finds its group's share of 32 full. -/
def Dev.joinIntake (d : Dev) (f : Frame) : Dev :=
  let share := (d.path.frames.filter fun g => g.stage = .intake && g.src == f.src).length
  if share < 32 then
    let d := d.setFrame { f with stage := .intake, ready := d.path.nextReady }
    { d with path := { d.path with nextReady := d.path.nextReady + 1 } }
  else (d.cnt .beaterOverrun f.pipe).dropFrame f 0x05

/-- PARSE_READY (R107): more bytes of a frame have arrived; with 256 bytes, or its end, it is ready for parse. -/
def parseReady (port mac ago : Nat) (bytes : List Byte) (d : Dev) : Dev :=
  match d.path.frames.find? fun f => f.port == port && f.mac == mac % 2 && f.stage = .receiving && f.ended with
  | some f => d.joinIntake f
  | none =>
    if d.receives port then
      let (f, d) := d.rxFrame port (mac % 2) ago
      if f.stage = .receiving then
        let (f, d) := d.takeBytes f bytes
        if 256 ≤ f.len && !d.boot.recovery then d.joinIntake f else d
      else d
    else d

def execParseReady (port mac ago : Nat) (bytes : List Byte) (s : State) : Host.Outcome State Fault Refusal :=
  s.on (parseReady port mac ago bytes)

/-! ### Engine start (R110, R112, R114, R140) -/

/-- The fields hardware writes at engine start (R110): INGRESS, the timestamp, and FRAME_LEN once frame end is reached. -/
def Frame.startHv (f : Frame) : List Nat :=
  ((((List.replicate 64 0).set 1 (f.port + 512 * f.mac)).set 2 (if f.ended then f.len % 2 ^ 14 else 0)).set 3 (tNs f.ts)).set 4
    (tSec f.ts % 2 ^ 32) |>.set 5 (tSec f.ts / 2 ^ 32 % 2 ^ 16 + 2 ^ 16 * tFrac f.ts)

/-- The parse context at engine start or restart. -/
def Frame.startPx (f : Frame) (half hook : Nat) (restarted : Bool) : Parse :=
  { Parse.zero with half := half, hook := hook, hv := f.startHv, restarted := restarted }

/-- The header vector of the hardware fallback (R140). -/
def Frame.fallbackHv (f : Frame) : List Nat :=
  let b := f.bytes
  let t := fromBe (slice b 12 2)
  let tagged := t == 0x8100 || t == 0x88A8
  let off := if tagged then 16 else 12
  let tci := fromBe (slice b 14 2)
  let cls := if tagged then tci / 2 ^ 13 + 8 * (tci / 2 ^ 12 % 2) else Config.portClass f.port % 8
  let hv := f.startHv
  let hv := ((hv.set 6 (fromBe (slice b 0 4))).set 7 (fromBe (slice b 4 4))).set 8 (fromBe (slice b 8 4))
  let hv := hv.set 9 (if tagged then fromBe (slice b 12 4) else 0)
  let hv := (hv.set 11 (fromBe (slice b off 2) + 2 ^ 16 * off)).set 35 cls
  hv.set 0 (2 ^ 12 + (if tagged then 2 else 0))

/-- The fallback parses a frame whole and delivers its vector (R140). -/
def Dev.fallbackParse (d : Dev) (f : Frame) : Dev :=
  let d := (d.cnt .beaterFallbackFrames f.pipe).setFlag (Reg.PARS_STATUS.FALLBACK f.pipe) true
  let d := d.setFrame { f with stage := .vector, px := { f.px with hv := f.fallbackHv } }
  d.deliver f.port f.mac

/-- A frame holds engine `e` of pipeline `p`. -/
def Dev.engineFrame (d : Dev) (p e : Nat) : Option Frame :=
  d.path.frames.find? fun f => f.pipe == p && f.stage = .engine e

/-- The first of a list by a number. -/
def leastBy (key : Frame → Nat) (l : List Frame) : Option Frame :=
  l.foldl (fun b f => match b with
    | none => some f
    | some x => if key f < key x then some f else some x) none

/-- Frames parked that have reached frame end, in that order (R111). -/
def Dev.nextResume (d : Dev) (p : Nat) : Option Frame :=
  leastBy Frame.endNo (d.path.frames.filter fun f => f.pipe == p && f.stage = .parked && f.ended)

/-- ENGINE_START (R110): a free engine takes the oldest ready frame, unless one waits to resume. -/
def engineStart (pipe engine : Nat) (d : Dev) : Dev :=
  if engine < 128 && (d.engineFrame pipe engine).isNone && (d.nextResume pipe).isNone then
    match leastBy Frame.ready (d.path.frames.filter fun f => f.pipe == pipe && f.stage = .intake) with
    | none => d
    | some f =>
      let d := d.cnt .beaterFrames pipe
      let f := { f with px := f.startPx (tget d.beat.half 0 pipe) (d.rd (Reg.PARS_CFG.HOOK_EN pipe)) false }
      match d.rehome pipe engine with
      | none => if f.err = 0 then d.fallbackParse f else d.dropFrame f f.err
      | some (_, d) => d.setFrame { f with stage := .engine engine }
  else d

def execEngineStart (pipe engine : Nat) (s : State) : Host.Outcome State Fault Refusal := s.on (engineStart pipe engine)

/-! ### Out of service (R136, R137) -/

/-- A bank copy leaves service (R137); one that fails within 1 s of its return stays out until restart. -/
def Dev.copyOut (d : Dev) (p k : Nat) : Dev :=
  if d.copyIn p k then
    let back := tget d.beat.backAt 0 (16 * p + k)
    let again := back != 0 && decide (d.now + 1 < back + 10 ^ 9)
    let d := d.setBitOf (Reg.PARS_COPY_STATUS.OUT p) k true
    let d := if d.supRunning && !again then d.setBitOf (Reg.PARS_COPY_STATUS.RELOADING p) k true else d
    let d := { d with beat := { d.beat with
      outAt := tput d.beat.outAt 0 (16 * p + k) (d.now + 1),
      heldOut := if again then d.beat.heldOut ++ [16 * p + k] else d.beat.heldOut } }
    let d := (d.alarm 2 3).copiesFollow p
    let dat (ev : Nat) : List Byte := d.regData (Reg.PARS_COPY_STATUS.addr p) ++ le 1 p ++ le 1 k ++ le 1 ev
    let d := d.log 0x3002 p (dat 0)
    if again then d.log 0x3002 p (dat 2) else d
  else d

/-- A machine check of type `t` (1 PARITY, 2 STACK, 3 ILLEGAL) is counted, latched and logged (R136). -/
def Dev.machineCheck (d : Dev) (p e k word t : Nat) : Dev :=
  let d := d.cnt (match t with | 1 => .beaterParity | 2 => .beaterStack | _ => .beaterIllegal) p
  let d := if d.flag (Reg.PARS_MC_LOG.VALID p) then d
    else
      let d := ((d.setFlag (Reg.PARS_MC_LOG.VALID p) true).wr (Reg.PARS_MC_LOG.TYPE p) t).wr (Reg.PARS_MC_LOG.COPY p) k
      (d.wr (Reg.PARS_MC_LOG.ENGINE p) e).wr (Reg.PARS_MC_LOG.WORD p) word
  d.log 0x3001 p (d.regData (Reg.PARS_MC_LOG.addr p) ++ le 1 p ++ le 1 t ++ le 1 e ++ le 1 k ++ le 2 word)

/-- A PARITY machine check of a frame (R136): the copy leaves service; the frame restarts once, from word 0. -/
def Dev.parityFault (d : Dev) (f : Frame) (p e k : Nat) : Dev :=
  let d := (d.machineCheck p e k f.px.addr 1).copyOut p k
  if f.px.restarted then d.dropFrame f 0x05
  else
    let d := d.cnt .beaterRestart p
    let f := { f with px := f.startPx f.px.half f.px.hook true, handoff := false }
    match d.rehome p e with
    | none => if f.err = 0 then d.fallbackParse f else d.dropFrame f f.err
    | some (_, d) => d.setFrame f

/-! ### The parts of a word (R120 to R124, R128) -/

/-- Byte `b` of an extract's base, none where R120 reads zero. -/
def extByte (f : Frame) (base off b : Nat) : Option Nat :=
  let head (x : Nat) : Option Nat := if x < 256 then (f.bytes[x]?).map BitVec.toNat else none
  match base with
  | 0 => head (off + b)
  | 1 => head (f.px.cur + off + b)
  | 2 =>
    if f.ended && off + 1 ≤ f.len + b then
      let x := f.len + b - 1 - off
      if f.len - 256 ≤ x then (f.bytes[x]?).map BitVec.toNat else none
    else none
  | _ => if off + b < 256 then some (f.hv ((off + b) / 4) / 2 ^ (24 - 8 * ((off + b) % 4)) % 256) else none

/-- An extract (R120): the value, and whether some bit read zero for want of a byte. -/
def extract (f : Frame) (base off bit len : Nat) : Nat × Bool :=
  (List.range (len + 1)).foldl (fun (a : Nat × Bool) i =>
    match extByte f base off ((bit + i) / 8) with
    | some v => (2 * a.1 + (if v.testBit (7 - (bit + i) % 8) then 1 else 0), a.2)
    | none => (2 * a.1, true)) (0, false)

/-- An ALU operation (R121): result and carry. -/
def aluOp (op a b : Nat) : Nat × Bool :=
  let s := b % 32
  match op with
  | 1 => (b, false)
  | 2 => ((a + b) % 2 ^ 32, decide (2 ^ 32 ≤ a + b))
  | 3 => ((a + 2 ^ 32 - b) % 2 ^ 32, decide (a < b))
  | 4 => (a &&& b, false)
  | 5 => (a ||| b, false)
  | 6 => (a ^^^ b, false)
  | 7 => (a * 2 ^ s % 2 ^ 32, s != 0 && a.testBit (32 - s))
  | 8 => (a / 2 ^ s, s != 0 && a.testBit (s - 1))
  | 9 => ((a + 2 ^ 32 - b) % 2 ^ 32, decide (a < b))
  | 10 => (a &&& b, false)
  | _ => (0, false)

/-- A COND_SEL value is listed (R124). -/
def condListed (c : Nat) : Bool := decide (c ≤ 10) || (decide (12 ≤ c) && decide (c ≤ 15)) || decide (32 ≤ c)

/-- A condition at the start of a word (R124). -/
def condTrue (f : Frame) (c : Nat) : Bool :=
  let x := f.px
  match c with
  | 0 => true
  | 1 => x.z
  | 2 => x.n
  | 3 => x.c
  | 4 => f.ended
  | 5 => x.present
  | 6 => x.hit
  | 7 => f.handoff
  | 8 => x.w
  | 9 => f.err != 0
  | 10 => x.stop
  | _ => if c < 16 then x.hook.testBit (c - 12) else f.flagBit (c - 32)

/-- Registers of an engine. -/
def Parse.reg (x : Parse) (k : Nat) : Nat := (x.gr[k]?).getD 0

/-- Bits of an insertion that reach a header vector field (R110, R115, R122): a customer word only fields 48 to 63 and, setting
only, FLAGS bits 0 and 31:24; no word FRAME_LEN. -/
def insertField (cust : Bool) (field lsb width src old : Nat) : Nat :=
  let m := (2 ^ width - 1) * 2 ^ lsb
  let v := src % 2 ^ width * 2 ^ lsb
  if cust && field = 0 then old ||| (v &&& 0xFF000001)
  else if cust && field < 48 then old
  else
    let m := if field = 2 then m &&& 0xFFFFC000 else m
    (old &&& (0xFFFFFFFF ^^^ m)) ||| (v &&& m)

/-- The word's transfer (R119): whether it is taken, its target when it is not a return. -/
def wordTarget (f : Frame) (w : Nat) : Nat :=
  if wf w 251 248 = 7 then wf w 247 234 + f.px.reg (wf w 222 220) / 2 ^ wf w 219 215 % 16 else wf w 247 234

/-- The condition of a word, inverted where COND_INV is set. -/
def wordCond (f : Frame) (w : Nat) : Bool := condTrue f (wf w 233 228) != (wf w 227 227 == 1)

/-- The next address (R119) and the stack after it; none is a micro-stack fault (R123). -/
def wordNext (f : Frame) (w : Nat) : Option (Nat × List Nat) :=
  let x := f.px
  let nxt := x.addr + 1
  let t := wordTarget f w
  let push : Option (Nat × List Nat) := if x.stack.length < 8 then some (t, nxt :: x.stack) else none
  let pop : Option (Nat × List Nat) := match x.stack with
    | a :: r => some (a, r)
    | [] => none
  let cond := wordCond f w
  match wf w 251 248 with
  | 1 => some (t, x.stack)
  | 2 => some (if cond then t else nxt, x.stack)
  | 3 => push
  | 4 => if cond then push else some (nxt, x.stack)
  | 5 => pop
  | 6 => if cond then pop else some (nxt, x.stack)
  | 7 => some (t, x.stack)
  | _ => some (nxt, x.stack)

/-- The transfer of a word is to NA_ADDR or beyond it, and is taken. -/
def wordJumps (f : Frame) (w : Nat) : Bool :=
  let op := wf w 251 248
  op == 1 || op == 3 || op == 7 || ((op == 2 || op == 4) && wordCond f w)

/-- A word is illegal (R115, R116, R118, R119, R121, R124, R125, R128). -/
def wordIllegal (f : Frame) (w : Nat) : Bool :=
  let op := wf w 251 248
  let cust := decide (custBase ≤ f.px.addr)
  let ext := wf w 214 214 == 1
  let extb := wf w 147 147 == 1
  let alu := wf w 192 189
  let aluW := decide (1 ≤ alu) && decide (alu ≤ 8)
  let dE := wf w 195 193
  let dB := wf w 128 126
  let dA := wf w 188 186
  decide (8 < op) || (f.px.addr == 16383 && [0, 2, 3, 4, 6].contains op) || wf w 125 32 != 0 || !condListed (wf w 233 228) ||
    decide (3 < wf w 226 224) || decide (10 < alu) || decide (31 < wf w 170 166 + wf w 165 161) ||
    (ext && extb && dE == dB) || (ext && aluW && dE == dA) || (extb && aluW && dB == dA) || (ext && dE == 7) || (extb && dB == 7) ||
    (aluW && dA == 7) || (op == 7 && wf w 237 234 != 0) || (wf w 152 152 == 1 && decide (2 ≤ f.px.lookups)) ||
    (cust && (op == 8 || (wordJumps f w && decide (wordTarget f w < custBase)) || (wf w 152 152 == 1 && decide (wf w 151 148 < 8))))

/-- A word is a safe point (R130). -/
def wordSafe (f : Frame) (w : Nat) : Bool :=
  wf w 223 223 == 1 || wf w 226 224 == 1 || f.px.first ||
    match wordNext f w with
    | some (a, _) => wf w 251 248 != 8 && decide (a ≤ f.px.addr)
    | none => false

/-- The updates of a word, all read as the word began (R118). -/
def wordApply (f : Frame) (w : Nat) (next : Nat) (stack : List Nat) : Frame :=
  let x := f.px
  let e1 := extract f (wf w 213 212) (wf w 211 204) (wf w 203 201) (wf w 200 196)
  let e2 := extract f (wf w 146 145) (wf w 144 137) (wf w 136 134) (wf w 133 129)
  let op := wf w 192 189
  let r := aluOp op (x.reg (wf w 185 183)) (if wf w 179 179 = 1 then wf w 31 0 else x.reg (wf w 182 180))
  let gr := if wf w 214 214 = 1 then x.gr.set (wf w 195 193) e1.1 else x.gr
  let gr := if wf w 147 147 = 1 then gr.set (wf w 128 126) e2.1 else gr
  let gr := if 1 ≤ op ∧ op ≤ 8 then gr.set (wf w 188 186) r.1 else gr
  let upd := wf w 178 178 = 1 && op ≠ 0
  let fld := wf w 176 171
  let hv := if wf w 177 177 = 1 then
      x.hv.set fld (insertField (decide (custBase ≤ x.addr)) fld (wf w 170 166) (wf w 165 161 + 1) (x.reg (wf w 160 158)) (f.hv fld))
    else x.hv
  let cur := match wf w 157 156 with
    | 1 => (x.cur + x.reg (wf w 155 153)) % 512
    | 2 => x.reg (wf w 155 153) % 512
    | 3 => (x.cur + wf w 7 0) % 512
    | _ => x.cur
  let sl := wf w 152 152 = 1
  let key := x.reg 0 + 2 ^ 32 * x.reg 1 + 2 ^ 64 * x.reg 2 + 2 ^ 96 * x.reg 3 + 2 ^ 128 * x.reg 4
  { f with px := { x with
      addr := next, stack := stack, gr := gr, cur := cur, hv := hv,
      z := if upd then r.1 == 0 else x.z, n := if upd then r.1.testBit 31 else x.n, c := if upd then r.2 else x.c,
      w := x.w || (wf w 214 214 == 1 && e1.2) || (wf w 147 147 == 1 && e2.2),
      cycles := x.cycles + (if wf w 226 224 = 1 then 2 else 1),
      lookups := if sl then x.lookups + 1 else x.lookups, pend := if sl then some (key, wf w 151 148) else x.pend,
      present := if sl then false else x.present, first := false, waitAt := none, waited := false } }

/-! ### Executing a word (R118, R119, R125, R126) -/

/-- Hand-off entries of a pipeline in use (R126). -/
def Dev.handoffs (d : Dev) (p : Nat) : Nat := (d.path.frames.filter fun f => f.pipe == p && f.handoff).length

/-- A hand-off wait (R126): the frame with an entry, or without one when the wait has ended, or still waiting. -/
def Dev.handoffWait (d : Dev) (f : Frame) : Dev × Frame × Bool :=
  let p := f.pipe
  if f.handoff || f.px.waited then (d, f, true)
  else if d.handoffs p < 64 then
    (d, { f with handoff := true, px := { f.px with hv := f.px.hv.set 0 (f.hv 0 ||| 2 ^ 13) } }, true)
  else if d.rd (Reg.PARS_CFG.HANDOFF_WAIT p) = 0 then (d.cnt .beaterHandoffTimeout p, f, true)
  else (d, { f with px := { f.px with waitAt := some (f.px.waitAt.getD d.now) } }, false)

/-- The word's waits are over: it executes; DONE delivers the vector with W in FLAGS bit 14 (R110, R135). -/
def Dev.runWord (d : Dev) (f : Frame) (p e k w : Nat) : Dev :=
  match wordNext f w with
  | none => (d.machineCheck p e k f.px.addr 2).dropFrame f 0x05
  | some (next, stack) =>
    let g := wordApply f w next stack
    if wf w 251 248 = 8 then
      let px := { g.px with hv := if g.px.w then g.px.hv.set 0 (g.hv 0 ||| 2 ^ 14) else g.px.hv }
      (d.setFrame { g with stage := .vector, px := px }).deliver f.port f.mac
    else d.setFrame g

/-- One engine executes the word it stands at, in a row whose operation is `op`: parity first, then the safe point, then the
checks for an illegal word, then the wait, then the word. A word of a reserved NA_OP comes under SEQ, a parity fault under any
row. `flips` are bits of the copy's word upset before this fetch. -/
def stepWord (op pipe engine flips : Nat) (d : Dev) : Dev :=
  match d.engineFrame pipe engine with
  | none => d
  | some f =>
    let k := d.homeOf pipe engine
    let d := d.flipWord pipe k f.px.half f.px.addr flips
    let w := d.storeWord pipe k f.px.half f.px.addr
    if !wordParity w then d.parityFault f pipe engine k
    else if wf w 251 248 ≠ op && !(op = 0 && 8 < wf w 251 248) then d
    else if wordSafe f w && f.err ≠ 0 then d.dropFrame f f.err
    else if wordSafe f w && f.px.stop then (d.cnt .beaterCycleLimit pipe).dropFrame f 0x05
    else if wordIllegal f w then (d.machineCheck pipe engine k f.px.addr 3).dropFrame f 0x05
    else if wf w 152 152 = 1 && f.px.pend.isSome then d
    else
      match wf w 226 224 with
      | 1 => if f.ended then d.runWord f pipe engine k w else d.setFrame { f with stage := .parked }
      | 2 => if f.px.pend.isSome then d else d.runWord f pipe engine k w
      | 3 =>
        let (d, f, go) := d.handoffWait f
        if go then d.runWord f pipe engine k w else d.setFrame f
      | _ => d.runWord f pipe engine k w

def execSeq (pipe engine flips : Nat) (s : State) : Host.Outcome State Fault Refusal := s.on (stepWord 0 pipe engine flips)

def execJump (pipe engine flips : Nat) (s : State) : Host.Outcome State Fault Refusal := s.on (stepWord 1 pipe engine flips)

def execCjump (pipe engine flips : Nat) (s : State) : Host.Outcome State Fault Refusal := s.on (stepWord 2 pipe engine flips)

def execCall (pipe engine flips : Nat) (s : State) : Host.Outcome State Fault Refusal := s.on (stepWord 3 pipe engine flips)

def execCcall (pipe engine flips : Nat) (s : State) : Host.Outcome State Fault Refusal := s.on (stepWord 4 pipe engine flips)

def execRet (pipe engine flips : Nat) (s : State) : Host.Outcome State Fault Refusal := s.on (stepWord 5 pipe engine flips)

def execCret (pipe engine flips : Nat) (s : State) : Host.Outcome State Fault Refusal := s.on (stepWord 6 pipe engine flips)

def execDispatch (pipe engine flips : Nat) (s : State) : Host.Outcome State Fault Refusal := s.on (stepWord 7 pipe engine flips)

def execDone (pipe engine flips : Nat) (s : State) : Host.Outcome State Fault Refusal := s.on (stepWord 8 pipe engine flips)

/-! ### Side lookups (R127 to R129) -/

/-- TABLE_ID of a pipeline's side table. -/
def sideTid (p : Nat) : Nat := 0x3000 + 0x10 * p

/-- Indices of the entries of a table of which some word is listed. -/
def Dev.tabIndices (d : Dev) (tid n : Nat) : List Nat :=
  (d.tabs.filterMap fun e => if e.1 / 16 / 2 ^ 17 = tid then some (e.1 / 16 % 2 ^ 17) else none).eraseDups.filter fun i => decide (i < n)

/-- A side table entry matches a key in a profile (R128). -/
def Dev.sideMatch (d : Dev) (p key profile i : Nat) : Bool :=
  d.tabF (sideTid p) i 11 7 1 == 1 && d.tabF (sideTid p) i 11 0 4 == profile &&
    (List.range 5).all fun k => (key / 2 ^ (32 * k) % 2 ^ 32 ^^^ d.tabF (sideTid p) i k 0 32) &&& d.tabF (sideTid p) i (5 + k) 0 32 == 0

/-- A side table entry whose parity fails is counted and its index latched (R129). -/
def Dev.sideFail (d : Dev) (p i : Nat) : Dev :=
  let d := (d.cnt .sideParity p).setFlag (Reg.PARS_SIDE_ERR.VALID p) true
  let d := d.wr (Reg.PARS_SIDE_ERR.INDEX p) i
  { d with beat := { d.beat with sideBad := tput d.beat.sideBad 0 (4096 * p + i) 1 } }

/-- SIDE_LOOKUP_RESULT (R128): the result of the outstanding lookup reaches GR7; `bad` names entries whose parity fails. -/
def sideResult (pipe engine : Nat) (bad : List Nat) (d : Dev) : Dev :=
  match d.engineFrame pipe engine with
  | none => d
  | some f =>
    match f.px.pend with
    | none => d
    | some (key, profile) =>
      let d := (bad.filter fun i => decide (i < 4096)).foldl (fun d i => d.sideFail pipe i) d
      let hits := (d.tabIndices (sideTid pipe) 4096).filter fun i =>
        tget d.beat.sideBad 0 (4096 * pipe + i) == 0 && d.sideMatch pipe key profile i
      let best := hits.foldl (fun (b : Option Nat) i => match b with
        | none => some i
        | some x => some (min x i)) none
      let v := match best with
        | some i => d.tabF (sideTid pipe) i 10 0 32
        | none => 0
      d.setFrame { f with px := { f.px with gr := f.px.gr.set 7 v, pend := none, present := true, hit := best.isSome } }

def execSideLookupResult (pipe engine : Nat) (bad : List Nat) (s : State) : Host.Outcome State Fault Refusal :=
  s.on (sideResult pipe engine bad)

/-- SIDE_ENTRY_REWRITE (R129): the supervisor rewrites an entry from the reference. -/
def sideRewrite (pipe index : Nat) (d : Dev) : Dev :=
  if d.supRunning then { d with beat := { d.beat with sideBad := tput d.beat.sideBad 0 (4096 * pipe + index) 0 } } else d

def execSideEntryRewrite (pipe index : Nat) (s : State) : Host.Outcome State Fault Refusal := s.on (sideRewrite pipe index)

/-! ### Park, hand-off, stop (R111, R126, R132) -/

/-- RESUME (R111): at frame end a parked context resumes on a free engine. -/
def resume (pipe engine : Nat) (d : Dev) : Dev :=
  if engine < 128 && (d.engineFrame pipe engine).isNone then
    match d.nextResume pipe with
    | none => d
    | some f =>
      match d.rehome pipe engine with
      | some (_, d) => d.setFrame { f with stage := .engine engine }
      | none => d.fallbackParse f
  else d

def execResume (pipe engine : Nat) (s : State) : Host.Outcome State Fault Refusal := s.on (resume pipe engine)

/-- HANDOFF_WAIT_EXPIRY (R126): HANDOFF_WAIT cycles of 0.64 ns have passed without an entry. -/
def handoffExpiry (pipe engine : Nat) (d : Dev) : Dev :=
  match d.engineFrame pipe engine with
  | none => d
  | some f =>
    match f.px.waitAt with
    | none => d
    | some t =>
      if (d.rd (Reg.PARS_CFG.HANDOFF_WAIT pipe)) * 64 ≤ (d.now - t) * 100 then
        (d.cnt .beaterHandoffTimeout pipe).setFrame { f with px := { f.px with waitAt := none, waited := true } }
      else d

def execHandoffWaitExpiry (pipe engine : Nat) (s : State) : Host.Outcome State Fault Refusal := s.on (handoffExpiry pipe engine)

/-- STOP_REQUEST (R132): the cycles spent on a frame exceed MAX_CYCLES; values below 32 act as 32. -/
def stopRequest (pipe engine : Nat) (d : Dev) : Dev :=
  match d.engineFrame pipe engine with
  | some f =>
    if max 32 (d.rd (Reg.PARS_CFG.MAX_CYCLES pipe)) < f.px.cycles then d.setFrame { f with px := { f.px with stop := true } } else d
  | none => d

def execStopRequest (pipe engine : Nat) (s : State) : Host.Outcome State Fault Refusal := s.on (stopRequest pipe engine)

/-! ### Reload and scrub (R137, R138) -/

/-- COPY_RELOAD_DONE (R137): the supervisor has rewritten a copy and read it back. With every word correct it returns to
service; otherwise it is held out. -/
def reloadDone (pipe copy : Nat) (ok : Bool) (d : Dev) : Dev :=
  if d.supRunning && decide (copy < 16) && !d.copyIn pipe copy && decide (tget d.beat.outAt 0 (16 * pipe + copy) ≠ 0) &&
      !d.beat.heldOut.contains (16 * pipe + copy) then
    let lo := (16 * pipe + copy) * 2 ^ 15
    let d := { d with beat := { d.beat with bad := d.beat.bad.filter fun e => decide (e.1 < lo) || decide (lo + 2 ^ 15 ≤ e.1) } }
    let d := d.setBitOf (Reg.PARS_COPY_STATUS.RELOADING pipe) copy false
    let d := if ok then
        ({ d with beat := { d.beat with backAt := tput d.beat.backAt 0 (16 * pipe + copy) (d.now + 1) } }).setBitOf
          (Reg.PARS_COPY_STATUS.OUT pipe) copy false
      else { d with beat := { d.beat with heldOut := d.beat.heldOut ++ [16 * pipe + copy] } }
    let d := d.copiesFollow pipe
    d.log 0x3002 pipe (d.regData (Reg.PARS_COPY_STATUS.addr pipe) ++ le 1 pipe ++ le 1 copy ++ le 1 (if ok then 1 else 2))
  else d

def execCopyReloadDone (pipe copy : Nat) (ok : Bool) (s : State) : Host.Outcome State Fault Refusal :=
  s.on (reloadDone pipe copy ok)

/-- STORE_SCRUB (R138): every in-service copy is compared with the reference; a mismatch takes it out of service. `upsets`
are bits found flipped: copy, half, word, mask. -/
def storeScrub (pipe : Nat) (upsets : List (Nat × Nat × Nat × Nat)) (d : Dev) : Dev :=
  if d.supRunning && decide (pipe < 4) then
    let d := upsets.foldl (fun (d : Dev) (u : Nat × Nat × Nat × Nat) =>
      if u.1 < 16 && u.2.1 < 2 && u.2.2.1 < 2 ^ 14 then d.flipWord pipe u.1 u.2.1 u.2.2.1 u.2.2.2 else d) d
    (List.range 16).foldl (fun d k =>
      if d.copyIn pipe k && d.beat.bad.any (fun e => e.1 / 2 ^ 15 == 16 * pipe + k) then d.copyOut pipe k else d) d
  else d

def execStoreScrub (pipe : Nat) (upsets : List (Nat × Nat × Nat × Nat)) (s : State) : Host.Outcome State Fault Refusal :=
  s.on (storeScrub pipe upsets)

/-- The word that PARS_STORE_SEL selects is put into PARS_STORE_DATA. -/
def Dev.readStore (d : Dev) (pipe : Nat) : Dev :=
  let w := d.storeWord pipe (d.rd (Reg.PARS_STORE_SEL.COPY pipe)) (d.rd (Reg.PARS_STORE_SEL.HALF pipe))
    (d.rd (Reg.PARS_STORE_SEL.WORD pipe))
  (List.range 8).foldl (fun d i => d.setReg (Reg.PARS_STORE_DATA.addr pipe i) (BitVec.ofNat 32 (w / 2 ^ (32 * i)))) d

/-- STORE_WORD_READ (R51): a write of PARS_STORE_SEL with READ set puts the selected word into PARS_STORE_DATA. -/
def storeRead (master pipe value : Nat) (d : Dev) : Dev :=
  let a := Reg.PARS_STORE_SEL.addr pipe
  let (d, ok) := d.busWrite master a value 15
  if ok && decide (pipe < 4) then
    let p := d.privileged master
    let d := d.writeReg p a (BitVec.ofNat 32 value) 0
    if p && value.testBit 31 then d.readStore pipe else d
  else d

def execStoreWordRead (master pipe value : Nat) (s : State) : Host.Outcome State Fault Refusal := s.on (storeRead master pipe value)

end Sys2Proof.Machine
end

