-- ==== Sys2Proof/Machine/Redund.lean ====
section
/-! DEFINITION. Seamless redundancy (chapter 08): redundancy pairs, the node table and its writer, sequence numbers, the
recovery contexts, supervision frames and the checks of a pair; and the frames the device builds itself. -/

namespace Sys2Proof.Machine

/-! ### The pair table (R187) -/

def pairTid : Nat := 0x5201

/-- The bytes of an entry of `n` words of an indexed table. -/
def Dev.tabBytes (d : Dev) (tid i n : Nat) : List Byte := (List.range n).flatMap fun k => le 4 (d.tabF tid i k 0 32)

def Dev.pairValid (d : Dev) (r : Nat) : Bool := d.tabF pairTid r 0 7 1 == 1
def Dev.pairNet (d : Dev) (r : Nat) : Nat := d.tabF pairTid r 0 4 3
def Dev.pairSupEn (d : Dev) (r : Nat) : Bool := d.tabF pairTid r 0 1 1 == 1
def Dev.pairHsr (d : Dev) (r : Nat) : Bool := d.tabF pairTid r 0 0 1 == 1
def Dev.pairSupDa (d : Dev) (r : Nat) : Nat := d.tabF pairTid r 0 8 8
def Dev.pairA (d : Dev) (r : Nat) : Nat := d.tabF pairTid r 0 16 16
def Dev.pairB (d : Dev) (r : Nat) : Nat := d.tabF pairTid r 1 0 16
def Dev.pairIl (d : Dev) (r : Nat) : Nat := d.tabF pairTid r 1 16 16
def Dev.pairCtx (d : Dev) (r : Nat) : Nat × Nat := (d.tabF pairTid r 2 0 16, d.tabF pairTid r 2 16 16)
def Dev.pairRing (d : Dev) (r : Nat) : Nat × Nat := (d.tabF pairTid r 3 0 16, d.tabF pairTid r 3 16 16)
def Dev.pairReset (d : Dev) (r : Nat) : Nat := d.tabF pairTid r 4 0 16
def Dev.pairLife (d : Dev) (r : Nat) : Nat := d.tabF pairTid r 4 16 16
def Dev.pairMac (d : Dev) (r : Nat) : Nat := fromBe (slice (d.tabBytes pairTid r 7) 20 6)

/-- Pair `r` is in operation. -/
def Dev.pairActive (d : Dev) (r : Nat) : Bool := d.flag (Reg.STRM_RN_PAIR_STATUS.ACTIVE r)

/-- The active pair of which a port is A or B. -/
def Dev.pairOfPort (d : Dev) (n : Nat) : Option Nat :=
  (List.range 32).find? fun r => d.pairActive r && (d.pairA r == n || d.pairB r == n)

/-- The other port of a pair. -/
def Dev.pairOtherPort (d : Dev) (r n : Nat) : Nat := if d.pairA r = n then d.pairB r else d.pairA r

/-- Pipeline that owns a block of recovery contexts (R197). -/
def Dev.rcOwner (d : Dev) (ctx : Nat) : Option Nat :=
  [0, 1, 2, 3].find? fun p =>
    let k := ctx / 1024
    if k < 32 then d.bitOf (Reg.STRM_RC_BLOCKS_LO.OWN p) k else d.bitOf (Reg.STRM_RC_BLOCKS_HI.OWN p) (k - 32)

/-- A context is VALID in the context table (R197). -/
def Dev.ctxValid (d : Dev) (p ctx : Nat) : Bool := d.tabF (0x5100 + 0x10 * p) ctx 0 31 1 == 1

/-- Context ranges of a pair. -/
def Dev.pairRanges (d : Dev) (r : Nat) : List (Nat × Nat) := d.pairCtx r :: (if d.pairHsr r then [d.pairRing r] else [])

/-- The rules of R188 for a VALID pair. -/
def Dev.pairOk (d : Dev) (r : Nat) : Bool :=
  let a := d.pairA r
  let b := d.pairB r
  let il := d.pairIl r
  let others := (List.range 32).filter fun q => q != r && d.pairValid q
  let front (n : Nat) : Bool := decide (n < 256) && d.configured n
  a != b && a != il && b != il && front a && front b && front il &&
    others.all (fun q => !([d.pairA q, d.pairB q].contains a) && !([d.pairA q, d.pairB q].contains b) && !([d.pairA q, d.pairB q].contains il) &&
      d.pairIl q != a && d.pairIl q != b) &&
    (!d.pairHsr r || (pipeOf a == pipeOf b && d.portMode a == d.portMode b)) &&
    ([d.pairCtx r].all fun (lo, hi) => (List.range (hi / 1024 + 1)).all fun k =>
      decide (k < lo / 1024) || d.rcOwner (1024 * k) == some (pipeOf il)) &&
    (!d.pairHsr r || [d.pairRing r].all fun (lo, hi) => (List.range (hi / 1024 + 1)).all fun k =>
      decide (k < lo / 1024) || d.rcOwner (1024 * k) == some (pipeOf a)) &&
    (d.pairRanges r).all fun (lo, hi) =>
      ([0, 1, 2, 3].all fun p => (d.tabIndices (0x5100 + 0x10 * p) 65536).all fun c =>
        decide (c < lo) || decide (hi < c) || !d.ctxValid p c) &&
      others.all fun q => (d.pairRanges q).all fun (l, h) => decide (h < lo) || decide (hi < l)

/-- PAIR_CHECK (R188): at forwarding release every VALID pair becomes ACTIVE or CFG_ERR. -/
def Dev.checkPairs (d : Dev) : Dev :=
  let oks := (List.range 32).map fun r => (d.pairValid r, d.pairOk r)
  (List.range 32).foldl (fun d r =>
    match oks[r]? with
    | some (true, ok) => (d.setFlag (Reg.STRM_RN_PAIR_STATUS.ACTIVE r) ok).setFlag (Reg.STRM_RN_PAIR_STATUS.CFG_ERR r) !ok
    | _ => d) d

/-! ### The node table (R192 to R195) -/

/-- Bucket of a key of `bytes` in a table of `2^bits` buckets, from a seed (R143, R170, R193, R224). -/
def bucketOf (seed bits : Nat) (bytes : List Byte) : Nat := crc32 seed bytes % 2 ^ bits

/-- First slot of the bucket of a node (R193). -/
def Dev.nodeBucket (d : Dev) (r mac : Nat) : Nat :=
  8 * bucketOf (d.rd Reg.STRM_RN_SEED.SEED) 13 (le 1 r ++ le 1 0 ++ be 6 mac)

def Dev.node (d : Dev) (slot : Nat) : Node := tget d.red.nodes Node.zero slot

def Dev.setNode (d : Dev) (slot : Nat) (n : Node) : Dev := { d with red := { d.red with nodes := tput d.red.nodes Node.zero slot n } }

/-- The slots of a bucket of eight. -/
def bucketSlots (first : Nat) : List Nat := (List.range 8).map (first + ·)

/-- The entry of (pair, address). -/
def Dev.findNode (d : Dev) (r mac : Nat) : Option Nat :=
  (bucketSlots (d.nodeBucket r mac)).find? fun s => (d.node s).valid && (d.node s).pair == r && (d.node s).mac == mac

/-- `mac` is the RedBox's own address or that of a proxy entry (R191). -/
def Dev.ownMac (d : Dev) (r mac : Nat) : Bool :=
  mac == d.pairMac r ||
    match d.findNode r mac with
    | some s => (d.node s).proxy
    | none => false

/-- The seen bit of a port of a pair. -/
def Dev.seenBit (d : Dev) (r n : Nat) : Nat := if d.pairA r = n then 1 else if d.pairB r = n then 2 else 0

/-- A matching frame refreshes an entry (R194). -/
def Dev.touchNode (d : Dev) (slot r n : Nat) : Dev :=
  d.setNode slot { d.node slot with age := 0, seen := (d.node slot).seen ||| d.seenBit r n }

/-- next_seq (R195): the proxy entry's number, else the pair's default counter. -/
def Dev.nextSeq (d : Dev) (r mac : Nat) : Nat × Dev :=
  match d.findNode r mac with
  | some s =>
    if (d.node s).proxy then
      ((d.node s).cs, d.setNode s { d.node s with cs := ((d.node s).cs + 1) % 65536 })
    else
      let q := d.rd (Reg.STRM_RN_PAIR_STATUS.SEQ_DEFAULT r)
      (q, d.wr (Reg.STRM_RN_PAIR_STATUS.SEQ_DEFAULT r) (q + 1))
  | none =>
    let q := d.rd (Reg.STRM_RN_PAIR_STATUS.SEQ_DEFAULT r)
    (q, d.wr (Reg.STRM_RN_PAIR_STATUS.SEQ_DEFAULT r) (q + 1))

/-! ### Recovery contexts (R197, R199) -/

def Dev.rcv (d : Dev) (c : Nat) : Rcv := tget d.red.ctxs Rcv.zero c

def Dev.setRcv (d : Dev) (c : Nat) (r : Rcv) : Dev := { d with red := { d.red with ctxs := tput d.red.ctxs Rcv.zero c r } }

/-- A pipeline's millisecond count (R199). -/
def Dev.msCount (d : Dev) : Nat := d.now / 10 ^ 6 % 65536

/-- The signed difference of two 16-bit counts. -/
def diff16 (a b : Nat) : Int := toSigned 16 ((a + 65536 - b % 65536) % 65536)

/-- Allocates a context for a node with the frame's sequence (R194). -/
def Dev.allocRcv (d : Dev) (c seq port reset : Nat) (portB : Option Nat) : Dev :=
  let r := d.rcv c
  d.setRcv c { takeAny := false, recov := seq, last := d.msCount, hist := 1, gen := (r.gen + 1) % 256, alloc := some (port, reset, portB) }

/-- The lowest free context of a range. -/
def Dev.freeCtx (d : Dev) (lo hi : Nat) : Option Nat :=
  ((List.range (hi + 1 - lo)).map (lo + ·)).find? fun c => (d.rcv c).alloc.isNone

/-- NODE_INSERT (R194): the writer takes the oldest request: a known node is refreshed, a new one takes the lowest free slot
of its bucket and, when remote, its contexts. -/
def nodeInsert (d : Dev) : Dev :=
  match d.red.reqs with
  | [] => d
  | q :: rest =>
    let d := { d with red := { d.red with reqs := rest } }
    let r := q.pair
    match d.findNode r q.mac with
    | some s => d.touchNode s r q.port
    | none =>
      match (bucketSlots (d.nodeBucket r q.mac)).find? fun s => !(d.node s).valid with
      | none => d.cnt .rnTableFull r
      | some s =>
        let base : Node := { Node.zero with valid := true, mac := q.mac, pair := r, seen := d.seenBit r q.port }
        if q.proxy then (d.setNode s { base with proxy := true, cs := (q.seq + 1) % 65536 }).cnt .rnNodeInsert r
        else
          match d.freeCtx (d.pairCtx r).1 (d.pairCtx r).2 with
          | none => d.cnt .rnTableFull r
          | some c =>
            if d.pairHsr r then
              match d.freeCtx (d.pairRing r).1 (d.pairRing r).2 with
              | none => d.cnt .rnTableFull r
              | some g =>
                let d := d.allocRcv c q.seq (d.pairIl r) (d.pairReset r) none
                let d := d.allocRcv g q.seq (d.pairA r) (d.pairReset r) (some (d.pairB r))
                (d.setNode s { base with cs := c, ring := g, gen := (d.rcv c).gen, ringGen := (d.rcv g).gen }).cnt .rnNodeInsert r
            else
              let d := d.allocRcv c q.seq (d.pairIl r) (d.pairReset r) none
              (d.setNode s { base with cs := c, gen := (d.rcv c).gen }).cnt .rnNodeInsert r

def execNodeInsert (s : State) : Host.Outcome State Fault Refusal := s.on nodeInsert

/-- Frees a context; its generation stays. -/
def Dev.freeRcv (d : Dev) (c : Nat) : Dev := d.setRcv c { Rcv.zero with gen := (d.rcv c).gen }

/-- NODE_SWEEP (R194): once a second AGE_S rises, and nodes older than FORGET_S go with their contexts. -/
def nodeSweep (d : Dev) : Dev :=
  if d.red.nodeSweep + 10 ^ 9 ≤ d.now then
    let d := { d with red := { d.red with nodeSweep := d.now } }
    (d.red.nodes.map fun e => e.1).foldl (fun d s =>
      let n := d.node s
      let age := min 65535 (n.age + 1)
      if d.rd Reg.STRM_RN_CFG.FORGET_S < age then
        let d := if n.proxy then d else
          let d := d.freeRcv n.cs
          if d.pairHsr n.pair then d.freeRcv n.ring else d
        (d.setNode s Node.zero).cnt .rnNodeForget n.pair
      else d.setNode s { n with age := age }) d
  else d

def execNodeSweep (s : State) : Host.Outcome State Fault Refusal := s.on nodeSweep

/-- PORT and RESET_MS of a context as it acts, in pipeline `p`: from the table, or from the pair that allocated it. -/
def Dev.rcvCfg (d : Dev) (p c : Nat) : Option (Nat × Nat × Option Nat) :=
  match (d.rcv c).alloc with
  | some a => some a
  | none =>
    if d.ctxValid p c then some (d.tabF (0x5100 + 0x10 * p) c 0 16 9, d.tabF (0x5100 + 0x10 * p) c 0 0 15, none) else none

/-- TAKE_ANY_SWEEP (R200): once a second TAKE_ANY sets in every context idle beyond RESET_MS. -/
def takeAnySweep (d : Dev) : Dev :=
  if d.red.ctxSweep + 10 ^ 9 ≤ d.now then
    let d := { d with red := { d.red with ctxSweep := d.now } }
    (d.red.ctxs.map fun e => e.1).foldl (fun d c =>
      let r := d.rcv c
      match d.rcvCfg ((d.rcOwner c).getD 0) c with
      | some (_, reset, _) => if (reset : Int) < diff16 d.msCount r.last then d.setRcv c { r with takeAny := true } else d
      | none => d) d
  else d

def execTakeAnySweep (s : State) : Host.Outcome State Fault Refusal := s.on takeAnySweep

/-- The vector recovery algorithm on context `c` (R199): passed, and the device after it. -/
def Dev.vectorRecover (d : Dev) (c reset seq : Nat) : Bool × Dev :=
  let r := d.rcv c
  let t := d.msCount
  if r.takeAny || decide ((reset : Int) < diff16 t r.last) then
    let d := if r.takeAny then d else d.cnt .rcvResets c
    (true, (d.setRcv c { r with recov := seq, hist := 1, takeAny := false, last := t }).cnt .rcvPassed c)
  else
    let k := diff16 seq r.recov
    if 128 ≤ k ∨ k ≤ -128 then (false, (d.cnt .rcvRogue c).cnt .rcvDiscarded c)
    else if 0 < k then
      (true, (d.setRcv c { r with hist := (r.hist * 2 ^ k.toNat ||| 1) % 2 ^ 128, recov := seq, last := t }).cnt .rcvPassed c)
    else if r.hist.testBit (-k).toNat then (false, d.cnt .rcvDiscarded c)
    else
      (true, ((d.setRcv c { r with hist := r.hist ||| 2 ^ (-k).toNat, last := t }).cnt .rcvOutOfOrder c).cnt .rcvPassed c)

/-! ### Frames the device builds (R204, R322, R323) -/

/-- The descriptor fields of a copy that has not been sent, for a frame and a port. -/
def Copy.mk0 (i : Nat) (f : Frame) (dst cls : Nat) : Copy :=
  { id := i, frame := f.id, inPort := f.port, src := f.src, dst := dst, cls := cls, ct := false, kind := 0, ctx := 0, ctxGen := 0,
    session := 0, seqSrc := 0, seq := 0, spill := .resident, block := none, want := none, held := 0, granted := false, sent := 0,
    out := false, read := false, arrived := 0, staged := 0, last := false, lost := false, queued := false, txAt := none, wire := [], cutAt := 0,
    preempted := false, endErr := 0, startNo := 0, reqNo := 0, qNo := 0 }

/-- A frame built in the device stands at once in a class queue (R204, R323), holding no bank or staging cell. It counts as
originated (R387). -/
def Dev.originate (d : Dev) (port cls seqSrc seq : Nat) (inst : Option Nat) (bytes : List Byte) : Dev :=
  let f0 := d.newFrame 258 0 0
  let f := { f0 with
    bytes := refcs (bytes ++ List.replicate 4 0), ended := true, stage := .linked, pend := false, cls := cls, inst := inst }
  let c := { Copy.mk0 d.path.nextCopy f port cls with out := true, read := true, last := true, queued := true, seqSrc := seqSrc, seq := seq, qNo := d.path.nextQ }
  let d := { d with path := { d.path with
    frames := d.path.frames ++ [f], copies := d.path.copies ++ [c], nextFrame := d.path.nextFrame + 1,
    nextCopy := d.path.nextCopy + 1, nextQ := d.path.nextQ + 1 } }
  (d.cnt .framesOriginated 0).cnt .egrQFrames (8 * port + cls)

/-! ### Supervision (R204) -/

/-- Zero bytes up to 60, the shortest frame without its FCS. -/
def padFrame (b : List Byte) : List Byte := b ++ List.replicate (60 - b.length) 0

/-- A supervision frame (R204, IEC 62439-3): for the RedBox itself, or for a proxy with TLV 30 naming the RedBox. -/
def Dev.supFrame (d : Dev) (r seq : Nat) (proxy : Option Nat) : List Byte :=
  let own := d.pairMac r
  let typ := if d.pairHsr r then 23 else 20
  padFrame (be 5 0x01154E0001 ++ le 1 (d.pairSupDa r) ++ be 6 own ++ be 2 0x88FB ++ be 2 1 ++ be 2 seq ++ le 1 typ ++ le 1 6 ++
    be 6 (proxy.getD own) ++ (if proxy.isSome then le 1 30 ++ le 1 6 ++ be 6 own else []) ++ le 2 0)

/-- SUPERVISION_TX (R204): one supervision frame on A and one on B, for the RedBox (slot 65,536) or for a proxy entry, once
every LIFE_MS. Both carry one number of the pair. -/
def supervisionTx (pair slot : Nat) (d : Dev) : Dev :=
  let key := pair * 2 ^ 17 + slot
  let proxy := if slot < 65536 then (if (d.node slot).valid && (d.node slot).proxy && (d.node slot).pair == pair then
    some (d.node slot).mac else none) else none
  let last := tget d.red.supAt 0 key
  if d.pairActive pair && d.pairSupEn pair && (slot == 65536 || proxy.isSome) &&
      (last == 0 || decide (last + d.pairLife pair * 10 ^ 6 ≤ d.now + 1)) then
    let (seq, d) := d.nextSeq pair (proxy.getD (d.pairMac pair))
    let b := d.supFrame pair seq proxy
    let d := (d.originate (d.pairA pair) 7 3 seq none b).originate (d.pairB pair) 7 3 seq none b
    ({ d with red := { d.red with supAt := tput d.red.supAt 0 key (d.now + 1) } }).cntBy .rnSupTx pair 2
  else d

def execSupervisionTx (pair slot : Nat) (s : State) : Host.Outcome State Fault Refusal := s.on (supervisionTx pair slot)

/-! ### What step 8 does for pairs (R190 to R196, R204) -/

/-- A frame received on a pair port is redundancy-tagged (R190). -/
def Dev.redTagged (d : Dev) (f : Frame) (r : Nat) : Bool := if d.pairHsr r then f.flagBit 3 else f.flagBit 4

/-- The counts of R190 and R206 for a frame from a pair port. -/
def Dev.countPairRx (d : Dev) (f : Frame) (r : Nat) : Dev :=
  let path := f.hvF 12 28 4
  if d.redTagged f r then
    let d := d.cnt (if d.pairA r = f.port then .rnRxA else .rnRxB) r
    let wrong := if d.pairHsr r then path / 2 != d.pairNet r else path != (if d.pairA r = f.port then 0xA else 0xB)
    if wrong then d.cnt .rnWrongLan r else d
  else d.cnt .rnUntagged r

/-- A supervision frame: EtherType 0x88FB to 01-15-4E-00-01-xx (R204). -/
def Frame.isSupervision (f : Frame) : Bool := f.hvF 11 0 16 == 0x88FB && f.da / 256 == 0x01154E0001

/-- The node named in TLV1 of a supervision frame. -/
def Frame.tlv1Mac (f : Frame) : Nat := fromBe (slice f.bytes (f.hvF 11 16 8 + 8) 6)

/-- The node lookup and the node request of a redundancy-tagged frame from a pair port (R192, R194). -/
def Dev.nodeLookup (d : Dev) (f : Frame) (r : Nat) : Frame × Dev :=
  let seq := f.hvF 12 0 16
  if d.redTagged f r then
    let mac := if f.isSupervision then f.tlv1Mac else f.sa
    match d.findNode r mac with
    | some s =>
      let n := d.node s
      let d := d.touchNode s r f.port
      if n.proxy then (f, d)
      else ({ f with ctx := some (n.cs, n.gen), ring := if d.pairHsr r then some (n.ring, n.ringGen) else none }, d)
    | none =>
      if groupBit mac || mac == 0 then (f, d) else ({ f with node := some ⟨r, mac, f.port, seq, false⟩ }, d)
  else (f, d)

/-- The pair rules on a forwarding set (R191): none is a drop of a frame of the device's own. `member` is the VLAN's. -/
def Dev.pairRules (d : Dev) (f : Frame) (set member : Nat) : Option (Nat × Frame × Dev) :=
  match d.pairOfPort f.port with
  | some r =>
    let d := d.countPairRx f r
    if d.pairHsr r && d.ownMac r f.sa then none
    else
      let tagged := d.redTagged f r
      let keep := 2 ^ d.pairIl r ||| 2 ^ 258
      let keep := if d.pairHsr r && tagged && !(!groupBit f.da && d.ownMac r f.da) then
          keep ||| (2 ^ d.pairOtherPort r f.port &&& member)
        else keep
      let set := set &&& keep
      let (f, d) := d.nodeLookup f r
      if f.isSupervision then
        let d := d.cnt .rnSupRx r
        let set := if set.testBit (d.pairIl r) then (set ^^^ 2 ^ d.pairIl r) ||| 2 ^ 258 else set
        some (set, f, d)
      else some (set, f, d)
  | none =>
    some ((List.range 32).foldl (fun (a : Nat × Frame × Dev) q =>
      let (set, f, d) := a
      let ab := 2 ^ d.pairA q ||| 2 ^ d.pairB q
      if d.pairActive q && (set &&& ab) != 0 then
        if f.port = d.pairIl q || f.port = 258 then
          let (n, d) := d.nextSeq q f.sa
          let entry := d.findNode q f.sa
          let d := match entry with
            | some s => d.touchNode s q f.port
            | none => d
          let f := { f with
            pairSeq := f.pairSeq ++ [(q, n)],
            node := if entry.isSome || groupBit f.sa || f.sa == 0 then f.node else some ⟨q, f.sa, f.port, n, true⟩ }
          (set ||| (ab &&& member), f, d)
        else (set &&& ((2 ^ 259 - 1) ^^^ ab), f, d)
      else a) (set, f, d))

/-- The sequence a frame arrived with (R198): R-tag before PRP or HSR. -/
def Frame.ownSeq (f : Frame) : Frame :=
  if f.flagBit 5 then { f with seqSrc := 2, seq := f.hvF 13 0 16 }
  else if f.flagBit 3 || f.flagBit 4 then { f with seqSrc := 3, seq := f.hvF 12 0 16 } else f

/-- The sequence a frame carries (R196, R198): generated, R-tag, or PRP or HSR, in that order. -/
def Dev.frameSeq (d : Dev) (f : Frame) : Frame × Dev :=
  match f.handle with
  | some h =>
    let w := d.tabW (0x5003 + 0x10 * f.pipe) h 0
    if fget w 31 1 = 1 then
      let n := match tget d.red.genNext 0 h with
        | 0 => fget w 0 16
        | k + 1 => k
      let d := { d with red := { d.red with genNext := tput d.red.genNext 0 h ((n + 1) % 65536 + 1) } }
      ({ f with seqSrc := 1, seq := n }, d.cnt .frerGenFrames h)
    else (f.ownSeq, d)
  | none => (f.ownSeq, d)
end Sys2Proof.Machine
end

