-- ==== Sys2Proof/Machine/Ptp.lean ====
section
/-! DEFINITION. The time protocol engine's messages (R319 to R325): matching a frame to an instance, consumption, the receive
buffer, frames the engine sends, and the general messages of a two-step transparent clock. The protocol state machines are
those of IEEE 1588 and IEEE 802.1AS; their outcomes reach the device as operands. -/

namespace Sys2Proof.Machine

/-- An interval of an instance lies outside its range (TIME_INST_INTV). -/
def Dev.intvBad (d : Dev) (k : Nat) : Bool :=
  let out (v lo hi : Int) : Bool := decide (v < lo) || decide (hi < v)
  out (d.rdS (Reg.TIME_INST_INTV.LOG_SYNC k)) (-7) 4 || out (d.rdS (Reg.TIME_INST_INTV.LOG_ANN k)) (-3) 4 ||
    out (d.rdS (Reg.TIME_INST_INTV.LOG_DREQ k)) (-7) 5 || decide (d.rd (Reg.TIME_INST_INTV.ANN_TO k) < 2)

/-- The combination of an instance's settings is not permitted (R319, R320). -/
def Dev.ptpBad (d : Dev) (k : Nat) : Bool :=
  let prof := d.rd (Reg.TIME_INST_CFG.PROFILE k)
  let typ := d.rd (Reg.TIME_INST_CFG.TYPE k)
  let tr := d.rd (Reg.TIME_INST_CFG.TRANSPORT k)
  decide (4 < prof) || decide (4 < typ) || tr == 3 || (decide (2 ≤ prof) && tr != 0) ||
    (prof == 4 && ((typ != 0 && typ != 2) || d.flag (Reg.TIME_INST_CFG.ONE_STEP k))) || d.intvBad k

/-- CFG_ERR of an instance follows its settings (R319). -/
def Dev.ptpCheck (d : Dev) (k : Nat) : Dev := d.setFlag (Reg.TIME_INST_STATUS.CFG_ERR k) (d.ptpBad k)

/-- Port mask of an instance. -/
def Dev.ptpPort (d : Dev) (k n : Nat) : Bool := decide (n < 258) && d.bitOf (Reg.TIME_INST_PORTS.PORTS k (n / 32)) (n % 32)

/-- The enabled instance a PTP frame on its port matches (R321). -/
def Dev.ptpInst (d : Dev) (f : Frame) : Option Nat :=
  if f.flagBit 9 || f.flagBit 10 then
    (List.range 8).find? fun k =>
      let tr := d.rd (Reg.TIME_INST_CFG.TRANSPORT k)
      d.flag (Reg.TIME_INST_CFG.EN k) && !d.ptpBad k &&
        (match tr with
          | 0 => f.flagBit 9
          | 1 => f.flagBit 10 && f.flagBit 6
          | _ => f.flagBit 10 && f.flagBit 7) &&
        d.rd (Reg.TIME_INST_CFG.DOMAIN k) == f.hvF 25 8 8 && d.rd (Reg.TIME_INST_CFG.SDO k) == f.hvF 25 4 4 && d.ptpPort k f.port
  else none

/-- An instance of a TYPE consumes a messageType (R321). -/
def ptpConsumes (typ mt : Nat) : Bool :=
  match typ with
  | 3 => mt == 2 || mt == 3 || mt == 0xA
  | 4 => mt == 2 || mt == 3 || mt == 0xA || mt == 8 || mt == 9
  | _ => true

/-- The instance that takes a frame out of forwarding. -/
def Dev.ptpTakes (d : Dev) (f : Frame) : Option Nat :=
  match d.ptpInst f with
  | some k => if ptpConsumes (d.rd (Reg.TIME_INST_CFG.TYPE k)) (f.hvF 25 0 4) then some k else none
  | none => none

/-- The PTP message of a frame, from its header on. -/
def Frame.ptpBytes (f : Frame) : List Byte := f.bytes.drop (f.hvF 26 16 8)

/-- The identity by which a general message is matched to its event (R322): sourcePortIdentity, or in a Delay_Resp the
requestingPortIdentity. -/
def ptpSource (b : List Byte) : Nat := if fromBe (slice b 0 1) % 16 = 9 then fromBe (slice b 44 10) else fromBe (slice b 20 10)

/-- The outcome of the best master clock algorithm shows in TIME_INST_STATUS (R320). -/
def Dev.setBmca (d : Dev) (k : Nat) (b : Bmca) : Dev :=
  let old := d.reg (Reg.TIME_INST_STATUS.addr k)
  let d := (d.setFlag (Reg.TIME_INST_STATUS.PARENT_VALID k) b.parent).setFlag (Reg.TIME_INST_STATUS.GM k) b.gm
  let d := (d.wr (Reg.TIME_INST_STATUS.SLAVE_PORT k) b.slavePort).wr (Reg.TIME_INST_STATUS.STEPS_REMOVED k) b.steps
  if d.reg (Reg.TIME_INST_STATUS.addr k) = old then d else d.cnt .bmcaChanges k

/-- Messages still in the receive buffer: the engine takes 1,000,000 a second (R325). -/
def Dev.ptpWaiting (d : Dev) : List PtpMsg := d.time.ptpBuf.filter fun m => decide (d.now < m.done)

/-- PTP_RX (R321, R325): a frame whose vector has been delivered is matched to an instance and, by its TYPE, consumed. -/
def ptpRx (frame : Nat) (bmca : Option Bmca) (d : Dev) : Dev :=
  match d.frame frame with
  | none => d
  | some f =>
    if f.stage = .identify then
      match d.ptpTakes f with
      | none => d
      | some k =>
        let typ := d.rd (Reg.TIME_INST_CFG.TYPE k)
        let mt := f.hvF 25 0 4
        let buf := d.ptpWaiting
        let d := { d with time := { d.time with ptpBuf := buf } }
        if 256 ≤ buf.length then (d.cnt .ptpEngineDrop k).consumeFrame f
        else
          let b := f.ptpBytes
          let start := max d.now ((buf.getLast?.map PtpMsg.done).getD 0)
          let d := { d with time := { d.time with
            ptpBuf := buf ++ [(⟨k, f.port, mt, f.hvF 26 0 16, ptpSource b, start + 1000⟩ : PtpMsg)] } }
          let d := d.cnt .ptpRx f.port
          let d := if mt = 0xD then d.cnt .ptpMgmtIgnored k else d
          let d := if typ = 4 && (mt == 8 || mt == 9) then
              let h : Tc2Held := ⟨k, mt, f.hvF 26 0 16, ptpSource b, f.bytes, f.hvF 26 16 8, [], d.now⟩
              { d with time := { d.time with
                tc2 := (d.time.tc2.filter fun x => !(x.inst == k && x.src == h.src && x.seqId == h.seqId)) ++ [h] } }
            else d
          let d := match bmca with
            | some o => if typ < 3 then d.setBmca k o else d
            | none => d
          d.consumeFrame f
    else d

def execPtpRx (frame : Nat) (bmca : Option Bmca) (s : State) : Host.Outcome State Fault Refusal := s.on (ptpRx frame bmca)

/-- Source address of frames a port's MAC or engine sends: base + 1 + n (R41, R83, R323). -/
def Dev.portMac (d : Dev) (n : Nat) : Nat := (d.boot.fuses.baseMac + 1 + n) % 2 ^ 48

/-- Destination address of a PTP message on L2 (R323). -/
def ptpDa (profile mt : Nat) : Nat :=
  if profile = 4 || mt == 2 || mt == 3 || mt == 0xA then 0x0180C200000E else 0x011B19000000

/-- PTP_TX (R323): an instance sends a message on one of its ports. On L2 `bytes` is the PTP message; on UDP it is everything
from the DA on but the SA (the device's IP address is nowhere in the spec). -/
def ptpTx (inst port : Nat) (bytes : List Byte) (d : Dev) : Dev :=
  if d.boot.released && decide (inst < 8) && d.flag (Reg.TIME_INST_CFG.EN inst) && !d.ptpBad inst && d.ptpPort inst port &&
      d.configured port && d.linkUp port then
    let prof := d.rd (Reg.TIME_INST_CFG.PROFILE inst)
    let mt := fromBe (slice bytes 0 1) % 16
    let b := if d.rd (Reg.TIME_INST_CFG.TRANSPORT inst) = 0 then be 6 (ptpDa prof mt) ++ be 6 (d.portMac port) ++ be 2 0x88F7 ++ bytes
      else slice bytes 0 6 ++ be 6 (d.portMac port) ++ bytes.drop 6
    (d.originate port (d.rd (Reg.TIME_INST_CFG.CLASS inst)) 0 0 (some inst) (padFrame b)).cnt .ptpTx port
  else d

def execPtpTx (inst port : Nat) (bytes : List Byte) (s : State) : Host.Outcome State Fault Refusal := s.on (ptpTx inst port bytes)

/-- The message a TC2 instance holds (R322). -/
def Dev.tc2Held (d : Dev) (inst src seqId : Nat) : Option Tc2Held :=
  d.time.tc2.find? fun h => h.inst == inst && h.src == src && h.seqId == seqId

/-- Offset of the PTP message in a frame that the engine built. -/
def ptpOffset (b : List Byte) : Nat :=
  match fromBe (slice b 12 2) with
  | 0x88F7 => 14
  | 0x0800 => 14 + 4 * (fromBe (slice b 14 1) % 16) + 8
  | _ => 62

/-- One's complement sum of two 16-bit numbers. -/
def ocAdd (a b : Nat) : Nat := (a + b) % 65536 + (a + b) / 65536

/-- An Internet checksum after a change of words (RFC 1624). -/
def csumFix (sum : Nat) (old new : List Byte) (words : Nat) : Nat :=
  let s := (List.range words).foldl (fun a i =>
    ocAdd (ocAdd a (65535 - fromBe (slice old (2 * i) 2))) (fromBe (slice new (2 * i) 2))) (65535 - sum)
  if 65535 - s = 0 then 65535 else 65535 - s

/-- The UDP checksum of a PTP message at `po` after a change of `words` words at `po + at_`, over transport `udp`: 0 L2, 1 IPv4, where it
is set to zero, 2 IPv6, where it follows the change (R302). -/
def fixUdp (udp : Nat) (old new : List Byte) (po at_ words : Nat) : List Byte :=
  match udp with
  | 1 => patch new (po - 2) [0, 0]
  | 2 => patch new (po - 2) (be 2 (csumFix (fromBe (slice old (po - 2) 2)) (slice old (po + at_) (2 * words)) (slice new (po + at_) (2 * words))
      words))
  | _ => new

/-- The egress timestamp of the event copy that left on a port. -/
def Dev.tc2Entry (d : Dev) (h : Tc2Held) (port : Nat) : Option TsEntry :=
  (tget d.time.tsq [] port).find? fun e => e.inst == h.inst && e.src == h.src && e.seqId == h.seqId && e.msgType + 8 == h.msgType

/-- Adds a residence in ns to the correctionField of the PTP header at `off` (R302). -/
def addCorrection (b : List Byte) (off ns : Nat) : List Byte :=
  patch b (off + 8) (be 8 ((fromBe (slice b (off + 8) 8) + ns * 2 ^ 16) % 2 ^ 64))

/-- A port of a held message is dealt with. -/
def Dev.tc2Done (d : Dev) (h : Tc2Held) (port : Nat) : Dev :=
  { d with time := { d.time with tc2 := d.time.tc2.map fun x => if x = h then { h with served := port :: h.served } else x } }

/-- TC2_FORWARD (R322): the engine sends the held general message on a port the event copy left on. -/
def tc2Forward (inst src seqId port : Nat) (d : Dev) : Dev :=
  match d.tc2Held inst src seqId with
  | none => d
  | some h =>
    match d.tc2Entry h port with
    | none => d
    | some e =>
      if d.now < h.since + 10 ^ 7 && !h.served.contains port then
        let res := tNsTotal ((e.time + tbModulus - e.ing % tbModulus) % tbModulus + nsUnit / 2)
        let b := fixUdp (d.rd (Reg.TIME_INST_CFG.TRANSPORT inst)) h.bytes (addCorrection h.bytes h.off res) h.off 8 4
        let b := b.take 6 ++ be 6 (d.portMac port) ++ (b.take (b.length - 4)).drop 12
        let d := (d.tc2Done h port)
        let d := { d with time := { d.time with
          tsq := tput d.time.tsq [] port ((tget d.time.tsq [] port).filter fun (x : TsEntry) => x ≠ e) } }
        (d.originate port (d.rd (Reg.TIME_INST_CFG.CLASS inst)) 0 0 none b).cnt .ptpTx port
      else d

def execTc2Forward (inst src seqId port : Nat) (s : State) : Host.Outcome State Fault Refusal := s.on (tc2Forward inst src seqId port)

/-- TC2_ABANDON (R322): after 10 ms a port without a timestamp entry gets no copy, and this is counted once. -/
def tc2Abandon (inst src seqId port : Nat) (d : Dev) : Dev :=
  match d.tc2Held inst src seqId with
  | some h =>
    if h.since + 10 ^ 7 ≤ d.now && (d.tc2Entry h port).isNone && !h.served.contains port then
      (d.tc2Done h port).cnt .tc2Abandoned port
    else d
  | none => d

def execTc2Abandon (inst src seqId port : Nat) (s : State) : Host.Outcome State Fault Refusal := s.on (tc2Abandon inst src seqId port)

end Sys2Proof.Machine
end

