-- ==== Sys2Proof/Machine/Streams.lean ====
section
/-! DEFINITION. Streams, filters and policers (chapter 07): identification, the stream filter, gate and meter, and the port
aggregate policer. -/

namespace Sys2Proof.Machine

/-! ### Identification (R169 to R172) -/

/-- TPID a port uses (LKUP_PORT_CFG.TPID_SEL). -/
def Dev.portTpid (d : Dev) (n : Nat) : Nat :=
  if d.flag (Reg.LKUP_PORT_CFG.TPID_SEL (pipeOf n) (portIdx n)) then 0x88A8 else 0x8100

/-- The ingress VID of a frame (R146). -/
def Dev.ingressVid (d : Dev) (f : Frame) : Nat :=
  if f.flagBit 1 && f.hvF 9 16 16 == d.portTpid f.port && f.hvF 9 0 12 != 0 then f.hvF 9 0 12
  else d.rd (Reg.LKUP_PORT_CFG.PVID (pipeOf f.port) (portIdx f.port))

/-- An identification slot. -/
def Dev.idEnt (d : Dev) (p slot : Nat) : KEnt := tget d.strm.ids KEnt.zero (2 ^ 16 * p + slot)

/-- Fields of an identification entry (R169). -/
def idField (b : List Byte) (off n : Nat) : Nat := fromLe (slice b off n)

/-- The key of an entry: HANDLE, TAG_MATCH and PORT zero (R170). -/
def idKey (b : List Byte) : List Byte := patch (patch b 2 [0, 0]) 6 [0, 0, 0, 0]

/-- Visible entries of a pipeline of a METHOD and PROFILE (STRM_ID_COUNT). -/
def Dev.idCount (d : Dev) (p method profile : Nat) : Nat :=
  (d.strm.ids.filter fun e => e.1 / 2 ^ 16 == p && !e.2.new && idField e.2.bytes 0 1 == method && idField e.2.bytes 1 1 == profile).length

/-- The key a probe forms from a frame (R170, R172). -/
def Dev.probeKey (d : Dev) (p : Nat) (f : Frame) (vid method profile : Nat) : List Byte :=
  let z := List.replicate 64 (0 : Byte)
  if method = 3 then
    let on (r : FRef) (b : List Byte) (k : List Byte → List Byte) : List Byte := if d.flag r then k b else b
    let v6 := f.flagBit 7
    let ip (w : Nat) : List Byte := if v6 then (List.range 4).flatMap fun i => be 4 (f.hv (w + i)) else List.replicate 12 0 ++ be 4 (f.hv w)
    let b := patch (patch z 0 (le 1 3 ++ le 1 profile)) 54 (le 1 (if v6 then 6 else 4))
    let b := on (Reg.STRM_IP_PROFILE.VID p profile) b fun b => patch b 4 (le 2 vid)
    let b := on (Reg.STRM_IP_PROFILE.DA p profile) b fun b => patch b 10 (be 6 f.da)
    let b := on (Reg.STRM_IP_PROFILE.SRC p profile) b fun b => patch b 16 (ip 14)
    let b := on (Reg.STRM_IP_PROFILE.DST p profile) b fun b => patch b 32 (ip 18)
    let b := on (Reg.STRM_IP_PROFILE.DSCP p profile) b fun b => patch b 48 (le 1 (f.hvF 22 8 6))
    let b := on (Reg.STRM_IP_PROFILE.PROTO p profile) b fun b => patch b 49 (le 1 (f.hvF 22 0 8))
    let b := on (Reg.STRM_IP_PROFILE.SPORT p profile) b fun b => patch b 50 (le 2 (f.hvF 24 16 16))
    on (Reg.STRM_IP_PROFILE.DPORT p profile) b fun b => patch b 52 (le 2 (f.hvF 24 0 16))
  else patch (patch (patch z 0 (le 1 method)) 4 (le 2 vid)) 10 (be 6 (if method = 1 then f.sa else f.da))

/-- Slots of the bucket of a key in a pipeline's identification table (R170). -/
def Dev.idBucket (d : Dev) (p : Nat) (key : List Byte) : List Nat :=
  bucketSlots (8 * bucketOf (d.rd (Reg.STRM_ID_SEED.SEED p)) 13 key)

/-- One probe: the HANDLE of an entry whose key, PORT and TAG_MATCH accept the frame (R172). -/
def Dev.probe (d : Dev) (f : Frame) (key : List Byte) : Option Nat :=
  let tagged := f.flagBit 1 && f.hvF 9 0 12 != 0
  ((d.idBucket f.pipe key).find? fun s =>
    let e := d.idEnt f.pipe s
    !e.bytes.isEmpty && !e.new && idKey e.bytes == key && (idField e.bytes 8 2 == 0x1FF || idField e.bytes 8 2 == f.port) &&
      (match idField e.bytes 6 1 with
        | 1 => tagged
        | 2 => !tagged
        | _ => true)).map fun s => idField (d.idEnt f.pipe s).bytes 2 2

/-- The probes of a frame in their order: METHOD and profile (R172). -/
def Dev.probes (d : Dev) (f : Frame) : List (Nat × Nat) :=
  ((List.range 4).filter fun k =>
      (f.flagBit 6 || f.flagBit 7) && d.flag (Reg.STRM_IP_PROFILE.EN f.pipe k) &&
        !(f.flagBit 8 && (d.flag (Reg.STRM_IP_PROFILE.SPORT f.pipe k) || d.flag (Reg.STRM_IP_PROFILE.DPORT f.pipe k)))).map (fun k => (3, k)) ++
    [(2, 0), (0, 0), (1, 0)]

/-- STREAM_IDENTIFY (R172): the first probe that finds an admitting entry gives the handle. A frame without one goes to
step 7. -/
def streamIdentify (frame : Nat) (d : Dev) : Dev :=
  match d.frame frame with
  | none => d
  | some f =>
    if f.stage = .identify && (d.ptpTakes f).isNone then
      let p := f.pipe
      let vid := d.ingressVid f
      let f := { f with vid := vid, cls := f.hvF 35 0 3 }
      let h := if d.flag (Reg.STRM_CFG.ID_EN p) then
          (d.probes f).findSome? fun (m, k) => d.probe f (d.probeKey p f vid m k)
        else none
      match h with
      | some h => ((d.cnt .streamIdHit p).cnt .streamFrames h).setFrame { f with handle := some h, stage := .filter }
      | none => (d.cnt .streamIdMiss p).setFrame { f with stage := .filter }
    else d

def execStreamIdentify (frame : Nat) (s : State) : Host.Outcome State Fault Refusal := s.on (streamIdentify frame)

/-! ### Gates (R177 to R179) -/

/-- TABLE_ID of stream contexts, stream gate lists of a pipeline. -/
def ctxTid (p : Nat) : Nat := 0x5001 + 0x10 * p
def sgateTid (p : Nat) : Nat := 0x5002 + 0x10 * p

/-- A field of a handle's context (R173): word, lowest bit, width. -/
def Dev.sctx (d : Dev) (p h w lo wd : Nat) : Nat := d.tabF (ctxTid p) h w lo wd

/-- Position in a cycle of a schedule: the entry (by number) and the offset at which it began, none where the list is empty.
The last entry holds to the cycle end (R177, R290). -/
def entryAt (interval : Nat → Nat) (n pos : Nat) : Option (Nat × Nat) :=
  if n = 0 then none
  else
    let r := (List.range (n - 1)).foldl (fun (a : Nat × Nat × Bool) i =>
      if a.2.2 then a else if pos < a.2.1 + interval i then (i, a.2.1, true) else (i + 1, a.2.1 + interval i, false)) (0, 0, false)
    some (r.1, r.2.1)

/-- Offset of an instant in its cycle (R177: N may be negative). -/
def Sched.pos (s : Sched) (t : Nat) : Nat := if s.cycle = 0 then 0 else (((t : Int) - s.base) % (s.cycle : Int)).toNat

/-- The first cycle start of a schedule at or after an instant (R178, R291). -/
def firstStart (base cycle t : Nat) : Nat :=
  if cycle = 0 then max base t else if t ≤ base then base - (base - t) / cycle * cycle else base + (t - base + cycle - 1) / cycle * cycle

/-- The entry of a stream gate schedule at an instant: its number and the instant it began. -/
def Dev.sgateEntry (d : Dev) (p : Nat) (s : Sched) (t : Nat) : Option (Nat × Nat) :=
  (entryAt (fun i => d.tabF (sgateTid p) (s.first + i) 0 0 32) s.len (s.pos t)).map fun e => (e.1, t - s.pos t + e.2)

def Dev.sgate (d : Dev) (h : Nat) : SGate := tget d.strm.gate SGate.zero h

def Dev.setSgate (d : Dev) (h : Nat) (g : SGate) : Dev := { d with strm := { d.strm with gate := tput d.strm.gate SGate.zero h g } }

/-- A time on one base taken onto another (R177, R311): the difference of the two presentation times now is added. -/
def Dev.translate (d : Dev) (t fromTb toTb : Nat) : Nat :=
  (((t : Int) + d.pres toTb - d.pres fromTb) % (tbModulus : Int)).toNat

/-- What a handle's gate says of an instant (R177): open, IPV, OCTET_MAX and the start of the entry interval. -/
def Dev.gateState (d : Dev) (p h t : Nat) : Bool × Option Nat × Nat × Nat :=
  match (d.sgate h).oper with
  | none => (d.sctx p h 0 24 1 == 1, none, 0, 0)
  | some s =>
    match d.sgateEntry p s t with
    | none => (false, none, 0, 0)
    | some (i, start) =>
      let w := d.tabW (sgateTid p) (s.first + i) 1
      (fget w 31 1 == 1, if fget w 30 1 = 1 then some (fget w 27 3) else none, fget w 0 24, start)

/-- Gate time of a frame at a handle (R177), in ns. -/
def Dev.gateTime (d : Dev) (f : Frame) (h : Nat) : Nat := tNsTotal (d.translate f.ts f.tsTb (d.sctx f.pipe h 0 16 3))

/-- A schedule's values in a handle's context, installed at an instant (R178). -/
def Dev.sgateSched (d : Dev) (p h : Nat) : Sched :=
  let tb := d.sctx p h 0 16 3
  let base := instantNs (d.sctx p h 8 0 32) (d.sctx p h 6 0 32) (d.sctx p h 7 0 16)
  let cycle := d.sctx p h 9 0 32
  { base := base, cycle := cycle, first := d.sctx p h 10 0 15, len := d.sctx p h 10 16 16, tb := tb,
    due := firstStart base cycle (d.presNs tb) }

/-- STREAM_SCHEDULE_INSTALL (R178): the schedule becomes pending until its first cycle start. -/
def Dev.installStream (d : Dev) (p h : Nat) : Dev := d.setSgate h { d.sgate h with pend := some (d.sgateSched p h) }

/-- The pipeline that owns a handle's block (R167). -/
def Dev.handleOwner (d : Dev) (h : Nat) : Option Nat :=
  [0, 1, 2, 3].find? fun p =>
    let k := h / 1024
    if k < 32 then d.bitOf (Reg.STRM_BLOCKS_LO.OWN p) k else d.bitOf (Reg.STRM_BLOCKS_HI.OWN p) (k - 32)

/-- STREAM_GATE_TAKEOVER (R178): the pending schedule takes over at its first cycle start. -/
def sgateTakeover (handle : Nat) (d : Dev) : Dev :=
  match (d.sgate handle).pend with
  | some s => if s.due ≤ d.presNs s.tb then d.setSgate handle { oper := some s, pend := none, start := s.due, octets := 0 } else d
  | none => d

def execStreamGateTakeover (handle : Nat) (s : State) : Host.Outcome State Fault Refusal := s.on (sgateTakeover handle)

/-- STREAM_GATE_ENTRY (R177, R179): an entry interval has started, and the octet count restarts. -/
def sgateEntryStart (handle : Nat) (d : Dev) : Dev :=
  match (d.sgate handle).oper, d.handleOwner handle with
  | some s, some p =>
    match d.sgateEntry p s (d.presNs s.tb) with
    | some (_, start) =>
      if (d.sgate handle).start < start then d.setSgate handle { d.sgate handle with start := start, octets := 0 } else d
    | none => d
  | _, _ => d

def execStreamGateEntry (handle : Nat) (s : State) : Host.Outcome State Fault Refusal := s.on (sgateEntryStart handle)

/-! ### Filter and meter (R174 to R181) -/

/-- The class a frame carries from step 6 (R174, R176). -/
def Dev.classAfterGate (d : Dev) (f : Frame) : Nat :=
  match f.handle with
  | some h =>
    if d.sctx f.pipe h 0 31 1 = 1 && d.sctx f.pipe h 0 30 1 = 1 then
      let g := d.gateState f.pipe h (d.gateTime f h)
      if g.1 then g.2.1.getD f.cls else f.cls
    else f.cls
  | none => f.cls

/-- The port policer of a class is enabled. -/
def Dev.polOn (d : Dev) (n c : Nat) : Bool := d.flag (Reg.STRM_POL_CFG.EN (pipeOf n) (portIdx n) c)

/-- Steps 6 and 7 need the frame's length (R174). -/
def Dev.needsLen (d : Dev) (f : Frame) : Bool :=
  (match f.handle with
    | some h => d.sctx f.pipe h 0 31 1 == 1 && (d.sctx f.pipe h 0 0 14 != 0 || d.sctx f.pipe h 0 29 1 == 1)
    | none => false) || d.polOn f.port (d.classAfterGate f)

/-- Bytes with 16 fractional bits that `rate` kb/s adds in `dt` ns. -/
def rateUnits (rate dt : Nat) : Nat := rate * dt * 65536 / 8000000

/-- The input colour of a frame (R180): 0 green, 1 yellow, 2 red. -/
def Dev.inColour (d : Dev) (f : Frame) (h : Nat) : Nat :=
  let p := f.pipe
  if d.sctx p h 0 25 1 = 0 || !(f.flagBit 1) then 0
  else if (d.sctx p h 1 16 8).testBit (f.hvF 35 0 3) then 2
  else if f.hvF 35 3 1 = 1 || (d.sctx p h 1 24 8).testBit (f.hvF 35 0 3) then 1 else 0

/-- FLOW_METER (R180): the colour of a frame and the meter after it. -/
def Dev.meterRun (d : Dev) (f : Frame) (h : Nat) : Nat × Dev :=
  let p := f.pipe
  let m := tget d.strm.meter Meter.full h
  let dt := d.now - m.at_
  let addC := rateUnits (d.sctx p h 2 0 32) dt
  let spare := if d.sctx p h 0 26 1 = 1 then addC - m.c else 0
  let c := m.c - addC
  let e := m.e - (rateUnits (d.sctx p h 3 0 32) dt + spare)
  let len := (f.len + d.sctx p h 1 0 6) * 65536
  let cbs := d.sctx p h 4 0 24 * 65536
  let ebs := d.sctx p h 5 0 24 * 65536
  let put (m : Meter) : Dev := { d with strm := { d.strm with meter := tput d.strm.meter Meter.full h m } }
  let col := d.inColour f h
  if col = 0 && decide (len + c ≤ cbs) then (0, put ⟨c + len, e, d.now⟩)
  else if col ≠ 2 && decide (len + e ≤ ebs) then (1, put ⟨c, e + len, d.now⟩)
  else (2, put ⟨c, e, d.now⟩)

/-- A handle becomes blocked (R176): 1 by oversize, 2 by gate. -/
def Dev.blockHandle (d : Dev) (p h cause : Nat) : Dev :=
  let d := { d with strm := { d.strm with blocked := tput d.strm.blocked 0 h cause } }
  let d := (d.cnt .streamBlocked p).wr (Reg.STRM_BLOCKED_CNT.BLOCKED p) (d.rd (Reg.STRM_BLOCKED_CNT.BLOCKED p) + 1)
  d.log 0x5001 p (d.regData (Reg.STRM_BLOCKED_CNT.addr p) ++ le 2 h ++ le 1 (cause - 1))

/-- A drop as stream_gate_closed, counted for the handle (R185). -/
def Dev.gateDrop (d : Dev) (f : Frame) (h : Nat) : Dev := (d.cnt .streamGateDrop h).dropFrame f 0x08

/-- A drop as stream_sdu, counted for the handle. -/
def Dev.sduDrop (d : Dev) (f : Frame) (h : Nat) : Dev := (d.cnt .streamSduDrop h).dropFrame f 0x07

/-- The meter's part of step 6: red drops, yellow marks the frame (R176 check 5, R181). -/
def Dev.filterMeter (d : Dev) (f : Frame) (h : Nat) : Dev :=
  if d.sctx f.pipe h 0 29 1 = 1 then
    let (col, d) := d.meterRun f h
    match col with
    | 0 => (d.cnt .meterGreen h).setFrame { f with stage := .police }
    | 1 => (d.cnt .meterYellow h).setFrame { f with stage := .police, de := true }
    | _ => (d.cnt .meterRed h).dropFrame f 0x09
  else d.setFrame { f with stage := .police }

/-- The checks of R176 for a frame with a VALID handle. -/
def Dev.filterChecks (d : Dev) (f : Frame) (h : Nat) : Dev :=
  let p := f.pipe
  let maxSdu := d.sctx p h 0 0 14
  let tags := (if f.flagBit 1 then 1 else 0) + (if f.flagBit 2 then 1 else 0)
  match tget d.strm.blocked 0 h with
  | 1 => d.sduDrop f h
  | 2 => d.gateDrop f h
  | _ =>
    if maxSdu ≠ 0 && decide (maxSdu < f.len - 18 - 4 * tags) then
      (if d.sctx p h 0 28 1 = 1 then d.blockHandle p h 1 else d).sduDrop f h
    else if d.sctx p h 0 30 1 = 1 then
      let (isOpen, ipv, octMax, start) := d.gateState p h (d.gateTime f h)
      if !isOpen then (if d.sctx p h 0 27 1 = 1 then d.blockHandle p h 2 else d).gateDrop f h
      else
        let g := d.sgate h
        let oct := if g.start = start then g.octets else 0
        if octMax ≠ 0 && decide (octMax < oct + f.len) then (d.cnt .streamGateOctets h).gateDrop f h
        else
          let d := if octMax ≠ 0 then d.setSgate h { g with start := start, octets := oct + f.len } else d
          d.filterMeter { f with cls := ipv.getD f.cls } h
    else d.filterMeter f h

/-- STREAM_FILTER (R176, R174): step 6. A frame whose length is needed waits for frame end. -/
def streamFilter (frame : Nat) (d : Dev) : Dev :=
  match d.frame frame with
  | none => d
  | some f =>
    if f.stage = .filter then
      if d.needsLen f && !f.ended then d.setFrame { f with whole := true }
      else
        match f.handle with
        | some h => if d.sctx f.pipe h 0 31 1 = 1 then d.filterChecks f h else d.setFrame { f with stage := .police }
        | none => d.setFrame { f with stage := .police }
    else d

def execStreamFilter (frame : Nat) (s : State) : Host.Outcome State Fault Refusal := s.on (streamFilter frame)

/-! ### The port policer (R182) -/

/-- An earlier frame of the MAC has not left step 7 (R174). -/
def Dev.policeWaits (d : Dev) (f : Frame) : Bool :=
  d.path.frames.any fun g => g.port == f.port && g.mac == f.mac && decide (g.ready < f.ready) &&
    (g.stage.parsing || g.stage = .vector || g.stage = .identify || g.stage = .filter || g.stage = .police)

/-- PORT_POLICER (R182): step 7. -/
def portPolicer (frame : Nat) (d : Dev) : Dev :=
  match d.frame frame with
  | none => d
  | some f =>
    if f.stage = .police && !d.policeWaits f then
      let n := f.port
      let key := 8 * n + f.cls
      if d.polOn n f.cls then
        let b := tget d.strm.pol Bucket.full key
        let rate := min 400000000 (d.rd (Reg.STRM_POL_RATE.RATE (pipeOf n) (portIdx n) f.cls))
        let used := max 0 (b.used - (rateUnits rate (d.now - b.at_) : Nat))
        let len := (f.len + d.rd (Reg.STRM_POL_CFG.OVERHEAD (pipeOf n) (portIdx n) f.cls)) * 65536
        let put (u : Int) : Dev := { d with strm := { d.strm with pol := tput d.strm.pol Bucket.full key ⟨u, d.now⟩ } }
        if used + len ≤ (d.rd (Reg.STRM_POL_CFG.BURST (pipeOf n) (portIdx n) f.cls) * 65536 : Nat) then
          (((put (used + len)).cnt .polPassFrames key).cntBy .polPassOctets key f.len).setFrame { f with stage := .lookup }
        else ((put used).cnt .polDropFrames key).dropFrame f 0x0A
      else d.setFrame { f with stage := .lookup }
    else d

def execPortPolicer (frame : Nat) (s : State) : Host.Outcome State Fault Refusal := s.on (portPolicer frame)

end Sys2Proof.Machine
end

