-- ==== Sys2Proof/Machine/Lookup.lean ====
section
/-! DEFINITION. Address tables and learning (chapter 06): the tables with their parity and visibility, the forwarding decision,
learning, insertion and relocation, aging, removal at link down, static entries, and mirror selection. -/

namespace Sys2Proof.Machine

/-! ### Slots (R142 to R145, R162) -/

def Dev.aslot (d : Dev) (p s : Nat) : AEnt := tget d.look.slots AEnt.zero (2 ^ 21 * p + s)

def Dev.setAslot (d : Dev) (p s : Nat) (e : AEnt) : Dev :=
  { d with look := { d.look with slots := tput d.look.slots AEnt.zero (2 ^ 21 * p + s) e } }

/-- The odd parity of a 32-bit word. -/
def oddWord (v : Nat) : Bool := (List.range 32).foldl (fun (a : Bool) i => a != v.testBit i) false

/-- A word with its parity bit 31 set so that it holds an even number of ones. -/
def evenWord (v : Nat) : Nat := v % 2 ^ 31 + (if oddWord (v % 2 ^ 31) then 2 ^ 31 else 0)

/-- The three words of an entry (R144), with a failing parity bit where `bad` says so. -/
def AEnt.words (e : AEnt) : List Nat :=
  let w0 := evenWord (e.mac % 2 ^ 31)
  let w1 := evenWord (e.mac / 2 ^ 31 * 2 ^ 14 + e.fid % 2 ^ 12 * 4 + e.typ % 4)
  let b (x : Bool) (k : Nat) : Nat := if x then 2 ^ k else 0
  let w2 := evenWord (b e.valid 30 + b e.new 29 + b e.old 28 + b e.pinned 27 + e.age % 4 * 2 ^ 25 + e.moves % 16 * 2 ^ 21 +
    e.rk % 2 * 2 ^ 20 + e.res % 2 ^ 12)
  [w0 ^^^ b (e.bad.testBit 0) 31, w1 ^^^ b (e.bad.testBit 1) 31, w2 ^^^ b (e.bad.testBit 2) 31]

/-- An entry from its words (R144). -/
def AEnt.ofWords (w0 w1 w2 : Nat) : AEnt :=
  { valid := w2.testBit 30, mac := w0 % 2 ^ 31 + w1 / 2 ^ 14 % 2 ^ 17 * 2 ^ 31, fid := w1 / 4 % 2 ^ 12, typ := w1 % 4, new := w2.testBit 29,
    old := w2.testBit 28, pinned := w2.testBit 27, age := w2 / 2 ^ 25 % 4, moves := w2 / 2 ^ 21 % 16, rk := w2 / 2 ^ 20 % 2,
    res := w2 % 2 ^ 12, bad := (if oddWord w0 then 1 else 0) + (if oddWord w1 then 2 else 0) + (if oddWord w2 then 4 else 0) }

/-- An upset flips bits of the 96 of a slot. -/
def Dev.upsetSlot (d : Dev) (p : Nat) (u : Nat × Nat) : Dev :=
  if u.1 < 2 ^ 21 then
    let w := (d.aslot p u.1).words
    let x (k : Nat) : Nat := (w[k]?).getD 0 ^^^ u.2 / 2 ^ (32 * k) % 2 ^ 32
    d.setAslot p u.1 (AEnt.ofWords (x 0) (x 1) (x 2))
  else d

/-- The bytes of a key (R143). -/
def addrKey (fid mac : Nat) : List Byte := be 2 (fid % 2 ^ 12) ++ be 6 mac

/-- Bucket of a key in half `h` of pipeline `p`'s table (R143). -/
def Dev.addrBucket (d : Dev) (p h fid mac : Nat) : Nat :=
  bucketOf (d.rd (if h = 0 then Reg.LKUP_HASH_SEED0.SEED p else Reg.LKUP_HASH_SEED1.SEED p)) 18 (addrKey fid mac)

/-- The slots of bucket `b` of half `h`. -/
def slotsOf (h b : Nat) : List Nat := (List.range 4).map fun s => h * 2 ^ 20 + b * 4 + s

/-- The slots a lookup of a key reads, half 0 first. -/
def Dev.addrSlots (d : Dev) (p fid mac : Nat) : List Nat :=
  slotsOf 0 (d.addrBucket p 0 fid mac) ++ slotsOf 1 (d.addrBucket p 1 fid mac)

/-- A parity failure found in a slot (R162): counted, latched, the slot invalidated and noted for the supervisor. -/
def Dev.parityCheck (d : Dev) (p s : Nat) : Dev :=
  if (d.aslot p s).bad = 0 then d
  else
    let d := ((d.cnt .lkupParity p).setFlag (Reg.LKUP_PAR_ERR.VALID p) true).wr (Reg.LKUP_PAR_ERR.INDEX p) s
    let d := d.setAslot p s AEnt.zero
    { d with look := { d.look with failed := d.look.failed ++ [(2 ^ 21 * p + s, d.now)] } }

/-- Slots are read: parity failures among them are dealt with (R162). -/
def Dev.readSlots (d : Dev) (p : Nat) (ss : List Nat) : Dev := ss.foldl (fun (d : Dev) s => d.parityCheck p s) d

/-- An entry is visible (R145): NEW clear before the commit, OLD clear after it. -/
def Dev.avisible (d : Dev) (p : Nat) (e : AEnt) : Bool :=
  if d.flag (Reg.LKUP_TBL_STATUS.COMMIT_VIEW p) then !e.old else !e.new

/-- Port `n` is under link-down removal in pipeline `p` (R159). -/
def Dev.removing (d : Dev) (p n : Nat) : Bool := (tget d.look.removing 0 p).testBit n

/-- A slot matches a lookup of a key (R145). -/
def Dev.amatch (d : Dev) (p fid mac s : Nat) : Bool :=
  let e := d.aslot p s
  e.valid && e.bad == 0 && d.avisible p e && e.fid == fid && e.mac == mac && !(e.typ == 0 && d.removing p e.res)

/-- A lookup (R145): parity failures are dealt with, and a static type wins over a learned entry. -/
def Dev.alookup (d : Dev) (p fid mac : Nat) : Option AEnt × Dev :=
  let ss := d.addrSlots p fid mac
  let d := d.readSlots p ss
  let m := (ss.filter (d.amatch p fid mac)).map (d.aslot p)
  (match m.find? fun e => e.typ != 0 with
    | some e => some e
    | none => m.head?, d)

/-! ### Forwarding (R146, R147, R149, R164) -/

def vlanTid : Nat := 0x4200
def maskTid : Nat := 0x4201
def fidTid : Nat := 0x4202

/-- MEMBER of a VLAN. -/
def Dev.vlanMember (d : Dev) (vid : Nat) : Nat := maskBits fun k => d.tabF vlanTid vid (1 + k) 0 32

/-- Entry of the port mask table. -/
def Dev.portMask (d : Dev) (i : Nat) : Nat := maskBits fun k => d.tabF maskTid i k 0 32

/-- The ports of a set, lowest first. -/
def portsOf (set : Nat) : List Nat := (List.range 259).filter set.testBit

/-- A set restricted to configured ports (R147). -/
def Dev.onlyConfigured (d : Dev) (set : Nat) : Nat := ((portsOf set).filter d.configured).foldl (fun a n => a + 2 ^ n) 0

/-- 01-80-C2-00-00-00 to 01-80-C2-00-00-0F. -/
def reserved8021 (mac : Nat) : Bool := mac / 16 == 0x0180C200000

/-- A mirror session selects a frame (R164). -/
def Dev.mirrorSelects (d : Dev) (f : Frame) (set m : Nat) : Bool :=
  let ports := maskBits fun k => d.rd (Reg.LKUP_MIR_PORTS.PORTS m k)
  d.flag (Reg.LKUP_MIR_CFG.EN m) && !d.flag (Reg.LKUP_MIR_CFG.CFG_ERR m) &&
    (if d.flag (Reg.LKUP_MIR_CFG.BY_STREAM m) then
      match f.handle with
      | some h => decide (d.rd (Reg.LKUP_MIR_STREAM.FIRST m) ≤ h) && decide (h ≤ d.rd (Reg.LKUP_MIR_STREAM.LAST m))
      | none => false
    else if d.flag (Reg.LKUP_MIR_CFG.DIR m) then set &&& ports != 0
    else ports.testBit f.port)

/-- The learn event of a frame (R150), and the count of a static conflict. -/
def Dev.learnOf (d : Dev) (f : Frame) (fid : Nat) (sa : Option AEnt) : Option (Nat × Nat) × Dev :=
  let p := f.pipe
  let on := d.flag (Reg.LKUP_TBL_CTRL.LEARN_EN p) && d.flag (Reg.LKUP_PORT_CFG.LEARN_EN p (portIdx f.port)) &&
    d.tabF fidTid fid 0 31 1 == 1 && !groupBit f.sa && f.sa != 0
  match sa with
  | none => (if on then some (fid, f.sa) else none, d)
  | some e =>
    if e.typ ≠ 0 then (none, if e.typ = 1 && e.rk = 0 && e.res ≠ f.port then d.cnt .learnStaticConflict p else d)
    else (if on && (e.res != f.port || decide (e.age < 3)) then some (fid, f.sa) else none, d)

/-- The set of R147 before the source port filter. -/
def Dev.baseSet (d : Dev) (fid member mac : Nat) (da : Option AEnt) : Nat :=
  d.onlyConfigured (match da with
    | some e =>
      if e.typ = 3 then 2 ^ 258
      else if e.rk = 0 then 2 ^ e.res % 2 ^ 259 &&& member
      else d.portMask e.res &&& member
    | none =>
      if reserved8021 mac then 2 ^ 258
      else if mac = 0xFFFFFFFFFFFF then d.portMask (12288 + fid) &&& member
      else if groupBit mac then d.portMask (8192 + fid) &&& member
      else d.portMask (4096 + fid) &&& member)

/-- The end of step 8: mirrors are selected, the learn event is held until frame end or issued, the sequence is assigned. -/
def Dev.forwardTo (d : Dev) (f : Frame) (set fid : Nat) (sa : Option AEnt) : Dev :=
  let ms := (List.range 8).filter (d.mirrorSelects f set)
  let d := ms.foldl (fun d m => d.cnt .mirrorCopies m) d
  let (ev, d) := d.learnOf f fid sa
  let (f, d) := d.frameSeq f
  let f := { f with set := set, mirrors := ms, learn := ev, stage := .command }
  if f.ended then (d.issueHeld f).setFrame { f with learn := none, node := none } else d.setFrame f

/-- FORWARDING_DECISION (R147): step 8. `bad` are upsets of slots of the frame's pipeline. -/
def forwardingDecision (frame : Nat) (bad : List (Nat × Nat)) (d : Dev) : Dev :=
  match d.frame frame with
  | none => d
  | some f =>
    if f.stage = .lookup then
      let p := f.pipe
      let d := bad.foldl (fun d u => d.upsetSlot p u) d
      let member := d.vlanMember f.vid
      if f.vid = 0xFFF || d.tabF vlanTid f.vid 0 31 1 = 0 ||
          (d.flag (Reg.LKUP_PORT_CFG.INGRESS_FILTER p (portIdx f.port)) && !member.testBit f.port) then d.dropFrame f 0x06
      else
        let fid := d.tabF vlanTid f.vid 0 0 12
        let (da, d) := d.alookup p fid f.da
        let (sa, d) := d.alookup p fid f.sa
        let d := d.cnt (if da.isSome then .lkupDaHit else .lkupDaMiss) p
        if (da.any fun e => e.typ == 2) || (sa.any fun e => e.typ == 2) then d.dropFrame f 0x0B
        else
          let set0 := d.baseSet fid member f.da da
          let hadIn := set0.testBit f.port
          let set1 := if hadIn && !d.flag (Reg.LKUP_PORT_CFG.HAIRPIN p (portIdx f.port)) then set0 - 2 ^ f.port else set0
          match d.pairRules f set1 (d.onlyConfigured member) with
          | none => (match d.pairOfPort f.port with
            | some r => (d.countPairRx f r).cnt .rnOwnRemoved r
            | none => d).dropFrame f 0x42
          | some (set, f, d) =>
            if set = 0 then
              let d := if f.ended then d.issueHeld { f with learn := none } else d
              d.dropFrame f (if hadIn then 0x0C else 0x06)
            else d.forwardTo f set fid sa
    else d

def execForwardingDecision (frame : Nat) (bad : List (Nat × Nat)) (s : State) : Host.Outcome State Fault Refusal :=
  s.on (forwardingDecision frame bad)

/-! ### Insertion and relocation (R155 to R157) -/

/-- A slot is free to the writer. -/
def Dev.afree (d : Dev) (p s : Nat) : Bool := !(d.aslot p s).valid

/-- The first free slot of a list. -/
def Dev.firstFree (d : Dev) (p : Nat) (ss : List Nat) : Option Nat := ss.find? (d.afree p)

/-- The path search of R155 from bucket `b` of half `h`: the pointer after it, the slots on the path, last first, and the free
slot it reaches. `fuel` counts the moves still allowed. -/
def Dev.pathSearch (p : Nat) : Nat → Nat → Nat → Nat → List Nat → Dev → Dev × Nat × List Nat × Option Nat
  | 0, _, _, vp, path, d => (d, vp, path, none)
  | fuel + 1, h, b, vp, path, d =>
    match ((List.range 4).map fun i => (vp + i) % 4).find? fun s => !path.contains (h * 2 ^ 20 + b * 4 + s) with
    | none => (d, vp, path, none)
    | some s =>
      let slot := h * 2 ^ 20 + b * 4 + s
      let e := d.aslot p slot
      let alt := d.addrBucket p (1 - h) e.fid e.mac
      let d := d.readSlots p (slotsOf (1 - h) alt)
      match d.firstFree p (slotsOf (1 - h) alt) with
      | some f => (d, (s + 1) % 4, slot :: path, some f)
      | none => Dev.pathSearch p fuel (1 - h) alt ((s + 1) % 4) (slot :: path) d

/-- Insertion (R155): a free slot, or a relocation carried out from the far end; none where no path is found. -/
def Dev.ainsert (d : Dev) (p : Nat) (e : AEnt) : Option Dev × Dev :=
  let ss := d.addrSlots p e.fid e.mac
  let d := d.readSlots p ss
  match d.firstFree p ss with
  | some s => (some (d.setAslot p s e), d)
  | none =>
    let (d, vp, path, found) := Dev.pathSearch p 8 0 (d.addrBucket p 0 e.fid e.mac) (tget d.look.victim 0 p) [] d
    let d := { d with look := { d.look with victim := tput d.look.victim 0 p vp } }
    match found with
    | none => (none, d)
    | some dest =>
      let m := path.foldl (fun (a : Dev × Nat) s => ((a.1.setAslot p a.2 (a.1.aslot p s)).setAslot p s AEnt.zero, s)) (d, dest)
      (some (m.1.setAslot p m.2 e), d)

/-- The slot of the learned entry with a key. -/
def Dev.findLearned (d : Dev) (p fid mac : Nat) : Option Nat :=
  (d.addrSlots p fid mac).find? fun s =>
    let e := d.aslot p s
    e.valid && e.typ == 0 && e.fid == fid && e.mac == mac

/-- The slots of static entries with a key. -/
def Dev.staticSlots (d : Dev) (p fid mac : Nat) : List Nat :=
  (d.addrSlots p fid mac).filter fun s =>
    let e := d.aslot p s
    e.valid && e.typ != 0 && e.fid == fid && e.mac == mac

/-- A static insertion (R157): without a path it evicts the learned entry of its buckets with the lowest AGE, half 0 first, the
lowest slot first. The flag says whether the entry has its place. -/
def Dev.insertStatic (d : Dev) (p : Nat) (e : AEnt) : Dev × Bool :=
  match d.ainsert p e with
  | (some d, _) => (d, true)
  | (none, d) =>
    let c := (d.addrSlots p e.fid e.mac).filter fun s => (d.aslot p s).typ == 0
    match c.foldl (fun (b : Option Nat) s => match b with
      | none => some s
      | some x => if (d.aslot p s).age < (d.aslot p x).age then some s else some x) none with
    | some s => ((d.setAslot p s e).cnt .learnEvict p, true)
    | none => (d, false)

/-! ### Learning (R151, R152, R154) -/

/-- LEARNING_RING_DELIVER (R151): the oldest event on the ring reaches the queues of the other three pipelines. -/
def ringDeliver (d : Dev) : Dev :=
  match d.look.ring with
  | [] => d
  | (src, e) :: rest =>
    let d := { d with look := { d.look with ring := rest } }
    [0, 1, 2, 3].foldl (fun d p =>
      if p = src then d
      else
        let q := tget d.look.learnQ [] p
        if q.length < 1024 then { d with look := { d.look with learnQ := tput d.look.learnQ [] p (q ++ [e]) } }
        else d.cnt .learnDrop p) d

def execLearningRingDeliver (s : State) : Host.Outcome State Fault Refusal := s.on ringDeliver

/-- A move of a learned entry to another port, or the pin that damping puts on it (R152, R154). -/
def Dev.moveEntry (d : Dev) (p s port : Nat) : Dev :=
  let e := d.aslot p s
  if e.pinned then d
  else if e.moves < d.rd (Reg.LKUP_MOVE_CFG.MOVE_LIMIT p) then
    (d.setAslot p s { e with res := port, age := 3, moves := min 15 (e.moves + 1) }).cnt .learnMove p
  else
    ((d.setAslot p s { e with pinned := true }).cnt .movePinned p).log 0x4001 p
      (noReg ++ le 1 p ++ le 1 0 ++ le 2 e.fid ++ be 6 e.mac ++ le 2 e.res ++ le 2 port)

/-- The table writer's action on an event (R152). -/
def Dev.applyLearn (d : Dev) (p : Nat) (ev : LearnEv) : Dev :=
  let d := d.readSlots p (d.addrSlots p ev.fid ev.mac)
  if d.removing p ev.port then d
  else if (d.staticSlots p ev.fid ev.mac).any fun s => d.avisible p (d.aslot p s) || (d.aslot p s).new then d
  else
    match d.findLearned p ev.fid ev.mac with
    | some s =>
      let e := d.aslot p s
      if e.res = ev.port then (d.setAslot p s { e with age := 3 }).cnt .learnRefresh p else d.moveEntry p s ev.port
    | none =>
      match d.ainsert p { AEnt.zero with valid := true, mac := ev.mac, fid := ev.fid, age := 3, res := ev.port } with
      | (some d, _) => d.cnt .learnInsert p
      | (none, d) => d.cnt .learnFail p

/-- LEARN_WRITE (R152): the writer of a pipeline takes the oldest event of its queue. -/
def learnWrite (pipe : Nat) (d : Dev) : Dev :=
  match tget d.look.learnQ [] pipe with
  | [] => d
  | e :: rest => ({ d with look := { d.look with learnQ := tput d.look.learnQ [] pipe rest } }).applyLearn pipe e

def execLearnWrite (pipe : Nat) (s : State) : Host.Outcome State Fault Refusal := s.on (learnWrite pipe)

/-! ### Aging, windows, removal (R154, R158, R159) -/

/-- The listed slots of a pipeline. -/
def Dev.slotsIn (d : Dev) (p : Nat) : List Nat :=
  (d.look.slots.filter fun e => e.1 / 2 ^ 21 == p).map fun e => e.1 % 2 ^ 21

/-- The aging tick of a FID in ns: AGE_TIME_S / 3 rounded up to a multiple of 100 ms. -/
def Dev.agingTick (d : Dev) (fid : Nat) : Nat := (d.tabF fidTid fid 0 0 16 * 10 + 2) / 3 * 10 ^ 8

/-- One slot at an aging tick of its FID. -/
def Dev.ageSlot (d : Dev) (p fid s : Nat) : Dev :=
  let e := d.aslot p s
  if e.valid && e.typ == 0 && e.fid == fid then
    if e.age = 0 then (d.setAslot p s AEnt.zero).cnt .ageRemoved p else d.setAslot p s { e with age := e.age - 1 }
  else d

/-- AGING_TICK (R158): the sweep checks the parity of every slot, and a tick of the FID that is due ages its entries. `bad` are
upsets of slots. -/
def agingTick (pipe fid : Nat) (bad : List (Nat × Nat)) (d : Dev) : Dev :=
  let d := bad.foldl (fun d u => d.upsetSlot pipe u) d
  let d := d.readSlots pipe (d.slotsIn pipe)
  let key := 4096 * pipe + fid
  if d.flag (Reg.LKUP_TBL_CTRL.AGE_EN pipe) && d.tabF fidTid fid 0 30 1 == 1 && decide (fid < 4096) &&
      decide (tget d.look.aged 0 key + d.agingTick fid ≤ d.now) then
    let d := { d with look := { d.look with aged := tput d.look.aged 0 key d.now } }
    (d.slotsIn pipe).foldl (fun d s => d.ageSlot pipe fid s) d
  else d

def execAgingTick (pipe fid : Nat) (bad : List (Nat × Nat)) (s : State) : Host.Outcome State Fault Refusal :=
  s.on (agingTick pipe fid bad)

/-- MOVE_WINDOW_END (R154): MOVE_CNT clears in every entry; MOVE_WINDOW_MS acts rounded down to a multiple of 100. -/
def moveWindowEnd (pipe : Nat) (d : Dev) : Dev :=
  if tget d.look.moved 0 pipe + d.rd (Reg.LKUP_MOVE_CFG.MOVE_WINDOW_MS pipe) / 100 * 10 ^ 8 ≤ d.now then
    let d := { d with look := { d.look with moved := tput d.look.moved 0 pipe d.now } }
    (d.slotsIn pipe).foldl (fun d s => d.setAslot pipe s { d.aslot pipe s with moves := 0 }) d
  else d

def execMoveWindowEnd (pipe : Nat) (s : State) : Host.Outcome State Fault Refusal := s.on (moveWindowEnd pipe)

/-- REMOVAL_PASS_DONE (R159): the pass has removed every learned entry of the ports it served; ports whose removal began
meanwhile get a further pass, and with none left FLUSHING clears. -/
def removalPassDone (pipe : Nat) (d : Dev) : Dev :=
  let run := tget d.look.passing 0 pipe
  if run = 0 then d
  else
    let d := (d.slotsIn pipe).foldl (fun d s =>
      let e := d.aslot pipe s
      if e.valid && e.typ == 0 && run.testBit e.res then (d.setAslot pipe s AEnt.zero).cnt .flushRemoved pipe else d) d
    let rest := tget d.look.removing 0 pipe ^^^ (tget d.look.removing 0 pipe &&& run)
    let d := { d with look := { d.look with
      removing := tput d.look.removing 0 pipe rest, passing := tput d.look.passing 0 pipe rest } }
    if rest = 0 then d.setFlag (Reg.LKUP_TBL_STATUS.FLUSHING pipe) false else d

def execRemovalPassDone (pipe : Nat) (s : State) : Host.Outcome State Fault Refusal := s.on (removalPassDone pipe)

/-! ### Static entries (R148, R160 to R162) -/

/-- Key of a static entry in the reference. -/
def staticKey (fid mac : Nat) : Nat := fid * 2 ^ 48 + mac

/-- TYPE, RES_KIND and RESULT of a static entry as the reference holds them; 0 stands for no entry. -/
def staticVal (typ rk res : Nat) : Nat := typ + 4 * rk + 8 * res

/-- The entry that a reference value stands for. -/
def staticEnt (key v : Nat) (new : Bool) : AEnt :=
  { AEnt.zero with
    valid := true, mac := key % 2 ^ 48, fid := key / 2 ^ 48, typ := v % 4, new := new, rk := v / 4 % 2, res := v / 8 }

/-- Static entries of a pipeline, NEW included (LKUP_TBL_STATIC). -/
def Dev.staticCount (d : Dev) (p : Nat) : Nat :=
  (d.look.slots.filter fun e => e.1 / 2 ^ 21 == p && e.2.valid && e.2.typ != 0).length

/-- Learned entries of a pipeline (LKUP_TBL_COUNT). -/
def Dev.learnedCount (d : Dev) (p : Nat) : Nat :=
  (d.look.slots.filter fun e => e.1 / 2 ^ 21 == p && e.2.valid && e.2.typ == 0).length

/-- The record of a correction (R161): 0 rewritten, 1 removed. -/
def Dev.staticFixed (d : Dev) (p action key : Nat) : Dev :=
  (d.cnt .staticRewrite p).logFrom d.supOrigin 0x4003 p
    (noReg ++ le 1 p ++ le 1 action ++ le 2 (key / 2 ^ 48) ++ be 6 (key % 2 ^ 48))

/-- One reference entry compared in a pipeline: missing or differing, it is rewritten. -/
def Dev.compareStatic (d : Dev) (p key v : Nat) : Dev :=
  let e := staticEnt key v false
  match (d.staticSlots p e.fid e.mac).filter fun s => d.avisible p (d.aslot p s) with
  | [] =>
    let r := d.insertStatic p e
    if r.2 then r.1.staticFixed p 0 key else r.1
  | s :: _ =>
    let x := d.aslot p s
    if x.typ = e.typ && x.rk = e.rk && x.res = e.res then d
    else (d.setAslot p s { x with typ := e.typ, rk := e.rk, res := e.res }).staticFixed p 0 key

/-- STATIC_COMPARE (R161): every 10 s, with a supervisor running. `upsets` are (pipeline, slot, bits) that faults have flipped. -/
def staticCompare (upsets : List (Nat × Nat × Nat)) (d : Dev) : Dev :=
  let d := upsets.foldl (fun (d : Dev) (u : Nat × Nat × Nat) => if u.1 < 4 then d.upsetSlot u.1 u.2 else d) d
  if d.supRunning then
    [0, 1, 2, 3].foldl (fun d p =>
      let d := d.readSlots p (d.slotsIn p)
      let d := d.look.refStatic.foldl (fun (d : Dev) (e : Nat × Nat) => d.compareStatic p e.1 e.2) d
      (d.slotsIn p).foldl (fun d s =>
        let e := d.aslot p s
        let key := staticKey e.fid e.mac
        if e.valid && e.typ != 0 && d.avisible p e && tget d.look.refStatic 0 key == 0 then
          (d.setAslot p s AEnt.zero).staticFixed p 1 key
        else d) d) d
  else d

def execStaticCompare (upsets : List (Nat × Nat × Nat)) (s : State) : Host.Outcome State Fault Refusal := s.on (staticCompare upsets)

/-- STATIC_REINSERT (R162): the supervisor re-inserts every reference static entry of which a failed slot lay in a bucket. -/
def staticReinsert (d : Dev) : Dev :=
  if d.supRunning then
    let fs := d.look.failed
    let d := { d with look := { d.look with failed := [] } }
    fs.foldl (fun (d : Dev) (f : Nat × Nat) =>
      let p := f.1 / 2 ^ 21
      d.look.refStatic.foldl (fun (d : Dev) (r : Nat × Nat) =>
        let e := staticEnt r.1 r.2 false
        if (d.addrSlots p e.fid e.mac).contains (f.1 % 2 ^ 21) && (d.staticSlots p e.fid e.mac).isEmpty then
          (d.insertStatic p e).1
        else d) d) d
  else d

def execStaticReinsert (s : State) : Host.Outcome State Fault Refusal := s.on staticReinsert

/-- A static record that R148 and R160 refuse: TYPE 0, reserved bits, a RESULT that is no configured port, or one beside a type
that takes none. `w1` and `w2` are words 1 and 2 of the record. -/
def Dev.staticBad (d : Dev) (w1 w2 : Nat) : Bool :=
  let typ := w1 % 4
  let rk := w2 / 2 ^ 20 % 2
  let res := w2 % 2 ^ 12
  typ == 0 || w2 / 2 ^ 12 % 2 ^ 8 != 0 ||
    (if typ = 1 then rk == 0 && !(decide (res < 259) && d.configured res) else res != 0)

/-- A static insertion of a record: none where it fails, and the record is refused (R157). -/
def Dev.placed (d : Dev) (p : Nat) (e : AEnt) : Option Dev :=
  let r := d.insertStatic p e
  if r.2 then some r.1 else none

/-- A static entry loaded by an image record into one pipeline (R160). -/
def Dev.loadStatic (d : Dev) (p key v : Nat) : Option Dev :=
  let e := staticEnt key v false
  match d.staticSlots p e.fid e.mac with
  | s :: _ => some (d.setAslot p s e)
  | [] => if d.staticCount p < 262144 then d.placed p e else none

/-- A static entry staged by an amendment in one pipeline (R160): written with NEW, the one it replaces marked OLD. -/
def Dev.stageStatic (d : Dev) (p key v : Nat) : Option Dev :=
  let e := staticEnt key v true
  let ss := d.staticSlots p e.fid e.mac
  match ss.find? fun s => (d.aslot p s).new with
  | some s => some (d.setAslot p s e)
  | none =>
    let d := ss.foldl (fun d s => d.setAslot p s { d.aslot p s with old := true }) d
    if d.staticCount p < 262144 then d.placed p e else none

/-- A static deletion in one pipeline: at once in an image, marked OLD in staging; a NEW entry of the same shadow goes. The
flag says whether an entry was named. -/
def Dev.deleteStatic (d : Dev) (p fid mac : Nat) (stage : Bool) : Dev × Bool :=
  let ss := (d.staticSlots p fid mac).filter fun s => !(d.aslot p s).old
  (ss.foldl (fun d s =>
    if stage && !(d.aslot p s).new then d.setAslot p s { d.aslot p s with old := true } else d.setAslot p s AEnt.zero) d, !ss.isEmpty)

/-- COMMIT_VIEW sets in every pipeline at a commit that staged static entries, and the reference follows (R160). -/
def Dev.commitStatic (d : Dev) : Dev :=
  let touched := d.look.slots.any fun e => e.2.new || e.2.old
  let d := if touched then [0, 1, 2, 3].foldl (fun d p => d.setFlag (Reg.LKUP_TBL_STATUS.COMMIT_VIEW p) true) d else d
  { d with look := { d.look with
    refStatic := d.look.refNext.foldl (fun (t : Tab Nat) (r : Nat × Nat) => tput t 0 r.1 r.2) d.look.refStatic, refNext := [] } }

/-- The cleanup after a commit (R160): NEW clears, OLD entries and learned entries shadowed by a new static entry go. -/
def Dev.cleanStatic (d : Dev) : Dev :=
  [0, 1, 2, 3].foldl (fun d p =>
    let d := (d.slotsIn p).foldl (fun d s =>
      let e := d.aslot p s
      if e.old then d.setAslot p s AEnt.zero
      else if e.new then
        let d := d.setAslot p s { e with new := false }
        match d.findLearned p e.fid e.mac with
        | some l => d.setAslot p l AEnt.zero
        | none => d
      else d) d
    d.setFlag (Reg.LKUP_TBL_STATUS.COMMIT_VIEW p) false) d

/-- What abandoning a shadow does to static entries: NEW ones go, OLD marks clear (R62). -/
def Dev.unstageStatic (d : Dev) : Dev :=
  let d := { d with look := { d.look with refNext := [] } }
  [0, 1, 2, 3].foldl (fun d p =>
    (d.slotsIn p).foldl (fun d s =>
      let e := d.aslot p s
      if e.new then d.setAslot p s AEnt.zero else if e.old then d.setAslot p s { e with old := false } else d) d) d

/-! ### Mirror sessions (R165) -/

/-- Port `n` is protected (R209). -/
def Dev.protected_ (d : Dev) (n : Nat) : Bool := decide (n < 256) && d.bitOf (Reg.SEAL_PROTECT.PORTS (n / 32)) (n % 32)

/-- MIRROR_CHECK (R165): CFG_ERR of every session follows its configuration at forwarding release and at every commit. -/
def Dev.checkMirrors (d : Dev) : Dev :=
  (List.range 8).foldl (fun d m =>
    let dest := d.rd (Reg.LKUP_MIR_CFG.DEST m)
    let byS := d.flag (Reg.LKUP_MIR_CFG.BY_STREAM m)
    d.setFlag (Reg.LKUP_MIR_CFG.CFG_ERR m)
      (!d.configured dest || d.protected_ dest || (byS && d.flag (Reg.LKUP_MIR_CFG.DIR m)) ||
        decide (d.rd (Reg.LKUP_MIR_STREAM.LAST m) < d.rd (Reg.LKUP_MIR_STREAM.FIRST m)))) d

end Sys2Proof.Machine
end

