-- ==== Sys2Proof/Machine/Deckle.lean ====
section
/-! DEFINITION. The Deckle (chapter 09): the command decision, the seal screen, staging, engines, the replay window, release to
admission, reports, clusters, key slots and seal contexts. -/

namespace Sys2Proof.Machine

/-! ### Fields of a seal (R135, R211, R212) -/

def Frame.sealPos (f : Frame) : Nat := f.hvF 27 0 14
def Frame.sealLen (f : Frame) : Nat := f.hvF 27 16 8
def Frame.sealVer (f : Frame) : Nat := f.hvF 27 24 4
def Frame.sealAlg (f : Frame) : Nat := f.hvF 27 28 4
def Frame.keySlot (f : Frame) : Nat := f.hvF 28 16 16
def Frame.sender (f : Frame) : Nat := if f.sealVer = 1 then 0 else f.hvF 28 0 16
def Frame.sealSeq (f : Frame) : Nat := f.hv 29 * 2 ^ 32 + f.hv 30
def Frame.sealSec (f : Frame) : Nat := f.hv 31 * 2 ^ 16 + f.hvF 32 16 16
def Frame.sealTime (f : Frame) : Nat := f.sealSec * 10 ^ 9 + f.hv 33

/-- A trailer was located. -/
def Frame.sealFound (f : Frame) : Bool := f.flagBit 11

/-- The time base against which a seal is checked. -/
def Dev.sealTb (d : Dev) (f : Frame) : Nat :=
  if f.sealVer = 1 then d.rd (Reg.SEAL_SLOT_POLICY.V1_TB f.keySlot) else f.hvF 32 8 8

/-- The tags of TAG_MAP that a frame's bytes show: offset and size (R214). -/
def Frame.removable (f : Frame) : List (Nat × Nat) :=
  ((List.range 4).map fun k => f.hvF 34 (8 * k) 8).filterMap fun o =>
    if o = 0xFF then none
    else
      match fromBe (slice f.bytes o 2) with
      | 0x8100 => some (o, 4)
      | 0x88A8 => some (o, 4)
      | 0x892F => some (o, 6)
      | 0xF1C1 => some (o, 6)
      | _ => none

/-- Length of a frame without its removable tags and PRP trailer. -/
def Frame.plainLen (f : Frame) : Nat := f.len - f.removable.foldl (fun a t => a + t.2) 0 - (if f.flagBit 4 then 6 else 0)

/-- Offset of TAG in a trailer. -/
def Frame.tagOff (f : Frame) : Nat := if f.sealVer = 1 then 24 else 28

/-- TAG. -/
def Frame.sealTag (f : Frame) : List Byte := slice f.bytes (f.sealPos + f.tagOff) (f.sealLen - f.tagOff - 2)

/-- The coverage of a seal (R214). -/
def Frame.coverage (f : Frame) : List Byte :=
  let m := f.removable
  ((f.bytes.take (f.sealPos + f.tagOff)).zipIdx.filter fun x => !m.any fun t => decide (t.1 ≤ x.2) && decide (x.2 < t.1 + t.2)).map fun x => x.1

/-! ### Which frames must be sealed (R207 to R209) -/

/-- A port mask of nine registers holds port `n`. -/
def Dev.inMask (d : Dev) (r : Nat → FRef) (n : Nat) : Bool := decide (n < 259) && d.bitOf (r (n / 32)) (n % 32)

/-- Destinations of a frame, mirror copies included. -/
def Dev.dests (d : Dev) (f : Frame) : List Nat := portsOf f.set ++ f.mirrors.map fun m => d.rd (Reg.LKUP_MIR_CFG.DEST m)

/-- The protected destinations of a frame, lowest first in the forwarding set. -/
def Dev.protectedDests (d : Dev) (f : Frame) : List Nat := (d.dests f).filter d.protected_

def classTid : Nat := 0x6000

/-- Entry `i` of the command classifier matches (R208). -/
def Dev.classMatch (d : Dev) (f : Frame) (i : Nat) : Bool :=
  let b := d.tabBytes classTid i 8
  let use (k : Nat) : Bool := d.tabF classTid i 0 k 1 == 1
  let at_ (o n : Nat) : Nat := fromLe (slice b o n)
  let wire (o n : Nat) : Nat := fromBe (slice b o n)
  use 31 && (use 30 || use 29 || use 28 || use 27) &&
    (!use 30 || (f.hvF 11 0 16 ^^^ at_ 4 2) &&& at_ 6 2 == 0) &&
    (!use 29 || (f.da ^^^ wire 8 6) &&& wire 14 6 == 0) &&
    (!use 28 || ((f.flagBit 6 || f.flagBit 7) && f.hvF 22 0 8 == at_ 20 1 && (f.hvF 24 0 16 ^^^ at_ 22 2) &&& at_ 24 2 == 0)) &&
    (!use 27 || f.hvF 0 24 8 &&& at_ 21 1 != 0)

/-- A frame is command-flagged (R207). -/
def Dev.commandFlagged (d : Dev) (f : Frame) : Bool :=
  f.flagBit 0 || (List.range 64).any (d.classMatch f) || (f.flagBit 12 && !(d.protectedDests f).isEmpty)

/-- A command-flagged frame must pass verification (R209). -/
def Dev.mustVerify (d : Dev) (f : Frame) : Bool := !(d.protectedDests f).isEmpty || d.inMask Reg.SEAL_INGRESS.PORTS f.port

/-! ### The screen (R216 to R220) -/

/-- fields_ok of R217. -/
def Frame.fieldsOk (f : Frame) : Bool :=
  decide (f.keySlot < 512) && (f.sealVer == 1 || (decide (f.hvF 32 8 8 < 8) && f.hvF 32 0 8 == 0)) && decide (f.hv 33 < 10 ^ 9) &&
    f.hvF 34 24 8 != 0xFE && decide (64 ≤ f.plainLen)

/-- slot_accepts of R217. -/
def Dev.slotAccepts (d : Dev) (f : Frame) : Bool :=
  let k := f.keySlot
  let kind := d.rd (Reg.SEAL_KEY_STATUS.KIND k)
  d.flag (Reg.SEAL_KEY_STATUS.VALID k) &&
    (if f.sealVer = 1 then d.flag (Reg.SEAL_SLOT_POLICY.V1_OK k) else d.flag (Reg.SEAL_SLOT_POLICY.V2_OK k)) &&
    (match f.sealAlg with
      | 1 => kind == 1
      | 2 => kind == 2 && d.flag (Reg.SEAL_SLOT_POLICY.TRUNC_OK k)
      | _ => kind == 2 && d.flag (Reg.SEAL_SLOT_POLICY.FULL_OK k)) &&
    d.bitOf (Reg.SEAL_SLOT_POLICY.TB_MASK k) (d.sealTb f)

/-- First slot of the bucket of a context (R224). -/
def Dev.ctxBucket (d : Dev) (key : Nat) : Nat := 8 * bucketOf (d.rd Reg.SEAL_CTX_SEED.SEED) 11 (be 4 key)

def Dev.sctxAt (d : Dev) (slot : Nat) : SCtx := tget d.deck.ctxs SCtx.zero slot

def Dev.setSctx (d : Dev) (slot : Nat) (c : SCtx) : Dev := { d with deck := { d.deck with ctxs := tput d.deck.ctxs SCtx.zero slot c } }

/-- The slot of the context of a key in force. -/
def Dev.findCtx (d : Dev) (key : Nat) : Option Nat :=
  (bucketSlots (d.ctxBucket key)).find? fun s => (d.sctxAt s).valid && !(d.sctxAt s).new && (d.sctxAt s).key == key

/-- The context key of a frame. -/
def Frame.ctxKey (f : Frame) : Nat := f.keySlot * 2 ^ 16 + f.sender

/-- time_ok (R218, R219): whether it holds, and whether the frame is passed unsynchronised. -/
def Dev.timeOk (d : Dev) (f : Frame) : Bool × Bool :=
  let tb := d.sealTb f
  let after := decide (tget d.time.startMark 0 tb < f.sealTime)
  if d.tbSync tb then
    let t := tNsTotal (d.translate f.ts f.tsTb tb)
    let w := d.rd (Reg.SEAL_SLOT_WINDOW.WINDOW_US f.keySlot) * 1000
    (after && decide (f.sealTime ≤ t + w) && decide (t ≤ f.sealTime + w), false)
  else if d.flag (Reg.SEAL_SLOT_POLICY.ACCEPT_UNSYNC f.keySlot) then (after, true)
  else (false, false)

/-- replay_ok (R220). -/
def SCtx.replayOk (c : SCtx) (s : Nat) : Bool :=
  if c.empty then decide (c.minSeq ≤ s)
  else if c.high < s then true
  else decide (c.high - s < 64) && !c.window.testBit (c.high - s)

/-- The context after replay_commit of a sequence that passes (R220). -/
def SCtx.accept (c : SCtx) (s : Nat) : SCtx :=
  if c.empty then { c with high := s, window := 1, empty := false }
  else if c.high < s then
    { c with window := if 64 ≤ s - c.high then 1 else (c.window * 2 ^ (s - c.high) + 1) % 2 ^ 64, high := s }
  else { c with window := c.window ||| 2 ^ (c.high - s) }

/-- The checks before staging (R216): a drop reason, or none, and whether the frame counts as passed unsynchronised. -/
def Dev.sealScreen (d : Dev) (f : Frame) : Option Nat × Bool :=
  if !f.sealFound then (some 0x10, false)
  else if !f.fieldsOk || !d.slotAccepts f then (some 0x11, false)
  else
    match d.findCtx f.ctxKey with
    | none => (some 0x12, false)
    | some c =>
      let (ok, unsync) := d.timeOk f
      if !ok then (some 0x14, unsync)
      else if !(d.sctxAt c).replayOk f.sealSeq then (some 0x13, unsync)
      else (none, unsync)

/-! ### Reports (R231) -/

/-- The verification queue of a frame (R226). -/
def Dev.queueOf (d : Dev) (f : Frame) : Nat :=
  (d.protectedDests f).foldl (fun (b : Option Nat) n => match b with
    | none => some n
    | some x => some (min x n)) none |>.getD f.port

/-- A seal drop is reported, or suppressed beyond the port's limit. -/
def Dev.sealReport (d : Dev) (f : Frame) (reason q : Nat) : Dev :=
  let n := f.port
  let b := tget d.deck.logB Bucket.full n
  let used := max 0 (b.used - (d.rd Reg.SEAL_CFG.LOG_RATE * (d.now - b.at_) : Nat))
  if used + 10 ^ 9 ≤ (d.rd Reg.SEAL_CFG.LOG_BURST * 10 ^ 9 : Nat) then
    let d := { d with deck := { d.deck with logB := tput d.deck.logB Bucket.full n ⟨used + 10 ^ 9, d.now⟩ } }
    let z (v : Nat) : Nat := if f.sealFound then v else 0
    d.log (0x6000 + reason) 0 (le 2 n ++ le 2 (f.handle.getD 0xFFFF) ++ le 2 q ++ le 2 (z f.keySlot) ++ le 2 (z f.sender) ++
      le 4 (z f.sealSeq) ++ le 4 (z f.sealSec))
  else
    let d := { d with deck := { d.deck with
      logB := tput d.deck.logB Bucket.full n ⟨used, d.now⟩, supp := tput d.deck.supp 0 n (tget d.deck.supp 0 n + 1) } }
    d.cnt .sealLogSuppressed n

/-- A frame is dropped in the Deckle: one drop, reported. -/
def Dev.sealDrop (d : Dev) (f : Frame) (reason : Nat) : Dev :=
  let q := d.queueOf f
  (d.dropFrame f reason).sealReport f reason q

/-- SEAL_LOG_SUMMARY (R231). -/
def sealLogSummary (port : Nat) (d : Dev) : Dev :=
  let n := tget d.deck.supp 0 port
  let last := tget d.deck.summAt 0 port
  if n ≠ 0 && (last == 0 || decide (last + 10 ^ 9 ≤ d.now + 1)) then
    let d := { d with deck := { d.deck with supp := tput d.deck.supp 0 port 0, summAt := tput d.deck.summAt 0 port (d.now + 1) } }
    d.submit ⟨0x60FF, 4, 0, 0, true, le 2 port ++ le 4 n⟩
  else d

def execSealLogSummary (port : Nat) (s : State) : Host.Outcome State Fault Refusal := s.on (sealLogSummary port)

/-! ### Staging (R226, R227, R247) -/

/-- MIN of a queue as it acts. -/
def Dev.qMin (d : Dev) (q : Nat) : Nat := if d.flag Reg.SEAL_STATUS.CFG_ERR then 0 else d.rd (Reg.SEAL_Q_BLOCKS.MIN q)

/-- The sums of R227 and R228 are checked; CFG_ERR follows. -/
def Dev.checkSeal (d : Dev) : Dev :=
  let sum (r : Nat → FRef) : Nat := (List.range 259).foldl (fun a q => a + d.rd (r q)) 0
  d.setFlag Reg.SEAL_STATUS.CFG_ERR (decide (16384 < sum Reg.SEAL_Q_BLOCKS.MIN) || decide (1024 < sum Reg.SEAL_Q_RES.RES_ED) ||
    decide (1024 < sum Reg.SEAL_Q_RES.RES_HM))

/-- Blocks a queue holds. -/
def Dev.qUsed (d : Dev) (q : Nat) : Nat := tget d.deck.used 0 q

/-- Blocks of the shared pool a frame of `b` blocks needs. -/
def Dev.needShared (d : Dev) (q b : Nat) : Nat := (d.qUsed q + b - d.qMin q) - (d.qUsed q - d.qMin q)

/-- Free blocks of the shared pool. -/
def Dev.sharedFree (d : Dev) : Nat :=
  (16384 - (List.range 259).foldl (fun a q => a + d.qMin q) 0) - (List.range 259).foldl (fun a q => a + (d.qUsed q - d.qMin q)) 0

/-- Takes `n` blocks of a privileged Vat of `size` blocks: from the cache, and from the ring when that is empty. -/
def Priv.takeN (size : Nat) : Nat → Priv → Option (List Nat × Priv)
  | 0, v => some ([], v)
  | n + 1, v =>
    match v.cache with
    | b :: r => (Priv.takeN size n { v with cache := r }).map fun x => (b :: x.1, x.2)
    | [] =>
      match v.ring.ringTake size with
      | some (j, ring) => (Priv.takeN size n { v with ring := ring }).map fun x => (8 * j :: x.1, x.2)
      | none => none

/-- Staging blocks of a frame. -/
def Frame.stageBlocks (f : Frame) : Nat := (f.len + 2047) / 2048

/-- An engine kind that a frame needs: true Ed25519. -/
def Frame.needsEd (f : Frame) : Bool := f.sealAlg == 1

/-- A cluster is in service. -/
def Dev.clusterUp (d : Dev) (c : Nat) : Bool := d.flag (Reg.SEAL_CLU_STATUS.IN_SERVICE c)

/-- Some cluster is in service, so that engines of either kind are. -/
def Dev.anyCluster (d : Dev) : Bool := (List.range 4).any d.clusterUp

/-- A backlog drop. -/
def Dev.backlog (d : Dev) (f : Frame) : Dev := (d.cnt .sealQBacklog (d.queueOf f)).sealDrop f 0x16

/-- A frame is staged whole, its pending chain returned, or dropped as seal_backlog (R227). The flag says that it was staged. -/
def Dev.stageFrame (d : Dev) (f : Frame) : Dev × Bool :=
  let q := d.queueOf f
  let b := f.stageBlocks
  if d.rd (Reg.SEAL_Q_BLOCKS.MAX q) < d.qUsed q + b || d.sharedFree < d.needShared q b || !d.anyCluster ||
      !(d.hbmUp 0 || d.hbmUp 1) then (d.backlog f, false)
  else
    match d.vat.sealP.takeN 16384 b with
    | none => (d.backlog f, false)
    | some (bs, v) =>
      let d := d.returnChain f
      let d := { d with
        vat := { d.vat with sealP := v },
        deck := { d.deck with used := tput d.deck.used 0 q (d.qUsed q + b) },
        path := { d.path with nextStep9 := d.path.nextStep9 + 1 } }
      let d := d.wr Reg.BUFF_PRIV_FREE.SEAL_FREE (d.rd Reg.BUFF_PRIV_FREE.SEAL_FREE - b)
      let d := d.wr Reg.SEAL_STATUS.BLOCKS_USED (d.rd Reg.SEAL_STATUS.BLOCKS_USED + b)
      ((d.cnt .sealStaged q).setFrame { f with
        stage := .staged, cells := [], blocks := bs, sealQ := q, slot := f.keySlot, sealCtx := f.ctxKey,
        order9 := d.path.nextStep9 }, true)

/-- The part of step 9 before staging: the frame goes on, is dropped, or is to be staged (the flag). -/
def Dev.decideCommand (d : Dev) (f : Frame) (ue : Bool) : Dev × Bool :=
  let cmd := d.commandFlagged f
  let f := { f with cmd := cmd, handoff := false }
  let d := d.setFrame f
  if cmd && d.mustVerify f then
    match d.sealScreen f with
    | (some r, unsync) => ((if unsync && r != 0x14 then d.cnt .sealUnsyncPass 0 else d).sealDrop f r, false)
    | (none, unsync) =>
      let d := if unsync then d.cnt .sealUnsyncPass 0 else d
      if ue then (d.dropFrame f 0x23, false) else (d, true)
  else (d.setFrame { f with stage := .admission }, false)

/-- COMMAND_DECISION (R209, R216): step 9 of frames of one cycle, at most one a pipeline. `ue` are those of which a cell reads
with an uncorrectable error as it is copied to staging (R239). When they need more shared blocks than are free they are served
in rotation (R249). -/
def commandDecision (frames ue : List Nat) (d : Dev) : Dev :=
  let r := frames.foldl (fun (a : Dev × List Frame) i =>
    match a.1.frame i with
    | none => a
    | some f =>
      if f.stage = .command && !(f.sealFound && !f.ended) && !(a.2.any fun g => g.pipe == f.pipe) then
        let (d, go) := a.1.decideCommand f (ue.contains i)
        match d.frame i with
        | some g => (d, if go then a.2 ++ [g] else a.2)
        | none => (d, a.2)
      else a) (d, [])
  let d := r.1
  let contested := decide (d.sharedFree < r.2.foldl (fun a f => a + d.needShared (d.queueOf f) f.stageBlocks) 0)
  let rot := tget d.vat.rot 0 10
  let order := if contested then ([0, 1, 2, 3].map fun k => (rot + k) % 4).flatMap fun p => r.2.filter fun f => f.pipe == p else r.2
  order.foldl (fun d f =>
    let (d, ok) := d.stageFrame f
    if ok && contested then { d with vat := { d.vat with rot := tput d.vat.rot 0 10 ((f.pipe + 1) % 4) } } else d) d

def execCommandDecision (frames ue : List Nat) (s : State) : Host.Outcome State Fault Refusal := s.on (commandDecision frames ue)

/-! ### Engines (R228, R216, R221) -/

/-- Key of an engine kind: 0 Ed25519, 1 HMAC. -/
def kindKey (ed : Bool) : Nat := if ed then 0 else 1

/-- The cluster of an engine. -/
def engineCluster (ed : Bool) (e : Nat) : Nat := if ed then e / 8 else e / 4

/-- The frame an engine holds. -/
def Dev.engineHolds (d : Dev) (ed : Bool) (e : Nat) : Option Frame := d.path.frames.find? fun f => f.stage = .verifying ed e

/-- Frames staged that need an engine kind, in a queue. -/
def Dev.waitingIn (d : Dev) (ed : Bool) (q : Nat) : List Frame :=
  d.path.frames.filter fun f => f.stage = .staged && f.needsEd == ed && f.sealQ == q

/-- Reservation of a queue as it acts. -/
def Dev.qRes (d : Dev) (ed : Bool) (q : Nat) : Nat :=
  if d.flag Reg.SEAL_STATUS.CFG_ERR then 0
  else if ed then d.rd (Reg.SEAL_Q_RES.RES_ED q) else d.rd (Reg.SEAL_Q_RES.RES_HM q)

/-- Grants of a queue in the grant frame. -/
def Dev.qGrants (d : Dev) (ed : Bool) (q : Nat) : Nat := tget d.deck.grants 0 (259 * kindKey ed + q)

/-- The queue to serve next: one below its reservation, else any that waits, in rotation. -/
def Dev.nextQueue (d : Dev) (ed : Bool) : Option Nat :=
  let from_ := tget d.deck.lastQ 0 (kindKey ed)
  let order := (List.range 259).map fun k => (from_ + k) % 259
  let w := order.filter fun q => !(d.waitingIn ed q).isEmpty
  match w.find? fun q => decide (d.qGrants ed q < d.qRes ed q) with
  | some q => some q
  | none => w.head?

/-- The key a slot holds, its kind first. -/
def Dev.keyOf (d : Dev) (slot : Nat) : List Byte := le 1 (d.rd (Reg.SEAL_KEY_STATUS.KIND slot)) ++ tget d.deck.keys [] slot

/-- ENGINE_GRANT (R228): a free engine of a cluster in service starts on the head frame of a queue. -/
def engineGrant (ed : Bool) (engine : Nat) (d : Dev) : Dev :=
  if engine < (if ed then 32 else 16) && d.clusterUp (engineCluster ed engine) && (d.engineHolds ed engine).isNone then
    match d.nextQueue ed with
    | none => d
    | some q =>
      match leastBy Frame.order9 (d.waitingIn ed q) with
      | none => d
      | some f =>
        let d := d.setFrame { f with stage := .verifying ed engine, gen := d.rd (Reg.SEAL_KEY_STATUS.GEN f.slot) }
        let k := kindKey ed
        let n := tget d.deck.grantN 0 k + 1
        let d := { d with deck := { d.deck with
          held := tput d.deck.held [] (64 * k + engine) (d.keyOf f.slot), lastQ := tput d.deck.lastQ 0 k ((q + 1) % 259),
          grants := tput d.deck.grants 0 (259 * k + q) (d.qGrants ed q + 1), grantN := tput d.deck.grantN 0 k n } }
        if n = 1024 || !(d.path.frames.any fun g => g.stage = .staged && g.needsEd == ed) then
          { d with deck := { d.deck with
            grantN := tput d.deck.grantN 0 k 0, grants := d.deck.grants.filter fun e => e.1 / 259 != k } }
        else d
  else d

def execEngineGrant (ed : Bool) (engine : Nat) (s : State) : Host.Outcome State Fault Refusal := s.on (engineGrant ed engine)

/-- tag_ok (R215): TAG is right for the coverage under the key the engine read. -/
def Frame.tagOk (f : Frame) (held : List Byte) : Bool :=
  let kind := fromLe (held.take 1)
  let key := held.drop 1
  if f.sealAlg = 1 then kind == 1 && ed25519Verify key f.coverage f.sealTag
  else if f.sealAlg = 2 then kind == 2 && (hmacSha256 key f.coverage).take 16 == f.sealTag
  else kind == 2 && hmacSha256 key f.coverage == f.sealTag

/-- SEAL_VERIFY_DONE (R216, R220): an engine finishes; a right TAG commits the SEQ and marks the frame verified. -/
def sealVerifyDone (ed : Bool) (engine : Nat) (d : Dev) : Dev :=
  match d.engineHolds ed engine with
  | none => d
  | some f =>
    let key := 64 * kindKey ed + engine
    let held := tget d.deck.held [] key
    let d := { d with deck := { d.deck with held := tput d.deck.held [] key [] } }
    if !f.tagOk held then (d.cnt .sealTagFail f.slot).sealDrop f 0x11
    else
      match d.findCtx f.sealCtx with
      | none => d.sealDrop f 0x12
      | some c =>
        if (d.sctxAt c).replayOk f.sealSeq then
          let d := d.setSctx c ((d.sctxAt c).accept f.sealSeq)
          (d.cnt .sealVerified f.slot).setFrame { f with ver := true, stage := .verified }
        else d.sealDrop f 0x13

def execSealVerifyDone (ed : Bool) (engine : Nat) (s : State) : Host.Outcome State Fault Refusal := s.on (sealVerifyDone ed engine)

/-- The frame is in the Deckle. -/
def Frame.inDeckle (f : Frame) : Bool :=
  match f.stage with
  | .staged => true
  | .verifying _ _ => true
  | .verified => true
  | _ => false

/-- Writes a frame held elsewhere into newly allocated cells, whole; the caller has seen that they are free. -/
def Dev.writeBack (d : Dev) (f : Frame) : Dev := (d.setFrame { f with stage := .admission, cells := [], pend := true, full := false }).fillCells f.id maxCells

/-- RELEASE_TO_ADMISSION (R221): a verified frame with no earlier frame of its context in the Deckle is written back. -/
def releaseToAdmission (frame : Nat) (d : Dev) : Dev :=
  match d.frame frame with
  | none => d
  | some f =>
    if f.stage = .verified &&
        !(d.path.frames.any fun g => g.inDeckle && g.sealCtx == f.sealCtx && decide (g.order9 < f.order9)) then
      if (d.bank f.pipe).allocable < cellsOf f.len then (d.cnt .lastElementContest f.pipe).dropFrame f 0x21
      else (d.returnStaging f).writeBack { f with blocks := [] }
    else d

def execReleaseToAdmission (frame : Nat) (s : State) : Host.Outcome State Fault Refusal := s.on (releaseToAdmission frame)

/-! ### Clusters (R230) -/

/-- CLUSTER_FAULT (R230): the cluster leaves service, its frames go back to the heads of their queues; with no cluster left the
waiting frames drop. `cause` 0 cache parity, 1 engine timeout. -/
def clusterFault (cluster cause : Nat) (d : Dev) : Dev :=
  if cluster < 4 && d.clusterUp cluster then
    let d := (d.setFlag (Reg.SEAL_CLU_STATUS.IN_SERVICE cluster) false).setFlag (Reg.SEAL_CLU_STATUS.FAULT cluster) true
    let d := (d.setBitOf Reg.SEAL_STATUS.CLU_UP cluster false).releaseTokens (80 + cluster)
    let d := { d with
      deck := { d.deck with faultAt := tput d.deck.faultAt 0 cluster 1 },
      path := { d.path with frames := d.path.frames.map fun (f : Frame) =>
        match f.stage with
        | .verifying ed e => if engineCluster ed e = cluster then { f with stage := .staged } else f
        | _ => f } }
    let d := ((d.cnt .sealClusterFault 0).alarm 2 4).log 0x6020 (0x10 + cluster)
      (d.regData (Reg.SEAL_CLU_STATUS.addr cluster) ++ le 1 cluster ++ le 1 cause)
    if d.anyCluster then d
    else
      (d.path.frames.filter fun f => f.stage = .staged).foldl (fun d f => match d.frame f.id with
        | some f => d.backlog f
        | none => d) d
  else d

def execClusterFault (cluster cause : Nat) (s : State) : Host.Outcome State Fault Refusal := s.on (clusterFault cluster cause)

/-- A cluster comes into service. -/
def Dev.clusterRise (d : Dev) (c : Nat) : Dev :=
  (d.setFlag (Reg.SEAL_CLU_STATUS.IN_SERVICE c) true).setBitOf Reg.SEAL_STATUS.CLU_UP c true

/-- CLUSTER_RESET (R230): the supervisor resets a faulted cluster, whose domain asks for its tokens again; it returns to service
at once when the domain's power is good, else when it becomes so (DOMAIN_POWER_GOOD). -/
def clusterReset (cluster : Nat) (d : Dev) : Dev :=
  if d.supRunning && tget d.deck.faultAt 0 cluster == 1 then
    let d := { d with deck := { d.deck with faultAt := tput d.deck.faultAt 0 cluster 0 } }
    if d.holdsTokens (80 + cluster) && d.rd (Reg.PWCK_DOM_STATUS.STATE (80 + cluster)) == 2 then d.clusterRise cluster
    else d.requestTokens (80 + cluster) 0
  else d

def execClusterReset (cluster : Nat) (s : State) : Host.Outcome State Fault Refusal := s.on (clusterReset cluster)

/-! ### Key slots and contexts (R222 to R225) -/

/-- A key record takes effect on a slot (R223): kind 0 revokes, 1 Ed25519, 2 HMAC; GEN increases. -/
def Dev.writeKey (d : Dev) (slot kind : Nat) (key : List Byte) : Dev :=
  let d := { d with deck := { d.deck with keys := tput d.deck.keys [] slot (if kind = 0 then [] else slice key 0 32) } }
  let d := (d.setFlag (Reg.SEAL_KEY_STATUS.VALID slot) (kind != 0)).wr (Reg.SEAL_KEY_STATUS.KIND slot) kind
  let d := d.wr (Reg.SEAL_KEY_STATUS.GEN slot) (d.rd (Reg.SEAL_KEY_STATUS.GEN slot) + 1)
  d.wr (Reg.SEAL_KEY_FPR.FPR slot) (if kind = 1 then fromBe ((sha256 (slice key 0 32)).take 4) else 0)

/-- The entry a context record inserts. -/
def SCtx.fresh (key minSeq : Nat) (new : Bool) : SCtx := { SCtx.zero with valid := true, key := key, minSeq := minSeq, new := new }

/-- A context placed by a record (R224): over the entry of its key, or in the lowest free slot of its bucket; none when full. -/
def Dev.loadCtx (d : Dev) (key minSeq : Nat) : Option Dev :=
  match d.findCtx key with
  | some s => some (d.setSctx s (SCtx.fresh key minSeq false))
  | none => ((bucketSlots (d.ctxBucket key)).find? fun s => !(d.sctxAt s).valid).map fun s => d.setSctx s (SCtx.fresh key minSeq false)

/-- A context staged by an amendment: a NEW entry, the one it replaces marked OLD. -/
def Dev.stageCtx (d : Dev) (key minSeq : Nat) : Option Dev :=
  let ss := (bucketSlots (d.ctxBucket key)).filter fun s => (d.sctxAt s).valid && (d.sctxAt s).key == key
  match ss.find? fun s => (d.sctxAt s).new with
  | some s => some (d.setSctx s (SCtx.fresh key minSeq true))
  | none =>
    let d := ss.foldl (fun d s => d.setSctx s { d.sctxAt s with old := true }) d
    ((bucketSlots (d.ctxBucket key)).find? fun s => !(d.sctxAt s).valid).map fun s => d.setSctx s (SCtx.fresh key minSeq true)

/-- A context deleted: at once in an image, marked OLD in staging. -/
def Dev.deleteCtx (d : Dev) (key : Nat) (stage : Bool) : Dev :=
  ((bucketSlots (d.ctxBucket key)).filter fun s => (d.sctxAt s).valid && (d.sctxAt s).key == key).foldl (fun d s =>
    if stage && !(d.sctxAt s).new then d.setSctx s { d.sctxAt s with old := true } else d.setSctx s SCtx.zero) d

/-- Contexts at a commit edge (R225): OLD entries go, NEW ones come into force. -/
def Dev.commitCtxs (d : Dev) : Dev :=
  { d with deck := { d.deck with
    ctxs := (d.deck.ctxs.filter fun e => !e.2.old).map fun e => (e.1, { e.2 with new := false }) } }

/-- Contexts when a shadow is abandoned. -/
def Dev.unstageCtxs (d : Dev) : Dev :=
  { d with deck := { d.deck with
    ctxs := (d.deck.ctxs.filter fun e => !e.2.new).map fun e => (e.1, { e.2 with old := false }) } }

/-- Contexts held (SEAL_CTX_STATUS). -/
def Dev.ctxCount (d : Dev) : Nat := (d.deck.ctxs.filter fun e => e.2.valid && !e.2.new).length

end Sys2Proof.Machine
end

