-- ==== Sys2Proof/Machine/Vats.lean ====
section
/-! DEFINITION. Cell memory, Vats and admission (chapter 10): cells written in one cycle, admission and linking, release, the
bank sweep, spill and refill, the privileged Vats, and HBM stacks. -/

namespace Sys2Proof.Machine

/-! ### Memory faults (R239, R248, R254) -/

/-- An uncorrectable error of a bank (R239): counted, latched in BUFF_BANK_ERR, reported. -/
def Dev.bankErr (d : Dev) (p : Nat) (link : Bool) (cell : Nat) : Dev :=
  let d := d.cnt .cellEccUncorrectable p
  let d := if d.flag (Reg.BUFF_BANK_ERR.VALID p) then d
    else ((d.setFlag (Reg.BUFF_BANK_ERR.VALID p) true).setFlag (Reg.BUFF_BANK_ERR.LINK p) link).wr (Reg.BUFF_BANK_ERR.CELL p) cell
  (d.alarm 0 1).log 0x7001 p (d.regData (Reg.BUFF_BANK_ERR.addr p) ++ le 1 p)

/-- A frame is lost to a memory fault (R239): every copy drops as pointer_check, one in transmission with a stomped end. -/
def Dev.loseFrame (d : Dev) (i : Nat) : Dev := d.dropCopies 0x23 fun c => c.frame == i

/-- An HBM stack fails (R255, R386). `cause` 1 training, 2 PHY fault, 3 uncorrectable rate. -/
def Dev.failStack (d : Dev) (s cause : Nat) : Dev :=
  if d.flag (Reg.BUFF_HBM_STATUS.FAILED s) || 2 ≤ s then d
  else
    let d := (d.setFlag (Reg.BUFF_HBM_STATUS.FAILED s) true).wr (Reg.BUFF_HBM_STATUS.CAUSE s) cause
    let d := [0, 1, 2].foldl (fun d v =>
      let loc := 4 + 2 * v + s
      let d := d.auditLost loc (if d.flag (Reg.BUFF_HBM_STATUS.TRAINED s) then d.vatBlocks v - d.rd (Reg.DEV_AUDIT_LOST.LOST loc) else 0)
      (d.setVatHalf v s FreeList.zero).wr (Reg.BUFF_VAT_FREE.FREE v s) 0) d
    let d := (d.alarm 2 1).releaseTokens (78 + s)
    let d := d.log 0x7003 (0x20 + s) (d.regData (Reg.BUFF_HBM_STATUS.addr s) ++ le 1 s)
    if d.flag (Reg.BUFF_HBM_STATUS.FAILED 0) && d.flag (Reg.BUFF_HBM_STATUS.FAILED 1) then
      let d := (d.path.frames.filter fun f => f.inDeckle).foldl (fun d f => match d.frame f.id with
        | some f => d.dropFrame f 0x23
        | none => d) d
      let d := if d.flag (Reg.BUFF_HBM_STATUS.TRAINED 0) || d.flag (Reg.BUFF_HBM_STATUS.TRAINED 1) then
          (d.auditLost 10 (16384 - d.rd (Reg.DEV_AUDIT_LOST.LOST 10))).auditLost 11 (32768 - d.rd (Reg.DEV_AUDIT_LOST.LOST 11))
        else d
      let d := { d with vat := { d.vat with
        sealP := ⟨[], ⟨[], 16384⟩⟩, supP := ⟨[], ⟨[], 32768⟩⟩, supFrames := [] } }
      d.setReg Reg.BUFF_PRIV_FREE.addr 0
    else d

/-- HBM_STACK_FAIL (R255): the controller of a stack reports a PHY fault. -/
def execHbmStackFail (stack : Nat) (s : State) : Host.Outcome State Fault Refusal := s.on fun d => Dev.failStack d stack 2

/-- An uncorrectable HBM error (R254, R255): more than 16 within one second fail the stack. -/
def Dev.hbmUe (d : Dev) (s : Nat) : Dev :=
  let d := if tget d.vat.ueAt 0 s + 10 ^ 9 ≤ d.now then
      ({ d with vat := { d.vat with ueAt := tput d.vat.ueAt 0 s d.now } }).wr (Reg.BUFF_HBM_STATUS.UE_1S s) 0
    else d
  let n := min 255 (d.rd (Reg.BUFF_HBM_STATUS.UE_1S s) + 1)
  let d := ((d.wr (Reg.BUFF_HBM_STATUS.UE_1S s) n).cnt .hbmEccUncorrectable s).alarm 0 1
  let d := d.log 0x7001 (0x20 + s) (d.regData (Reg.BUFF_HBM_STATUS.addr s) ++ le 1 (0x10 + s))
  if 16 < n then d.failStack s 3 else d

/-! ### The supervisor frame Vat (R247) -/

/-- Takes `b` blocks of the supervisor frame Vat, whole or not at all. -/
def Dev.supTake (d : Dev) (b : Nat) : Option (List Nat × Dev) :=
  if d.hbmUp 0 || d.hbmUp 1 then
    (d.vat.supP.takeN 32768 b).map fun x =>
      (x.1, ({ d with vat := { d.vat with supP := x.2 } }).wr Reg.BUFF_PRIV_FREE.SUP_FREE (d.rd Reg.BUFF_PRIV_FREE.SUP_FREE - b))
  else none

/-- Blocks of the supervisor frame Vat return. -/
def Dev.supGive (d : Dev) (bs : List Nat) : Dev :=
  ({ d with vat := { d.vat with supP := d.vat.supP.giveBack 64 bs } }).wr Reg.BUFF_PRIV_FREE.SUP_FREE
    (d.rd Reg.BUFF_PRIV_FREE.SUP_FREE + bs.length)

/-- Blocks of a frame in the supervisor frame Vat. -/
def supBlocks (len : Nat) : Nat := (len + 16 + 2047) / 2048

/-! ### Cells written in one cycle (R237, R249) -/

/-- A frame's place in the rotation of its bank (R249). -/
def Frame.requester (f : Frame) : Nat := if f.src < 64 then f.src % 16 else 16

/-- Writes the filled cells of some frames of a pipeline in one cycle. When they ask for more cells than are free, requests are
granted whole in rotation order, and those refused find the bank empty (R249). -/
def Dev.storeCycle (d : Dev) (p : Nat) (ids : List Nat) : Dev :=
  let fs := (ids.filterMap d.frame).filter fun f => f.pipe == p && f.cellsWanted != 0
  let free := (d.bank p).allocable
  if fs.foldl (fun n f => n + f.cellsWanted) 0 ≤ free then fs.foldl (fun d f => d.fillCells f.id maxCells) d
  else
    let d := d.cnt .lastElementContest p
    let rot := tget d.vat.rot 0 p
    let order := ((List.range 19).map fun k => (rot + k) % 19).flatMap fun r => fs.filter fun f => f.requester == r
    (order.foldl (fun (a : Dev × Nat) f =>
      if f.cellsWanted ≤ a.2 then
        let d := a.1.fillCells f.id maxCells
        ({ d with vat := { d.vat with rot := tput d.vat.rot 0 p ((f.requester + 1) % 19) } }, a.2 - f.cellsWanted)
      else (a.1.bankEmpty f, a.2)) (d, free)).1

/-- A supervisor's frame enters bank 0 from the supervisor frame Vat (R23, R237, R387); without blocks the send is refused
(R249). -/
def Dev.supSend (d : Dev) (bytes : List Byte) : Dev :=
  if d.boot.released && d.supRunning && decide (64 ≤ bytes.length) && decide (bytes.length ≤ d.maxFrame 258) then
    match d.supTake (supBlocks bytes.length) with
    | none => d
    | some (bs, d) =>
      let f := { d.newFrame 258 0 0 with bytes := bytes }
      let d := { d with path := { d.path with frames := d.path.frames ++ [f], nextFrame := d.path.nextFrame + 1 } }
      (d.finishRx f 0).supGive bs
  else d

/-- CELL_WRITE (R237): bytes arrive in one cycle as (port, MAC, ns since the timestamp point, bytes), and the cells they fill
are allocated and written. An entry for port 258 is a frame that a supervisor sends, whole. -/
def cellWrite (writes : List (Nat × Nat × Nat × List Byte)) (d : Dev) : Dev :=
  let r := writes.foldl (fun (a : Dev × List Nat) w =>
    let (port, mac, ago, bytes) := w
    if a.1.receives port && !bytes.isEmpty then
      let (f, d) := a.1.rxFrame port (mac % 2) ago
      (d.setFrame (d.addBytes f bytes), if a.2.contains f.id then a.2 else a.2 ++ [f.id])
    else a) (d, [])
  let d := [0, 1, 2, 3].foldl (fun d p => d.storeCycle p r.2) r.1
  writes.foldl (fun d w => if w.1 = 258 then d.supSend w.2.2.2 else d) d

def execCellWrite (writes : List (Nat × Nat × Nat × List Byte)) (s : State) : Host.Outcome State Fault Refusal := s.on (cellWrite writes)

/-! ### Admission (R250, R251) and linking (R238, R257, R275, R276) -/

/-- The copies step 8 asked for, as (egress port, class, session of a mirror copy). -/
def Dev.wants (d : Dev) (f : Frame) : List (Nat × Nat × Option Nat) :=
  ((portsOf f.set).map fun m => (m, f.cls, none)) ++
    (f.mirrors.map fun s => (d.rd (Reg.LKUP_MIR_CFG.DEST s), d.rd (Reg.LKUP_MIR_CFG.CLASS s), some s)) |>.filter fun w =>
      d.configured w.1

/-- Checks 1 and 2 of R251 on a copy. -/
def Dev.copyRefused (d : Dev) (f : Frame) (m : Nat) : Option Nat :=
  if d.quarantined m then some 0x45
  else if d.adminUp m && (d.downDrop m || (f.cmd && m != 258 && d.flag (Reg.PORT_STATUS.HOLD m))) then some 0x41
  else none

/-- LIM or DE_LIM of an ingress pair. -/
def Dev.ingressLim (d : Dev) (f : Frame) : Nat :=
  if f.de then d.rd (Reg.BUFF_ILIM_DE.CELLS f.pipe (portIdx f.port) f.cls) else d.rd (Reg.BUFF_ILIM.CELLS f.pipe (portIdx f.port) f.cls)

/-- LIM or DE_LIM of an egress pair. -/
def Dev.egressLim (d : Dev) (f : Frame) (m c : Nat) : Nat :=
  d.tabF (0x7001 + 0x10 * f.pipe) (8 * m + c) (if f.de then 1 else 0) 0 18

/-- The egress publishes a port as idle (R276). -/
def Dev.portIdle (d : Dev) (m : Nat) : Bool :=
  !(d.path.copies.any fun c => c.dst == m && (c.queued || c.txAt.isSome)) && tget d.egr.tx 0 (2 * m) == 0 &&
    tget d.egr.tx 0 (2 * m + 1) == 0

/-- A stream handle has a generator or a handle map entry (R189). -/
def Dev.handleReplicates (d : Dev) (f : Frame) : Bool :=
  match f.handle with
  | none => false
  | some h => d.tabF (0x5003 + 0x10 * f.pipe) h 0 31 1 == 1 || [0, 1, 2, 3].any fun p => d.tabF (0x5101 + 0x10 * p) h 0 31 1 == 1

/-- What keeps every copy of a frame from being cut through (R275, R189). -/
def Dev.neverCut (d : Dev) (f : Frame) (ms : List Nat) : Bool :=
  f.cmd || f.port == 258 || f.whole || (d.pairOfPort f.port).isSome || (ms.any fun m => (d.pairOfPort m).isSome) || d.handleReplicates f

/-- Cut-through is permitted toward a port (R275, R276). -/
def Dev.cutAllowed (d : Dev) (f : Frame) (m : Nat) : Bool :=
  decide (m < 256) && d.flag Reg.FABR_CTRL.CT_EN && d.bitOf (Reg.FABR_CT_EN.PORTS (m / 32)) (m % 32) &&
    decide (d.portRate m ≤ d.portRate f.port) && decide (0 < d.portRate m) && d.portIdle m

/-- CTX_KIND, CTX and its generation of a copy (R192, R262). -/
def Dev.copyCtx (d : Dev) (f : Frame) (m : Nat) : Nat × Nat × Nat :=
  let byHandle := match f.handle with
    | some h => (1, h, 0)
    | none => (0, 0, 0)
  match d.pairOfPort f.port with
  | none => byHandle
  | some r =>
    match (if m = d.pairIl r then f.ctx else if m = d.pairOtherPort r f.port then f.ring else none) with
    | some (c, g) => (2, c, g)
    | none => byHandle

/-- SEQ_SRC and SEQ of a copy: a number given per pair on that pair's ports (R191), else the frame's. -/
def Dev.copySeq (d : Dev) (f : Frame) (m : Nat) : Nat × Nat :=
  match f.pairSeq.find? fun q => d.pairA q.1 == m || d.pairB q.1 == m with
  | some (_, n) => (3, n)
  | none => (f.seqSrc, f.seq)

/-- Step 11 (R238): the kept copies join their VOQs, REFCNT of every cell is their number, and the cells are charged. -/
def Dev.linkFrame (d : Dev) (f : Frame) (kept : List (Nat × Nat × Option Nat)) : Dev :=
  let p := f.pipe
  let n := kept.length
  let never := d.neverCut f (kept.map fun w => w.1)
  let d0 := d
  let cs := kept.zipIdx.map fun (w, i) =>
    let (m, c, sess) := w
    let (kind, ctx, gen) := d0.copyCtx f m
    let (src, seq) := d0.copySeq f m
    let k := { Copy.mk0 (d0.path.nextCopy + i) f m c with
      ct := !never && d0.cutAllowed f m, kind := kind, ctx := ctx, ctxGen := gen, seqSrc := src, seq := seq }
    match sess with
    | some s => { k with kind := 3, ctx := s, ctxGen := 0, session := s }
    | none => k
  let b := f.cells.foldl (fun (b : Bank) k => b.setLink k { b.link k with ref := n }) (d.bank p)
  let d := (d.setBank p b).setFrame { f with stage := .linked, pend := false, kept := n }
  let d := { d with path := { d.path with copies := d.path.copies ++ cs, nextCopy := d.path.nextCopy + n } }
  let d := cs.foldl (fun d c => d.addEc p c.dst c.cls f.cells.length) d
  let d := (d.addIc f.port f.cls f.cells.length).cntBy .copiesCreated 0 (n - 1)
  if f.ended then d.offerSpill f.id else d

/-- Reason under which the copy for the lowest-numbered port was removed (R388). -/
def firstReason (l : List (Nat × Nat)) : Nat :=
  match l with
  | [] => 0x20
  | x :: r => (r.foldl (fun (a : Nat × Nat) y => if y.1 < a.1 then y else a) x).2

/-- ADMISSION (R251): step 10 of a frame. Charges that the frame's own earlier copies make count in check 4. -/
def admission (frame : Nat) (d : Dev) : Dev :=
  match d.frame frame with
  | none => d
  | some f =>
    if f.stage = .admission then
      let p := f.pipe
      let ws := (d.wants f).map fun w => (w, d.copyRefused f w.1)
      let live := (ws.filter fun x => x.2.isNone).map fun x => x.1
      let gone := ws.filterMap fun x => x.2.map fun r => (x.1.1, r)
      let b := if f.ended then cellsOf f.len else f.cells.length
      if live.isEmpty then d.dropFrame f (firstReason gone)
      else if d.ingressLim f < d.ic f.port f.cls + b then d.dropFrame f 0x20
      else
        let r := live.foldl (fun (a : List (Nat × Nat × Option Nat) × List (Nat × Nat)) w =>
          let own := (a.1.filter fun v => v.1 == w.1 && v.2.1 == w.2.1).length * b
          if d.egressLim f w.1 w.2.1 < d.ec p w.1 w.2.1 + own + b then (a.1, a.2 ++ [(w.1, 0x20)]) else (a.1 ++ [w], a.2)) ([], gone)
        if r.1.isEmpty then d.dropFrame f (firstReason r.2) else d.linkFrame f r.1
    else d

def execAdmission (frame : Nat) (s : State) : Host.Outcome State Fault Refusal := s.on (admission frame)

/-! ### Release, sweep and rebuild (R238 to R240) -/

/-- COPY_RELEASE (R238): a copy whose last cell has been read for the fabric releases its references. `flip` is an upset of the
first pointer returned. -/
def copyRelease (copy flip : Nat) (d : Dev) : Dev :=
  match d.copy copy with
  | some c => if c.out && !c.read then (d.releaseRefs c flip).askRefills c.pipe else d
  | none => d

def execCopyRelease (copy flip : Nat) (s : State) : Host.Outcome State Fault Refusal := s.on (copyRelease copy flip)

/-- One finding of the sweep, as (kind, cell): 0 a single-bit error corrected; 1 an uncorrectable first word of a free cell;
2 an uncorrectable link RAM entry, whose content is then a free value; 3 a cell on a free list with its FREE bit clear; 4 a
free-list pointer that fails R248. -/
def Dev.sweepOne (d : Dev) (p : Nat) (x : Nat × Nat) : Dev :=
  let (kind, k) := x
  if bankCells ≤ k then d
  else
    match kind with
    | 0 => d.cnt .cellEccCorrected p
    | 1 => if ((d.bank p).link k).free then (d.bankErr p false k).startRebuild p (k % 32) else d
    | 2 =>
      let d := d.bankErr p true k
      let (v, d) := d.freeNat
      d.setBank p ((d.bank p).setLink k { next := v / 2 ^ 12 % 2 ^ 18, ref := v % 2 ^ 10, free := v.testBit 10, last := v.testBit 11 })
    | 3 => if ((d.bank p).link k).free then d else d.startRebuild p (k % 32)
    | _ => (d.ptrFail p k).startRebuild p (k % 32)

/-- BANK_SWEEP (R240). -/
def bankSweep (pipe : Nat) (found : List (Nat × Nat)) (d : Dev) : Dev := if pipe < 4 then found.foldl (fun d x => d.sweepOne pipe x) d else d

def execBankSweep (pipe : Nat) (found : List (Nat × Nat)) (s : State) : Host.Outcome State Fault Refusal := s.on (bankSweep pipe found)

/-- LIST_REBUILD_DONE (R240, R382): the list holds, in index order, every cell of the sub-bank whose FREE bit is set, and cells
neither free nor linked are lost. -/
def listRebuildDone (pipe sub : Nat) (d : Dev) : Dev :=
  let b := d.bank pipe
  if pipe < 4 && sub < 32 && tget b.rebuild 0 sub != 0 then
    let busy := (b.links.filter fun e => e.1 % 32 == sub && !e.2.free).map fun e => e.1
    let top := busy.foldl (fun m k => max m (k / 32 + 1)) 0
    let list := (List.range top).filter fun row => !busy.contains (32 * row + sub)
    let linked := (d.path.frames.filter fun f => f.pipe == pipe && (f.pend || !(d.holders f.id).isEmpty)).flatMap fun f => f.cells
    let gone := busy.filter fun k => (b.link k).ref == 0 && !linked.contains k && !b.lost.contains k
    let old := (tget b.sub FreeList.zero sub).count subRows
    let fl : FreeList := { pushed := list, fresh := top }
    let d := d.setBank pipe { b with
      sub := tput b.sub FreeList.zero sub fl, rebuild := tput b.rebuild 0 sub 0,
      used := b.used + old - fl.count subRows, lost := b.lost ++ gone }
    let d := if gone.isEmpty then d else d.auditLost pipe gone.length
    d.setFlag (Reg.BUFF_BANK_PEND.REBUILDING pipe) (!(d.bank pipe).rebuild.isEmpty)
  else d

def execListRebuildDone (pipe sub : Nat) (s : State) : Host.Outcome State Fault Refusal := s.on (listRebuildDone pipe sub)

/-! ### Spill (R242 to R245, R249) -/

/-- Free blocks of a Vat half, as BUFF_VAT_FREE shows them. -/
def Dev.vatFree (d : Dev) (v s : Nat) : Nat := d.rd (Reg.BUFF_VAT_FREE.FREE v s)

/-- The list of a Vat half is cut before a failing pointer (R248): the blocks beyond are lost to the half. `ue` says that the
pointer read with an uncorrectable error (R254). -/
def Dev.cutHalf (d : Dev) (v s : Nat) (ue : Bool) : Dev :=
  if v < 3 && s < 2 && d.vatFree v s != 0 then
    let n := d.vatFree v s
    let a := match (d.vatHalf v s).take (d.vatBlocks v) with
      | some (i, _) => d.blockAddr (v, s, i)
      | none => 0
    let d := (d.setVatHalf v s ⟨[], d.vatBlocks v⟩).wr (Reg.BUFF_VAT_FREE.FREE v s) 0
    let d := if ue then d.hbmUe s else d
    if d.flag (Reg.BUFF_HBM_STATUS.FAILED s) then d else (d.ptrFail (4 + v) (a / 256 % 2 ^ 24)).auditLost (4 + 2 * v + s) n
  else d

/-- Takes a block of a Vat from the stack with more free blocks, stack 0 when equal (R242). -/
def Dev.takeBlock (d : Dev) (v : Nat) : Option ((Nat × Nat × Nat) × Dev) :=
  let s := if d.vatFree v 0 < d.vatFree v 1 then 1 else 0
  if d.vatFree v s = 0 then none
  else
    match (d.vatHalf v s).take (d.vatBlocks v) with
    | none => none
    | some (i, fl) => some ((v, s, i), (d.setVatHalf v s fl).wr (Reg.BUFF_VAT_FREE.FREE v s) (d.vatFree v s - 1))

/-- The Vat a frame asks first (R244). -/
def firstVat (len : Nat) : Nat := if len ≤ 496 then 0 else if len ≤ 2032 then 1 else 2

/-- Stored bytes of a VOQ's spilled frames (R244). -/
def Dev.voqStored (d : Dev) (c : Copy) : Nat :=
  d.path.copies.foldl (fun n a =>
    if a.block.isSome && a.pipe == c.pipe && a.dst == c.dst && a.cls == c.cls then
      match d.frame a.frame with
      | some f => n + f.len + 16
      | none => n
    else n) 0

/-- A spill engine takes a frame off its queue. -/
def Dev.popSpill (d : Dev) (p : Nat) : Dev :=
  let q := (tget d.vat.spillQ [] p).drop 1
  let d := { d with vat := { d.vat with spillQ := tput d.vat.spillQ [] p q } }
  if q.isEmpty then { d with vat := { d.vat with burstEmpty := tput d.vat.burstEmpty 0 p d.now } } else d

/-- A spill engine is granted a block: the frame is being written into it. -/
def Dev.spillInto (d : Dev) (c : Copy) (v : Nat) : Dev :=
  match d.takeBlock v with
  | some (b, d) => d.setCopy { c with spill := .writing, block := some b }
  | none => d

/-- Requests of one cycle to Vat `v`, as (pipeline, copy): those granted take blocks, and the others are answered. -/
def Dev.spillRound (d : Dev) (v : Nat) (reqs : List (Nat × Copy)) : Dev × List (Nat × Copy) :=
  let free := d.vatFree v 0 + d.vatFree v 1
  if reqs.length ≤ free then (reqs.foldl (fun d r => d.spillInto r.2 v) d, [])
  else
    let rot := tget d.vat.rot 0 (4 + v)
    let order := ([0, 1, 2, 3].map fun k => (rot + k) % 4).flatMap fun p => reqs.filter fun r => r.1 == p
    let won := order.take free
    let d := won.foldl (fun d r => d.spillInto r.2 v) d
    let d := match won.getLast? with
      | some r => { d with vat := { d.vat with rot := tput d.vat.rot 0 (4 + v) ((r.1 + 1) % 4) } }
      | none => d
    (d, order.drop free)

/-- SPILL (R243 to R245): the spill engines of `pipes` each take the head of their queue, in one cycle, and write it to the
smallest Vat that fits, falling back in the cycles after. `cuts` are Vat halves, as (Vat, stack, uncorrectable), whose
free-list head fails as it is read. -/
def spill (pipes : List Nat) (cuts : List (Nat × Nat × Bool)) (d : Dev) : Dev :=
  let d := cuts.foldl (fun d x => d.cutHalf x.1 x.2.1 x.2.2) d
  let r := [0, 1, 2, 3].foldl (fun (a : Dev × List (Nat × Copy × Nat)) p =>
    let d := a.1
    if !pipes.contains p || !d.holdsTokens (96 + p) then a
    else
      match (tget d.vat.spillQ [] p).head? with
      | none => a
      | some i =>
        let d := d.popSpill p
        match d.copy i with
        | none => (d, a.2)
        | some c =>
          match d.frame c.frame with
          | none => (d, a.2)
          | some f =>
            if d.rd (Reg.BUFF_CLASS_DEEP.DEEP_LIMIT c.cls) * 65536 < d.voqStored c + f.len + 16 then (d.dropCopy c 0x20, a.2)
            else (d, a.2 ++ [(p, c, firstVat f.len)])) (d, [])
  let r0 := r.2.filter fun x => x.2.2 == 0
  let (d, l0) := r.1.spillRound 0 (r0.map fun x => (x.1, x.2.1))
  let d := l0.foldl (fun d x => d.cnt .spillFallback x.1) d
  let (d, l1) := d.spillRound 1 ((r.2.filter fun x => x.2.2 == 1).map fun x => (x.1, x.2.1))
  let d := l1.foldl (fun d x => d.cnt .spillFallback x.1) d
  let (d, l2) := d.spillRound 2 ((r.2.filter fun x => x.2.2 == 2).map fun x => (x.1, x.2.1))
  let (d, m1) := d.spillRound 1 l0
  let d := m1.foldl (fun d x => d.cnt .spillFallback x.1) d
  let (d, m2) := d.spillRound 2 l1
  let (d, n2) := d.spillRound 2 m1
  (l2 ++ m2 ++ n2).foldl (fun d x => match d.copy x.2.id with
    | some c => d.dropCopy c 0x22
    | none => d) d

def execSpill (pipes : List Nat) (cuts : List (Nat × Nat × Bool)) (s : State) : Host.Outcome State Fault Refusal := s.on (spill pipes cuts)

/-- SPILL_COMPLETE (R244): the block reads back complete and the frame's cells are released. -/
def spillComplete (copy : Nat) (d : Dev) : Dev :=
  match d.copy copy with
  | some c =>
    if c.spill = .writing then
      let d := (d.setCopy { c with spill := .spilled }).cnt .spillFrames c.pipe
      (d.releaseRefs { c with spill := .spilled } 0).askRefills c.pipe
    else d
  | none => d

def execSpillComplete (copy : Nat) (s : State) : Host.Outcome State Fault Refusal := s.on (spillComplete copy)

/-- SPILL_BURST_RETURN (R404): 10 µs after its queue empties an engine returns its burst. -/
def spillBurstReturn (pipe : Nat) (d : Dev) : Dev :=
  let p := pipe % 4
  match d.hold_ (96 + p) with
  | some h =>
    if (tget d.vat.spillQ [] p).isEmpty &&
        decide (max (tget d.vat.burstEmpty 0 p) h.rampAt + 10000 ≤ d.now) then d.releaseTokens (96 + p) else d
  | none => d

def execSpillBurstReturn (pipe : Nat) (s : State) : Host.Outcome State Fault Refusal := s.on (spillBurstReturn pipe)

/-! ### Refill (R246) -/

/-- A copy's age exceeds the residence limit of its class (R300). -/
def Dev.overAge (d : Dev) (f : Frame) (c : Copy) : Bool :=
  let lim := min 2000000 (d.rd (Reg.EGRS_AGE_LIMIT.LIMIT_US c.dst c.cls))
  lim != 0 && decide ((lim * 1000 : Int) < shortDiff (shortTime (d.pres f.tsTb)) (shortTime f.ts))

/-- A spilled frame in a failed stack is dropped as pointer_check and counted (R255). -/
def Dev.lostInStack (d : Dev) (c : Copy) (s : Nat) : Dev := (d.cnt .hbmLostFrames s).dropCopy c 0x23

/-- Takes the oldest copy off a pipeline's refill queue. -/
def Dev.popRefill (d : Dev) (p : Nat) : Dev :=
  { d with vat := { d.vat with refillQ := tput d.vat.refillQ [] p ((tget d.vat.refillQ [] p).drop 1) } }

/-- REFILL (R246): the oldest request of a pipeline: a frame over its limit drops unread, too few cells make it wait, else its
cells are allocated, charged to EC, and the block is being read. -/
def refill (pipe : Nat) (d : Dev) : Dev :=
  let p := pipe % 4
  let d := d.askRefills p
  match (tget d.vat.refillQ [] p).head? with
  | none => d
  | some i =>
    match d.copy i with
    | none => d.popRefill p
    | some c =>
      match d.frame c.frame, c.block with
      | some f, some (_, s, _) =>
        if d.flag (Reg.BUFF_HBM_STATUS.FAILED s) then (d.popRefill p).lostInStack c s
        else if d.overAge f c then ((d.popRefill p).cnt .ageDrop (8 * c.dst + c.cls)).dropCopy c 0x40
        else if (d.bank p).allocable < cellsOf f.len then d.cnt .lastElementContest p
        else
          let d := (d.popRefill p).setCopy { c with spill := .refilling, read := false }
          (d.setFrame { f with cells := [], refilled := true, full := false }).fillCells f.id maxCells
      | _, _ => d.popRefill p

def execRefill (pipe : Nat) (s : State) : Host.Outcome State Fault Refusal := s.on (refill pipe)

/-- REFILL_DONE (R246, R254): the block has been read. `corr` words were corrected, `ue` says that one was uncorrectable, and
`flip` is an upset of the block's address as it returns. -/
def refillDone (copy corr : Nat) (ue : Bool) (flip : Nat) (d : Dev) : Dev :=
  match d.copy copy with
  | some c =>
    match c.spill, c.block with
    | .refilling, some (v, s, i) =>
      let d := d.cntBy .hbmEccCorrected s corr
      if d.flag (Reg.BUFF_HBM_STATUS.FAILED s) then d.lostInStack c s
      else if ue then
        let d := d.hbmUe s
        match d.copy copy with
        | some c => d.dropCopy c 0x23
        | none => d
      else
        let d := d.returnBlock (v, s, i) flip
        ((d.setCopy { c with spill := .resident, block := none }).cnt .refillFrames c.pipe).askRefills c.pipe
    | _, _ => d
  | none => d

def execRefillDone (copy corr : Nat) (ue : Bool) (flip : Nat) (s : State) : Host.Outcome State Fault Refusal :=
  s.on (refillDone copy corr ue flip)

/-! ### Privileged Vats (R247, R248) -/

/-- The value of a ring entry fails its check: offset / 256 inside the Vat and a multiple of 8. -/
def privBad (size v : Nat) : Bool := v % 8 != 0 || decide (size ≤ v / 8)

/-- Moves entries from the ring to the cache until it holds `cap`. -/
def Priv.fillCache (size : Nat) : Nat → Priv → Priv
  | 0, v => v
  | n + 1, v =>
    match v.ring.ringTake size with
    | some (j, r) => Priv.fillCache size n { cache := v.cache ++ [8 * j], ring := r }
    | none => v

/-- PRIV_CACHE_REFILL (R247): a cache below half full fills from its ring. `vat` 0 is seal staging, 1 the supervisor frame Vat;
`bad` are values that entries at the head of the ring read and that fail their check: they are skipped and lost (R248). -/
def privCacheRefill (vat : Nat) (bad : List Nat) (d : Dev) : Dev :=
  let sup := vat % 2 == 1
  let size := if sup then 32768 else 16384
  let cap := if sup then 64 else 128
  let get (d : Dev) : Priv := if sup then d.vat.supP else d.vat.sealP
  let set (d : Dev) (v : Priv) : Dev := if sup then { d with vat := { d.vat with supP := v } } else { d with vat := { d.vat with sealP := v } }
  let fld := if sup then Reg.BUFF_PRIV_FREE.SUP_FREE else Reg.BUFF_PRIV_FREE.SEAL_FREE
  if (get d).cache.length < cap / 2 && (d.hbmUp 0 || d.hbmUp 1) then
    let d := bad.foldl (fun d x =>
      match (get d).ring.ringTake size with
      | some (_, r) =>
        if privBad size x then
          let d := (set d { get d with ring := r }).wr fld (d.rd fld - 1)
          (d.ptrFail (if sup then 8 else 7) (x % 2 ^ 24)).auditLost (if sup then 11 else 10) 1
        else d
      | none => d) d
    set d ((get d).fillCache size (cap - (get d).cache.length))
  else d

def execPrivCacheRefill (vat : Nat) (bad : List Nat) (s : State) : Host.Outcome State Fault Refusal := s.on (privCacheRefill vat bad)

end Sys2Proof.Machine
end

