-- ==== Sys2Proof/Machine/Edit.lean ====
section
/-! DEFINITION. The edits of step 17 (R202, R301 to R303): redundancy tags, VLAN tags, PCP and DEI, the one-step correction,
mirror copies, padding and FCS. Bytes here are without the FCS. -/

namespace Sys2Proof.Machine

/-! ### Tags in a frame's bytes -/

/-- A VLAN tag stands at an offset. -/
def vlanAt (b : List Byte) (off : Nat) : Bool := [[0x81, 0x00], [0x88, 0xA8]].contains (slice b off 2)

/-- VLAN tags of a frame: outer and inner (R135). -/
def vlanCount (b : List Byte) : Nat := if vlanAt b 12 then (if vlanAt b 16 then 2 else 1) else 0

/-- Offset after the last VLAN tag. -/
def tagEnd (b : List Byte) : Nat := 12 + 4 * vlanCount b

/-- An HSR tag follows the VLAN tags. -/
def hsrTagged (b : List Byte) : Bool := slice b (tagEnd b) 2 == [0x89, 0x2F]

/-- Offset at which an R-tag stands, or belongs (R202). -/
def rtagOff (b : List Byte) : Nat := tagEnd b + (if hsrTagged b then 6 else 0)

def rtagged (b : List Byte) : Bool := slice b (rtagOff b) 2 == [0xF1, 0xC1]

def removeAt (b : List Byte) (off n : Nat) : List Byte := b.take off ++ b.drop (off + n)

def insertAt (b : List Byte) (off : Nat) (x : List Byte) : List Byte := b.take off ++ x ++ b.drop off

/-- LSDU size of a frame that carries its tag or trailer (IEC 62439-3): everything after the MAC header and VLAN tags. -/
def lsduSize (b : List Byte) : Nat := (b.length - 14 - 4 * vlanCount b) % 4096

/-! ### Redundancy tags (R202) -/

/-- R-tag removal and insertion on a port. -/
def Dev.rtagEdit (d : Dev) (c : Copy) (b : List Byte) : List Byte :=
  let n := c.dst
  let b := if d.flag (Reg.STRM_RED_PORT.RTAG_POP (pipeOf n) (portIdx n)) && rtagged b then removeAt b (rtagOff b) 6 else b
  if d.flag (Reg.STRM_RED_PORT.RTAG_PUSH (pipeOf n) (portIdx n)) && (d.pairOfPort n).isNone && c.seqSrc != 0 && !rtagged b then
    insertAt b (rtagOff b) ([0xF1, 0xC1, 0, 0] ++ be 2 c.seq)
  else b

/-- Edit 1 of R301. -/
def Dev.redEdit (d : Dev) (f : Frame) (c : Copy) (b : List Byte) : List Byte :=
  let n := c.dst
  let b := d.rtagEdit c b
  match d.pairOfPort n with
  | some q =>
    if (f.port == d.pairIl q || f.port == 258) && c.seqSrc != 0 then
      let onB := d.pairB q == n
      if d.pairHsr q then
        let h := insertAt b (tagEnd b) ([0x89, 0x2F, 0, 0] ++ be 2 c.seq)
        patch h (tagEnd b + 2) (be 2 ((2 * d.pairNet q + (if onB then 1 else 0)) * 4096 + lsduSize h))
      else
        let size := (lsduSize b + 6) % 4096
        b ++ be 2 c.seq ++ be 2 ((if onB then 0xB else 0xA) * 4096 + size) ++ [0x88, 0xFB]
    else b
  | none =>
    match d.pairOfPort f.port with
    | some r =>
      if n = d.pairIl r then
        if d.pairHsr r then (if f.flagBit 3 && hsrTagged b then removeAt b (tagEnd b) 6 else b)
        else if f.flagBit 4 then b.take (b.length - 6) else b
      else b
    | none => b

/-! ### VLAN, PCP and DEI -/

/-- The untag bit of a VID and a port (R301). -/
def Dev.untagged (d : Dev) (vid n : Nat) : Bool :=
  d.tabF (0x9800 + 0x10 * pipeOf n) vid (portIdx n / 32) (portIdx n % 32) 1 == 1

/-- The tag control bits of a tag with its VID, PCP and DEI as edits 2 and 3 leave them. -/
def Dev.tciEdit (d : Dev) (f : Frame) (c : Copy) (pcp dei : Nat) : Nat :=
  let pcp := if d.flag (Reg.EGRS_EDIT_PORT.PCP_REMARK (pipeOf c.dst) (portIdx c.dst)) then c.cls else pcp
  pcp % 8 * 2 ^ 13 + (if f.de then 1 else dei) * 2 ^ 12 + f.vid % 2 ^ 12

/-- Edits 2 and 3 of R301. A frame built in the device has no resolved VID and is sent as it was built. -/
def Dev.vlanEdit (d : Dev) (f : Frame) (c : Copy) (b : List Byte) : List Byte :=
  if f.kept = 0 then b
  else if d.untagged f.vid c.dst then (if vlanAt b 12 then removeAt b 12 4 else b)
  else if vlanAt b 12 then
    let tci := fromBe (slice b 14 2)
    patch b 14 (be 2 (d.tciEdit f c (tci / 2 ^ 13) (tci / 2 ^ 12 % 2)))
  else insertAt b 12 (be 2 (d.portTpid c.dst) ++ be 2 (d.tciEdit f c c.cls 0))

/-! ### One-step correction (R302) -/

/-- What R302 does to a copy: 0 nothing, 1 the update, 2 a sealed copy is left as it is. -/
def Dev.oneStep (d : Dev) (f : Frame) (c : Copy) : Nat :=
  if d.flag (Reg.EGRS_EDIT_PORT.TC1_EN (pipeOf c.dst) (portIdx c.dst)) && (f.flagBit 9 || f.flagBit 10) && decide (f.hvF 25 0 4 < 4) &&
      c.kind != 3 then (if f.cmd || f.ver then 2 else 1)
  else 0

/-- Residence in whole ns of a copy whose transmission began `ago` ns ago, on the ingress port's time base. -/
def Dev.residence (d : Dev) (f : Frame) (c : Copy) (ago : Nat) : Nat :=
  let e := (d.pres f.tsTb : Int) + (d.rdS (Reg.PORT_TS_ADJ.TX_ADJ c.dst) - ago) * nsUnit
  tNsTotal (((e - f.ts) % (tbModulus : Int)).toNat + nsUnit / 2)

/-- Edit 4 of R301, made on the bytes as received: no other edit touches what it changes. -/
def Dev.correct (d : Dev) (f : Frame) (c : Copy) (ago : Nat) (b : List Byte) : List Byte :=
  if d.oneStep f c = 1 then
    let po := f.hvF 26 16 8
    fixUdp (if f.flagBit 10 then (if f.flagBit 6 then 1 else 2) else 0) b (addCorrection b po (d.residence f c ago)) po 8 4
  else b

/-- ONE_STEP (R320): the MAC writes originTimestamp, the own time of the instance's base at the start of transmission, into a Sync that
the engine sends. -/
def Dev.originStamp (d : Dev) (f : Frame) (c : Copy) (ago : Nat) (b : List Byte) : List Byte :=
  match f.inst with
  | none => b
  | some k =>
    let po := ptpOffset b
    if d.flag (Reg.TIME_INST_CFG.ONE_STEP k) && fromBe (slice b po 1) % 16 == 0 then
      let t := (((d.own k : Int) + (d.rdS (Reg.PORT_TS_ADJ.TX_ADJ c.dst) - ago) * nsUnit) % (tbModulus : Int)).toNat
      fixUdp (d.rd (Reg.TIME_INST_CFG.TRANSPORT k)) b (patch b (po + 34) (be 6 (tSec t) ++ be 4 (tNs t))) po 34 5
    else b

/-! ### The whole edit -/

/-- TRUNC of a session as it acts (R303): values below 64 act as 64. -/
def Dev.mirTrunc (d : Dev) (s : Nat) : Nat :=
  match d.rd (Reg.EGRS_MIR_EGR.TRUNC s) with
  | 0 => 0
  | t => max 64 t

/-- A mirror copy before truncation (R303). -/
def Dev.mirBody (d : Dev) (c : Copy) (b : List Byte) : List Byte :=
  if d.flag (Reg.EGRS_MIR_EGR.TAG_EN c.session) then
    insertAt b 12 (be 2 (if d.flag (Reg.EGRS_MIR_EGR.TPID_SEL c.session) then 0x88A8 else 0x8100) ++
      be 2 (c.cls * 2 ^ 13 + d.rd (Reg.EGRS_MIR_EGR.VID c.session)))
  else b

/-- A mirror copy is cut (R303). -/
def Dev.mirCut (d : Dev) (f : Frame) (c : Copy) : Bool :=
  c.kind == 3 && d.mirTrunc c.session != 0 && decide (d.mirTrunc c.session < (d.mirBody c (f.bytes.take (f.len - 4))).length + 4)

/-- The bytes of a copy without FCS after the edits, `ago` ns after its transmission began. -/
def Dev.editBody (d : Dev) (f : Frame) (c : Copy) (ago : Nat) : List Byte :=
  let b := f.bytes.take (f.len - 4)
  let e := if c.kind = 3 then
      (if d.mirCut f c then (d.mirBody c b).take (d.mirTrunc c.session - 4) else d.mirBody c b)
    else d.vlanEdit f c (d.redEdit f c (d.originStamp f c ago (d.correct f c ago b)))
  if e = b then b else padFrame e

/-- The copy on the wire: the received FCS where no edit changed a byte, else a new one (R301). -/
def Dev.editCopy (d : Dev) (f : Frame) (c : Copy) (ago : Nat) : List Byte :=
  let e := d.editBody f c ago
  if e = f.bytes.take (f.len - 4) then f.bytes else e ++ fcsOf e

/-- Length of a copy after its edits, at least 64 (R288). -/
def Dev.editLen (d : Dev) (f : Frame) (c : Copy) : Nat := max 64 ((d.editBody f c 0).length + 4)

end Sys2Proof.Machine
end

