-- ==== Sys2Proof/Machine/Gates.lean ====
section
/-! DEFINITION. What the egress scheduler and the credit loop read (chapter 12): class queues, gates and their closes, the
credit-based and token-bucket shapers, WFQ tags, and the selection among classes. -/

namespace Sys2Proof.Machine

/-! ### Class queues (R286) -/

/-- Head of a class queue. -/
def Dev.queueHead (d : Dev) (n c : Nat) : Option Copy :=
  (d.path.copies.filter fun k => k.queued && k.dst == n && k.cls == c).foldl (fun (b : Option Copy) k => match b with
    | none => some k
    | some x => some (if k.qNo < x.qNo then k else x)) none

/-- The copy a MAC of a port transmits, a preempted one included. -/
def Dev.txCopy (d : Dev) (n mac : Nat) : Option Copy :=
  match tget d.egr.tx 0 (2 * n + mac) with
  | 0 => none
  | i + 1 => d.copy i

/-- Bit `c` of PREEMPTABLE acts (R298). -/
def Dev.preemptable (d : Dev) (n c : Nat) : Bool :=
  decide (n < 256) && d.flag (Reg.PORT_STATUS.PREEMPT_ACTIVE n) && d.bitOf (Reg.EGRS_PORT_SCHED.PREEMPTABLE n) c

/-! ### Gates (R289 to R293) -/

def Dev.egate (d : Dev) (n : Nat) : EGate := tget d.egr.gate EGate.zero n

def Dev.setEgate (d : Dev) (n : Nat) (g : EGate) : Dev := { d with egr := { d.egr with gate := tput d.egr.gate EGate.zero n g } }

/-- INTERVAL_NS of entry `i` of a schedule of port `n`. -/
def Dev.egateIv (d : Dev) (n : Nat) (s : Sched) (i : Nat) : Nat := d.tabF (0x9000 + 0x10 * groupOf n) (s.first + i) 0 0 32

/-- STATE of that entry. -/
def Dev.egateState (d : Dev) (n : Nat) (s : Sched) (i : Nat) : Word := d.tabW (0x9000 + 0x10 * groupOf n) (s.first + i) 1

/-- The entry in progress at an instant (R290): its number and the instant it began. -/
def Dev.egateEntry (d : Dev) (n : Nat) (s : Sched) (t : Nat) : Option (Nat × Nat) :=
  (entryAt (d.egateIv n s) s.len (s.pos t)).map fun e => (e.1, t - s.pos t + e.2)

/-- The gates of a port `ago` ns ago, by the schedule in operation on its own base (R290, R291). -/
def Dev.gatesAt (d : Dev) (n ago : Nat) : Nat :=
  if 258 ≤ n || !d.flag (Reg.EGRS_GATE_CTRL.GATE_EN n) then 255
  else
    match (d.egate n).oper with
    | none => d.rd (Reg.EGRS_GATE_CTRL.INIT_STATES n)
    | some s =>
      match d.egateEntry n s (d.presNs s.tb - ago) with
      | none => 0
      | some (i, _) => fget (d.egateState n s i) 0 8

/-- The gate of a class is open now. -/
def Dev.gateOpen (d : Dev) (n c : Nat) : Bool := (d.gatesAt n 0).testBit c

/-- The parts of a cycle as (start, end, open) for a class: entries cut at the cycle end, the last one held to it. -/
def Dev.segments (d : Dev) (n c : Nat) (s : Sched) : List (Nat × Nat × Bool) :=
  ((List.range s.len).foldl (fun (a : List (Nat × Nat × Bool) × Nat) i =>
    let e := if i + 1 = s.len then s.cycle else min s.cycle (a.2 + d.egateIv n s i)
    if a.2 < e then (a.1 ++ [(a.2, e, (d.egateState n s i).getLsbD c)], e) else a) ([], 0)).1

/-- How long after an instant a class stays open under a schedule; none where it never closes. -/
def Dev.openFor (d : Dev) (n c : Nat) (s : Sched) (t : Nat) : Option Nat :=
  let l := d.segments n c s
  if l.isEmpty then some 0
  else
    let p := s.pos t
    let two := l ++ l.map fun x => (x.1 + s.cycle, x.2.1 + s.cycle, x.2.2)
    (two.find? fun x => decide (p < x.2.1) && !x.2.2).map fun x => x.1 - p

/-- A schedule's first entry opens a class. -/
def Dev.firstOpens (d : Dev) (n c : Nat) (s : Sched) : Bool := s.len != 0 && (d.egateState n s 0).getLsbD c

/-- Time from now in ns until the gate of an open class closes, a takeover counted (R292, R293); none where it never does. -/
def Dev.closesIn (d : Dev) (n c : Nat) : Option Nat :=
  if 258 ≤ n || !d.flag (Reg.EGRS_GATE_CTRL.GATE_EN n) then none
  else
    let g := d.egate n
    let byOper := match g.oper with
      | some s => d.openFor n c s (d.presNs s.tb)
      | none => none
    match g.pend with
    | none => byOper
    | some p =>
      let t := p.due - d.presNs p.tb
      if byOper.any fun x => decide (x < t) then byOper
      else if d.firstOpens n c p then (d.openFor n c p p.due).map fun x => t + x
      else some t

/-- The class stays open for `ns` from now. -/
def Dev.staysOpen (d : Dev) (n c ns : Nat) : Bool :=
  d.gateOpen n c && match d.closesIn n c with
    | some t => decide (ns ≤ t)
    | none => true

/-- Longest time in ns for which a class is open in the schedule in operation, across the cycle end (R293); none where it
never closes. -/
def Dev.longestOpen (d : Dev) (n c : Nat) : Option Nat :=
  if !d.flag (Reg.EGRS_GATE_CTRL.GATE_EN n) then none
  else
    match (d.egate n).oper with
    | none => none
    | some s =>
      let l := d.segments n c s
      if !l.isEmpty && l.all fun x => x.2.2 then none
      else some ((l ++ l).foldl (fun (a : Nat × Nat) x =>
        let run := if x.2.2 then a.1 + (x.2.1 - x.1) else 0
        (run, max a.2 run)) (0, 0)).2

/-- EGRS_GATE_STATUS follows the gates of now. -/
def Dev.showGates (d : Dev) (n : Nat) : Dev :=
  let g := d.egate n
  let d := (d.wr (Reg.EGRS_GATE_STATUS.STATES n) (d.gatesAt n 0)).setFlag (Reg.EGRS_GATE_STATUS.PENDING n) g.pend.isSome
  let e := match g.oper with
    | some s => ((d.egateEntry n s (d.presNs s.tb)).map fun x => x.1).getD 0
    | none => 0
  (d.setFlag (Reg.EGRS_GATE_STATUS.OPER n) g.oper.isSome).wr (Reg.EGRS_GATE_STATUS.ENTRY n) e

/-! ### Shapers (R294, R297) -/

/-- A class transmits, or has a frame held by preemption. -/
def Dev.classOnMac (d : Dev) (n c : Nat) : Option (Copy × Nat) :=
  [0, 1].findSome? fun mac => match d.txCopy n mac with
    | some k => if k.cls = c then some (k, mac) else none
    | none => none

/-- Credit of a class after the time since it was last brought up to date (R294), under the conditions of that time. -/
def Dev.cbsCredit (d : Dev) (n c : Nat) : Int :=
  let b := tget d.egr.cbs Cbs.zero (8 * n + c)
  let dt := d.now - b.at_
  let idle := d.rd (Reg.EGRS_CBS_IDLE.IDLE_SLOPE n c)
  let hi : Int := d.rd (Reg.EGRS_CBS_CREDIT.HI_CREDIT n c) * 65536
  let lo : Int := -((d.rd (Reg.EGRS_CBS_CREDIT.LO_CREDIT n c) * 65536 : Nat) : Int)
  let open_ := (d.gatesAt n dt).testBit c
  let waiting := (d.queueHead n c).isSome
  let rise (dt : Nat) (v : Int) : Int :=
    if !open_ then v
    else if waiting then v + rateUnits idle dt
    else if v < 0 then min 0 (v + rateUnits idle dt)
    else 0
  let v := match d.classOnMac n c with
    | some (k, mac) =>
      if k.preempted then b.credit
      else
        let fin := tget d.egr.txEnd 0 (2 * n + mac)
        let oh := d.wireNs n (d.rd (Reg.EGRS_PORT_SHAPE.OVERHEAD n))
        let fin := if fin = 0 then d.now else fin + oh - d.wireNs n 20
        let fall := min d.now fin - b.at_
        let v := b.credit + rateUnits idle fall - rateUnits (d.portRate n * 1000) fall
        if fin < d.now then rise (d.now - max fin b.at_) v else v
    | none => if !waiting && 0 < b.credit then 0 else rise dt b.credit
  clampI v lo hi

/-- Every class of a port with its shaper on has its credit brought up to date. -/
def Dev.cbsRun (d : Dev) (n : Nat) : Dev :=
  classes.foldl (fun d c =>
    if d.bitOf (Reg.EGRS_PORT_SCHED.CBS_EN n) c then
      let v := d.cbsCredit n c
      { d with egr := { d.egr with cbs := tput d.egr.cbs Cbs.zero (8 * n + c) ⟨v, d.now⟩ } }
    else d) d

/-- The credit-based shaper permits a class. -/
def Dev.cbsOk (d : Dev) (n c : Nat) : Bool := 258 ≤ n || !d.bitOf (Reg.EGRS_PORT_SCHED.CBS_EN n) c || decide (0 ≤ d.cbsCredit n c)

/-- What is missing from a token bucket in bytes with 16 fractional bits; `c` = 8 is the port's. -/
def Dev.tbsUsed (d : Dev) (n c : Nat) : Int :=
  let b := tget d.egr.tbs Bucket.full (9 * n + c)
  max 0 (b.used - rateUnits (d.rd (Reg.EGRS_TBS_RATE.RATE n c)) (d.now - b.at_))

/-- A bucket is zero or more. -/
def Dev.tbsFull (d : Dev) (n c : Nat) : Bool := decide (d.tbsUsed n c ≤ (d.rd (Reg.EGRS_TBS_BURST.BURST n c) * 65536 : Nat))

/-- The token bucket permits a class. -/
def Dev.tbsOk (d : Dev) (n c : Nat) : Bool := !d.bitOf (Reg.EGRS_PORT_SCHED.TBS_EN n) c || d.tbsFull n c

/-- A bucket is charged `bytes`. -/
def Dev.tbsCharge (d : Dev) (n c bytes : Nat) : Dev :=
  let b : Bucket := ⟨d.tbsUsed n c + (bytes * 65536 : Nat), d.now⟩
  { d with egr := { d.egr with tbs := tput d.egr.tbs Bucket.full (9 * n + c) b } }

/-! ### Weighted fair queuing (R295) -/

/-- A 48-bit tag precedes another. -/
def tagLess (a b : Nat) : Bool := decide (2 ^ 47 ≤ (a + 2 ^ 48 - b % 2 ^ 48) % 2 ^ 48)

def Dev.wfqOf (d : Dev) (n c : Nat) : Wfq := tget d.egr.wfq Wfq.zero (8 * n + c)

def Dev.setWfq (d : Dev) (n c : Nat) (w : Wfq) : Dev := { d with egr := { d.egr with wfq := tput d.egr.wfq Wfq.zero (8 * n + c) w } }

/-- WEIGHT of a class. -/
def Dev.weight (d : Dev) (n c : Nat) : Nat :=
  let w := if c < 4 then d.rd (Reg.EGRS_PORT_WEIGHT_LO.WEIGHT n) else d.rd (Reg.EGRS_PORT_WEIGHT_HI.WEIGHT n)
  max 1 (w / 2 ^ (8 * (c % 4)) % 256)

/-- A finish tag. -/
def Dev.finishTag (d : Dev) (n c start len : Nat) : Nat :=
  (start + (len + d.rd (Reg.EGRS_PORT_SHAPE.OVERHEAD n)) * 256 / d.weight n c) % 2 ^ 48

/-- Start tag of a class that becomes active. -/
def Dev.startTag (d : Dev) (n c : Nat) : Nat :=
  let v := tget d.egr.vtime 0 n
  let f := (d.wfqOf n c).finish
  if tagLess v f then f else v

/-- L of a head frame (R292, R295): MAX_FRAME for a cut-through copy whose length is not known. -/
def Dev.headLen (d : Dev) (k : Copy) : Nat :=
  match d.frame k.frame with
  | some f => if k.ct && !k.last then d.rd (Reg.PORT_CFG.MAX_FRAME k.dst) else d.editLen f k
  | none => 64

/-- The class is stopped by received pause (R82). -/
def Dev.paused (d : Dev) (n c : Nat) : Bool := decide (n < 258) && d.bitOf (Reg.PORT_PAUSE_STAT.RX_PAUSED n) c

/-- The head frame fits (R292). A preemptable class needs room for a minimum fragment and its mCRC only. -/
def Dev.headFits (d : Dev) (n c : Nat) (k : Copy) : Bool :=
  let l := d.headLen k
  let l := if d.preemptable n c then min l (64 * (1 + d.rd (Reg.PORT_PREEMPT_CFG.ADD_FRAG_SIZE n))) else l
  d.staysOpen n c (d.wireNs n (l + 20))

/-- A class is eligible (R287). -/
def Dev.eligible (d : Dev) (n c : Nat) : Bool :=
  match d.queueHead n c with
  | none => false
  | some k =>
    (k.ct || k.last) && !d.paused n c && d.headFits n c k && d.cbsOk n c && d.tbsOk n c && !(d.preemptable n c && (d.egate n).hold)

/-- Classes that become eligible become active and take tags; those that lose eligibility keep theirs (R295). -/
def Dev.wfqRefresh (d : Dev) (n : Nat) : Dev :=
  classes.foldl (fun d c =>
    if d.bitOf (Reg.EGRS_PORT_SCHED.STRICT n) c then d
    else
      let e := d.eligible n c
      let w := d.wfqOf n c
      if e && !w.active then
        let s := d.startTag n c
        let l := ((d.queueHead n c).map d.headLen).getD 64
        d.setWfq n c ⟨s, d.finishTag n c s l, true⟩
      else if !e && w.active then d.setWfq n c { w with active := false }
      else d) d

/-- What an event on a port brings up to date before it acts. -/
def Dev.portEvent (d : Dev) (n : Nat) : Dev := if n < 258 then d.cbsRun n else d

/-- The class taken among some eligible ones (R287): the highest strict one, else the least finish tag, the higher class on a
tie. -/
def Dev.pickClass (d : Dev) (n : Nat) (cs : List Nat) : Option Nat :=
  let e := cs.filter (d.eligible n)
  match (e.filter fun c => d.bitOf (Reg.EGRS_PORT_SCHED.STRICT n) c).getLast? with
  | some c => some c
  | none => e.foldl (fun (b : Option Nat) c => match b with
    | none => some c
    | some x => if tagLess (d.wfqOf n x).finish (d.wfqOf n c).finish then some x else some c) none

/-! ### Eligibility for credit (R273) -/

/-- LEAD_NS as it acts. -/
def Dev.leadNs (d : Dev) : Nat := d.rd Reg.FABR_CTRL.LEAD_NS

/-- A (port, class) may receive fabric credit (R273). -/
def Dev.creditOk (d : Dev) (n c : Nat) : Bool :=
  !(d.flag (Reg.PORT_STATUS.HOLD n) && n != 258) && !(d.flag (Reg.PORT_STATUS.FLUSHING n) && n != 258) && d.adminUp n &&
    !d.quarantined n && !d.paused n c && d.cbsOk n c && d.gateOpen n c &&
    (match d.closesIn n c with
      | some t => decide (d.leadNs < t)
      | none => true)

end Sys2Proof.Machine
end

