-- ==== Sys2Proof/Machine/Fabric.lean ====
section
/-! DEFINITION. Headbox, Felt planes and the Couch (chapter 11): credit, matching and spraying, sequence reports, arrival and
release, gaps, plane health, failover and planned rotation. -/

namespace Sys2Proof.Machine

/-! ### Slots and source lists (R257, R259) -/

/-- The slot counter: a slot is 10.24 ns, counted from forwarding release. -/
def Dev.slotNow (d : Dev) : Nat := (d.now - d.fab.relAt) * 25 / 256

/-- A copy is the head of its source list. -/
def Dev.isHead (d : Dev) (c : Copy) : Bool := !c.out && !(d.path.copies.any fun a => a.sameList c && decide (a.id < c.id))

/-- Fabric input of a copy. -/
def Copy.input (c : Copy) : Nat := if c.src < 64 then c.src else 0

/-- Key of a pair (ingress group, egress group). -/
def pairKey (i j : Nat) : Nat := 64 * i + j

/-- Cells of a frame that a copy can send: written, and known to be the last or not. A frame that found the bank empty ends
with the cells written, or with an error-end cell (R252). -/
def Frame.sendable (f : Frame) (sent : Nat) : Nat :=
  let n := f.cells.length
  if f.full then (if sent < n then n - sent else 1)
  else if f.ended then n - sent
  else min n (if f.len ≤ 104 then 0 else 1 + (f.len - 105) / 120) - sent

/-- Cells a head copy can send now (R259): resident, credited, written. -/
def Dev.readyCells (d : Dev) (c : Copy) : Nat :=
  if c.granted && c.spill = .resident && d.isHead c then
    match d.frame c.frame with
    | some f => min (f.sendable c.sent) c.held
    | none => 0
  else 0

/-! ### Credit (R272 to R274) -/

/-- CREDIT_REQUEST (R272): the head of a source list asks for the cells of its whole frame. A copy for a port that is
administratively disabled gets no credit and drops (R91). -/
def creditRequest (copy : Nat) (d : Dev) : Dev :=
  match d.copy copy with
  | none => d
  | some c =>
    match d.frame c.frame with
    | none => d
    | some f =>
      if d.isHead c && c.want.isNone && !c.granted && c.spill = .resident then
        if !d.adminUp c.dst then d.dropCopy c 0x43
        else
          let n := if f.full then max 1 f.cells.length
            else if f.ended then cellsOf f.len else cellsOf (d.maxFrame f.port + 1)
          let d := d.setCopy { c with want := some n, reqNo := d.path.nextQ }
          { d with path := { d.path with nextQ := d.path.nextQ + 1 } }
      else d

def execCreditRequest (copy : Nat) (s : State) : Host.Outcome State Fault Refusal := s.on (creditRequest copy)

/-- Credits outstanding for a (port, class) (R272). -/
def Dev.outstanding (d : Dev) (n c : Nat) : Nat :=
  d.path.copies.foldl (fun a k => if k.dst == n && k.cls == c then a + k.held + k.staged else a) 0 +
    (d.fab.flight.filter fun x => x.port == n && x.cls == c).length

/-- The oldest request of a (port, class). -/
def Dev.oldestReq (d : Dev) (n c : Nat) : Option Copy :=
  (d.path.copies.filter fun k => k.want.isSome && k.dst == n && k.cls == c).foldl (fun (b : Option Copy) k => match b with
    | none => some k
    | some x => some (if k.reqNo < x.reqNo then k else x)) none

/-- The request of a (port, class) that a group may grant. -/
def Dev.grantable (d : Dev) (n c : Nat) : Option (Copy × Nat) :=
  match d.oldestReq n c with
  | none => none
  | some k =>
    let w := k.want.getD 0
    if d.rd (Reg.FABR_GRP_CREDIT.OUTSTANDING (dstGroup n)) + w ≤ 1536 && d.outstanding n c + w ≤ d.rd Reg.FABR_CREDIT_CFG.CREDIT_MAX &&
        d.creditOk n c then some (k, w)
    else none

/-- The request of a port to grant first (R296): strict classes from the highest down, then by the finish tag its count would
give. -/
def Dev.grantOfPort (d : Dev) (n : Nat) : Option (Copy × Nat) :=
  let l := classes.filterMap fun c => (d.grantable n c).map fun x => (c, x)
  match (l.filter fun x => decide (258 ≤ n) || d.bitOf (Reg.EGRS_PORT_SCHED.STRICT n) x.1).getLast? with
  | some x => some x.2
  | none =>
    let tag (x : Nat × Copy × Nat) : Nat := d.finishTag n x.1 (d.startTag n x.1) (120 * x.2.2)
    (l.foldl (fun (b : Option (Nat × Copy × Nat)) x => match b with
      | none => some x
      | some y => if tagLess (tag y) (tag x) then some y else some x) none).map fun x => x.2

/-- Ports of a group in rotation from a port on. -/
def groupPorts (g start : Nat) : List Nat :=
  let l := [4 * g, 4 * g + 1, 4 * g + 2, 4 * g + 3] ++ (if g = 0 then [256, 257, 258] else [])
  (l.filter fun n => decide (start ≤ n)) ++ l.filter fun n => decide (n < start)

/-- CREDIT_GRANT (R272, R296): a group grants one request. -/
def creditGrant (group : Nat) (d : Dev) : Dev :=
  if 64 ≤ group then d
  else
    match (groupPorts group (tget d.fab.grantAt 0 group)).findSome? d.grantOfPort with
    | none => d
    | some (c, w) =>
      let d := d.setCopy { c with held := c.held + w, granted := true, want := none }
      let d := d.wr (Reg.FABR_GRP_CREDIT.OUTSTANDING group) (d.rd (Reg.FABR_GRP_CREDIT.OUTSTANDING group) + w)
      { d with fab := { d.fab with
        issued := tput d.fab.issued 0 group (tget d.fab.issued 0 group + w),
        grantAt := tput d.fab.grantAt 0 group (c.dst + 1) } }

def execCreditGrant (group : Nat) (s : State) : Host.Outcome State Fault Refusal := s.on (creditGrant group)

/-- CREDIT_REVOKE (R273): from LEAD_NS before its gate closes, frames of a class with no cell sent lose their credit; each is
counted. -/
def creditRevoke (port cls : Nat) (d : Dev) : Dev :=
  let closing := port < 258 && (!d.gateOpen port cls || match d.closesIn port cls with
    | some t => decide (t ≤ d.leadNs)
    | none => false)
  if closing then
    let cs := d.path.copies.filter fun c => c.dst == port && c.cls == cls && c.granted && c.sent == 0
    cs.foldl (fun d c =>
      ((d.returnCredit (dstGroup port) c.held).setCopy { c with held := 0, granted := false }).cnt .creditRevoked (dstGroup port)) d
  else d

def execCreditRevoke (port cls : Nat) (s : State) : Host.Outcome State Fault Refusal := s.on (creditRevoke port cls)

/-! ### Planes (R278, R279) -/

/-- A plane takes part in matching. -/
def Dev.planeActive (d : Dev) (n : Nat) : Bool := d.bitOf Reg.FABR_STATUS.ACTIVE n

def planes : List Nat := [0, 1, 2, 3, 4, 5, 6, 7, 8, 9]

def Dev.activePlanes (d : Dev) : List Nat := planes.filter d.planeActive

/-- DEGRADED follows the number of active planes (R283). -/
def Dev.showPlanes (d : Dev) : Dev := d.setFlag Reg.FABR_STATUS.DEGRADED (decide (d.activePlanes.length < 9))

/-- A token holder of a plane changes level (R404). -/
def Dev.planeLevel (d : Dev) (n level : Nat) : Dev :=
  { d with power := { d.power with holds := d.power.holds.map fun (h : TokHold) => if h.holder = 68 + n then { h with level := level } else h } }

/-- A plane enters service (R266, R280, R282): its pointers start at zero. -/
def Dev.planeJoin (d : Dev) (n : Nat) : Dev :=
  let d := ((d.setBitOf Reg.FABR_STATUS.ACTIVE n true).wr (Reg.FABR_PLANE_STATUS.ROLE n) 1).setFlag (Reg.FABR_PLANE_STATUS.SYNC n) true
  let d := (d.wr Reg.FABR_STATUS.SPARE 0xF).setFlag Reg.FABR_STATUS.SPARE_READY false
  let d := { d with fab := { d.fab with
    gptr := d.fab.gptr.filter fun e => e.1 / 64 != n, aptr := d.fab.aptr.filter fun e => e.1 / 64 != n,
    sentOn := tput d.fab.sentOn 0 n 0, recvOn := tput d.fab.recvOn 0 n 0, spareAt := tput d.fab.spareAt 0 n d.now } }
  (d.planeLevel n 1).showPlanes

/-- The planes at forwarding release (R279): 0 to 8 active, 9 the spare, pointers, sequences and slot counter at zero. -/
def Dev.fabricRelease (d : Dev) : Dev :=
  let d := [0, 1, 2, 3, 4, 5, 6, 7, 8].foldl (fun d n =>
    (d.wr (Reg.FABR_PLANE_STATUS.ROLE n) 1).setFlag (Reg.FABR_PLANE_STATUS.SYNC n) true) d
  let d := (d.wr (Reg.FABR_PLANE_STATUS.ROLE 9) 2).wr Reg.FABR_STATUS.ACTIVE 0x1FF
  let d := (d.wr Reg.FABR_STATUS.SPARE 9).setFlag Reg.FABR_STATUS.SPARE_READY true
  { d with fab := { d.fab with relAt := d.now, schedAt := d.now } }.showPlanes

/-! ### Matching and spraying (R263 to R267) -/

/-- Distance counting upward modulo 64. -/
def dist64 (x p : Nat) : Nat := (x + 64 - p % 64) % 64

/-- The element of a list nearest at or after a pointer. -/
def nearest (p : Nat) (l : List Nat) : Option Nat :=
  l.foldl (fun (b : Option Nat) x => match b with
    | none => some x
    | some y => some (if dist64 x p < dist64 y p then x else y)) none

/-- One iteration of R265 on a plane: the pairs matched so far and the pointers after it. `first` says that pointers move. -/
def Dev.matchIter (d : Dev) (plane : Nat) (reqs done : List (Nat × Nat)) (first : Bool) : Dev × List (Nat × Nat) :=
  let live := reqs.filter fun r => !(done.any fun m => m.1 == r.1 || m.2 == r.2)
  let outs := (live.map fun r => r.2).eraseDups
  let grants := outs.filterMap fun j =>
    (nearest (tget d.fab.gptr 0 (64 * plane + j)) ((live.filter fun r => r.2 == j).map fun r => r.1)).map fun i => (i, j)
  let ins := (grants.map fun g => g.1).eraseDups
  let acc := ins.filterMap fun i =>
    (nearest (tget d.fab.aptr 0 (64 * plane + i)) ((grants.filter fun g => g.1 == i).map fun g => g.2)).map fun j => (i, j)
  let d := if first then
      acc.foldl (fun d (i, j) => { d with fab := { d.fab with
        gptr := tput d.fab.gptr 0 (64 * plane + j) ((i + 1) % 64), aptr := tput d.fab.aptr 0 (64 * plane + i) ((j + 1) % 64) } }) d
    else d
  (d, done ++ acc)

/-- The three iterations of a plane (R265, R266). -/
def Dev.matchPlane (d : Dev) (plane : Nat) (reqs : List (Nat × Nat)) : Dev × List (Nat × Nat) :=
  let (d, m) := d.matchIter plane reqs [] true
  let (d, m) := d.matchIter plane reqs m false
  d.matchIter plane reqs m false

/-- A copy is in progress toward its egress group. -/
def Copy.inProgress (c : Copy) : Bool := c.sent != 0 && !c.out

/-- Copies of a pair in progress. -/
def Dev.inProgress (d : Dev) (i j : Nat) : List Copy :=
  d.path.copies.filter fun c => c.inProgress && c.input == i && dstGroup c.dst == j

/-- Place of a copy's list in the rotation of its pair. -/
def Copy.listKey (c : Copy) : Nat := 2 * (8 * c.dst + c.cls) + (if c.src = 64 then 1 else 0)

/-- The copy that gives the next cell toward a group (R267): the oldest frame in progress with a cell ready, else the next list
in rotation while fewer than eight are in progress. -/
def Dev.nextSend (d : Dev) (i j src : Nat) : Option Copy :=
  let mine := d.path.copies.filter fun c => c.src == src && dstGroup c.dst == j && d.readyCells c != 0
  let best (key : Copy → Nat) (l : List Copy) : Option Copy := l.foldl (fun (b : Option Copy) c => match b with
    | none => some c
    | some x => some (if key c < key x then c else x)) none
  match best Copy.startNo (mine.filter Copy.inProgress) with
  | some c => some c
  | none =>
    if 8 ≤ (d.inProgress i j).length then none
    else
      let last := tget d.fab.started 0 (pairKey i j)
      best (fun c => (c.listKey + 4200 - last) % 4200) (mine.filter fun c => c.sent == 0)

/-- Source lists served by an input: in a slot of R264 the management attachment's alone. -/
def inputSrcs (i : Nat) (mgmt : Bool) : List Nat := if i ≠ 0 then [i] else if mgmt then [64] else [0, 64]

/-- A copy's next cell is sent on a plane (R260, R267). -/
def Dev.sendCell (d : Dev) (plane slot i j : Nat) (c : Copy) : Dev :=
  match d.frame c.frame with
  | none => d
  | some f =>
    let k := pairKey i j
    let seq := tget d.fab.seqNext 0 k
    let errEnd := f.full && decide (f.cells.length ≤ c.sent)
    let last := errEnd || ((f.ended || f.full) && c.sent + 1 == f.cells.length)
    let cell : FCell := {
      plane := plane, slot := slot, src := i, dst := j, seq := seq, copy := c.id, first := c.sent == 0 && !errEnd, last := last,
      err := if !last then 0 else if f.full then 0x21 else f.err,
      bytes := if errEnd then 0 else if f.ended then cellBytes f.len c.sent else if c.sent = 0 then 104 else 120,
      port := c.dst, cls := c.cls, dead := false }
    let no := if c.sent = 0 then d.path.nextQ else c.startNo
    let d := if c.sent = 0 then { d with
        path := { d.path with nextQ := d.path.nextQ + 1 },
        fab := { d.fab with started := tput d.fab.started 0 k (c.listKey + 1) } } else d
    let d := d.setCopy { c with sent := c.sent + 1, held := c.held - 1, out := last, startNo := no }
    let d := { d with fab := { d.fab with
      seqNext := tput d.fab.seqNext 0 k ((seq + 1) % 65536), flight := d.fab.flight ++ [cell],
      sentOn := tput d.fab.sentOn 0 plane (tget d.fab.sentOn 0 plane + 1) } }
    let d := (d.cnt .planeCells plane).cnt .fabCellsTx i
    if last then d.askRefills c.pipe else d

/-- A matched plane carries one cell of its pair, or an idle cell. A cell read from the bank with an uncorrectable error loses
its frame (R239). -/
def Dev.spray (d : Dev) (slot : Nat) (mgmt : Bool) (ue : List Nat) (m : Nat × Nat × Nat) : Dev :=
  let (plane, i, j) := m
  match (inputSrcs i mgmt).findSome? (d.nextSend i j) with
  | none => d
  | some c => if ue.contains c.id then d.loseFrame c.frame else d.sendCell plane slot i j c

/-- SLOT_MATCH (R263 to R267): one slot: requests, matching on every active plane, and the cells sent. `ue` are copies whose
next cell reads with an uncorrectable error. -/
def slotMatch (ue : List Nat) (d : Dev) : Dev :=
  if !d.boot.released then d
  else
    let slot := max (d.fab.slot + 1) d.slotNow
    let d := { d with fab := { d.fab with slot := slot } }
    let d := match d.fab.joinSlot with
      | some (n, s) => if s ≤ slot then { d with fab := { d.fab with joinSlot := none, join := none } }.planeJoin n else d
      | none => d
    let act := d.activePlanes
    let live := d.path.copies.filter fun c => d.readyCells c != 0
    let mgmt := slot % 32 == 31 && live.any fun c => c.src == 64
    let pairs := ((live.filter fun c => !mgmt || c.input != 0 || c.src == 64).map fun c => (c.input, dstGroup c.dst)).eraseDups
    let r := pairs.foldl (fun (a : Dev × List (Nat × Nat × Nat)) (i, j) =>
      let d := a.1
      let cs := live.filter fun c => (inputSrcs i mgmt).contains c.src && dstGroup c.dst == j
      let prog := cs.filter Copy.inProgress
      let fresh := (cs.filter fun c => c.sent == 0).take (8 - (d.inProgress i j).length)
      let n := min 9 ((prog ++ fresh).foldl (fun n c => n + d.readyCells c) 0)
      let rot := tget d.fab.rot 0 (pairKey i j)
      let chosen := ((act.filter fun p => decide (rot ≤ p)) ++ act.filter fun p => decide (p < rot)).take n
      match chosen.getLast? with
      | some p => ({ d with fab := { d.fab with rot := tput d.fab.rot 0 (pairKey i j) ((p + 1) % 10) } },
          a.2 ++ chosen.map fun p => (p, i, j))
      | none => a) (d, [])
    let reqs := r.2
    let r := act.foldl (fun (a : Dev × List (Nat × Nat × Nat)) p =>
      let (d, m) := a.1.matchPlane p ((reqs.filter fun x => x.1 == p).map fun x => x.2)
      (d, a.2 ++ m.map fun x => (p, x))) (r.1, [])
    r.2.foldl (fun d m => d.spray slot mgmt ue m) r.1

def execSlotMatch (ue : List Nat) (s : State) : Host.Outcome State Fault Refusal := s.on (slotMatch ue)

/-! ### The Couch (R268 to R271) -/

/-- Distance of a sequence number ahead of another, modulo 65,536. -/
def seqDist (a b : Nat) : Nat := (a + 65536 - b % 65536) % 65536

def Dev.expect (d : Dev) (i j : Nat) : Nat := tget d.fab.expect 0 (pairKey i j)

def Dev.gapOf (d : Dev) (i j : Nat) : Gap := tget d.fab.gaps Gap.zero (pairKey i j)

def Dev.setGap (d : Dev) (i j : Nat) (g : Gap) : Dev := { d with fab := { d.fab with gaps := tput d.fab.gaps Gap.zero (pairKey i j) g } }

/-- Cells of a pair held out of order. -/
def Dev.heldCells (d : Dev) (i j : Nat) : List FCell := d.fab.held.filter fun c => c.src == i && c.dst == j

/-- Frames of a pair under reassembly. -/
def Dev.underReasm (d : Dev) (i j : Nat) : Bool :=
  d.path.copies.any fun c => c.arrived != 0 && !c.last && c.input == i && dstGroup c.dst == j

/-- A gap opens or closes as R269 says. -/
def Dev.updGap (d : Dev) (i j : Nat) : Dev :=
  let held := !(d.heldCells i j).isEmpty
  let late := d.underReasm i j && diff16 (tget d.fab.reported 0 (pairKey i j)) (d.expect i j) > 0
  let g := d.gapOf i j
  if held || late then
    if g.at_ = 0 then d.setGap i j ⟨d.now + 1, held, false⟩ else d.setGap i j { g with held := held }
  else d.setGap i j Gap.zero

/-- A copy for port 258 is moved into the supervisor frame Vat (R247, R270, R299). -/
def Dev.supHand (d : Dev) (c : Copy) (f : Frame) : Dev :=
  if f.ver && d.rd (Reg.SEAL_KEY_STATUS.GEN f.slot) != f.gen then (d.dropCopy c 0x15).sealReport f 0x15 f.sealQ
  else if d.overAge f c then d.dropCopy c 0x40
  else
    match d.supTake (supBlocks f.len) with
    | none => d.dropCopy c 0x21
    | some (bs, d) =>
      let d := { d with vat := { d.vat with supFrames := d.vat.supFrames ++ [(⟨f.port, bs, f.bytes⟩ : SupFrame)] } }
      (d.cnt .framesConsumed 0).removeCopy c

/-- A copy joins its class queue (R286). -/
def Dev.joinQueue (d : Dev) (c : Copy) : Dev :=
  let d := d.portEvent c.dst
  let d := d.setCopy { c with queued := true, qNo := d.path.nextQ }
  let d := { d with path := { d.path with nextQ := d.path.nextQ + 1 } }
  (d.cnt .egrQFrames (8 * c.dst + c.cls)).wfqRefresh c.dst

/-- A released cell joins its frame (R268, R270, R277): the first hands over a cut-through copy while the port is idle, the last
any other; an error found late ends the copy (R79). -/
def Dev.releaseCell (d : Dev) (x : FCell) : Dev :=
  match d.copy x.copy with
  | none => d
  | some c =>
    match d.frame c.frame with
    | none => d
    | some f =>
      let first := c.arrived == 0
      let c := { c with arrived := c.arrived + 1, last := x.last, endErr := x.err }
      let d := d.setCopy c
      if x.last && x.err != 0 then d.dropCopy c x.err
      else if c.dst = 258 then (if x.last then d.supHand c f else d)
      else if c.queued || c.txAt.isSome then d
      else if first && c.ct then
        if d.portIdle c.dst && d.linkUp c.dst then d.joinQueue c
        else
          let d := d.cnt .ctRefused (dstGroup c.dst)
          let c := { c with ct := false }
          if x.last then d.joinQueue c else d.setCopy c
      else if x.last then d.joinQueue c
      else d

/-- Releases the held cells of a pair that follow in order. -/
def Dev.drain (d : Dev) (i j : Nat) : Nat → Dev
  | 0 => d
  | fuel + 1 =>
    let e := d.expect i j
    match (d.heldCells i j).find? fun x => x.seq == e with
    | none => d
    | some x =>
      let d := { d with fab := { d.fab with
        held := d.fab.held.filter (fun (y : FCell) => y ≠ x), expect := tput d.fab.expect 0 (pairKey i j) ((e + 1) % 65536) } }
      (d.releaseCell x).drain i j fuel

/-- CRC_1MS of a plane counts a failed CRC; 8 within a window of 1 ms reach the limit (R278). -/
def Dev.crcWindow (d : Dev) (n : Nat) : Dev × Bool :=
  let d := if tget d.fab.crcAt 0 n + 10 ^ 6 ≤ d.now then
      { d with fab := { d.fab with crcAt := tput d.fab.crcAt 0 n d.now } }.wr (Reg.FABR_PLANE_STATUS.CRC_1MS n) 0
    else d
  let k := min 15 (d.rd (Reg.FABR_PLANE_STATUS.CRC_1MS n) + 1)
  (d.wr (Reg.FABR_PLANE_STATUS.CRC_1MS n) k, decide (8 ≤ k))

/-- The spare is switched on and being synchronised for failover (R280). -/
def Dev.startJoin (d : Dev) (n : Nat) : Dev :=
  { d with fab := { d.fab with join := some (n, d.now) } }.requestTokens (68 + n) 0

/-- A rotation ends, with RESULT; the log shows the plane removed and the one added (R282). -/
def Dev.endRotation (d : Dev) (result out added : Nat) : Dev :=
  let d := ({ d with fab := { d.fab with rotation := none } }.setFlag Reg.FABR_STATUS.ROTATING false).wr Reg.FABR_ROT.RESULT result
  d.log 0x8002 0xF0 (d.regData Reg.FABR_ROT.addr ++ le 1 out ++ le 1 added)

/-- What declaring a plane failed does to its own state (R278, R281). -/
def Dev.markFailed (d : Dev) (n cause : Nat) : Dev :=
  let d := ((d.wr (Reg.FABR_PLANE_STATUS.ROLE n) 3).wr (Reg.FABR_PLANE_STATUS.CAUSE n) cause).setFlag (Reg.FABR_PLANE_STATUS.SYNC n) false
  let d := (d.setBitOf Reg.FABR_STATUS.FAILED n true).setBitOf Reg.FABR_STATUS.ACTIVE n false
  let d := if d.rd Reg.FABR_STATUS.SPARE = n then (d.wr Reg.FABR_STATUS.SPARE 0xF).setFlag Reg.FABR_STATUS.SPARE_READY false else d
  let d := ((d.cnt .planeFailEvents n).alarm 2 0).log 0x8001 (0x40 + n) (d.regData (Reg.FABR_PLANE_STATUS.addr n) ++ le 1 n)
  (d.releaseTokens (68 + n)).showPlanes

/-- PLANE_FAIL (R278, R280): an active plane is declared failed; gaps open now are gaps during which it was; the spare, where
there is one, is brought up, and a rotation in progress ends. -/
def Dev.failPlane (d : Dev) (n cause : Nat) : Dev :=
  if 10 ≤ n || d.rd (Reg.FABR_PLANE_STATUS.ROLE n) != 1 then d
  else
    let d := d.markFailed n cause
    let d := { d with fab := { d.fab with gaps := d.fab.gaps.map fun (k, (g : Gap)) => (k, if g.at_ = 0 then g else { g with failed := true }) } }
    match d.fab.rotation with
    | some r =>
      if r.changed then
        let d := if r.out = n then d
          else (d.wr (Reg.FABR_PLANE_STATUS.ROLE r.out) 2).wr Reg.FABR_STATUS.SPARE r.out |>.setFlag Reg.FABR_STATUS.SPARE_READY true
        let d := d.endRotation 0 r.out (if r.out = n then 0xFF else r.spare)
        if r.out = n then d else d.startJoin r.out
      else
        let d := d.endRotation 3 r.out 0xFF
        match r.slot with
        | some s => { d with fab := { d.fab with join := some (r.spare, d.now), joinSlot := some (r.spare, s) } }
        | none => { d with fab := { d.fab with join := some (r.spare, d.now) } }
    | none =>
      let sp := d.rd Reg.FABR_STATUS.SPARE
      if sp < 10 && d.fab.join.isNone then d.startJoin sp else d

/-- CELL_ARRIVE (R268, R261, R278): the cell of a pair with sequence `seq` reaches its Couch; one that fails its CRC is
discarded. -/
def cellArrive (src dst seq : Nat) (crcOk : Bool) (d : Dev) : Dev :=
  match d.fab.flight.find? fun x => x.src == src && x.dst == dst && x.seq == seq && !x.dead with
  | none => d
  | some x =>
    let d := { d with fab := { d.fab with recvOn := tput d.fab.recvOn 0 x.plane (tget d.fab.recvOn 0 x.plane + 1) } }
    if !crcOk then
      let d := { d with fab := { d.fab with flight := d.fab.flight.map fun (y : FCell) => if y = x then { y with dead := true } else y } }
      let (d, fail) := (d.cnt .planeCrcError x.plane).crcWindow x.plane
      if fail then d.failPlane x.plane 1 else d
    else
      let d := { d with fab := { d.fab with flight := d.fab.flight.filter fun (y : FCell) => y ≠ x } }
      let d := d.cnt .fabCellsRx dst
      let d := if x.port < 258 && !d.gateOpen x.port x.cls then d.cnt .fabLateCell dst else d
      let d := match d.copy x.copy with
        | none => d.returnCredit dst 1
        | some c =>
          let d := (d.setCopy { c with staged := c.staged + 1, held := if x.last then 0 else c.held }).wr
            (Reg.FABR_GRP_CREDIT.STAGED dst) (d.rd (Reg.FABR_GRP_CREDIT.STAGED dst) + 1)
          if x.last then d.returnCredit dst c.held else d
      let e := d.expect src dst
      let d := if seq = e then
          let d := { d with fab := { d.fab with expect := tput d.fab.expect 0 (pairKey src dst) ((e + 1) % 65536) } }
          (d.releaseCell x).drain src dst (d.fab.held.length + 1)
        else { d with fab := { d.fab with held := d.fab.held ++ [x] } }.cnt .couchReorder dst
      d.updGap src dst

def execCellArrive (src dst seq : Nat) (crcOk : Bool) (s : State) : Host.Outcome State Fault Refusal := s.on (cellArrive src dst seq crcOk)

/-- SEQ_REPORT (R269): a Headbox reports the SEQ it last sent toward a group. -/
def seqReport (src dst : Nat) (d : Dev) : Dev :=
  if src < 64 && dst < 64 then
    let k := pairKey src dst
    { d with fab := { d.fab with reported := tput d.fab.reported 0 k (tget d.fab.seqNext 0 k) } }.updGap src dst
  else d

def execSeqReport (src dst : Nat) (s : State) : Host.Outcome State Fault Refusal := s.on (seqReport src dst)

/-- COUCH_TIMEOUT_US as it acts, in ns. -/
def Dev.couchTimeout (d : Dev) : Nat := max 4 (d.rd Reg.FABR_CTRL.COUCH_TIMEOUT_US) * 1000

/-- COUCH_GAP_TIMEOUT (R269): a gap has been open for COUCH_TIMEOUT_US: its cells are lost, their credits return, the frames
they belong to drop, and the held cells behind are released. -/
def couchGapTimeout (src dst : Nat) (d : Dev) : Dev :=
  let g := d.gapOf src dst
  if g.at_ ≠ 0 && decide (g.at_ - 1 + d.couchTimeout ≤ d.now) then
    let e := d.expect src dst
    let limit := match (d.heldCells src dst).foldl (fun (b : Option Nat) x => match b with
        | none => some (seqDist x.seq e)
        | some y => some (min y (seqDist x.seq e))) none with
      | some n => n
      | none => seqDist (tget d.fab.reported 0 (pairKey src dst)) e
    let gone := d.fab.flight.filter fun x => x.src == src && x.dst == dst && decide (seqDist x.seq e < limit)
    let d := d.cntBy .couchLostCells dst limit
    let d := { d with fab := { d.fab with
      flight := d.fab.flight.filter fun x => !(x.src == src && x.dst == dst && decide (seqDist x.seq e < limit)),
      expect := tput d.fab.expect 0 (pairKey src dst) ((e + limit) % 65536) } }
    let d := d.returnCredit dst gone.length
    let d := (gone.map fun x => x.copy).eraseDups.foldl (fun d i => match d.copy i with
      | some c => d.dropCopy c (if g.failed then 0x30 else 0x31)
      | none => d) d
    let d := (d.setGap src dst Gap.zero).drain src dst (d.fab.held.length + 1)
    d.updGap src dst
  else d

def execCouchGapTimeout (src dst : Nat) (s : State) : Host.Outcome State Fault Refusal := s.on (couchGapTimeout src dst)

/-! ### Plane health and failover (R278 to R281) -/

/-- PLANE_HEARTBEAT_MISS (R278): a Couch has seen no heartbeat of an active plane for 1,500 ns. -/
def planeHeartbeatMiss (plane group : Nat) (d : Dev) : Dev :=
  if plane < 10 && group < 64 && d.rd (Reg.FABR_PLANE_STATUS.ROLE plane) == 1 then
    ((d.cnt .planeHbMiss plane).wr (Reg.FABR_PLANE_STATUS.HB_GROUP plane) group).failPlane plane 2
  else d

def execPlaneHeartbeatMiss (plane group : Nat) (s : State) : Host.Outcome State Fault Refusal := s.on (planeHeartbeatMiss plane group)

/-- The transit window of R268, in slots: 2 µs. -/
def transitSlots : Nat := 196

/-- Cells a plane was given and its Couches have neither received nor discarded, but for those sent after a slot. -/
def Dev.planeMissing (d : Dev) (n slot : Nat) : Int :=
  ((tget d.fab.sentOn 0 n : Nat) : Int) - tget d.fab.recvOn 0 n -
    (d.fab.flight.filter fun x => x.plane == n && !x.dead && decide (slot < x.slot)).length

/-- PLANE_AUDIT_MARKER (R278): once the transit window after a marker has passed, a plane whose cells do not balance fails. -/
def planeAuditMarker (d : Dev) : Dev :=
  planes.foldl (fun d n =>
    if d.rd (Reg.FABR_PLANE_STATUS.ROLE n) == 1 && d.planeMissing n (d.slotNow - transitSlots) != 0 then d.failPlane n 3 else d) d

def execPlaneAuditMarker (s : State) : Host.Outcome State Fault Refusal := s.on planeAuditMarker

/-- The next multiple of 16 after a slot. -/
def next16 (s : Nat) : Nat := (s / 16 + 1) * 16

/-- The spare being brought up, and since when. -/
def Dev.bringUp (d : Dev) : Option (Nat × Nat) :=
  match d.fab.join with
  | some x => if d.fab.joinSlot.isNone then some x else none
  | none =>
    match d.fab.rotation with
    | some r => if r.slot.isNone then some (r.spare, r.since) else none
    | none => none

/-- SPARE_SYNC_DONE (R280 step 6, R282): the powered spare has locked and aligned. For failover it joins from the next slot that
is a multiple of 16; for a rotation the changeover slot is named, at least 2 µs ahead. -/
def spareSyncDone (d : Dev) : Dev :=
  match d.bringUp with
  | none => d
  | some (n, _) =>
    if d.rd (Reg.PWCK_DOM_STATUS.STATE (68 + n)) == 2 then
      let d := d.setFlag (Reg.FABR_PLANE_STATUS.SYNC n) true
      match d.fab.join, d.fab.rotation with
      | some _, _ => { d with fab := { d.fab with joinSlot := some (n, next16 (max d.fab.slot d.slotNow)) } }
      | none, some r =>
        { d with fab := { d.fab with rotation := some { r with slot := some (next16 (max d.fab.slot d.slotNow + transitSlots)) } } }
      | none, none => d
    else d

def execSpareSyncDone (s : State) : Host.Outcome State Fault Refusal := s.on spareSyncDone

/-- SPARE_BRINGUP_TIMEOUT (R278, R282): a spare that has not synchronised within 30 µs fails with cause 0x4; a rotation ends
with its plane still active. -/
def spareBringupTimeout (d : Dev) : Dev :=
  match d.bringUp with
  | none => d
  | some (n, since) =>
    if since + 30000 ≤ d.now then
      let d := d.markFailed n 4
      let d := { d with fab := { d.fab with join := none } }
      match d.fab.rotation with
      | some r => d.endRotation 4 r.out 0xFF
      | none => d
    else d

def execSpareBringupTimeout (s : State) : Host.Outcome State Fault Refusal := s.on spareBringupTimeout

/-- PLANE_SELFTEST (R281): the supervisor tests a failed plane, or one that is off: passed, it becomes the spare, or stays off
where there is one; failed, it stays failed until the device restarts. -/
def planeSelftest (plane : Nat) (pass : Bool) (d : Dev) : Dev :=
  let role := d.rd (Reg.FABR_PLANE_STATUS.ROLE plane)
  if d.supRunning && plane < 10 && (role == 3 || (role == 0 && d.boot.released)) && !d.fab.bad.contains plane then
    if pass then
      let d := d.setBitOf Reg.FABR_STATUS.FAILED plane false
      if d.rd Reg.FABR_STATUS.SPARE < 10 then d.wr (Reg.FABR_PLANE_STATUS.ROLE plane) 0
      else
        ((d.wr (Reg.FABR_PLANE_STATUS.ROLE plane) 2).wr Reg.FABR_STATUS.SPARE plane).setFlag Reg.FABR_STATUS.SPARE_READY true
    else { d with fab := { d.fab with bad := d.fab.bad ++ [plane] } }
  else d

def execPlaneSelftest (plane : Nat) (pass : Bool) (s : State) : Host.Outcome State Fault Refusal := s.on (planeSelftest plane pass)

/-! ### Planned rotation (R282) -/

/-- RESULT of a rotation of a plane that would start now: 0 where it may. -/
def Dev.rotationRefusal (d : Dev) (plane : Nat) : Nat :=
  if d.rd Reg.FABR_STATUS.SPARE = 0xF then 1
  else if 10 ≤ plane || !d.planeActive plane then 2
  else if d.fab.rotation.isSome || d.fab.join.isSome then 3
  else 0

/-- A rotation of a plane starts, or is refused and logged. -/
def Dev.startRotation (d : Dev) (plane : Nat) : Dev :=
  let r := d.rotationRefusal plane
  let d := d.wr Reg.FABR_ROT.RESULT r
  if r ≠ 0 then d.log 0x8002 0xF0 (d.regData Reg.FABR_ROT.addr ++ le 1 plane ++ le 1 0xFF)
  else
    let sp := d.rd Reg.FABR_STATUS.SPARE
    let d := d.setFlag Reg.FABR_STATUS.ROTATING true
    { d with fab := { d.fab with
      rotation := some { out := plane, spare := sp, since := d.now, slot := none, changed := false } } }.requestTokens (68 + sp) 0

/-- ROTATION_START (R282): a master writes FABR_ROT with START set and PLANE. -/
def rotationStart (master plane : Nat) (d : Dev) : Dev :=
  let v := 2 ^ 31 + plane % 16
  let (d, ok) := d.busWrite master Reg.FABR_ROT.addr v 15
  if ok && d.privileged master then (d.wr Reg.FABR_ROT.PLANE plane).startRotation (plane % 16) else d

def execRotationStart (master plane : Nat) (s : State) : Host.Outcome State Fault Refusal := s.on (rotationStart master plane)

/-- The active plane longest since it was the spare (R282), the lowest number among equals. -/
def Dev.scheduledPlane (d : Dev) : Nat :=
  (d.activePlanes.foldl (fun (b : Option Nat) n => match b with
    | none => some n
    | some x => some (if tget d.fab.spareAt 0 n < tget d.fab.spareAt 0 x then n else x)) none).getD 0xF

/-- ROTATION_SCHEDULE (R282): the interval of FABR_ROT_SCHED has passed. -/
def rotationSchedule (d : Dev) : Dev :=
  let h := d.rd Reg.FABR_ROT_SCHED.INTERVAL_H
  if d.boot.released && h ≠ 0 && decide (d.fab.schedAt + h * (3600 * 10 ^ 9) ≤ d.now) then
    { d with fab := { d.fab with schedAt := d.now } }.startRotation d.scheduledPlane
  else d

def execRotationSchedule (s : State) : Host.Outcome State Fault Refusal := s.on rotationSchedule

/-- ROTATION_CHANGEOVER (R282): from the named slot the Headboxes request on the spare in place of the plane. -/
def rotationChangeover (d : Dev) : Dev :=
  match d.fab.rotation with
  | some r =>
    match r.slot with
    | some s =>
      if !r.changed && decide (s ≤ max d.fab.slot d.slotNow) then
        let d := (d.setBitOf Reg.FABR_STATUS.ACTIVE r.out false).planeJoin r.spare
        { d with fab := { d.fab with rotation := some { r with changed := true } } }
      else d
    | none => d
  | none => d

def execRotationChangeover (s : State) : Host.Outcome State Fault Refusal := s.on rotationChangeover

/-- ROTATION_COMPLETE (R282): every cell the old plane carried has been received and its audit balances: it becomes the spare
and its domain is switched off. -/
def rotationComplete (d : Dev) : Dev :=
  match d.fab.rotation with
  | some r =>
    if r.changed && !(d.fab.flight.any fun x => x.plane == r.out && !x.dead) && tget d.fab.sentOn 0 r.out == tget d.fab.recvOn 0 r.out then
      let d := (d.wr (Reg.FABR_PLANE_STATUS.ROLE r.out) 2).setFlag (Reg.FABR_PLANE_STATUS.SYNC r.out) false
      let d := ((d.wr Reg.FABR_STATUS.SPARE r.out).setFlag Reg.FABR_STATUS.SPARE_READY true).cnt .planeRotations r.out
      let d := d.releaseTokens (68 + r.out)
      d.endRotation 0 r.out r.spare
    else d
  | none => d

def execRotationComplete (s : State) : Host.Outcome State Fault Refusal := s.on rotationComplete

end Sys2Proof.Machine
end

