-- ==== Sys2Proof/Machine/Egress.lean ====
section
/-! DEFINITION. Class queues, gates and shapers at work (chapter 12): selection with the checks and edits of step 17,
transmission, preemption, gate events and schedule installs, and the returns of shapers to zero. -/

namespace Sys2Proof.Machine

/-! ### Sequence recovery at step 17 (R198) -/

/-- The context that checks a copy, with the generation it must have: from the descriptor where the frame came from a pair
port, else from the handle map of the egress pipeline. -/
def Dev.rcvFor (d : Dev) (f : Frame) (c : Copy) : Option (Nat × Option Nat) :=
  match d.pairOfPort f.port with
  | some _ => if c.kind = 2 then some (c.ctx, some c.ctxGen) else none
  | none =>
    match f.handle with
    | none => none
    | some h =>
      let w := d.tabW (0x5101 + 0x10 * pipeOf c.dst) h 0
      if fget w 31 1 = 1 then some (fget w 0 16, none) else none

/-- The context applies to a copy leaving on its port: it is VALID, owned by the egress pipeline, and the port is its PORT or
PORT_B of a ring. The answer is its RESET_MS. -/
def Dev.rcvApplies (d : Dev) (x n : Nat) : Option Nat :=
  match d.rcvCfg (pipeOf n) x with
  | some (port, reset, portB) => if (port = n ∨ portB = some n) ∧ d.rcOwner x = some (pipeOf n) then some reset else none
  | none => none

/-- Check 4 of R299: the copy passes. -/
def Dev.recoverCopy (d : Dev) (f : Frame) (c : Copy) : Bool × Dev :=
  let p := pipeOf c.dst
  let tagged := match d.pairOfPort f.port with
    | some r => d.redTagged f r
    | none => false
  let without := (true, if tagged then d.cnt .rcvNoContext p else d)
  match d.rcvFor f c with
  | none => without
  | some (x, g) =>
    match d.rcvApplies x c.dst with
    | none => without
    | some reset =>
      if g.any fun v => v != (d.rcv x).gen then (true, d.cnt .rcvStale p)
      else if f.seqSrc = 0 then (true, d.cnt .rcvNoSeq p)
      else d.vectorRecover x reset f.seq

/-! ### Step 17 (R299) -/

/-- The first check a copy fails, where it fails one, and the device after the checks. A mirror copy takes checks 1 to 3
(R303). -/
def Dev.step17 (d : Dev) (f : Frame) (c : Copy) : Option Nat × Dev :=
  if !d.adminUp c.dst then (some 0x43, d)
  else if f.ver && d.rd (Reg.SEAL_KEY_STATUS.GEN f.slot) != f.gen then (some 0x15, d.sealReport f 0x15 f.sealQ)
  else if d.overAge f c then (some 0x40, d.cnt .ageDrop (8 * c.dst + c.cls))
  else if c.kind = 3 then (none, d)
  else
    let r := d.recoverCopy f c
    (if r.1 then none else some 0x42, r.2)

/-! ### Selection (R287, R292, R293, R295, R297, R298) -/

/-- Preemption is active on a port (R86). -/
def Dev.preemptOn (d : Dev) (n : Nat) : Bool := decide (n < 256) && d.flag (Reg.PORT_STATUS.PREEMPT_ACTIVE n)

/-- Classes among which a MAC selects: 0 the express MAC, 1 the preemptable MAC. -/
def Dev.macClasses (d : Dev) (n mac : Nat) : List Nat :=
  if d.preemptOn n then classes.filter fun c => d.preemptable n c == (mac == 1) else if mac = 0 then classes else []

/-- The other MAC holds the wire: a frame it transmits is not preempted. -/
def Dev.wireBusy (d : Dev) (n mac : Nat) : Bool :=
  match d.txCopy n (1 - mac) with
  | some c => !c.preempted
  | none => false

/-- A MAC of a port is ready to start a frame (R287). -/
def Dev.macReady (d : Dev) (n mac : Nat) : Bool :=
  decide (n < 258) && decide (mac < 2) && d.linkUp n && tget d.egr.tx 0 (2 * n + mac) == 0 && !d.wireBusy n mac

/-- A head frame can never fit an open interval of its class (R293). -/
def Dev.tooLong (d : Dev) (n c : Nat) (k : Copy) : Bool :=
  (k.last || !k.ct) && match d.longestOpen n c with
    | some t => decide (t < d.wireNs n ((if d.preemptable n c then min (d.headLen k) (64 * (1 + d.rd (Reg.PORT_PREEMPT_CFG.ADD_FRAG_SIZE n)))
        else d.headLen k) + 20))
    | none => false

/-- on_start of R295 for a class: V takes its start tag, and the tags move on to its next head. -/
def Dev.wfqStart (d : Dev) (n c : Nat) : Dev :=
  if d.bitOf (Reg.EGRS_PORT_SCHED.STRICT n) c then d
  else
    let w := d.wfqOf n c
    let d := { d with egr := { d.egr with vtime := tput d.egr.vtime 0 n w.start } }
    let fin := match d.queueHead n c with
      | some k => d.finishTag n c w.finish (d.headLen k)
      | none => w.finish
    d.setWfq n c { w with start := w.finish, finish := fin }

/-- A copy starts on a MAC: it leaves its queue, buckets are charged, and the wire is taken for its time; that of a cut-through
copy whose last cell has not arrived is known at its end. -/
def Dev.startTx (d : Dev) (n mac : Nat) (c : Copy) (wire : List Byte) (len : Nat) : Dev :=
  let d := d.setCopy { c with queued := false, txAt := some d.now, wire := wire, cutAt := 0, preempted := false }
  let l := len + d.rd (Reg.EGRS_PORT_SHAPE.OVERHEAD n)
  let d := (d.tbsCharge n c.cls l).tbsCharge n 8 l
  let k := 2 * n + mac
  let d := { d with egr := { d.egr with
    tx := tput d.egr.tx 0 k (c.id + 1), txEnd := tput d.egr.txEnd 0 k (if c.last then d.now + d.wireNs n (len + 20) else 0) } }
  let d := if c.ct then d.cnt .ctFrames (dstGroup n) else d
  d.wfqStart n c.cls

/-- A selection of a MAC: heads that never fit or fail step 17 drop, until a frame starts or none is eligible. `fuel` bounds the
heads looked at. -/
def Dev.selectFrame (d : Dev) (n mac : Nat) : Nat → Dev
  | 0 => d
  | fuel + 1 =>
    let cs := d.macClasses n mac
    match cs.findSome? fun c => (d.queueHead n c).bind fun k => if d.tooLong n c k then some k else none with
    | some k => ((d.cnt .gateTooLong (8 * n + k.cls)).dropCopy k 0x44).selectFrame n mac fuel
    | none =>
      let d := d.wfqRefresh n
      if d.flag (Reg.EGRS_PORT_SHAPE.PORT_TBS_EN n) && !d.tbsFull n 8 then d
      else
        match (d.pickClass n cs).bind (d.queueHead n) with
        | none => d
        | some k =>
          match d.frame k.frame with
          | none => d
          | some f =>
            let r := d.step17 f k
            match r.1 with
            | some reason => (r.2.dropCopy k reason).selectFrame n mac fuel
            | none =>
              let d := r.2
              let wire := d.editCopy f k 0
              if k.last && decide (d.rd (Reg.PORT_CFG.MAX_FRAME n) < wire.length) then (d.dropCopy k 0x44).selectFrame n mac fuel
              else d.startTx n mac k wire (d.headLen k)

/-- Cut-through copies that a selection did not start wait for their last cell (R277, R292). -/
def Dev.refuseCt (d : Dev) (n mac : Nat) : Dev :=
  (d.path.copies.filter fun c => c.queued && c.ct && !c.last && c.dst == n && (d.macClasses n mac).contains c.cls).foldl
    (fun d c => (d.cnt .ctRefused (dstGroup n)).setCopy { c with ct := false }) d

/-- A preempted frame goes on: before any new preemptable selection, with its gate open and no hold (R298). -/
def Dev.resumeTx (d : Dev) (n : Nat) (c : Copy) : Dev :=
  if d.linkUp n && !d.wireBusy n 1 && d.gateOpen n c.cls && !(d.egate n).hold then
    let d := d.setCopy { c with preempted := false }
    { d with egr := { d.egr with txEnd := tput d.egr.txEnd 0 (2 * n + 1) (d.now + d.wireNs n (c.wire.length - c.cutAt + 20)) } }
  else d

/-- Frames for an administratively disabled port drop as they come to be selected (R91, R299). -/
def Dev.dropDisabled (d : Dev) (n : Nat) : Dev := d.dropCopies 0x43 fun c => c.dst == n && c.queued

/-- SCHEDULER_SELECT (R287): a MAC of a port is ready and the scheduler selects for it. -/
def schedulerSelect (port mac : Nat) (d : Dev) : Dev :=
  if 258 ≤ port then d
  else if !d.adminUp port then d.dropDisabled port
  else
    let d := d.portEvent port
    let d := match (if mac = 1 then (d.txCopy port 1).filter Copy.preempted else none) with
      | some c => d.resumeTx port c
      | none => if d.macReady port mac && !(mac == 1 && (d.egate port).hold) then d.selectFrame port mac (d.path.copies.length + 1) else d
    (d.refuseCt port mac).wfqRefresh port

def execSchedulerSelect (port mac : Nat) (s : State) : Host.Outcome State Fault Refusal := s.on (schedulerSelect port mac)

/-! ### End of transmission (R92, R302, R324) -/

/-- The two-step event message a transmitted copy is, as (instance, offset of its PTP header) (R322, R324). -/
def Dev.twoStep (d : Dev) (f : Frame) (c : Copy) : Option (Nat × Nat) :=
  if c.kind = 3 then none
  else
    match f.inst with
    | some k =>
      let po := ptpOffset f.bytes
      let mt := fromBe (slice f.bytes po 1) % 16
      if decide (mt < 4) && !(mt == 0 && d.flag (Reg.TIME_INST_CFG.ONE_STEP k)) then some (k, po) else none
    | none =>
      match d.ptpInst f with
      | some k => if d.rd (Reg.TIME_INST_CFG.TYPE k) = 4 ∧ f.hvF 25 0 4 < 2 then some (k, f.hvF 26 16 8) else none
      | none => none

/-- TS_QUEUE_ENTRY (R324): the egress timestamp, on own time of the instance's base (R312), of a copy whose transmission began
`ago` ns ago; a full queue of 16 loses it. -/
def Dev.tsEntry (d : Dev) (n : Nat) (f : Frame) (k po ago : Nat) : Dev :=
  let q := tget d.time.tsq [] n
  if 16 ≤ q.length then d.cnt .tsQueueOverflow n
  else
    let t := (((d.own k : Int) + (d.rdS (Reg.PORT_TS_ADJ.TX_ADJ n) - ago) * nsUnit) % (tbModulus : Int)).toNat
    let e : TsEntry := {
      port := n, seqId := fromBe (slice f.bytes (po + 30) 2), msgType := fromBe (slice f.bytes po 1) % 16, inst := k,
      src := fromBe (slice f.bytes (po + 20) 10), time := t, ing := (f.own[k]?).getD 0 }
    { d with time := { d.time with tsq := tput d.time.tsq [] n (q ++ [e]) } }

/-- What a completed transmission counts (R92, R302, R303, R305). -/
def Dev.countTx (d : Dev) (n : Nat) (f : Frame) (c : Copy) (len : Nat) : Dev :=
  let d := (d.cnt .txFrames n).cntBy .txOctets n len
  let d := (d.cnt .txClassFrames (8 * n + c.cls)).cntBy .txClassOctets (8 * n + c.cls) len
  let d := if c.cutAt = 0 then d else d.cnt .txPreemptFragments n
  let d := match d.oneStep f c with
    | 1 => d.cnt .tc1Updates n
    | 2 => d.cnt .tc1SkippedSealed n
    | _ => d
  if d.mirCut f c then d.cnt .mirrorTruncated c.session else d

/-- The bytes of a copy on the wire at its end: those of a cut-through copy are all known only now. -/
def Dev.wireOf (d : Dev) (f : Frame) (c : Copy) (ago : Nat) : List Byte := if c.ct then d.editCopy f c ago else c.wire

/-- The wire time of a copy in transmission has passed. -/
def Dev.txDue (d : Dev) (n mac : Nat) (c : Copy) (t0 len : Nat) : Bool :=
  let e := tget d.egr.txEnd 0 (2 * n + mac)
  c.last && !c.preempted && decide ((if e = 0 then t0 + d.wireNs n (len + 20) else e) ≤ d.now)

/-- FRAME_TRANSMIT_END (R92): a MAC's frame has been transmitted; its staging cells and credit are freed. -/
def transmitEnd (port mac : Nat) (d : Dev) : Dev :=
  match d.txCopy port mac with
  | none => d
  | some c =>
    match d.frame c.frame, c.txAt with
    | some f, some t0 =>
      let ago := d.now - t0
      let wire := d.wireOf f c ago
      if !d.txDue port mac c t0 wire.length then d
      else
        let d := d.portEvent port
        if d.rd (Reg.PORT_CFG.MAX_FRAME port) < wire.length then (d.dropCopy { c with wire := wire } 0x44).wfqRefresh port
        else
          let d := (d.countTx port f c wire.length).out (.frame port (wire.drop c.cutAt) true)
          let d := match d.twoStep f c with
            | some (k, po) => d.tsEntry port f k po ago
            | none => d
          (d.removeCopy c).wfqRefresh port
    | _, _ => d

def execFrameTransmitEnd (port mac : Nat) (s : State) : Host.Outcome State Fault Refusal := s.on (transmitEnd port mac)

/-! ### Preemption (R86, R298) -/

/-- Bytes of a copy that the preemptable MAC has sent: those of its frame less those the remaining wire time still carries. -/
def Dev.sentBytes (d : Dev) (n : Nat) (c : Copy) : Nat :=
  let left := (tget d.egr.txEnd 0 (2 * n + 1) - d.now) * d.portRate n / 8000 - 12
  c.wire.length - min left (c.wire.length - c.cutAt)

/-- Something asks for the wire or holds the class (R298): an express class eligible, its gate closed, or a hold. -/
def Dev.preemptCause (d : Dev) (n : Nat) (c : Copy) : Bool :=
  (classes.any fun k => !d.preemptable n k && d.eligible n k) || !d.gateOpen n c.cls || (d.egate n).hold

/-- PREEMPT (R298): the preemptable frame in transmission is cut at the fragment boundary now reached, where R86 permits one:
a non-final fragment of the least size and a final one of 64 bytes. -/
def preempt (port : Nat) (d : Dev) : Dev :=
  match d.txCopy port 1 with
  | none => d
  | some c =>
    let at_ := d.sentBytes port c
    if d.preemptOn port && c.last && !c.preempted && d.preemptCause port c &&
        decide (64 * (1 + d.rd (Reg.PORT_PREEMPT_CFG.ADD_FRAG_SIZE port)) - 4 ≤ at_ - c.cutAt) && decide (64 ≤ c.wire.length - at_) then
      let d := d.portEvent port
      let d := if c.cutAt = 0 then d.cnt .txPreempted port else d
      let d := (d.cnt .txPreemptFragments port).out (.frame port ((c.wire.take at_).drop c.cutAt) true)
      (d.setCopy { c with preempted := true, cutAt := at_ }).wfqRefresh port
    else d

def execPreempt (port : Nat) (s : State) : Host.Outcome State Fault Refusal := s.on (preempt port)

/-! ### Gates (R289 to R291) -/

/-- The schedule that a port's gate registers describe, taking over at its first cycle start from now on (R291). -/
def Dev.gateSched (d : Dev) (n : Nat) : Sched :=
  let tb := d.rd (Reg.EGRS_GATE_CTRL.TB n)
  let base := instantNs (d.rd (Reg.EGRS_GATE_BASE_NS.BASE n)) (d.rd (Reg.EGRS_GATE_BASE_SLO.BASE n)) (d.rd (Reg.EGRS_GATE_BASE_SHI.BASE n))
  let cycle := d.rd (Reg.EGRS_GATE_CYCLE.CYCLE_NS n)
  { base := base, cycle := cycle, first := d.rd (Reg.EGRS_GATE_LIST.LIST_BASE n), len := d.rd (Reg.EGRS_GATE_LIST.LIST_LEN n), tb := tb,
    due := firstStart base cycle (d.presNs tb) }

/-- SCHEDULE_INSTALL (R291): the schedule becomes pending; with GATE_EN clear every schedule goes and every gate opens. -/
def Dev.installGates (d : Dev) (n : Nat) : Dev :=
  let g := d.egate n
  let d := if d.flag (Reg.EGRS_GATE_CTRL.GATE_EN n) then d.setEgate n { g with pend := some (d.gateSched n) }
    else d.setEgate n EGate.zero
  d.showGates n

/-- OP of an entry that starts: 1 holds the preemptable MAC, 2 releases it (R289, R298). -/
def Dev.applyOp (d : Dev) (n : Nat) : Dev :=
  let g := d.egate n
  match g.oper with
  | none => d
  | some s =>
    match d.egateEntry n s (d.presNs s.tb) with
    | none => d
    | some (i, start) =>
      let op := fget (d.egateState n s i) 30 2
      if g.entryAt = start + 1 then d
      else d.setEgate n { g with entryAt := start + 1, hold := if op = 1 then true else if op = 2 then false else g.hold }

/-- GATE_STATE_CHANGE (R290): an entry of a port's schedule has started. -/
def gateStateChange (port : Nat) (d : Dev) : Dev :=
  if port < 258 then (((d.portEvent port).applyOp port).showGates port).wfqRefresh port else d

def execGateStateChange (port : Nat) (s : State) : Host.Outcome State Fault Refusal := s.on (gateStateChange port)

/-- GATE_TAKEOVER (R291): at its instant the pending schedule takes over, and the entry in progress is cut. -/
def gateTakeover (port : Nat) (d : Dev) : Dev :=
  match (d.egate port).pend with
  | some s =>
    if port < 258 && decide (s.due ≤ d.presNs s.tb) then
      let d := d.portEvent port
      let d := (d.setEgate port { d.egate port with oper := some s, pend := none, entryAt := 0 }).cnt .gateTakeovers port
      ((d.applyOp port).showGates port).wfqRefresh port
    else d
  | none => d

def execGateTakeover (port : Nat) (s : State) : Host.Outcome State Fault Refusal := s.on (gateTakeover port)

/-! ### Shapers (R294, R297, R304) -/

/-- CBS_CREDIT_REACHES_ZERO (R294): the credit of a class is brought up to date, and the class may be selected again. -/
def cbsReachesZero (port cls : Nat) (d : Dev) : Dev :=
  if port < 258 && decide (cls < 8) then (d.portEvent port).wfqRefresh port else d

def execCbsCreditReachesZero (port cls : Nat) (s : State) : Host.Outcome State Fault Refusal := s.on (cbsReachesZero port cls)

/-- TOKEN_BUCKET_REACHES_ZERO (R297): a bucket (8 the port's) is brought up to date, and its scope may be selected again. -/
def bucketReachesZero (port cls : Nat) (d : Dev) : Dev :=
  if port < 258 && decide (cls < 9) then ((d.portEvent port).tbsCharge port cls 0).wfqRefresh port else d

def execTokenBucketReachesZero (port cls : Nat) (s : State) : Host.Outcome State Fault Refusal := s.on (bucketReachesZero port cls)

/-- A commit changed a class's shaper parameters: its credit is zero at the edge (R294). -/
def Dev.cbsReset (d : Dev) (n c : Nat) : Dev :=
  { d with egr := { d.egr with cbs := tput d.egr.cbs Cbs.zero (8 * n + c) ⟨0, d.now⟩ } }

/-- A commit changed RATE or BURST: the bucket is full at the edge (R297). -/
def Dev.tbsReset (d : Dev) (n c : Nat) : Dev :=
  { d with egr := { d.egr with tbs := tput d.egr.tbs Bucket.full (9 * n + c) ⟨0, d.now⟩ } }

end Sys2Proof.Machine
end

