-- ==== Sys2Proof/Machine/Modules.lean ====
section
/-! DEFINITION. Pluggable modules (chapter 04): cages and their buses, the insertion sequence, the allow-list and applications,
power, Quarantine, interrupts, faults and removal. -/

namespace Sys2Proof.Machine

/-! ### Cages (R93, R94) -/

def Dev.setCage (d : Dev) (c : Nat) (s : CageSt) : Dev := { d with mods := { d.mods with cage := tput d.mods.cage CageSt.zero c s } }

/-- STATE of a cage. -/
def Dev.cageState (d : Dev) (c : Nat) : Nat := d.rd (Reg.MODL_CAGE_STATUS.STATE c)

/-- Bus of a cage. -/
def busOf (c : Nat) : Nat := c / 8

/-- WIDTH of a cage in lanes; a reserved value has none. -/
def Dev.cageWidth (d : Dev) (c : Nat) : Nat := [1, 2, 4].getD (d.rd (Reg.MODL_CAGE_CFG.WIDTH c)) 0

/-- Lanes of a cage, as lane numbers of the device. -/
def Dev.cageLanes (d : Dev) (c : Nat) : List Nat :=
  (List.range (d.cageWidth c)).map fun k => 4 * d.rd (Reg.MODL_CAGE_CFG.GROUP c) + d.rd (Reg.MODL_CAGE_CFG.FIRST_LANE c) + k

/-- A cage in use, without a configuration error. -/
def Dev.cageUp (d : Dev) (c : Nat) : Bool :=
  decide (c < 64) && d.flag (Reg.MODL_CAGE_CFG.EN c) && !d.flag (Reg.MODL_CAGE_STATUS.CFG_ERR c)

/-- The configuration of a cage is in error (R93, R94). -/
def Dev.cageWrong (d : Dev) (c : Nat) : Bool :=
  d.flag (Reg.MODL_CAGE_CFG.EN c) &&
    (d.cageWidth c == 0 || d.rd (Reg.MODL_CAGE_CFG.FIRST_LANE c) % d.cageWidth c != 0 ||
      (!d.flag (Reg.MODL_BUS_CFG.MUX_EN (busOf c)) && c % 8 != 0) ||
      (List.range 64).any fun k => k != c && d.flag (Reg.MODL_CAGE_CFG.EN k) && (d.cageLanes c).any (d.cageLanes k).contains)

/-- Ports whose lanes lie in a cage. -/
def Dev.cagePorts (d : Dev) (c : Nat) : List Nat :=
  let g := d.rd (Reg.MODL_CAGE_CFG.GROUP c)
  [4 * g, 4 * g + 1, 4 * g + 2, 4 * g + 3].filter fun n => d.cageOf n == some c

/-- CFG_ERR of every cage follows its configuration. -/
def Dev.checkCages (d : Dev) : Dev :=
  let d0 := d
  (List.range 64).foldl (fun d c => if d0.flag (Reg.MODL_CAGE_CFG.EN c) || d0.flag (Reg.MODL_CAGE_STATUS.CFG_ERR c) then
    d.setFlag (Reg.MODL_CAGE_STATUS.CFG_ERR c) (d0.cageWrong c) else d) d

/-- CFG_ERR of a cage's ports follows. -/
def Dev.checkCagePorts (d : Dev) (c : Nat) : Dev := (d.cagePorts c).foldl (fun d n => d.portCheck n) d

/-- The ports of a cage go down (R89): those whose link is up enter Hold. -/
def Dev.cagePortsDown (d : Dev) (c : Nat) : Dev :=
  (d.cagePorts c).foldl (fun d n => if d.flag (Reg.PORT_STATUS.LINK_UP n) then d.enterHold n else d) d

/-- A cage enters a state at this instant. -/
def Dev.stepCage (d : Dev) (c st : Nat) : Dev := (d.wr (Reg.MODL_CAGE_STATUS.STATE c) st).setCage c { d.cage c with stepAt := d.now }

/-- MOD_RST_N of a cage. -/
def Dev.resetPin (d : Dev) (c : Nat) (high : Bool) : Dev := d.out (.pin "MOD_RST_N" c high)

/-- Step 1 of R98: the module is put into reset. -/
def Dev.resetModule (d : Dev) (c : Nat) : Dev :=
  let d := (d.stepCage c 1).setCage c { d.cage c with startAt := d.now, stepAt := d.now, ackAt := none, ident := none, app := none, noApp := false }
  (d.wr (Reg.MODL_CAGE_STATUS.SPEC c) 0).resetPin c false

/-- Step 3 of R98: readiness is polled, from 20 ms on. -/
def Dev.awaitReady (d : Dev) (c start : Nat) : Dev :=
  (d.stepCage c 2).setCage c { d.cage c with startAt := start, stepAt := d.now, pollAt := start + 20 * 10 ^ 6, ackAt := none }

/-- The applications of a cage's modules no longer set its group's mode. -/
def Dev.clearOver (d : Dev) (c : Nat) : Dev :=
  { d with mods := { d.mods with appOf := tput d.mods.appOf 0 (d.rd (Reg.MODL_CAGE_CFG.GROUP c)) 0 } }

/-! ### Power (R100, R408) -/

/-- The grant of a cage returns, or its request is withdrawn. -/
def Dev.returnGrant (d : Dev) (c : Nat) : Dev :=
  if d.flag (Reg.MODL_CAGE_STATUS.GRANTED c) then
    let d := d.wr Reg.PWCK_MOD_BUDGET.GRANTED (d.rd Reg.PWCK_MOD_BUDGET.GRANTED - (d.cage c).want)
    (d.setFlag (Reg.MODL_CAGE_STATUS.GRANTED c) false).wr (Reg.MODL_CAGE_STATUS.GRANT c) 0
  else d

/-- QUARANTINE (R103): low power, the grant returned, ports down and their frames flushed; counted, alarmed, logged. -/
def Dev.quarantine (d : Dev) (c reason : Nat) : Dev :=
  let d := (d.stepCage c cageQuarantine).wr (Reg.MODL_CAGE_STATUS.QREASON c) reason
  let d := (d.returnGrant c).out (.modulePower c (d.rd (Reg.MODL_CAGE_STATUS.SPEC c)) false)
  let d := (d.cagePorts c).foldl (fun d n =>
    let d := if d.flag (Reg.PORT_STATUS.LINK_UP n) || d.flag (Reg.PORT_STATUS.HOLD n) then
        let d := d.linkFalls n
        (d.setFlag (Reg.PORT_STATUS.HOLD n) false).setPortSt n { d.portSt n with holdEnd := none }
      else d
    d.cutCopies 0x45 fun k => k.dst == n) d
  let id := (d.cage c).ident
  ((d.cnt .modQuarantine c).alarm 3 1).log 0x2001 0x10 (d.regData (Reg.MODL_CAGE_STATUS.addr c) ++ le 2 c ++ le 1 reason ++
    slice ((id.map ModId.oui).getD []) 0 3 ++ slice ((id.map ModId.pn).getD []) 0 16)

/-- MODULE_FAULT (R104): ports down, grant returned, restart at step 1; the third fault within 10 min ends in Quarantine. -/
def Dev.moduleFault (d : Dev) (c : Nat) : Dev :=
  let s := d.cage c
  let fs := (s.faults.filter fun t => decide (d.now < t + 600 * 10 ^ 9)) ++ [d.now]
  let d := (d.setCage c { s with faults := fs }).cnt .modFault c
  let d := (d.alarm 3 2).log 0x2003 0x10 (d.regData (Reg.MODL_CAGE_STATUS.addr c) ++ le 2 c ++ le 1 fs.length)
  let d := (d.cagePortsDown c).returnGrant c
  if 3 ≤ fs.length then d.quarantine c 6 else d.resetModule c

/-! ### Flags (R104) -/

/-- Flags read from a cage are logged; a flagged fault is a module fault, but in Quarantine, which only removal ends. -/
def Dev.takeFlags (d : Dev) (c : Nat) (fs : List (Nat × Nat × Nat × Bool)) : Dev :=
  let d := fs.foldl (fun d (page, off, byte, _) =>
    d.log 0x2002 0x10 (d.regData (Reg.MODL_CAGE_STATUS.addr c) ++ le 2 c ++ le 1 page ++ le 1 off ++ le 1 byte)) d
  if (fs.any fun f => f.2.2.2) && d.cageState c != cageQuarantine then d.moduleFault c else d

/-- A step of an insertion sequence has ended: flags that waited for it are read. -/
def Dev.stepEnd (d : Dev) (c : Nat) : Dev :=
  let fs := (d.cage c).flags
  if fs.isEmpty then d else (d.setCage c { d.cage c with flags := [] }).takeFlags c fs

/-! ### Insertion (R95, R98) -/

/-- PRESENT of a cage. -/
def Dev.setPresent (d : Dev) (c : Nat) (b : Bool) : Dev :=
  let d := d.setFlag (Reg.MODL_CAGE_STATUS.PRESENT c) b
  if c < 32 then d.setBitOf Reg.MODL_PRS_LO.PRESENT c b else d.setBitOf Reg.MODL_PRS_HI.PRESENT (c - 32) b

/-- MODULE_INSERT (R95, R98): insertion is declared; after forwarding release an enabled cage starts its sequence. -/
def moduleInsert (cage : Nat) (d : Dev) : Dev :=
  if 64 ≤ cage || d.flag (Reg.MODL_CAGE_STATUS.PRESENT cage) then d
  else
    let d := (d.setPresent cage true).cnt .modInsert cage
    if d.boot.released && d.cageUp cage then d.resetModule cage else d

def execModuleInsert (cage : Nat) (s : State) : Host.Outcome State Fault Refusal := s.on (moduleInsert cage)

/-- MODULE_HANDLING_START (R98): at forwarding release every present module goes through the sequence, from its reset where
INIT_RESET is set. -/
def Dev.moduleStart (d : Dev) : Dev :=
  let d := d.checkCages
  (List.range 64).foldl (fun d c =>
    if d.cageUp c && d.flag (Reg.MODL_CAGE_STATUS.PRESENT c) then
      (if d.flag (Reg.MODL_CAGE_CFG.INIT_RESET c) then d.resetModule c else d.awaitReady c d.now)
    else d) d

/-- MODULE_RESET_RELEASE (R98 step 2): 20 µs after its start the reset is released. -/
def resetRelease (cage : Nat) (d : Dev) : Dev :=
  let s := d.cage cage
  if cage < 64 && d.cageState cage == 1 && decide (s.startAt + 20000 ≤ d.now) then
    (((d.resetPin cage true).awaitReady cage s.startAt).stepEnd cage) else d

def execModuleResetRelease (cage : Nat) (s : State) : Host.Outcome State Fault Refusal := s.on (resetRelease cage)

/-- MODULE_READY_POLL (R98 steps 3, 4): byte 0 is polled; no answer is a NACK, an answer gives the identifier and whether the
module says that it is ready. An SFF-8472 module is ready 300 ms after its first ACK. -/
def readyPoll (cage : Nat) (answer : Option (Nat × Bool)) (d : Dev) : Dev :=
  let s := d.cage cage
  if cage < 64 && d.cageState cage == 2 && decide (s.pollAt ≤ d.now) then
    let s := { s with pollAt := d.now + 20 * 10 ^ 6 }
    match answer with
    | none => d.setCage cage s
    | some (ident, ready) =>
      let first := s.ackAt.getD d.now
      let s := { s with ackAt := some first }
      let ok := if ident = 0x03 then decide (first + 300 * 10 ^ 6 ≤ d.now) else ready
      let d := d.setCage cage s
      if ok then (d.stepCage cage 3).stepEnd cage else d
  else d

def execModuleReadyPoll (cage : Nat) (answer : Option (Nat × Bool)) (s : State) : Host.Outcome State Fault Refusal :=
  s.on (readyPoll cage answer)

/-- A cage enters READ_FAIL (R96, R98). -/
def Dev.readFail (d : Dev) (c : Nat) : Dev := d.stepCage c 9

/-- MODULE_READY_TIMEOUT (R98 step 4): not ready within 5 s. -/
def readyTimeout (cage : Nat) (d : Dev) : Dev :=
  if cage < 64 && d.cageState cage == 2 && decide ((d.cage cage).startAt + 5 * 10 ^ 9 < d.now) then
    ((d.readFail cage).cnt .modReadyTimeout cage).stepEnd cage else d

def execModuleReadyTimeout (cage : Nat) (s : State) : Host.Outcome State Fault Refusal := s.on (readyTimeout cage)

/-! ### Identity, allow-list, application (R99, R101, R102) -/

/-- SPEC of a module (R99), or the reason of its Quarantine. -/
def modSpec (m : ModId) : Except Nat Nat :=
  if m.identifier = 0x03 then .ok 1
  else if [0x0C, 0x0D, 0x11].contains m.identifier then .ok 2
  else if [0x18, 0x19, 0x1E].contains m.identifier then
    (match m.revision / 16 with
      | 4 => .ok 3
      | 5 => .ok 4
      | _ => .error 2)
  else .error 1

/-- Declared maximum power in 0.25 W, rounded up (R100). -/
def modPower (m : ModId) : Nat := (m.powerMw + 249) / 250

/-- The allow-list: table 0 of MODL unit 0x10. -/
def allowTid : Nat := 0x2100

/-- Byte `k` of an allow-list entry. -/
def Dev.allowByte (d : Dev) (i k : Nat) : Nat := d.tabF allowTid i (k / 4) (8 * (k % 4)) 8

/-- A part number matches a pattern: "?" stands for one character, "*" for all remaining ones. -/
def patMatch : List Nat → List Nat → Bool
  | [], _ => true
  | p :: ps, x =>
    if p = 0x2A then true
    else
      match x with
      | [] => false
      | c :: cs => (p == 0x3F || p == c) && patMatch ps cs

/-- Bit of LANES for a host lane count. -/
def lanesBit (n : Nat) : Option Nat :=
  match n with
  | 1 => some 0 | 2 => some 1 | 4 => some 2 | _ => none

/-- A VALID entry matches a module (R101). -/
def Dev.allowMatch (d : Dev) (i : Nat) (m : ModId) : Bool :=
  let b := d.allowByte i
  (b 0).testBit 0 && ((b 0).testBit 1 || [b 1, b 2, b 3] == (slice m.oui 0 3).map BitVec.toNat) &&
    patMatch ((List.range 16).map fun k => b (4 + k)) (((m.pn ++ List.replicate 16 (0x20 : Byte)).take 16).map BitVec.toNat) &&
    (b 20 == 0 || b 20 == m.media) && (lanesBit m.lanes).any fun k => (b 21).testBit k

/-- MODES of an entry. -/
def Dev.allowModes (d : Dev) (i : Nat) : Nat := d.allowByte i 22 + 256 * d.allowByte i 23

/-- MAX_POWER of an entry. -/
def Dev.allowPower (d : Dev) (i : Nat) : Nat := d.allowByte i 24 + 256 * d.allowByte i 25

/-- The first matching entry. -/
def Dev.allowEntry (d : Dev) (m : ModId) : Option Nat := (List.range 64).find? fun i => d.allowMatch i m

/-- The application of a module (R102). -/
def Dev.chooseApp (d : Dev) (c : Nat) (m : ModId) (modes : Nat) : Option (Nat × Nat) :=
  let ok := m.apps.filter fun a => modes.testBit a.1 && fecOk a.1 a.2
  let mode := d.rd (Reg.PORT_GRP_MODE.MODE (d.rd (Reg.MODL_CAGE_CFG.GROUP c)))
  if d.flag (Reg.MODL_CAGE_CFG.APP_AUTO c) then (ok.find? fun a => a.1 == mode) <|> ok.head?
  else ok.find? fun a => a.1 == mode &&
    ((d.cagePorts c).filter fun n => (modeLanes mode).contains (n % 4)).all fun n => d.rd (Reg.PORT_CFG.FEC n) == a.2

/-- APPLICATION_CHOICE (R102): with APP_AUTO the mode and FEC chosen apply to the group's ports; without an eligible application
the cage's ports stay down with CFG_ERR. -/
def Dev.applyChoice (d : Dev) (c : Nat) (m : ModId) : Dev :=
  match d.allowEntry m with
  | none => d
  | some i =>
    let a := d.chooseApp c m (d.allowModes i)
    let d := d.setCage c { d.cage c with app := a, noApp := a.isNone }
    let d := match a with
      | some (mode, fec) =>
        if d.flag (Reg.MODL_CAGE_CFG.APP_AUTO c) then
          { d with mods := { d.mods with appOf := tput d.mods.appOf 0 (d.rd (Reg.MODL_CAGE_CFG.GROUP c)) (4 * mode + fec + 1) } }
        else d.clearOver c
      | none => d.clearOver c
    d.checkCagePorts c

/-- MODULE_IDENTIFY (R99 to R102): the identity is read and checked, and the declared power is asked for. -/
def moduleIdentify (cage : Nat) (ident : ModId) (d : Dev) : Dev :=
  if cage < 64 && d.cageState cage == 3 then
    let d := d.setCage cage { d.cage cage with ident := some ident }
    match modSpec ident with
    | .error r => (d.quarantine cage r).stepEnd cage
    | .ok sp =>
      let d := (d.wr (Reg.MODL_CAGE_STATUS.SPEC cage) sp).stepCage cage 4
      match d.allowEntry ident with
      | none => (d.quarantine cage 3).stepEnd cage
      | some i =>
        if d.cageWidth cage < ident.lanes then (d.quarantine cage 5).stepEnd cage
        else if d.allowPower i < (modPower ident) then (d.quarantine cage 4).stepEnd cage
        else
          let d := (d.applyChoice cage ident).stepCage cage 5
          let d := if d.flag (Reg.MODL_CAGE_STATUS.GRANTED cage) then d else d.setCage cage { d.cage cage with want := (modPower ident) }
          d.stepEnd cage
  else d

def execModuleIdentify (cage : Nat) (ident : ModId) (s : State) : Host.Outcome State Fault Refusal := s.on (moduleIdentify cage ident)

/-- The cages that wait for power, in the order of R100. -/
def Dev.waitingCages (d : Dev) : List Nat :=
  let w := (List.range 64).filter fun c => d.cageState c == 5
  [7, 6, 5, 4, 3, 2, 1, 0].flatMap fun p => w.filter fun c => d.rd (Reg.MODL_CAGE_CFG.PRIORITY c) == p

/-- A cage's request is covered: by the free budget, or by the grant it kept. -/
def Dev.powerFits (d : Dev) (c : Nat) : Bool :=
  d.flag (Reg.MODL_CAGE_STATUS.GRANTED c) ||
    decide (d.rd Reg.PWCK_MOD_BUDGET.GRANTED + (d.cage c).want ≤ d.rd Reg.PWCK_MOD_BUDGET.BUDGET)

/-- HIGH_POWER_ENABLE (R98 step 8, R100): high power, and for CMIS the chosen application. -/
def Dev.highPower (d : Dev) (c : Nat) : Dev :=
  let sp := d.rd (Reg.MODL_CAGE_STATUS.SPEC c)
  let d := (d.stepCage c 6).out (.modulePower c sp true)
  match (d.cage c).app with
  | some (m, f) => if 3 ≤ sp then d.out (.moduleApp c m f false) else d
  | none => d

/-- MODULE_POWER_GRANT (R100): the first waiting request, in order, that the free budget covers is granted. -/
def powerGrant (d : Dev) : Dev :=
  match d.waitingCages.find? d.powerFits with
  | none => d
  | some c =>
    let d := if d.flag (Reg.MODL_CAGE_STATUS.GRANTED c) then d
      else
        let w := (d.cage c).want
        ((d.wr Reg.PWCK_MOD_BUDGET.GRANTED (d.rd Reg.PWCK_MOD_BUDGET.GRANTED + w)).setFlag (Reg.MODL_CAGE_STATUS.GRANTED c) true).wr
          (Reg.MODL_CAGE_STATUS.GRANT c) (min 255 w)
    (d.highPower c).stepEnd c

def execModulePowerGrant (s : State) : Host.Outcome State Fault Refusal := s.on powerGrant

/-- The cap of step 9 in ns: the module's advertised durations, at most 60 s. -/
def Dev.step9Cap (d : Dev) (c : Nat) : Nat := min 60000 (((d.cage c).ident.map ModId.durMs).getD 60000) * 10 ^ 6

/-- MODULE_DATAPATH_READY (R98 step 9): the module is READY and its ports start link bring-up. -/
def datapathReady (cage : Nat) (d : Dev) : Dev :=
  if cage < 64 && d.cageState cage == 6 && decide (d.now ≤ (d.cage cage).stepAt + d.step9Cap cage) then
    (d.stepCage cage 7).stepEnd cage else d

def execModuleDatapathReady (cage : Nat) (s : State) : Host.Outcome State Fault Refusal := s.on (datapathReady cage)

/-- MODULE_STEP9_TIMEOUT (R98, R104): the cap is exceeded, which is a module fault. -/
def step9Timeout (cage : Nat) (d : Dev) : Dev :=
  if cage < 64 && d.cageState cage == 6 && decide ((d.cage cage).stepAt + d.step9Cap cage < d.now) then
    (d.cnt .modReadyTimeout cage).moduleFault cage else d

def execModuleStep9Timeout (cage : Nat) (s : State) : Host.Outcome State Fault Refusal := s.on (step9Timeout cage)

/-- A port mode change by amendment repeats the choice (R65, R102); CMIS data paths are taken down and up again. -/
def Dev.rechoose (d : Dev) (c : Nat) : Dev :=
  match (d.cage c).ident with
  | none => d
  | some m =>
    if d.cageState c = 5 ∨ d.cageState c = 6 ∨ d.cageState c = 7 then
      let d := d.applyChoice c m
      match (d.cage c).app with
      | some (mode, fec) => if 3 ≤ d.rd (Reg.MODL_CAGE_STATUS.SPEC c) && d.cageState c != 5 then d.out (.moduleApp c mode fec true) else d
      | none => d
    else d

/-! ### Removal (R105) and interrupts (R104) -/

/-- MODULE_REMOVE (R105): removal is declared. -/
def moduleRemove (cage : Nat) (d : Dev) : Dev :=
  if 64 ≤ cage || !d.flag (Reg.MODL_CAGE_STATUS.PRESENT cage) then d
  else
    let d := ((d.setPresent cage false).cnt .modRemove cage).returnGrant cage
    let d := d.cagePortsDown cage
    let d := (d.clearOver cage).setCage cage CageSt.zero
    let d := (d.wr (Reg.MODL_CAGE_STATUS.STATE cage) 0).wr (Reg.MODL_CAGE_STATUS.QREASON cage) 0
    let d := (d.wr (Reg.MODL_CAGE_STATUS.SPEC cage) 0).checkCagePorts cage
    let b := tget d.mods.bus MBus.zero (busOf cage)
    if (b.retry.map fun r => r.1) = some cage then
      { d with mods := { d.mods with bus := tput d.mods.bus MBus.zero (busOf cage) { b with retry := none } } } else d

def execModuleRemove (cage : Nat) (s : State) : Host.Outcome State Fault Refusal := s.on (moduleRemove cage)

/-- The cage is in its insertion sequence, or waits to go on with it. -/
def inSequence (st : Nat) : Bool := [1, 2, 3, 4, 5, 6, 9].contains st

/-- MODULE_INT (R104): the level of MOD_INT_N of a bus; while it is low, the latched flags of its present cages are read, as
(cage, page, byte offset, flag byte, whether it flags a fault). Those of a cage in its sequence wait for its step to end. -/
def moduleInt (bus : Nat) (low : Bool) (flags : List (Nat × Nat × Nat × Nat × Bool)) (d : Dev) : Dev :=
  if 8 ≤ bus then d
  else
    let d := d.setFlag (Reg.MODL_BUS_STATUS.INT_ACTIVE bus) low
    if !low || !d.boot.released then d
    else
      (List.range 8).foldl (fun d k =>
        let c := 8 * bus + k
        let fs := (flags.filter fun x => x.1 == c).map fun x => x.2
        if fs.isEmpty || !d.cageUp c || !d.flag (Reg.MODL_CAGE_STATUS.PRESENT c) then d
        else if inSequence (d.cageState c) then d.setCage c { d.cage c with flags := (d.cage c).flags ++ fs }
        else d.takeFlags c fs) d

def execModuleInt (bus : Nat) (low : Bool) (flags : List (Nat × Nat × Nat × Nat × Bool)) (s : State) :
    Host.Outcome State Fault Refusal := s.on (moduleInt bus low flags)

/-! ### Bus transactions (R94, R96, R97) -/

def Dev.mbus (d : Dev) (b : Nat) : MBus := tget d.mods.bus MBus.zero b

def Dev.setMbus (d : Dev) (b : Nat) (s : MBus) : Dev := { d with mods := { d.mods with bus := tput d.mods.bus MBus.zero b s } }

/-- A cage has a transaction of a level of priority: 0 its insertion sequence, 1 flags, 2 telemetry once a second. -/
def Dev.busWants (d : Dev) (level c : Nat) : Bool :=
  d.cageUp c && d.flag (Reg.MODL_CAGE_STATUS.PRESENT c) &&
    (match level with
      | 0 => (d.cageState c == 2 && decide ((d.cage c).pollAt ≤ d.now)) || d.cageState c == 3 || d.cageState c == 6
      | 1 => d.flag (Reg.MODL_BUS_STATUS.INT_ACTIVE (busOf c)) && !inSequence (d.cageState c)
      | _ => d.supRunning && d.cageState c == 7 && decide ((d.cage c).telAt + 10 ^ 9 ≤ d.now))

/-- The cage and level whose transaction a bus runs next: the first level that has one, and in it the next cage in turn. -/
def Dev.busNext (d : Dev) (b : Nat) : Option (Nat × Nat) :=
  [0, 1, 2].findSome? fun l =>
    (((List.range 8).map fun k => 8 * b + ((d.mbus b).turn.getD l 0 + k) % 8).find? (d.busWants l)).map fun c => (c, l)

/-- MUX_SELECT (R94): the channel of a cage, unless it was the last value written; answers whether it was needed. -/
def Dev.muxSelect (d : Dev) (c : Nat) (ok : Bool) : Dev × Bool :=
  let b := busOf c
  let v := 2 ^ (c % 8)
  if !d.flag (Reg.MODL_BUS_CFG.MUX_EN b) || (d.mbus b).mux == some v then (d, true)
  else if ok then ((d.setMbus b { d.mbus b with mux := some v }).out (.mux b v), true)
  else (d, false)

/-- I2C_TRANSACTION_FAIL (R94, R96): counted, the multiplexer written 0x00, and a retry is due 1 ms later. -/
def Dev.busFail (d : Dev) (c n : Nat) : Dev :=
  let b := busOf c
  let d := d.cnt .modI2cError c
  let d := if d.flag (Reg.MODL_BUS_CFG.MUX_EN b) then (d.setMbus b { d.mbus b with mux := some 0 }).out (.mux b 0) else d
  d.setMbus b { d.mbus b with retry := some (c, n, d.now) }

/-- I2C_TRANSACTION (R97): a bus runs its next transaction; `ok` and `muxOk` say whether it and the multiplexer write before it
succeed. What it reads is another command's. -/
def i2cTransaction (bus : Nat) (ok muxOk : Bool) (d : Dev) : Dev :=
  if 8 ≤ bus || !d.boot.released || (d.mbus bus).retry.isSome then d
  else
    match d.busNext bus with
    | none => d
    | some (c, l) =>
      let d := d.setMbus bus { d.mbus bus with turn := (d.mbus bus).turn.set l ((c % 8 + 1) % 8) }
      let (d, sel) := d.muxSelect c muxOk
      if sel && ok then d else d.busFail c 0

def execI2cTransaction (bus : Nat) (ok muxOk : Bool) (s : State) : Host.Outcome State Fault Refusal := s.on (i2cTransaction bus ok muxOk)

/-- BUS_CLEAR (R96) after the third failed retry: STUCK shows SDA still low. The cage enters READ_FAIL, or after a failed
multiplexer write every present cage of the bus. -/
def Dev.busClear (d : Dev) (c : Nat) (muxFail sdaLow : Bool) : Dev :=
  let b := busOf c
  let d := (d.setMbus b { d.mbus b with retry := none }).setFlag (Reg.MODL_BUS_STATUS.STUCK b) sdaLow
  if muxFail then
    let d := d.setFlag (Reg.MODL_BUS_STATUS.MUX_ERR b) true
    (List.range 8).foldl (fun d k =>
      let x := 8 * b + k
      if d.cageUp x && d.flag (Reg.MODL_CAGE_STATUS.PRESENT x) && d.cageState x != cageQuarantine then d.readFail x else d) d
  else if d.cageState c = cageQuarantine then d else d.readFail c

/-- I2C_RETRY (R96): up to three, 1 ms apart. -/
def i2cRetry (bus : Nat) (ok muxOk sdaLow : Bool) (d : Dev) : Dev :=
  match (d.mbus bus).retry with
  | none => d
  | some (x, n, t) =>
    if 8 ≤ bus || decide (d.now < t + 10 ^ 6) then d
    else
      let c := 8 * bus + x % 8
      let (d, sel) := d.muxSelect c muxOk
      if sel && ok then d.setMbus bus { d.mbus bus with retry := none }
      else
        let d := d.busFail c (n + 1)
        if 2 ≤ n then d.busClear c (!sel) sdaLow else d

def execI2cRetry (bus : Nat) (ok muxOk sdaLow : Bool) (s : State) : Host.Outcome State Fault Refusal := s.on (i2cRetry bus ok muxOk sdaLow)

/-- READ_FAIL_RESTART (R96): 1 s later the cage goes on at step 3. -/
def readFailRestart (cage : Nat) (d : Dev) : Dev :=
  if cage < 64 && d.cageState cage == 9 && decide ((d.cage cage).stepAt + 10 ^ 9 ≤ d.now) then
    (d.awaitReady cage d.now).stepEnd cage else d

def execReadFailRestart (cage : Nat) (s : State) : Host.Outcome State Fault Refusal := s.on (readFailRestart cage)

/-- TELEMETRY_READ (R97): Chewipor's pass over a cage, once a second. The spec names no place where its data stands. -/
def telemetryRead (cage : Nat) (d : Dev) : Dev :=
  if cage < 64 && d.busWants 2 cage then d.setCage cage { d.cage cage with telAt := d.now } else d

def execTelemetryRead (cage : Nat) (s : State) : Host.Outcome State Fault Refusal := s.on (telemetryRead cage)

end Sys2Proof.Machine
end

