-- ==== Sys2Proof/Machine/Tables.lean ====
section
/-! DEFINITION. Tables that records load and dumps deliver (R52, R371): their shapes, the ranges of their entries (R424), the
write of an indexed entry, keyed insertion and deletion in images and in staging, and the form a dump gives an entry. -/

namespace Sys2Proof.Machine

/-! ### Shapes -/

/-- Word `k` of an entry. -/
def ew (e : List Nat) (k : Nat) : Nat := (e[k]?).getD 0

/-- A field of an entry: word, lowest bit, width. -/
def ef (e : List Nat) (k lo wd : Nat) : Nat := ew e k / 2 ^ lo % 2 ^ wd

/-- The bytes of an entry (R47). -/
def entryBytes (e : List Nat) : List Byte := e.flatMap (le 4)

/-- Entries, ENTRY_WORDS and whether keyed, of the table a record names (R52); none for an unknown one. -/
def tableShape (tid : Nat) : Option (Nat × Nat × Bool) :=
  let u := tid / 16 % 256
  let t := tid % 16
  match tid / 4096 with
  | 2 => if u = 0x10 ∧ t = 0 then some (64, 8, false) else none
  | 3 => if u < 4 ∧ t = 0 then some (4096, 12, false) else none
  | 4 =>
    if u = 0xFF ∧ t = 0 then some (0, 3, true)
    else if u = 0x20 then
      match t with
      | 0 => some (4096, 10, false)
      | 1 => some (16384, 9, false)
      | 2 => some (4096, 1, false)
      | _ => none
    else none
  | 5 =>
    if u < 4 then
      match t with
      | 0 => some (0, 16, true)
      | 1 => some (65536, 16, false)
      | 2 => some (32768, 2, false)
      | 3 => some (65536, 1, false)
      | _ => none
    else if 0x10 ≤ u ∧ u < 0x14 then
      match t with
      | 0 => some (65536, 8, false)
      | 1 => some (65536, 1, false)
      | _ => none
    else if u = 0x20 ∧ t = 1 then some (32, 8, false) else none
  | 6 => if u = 0 ∧ t = 0 then some (64, 8, false) else if u = 0x30 ∧ t = 0 then some (0, 8, true) else none
  | 7 => if u < 4 ∧ t = 1 then some (2072, 2, false) else none
  | 9 => if u < 64 ∧ t = 0 then some (8192, 2, false) else if 0x80 ≤ u ∧ u < 0x84 ∧ t = 0 then some (4096, 3, false) else none
  | _ => none

/-- The tables a record writes: unit 0xFF names every pipeline's unit of a replicated table (R52, R127, R252). -/
def recTargets (tid : Nat) : List Nat :=
  if tid = 0x3FF0 then [0x3000, 0x3010, 0x3020, 0x3030]
  else if tid = 0x7FF1 then [0x7001, 0x7011, 0x7021, 0x7031]
  else [tid]

/-- An amendment may write the table (R58, R304, R127, R186). -/
def tableAmendable (tid : Nat) : Bool :=
  [0x4FF0, 0x4200, 0x4201, 0x4202, 0x6000, 0x6300].contains tid ||
    (tid / 4096 == 5 && decide (tid / 16 % 256 < 4) && decide (tid % 16 < 3)) ||
    (tid / 4096 == 9 && decide (tid / 16 % 256 < 64) && tid % 16 == 0)

/-! ### Ranges (R424) -/

/-- Nonzero where bits `lo + wd - 1 : lo` of word `k` are not all zero. -/
def efBad (e : List Nat) (k lo wd : Nat) : Bool := ef e k lo wd != 0

/-- A value lies outside a range. -/
def outside (v lo hi : Nat) : Bool := decide (v < lo) || decide (hi < v)

/-- An allow-list entry out of range (R101). -/
def allowBad (e : List Nat) : Bool :=
  efBad e 0 2 6 || decide (5 < ef e 5 0 8) || efBad e 6 16 16 || ew e 7 != 0

/-- A side table entry out of range: a KEY bit under a MASK of 0, or reserved bits (R127). -/
def sideBad (e : List Nat) : Bool :=
  ((List.range 5).any fun k => ew e k &&& ew e (5 + k) != ew e k) || efBad e 11 4 3 || efBad e 11 8 24

/-- A stream context out of range (R173), VALID and GATE_EN deciding what is checked. -/
def sctxBad (e : List Nat) : Bool :=
  efBad e 0 19 5 || efBad e 0 14 2 || efBad e 1 6 10 || efBad e 4 24 8 || efBad e 5 24 8 || efBad e 7 16 16 || efBad e 10 15 1 ||
    ((List.range 5).any fun k => ew e (11 + k) != 0) ||
    (ef e 0 31 1 == 1 &&
      (decide (400000000 < ew e 2) || decide (400000000 < ew e 3) || decide (10 ^ 9 ≤ ew e 8) ||
        (ef e 0 30 1 == 1 &&
          (outside (ew e 9) 1000 4000000000 || decide (1024 < ef e 10 16 16) || decide (32768 < ef e 10 0 15 + ef e 10 16 16)))))

/-- A redundancy pair out of range (R187). -/
def pairBad (e : List Nat) : Bool :=
  efBad e 0 2 2 || efBad e 6 16 16 || ew e 7 != 0 ||
    (ef e 0 7 1 == 1 &&
      (decide (258 < ef e 0 16 16) || decide (258 < ef e 1 0 16) || decide (258 < ef e 1 16 16) ||
        decide (ef e 2 16 16 < ef e 2 0 16) || decide (ef e 3 16 16 < ef e 3 0 16) || (ef e 0 0 1 == 0 && ew e 3 != 0) ||
        outside (ef e 4 0 16) 1 30000 || outside (ef e 4 16 16) 100 10000))

/-- A recovery context out of range, or with a word an image may not write (R197). -/
def rcvBad (e : List Nat) : Bool :=
  efBad e 0 25 6 || efBad e 0 15 1 || outside (ef e 0 0 15) 1 30000 || (ef e 0 31 1 == 1 && decide (258 < ef e 0 16 9)) ||
    ((List.range 7).any fun k => ew e (1 + k) != 0)

/-- An entry of an indexed table is refused (R52, R424, R173, R197), against the device as it stands with the records before
it. -/
def Dev.entryBad (d : Dev) (tid i : Nat) (e : List Nat) : Bool :=
  let p := tid / 16 % 4
  match tid / 4096, tid / 16 % 256, tid % 16 with
  | 2, _, _ => allowBad e
  | 3, _, _ => sideBad e
  | 4, _, 0 => efBad e 0 12 19 || efBad e 9 3 29
  | 4, _, 1 => efBad e 8 3 29
  | 4, _, _ => efBad e 0 16 14 || (ef e 0 30 1 == 1 && ef e 0 0 16 == 0)
  | 5, 0x20, _ => pairBad e
  | 5, u, t =>
    if u < 4 then
      match t with
      | 1 => sctxBad e || d.handleOwner i != some p
      | 2 => outside (ew e 0) 1 4000000000 || efBad e 1 24 3
      | _ => efBad e 0 16 15
    else if t = 0 then rcvBad e
    else efBad e 0 16 15 || (ef e 0 31 1 == 1 && !(d.ctxValid p (ef e 0 0 16) && d.rcOwner (ef e 0 0 16) == some p))
  | 6, _, _ => efBad e 0 0 27 || efBad e 6 16 16 || ew e 7 != 0
  | 7, _, _ => efBad e 0 18 14 || efBad e 1 18 14
  | _, u, _ =>
    if u < 64 then outside (ew e 0) 1 4000000000 || ef e 1 30 2 == 3 || efBad e 1 8 22
    else if u = 0x80 then efBad e 2 2 30 else ew e 2 != 0

/-! ### Indexed entries -/

/-- The words of an entry written in the store of indexed tables. -/
def Dev.putEntry (d : Dev) (tid i : Nat) (e : List Nat) : Dev :=
  (List.range e.length).foldl (fun (d : Dev) k => d.setTabW tid i k (BitVec.ofNat 32 (ew e k))) d

/-- A blocked handle is freed by a write of its context (R176). -/
def Dev.unblock (d : Dev) (p h : Nat) : Dev :=
  if tget d.strm.blocked 0 h = 0 then d
  else
    ({ d with strm := { d.strm with blocked := tput d.strm.blocked 0 h 0 } }).wr (Reg.STRM_BLOCKED_CNT.BLOCKED p)
      (d.rd (Reg.STRM_BLOCKED_CNT.BLOCKED p) - 1)

/-- A stream context in force from now (R173, R176, R178, R184): the handle is freed, changed meter settings fill both buckets,
and a changed schedule becomes pending; before forwarding release schedules wait for it. -/
def Dev.writeSctx (d : Dev) (p h : Nat) (e : List Nat) : Dev :=
  let old := (List.range 11).map fun k => d.tabF (ctxTid p) h k 0 32
  let d := (d.putEntry (ctxTid p) h e).unblock p h
  let d := if (List.range 5).any (fun k => ew old (1 + k) != ew e (1 + k)) then
      { d with strm := { d.strm with meter := tput d.strm.meter Meter.full h Meter.full } } else d
  let on := ef e 0 31 1 == 1 && ef e 0 30 1 == 1
  let differs := ef old 0 16 3 != ef e 0 16 3 || (List.range 5).any fun k => ew old (6 + k) != ew e (6 + k)
  if !on then d.setSgate h SGate.zero
  else if d.boot.released && (differs || ((d.sgate h).oper.isNone && (d.sgate h).pend.isNone)) then d.installStream p h else d

/-- An indexed entry that has passed its checks comes into force. A side table entry written anew has good parity again. -/
def Dev.writeEntry (d : Dev) (tid i : Nat) (e : List Nat) : Dev :=
  if tid / 4096 = 5 ∧ tid / 16 % 256 < 4 ∧ tid % 16 = 1 then d.writeSctx (tid / 16 % 256) i e
  else if tid / 4096 = 3 then
    let d := d.putEntry tid i e
    { d with beat := { d.beat with sideBad := tput d.beat.sideBad 0 (4096 * (tid / 16 % 256) + i) 0 } }
  else d.putEntry tid i e

/-! ### Keyed entries -/

/-- DELETE of static entries (R160): every pipeline; one that names none is logged once. -/
def Dev.removeStatic (d : Dev) (fid mac : Nat) (stage : Bool) : Dev :=
  let r := [0, 1, 2, 3].foldl (fun (a : Dev × Bool) p =>
    let x := a.1.deleteStatic p fid mac stage
    (x.1, a.2 || x.2)) (d, false)
  if r.2 then r.1 else r.1.log 0x4002 0 (noReg ++ le 2 fid ++ be 6 mac ++ le 1 (if stage then 1 else 0))

/-- A static entry inserted in every pipeline, or refused (R160). -/
def Dev.placeStatic (d : Dev) (key v : Nat) (stage : Bool) : Option Dev :=
  [0, 1, 2, 3].foldl (fun (a : Option Dev) p => a.bind fun (d : Dev) => if stage then d.stageStatic p key v else d.loadStatic p key v) (some d)

/-- The reference of R66 for static entries: at once from an image, with the commit from staging. -/
def Dev.refStatic (d : Dev) (key v : Nat) (stage : Bool) : Dev :=
  if stage then { d with look := { d.look with refNext := d.look.refNext ++ [(key, v)] } }
  else { d with look := { d.look with refStatic := tput d.look.refStatic 0 key v } }

/-- One static entry of a record, in the layout of R144: inserted, or with DELETE removed. -/
def Dev.recStatic (d : Dev) (e : List Nat) (del stage : Bool) : Option Dev :=
  let a := AEnt.ofWords (ew e 0) (ew e 1) (ew e 2)
  let key := staticKey a.fid a.mac
  if del then some ((d.removeStatic a.fid a.mac stage).refStatic key 0 stage)
  else if d.staticBad (ew e 1) (ew e 2) then none
  else (d.placeStatic key (staticVal a.typ a.rk a.res) stage).map fun (d : Dev) => d.refStatic key (staticVal a.typ a.rk a.res) stage

/-- Fields of an identification entry that its METHOD or profile makes significant, as offset and length (R170). -/
def Dev.idSignificant (d : Dev) (p method profile : Nat) : List (Nat × Nat) :=
  if method < 3 then [(4, 2), (10, 6)]
  else
    ([(Reg.STRM_IP_PROFILE.VID p profile, 4, 2), (Reg.STRM_IP_PROFILE.DA p profile, 10, 6),
      (Reg.STRM_IP_PROFILE.SRC p profile, 16, 16), (Reg.STRM_IP_PROFILE.DST p profile, 32, 16),
      (Reg.STRM_IP_PROFILE.DSCP p profile, 48, 1), (Reg.STRM_IP_PROFILE.PROTO p profile, 49, 1),
      (Reg.STRM_IP_PROFILE.SPORT p profile, 50, 2), (Reg.STRM_IP_PROFILE.DPORT p profile, 52, 2)] : List (FRef × Nat × Nat)).filterMap
        fun x => if d.flag x.1 then some x.2 else none

/-- An identification entry is refused (R169, R170). -/
def Dev.idBad (d : Dev) (p : Nat) (b : List Byte) : Bool :=
  let m := idField b 0 1
  let pr := idField b 1 1
  let v := idField b 54 1
  let zeros (off n : Nat) : Bool := (slice b off n).all (· == 0)
  decide (3 < m) || decide (2 < idField b 6 1) || idField b 7 1 != 0 || !zeros 55 9 || idField b 5 1 / 16 != 0 ||
    d.handleOwner (idField b 2 2) != some p ||
    (if m < 3 then pr != 0 || v != 0
      else decide (3 < pr) || (v != 4 && v != 6) || !d.flag (Reg.STRM_IP_PROFILE.EN p pr) || idField b 48 1 / 64 != 0 ||
        (v == 4 && !(zeros 16 12 && zeros 32 12))) ||
    (List.range 50).any fun k =>
      let o := k + 4
      !(decide (6 ≤ o) && decide (o < 10)) && idField b o 1 != 0 &&
        !(d.idSignificant p m pr).any fun x => decide (x.1 ≤ o) && decide (o < x.1 + x.2)

/-- The device with an identification slot written. -/
def Dev.setId (d : Dev) (p s : Nat) (e : KEnt) : Dev :=
  { d with strm := { d.strm with ids := tput d.strm.ids KEnt.zero (2 ^ 16 * p + s) e } }

/-- The slots of an identification table that hold a key. -/
def Dev.idSlots (d : Dev) (p : Nat) (key : List Byte) : List Nat :=
  (d.idBucket p key).filter fun s => !(d.idEnt p s).bytes.isEmpty && idKey (d.idEnt p s).bytes == key

/-- An identification entry inserted, replaced or, with DELETE, removed (R170): marks in staging, at once in an image. A full
bucket refuses it. -/
def Dev.recId (d : Dev) (p : Nat) (e : List Nat) (del stage : Bool) : Option Dev :=
  let b := entryBytes e
  let ss := d.idSlots p (idKey b)
  let clear (d : Dev) : Dev := ss.foldl (fun (d : Dev) s =>
    if stage && !(d.idEnt p s).new then d.setId p s { d.idEnt p s with old := true } else d.setId p s KEnt.zero) d
  if del then some (clear d)
  else if d.idBad p b then none
  else
    let ent : KEnt := { bytes := b, new := stage, old := false }
    let place := if stage then ss.find? fun s => (d.idEnt p s).new else ss.head?
    let d := clear d
    match place with
    | some s => some (d.setId p s ent)
    | none => ((d.idBucket p (idKey b)).find? fun s => (d.idEnt p s).bytes.isEmpty).map fun s => d.setId p s ent

/-- One seal context of a record (R224): inserted, replaced or removed. -/
def Dev.recSeal (d : Dev) (e : List Nat) (del stage : Bool) : Option Dev :=
  let slot := ef e 0 0 16
  let key := slot * 2 ^ 16 + ef e 0 16 16
  if del then some (d.deleteCtx key stage)
  else if decide (511 < slot) || efBad e 1 0 7 || efBad e 1 8 24 || (List.range 4).any (fun k => ew e (4 + k) != 0) then none
  else if stage then d.stageCtx key (ew e 2 + 2 ^ 32 * ew e 3) else d.loadCtx key (ew e 2 + 2 ^ 32 * ew e 3)

/-- Staged identification entries at a commit edge (R63). -/
def Dev.commitIds (d : Dev) : Dev :=
  { d with strm := { d.strm with ids := (d.strm.ids.filter fun e => !e.2.old).map fun e => (e.1, { e.2 with new := false }) } }

/-- Staged identification entries when a shadow is abandoned. -/
def Dev.unstageIds (d : Dev) : Dev :=
  { d with strm := { d.strm with ids := (d.strm.ids.filter fun e => !e.2.new).map fun e => (e.1, { e.2 with old := false }) } }

/-! ### Records (R52) -/

/-- Seeds latched (R52), as the addresses of their registers. -/
def seedsOf (tid : Nat) : List Nat :=
  if tid = 0x4FF0 then [0, 1, 2, 3].flatMap fun p => [Reg.LKUP_HASH_SEED0.addr p, Reg.LKUP_HASH_SEED1.addr p]
  else if tid = 0x6300 then [Reg.SEAL_CTX_SEED.addr]
  else if tid / 4096 = 5 ∧ tid % 16 = 0 then [Reg.STRM_ID_SEED.addr (tid / 16 % 256)] else []

/-- SEED_LATCH (R52). -/
def Dev.latch (d : Dev) (l : List Nat) : Dev :=
  { d with boot := { d.boot with latched := d.boot.latched ++ l.filter fun a => !d.boot.latched.contains a } }

/-- A record whose header is wrong (R52): unknown table, wrong FLAGS, ENTRY_WORDS, reserved bytes, FIRST_INDEX or length. -/
def bulkBad (tid flags entryWords res first : Nat) (entries : List (List Nat)) : Bool :=
  match tableShape ((recTargets tid).headD 0) with
  | none => true
  | some (n, w, keyed) =>
    entryWords != w || res != 0 || decide (3 < flags) || (entries.any fun e => e.length != w) ||
      (if keyed then flags % 2 == 0 || first != 0 else flags != 0 || decide (n < first + entries.length))

/-- One keyed entry. -/
def Dev.recKeyed (d : Dev) (tid : Nat) (e : List Nat) (del stage : Bool) : Option Dev :=
  if tid = 0x4FF0 then d.recStatic e del stage
  else if tid = 0x6300 then d.recSeal e del stage
  else d.recId (tid / 16 % 256) e del stage

/-- A keyed record: the seeds are latched and the entries placed one after the other (R52). -/
def Dev.keyedRecord (d : Dev) (tid flags : Nat) (entries : List (List Nat)) (stage : Bool) : Option Dev :=
  entries.foldl (fun (a : Option Dev) e => a.bind fun (d : Dev) => d.recKeyed tid e (flags / 2 % 2 == 1) stage)
    (some (d.latch (seedsOf tid)))

/-- The indexed entries of a record as (table, index, entry). -/
def bulkEntries (tid first : Nat) (entries : List (List Nat)) : List (Nat × Nat × List Nat) :=
  (recTargets tid).flatMap fun t => (List.range entries.length).map fun k => (t, first + k, (entries[k]?).getD [])

/-- BULK_TABLE_RECORD as an image applies it (R52): none where the record is refused. -/
def Dev.loadBulk (d : Dev) (tid flags entryWords res first : Nat) (entries : List (List Nat)) : Option Dev :=
  if bulkBad tid flags entryWords res first entries then none
  else if flags % 2 = 1 then d.keyedRecord tid flags entries false
  else
    (bulkEntries tid first entries).foldl (fun (a : Option Dev) x => a.bind fun (d : Dev) =>
      if d.entryBad x.1 x.2.1 x.2.2 then none else some (d.writeEntry x.1 x.2.1 x.2.2)) (some d)

/-! ### Dumps (R371) -/

/-- Slots and words of a table as a dump names it: a pipeline's address table under its own unit, the node table, and no table
of SEAL unit 0x20. -/
def dumpShape (tid : Nat) : Option (Nat × Nat) :=
  if tid / 4096 = 4 ∧ tid / 16 % 256 < 4 ∧ tid % 16 = 0 then some (2 ^ 21, 3)
  else if tid = 0x5200 then some (65536, 4)
  else if tid = 0x6300 then some (16384, 8)
  else if tid = 0x4FF0 then none
  else match tableShape tid with
    | some (_, w, true) => some (65536, w)
    | some (n, w, false) => some (n, w)
    | none => none

/-- The bytes of a node table slot (R193). -/
def Node.dump (n : Node) : List Byte :=
  if n.valid then
    be 6 n.mac ++ le 1 (n.pair + 128) ++ le 1 ((if n.proxy then 1 else 0) + 2 * n.seen) ++ le 2 n.cs ++ le 2 n.ring ++
      le 1 n.gen ++ le 1 n.ringGen ++ le 2 n.age
  else le 16 0

/-- The bytes of a seal context slot as a dump shows them (R224). -/
def SCtx.dump (c : SCtx) : List Byte :=
  if c.valid && !c.new then
    le 2 (c.key / 2 ^ 16) ++ le 2 (c.key % 2 ^ 16) ++ le 1 128 ++ le 3 0 ++ le 8 c.minSeq ++ le 8 c.high ++
      le 8 (c.window % 2 ^ 63 + (if c.empty then 2 ^ 63 else 0))
  else le 32 0

/-- The bytes of a recovery context (R197): CTRL as loaded or as the device allocated it, and the state. -/
def Dev.rcvDump (d : Dev) (p c : Nat) : List Byte :=
  let r := d.rcv c
  let mine := d.rcOwner c == some p
  let ctrl := match r.alloc with
    | some (port, reset, _) => if mine then 2 ^ 31 + port * 2 ^ 16 + reset else d.tabF (0x5100 + 0x10 * p) c 0 0 32
    | none => d.tabF (0x5100 + 0x10 * p) c 0 0 32
  if mine then
    le 4 ctrl ++ le 4 (r.gen * 2 ^ 24 + (if r.takeAny then 2 ^ 16 else 0) + r.recov) ++ le 4 r.last ++ le 4 0 ++ le 16 r.hist
  else le 4 ctrl ++ le 28 0

/-- One entry as a dump delivers it (R368, R371): visible state only (R62). -/
def Dev.dumpEntry (d : Dev) (tid i : Nat) : List Byte :=
  let p := tid / 16 % 4
  match tid / 4096, tid / 16 % 256, tid % 16 with
  | 4, 0x20, _ => d.tabBytes tid i (match tid % 16 with | 0 => 10 | 1 => 9 | _ => 1)
  | 4, _, _ =>
    let e := d.aslot p i
    ((if e.valid && d.avisible p e then e else AEnt.zero).words.flatMap (le 4))
  | 5, 0x20, 0 => (d.node i).dump
  | 5, u, 0 =>
    if u < 4 then
      let e := d.idEnt p i
      if e.new || e.bytes.isEmpty then le 64 0 else e.bytes
    else d.rcvDump p i
  | 6, 0x30, _ => (d.sctxAt i).dump
  | _, _, _ => d.tabBytes tid i (match dumpShape tid with | some (_, w) => w | none => 0)

end Sys2Proof.Machine
end

