-- ==== Sys2Proof/Machine/Audit.lean ====
section
/-! DEFINITION. The audit unit (chapter 16): the terms of the conservation equations as the logic that keeps each element
tallies them, the check of every millisecond, and its comparison (R381 to R386). -/

namespace Sys2Proof.Machine

/-! ### Power tokens as the steward keeps them (R403) -/

/-- Fixed base of a rail, always granted (R404). -/
def railBase (r : Nat) : Nat :=
  match r with
  | 0 => 40 | 1 => 4 | 7 => 2 | 8 => 2 | 9 => 1 | _ => 0

/-- Tokens of a set on a rail. -/
def tokensOn (t : List (Nat × Nat)) (r : Nat) : Nat := t.foldl (fun a x => if x.1 = r then a + x.2 else a) 0

/-- Tokens granted on a rail: the fixed base and every holder's, those still falling included (R403). -/
def Dev.railGranted (d : Dev) (r : Nat) : Nat :=
  d.power.holds.foldl (fun a (h : TokHold) => a + tokensOn h.tokens r) (railBase r)

/-- BUDGET of a rail. -/
def Dev.railBudget (d : Dev) (r : Nat) : Nat := d.rd (Reg.PWCK_RAIL_BUDGET.BUDGET r)

/-! ### Terms (R381, R384, R385) -/

/-- Cells of a bank: total, and free plus used (R256). -/
def Dev.cellTerm (d : Dev) (p : Nat) : AuditTerm :=
  let b := d.bank p
  let free := (List.range 32).foldl (fun a s => a + (tget b.sub FreeList.zero s).count subRows) 0
  let used := (b.links.filter fun e => !e.2.free).length + (b.lost.filter fun k => (b.link k).free).length
  ⟨1, p, bankCells, free + used⟩

/-- Spill blocks of Vat `v` in stack `s`. -/
def Dev.spillTerm (d : Dev) (v s : Nat) : AuditTerm :=
  let loc := 4 + 2 * v + s
  let used := (d.path.copies.filter fun c => match c.block with | some b => b.1 == v && b.2.1 == s | none => false).length
  ⟨2, loc, d.vatBlocks v, (d.vatHalf v s).count (d.vatBlocks v) + used + d.rd (Reg.DEV_AUDIT_LOST.LOST loc)⟩

/-- Blocks of the seal staging Vat (10) or the supervisor frame Vat (11). -/
def Dev.privTerm (d : Dev) (loc : Nat) : AuditTerm :=
  let n := if loc = 10 then 16384 else 32768
  let v := if loc = 10 then d.vat.sealP else d.vat.supP
  let used := if loc = 10 then d.path.frames.foldl (fun a (f : Frame) => a + f.blocks.length) 0
    else d.vat.supFrames.foldl (fun a (f : SupFrame) => a + f.blocks.length) 0
  ⟨3, loc, n, v.cache.length + v.ring.count n + used + d.rd (Reg.DEV_AUDIT_LOST.LOST loc)⟩

/-- Fabric credits of an egress group (R274). -/
def Dev.creditTerm (d : Dev) (g : Nat) : AuditTerm :=
  let held := d.path.copies.foldl (fun a (c : Copy) => if dstGroup c.dst = g then a + c.held else a) 0
  let flight := (d.fab.flight.filter fun x => x.dst == g).length
  ⟨4, g, tget d.fab.issued 0 g - tget d.fab.back 0 g, held + flight + d.rd (Reg.FABR_GRP_CREDIT.STAGED g)⟩

/-- Power tokens of a rail, and the module power budget (10). -/
def Dev.tokenTerm (d : Dev) (r : Nat) : AuditTerm :=
  let budget := if r = 10 then d.rd Reg.PWCK_MOD_BUDGET.BUDGET else d.railBudget r
  let granted := if r = 10 then d.rd Reg.PWCK_MOD_BUDGET.GRANTED else d.railGranted r
  ⟨5, r, budget, granted + (budget - granted)⟩

/-- A location is checked now (R386): no rebuild runs in the bank, the stack is in service, a stack is for the privileged Vats. -/
def Dev.auditable (d : Dev) (check loc : Nat) : Bool :=
  match check with
  | 1 => (d.bank loc).rebuild.isEmpty
  | 2 => d.hbmUp (loc % 2)
  | 3 => d.hbmUp 0 || d.hbmUp 1
  | _ => true

/-- Every term of R381, latched on one edge. -/
def Dev.auditTerms (d : Dev) : List AuditTerm :=
  ([0, 1, 2, 3].map d.cellTerm ++ ([0, 1, 2].flatMap fun v => [d.spillTerm v 0, d.spillTerm v 1]) ++ [d.privTerm 10, d.privTerm 11] ++
    (List.range 64).map d.creditTerm ++ (List.range 11).map d.tokenTerm).filter fun t => d.auditable t.check t.loc

/-! ### The check and its comparison -/

/-- AUDIT_CHECK (R383): on the first edge of every millisecond since forwarding release every term is latched. -/
def auditCheck (d : Dev) : Dev :=
  if d.flag Reg.DEV_AUDIT_STATUS.RUNNING && !d.audit.comparing &&
      decide ((d.audit.checkAt - d.fab.relAt) / 10 ^ 6 < (d.now - d.fab.relAt) / 10 ^ 6) then
    ({ d with audit := { d.audit with terms := d.auditTerms, checkAt := d.now, comparing := true } }).cnt .auditUnitChecks 0
  else d

def execAuditCheck (s : State) : Host.Outcome State Fault Refusal := s.on auditCheck

/-- The log record of a location (R385). -/
def Dev.auditLog (d : Dev) (t : AuditTerm) : Dev :=
  d.log 0x0001 2 (d.regData Reg.DEV_AUDIT_ERR.addr ++ le 4 t.expected ++ le 4 t.found)

/-- DISCREPANCY_REPORT (R385): counted, latched while VALID is clear, alarmed, and logged when first found and when the
difference has changed, at most once a second. -/
def Dev.discrepancy (d : Dev) (t : AuditTerm) : Dev :=
  let d := d.cnt .auditUnitDiscrepancies 0
  let d := if d.flag Reg.DEV_AUDIT_ERR.VALID then d
    else
      let d := ((d.setFlag Reg.DEV_AUDIT_ERR.VALID true).wr Reg.DEV_AUDIT_ERR.CHECK t.check).wr Reg.DEV_AUDIT_ERR.WHERE t.loc
      (d.wr Reg.DEV_AUDIT_EXP.VALUE t.expected).wr Reg.DEV_AUDIT_FOUND.VALUE t.found
  let d := d.alarm 0 0
  let diff : Int := (t.found : Int) - t.expected
  let put (d : Dev) (l : List AuditOpen) : Dev := { d with audit := { d.audit with opens := l } }
  match d.audit.opens.find? fun (o : AuditOpen) => o.check == t.check && o.loc == t.loc with
  | none => (put d (d.audit.opens ++ [⟨t.check, t.loc, diff, d.now⟩])).auditLog t
  | some o =>
    if o.diff ≠ diff ∧ o.loggedAt + 10 ^ 9 ≤ d.now then
      (put d (d.audit.opens.map fun (x : AuditOpen) => if x.check = t.check ∧ x.loc = t.loc then ⟨t.check, t.loc, diff, d.now⟩ else x)).auditLog t
    else d

/-- A location whose sides agree again leaves OPEN with a record of difference zero. -/
def Dev.agrees (d : Dev) (t : AuditTerm) : Dev :=
  if d.audit.opens.any fun (o : AuditOpen) => o.check == t.check && o.loc == t.loc then
    ({ d with audit := { d.audit with
      opens := d.audit.opens.filter fun (o : AuditOpen) => !(o.check == t.check && o.loc == t.loc) } }).auditLog t
  else d

/-- AUDIT_COMPARE_DONE (R383, R385, R386): the comparison of 0.5 ms ends. Locations of a stack that has failed meanwhile are no
longer checked. -/
def auditCompareDone (d : Dev) : Dev :=
  if d.audit.comparing && decide (d.audit.checkAt + 500000 ≤ d.now) then
    let d := (d.audit.terms.filter fun (t : AuditTerm) => t.check == 1 || d.auditable t.check t.loc).foldl (fun (d : Dev) t =>
      if t.expected = t.found then d.agrees t else d.discrepancy t) d
    let n := d.audit.opens.length
    let d := { d with audit := { d.audit with terms := [], comparing := false } }
    (d.wr Reg.DEV_AUDIT_STATUS.OPEN (min 255 n)).setFlag Reg.DEV_AUDIT_STATUS.DISC (n != 0)
  else d

def execAuditCompareDone (s : State) : Host.Outcome State Fault Refusal := s.on auditCompareDone

end Sys2Proof.Machine
end

