-- ==== Sys2Proof/Machine/Power.lean ====
section
/-! DEFINITION. The power steward's grants, ramp slots and falls (R403 to R407), power domains (R409), AVS (R402), reference
clocks (R411), and the resets with the first steps of start-up (R34, R43, R44, R399). -/

namespace Sys2Proof.Machine

/-! ### Grants (R403 to R407) -/

/-- Tokens held at level 0 on a rail. -/
def Dev.levelZero (d : Dev) (r : Nat) : Nat :=
  d.power.holds.foldl (fun a (h : TokHold) => if h.level = 0 then a + tokensOn h.tokens r else a) 0

/-- The reserve of a rail (R405). -/
def Dev.reserve (d : Dev) (r : Nat) : Nat := d.rd (Reg.PWCK_RAIL_BUDGET.RESERVED r) - d.levelZero r

/-- `k` tokens of a level fit on rail `r`: only level 0 takes reserve tokens (R405). -/
def Dev.railFits (d : Dev) (level r k : Nat) : Bool :=
  decide (d.railGranted r + k + (if level = 0 then 0 else d.reserve r) ≤ d.railBudget r)

/-- Rails on which a request is short. -/
def Dev.shortRails (d : Dev) (q : TokReq) : List Nat := (q.tokens.filter fun t => !d.railFits q.level t.1 t.2).map (·.1)

/-- A waiting level-0 request blocks grants of other levels on the rails it names (R406). -/
def Dev.blocked (d : Dev) (q : TokReq) : Bool :=
  q.level != 0 && d.power.waiting.any fun w => w.level == 0 && w.tokens.any fun t => q.tokens.any fun u => u.1 == t.1

/-- When the ramp slot of a grant begins on a rail (R407). -/
def Dev.slotAt (d : Dev) (r : Nat) : Nat := max d.now (tget d.power.slotFree 0 r)

/-- A request granted: every token it names, with a ramp slot on each rail. -/
def Dev.grant (d : Dev) (q : TokReq) : Dev :=
  let start := q.tokens.foldl (fun a t => max a (d.slotAt t.1)) d.now
  let stop := q.tokens.foldl (fun a t => max a (d.slotAt t.1 + 125 * t.2)) d.now
  let d := q.tokens.foldl (fun (d : Dev) t =>
    { d with power := { d.power with slotFree := tput d.power.slotFree 0 t.1 (d.slotAt t.1 + 125 * t.2) } }) d
  let d := { d with power := { d.power with
    waiting := d.power.waiting.filter fun (w : TokReq) => w.holder != q.holder,
    holds := d.power.holds ++ [(⟨q.holder, q.level, q.tokens, start, some stop, none⟩ : TokHold)] } }
  let d := q.tokens.foldl (fun d t => d.cnt .pwrGrants t.1) d
  if q.holder < 96 then d.wr (Reg.PWCK_DOM_STATUS.STATE q.holder) 1 else d

/-- A request passed over counts pwr_waits, once for each rail on which it is found short. -/
def Dev.passOver (d : Dev) (q : TokReq) : Dev :=
  let new := (d.shortRails q).filter fun r => !q.short.contains r
  let d := new.foldl (fun d r => d.cnt .pwrWaits r) d
  { d with power := { d.power with
    waiting := d.power.waiting.map fun (w : TokReq) => if w.holder = q.holder then { w with short := w.short ++ new } else w } }

/-- Waiting requests in the order of R406: by level, then by arrival. -/
def Dev.requestOrder (d : Dev) : List TokReq := [0, 1, 2, 3].flatMap fun l => d.power.waiting.filter fun w => w.level == l

/-- A fall that has ended: its tokens are free, and the domain is off unless it was granted again (R407, R409). -/
def Dev.endFall (d : Dev) (h : Nat) : Dev :=
  if d.power.holds.any fun x => x.holder == h && (x.fallEnd.map fun t => decide (t ≤ d.now)).getD false then
    let d := { d with power := { d.power with
      holds := d.power.holds.filter fun (x : TokHold) => !(x.holder == h && (x.fallEnd.map fun t => decide (t ≤ d.now)).getD false) } }
    if h < 96 && !(d.power.holds.any fun x => x.holder == h) then
      let d := d.wr (Reg.PWCK_DOM_STATUS.STATE h) 0
      if h < 64 then d.setFlag (Reg.PORT_GRP_STATUS.TX_PLL_LOCK h) false else d
    else d
  else d

/-- POWER_TOKEN_GRANT (R406): one CLK_SLOW cycle of the steward. Before APPLIED it grants nothing (R402). -/
def tokenGrant (d : Dev) : Dev :=
  let d := (d.power.holds.map fun (h : TokHold) => h.holder).foldl Dev.endFall d
  if d.flag Reg.PWCK_AVS.APPLIED then
    d.requestOrder.foldl (fun d q => if (d.shortRails q).isEmpty && !d.blocked q then d.grant q else d.passOver q) d
  else d

def execPowerTokenGrant (s : State) : Host.Outcome State Fault Refusal := s.on tokenGrant

/-- Time from the end of a domain's ramp slot to its power good, in ns (R409). -/
def goodDelay (h : Nat) : Nat :=
  1000 * (if h < 64 then 20 else if h < 68 then 100 else if h < 78 then 5 else if h < 80 then 50 else if h < 84 then 10
    else if h < 92 then 100 else 50)

/-- RAMP_SLOT_END (R407): the holder's last slot ends. -/
def rampSlotEnd (holder : Nat) (d : Dev) : Dev :=
  match d.hold_ holder with
  | some h =>
    if (h.rampEnd.map fun t => decide (t ≤ d.now)).getD false then
      let d := { d with power := { d.power with
        holds := d.power.holds.map fun (x : TokHold) => if x.holder = holder && x.fallEnd.isNone then { x with rampEnd := none } else x } }
      if holder < 96 then
        { d with power := { d.power with goodAt := tput d.power.goodAt 0 holder ((h.rampEnd).getD 0 + goodDelay holder) } }
      else d
    else d
  | none => d

def execRampSlotEnd (holder : Nat) (s : State) : Host.Outcome State Fault Refusal := s.on (rampSlotEnd holder)

/-- RAMP_DOWN_END (R405, R407): a holder's fall ends and its tokens become free. -/
def execRampDownEnd (holder : Nat) (s : State) : Host.Outcome State Fault Refusal := s.on fun d => Dev.endFall d holder

/-- DOMAIN_POWER_GOOD (R409): a domain is on. A cluster enters service (R230); a quad's transmit PLL locks to its SREF input. -/
def domainGood (h : Nat) (d : Dev) : Dev :=
  if h < 96 && d.rd (Reg.PWCK_DOM_STATUS.STATE h) == 1 &&
      ((d.hold_ h).map fun x => x.rampEnd.isNone && decide (tget d.power.goodAt 0 h ≤ d.now)).getD false then
    let d := d.wr (Reg.PWCK_DOM_STATUS.STATE h) 2
    if h < 64 then
      if d.bitOf Reg.PWCK_CLK_STATUS.SREF_LOST (h / 8) then d else d.setFlag (Reg.PORT_GRP_STATUS.TX_PLL_LOCK h) true
    else if 80 ≤ h && h < 84 && d.bitOf Reg.SEAL_CFG.CLU_EN (h - 80) && tget d.deck.faultAt 0 (h - 80) == 0 then d.clusterRise (h - 80)
    else d
  else d

def execDomainPowerGood (domain : Nat) (s : State) : Host.Outcome State Fault Refusal := s.on (domainGood domain)

/-- AVS_APPLIED (R402): READ_VOUT of the VDD_CORE regulator, in mV. -/
def avsApplied (readVout : Nat) (d : Dev) : Dev :=
  let v := d.rd Reg.PWCK_AVS.SETPOINT_MV
  if d.rd Reg.PWCK_AVS.VOUT_MV = v && readVout ≤ v + 5 && v ≤ readVout + 5 then d.setFlag Reg.PWCK_AVS.APPLIED true else d

def execAvsApplied (readVout : Nat) (s : State) : Host.Outcome State Fault Refusal := s.on (avsApplied readVout)

/-! ### Reference clocks (R411) -/

/-- REFCLK_LOSS (R411). -/
def refclkLoss (d : Dev) : Dev :=
  if d.flag Reg.PWCK_CLK_STATUS.REFCLK_LOST then d
  else
    let d := (d.setFlag Reg.PWCK_CLK_STATUS.REFCLK_LOST true).cnt .refclkLossEvents 0
    d.log 0xE002 0x10 (d.regData Reg.PWCK_CLK_STATUS.addr)

def execRefclkLoss (s : State) : Host.Outcome State Fault Refusal := s.on refclkLoss

/-- REFCLK_RETURN (R411): the PLL slews back without a glitch. -/
def execRefclkReturn (s : State) : Host.Outcome State Fault Refusal :=
  s.on fun d => Dev.setFlag d Reg.PWCK_CLK_STATUS.REFCLK_LOST false

/-- Front ports of the groups an SREF input serves. -/
def srefPorts (k : Nat) : List Nat := (List.range 32).map (32 * k + ·)

/-- SREF_LOSS (R411): the transmitters of groups 8k to 8k+7 lose their clock, and their links go down (R90). -/
def srefLoss (k : Nat) (d : Dev) : Dev :=
  if 8 ≤ k || d.bitOf Reg.PWCK_CLK_STATUS.SREF_LOST k then d
  else
    let d := (d.setBitOf Reg.PWCK_CLK_STATUS.SREF_LOST k true).cnt .srefLossEvents k
    let d := (List.range 8).foldl (fun d i => d.setFlag (Reg.PORT_GRP_STATUS.TX_PLL_LOCK (8 * k + i)) false) d
    (srefPorts k).foldl (fun d n => if d.flag (Reg.PORT_STATUS.LINK_UP n) then d.enterHold n else d) d

def execSrefLoss (k : Nat) (s : State) : Host.Outcome State Fault Refusal := s.on (srefLoss k)

/-- SREF_RETURN (R411): the PLLs of powered quads lock again, and link bring-up restarts. -/
def srefReturn (k : Nat) (d : Dev) : Dev :=
  if 8 ≤ k then d
  else
    let d := d.setBitOf Reg.PWCK_CLK_STATUS.SREF_LOST k false
    (List.range 8).foldl (fun d i =>
      let g := 8 * k + i
      if d.rd (Reg.PWCK_DOM_STATUS.STATE g) = 2 then d.setFlag (Reg.PORT_GRP_STATUS.TX_PLL_LOCK g) true else d) d

def execSrefReturn (k : Nat) (s : State) : Host.Outcome State Fault Refusal := s.on (srefReturn k)

/-! ### Resets and the first steps of start-up (R43, R44, R399) -/

/-- The device after a full reset (R14, R399): everything at its reset value, but the seconds of TB0, the start count and
SUPV_SHUTDOWN, which VDD_AON holds, and the fuses and flash devices. The root PLL stays locked through SYS_RST_N only. -/
def Dev.fullReset (d : Dev) (pll : Bool) (hold : HoldSt) : Dev :=
  let z := Dev.zero
  let keep := d.reg Reg.SUPV_SHUTDOWN.addr
  let locked := pll && d.flag Reg.PWCK_CLK_STATUS.PLL_LOCK
  let n : Dev := { z with
    now := d.now, free := d.free, wire := d.wire, hold := hold,
    boot := { z.boot with fuses := d.boot.fuses, bootCount := d.boot.bootCount, tb0Sec := d.boot.tb0Sec, nvm := d.boot.nvm.map fun (x : Nvm) => { x with ok := false } } }
  let n := (fuseRegs d.boot.fuses).foldl (fun (n : Dev) e => n.setReg e.1 (BitVec.ofNat 32 e.2)) n
  (n.setReg Reg.SUPV_SHUTDOWN.addr keep).setFlag Reg.PWCK_CLK_STATUS.PLL_LOCK locked

/-- Time zero (step 1 of R44): straps latched, the start count advanced, the root PLL started. -/
def Dev.timeZero (d : Dev) (sel mode : Nat) : Dev :=
  let d := { d with boot := { d.boot with t0 := d.now, bootCount := (d.boot.bootCount + 1) % 2 ^ 16 } }
  let d := (d.wr Reg.DEV_STRAP.BOOT_SEL sel).wr Reg.DEV_STRAP.NVM_MODE mode
  d.setFlag Reg.DEV_BOOT_STATUS.UNPROV (d.boot.fuses.ownerHash.all fun b => b == 0)

/-- PWR_GOOD_RISE (R43, R44 step 1): time zero, unless POR_N is still low. -/
def pwrGoodRise (sel mode : Nat) (d : Dev) : Dev :=
  if d.hold.pwrGood then d
  else
    let d := { d with hold := { d.hold with pwrGood := true } }
    if d.hold.por then d else d.timeZero sel mode

def execPwrGoodRise (bootSel nvmMode : Nat) (s : State) : Host.Outcome State Fault Refusal :=
  s.always (pwrGoodRise bootSel nvmMode)

/-- POR_ASSERT (R399): a full reset, with the root PLL stopped; a thermal shutdown ends (R344). -/
def porAssert (d : Dev) : Dev :=
  d.fullReset false { d.hold with por := true, shutdown := false, clocks := false }

def execPorAssert (s : State) : Host.Outcome State Fault Refusal := s.always porAssert

/-- POR_RELEASE (R43, R399): the rising edge of POR_N with PWR_GOOD high is time zero and latches the straps. -/
def porRelease (sel mode : Nat) (d : Dev) : Dev :=
  if d.hold.por then
    let d := { d with hold := { d.hold with por := false } }
    if d.hold.pwrGood then d.timeZero sel mode else d
  else d

def execPorRelease (bootSel nvmMode : Nat) (s : State) : Host.Outcome State Fault Refusal := s.always (porRelease bootSel nvmMode)

/-- PWR_GOOD_FALL (R399): as POR_N low; time zero is the next rising edge of PWR_GOOD. -/
def pwrGoodFall (d : Dev) : Dev :=
  if d.hold.pwrGood then d.fullReset false { d.hold with pwrGood := false, shutdown := false, clocks := false } else d

def execPwrGoodFall (s : State) : Host.Outcome State Fault Refusal := s.always pwrGoodFall

/-- SYS_RST_ASSERT (R399, R40): a full reset with the root PLL kept locked, and time zero at the rising edge, where the straps
are sampled again. A thermal shutdown goes on (R344). -/
def sysRst (sel mode : Nat) (d : Dev) : Dev :=
  let d := d.fullReset true { d.hold with clocks := false }
  if d.hold.pwrGood && !d.hold.por then d.timeZero sel mode else d

def execSysRstAssert (bootSel nvmMode : Nat) (s : State) : Host.Outcome State Fault Refusal := s.always (sysRst bootSel nvmMode)

/-- Domains that ask for tokens at step 2 of R44 (R409). -/
def step2Domains : List Nat := (List.range 4).map (64 + ·) ++ (List.range 9).map (68 + ·) ++ (List.range 8).map (84 + ·) ++ [92, 93, 94, 95]

/-- PLL_LOCK_DONE (R44 step 2, R34, R308, R402): clocks run, memories and free lists are ready, the bases start, the steward
commands the AVS setpoint, and the boot ROM starts on SUP-A. -/
def pllLockDone (d : Dev) : Dev :=
  if d.hold.pwrGood && !d.hold.por && !d.hold.shutdown && !d.hold.clocks then
    let d := { d with hold := { d.hold with clocks := true } }
    let d := d.setFlag Reg.PWCK_CLK_STATUS.PLL_LOCK true
    let d := (d.setFlag (Reg.PORT_GRP_STATUS.TX_PLL_LOCK 64) true).setFlag (Reg.PORT_GRP_STATUS.TX_PLL_LOCK 65) true
    let d := d.setTb 0 { d.tb 0 with own := d.boot.tb0Sec * 10 ^ 9 * nsUnit }
    let d := step2Domains.foldl (fun d h => d.requestTokens h (holderLevel h)) d
    let v := d.rd Reg.PWCK_AVS.SETPOINT_MV
    let d := (d.wr Reg.PWCK_AVS.VOUT_MV v).out (.pmbus 0 v)
    d.wr Reg.DEV_BOOT_STATUS.PHASE 1
  else d

def execPllLockDone (s : State) : Host.Outcome State Fault Refusal := s.always pllLockDone

end Sys2Proof.Machine
end

