-- ==== Sys2Proof/Machine/Time.lean ====
section
/-! DEFINITION. Time bases, pairs, TIO, PPS_IN and TCLK (R306 to R318, R326 to R328). -/

namespace Sys2Proof.Machine

/-! ### Base states (R313, R314) -/

/-- FREERUN, ACQUIRING, LOCKED, HOLDOVER (R314). -/
def freerun : Nat := 0
def acquiring : Nat := 1
def locked : Nat := 2
def holdover : Nat := 3

/-- STATE of base `t`. -/
def Dev.tbState (d : Dev) (t : Nat) : Nat := d.rd (Reg.TIME_TB_STATUS.STATE t)

/-- D of pair `q` set, with what TIME_PAIR_D and SLEWING show of it: signed ns, saturating (R318). -/
def Dev.setPairD (d : Dev) (q : Nat) (v : Int) : Dev :=
  let p := (d.time.pair[q]?).getD { dRem := 0, slewAt := 0 }
  let d := { d with time := { d.time with pair := d.time.pair.set q { p with dRem := v } } }
  let d := d.wrS (Reg.TIME_PAIR_D.D q) (clampI (v / (nsUnit : Int)) (-2147483648) 2147483647)
  d.setFlag (Reg.TIME_PAIR_STATUS.SLEWING q) (v != 0)

/-- Pair `q` changes its source to the other member (R318): D becomes own time of the new source less P, so P does not move. -/
def Dev.pairSwitch (d : Dev) (q : Nat) : Dev :=
  let p := d.pres (d.pairSource q)
  let d := d.setFlag (Reg.TIME_PAIR_STATUS.SOURCE q) (!d.flag (Reg.TIME_PAIR_STATUS.SOURCE q))
  let d := d.setPairD q ((d.own (d.pairSource q) : Int) - (p : Int))
  (d.cnt .pairSwitches q).alarm 2 5

/-- The pair rules on a change of base `t` from state `old` to `new` (R318): the source leaves LOCKED while the other member
has SYNC, or the other member enters LOCKED while the source is not LOCKED. -/
def Dev.pairEvent (d : Dev) (t old new : Nat) : Dev :=
  match d.pairOf t with
  | none => d
  | some q =>
    if d.pairSource q = t then
      if old = locked && new ≠ locked && d.flag (Reg.TIME_TB_STATUS.SYNC (d.pairOther q)) then d.pairSwitch q else d
    else if new = locked && old ≠ locked && d.tbState (d.pairSource q) ≠ locked then d.pairSwitch q
    else d

/-- START_MARK of every base whose synchronisation is first seen here (R218, R314): the base itself, or its pair's source, is
LOCKED for the first time since release. -/
def Dev.markStarts (d : Dev) : Dev :=
  [0, 1, 2, 3, 4, 5, 6, 7].foldl (fun d t =>
    let src := match d.pairOf t with | none => t | some q => d.pairSource q
    if d.tbState src = locked && tget d.time.startSet 0 t = 0 then
      { d with time := { d.time with
        startMark := tput d.time.startMark 0 t (d.presNs t), startSet := tput d.time.startSet 0 t 1 } }
    else d) d

/-- Base `t` enters a state (R314): STATE and SYNC, the entry actions of its row, the pair rules, and ALM2 on leaving LOCKED. -/
def Dev.enterState (d : Dev) (t new : Nat) : Dev :=
  let old := d.tbState t
  let avg := d.rdS (Reg.TIME_TB_AVG.VALUE t)
  let b := d.tb t
  let d := d.wr (Reg.TIME_TB_STATUS.STATE t) new
  let d := d.setFlag (Reg.TIME_TB_STATUS.SYNC t) (new == locked || new == holdover)
  let d := if new = freerun then
      (d.setTb t { b with integ := -avg }).wrS (Reg.TIME_TB_FREQ.VALUE t) avg
    else if new = holdover then
      ((d.setTb t { b with holdAt := d.now }).wrS (Reg.TIME_TB_FREQ.VALUE t) avg).cnt .tbHoldoverEntries t
    else if new = locked then
      (d.setTb t { b with bad := 0, lockedAt := d.now }).setFlag (Reg.TIME_TB_STATUS.EVER_LOCKED t) true
    else d
  let d := if old = locked && new ≠ locked then d.alarm 2 5 else d
  (d.pairEvent t old new).markStarts

/-- One-shot pins that a forward step of base `t`'s presentation time, from `p0` to `p1` ns, passes (R316, R326): LATE is set and
counted, and the pin takes the state its schedule gives at the new time. -/
def Dev.tioStep (d : Dev) (t p0 p1 : Nat) : Dev :=
  (List.range 16).foldl (fun d i =>
    let start := instantNs (d.rd (Reg.TIO_START_NS.START i)) (d.rd (Reg.TIO_START_SLO.START i)) (d.rd (Reg.TIO_START_SHI.START i))
    if d.rd (Reg.TIO_CFG.MODE i) = 1 && d.rd (Reg.TIO_CFG.TB i) = t && tget d.time.tioDone 0 i = 0 &&
        p0 < start && start ≤ p1 then
      let on := p1 < start + d.rd (Reg.TIO_WIDTH.NS i)
      let d := (d.setFlag (Reg.TIO_STATUS.LATE i) true).cnt .tioLate i
      { d with time := { d.time with
        tioActive := tput d.time.tioActive 0 i (if on then 1 else 0),
        tioDone := tput d.time.tioDone 0 i (if on then 0 else 1) } }
    else d) d

/-- The base's own time changed by `delta` units (R313, R316, R318): for the source of a pair D changes with it, so P stands. -/
def Dev.stepTb (d : Dev) (t : Nat) (delta : Int) : Dev :=
  let p0 := d.presNs t
  let b := d.tb t
  let d := d.setTb t { b with own := (((b.own : Int) + delta) % (tbModulus : Int)).toNat, good := 0 }
  let d := d.setFlag (Reg.TIME_TB_STATUS.STEPPED t) true
  let d := d.cnt .tbSteps t
  match d.pairOf t with
  | some q => if d.pairSource q = t then d.setPairD q (d.pairD q + delta) else d
  | none => d.tioStep t p0 (d.presNs t)

/-- The frequency limit of R307. -/
def freqLimit : Int := 858993

/-- The PI part of `on_sample` (R313, R315). `off` has 16 fractional bits; `tclk` is the frequency measured from TCLK_IN. -/
def Dev.servoUpdate (d : Dev) (t : Nat) (off tclk : Int) : Dev :=
  let b := d.tb t
  let kp : Int := d.rd (Reg.TIME_TB_KP.GAIN t)
  let ki : Int := d.rd (Reg.TIME_TB_KI.GAIN t)
  let useTclk := d.rd (Reg.TIME_TB_CFG.SRC t) == 2 && d.flag (Reg.TIME_TB_CFG.FREQ_TCLK t) &&
    !d.flag (Reg.TIME_TB_STATUS.TCLK_LOST t)
  let integ := if useTclk then b.integ else clampI (b.integ + ki * off / 2 ^ 32) (-freqLimit) freqLimit
  let raw := -(kp * off / 2 ^ 32 + (if useTclk then tclk else integ))
  let freq := clampI raw (-freqLimit) freqLimit
  let d := d.setTb t { b with integ := integ }
  let d := d.wrS (Reg.TIME_TB_FREQ.VALUE t) freq
  let d := d.setFlag (Reg.TIME_TB_STATUS.CLAMP t) (raw != freq)
  if d.tbState t = locked then
    let avg := d.rdS (Reg.TIME_TB_AVG.VALUE t)
    d.wrS (Reg.TIME_TB_AVG.VALUE t) (avg + (freq - avg) / 16)
  else d

/-- `advance_state` (R314): eight good samples lock, four over the fault threshold while LOCKED are a servo fault. -/
def Dev.advanceState (d : Dev) (t : Nat) (off : Int) : Dev :=
  let b := d.tb t
  let mag := off.natAbs
  if d.tbState t = acquiring then
    let good := if mag ≤ d.rd (Reg.TIME_TB_THRESH.LOCK_NS t) * 2 ^ 16 then b.good + 1 else 0
    let d := d.setTb t { b with good := good }
    if 8 ≤ good then d.enterState t locked else d
  else if d.tbState t = locked then
    let bad := if d.rd (Reg.TIME_TB_THRESH.STEP_US t) * 1000 * 2 ^ 16 < mag then b.bad + 1 else 0
    let d := d.setTb t { b with bad := bad }
    if 4 ≤ bad then (d.cnt .tbFaults t).enterState t holdover else d
  else d

/-- `on_sample` (R313). -/
def Dev.onSample (d : Dev) (t : Nat) (off tclk : Int) : Dev :=
  let d := d.cnt .tbSamples t
  let d := d.setTb t { d.tb t with lastSample := d.now }
  let d := d.wrS (Reg.TIME_TB_OFFSET.VALUE t) (clampI (off / 2 ^ 16) (-2147483648) 2147483647)
  let st := d.tbState t
  let d := if st = holdover then d.setTb t { d.tb t with integ := -(d.rdS (Reg.TIME_TB_AVG.VALUE t)) } else d
  let d := if st = freerun || st = holdover then (d.setTb t { d.tb t with good := 0 }).enterState t acquiring else d
  if d.tbState t = acquiring && d.flag (Reg.TIME_TB_CFG.STEP_EN t) &&
      d.rd (Reg.TIME_TB_THRESH.STEP_US t) * 1000 * 2 ^ 16 < off.natAbs then
    d.stepTb t (-off * 2 ^ 16)
  else (d.servoUpdate t off tclk).advanceState t off

/-- OFFSET_SAMPLE (R313): a sample for a base that has a source. `off` is in ns with 16 fractional bits. -/
def offsetSample (t : Nat) (off tclk : Int) (d : Dev) : Dev :=
  if t < 8 && (d.rd (Reg.TIME_TB_CFG.SRC t) == 1 || d.rd (Reg.TIME_TB_CFG.SRC t) == 2) then d.onSample t off tclk else d

def execOffsetSample (tb : Nat) (off tclk : Int) (s : State) : Host.Outcome State Fault Refusal := s.on (offsetSample tb off tclk)

/-- SOURCE_LOSS (R314): LOCKED becomes HOLDOVER, ACQUIRING becomes FREERUN. With SRC PPS_IN no loss is declared before the first
edge, nor within 1.5 s of the last. -/
def sourceLoss (t : Nat) (d : Dev) : Dev :=
  let src := d.rd (Reg.TIME_TB_CFG.SRC t)
  let lost := if src = 1 then true else if src = 2 then
      (match d.time.ppsLast with | some e => decide (e + 1500000000 ≤ d.now) | none => false) else false
  if t < 8 && lost then
    let d := if src = 2 then { d with time := { d.time with ppsLast := none } } else d
    if d.tbState t = locked then d.enterState t holdover
    else if d.tbState t = acquiring then d.enterState t freerun
    else d
  else d

def execSourceLoss (tb : Nat) (s : State) : Host.Outcome State Fault Refusal := s.on (sourceLoss tb)

/-- HOLDOVER_EXPIRY (R314): HOLDOVER for longer than HOLDOVER_S. -/
def holdoverExpiry (t : Nat) (d : Dev) : Dev :=
  if t < 8 && d.tbState t = holdover && (d.tb t).holdAt + d.rd (Reg.TIME_TB_CFG.HOLDOVER_S t) * 10 ^ 9 < d.now then
    d.enterState t freerun
  else d

def execHoldoverExpiry (tb : Nat) (s : State) : Host.Outcome State Fault Refusal := s.on (holdoverExpiry tb)

/-- PAIR_REVERT (R318): REVERT is set, SECONDARY is the source and PRIMARY has been LOCKED for REVERT_S. -/
def pairRevert (q : Nat) (d : Dev) : Dev :=
  let p := d.rd (Reg.TIME_PAIR_CFG.PRIMARY q)
  if q < 4 && d.pairOn q && d.flag (Reg.TIME_PAIR_CFG.REVERT q) && d.flag (Reg.TIME_PAIR_STATUS.SOURCE q) &&
      d.tbState p = locked && (d.tb p).lockedAt + d.rd (Reg.TIME_PAIR_CFG.REVERT_S q) * 10 ^ 9 ≤ d.now then
    d.pairSwitch q
  else d

def execPairRevert (pair : Nat) (s : State) : Host.Outcome State Fault Refusal := s.on (pairRevert pair)

/-- `v` moved toward zero by at most `k`. -/
def towardZero (v k : Int) : Int := if 0 ≤ v then (if v ≤ k then 0 else v - k) else if -v ≤ k then 0 else v + k

/-- PAIR_SLEW (R318): while D is not zero it moves toward zero by at most 10 ns in a millisecond. -/
def pairSlew (q : Nat) (d : Dev) : Dev :=
  let p := (d.time.pair[q]?).getD { dRem := 0, slewAt := 0 }
  if q < 4 && d.pairOn q && p.dRem ≠ 0 && p.slewAt + 1000000 ≤ d.now then
    let d := d.setPairD q (towardZero p.dRem (10 * nsUnit))
    let p := (d.time.pair[q]?).getD { dRem := 0, slewAt := 0 }
    { d with time := { d.time with pair := d.time.pair.set q { p with slewAt := d.now } } }
  else d

def execPairSlew (pair : Nat) (s : State) : Host.Outcome State Fault Refusal := s.on (pairSlew pair)

/-! ### TIO (R326, R327) -/

/-- START of pin `i`, in ns. -/
def Dev.tioStart (d : Dev) (i : Nat) : Nat :=
  instantNs (d.rd (Reg.TIO_START_NS.START i)) (d.rd (Reg.TIO_START_SLO.START i)) (d.rd (Reg.TIO_START_SHI.START i))

/-- Whether pin `i` is in a pulse at the present presentation time of its base (R326). -/
def Dev.tioOn (d : Dev) (i : Nat) : Bool :=
  let x : Int := (d.presNs (d.rd (Reg.TIO_CFG.TB i)) : Int) - (d.tioStart i : Int) - d.rdS (Reg.TIO_ADJ.ADJ i)
  let wid : Int := d.rd (Reg.TIO_WIDTH.NS i)
  if d.tioBad i || x < 0 then false
  else if d.rd (Reg.TIO_CFG.MODE i) = 1 then x < wid && tget d.time.tioDone 0 i == 0
  else if d.rd (Reg.TIO_CFG.MODE i) = 2 then x % (d.rd (Reg.TIO_PERIOD.NS i) : Int) < wid
  else false

/-- The level pin `i` drives; none while it is high-impedance. -/
def Dev.tioLevel (d : Dev) (i : Nat) : Option Bool :=
  if d.rd (Reg.TIO_CFG.MODE i) = 1 || d.rd (Reg.TIO_CFG.MODE i) = 2 then
    some ((tget d.time.tioActive 0 i == 1) != d.flag (Reg.TIO_CFG.POL i))
  else none

/-- TIO_OUTPUT_EDGE (R326): the pin takes the level its schedule gives; the end of a one-shot pulse ends the one-shot. -/
def tioEdge (i : Nat) (d : Dev) : Dev :=
  let on := d.tioOn i
  let was := tget d.time.tioActive 0 i == 1
  if i < 16 && (d.rd (Reg.TIO_CFG.MODE i) == 1 || d.rd (Reg.TIO_CFG.MODE i) == 2) && on != was then
    let d := { d with time := { d.time with
      tioActive := tput d.time.tioActive 0 i (if on then 1 else 0),
      tioDone := if was && d.rd (Reg.TIO_CFG.MODE i) == 1 then tput d.time.tioDone 0 i 1 else d.time.tioDone } }
    match d.tioLevel i with
    | some l => d.out (.pin "TIO" i l)
    | none => d
  else d

def execTioOutputEdge (tio : Nat) (s : State) : Host.Outcome State Fault Refusal := s.on (tioEdge tio)

/-- A one-shot whose START has passed at forwarding release gives no pulse (R326). -/
def Dev.tioLate (d : Dev) : Dev :=
  (List.range 16).foldl (fun d i =>
    if d.rd (Reg.TIO_CFG.MODE i) = 1 && !d.tioBad i && d.tioStart i < d.presNs (d.rd (Reg.TIO_CFG.TB i)) then
      let d := (d.setFlag (Reg.TIO_STATUS.LATE i) true).cnt .tioLate i
      { d with time := { d.time with tioDone := tput d.time.tioDone 0 i 1 } }
    else d) d

/-- An edge is selected by EDGE and POL (R326, R327). -/
def edgeTaken (edge : Nat) (pol rising : Bool) : Bool :=
  edge == 3 || (edge == 1 && rising != pol) || (edge == 2 && rising == pol)

/-- TIO_CAPTURE (R327): the stamp is the presentation time of TB less TIO_ADJ; a full queue discards it. -/
def tioCapture (i : Nat) (rising : Bool) (d : Dev) : Dev :=
  if i < 16 && d.rd (Reg.TIO_CFG.MODE i) == 3 && edgeTaken (d.rd (Reg.TIO_CFG.EDGE i)) (d.flag (Reg.TIO_CFG.POL i)) rising then
    let t := (((d.presNs (d.rd (Reg.TIO_CFG.TB i)) : Int) - d.rdS (Reg.TIO_ADJ.ADJ i)) % (2 ^ 48 * 10 ^ 9 : Int)).toNat * nsUnit
    let q := tget d.time.tioFifo [] i
    if q.length < 8 then
      let d := d.cnt .tioCaptures i
      { d with time := { d.time with tioFifo := tput d.time.tioFifo [] i (q ++ [(t, if rising then 0 else 1)]) } }
    else (d.setFlag (Reg.TIO_STATUS.OVF i) true).cnt .tioCaptureOverflow i
  else d

def execTioCapture (tio : Nat) (rising : Bool) (s : State) : Host.Outcome State Fault Refusal := s.on (tioCapture tio rising)

/-- TIO_CAP_READ (R327): a privileged read of TIO_CAP_NS removes the oldest capture and latches its seconds and edge. -/
def tioCapRead (master i : Nat) (d : Dev) : Dev :=
  let d := d.busRead master (Reg.TIO_CAP_NS.addr i)
  if d.privileged master && i < 16 then
    match tget d.time.tioFifo [] i with
    | [] => d
    | e :: r =>
      let d := { d with time := { d.time with tioFifo := tput d.time.tioFifo [] i r } }
      let d := (d.wr (Reg.TIO_CAP_SLO.CAP i) (tSec e.1)).wr (Reg.TIO_CAP_SHI.CAP i) (shiWord e.1)
      d.wr (Reg.TIO_STATUS.LAST_EDGE i) e.2
  else d

def execTioCapRead (master tio : Nat) (s : State) : Host.Outcome State Fault Refusal := s.on (tioCapRead master tio)

/-! ### PPS_IN, TCLK and time reads -/

/-- The sample PPS_IN gives base `t` (R328): the ns of the stamp on its own time, less 10^9 from half a second on, with 16
fractional bits. -/
def Dev.ppsSample (d : Dev) (t : Nat) : Int :=
  let u := ((d.own t : Int) - d.rdS Reg.TIME_PPS_CFG.PPS_ADJ * nsUnit) % (10 ^ 9 * nsUnit : Int)
  let x := u / 2 ^ 16
  if 500000000 * 2 ^ 16 ≤ x then x - 10 ^ 9 * 2 ^ 16 else x

/-- PPS_IN_EDGE (R328): the selected edge gives a sample to every base with SRC PPS_IN, all stamped at the edge. -/
def ppsEdge (rising : Bool) (tclk : Int) (d : Dev) : Dev :=
  if d.flag Reg.TIME_PPS_CFG.EN && (rising != d.flag Reg.TIME_PPS_CFG.POL) then
    let d0 := { d with time := { d.time with ppsLast := some d.now } }
    [0, 1, 2, 3, 4, 5, 6, 7].foldl (fun d t =>
      if d0.rd (Reg.TIME_TB_CFG.SRC t) = 2 then d.onSample t (d0.ppsSample t) tclk else d) d0
  else d

def execPpsInEdge (rising : Bool) (tclk : Int) (s : State) : Host.Outcome State Fault Refusal := s.on (ppsEdge rising tclk)

/-- The bases that take their frequency from TCLK_IN (R315). -/
def Dev.tclkBases (d : Dev) : List Nat :=
  [0, 1, 2, 3, 4, 5, 6, 7].filter fun t => d.rd (Reg.TIME_TB_CFG.SRC t) == 2 && d.flag (Reg.TIME_TB_CFG.FREQ_TCLK t)

/-- TCLK_LOST (R315): no edge of TCLK_IN for 1 µs. -/
def tclkLost (d : Dev) : Dev :=
  let d := { d with time := { d.time with tclkAbsent := true } }
  d.tclkBases.foldl (fun d t => d.setFlag (Reg.TIME_TB_STATUS.TCLK_LOST t) true) d

def execTclkLost (s : State) : Host.Outcome State Fault Refusal := s.on tclkLost

/-- TCLK_RETURN (R315). -/
def tclkReturn (d : Dev) : Dev :=
  let d := { d with time := { d.time with tclkAbsent := false } }
  [0, 1, 2, 3, 4, 5, 6, 7].foldl (fun d t => d.setFlag (Reg.TIME_TB_STATUS.TCLK_LOST t) false) d

def execTclkReturn (s : State) : Host.Outcome State Fault Refusal := s.on tclkReturn

/-- TB_TIME_READ (R307): a read of TIME_TB_NS or TIME_TB_PNS latches the two registers that follow it. -/
def tbTimeRead (master t : Nat) (pres : Bool) (d : Dev) : Dev :=
  if t < 8 && d.reaches master then
    if pres then
      let u := d.pres t
      let d := d.busRead master (Reg.TIME_TB_PNS.addr t)
      (d.wr (Reg.TIME_TB_PSLO.TIME t) (tSec u)).wr (Reg.TIME_TB_PSHI.TIME t) (shiWord u)
    else
      let u := d.own t
      let d := d.busRead master (Reg.TIME_TB_NS.addr t)
      (d.wr (Reg.TIME_TB_SLO.TIME t) (tSec u)).wr (Reg.TIME_TB_SHI.TIME t) (shiWord u)
  else d

def execTbTimeRead (master tb : Nat) (pres : Bool) (s : State) : Host.Outcome State Fault Refusal := s.on (tbTimeRead master tb pres)

/-- Pairs under R317: an enabled pair with PRIMARY equal to SECONDARY, or sharing a base with another enabled pair, has CFG_ERR. -/
def Dev.pairsCheck (d : Dev) : Dev :=
  [0, 1, 2, 3].foldl (fun e q =>
    let p := d.rd (Reg.TIME_PAIR_CFG.PRIMARY q)
    let s := d.rd (Reg.TIME_PAIR_CFG.SECONDARY q)
    let clash := [0, 1, 2, 3].any fun r => r != q && d.flag (Reg.TIME_PAIR_CFG.EN r) && (d.inPair r p || d.inPair r s)
    e.setFlag (Reg.TIME_PAIR_STATUS.CFG_ERR q) (d.flag (Reg.TIME_PAIR_CFG.EN q) && (p == s || clash))) d

end Sys2Proof.Machine
end

