-- ==== Sys2Proof/Machine/RegEffects.lean ====
section
/-! DEFINITION. What a change of a register's value sets going in the unit that owns it, whoever wrote it: port mode, admin state,
pause and preemption, transmit equalisation, time instances and pairs, the Deckle's sums, cages, and the interrupt enables. -/

namespace Sys2Proof.Machine

/-- A link that is up goes down and retrains (R65, R90). -/
def Dev.retrain (d : Dev) (n : Nat) : Dev := if d.flag (Reg.PORT_STATUS.LINK_UP n) then d.enterHold n else d

/-- Cages whose lanes lie in a group. -/
def Dev.cagesOf (d : Dev) (g : Nat) : List Nat :=
  (List.range 64).filter fun c => d.flag (Reg.MODL_CAGE_CFG.EN c) && d.rd (Reg.MODL_CAGE_CFG.GROUP c) == g

/-- SerDes tokens follow the mode of a group once forwarding is released (R404, R409). -/
def Dev.groupPower (d : Dev) (g : Nat) : Dev :=
  if d.rd (Reg.PORT_GRP_MODE.MODE g) = 0 then d.releaseTokens g else d.requestTokens g (holderLevel g)

/-- MODE of a port group changed (R65, R74, R90, R102, R409): its links go down, its modules choose again, its lanes take their
coefficients anew, and its power follows. -/
def Dev.modeWritten (d : Dev) (g : Nat) (old : Word) : Dev :=
  if fget old 0 4 = d.rd (Reg.PORT_GRP_MODE.MODE g) then d
  else if g < 64 then
    let ports := (List.range 4).map (4 * g + ·)
    let d := ports.foldl Dev.retrain d
    let d := (d.cagesOf g).foldl Dev.rechoose d
    let d := (List.range 4).foldl (fun d l => d.applyTxeq g l) d
    let d := if d.boot.released then d.groupPower g else d
    ports.foldl Dev.portCheck d
  else ((d.retrain (g + 192)).portCheck (g + 192))

/-- PORT_CFG of a port changed: clearing ADMIN_EN takes the port out of use (R91); a change of FEC, auto-negotiation or training
retrains the link. -/
def Dev.portCfgWritten (d : Dev) (n : Nat) (old : Word) : Dev :=
  let was (r : FRef) : Nat := fget old r.lo r.width
  let moved (r : FRef) : Bool := was r != d.rd r
  let d := if was (Reg.PORT_CFG.ADMIN_EN n) = 1 && !d.flag (Reg.PORT_CFG.ADMIN_EN n) then d.adminFalls n
    else if moved (Reg.PORT_CFG.FEC n) || moved (Reg.PORT_CFG.AN_EN n) || moved (Reg.PORT_CFG.LT_EN n) then d.retrain n
    else d
  d.portCheck n

/-- A PORT register of port `n` changed. -/
def Dev.portWritten (d : Dev) (n : Nat) (name : String) (old : Word) : Dev :=
  match name with
  | "PORT_CFG" => d.portCfgWritten n old
  | "PORT_PAUSE_CFG" => (d.pauseChanged n old).portCheck n
  | "PORT_PAUSE_HI" => (d.portCheck n).evalPause n
  | "PORT_PAUSE_LO" => (d.portCheck n).evalPause n
  | "PORT_PREEMPT_CFG" => d.startVerify n
  | _ => d

/-- HOST_INT_STATUS shows the enables (R359). -/
def Dev.showEnables (d : Dev) : Dev :=
  (d.wr Reg.HOST_INT_STATUS.PIN_EN (d.rd Reg.HOST_INT_EN.PIN_EN)).wr Reg.HOST_INT_STATUS.MSI_EN (d.rd Reg.HOST_INT_EN.MSI_EN)

/-- What a register whose value has changed from `old` sets going. -/
def Dev.regWritten (d : Dev) (a : Nat) (old : Word) : Dev :=
  match findReg a with
  | none => d
  | some (r, ix) =>
    let i := ix.headD 0
    match portOfAddr a with
    | some n => if d.reg a = old then d else d.portWritten n r.name old
    | none =>
      match r.name with
      | "PORT_GRP_MODE" => d.modeWritten i old
      | "PORT_LANE_TXEQ" => d.applyTxeq i ((ix[1]?).getD 0)
      | "TIME_INST_CFG" => d.ptpCheck i
      | "TIME_INST_PORTS" => d.ptpCheck i
      | "TIME_INST_INTV" => d.ptpCheck i
      | "TIME_PAIR_CFG" => d.pairsCheck
      | "SEAL_Q_BLOCKS" => d.checkSeal
      | "SEAL_Q_RES" => d.checkSeal
      | "MODL_CAGE_CFG" => let d := d.checkCages; (List.range 64).foldl Dev.checkCagePorts d
      | "MODL_BUS_CFG" => let d := d.checkCages; (List.range 64).foldl Dev.checkCagePorts d
      | "HOST_INT_EN" => d.showEnables
      | _ => d

/-- The level of pin GPIO `i` (R341): driven from its output latch while its OE bit is set and the core is out of reset, else released. -/
def Dev.gpioPin (d : Dev) (i : Nat) : Option Bool :=
  if d.hold.live && d.bitOf Reg.SUPV_GPIO_OE.GPIO i then some (d.bitOf Reg.SUPV_GPIO_OUT.GPIO i) else none

end Sys2Proof.Machine
end

