-- ==== Sys2Proof/Machine/Supv.lean ====
section
/-! DEFINITION. The supervisors (R330 to R340), sensors (R342 to R345) and performance counters (R354). -/

namespace Sys2Proof.Machine

/-! ### Roles -/

/-- HOST_PEER_ALIVE follows the roles (R359): SUP_A, SUP_B and ACTIVE_PRESENT. -/
def Dev.peersFollow (d : Dev) : Dev :=
  let d := d.setPeer Reg.HOST_PEER_ALIVE.SUP_A (d.role 0 == 1 || d.role 0 == 2)
  let d := d.setPeer Reg.HOST_PEER_ALIVE.SUP_B (d.role 1 == 1 || d.role 1 == 2)
  d.setPeer Reg.HOST_PEER_ALIVE.ACTIVE_PRESENT d.supRunning

/-- Gives supervisor `s` a ROLE (R330). Leaving STANDBY clears STANDBY_READY; ACTIVE_SUP names the ACTIVE one. -/
def Dev.setRole (d : Dev) (s r : Nat) : Dev :=
  let d := d.wr (Reg.SUPV_CORE_STATUS.ROLE s) r
  let d := if r = 2 then d else d.setFlag (Reg.SUPV_CORE_STATUS.STANDBY_READY s) false
  let d := if r = 1 then d.wr Reg.SUPV_PAIR_STATUS.ACTIVE_SUP s else d
  d.peersFollow

/-- A supervisor runs: ACTIVE, STANDBY or RESYNC (R330). -/
def Dev.supRuns (d : Dev) (s : Nat) : Bool := d.role s == 1 || d.role s == 2 || d.role s == 4

/-- The newest complete checkpoint slot (R334). -/
def newestCkpt (l : List Ckpt) : Option Ckpt :=
  l.foldl (fun b c => match b with
    | none => some c
    | some x => if x.seq < c.seq then some c else some x) none

/-- A heartbeat written (R331); one of an ACTIVE supervisor releases WDOG_OUT_N (R340). -/
def Dev.heartbeat (d : Dev) (s : Nat) : Dev :=
  let d := { d with supv := { d.supv with lastHb := tput d.supv.lastHb 0 s d.now } }
  if d.role s = 1 && d.flag Reg.SUPV_PAIR_STATUS.WDOG then
    (d.setFlag Reg.SUPV_PAIR_STATUS.WDOG false).out (.pin "WDOG_OUT_N" 0 true)
  else d

/-- SUPV_HEARTBEAT (R331): a write of SUPV_HB, accepted from the supervisor itself only. -/
def heartbeatWrite (master sup value : Nat) (d : Dev) : Dev :=
  let (d, ok) := d.busWrite master (Reg.SUPV_HB.addr sup) value 15
  if ok && d.supRuns sup then d.heartbeat sup else d

def execSupvHeartbeat (master sup value : Nat) (s : State) : Host.Outcome State Fault Refusal :=
  s.on (heartbeatWrite master sup value)

/-! ### Failure and takeover -/

/-- Step 2 of R334 for the supervisor that leaves ACTIVE: the STANDBY begins takeover if it is STANDBY_READY. -/
def Dev.beginTakeover (d : Dev) (cause : Nat) : Dev :=
  match d.standbySup with
  | some b =>
    if d.flag (Reg.SUPV_CORE_STATUS.STANDBY_READY b) then
      let d := { d with supv := { d.supv with takeover := some ⟨b, cause, d.now⟩ } }
      d.setFlag Reg.SUPV_PAIR_STATUS.TAKING_OVER true
    else d
  | none => d

/-- A takeover whose STANDBY fails is abandoned (R337). -/
def Dev.abandonTakeover (d : Dev) (s : Nat) : Dev :=
  match d.supv.takeover with
  | some t =>
    if t.sup = s then
      ({ d with supv := { d.supv with takeover := none } }).setFlag Reg.SUPV_PAIR_STATUS.TAKING_OVER false
    else d
  | none => d

/-- A heartbeat miss (cause 1) or machine check (cause 2) of supervisor `s` (R332): FAILED and held in reset, counted and
logged; OFF and DISABLED at the third failure within one hour (R338). If it was ACTIVE, takeover follows (R334). -/
def Dev.failSup (d : Dev) (s cause : Nat) : Dev :=
  let wasActive := d.role s == 1
  let recent := (d.supv.fails.filter fun f => decide (d.now < f.2 + 3600 * 10 ^ 9)) ++ [(s, d.now)]
  let n := (recent.filter fun f => f.1 == s).length
  let d := { d with supv := { d.supv with fails := recent } }
  let d := d.wr (Reg.SUPV_CORE_STATUS.LAST_CAUSE s) cause
  let d := d.wr (Reg.SUPV_CORE_STATUS.FAILS_1H s) (min n 255)
  let d := d.cnt .supvFailures 0
  let d := if n < 3 then d.setRole s 3 else ((d.setFlag (Reg.SUPV_CORE_STATUS.DISABLED s) true).setRole s 0).releaseTokens (92 + s)
  let d := d.alarm 2 2
  let d := d.log 0xB002 s (le 1 s ++ le 1 cause)
  if wasActive then d.beginTakeover cause else d.abandonTakeover s

/-- SUPV_HEARTBEAT_MISS (R331): no heartbeat of a running supervisor for 200 µs. -/
def heartbeatMiss (s : Nat) (d : Dev) : Dev :=
  if d.supRuns s && decide (tget d.supv.lastHb 0 s + 200000 ≤ d.now) then d.failSup s 1 else d

def execSupvHeartbeatMiss (sup : Nat) (s : State) : Host.Outcome State Fault Refusal := s.on (heartbeatMiss sup)

/-- Step 5 of R334: the new supervisor becomes ACTIVE with the newest checkpoint's management state, finds the persisted log
positions again (R350) and writes a heartbeat; the takeover is logged and counted. -/
def Dev.finishTakeover (d : Dev) (t : Takeover) : Dev :=
  let c := newestCkpt d.supv.ckpts
  let age := match c with | some c => (d.now - c.at_) / 1000 | none => 0
  let mg := match c with | some c => c.mgmt | none => d.supv.mgmt
  let last := fun nv => match ((d.nvm nv).log.getLast?).bind fun s => s.recs.getLast? with
    | some e => if e.boot = d.boot.bootCount % 2 ^ 16 then e.seq + 1 else 0
    | none => 0
  let d := { d with supv := { d.supv with takeover := none, mgmt := { mg with persist := [last 0, last 1] } } }
  let d := d.setFlag Reg.SUPV_PAIR_STATUS.TAKING_OVER false
  let d := (d.setRole t.sup 1).heartbeat t.sup
  let d := d.cnt .supvTakeovers 0
  d.logFrom (t.sup + 1) 0xB001 t.sup (le 1 t.cause ++ le 1 t.sup ++ le 2 0 ++ le 4 age)

/-! ### Checkpoints (R333) -/

/-- The ACTIVE supervisor's management state written to the next of the two slots. -/
def Dev.checkpoint (d : Dev) : Dev :=
  let slot := d.supv.ckptSeq % 2
  let opens := d.host.chans.filterMap fun e => e.2.opened.map fun r => (e.1, r.tag)
  let c : Ckpt := ⟨slot, d.supv.ckptSeq + 1, d.now, { d.supv.mgmt with opens := opens }⟩
  let d := { d with supv := { d.supv with
    ckpts := (d.supv.ckpts.filter fun (x : Ckpt) => x.slot != slot) ++ [c], ckptSeq := d.supv.ckptSeq + 1 } }
  d.cnt .supvCheckpoints 0

/-- CHECKPOINT_WRITE (R333): a write that fails leaves its slot incomplete. -/
def checkpointWrite (ok : Bool) (d : Dev) : Dev :=
  if d.supRunning then
    if ok then d.checkpoint
    else
      let slot := d.supv.ckptSeq % 2
      { d with supv := { d.supv with ckpts := d.supv.ckpts.filter fun (x : Ckpt) => x.slot != slot } }
  else d

def execCheckpointWrite (ok : Bool) (s : State) : Host.Outcome State Fault Refusal := s.on (checkpointWrite ok)

/-- The STANDBY `b` has loaded slot content `c`: STANDBY_READY while it is less than 20 ms old (R333). -/
def Dev.loadCkpt (d : Dev) (b : Nat) (c : Ckpt) : Dev :=
  let d := { d with supv := { d.supv with loaded := some c } }
  d.setFlag (Reg.SUPV_CORE_STATUS.STANDBY_READY b) (decide (d.now < c.at_ + 20000000))

/-- CHECKPOINT_LOAD (R333): the STANDBY supervisor loads a complete slot. -/
def checkpointLoad (slot : Nat) (d : Dev) : Dev :=
  match d.standbySup, d.supv.ckpts.find? (fun (c : Ckpt) => c.slot == slot) with
  | some b, some c => if (d.supv.loaded.map fun l => l.seq).getD 0 < c.seq then d.loadCkpt b c else d
  | _, _ => d

def execCheckpointLoad (slot : Nat) (s : State) : Host.Outcome State Fault Refusal := s.on (checkpointLoad slot)

/-- STANDBY_READY_LAPSE (R333): the newest slot loaded becomes 20 ms old. -/
def readyLapse (d : Dev) : Dev :=
  match d.standbySup with
  | some b =>
    if (d.supv.loaded.map fun c => decide (c.at_ + 20000000 ≤ d.now)).getD true then
      d.setFlag (Reg.SUPV_CORE_STATUS.STANDBY_READY b) false
    else d
  | none => d

def execStandbyReadyLapse (s : State) : Host.Outcome State Fault Refusal := s.on readyLapse

/-! ### Return to service and forced switch -/

/-- SUPERVISOR_RESTART (R338): the ACTIVE supervisor cycles the FAILED one's domain, checks the Chewipor copy and releases the
core in RESYNC. `copyOk` is the outcome of the SHA-256 check of the copy in HBM. -/
def supervisorRestart (s : Nat) (copyOk : Bool) (d : Dev) : Dev :=
  if d.supRunning && d.role s == 3 && decide (s < 2) && copyOk then
    let d := { d with supv := { d.supv with lastHb := tput d.supv.lastHb 0 s d.now } }
    d.setRole s 4
  else d

def execSupervisorRestart (sup : Nat) (copyOk : Bool) (s : State) : Host.Outcome State Fault Refusal :=
  s.on (supervisorRestart sup copyOk)

/-- RESYNC_DONE (R338): the restarted supervisor has loaded the next complete checkpoint and becomes STANDBY. -/
def resyncDone (d : Dev) : Dev :=
  match (if d.role 0 = 4 then some 0 else if d.role 1 = 4 then some 1 else none), newestCkpt d.supv.ckpts with
  | some s, some c => (d.setRole s 2).loadCkpt s c
  | _, _ => d

def execResyncDone (s : State) : Host.Outcome State Fault Refusal := s.on resyncDone

/-- The forced switch of R337: refused unless the STANDBY is STANDBY_READY. A final checkpoint is written and loaded, the former
ACTIVE supervisor becomes RESYNC, and takeover starts at step 2 with cause SWITCH. -/
def Dev.forcedSwitch (d : Dev) : Dev :=
  match d.activeSup, d.standbySup with
  | some a, some b =>
    if d.flag (Reg.SUPV_CORE_STATUS.STANDBY_READY b) then
      let d := d.checkpoint
      let d := match newestCkpt d.supv.ckpts with | some c => d.loadCkpt b c | none => d
      let d := d.wr (Reg.SUPV_CORE_STATUS.LAST_CAUSE a) 3
      let d := d.setRole a 4
      let d := d.cnt .supvForcedSwitches 0
      d.beginTakeover 3
    else d
  | _, _ => d

/-- FORCED_SWITCH (R337): a write of SUPV_PAIR_CTRL.SWITCH by a privileged master. -/
def switchWrite (master : Nat) (d : Dev) : Dev :=
  let p := d.privileged master
  let (d, ok) := d.busWrite master Reg.SUPV_PAIR_CTRL.addr (2 ^ 31 + d.rd Reg.SUPV_PAIR_CTRL.WDOG_MS) 15
  if ok && p then d.forcedSwitch else d

def execForcedSwitch (master : Nat) (s : State) : Host.Outcome State Fault Refusal := s.on (switchWrite master)

/-- WATCHDOG_EXPIRY (R340): no supervisor has written a heartbeat for WDOG_MS. -/
def watchdogExpiry (d : Dev) : Dev :=
  if max (tget d.supv.lastHb 0 0) (tget d.supv.lastHb 0 1) + d.rd Reg.SUPV_PAIR_CTRL.WDOG_MS * 1000000 ≤ d.now then
    (d.setFlag Reg.SUPV_PAIR_STATUS.WDOG true).out (.pin "WDOG_OUT_N" 0 false)
  else d

def execWatchdogExpiry (s : State) : Host.Outcome State Fault Refusal := s.on watchdogExpiry

/-! ### Sensors -/

/-- Die sensors with a valid reading, as (sensor, reading in 0.25 °C). -/
def Dev.dieReadings (d : Dev) : List (Nat × Int) :=
  ((List.range 24).filter fun i => d.flag (Reg.SUPV_TEMP.VALID i)).map fun i => (i, d.rdS (Reg.SUPV_TEMP.TEMP i))

/-- The sensor with the highest reading, the lowest numbered of equals. -/
def maxReading (l : List (Nat × Int)) : Option (Nat × Int) :=
  l.foldl (fun b x => match b with
    | none => some x
    | some y => if y.2 < x.2 then some x else some y) none

/-- A thermal warning set (R343): ALM1, log, count. -/
def Dev.warnSet (d : Dev) (bit sensor : Nat) (v : Int) : Dev :=
  ((d.alarm 1 bit).cnt .thermWarnEvents 0).log 0xB010 0x10 (le 1 sensor ++ le 1 0 ++ le 2 (ofSigned 16 v))

/-- A warning and its hysteresis (R343) over the valid readings: it sets while the highest is at or above the threshold and clears
while all are at or below the threshold less HYST. -/
def Dev.warnFollow (d : Dev) (f : FRef) (bit warn : Nat) (l : List (Nat × Int)) : Dev :=
  match maxReading l with
  | none => d.setFlag f false
  | some (i, m) =>
    if 4 * (warn : Int) ≤ m then if d.flag f then d else (d.setFlag f true).warnSet bit i m
    else if m ≤ 4 * (warn : Int) - 4 * (d.rd Reg.SUPV_THERM_CFG.HYST : Int) then d.setFlag f false
    else d

/-- SUPV_THERM_STATUS after a die sample (R342, R343): MAX over valid sensors, which stays where none is left, and WARN. -/
def Dev.thermStatus (d : Dev) : Dev :=
  let l := d.dieReadings
  let d := match maxReading l with
    | some (i, m) => (d.wr Reg.SUPV_THERM_STATUS.MAX_SENSOR i).wrS Reg.SUPV_THERM_STATUS.MAX m
    | none => d
  d.warnFollow Reg.SUPV_THERM_STATUS.WARN 0 (d.rd Reg.SUPV_THERM_CFG.THERM_WARN) l

/-- HBM_WARN_ACT after a stack's sample (R343). -/
def Dev.hbmStatus (d : Dev) : Dev :=
  d.warnFollow Reg.SUPV_THERM_STATUS.HBM_WARN_ACT 1 (d.rd Reg.SUPV_THERM_CFG.HBM_WARN)
    (([24, 25].filter fun i => d.flag (Reg.SUPV_TEMP.VALID i)).map fun i => (i, d.rdS (Reg.SUPV_TEMP.TEMP i)))

/-- A die sensor sample (R342 to R344), in 0.25 °C; an invalid conversion sets FAULT and ALM1 and is left out of every
threshold. -/
def Dev.dieSample (d : Dev) (i : Nat) (r : Option Int) : Dev :=
  match r with
  | none =>
    let d := (d.setFlag (Reg.SUPV_TEMP.VALID i) false).setFlag (Reg.SUPV_TEMP.FAULT i) true
    (({ d with supv := { d.supv with over120 := tput d.supv.over120 0 i 0 } }).alarm 1 3).thermStatus
  | some v =>
    let d := ((d.setFlag (Reg.SUPV_TEMP.VALID i) true).setFlag (Reg.SUPV_TEMP.FAULT i) false).wrS (Reg.SUPV_TEMP.TEMP i) v
    let n := if 480 ≤ v then tget d.supv.over120 0 i + 1 else 0
    let d := { d with supv := { d.supv with over120 := tput d.supv.over120 0 i n } }
    d.thermStatus

/-- An HBM stack temperature (R342, R343), in 0.25 °C. -/
def Dev.hbmSample (d : Dev) (i : Nat) (r : Option Int) : Dev :=
  match r with
  | none => (((d.setFlag (Reg.SUPV_TEMP.VALID i) false).setFlag (Reg.SUPV_TEMP.FAULT i) true).alarm 1 3).hbmStatus
  | some v =>
    let d := ((d.setFlag (Reg.SUPV_TEMP.VALID i) true).setFlag (Reg.SUPV_TEMP.FAULT i) false).wrS (Reg.SUPV_TEMP.TEMP i) v
    d.hbmStatus

/-- A voltage monitor sample in mV (R345): consecutive samples outside and inside the window are counted, and three inside
return the monitor to normal. -/
def Dev.vmonSample (d : Dev) (i : Nat) (r : Option Int) : Dev :=
  match r with
  | none => d
  | some v =>
    let mv := v.toNat
    let d := d.wr (Reg.SUPV_VMON.MV i) mv
    if mv < d.rd (Reg.SUPV_VMON_WIN.LOW i) || d.rd (Reg.SUPV_VMON_WIN.HIGH i) < mv then
      { d with supv := { d.supv with
        vOut := tput d.supv.vOut 0 i (tget d.supv.vOut 0 i + 1), vIn := tput d.supv.vIn 0 i 0 } }
    else
      let n := tget d.supv.vIn 0 i + 1
      let d := { d with supv := { d.supv with vOut := tput d.supv.vOut 0 i 0, vIn := tput d.supv.vIn 0 i n } }
      if 3 ≤ n then d.setFlag (Reg.SUPV_VMON.OUT i) false else d

/-- SENSOR_SAMPLE (R342): sensors 0 to 23 die, 24 and 25 HBM stacks, 26 + i voltage monitor i. -/
def sensorSample (sensor : Nat) (r : Option Int) (d : Dev) : Dev :=
  if sensor < 24 then d.dieSample sensor r
  else if sensor < 26 then d.hbmSample sensor r
  else if sensor < 58 then d.vmonSample (sensor - 26) r
  else d

def execSensorSample (sensor : Nat) (reading : Option Int) (s : State) : Host.Outcome State Fault Refusal :=
  s.on (sensorSample sensor reading)

/-- THERMAL_SHUTDOWN (R344): a valid die sensor has read 120 °C or more in two consecutive samples. The record is kept in
SUPV_SHUTDOWN, and the core is held in reset with every output in its reset state. -/
def thermalShutdown (d : Dev) : Dev :=
  match (List.range 24).find? fun i => decide (2 ≤ tget d.supv.over120 0 i) && d.flag (Reg.SUPV_TEMP.VALID i) with
  | none => d
  | some i =>
    let t := d.rd (Reg.SUPV_TEMP.TEMP i)
    let d := ((d.setFlag Reg.SUPV_SHUTDOWN.VALID true).wr Reg.SUPV_SHUTDOWN.SENSOR i).wr Reg.SUPV_SHUTDOWN.TEMP t
    { d with hold := { d.hold with shutdown := true } }

def execThermalShutdown (s : State) : Host.Outcome State Fault Refusal := s.on thermalShutdown

/-- VOLTAGE_OUT_OF_WINDOW (R345): three consecutive samples outside the window. -/
def vmonOut (i : Nat) (d : Dev) : Dev :=
  if 3 ≤ tget d.supv.vOut 0 i && !d.flag (Reg.SUPV_VMON.OUT i) && decide (i < 32) then
    let d := (d.setFlag (Reg.SUPV_VMON.OUT i) true).alarm 1 2
    let d := d.cnt .vmonEvents 0
    d.log 0xB012 0x10 (le 1 i ++ le 1 0 ++ le 2 (d.rd (Reg.SUPV_VMON.MV i)) ++ le 2 (d.rd (Reg.SUPV_VMON_WIN.LOW i)) ++
      le 2 (d.rd (Reg.SUPV_VMON_WIN.HIGH i)))
  else d

def execVoltageOutOfWindow (monitor : Nat) (s : State) : Host.Outcome State Fault Refusal := s.on (vmonOut monitor)

/-- A PMBus transaction with the regulator of a rail that fails; the third in a row sets PMB_ERR and is logged (R402). -/
def Dev.pmbusFail (d : Dev) (rail : Nat) : Dev :=
  let n := tget d.power.pmbFails 0 rail + 1
  if n < 3 then { d with power := { d.power with pmbFails := tput d.power.pmbFails 0 rail n } }
  else
    let d := { d with power := { d.power with pmbFails := tput d.power.pmbFails 0 rail 0 } }
    let d := d.setFlag Reg.PWCK_AVS.PMB_ERR true
    d.log 0xE001 0 (d.regData Reg.PWCK_AVS.addr ++ le 1 rail ++ le 1 0 ++ le 2 0)

/-- RAIL_CURRENT_READ (R345): READ_IOUT of one regulator in 10 mA units; a rail not read for 30 ms is STALE. -/
def railRead (rail : Nat) (r : Option Nat) (d : Dev) : Dev :=
  if 10 ≤ rail then d
  else
    match r with
    | some c =>
      let d := (d.wr (Reg.SUPV_RAIL_I.CURRENT rail) c).setFlag (Reg.SUPV_RAIL_I.STALE rail) false
      { d with
        supv := { d.supv with railAt := tput d.supv.railAt 0 rail d.now },
        power := { d.power with pmbFails := tput d.power.pmbFails 0 rail 0 } }
    | none =>
      let d := d.pmbusFail rail
      if tget d.supv.railAt 0 rail + 30000000 ≤ d.now then d.setFlag (Reg.SUPV_RAIL_I.STALE rail) true else d

def execRailCurrentRead (rail : Nat) (reading : Option Nat) (s : State) : Host.Outcome State Fault Refusal :=
  s.on (railRead rail reading)

/-- REGULATOR_ALERT (R402): the ACTIVE supervisor reads STATUS_WORD of every regulator and logs each fault; with none ACTIVE
nothing is read (R340). -/
def regulatorAlert (status : List (Nat × Nat)) (d : Dev) : Dev :=
  if d.supRunning then
    status.foldl (fun d x =>
      if x.2 = 0 then d
      else d.logFrom d.supOrigin 0xE001 0 (d.regData Reg.PWCK_AVS.addr ++ le 1 x.1 ++ le 1 0 ++ le 2 x.2)) d
  else d

def execRegulatorAlert (status : List (Nat × Nat)) (s : State) : Host.Outcome State Fault Refusal := s.on (regulatorAlert status)

/-! ### Performance counters (R354) -/

/-- `n` events on one counter: 48 bits, a wrap sets OVF. -/
def Dev.pmcAdd (d : Dev) (s k n : Nat) : Dev :=
  let v := tget d.supv.pmc 0 (8 * s + k) + n
  let d := { d with supv := { d.supv with pmc := tput d.supv.pmc 0 (8 * s + k) (v % 2 ^ 48) } }
  if v < 2 ^ 48 then d else d.setFlag (Reg.SUPV_PMC_CFG.OVF s k) true

/-- PMC_EVENT (R354): `count` events of one kind in supervisor `sup`. Reserved EVENT values count nothing. -/
def pmcEvent (sup event count : Nat) (d : Dev) : Dev :=
  if 1 ≤ event && event ≤ 13 && sup < 2 then
    (List.range 8).foldl (fun d k =>
      if d.flag (Reg.SUPV_PMC_CFG.EN sup k) && d.rd (Reg.SUPV_PMC_CFG.EVENT sup k) == event then d.pmcAdd sup k count else d) d
  else d

def execPmcEvent (sup event count : Nat) (s : State) : Host.Outcome State Fault Refusal := s.on (pmcEvent sup event count)

/-- PMC_CLEAR (R354): a write of any value to SUPV_PMC_LO clears all 48 bits. -/
def pmcClear (master sup k : Nat) (d : Dev) : Dev :=
  let (d, ok) := d.busWrite master (Reg.SUPV_PMC_LO.addr sup k) 0 15
  if ok then { d with supv := { d.supv with pmc := tput d.supv.pmc 0 (8 * sup + k) 0 } } else d

def execPmcClear (master sup counter : Nat) (s : State) : Host.Outcome State Fault Refusal := s.on (pmcClear master sup counter)

/-- PMC_READ (R354): a read of SUPV_PMC_LO latches bits 47:32 in SUPV_PMC_HI. -/
def pmcRead (master sup k : Nat) (d : Dev) : Dev :=
  let d := d.busRead master (Reg.SUPV_PMC_LO.addr sup k)
  if sup < 2 && k < 8 && d.reaches master then d.wr (Reg.SUPV_PMC_HI.COUNT sup k) (tget d.supv.pmc 0 (8 * sup + k) / 2 ^ 32) else d

def execPmcRead (master sup counter : Nat) (s : State) : Host.Outcome State Fault Refusal := s.on (pmcRead master sup counter)

end Sys2Proof.Machine
end

