-- ==== Sys2Proof/Machine/HostBus.lean ====
section
/-! DEFINITION. Mailboxes (R364 to R366), debug unlock (R362), bus event counters (R378), Ream windows (R379) and the read that
latches DEV_AMD_SEQ (R63). -/

namespace Sys2Proof.Machine

/-! ### Mailboxes -/

/-- The 256 bytes of a mailbox buffer. -/
def Dev.mbBytes (d : Dev) (m : Nat) : List Byte := (List.range 64).flatMap fun i => le 4 (d.rd (Reg.HOST_MB_BUF.DATA m i))

/-- The device with a mailbox buffer holding a message, zeros after it (R368). -/
def Dev.setMbBytes (d : Dev) (m : Nat) (b : List Byte) : Dev :=
  (List.range 64).foldl (fun (d : Dev) i => d.wr (Reg.HOST_MB_BUF.DATA m i) (fromLe (slice b (4 * i) 4))) d

/-- What POST does in one operation (R365): byte 3, SEQ, FULL, and the doorbell of the host's mailboxes (R359). -/
def Dev.postMb (d : Dev) (m master : Nat) : Dev :=
  let w := d.rd (Reg.HOST_MB_BUF.DATA m 0)
  let d := d.wr (Reg.HOST_MB_BUF.DATA m 0) (w % 2 ^ 24 + master % 256 * 2 ^ 24)
  let d := d.wr (Reg.HOST_MB_CTRL.SEQ m) (d.rd (Reg.HOST_MB_CTRL.SEQ m) + 1)
  let d := d.setFlag (Reg.HOST_MB_CTRL.FULL m) true
  if 4 ≤ m && m < 8 then d.irq (m - 4) else d

/-- Mailbox `m` is FULL. -/
def Dev.mbFull (d : Dev) (m : Nat) : Bool := d.flag (Reg.HOST_MB_CTRL.FULL m)

/-- Bytes the host has written to STAGE[m] (R366), keyed 256 m + offset. -/
def Dev.stageBytes (d : Dev) (m : Nat) : List Byte := (List.range 256).map fun i => tget d.host.stage 0 (256 * m + i)

/-- Posted writes of the host to STAGE[m]. -/
def Dev.writeStage (d : Dev) (m : Nat) (ws : List (Nat × Byte)) : Dev :=
  ws.foldl (fun (d : Dev) w =>
    if w.1 < 256 then { d with host := { d.host with stage := tput d.host.stage 0 (256 * m + w.1) w.2 } } else d) d

/-- MB_SUBMIT (R366): posted writes to STAGE, then the read of HOST_MB_SUBMIT: a FULL mailbox aborts it, in class error; else the
message is in the mailbox and the read gives its SEQ. Other masters read zero. -/
def mbSubmit (master mb : Nat) (writes : List (Nat × Byte)) (d : Dev) : Dev :=
  let a := Reg.HOST_MB_SUBMIT.addr mb
  if master = 0x01 && decide (mb < 4) then
    if d.host.pcieLink then
      let d := d.writeStage mb writes
      if d.mbFull mb then (d.becCount master a .error).out (.busError master a)
      else
        let d := (d.setMbBytes mb (d.stageBytes mb)).postMb mb master
        let d := (d.setFlag (Reg.HOST_MB_SUBMIT.ACCEPTED mb) true).wr (Reg.HOST_MB_SUBMIT.SEQ mb) (d.rd (Reg.HOST_MB_CTRL.SEQ mb))
        d.busRead master a
    else d
  else d.busRead master a

def execMbSubmit (master mb : Nat) (writes : List (Nat × Byte)) (s : State) : Host.Outcome State Fault Refusal :=
  s.on (mbSubmit master mb writes)

/-- A write that is answered with a bus error: by the sender to a FULL mailbox (R365). -/
def Dev.fullError (d : Dev) (m a v : Nat) : Dev := if d.fullMailbox m a v then d.out (.busError m a) else d

/-- MB_POST (R365). -/
def mbPost (master mb : Nat) (d : Dev) : Dev :=
  let a := Reg.HOST_MB_CTRL.addr mb
  let d := d.fullError master a (2 ^ 30)
  let (d, ok) := d.busWrite master a (2 ^ 30) 15
  if ok then d.postMb mb master else d

def execMbPost (master mb : Nat) (s : State) : Host.Outcome State Fault Refusal := s.on (mbPost master mb)

/-- The channel whose replies stand in a mailbox (R364, R370): 0 to 3 the host's, 4 the debug path. -/
def replyChan (m : Nat) : Option Nat := if 4 ≤ m ∧ m < 8 then some (m - 4) else if m = 14 ∨ m = 15 then some 4 else none

/-- A channel. -/
def Dev.chan (d : Dev) (ch : Nat) : Chan := tget d.host.chans Chan.zero ch

/-- The device with a channel replaced. -/
def Dev.setChan (d : Dev) (ch : Nat) (c : Chan) : Dev := { d with host := { d.host with chans := tput d.host.chans Chan.zero ch c } }

/-- A mailbox set EMPTY (R365); a reply that waits for it is posted by the ACTIVE supervisor. -/
def Dev.releaseMb (d : Dev) (m : Nat) : Dev :=
  let d := d.setFlag (Reg.HOST_MB_CTRL.FULL m) false
  match replyChan m, d.activeSup with
  | some ch, some s =>
    let c := d.chan ch
    if c.outbox.isEmpty || (ch == 4 && c.port != m) then d else ((d.setChan ch { c with outbox := [] }).setMbBytes m c.outbox).postMb m (supMaster s)
  | _, _ => d

/-- MB_RELEASE (R365). -/
def mbRelease (master mb : Nat) (d : Dev) : Dev :=
  let (d, ok) := d.busWrite master (Reg.HOST_MB_CTRL.addr mb) (2 ^ 29) 15
  if ok && decide (mb < 16) then d.releaseMb mb else d

def execMbRelease (master mb : Nat) (s : State) : Host.Outcome State Fault Refusal := s.on (mbRelease master mb)

/-! ### Debug (R362) -/

/-- The device is unprovisioned (R41). -/
def Dev.unprovisioned (d : Dev) : Bool := d.boot.fuses.ownerHash.all fun b => b == 0

/-- The realm owner's key (R57, R362): OWNER_KEY of the loaded image, in recovery the key whose hash is fused. -/
def Dev.ownerKey (d : Dev) : Option (List Byte) :=
  if d.boot.recovery then some (Config.keyOfHash d.boot.fuses.ownerHash) else d.boot.loaded.map fun l => l.hdr.ownerKey

/-- A challenge word set. -/
def Dev.setChallenge (d : Dev) (b : List Byte) : Dev :=
  (List.range 8).foldl (fun (d : Dev) i => d.wr (Reg.HOST_DBG_CHAL.DATA i) (fromLe (slice b (4 * i) 4))) d

/-- The eight challenge words as bytes. -/
def Dev.challenge (d : Dev) : List Byte := (List.range 8).flatMap fun i => le 4 (d.rd (Reg.HOST_DBG_CHAL.DATA i))

/-- DEBUG_CHALLENGE_READ (R362): the debug master's read of word 0 replaces the challenge, unless a failed check blocks it. -/
def challengeRead (master word : Nat) (d : Dev) : Dev :=
  let d := if master = 0x20 && word = 0 && d.host.dbgBlock.isNone then
      let (v, d) := d.freeNat
      ({ d with host := { d.host with dbgChal := true } }).setChallenge (le 32 v)
    else d
  d.busRead master (Reg.HOST_DBG_CHAL.addr word)

def execDebugChallengeRead (master word : Nat) (s : State) : Host.Outcome State Fault Refusal := s.on (challengeRead master word)

/-- The response answers the challenge: by the owner key, over the challenge, the realm and the device number. -/
def Dev.responseOk (d : Dev) : Bool :=
  d.host.dbgChal && !d.unprovisioned &&
    match d.ownerKey with
    | some k => ed25519Verify k (d.challenge ++ le 4 d.boot.fuses.realm ++ le 2 d.boot.fuses.devnum)
        ((List.range 16).flatMap fun i => le 4 (d.rd (Reg.HOST_DBG_RESP.DATA i)))
    | none => false

/-- What CHECK does (R362). -/
def Dev.checkDebug (d : Dev) : Dev :=
  if d.responseOk then
    let d := (d.setFlag Reg.HOST_DBG_CTRL.UNLOCKED true).setPeer Reg.HOST_PEER_ALIVE.DBG_UNLOCKED true
    d.log 0xC001 0 (d.regData Reg.HOST_DBG_CTRL.addr)
  else
    let d := ({ d with host := { d.host with dbgChal := false, dbgBlock := some d.now } }).setChallenge (le 32 0)
    d.log 0xC002 0 (d.regData Reg.HOST_DBG_CTRL.addr)

/-- DEBUG_CHECK (R362). -/
def debugCheck (master : Nat) (d : Dev) : Dev :=
  let (d, ok) := d.busWrite master Reg.HOST_DBG_CTRL.addr 1 15
  if ok then d.checkDebug else d

def execDebugCheck (master : Nat) (s : State) : Host.Outcome State Fault Refusal := s.on (debugCheck master)

/-- What LOCK does (R362). -/
def Dev.lockDebug (d : Dev) : Dev := (d.setFlag Reg.HOST_DBG_CTRL.UNLOCKED false).setPeer Reg.HOST_PEER_ALIVE.DBG_UNLOCKED false

/-- DEBUG_LOCK (R362). -/
def debugLock (master : Nat) (d : Dev) : Dev :=
  let (d, ok) := d.busWrite master Reg.HOST_DBG_CTRL.addr 2 15
  if ok then d.lockDebug else d

def execDebugLock (master : Nat) (s : State) : Host.Outcome State Fault Refusal := s.on (debugLock master)

/-- DEBUG_BLOCK_EXPIRY (R362): one second after a failed check. -/
def blockExpiry (d : Dev) : Dev :=
  match d.host.dbgBlock with
  | some t => if t + 10 ^ 9 ≤ d.now then { d with host := { d.host with dbgBlock := none } } else d
  | none => d

def execDebugBlockExpiry (s : State) : Host.Outcome State Fault Refusal := s.on blockExpiry

/-! ### Bus event counters (R378) -/

/-- What HOST_BEC_CMD does: CLR the count, CLR_OVF the OVF bit. -/
def Dev.becCmd (d : Dev) (k v : Nat) : Dev :=
  let d := if v.testBit 0 then { d with host := { d.host with bec := tput d.host.bec 0 k 0 } } else d
  if v.testBit 1 then d.setFlag (Reg.HOST_BEC_HI.OVF k) false else d

/-- A write of HOST_BEC_CMD: the command acts before the access is counted (R363). -/
def Dev.becWrite (d : Dev) (master k v : Nat) : Dev :=
  let a := Reg.HOST_BEC_CMD.addr k
  let c := d.classify master a true v 15
  let n := if d.writeActs master a v 15 && d.privileged master then d.becCmd k v else d
  if d.reaches master then n.becCount master a c else d

/-- BEC_CLR (R378). -/
def execBecClr (master counter : Nat) (s : State) : Host.Outcome State Fault Refusal := s.on fun d => Dev.becWrite d master counter 1

/-- BEC_CLR_OVF (R378). -/
def execBecClrOvf (master counter : Nat) (s : State) : Host.Outcome State Fault Refusal := s.on fun d => Dev.becWrite d master counter 2

/-- BEC_READ (R378): the value before the read's own count, whose bits 47:32 are latched. -/
def becRead (master k : Nat) (d : Dev) : Dev :=
  let v := tget d.host.bec 0 k
  let e := d.busRead master (Reg.HOST_BEC_LO.addr k)
  if k < 16 && d.reaches master then e.wr (Reg.HOST_BEC_HI.COUNT k) (v / 2 ^ 32) else e

def execBecRead (master counter : Nat) (s : State) : Host.Outcome State Fault Refusal := s.on (becRead master counter)

/-! ### Ream windows (R379) -/

/-- The counter and instance a counter ID names. -/
def Dev.counterOf (d : Dev) (id : Nat) : Option (Ctr × Nat) :=
  match d.host.dir.find? fun e => e.1 == id / 2 ^ 20 with
  | none => none
  | some e =>
    match ctrRow e.2 with
    | some r => if id % 2 ^ 20 < scopeSize r.2.2 then some (r.1, id % 2 ^ 20) else none
    | none => none

/-- The value of a counter: frames_in_flight is a gauge (R387). -/
def Dev.ctrValue (d : Dev) (c : Ctr) (i : Nat) : Nat := if c = .framesInFlight then d.inFlight.toNat else d.ctr c i

/-- OVF of a counter. -/
def Dev.ctrFlag (d : Dev) (c : Ctr) (i : Nat) : Bool := tget d.ctrOvf false (c.key i)

/-- What REAM_WIN_CMD does to the selected counter: CLR, CLR_OVF. -/
def Dev.reamCmd (d : Dev) (w v : Nat) : Dev :=
  match d.counterOf (d.rd (Reg.REAM_WIN_SEL.ID w)) with
  | none => d
  | some (c, i) =>
    let d := if v.testBit 0 then { d with ctrs := tput d.ctrs 0 (c.key i) 0 } else d
    if v.testBit 1 then { d with ctrOvf := tput d.ctrOvf false (c.key i) false } else d

/-- A write of REAM_WIN_CMD. -/
def Dev.reamWrite (d : Dev) (master w v : Nat) : Dev :=
  let p := d.privileged master
  let (d, ok) := d.busWrite master (Reg.REAM_WIN_CMD.addr w) v 15
  if ok && p && decide (w < 8) then d.reamCmd w v else d

/-- REAM_WIN_CLR (R379). -/
def execReamWinClr (master window : Nat) (s : State) : Host.Outcome State Fault Refusal := s.on fun d => Dev.reamWrite d master window 1

/-- REAM_WIN_CLR_OVF (R379). -/
def execReamWinClrOvf (master window : Nat) (s : State) : Host.Outcome State Fault Refusal := s.on fun d => Dev.reamWrite d master window 2

/-- What REAM_WIN_LO shows, and what a read of it latches: low word, high word, OVF, NONE. -/
def Dev.window (d : Dev) (w : Nat) : Nat × Nat × Bool × Bool :=
  match d.counterOf (d.rd (Reg.REAM_WIN_SEL.ID w)) with
  | some (c, i) => (d.ctrValue c i % 2 ^ 32, d.ctrValue c i / 2 ^ 32, d.ctrFlag c i, false)
  | none => (0, 0, false, true)

/-- REAM_WIN_READ (R379): the counter at this instant; HI and FLAG are latched. -/
def reamRead (master w : Nat) (d : Dev) : Dev :=
  let (lo, hi, ovf, none_) := d.window w
  let e := d.busReadW master (Reg.REAM_WIN_LO.addr w) (BitVec.ofNat 32 lo)
  if w < 8 && d.reaches master then
    ((e.wr (Reg.REAM_WIN_HI.COUNT w) hi).setFlag (Reg.REAM_WIN_FLAG.OVF w) ovf).setFlag (Reg.REAM_WIN_FLAG.NONE w) none_
  else e

def execReamWinRead (master window : Nat) (s : State) : Host.Outcome State Fault Refusal := s.on (reamRead master window)

/-- AMD_SEQ_READ (R63): a read of DEV_AMD_SEQ_LO latches DEV_AMD_SEQ_HI. -/
def amdSeqRead (master : Nat) (d : Dev) : Dev :=
  let e := d.busRead master Reg.DEV_AMD_SEQ_LO.addr
  if d.reaches master then e.wr Reg.DEV_AMD_SEQ_HI.SEQ (d.boot.amdSeq / 2 ^ 32) else e

def execAmdSeqRead (master : Nat) (s : State) : Host.Outcome State Fault Refusal := s.on (amdSeqRead master)

end Sys2Proof.Machine
end

