-- ==== Sys2Proof/Machine/RegWrite.lean ====
section
/-! DEFINITION. A write to a register by a master, with all it sets going (R15, R16, R363, R424), and the register write record
of an image (R51); and the firmware audit, which writes registers back (R352, R353). -/

namespace Sys2Proof.Machine

/-- The commands that a write starts through the W1S fields of a register (R15), and writes that act elsewhere than in the
register file. `v` is the value written by master `m`. -/
def Dev.commandBits (d : Dev) (m a v : Nat) : Dev :=
  match findReg a with
  | none => d
  | some (r, ix) =>
    let i := ix.headD 0
    let j := (ix[1]?).getD 0
    let p := d.privileged m
    match r.name with
    | "PARS_STORE_SEL" => if p && v.testBit 31 then d.readStore i else d
    | "FABR_ROT" => if p && v.testBit 31 then d.startRotation (v % 16) else d
    | "SUPV_PAIR_CTRL" => if p && v.testBit 31 then d.forcedSwitch else d
    | "SUPV_LOG_CFG" => if v.testBit 31 then d.clearLog m else d
    | "SUPV_LOG_PUT" => if j = 15 then d.submit (d.stagedRec i) else d
    | "SUPV_HB" => if d.supRuns i then d.heartbeat i else d
    | "SUPV_PMC_LO" => { d with supv := { d.supv with pmc := tput d.supv.pmc 0 (8 * i + j) 0 } }
    | "HOST_DBG_CTRL" =>
      let d := if v.testBit 0 then d.checkDebug else d
      if v.testBit 1 then d.lockDebug else d
    | "HOST_MB_CTRL" =>
      let d := if v.testBit 30 then d.postMb i m else d
      if v.testBit 29 then d.releaseMb i else d
    | "REAM_WIN_CMD" => if p then d.reamCmd i v else d
    | _ => d

/-- Bits that hardware sets in SUPV_ALM or HOST_INT_STATUS in the cycle of a write raise what such a bit raises (R341, R359). -/
def Dev.hwSetActs (d : Dev) (a : Nat) (old : Word) (hw : Word) : Dev :=
  if a = Reg.SUPV_ALM.addr then if hw &&& ~~~old = 0 then d else d.irq 4
  else if a = Reg.HOST_INT_STATUS.addr then
    (List.range 7).foldl (fun (d : Dev) k =>
      if hw.getLsbD k && !old.getLsbD k && d.bitOf Reg.HOST_INT_STATUS.MSI_EN k then d.out (.msix k) else d) d
  else d

/-- What hardware sets in a register in the cycle of a write to it: W1C bits, and an event of a CNT field (R363). -/
def hwWord (r : RDecl) (hw : Nat) : Word :=
  r.fields.foldl (fun w f => if f.acc = .w1c || f.acc = .cnt then fput w f.lo f.width (fget (BitVec.ofNat 32 hw) f.lo f.width) else w) 0

/-- The write of a whole register that reaches it: fields, commands, and what the new value sets going. -/
def Dev.putReg (d : Dev) (m a v : Nat) (hw : Word) : Dev :=
  let old := d.reg a
  let d := d.writeReg (d.privileged m) a (BitVec.ofNat 32 v) hw
  ((d.commandBits m a v).hwSetActs a old hw).regWritten a old

/-- REGISTER_WRITE (R15, R26, R363): a write of a master, with byte enables, and the bits hardware sets in the same cycle, which
it sets whatever becomes of the write. -/
def registerWrite (master addr value byteEn hwSet : Nat) (d : Dev) : Dev :=
  match findReg addr with
  | none => (d.busWrite master addr value byteEn).1
  | some (r, ix) =>
    let hw := hwWord r hwSet
    if r.name = "HOST_BEC_CMD" && byteEn = 15 then d.becWrite master (ix.headD 0) value
    else
      let d := d.fullError master addr value
      let (d, ok) := d.busWrite master addr value byteEn
      if ok then d.putReg master addr value hw
      else
        let old := d.reg addr
        (d.setReg addr (old ||| hw)).hwSetActs addr old hw

def execRegisterWrite (master addr value byteEn hwSet : Nat) (s : State) : Host.Outcome State Fault Refusal :=
  s.on (registerWrite master addr value byteEn hwSet)

/-! ### The register write record (R51) -/

/-- Names of registers a record may start a command of (R51). -/
def recordCommand (name : String) : Bool := name == "HOST_BEC_CMD" || name == "REAM_WIN_CMD" || name == "PARS_STORE_SEL"

/-- A block set that a record would give to a second pipeline (R168, R197). -/
def Dev.blockTwice (d : Dev) (name : String) (p v : Nat) : Bool :=
  let other (f : Nat → Nat) : Bool := [0, 1, 2, 3].any fun q => q != p && v &&& d.rd ⟨f q, 0, 32⟩ != 0
  match name with
  | "STRM_BLOCKS_LO" => other Reg.STRM_BLOCKS_LO.addr
  | "STRM_BLOCKS_HI" => other Reg.STRM_BLOCKS_HI.addr
  | "STRM_RC_BLOCKS_LO" => other Reg.STRM_RC_BLOCKS_LO.addr
  | "STRM_RC_BLOCKS_HI" => other Reg.STRM_RC_BLOCKS_HI.addr
  | _ => false

/-- An identification entry of a pipeline is of METHOD 3 with an IP profile (R170). -/
def Dev.profileUsed (d : Dev) (p k : Nat) : Bool :=
  d.strm.ids.any fun e => e.1 / 2 ^ 16 == p && !e.2.bytes.isEmpty && idField e.2.bytes 0 1 == 3 && idField e.2.bytes 1 1 == k

/-- The register value a record leaves is one its owning rule refuses (R168, R170, R197, R289, R403). -/
def Dev.valueRefused (d : Dev) (r : RDecl) (ix : List Nat) (v : Nat) : Bool :=
  let i := ix.headD 0
  let w := BitVec.ofNat 32 v
  match r.name with
  | "STRM_IP_PROFILE" => d.profileUsed i ((ix[1]?).getD 0) && w != d.reg (Reg.STRM_IP_PROFILE.addr i ((ix[1]?).getD 0))
  | "PWCK_RAIL_BUDGET" => decide (fget w 0 10 < d.railGranted i) || decide (fget w 0 10 < fget w 16 10)
  | "EGRS_GATE_LIST" => decide (8192 < fget w 0 13 + min 1024 (fget w 16 11))
  | n => d.blockTwice n i v

/-- The word a register takes from a record (R51): touched RW and WO fields under the mask, W1C and CNT as they act. -/
def recordWord (r : RDecl) (old : Word) (mask value : Nat) : Word :=
  r.fields.foldl (fun w f =>
    let m := fget (BitVec.ofNat 32 mask) f.lo f.width
    let v := fget (BitVec.ofNat 32 value) f.lo f.width &&& m
    let o := fget old f.lo f.width
    match f.acc with
    | .rw => fput w f.lo f.width (clampRng f.rng ((o &&& (m ^^^ (2 ^ f.width - 1))) ||| v))
    | .w1c => if m = 0 then w else fput w f.lo f.width (o &&& (v ^^^ (2 ^ f.width - 1)))
    | .wo => if m = 0 then w else fput w f.lo f.width v
    | .cnt => if m = 0 then w else fput w f.lo f.width 0
    | .ro => w
    | .w1s => w) old

/-- Some RW field of the value the record gives is brought into its range (R424). -/
def recordClamped (r : RDecl) (old : Word) (mask value : Nat) : Bool :=
  r.fields.any fun (f : RField) =>
    let m := fget (BitVec.ofNat 32 mask) f.lo f.width
    let v := (fget old f.lo f.width &&& (m ^^^ (2 ^ f.width - 1))) ||| (fget (BitVec.ofNat 32 value) f.lo f.width &&& m)
    f.acc = Acc.rw && clampRng f.rng v ≠ v

/-- The W1S bits a record touches and sets. -/
def recordBits (r : RDecl) (mask value : Nat) : Nat :=
  (r.fields.foldl (fun w f => if f.acc = .w1s then fput w f.lo f.width (fget (BitVec.ofNat 32 (mask &&& value)) f.lo f.width) else w)
    (0 : Word)).toNat

/-- A record is refused for its address, or for a W1S field it touches (R51). -/
def Dev.recordRefused (d : Dev) (a mask : Nat) : Bool :=
  match findReg a with
  | none => true
  | some (r, _) =>
    a % 4 != 0 || (decide (0x10000 ≤ a) && decide (a < 0x20000)) || (decide (0x06200000 ≤ a) && decide (a < 0x06210000)) ||
      (decide (0x0C100000 ≤ a) && decide (a < 0x0C110000)) ||
      ["HOST_DBG_CTRL", "HOST_DBG_CHAL", "HOST_DBG_RESP"].contains r.name || d.boot.latched.contains a ||
      (!recordCommand r.name && r.fields.any fun f => f.acc = .w1s && fget (BitVec.ofNat 32 mask) f.lo f.width != 0)

/-- The effect of a register write record that is not refused, as master 0x1F (R51): the access is counted (R378), the fields
written, the commands it starts run to their end, and what the value sets going follows. -/
def Dev.writeRecord (d : Dev) (a mask value : Nat) : Dev :=
  match findReg a with
  | none => d
  | some (r, ix) =>
    let old := d.reg a
    let bits := recordBits r mask value
    if r.name = "HOST_BEC_CMD" then d.becWrite 0x1F (ix.headD 0) bits
    else
      let d := d.becCount 0x1F a .write
      let touched (f : RField) : Bool := f.acc = .cnt && fget (BitVec.ofNat 32 mask) f.lo f.width != 0
      let d := if r.fields.any touched then d.commandBits 0x1F a 0 else d
      let d := d.setReg a (recordWord r old mask value)
      let d := match portOfAddr a with
        | some n => if r.fields.any (fun (f : RField) => f.acc = Acc.rw) then d.setFlag (Reg.PORT_STATUS.CFG_CLAMP n) (recordClamped r old mask value) else d
        | none => d
      (if bits = 0 then d else d.commandBits 0x1F a bits).regWritten a old

/-- A register write record of an image (R51): none where it is refused. -/
def Dev.loadReg (d : Dev) (a mask value : Nat) : Option Dev :=
  if d.recordRefused a mask then none
  else
    match findReg a with
    | none => none
    | some (r, ix) =>
      if d.valueRefused r ix (recordWord r (d.reg a) mask value).toNat then none else some (d.writeRecord a mask value)

/-! ### Firmware audit (R352, R353) -/

/-- The bits of a register that the audit covers: its RW and RW/P fields. A mailbox buffer holds messages and no configuration. -/
def auditMask (a : Nat) : Word :=
  match findReg a with
  | none => 0
  | some (r, _) => if r.name = "HOST_MB_BUF" then 0 else r.fields.foldl (fun w f => if f.acc = .rw then fput w f.lo f.width (2 ^ f.width - 1) else w) 0

/-- The hash seed registers (R52). -/
def isSeed (a : Nat) : Bool :=
  match findReg a with
  | none => false
  | some (r, _) => r.name == "LKUP_HASH_SEED0" || r.name == "LKUP_HASH_SEED1" || r.name == "STRM_ID_SEED" ||
      r.name == "SEAL_CTX_SEED" || r.name == "STRM_RN_SEED"

/-- Policy of the zone of an address (R353); 0b11 acts as 0b01. -/
def Dev.auditPolicy (d : Dev) (zone : Nat) : Nat := d.rd Reg.SUPV_AUDIT_POLICY.ZONE / 4 ^ zone % 4

/-- A mismatch reported (R352): log, count, ALM0. -/
def Dev.auditReport (d : Dev) (a ref found : Nat) (repaired : Bool) : Dev :=
  let d := d.logFrom d.supOrigin 0xB020 ((d.activeSup).getD 0) (le 4 a ++ le 4 ref ++ le 4 found ++ le 1 (if repaired then 1 else 0))
  (d.cnt .auditMismatch 0).alarm 0 3

/-- One register compared with its reference (R352) and repaired under the zone policy (R353). -/
def Dev.auditReg (d : Dev) (a : Nat) : Dev :=
  let m := auditMask a
  let ref := tget d.supv.refRegs (resetOf a) a &&& m
  let found := d.reg a &&& m
  let pol := d.auditPolicy (a / 2 ^ 24)
  if ref = found || pol = 0 then d
  else if pol = 2 && !isSeed a then
    let master := supMaster ((d.activeSup).getD 0)
    let old := d.reg a
    let d := ((d.becCount master a .write).setReg a ((old &&& ~~~m) ||| ref)).regWritten a old
    (d.cnt .auditRepair 0).auditReport a ref.toNat found.toNat true
  else d.auditReport a ref.toNat found.toNat false

/-- One table word compared with its reference. The address a record shows for a table word is the model's key of it. -/
def Dev.auditTab (d : Dev) (k : Nat) (dflt : Word) : Dev :=
  let ref := tget d.supv.refTabs dflt k
  let found := tget d.tabs dflt k
  let pol := d.auditPolicy (k / 16 / 2 ^ 17 / 2 ^ 12)
  if ref = found || pol = 0 then d
  else if pol = 2 then
    let d := { d with tabs := tput d.tabs dflt k ref }
    (d.cnt .auditRepair 0).auditReport k ref.toNat found.toNat true
  else d.auditReport k ref.toNat found.toNat false

/-- Keys of a table of words that are listed on either side. -/
def keysOf (a b : Tab Word) : List Nat := (a.map (·.1)) ++ ((b.map (·.1)).filter fun k => !(a.map (·.1)).contains k)

/-- FIRMWARE_AUDIT (R352): every listed register and table word against its reference. `upsets` are the bits that faults have
flipped in configuration registers, as (address, mask). A comparison between a commit edge and the end of its cleanup is
discarded. -/
def firmwareAudit (upsets : List (Nat × Nat)) (d : Dev) : Dev :=
  let d := upsets.foldl (fun d u => d.setReg u.1 (d.reg u.1 ^^^ BitVec.ofNat 32 u.2)) d
  if d.supRunning && d.boot.cleanup.isEmpty && d.boot.released then
    let d := (keysOf d.regs d.supv.refRegs).foldl Dev.auditReg d
    let d := (keysOf d.tabs d.supv.refTabs).foldl (fun d k => d.auditTab k (tabReset k)) d
    let d := { d with supv := { d.supv with mgmt := { d.supv.mgmt with auditPos := 0 } } }
    d.cnt .auditPasses 0
  else d

def execFirmwareAudit (upsets : List (Nat × Nat)) (s : State) : Host.Outcome State Fault Refusal := s.on (firmwareAudit upsets)

end Sys2Proof.Machine
end

