-- ==== Sys2Proof/Machine/Live.lean ====
section
/-! DEFINITION. What a read of a register shows where hardware computes it: live counts of tables, queues, engines, tokens and
domains beside those of `Dev.view` (R15), and zero in RO fields of a switched-off group (R409); and the effects of a read. -/

namespace Sys2Proof.Machine

/-- A count shown in a field of `wd` bits, saturating. -/
def satField (wd n : Nat) : Nat := min n (2 ^ wd - 1)

/-- PARS_STATUS (chapter 05): the customer half selected and the park slots in use. -/
def Dev.parsStatus (d : Dev) (p : Nat) (w : Word) : Word :=
  fput (fput w 0 8 (d.path.frames.filter fun f => f.pipe == p && f.stage == .parked).length) 30 1 (tget d.beat.half 0 p)

/-- PORT_GRP_STATUS.MODE_ACTIVE (R69): the mode in effect of unit `u`. -/
def Dev.modeShown (d : Dev) (u : Nat) : Nat :=
  let m := d.portMode (if u < 64 then 4 * u else 192 + u)
  if m ≤ 11 then m else 0

/-- PORT_STATUS.FEC_ACTIVE (R70): as auto-negotiation resolved it, else as configured or chosen. -/
def Dev.fecShown (d : Dev) (n : Nat) : Nat :=
  if d.flag (Reg.PORT_CFG.AN_EN n) && d.flag (Reg.PORT_STATUS.AN_DONE n) then d.rd (Reg.PORT_STATUS.FEC_ACTIVE n) else d.portFec n

/-- Slots of a pipeline's address table that hold learned (true) or static entries. -/
def Dev.addrCount (d : Dev) (p : Nat) (learned : Bool) : Nat :=
  (d.look.slots.filter fun e => e.1 / 2 ^ 21 == p && e.2.valid && (e.2.typ == 0) == learned).length

/-- Identification entries a pipeline holds, staged ones included (R168). -/
def Dev.idList (d : Dev) (p : Nat) : List (List Byte) :=
  (d.strm.ids.filter fun e => e.1 / 2 ^ 16 == p && !e.2.bytes.isEmpty).map fun e => e.2.bytes

/-- STRM_ID_COUNT (chapter 07). -/
def Dev.idCounts (d : Dev) (p : Nat) : Word :=
  let l := d.idList p
  let has (m : Nat) : Nat := if l.any fun b => idField b 0 1 == m then 1 else 0
  let prof (k : Nat) : Nat := if l.any fun b => idField b 0 1 == 3 && idField b 1 1 == k then 2 ^ k else 0
  fput (fput (fput (fput 0 0 8 (has 1)) 8 8 (has 0)) 16 8 (has 2)) 24 8 (prof 0 + prof 1 + prof 2 + prof 3)

/-- VALID contexts a pipeline owns (R197): loaded ones and those the device allocated. -/
def Dev.rcInUse (d : Dev) (p : Nat) : Nat :=
  let t := 0x5100 + 0x10 * p
  let loaded := (d.tabIndices t 65536).filter fun c => d.ctxValid p c && d.rcOwner c == some p
  let own := d.red.ctxs.filter fun e => e.2.alloc.isSome && d.rcOwner e.1 == some p && !loaded.contains e.1
  loaded.length + own.length

/-- Engines of a cluster that are busy (R228): Ed25519 (true) or HMAC. -/
def Dev.clusterBusy (d : Dev) (c : Nat) (ed : Bool) : Nat :=
  (d.path.frames.filter fun f => match f.stage with
    | .verifying k e => k == ed && e / (if ed then 8 else 4) == c
    | _ => false).length

/-- Cells in pending chains of a bank (R237). -/
def Dev.pendingCells (d : Dev) (p : Nat) : Nat :=
  (d.path.frames.filter fun f => f.pipe == p && f.pend).foldl (fun a (f : Frame) => a + f.cells.length) 0

/-- FABR_GRP_COUCH (chapter 11). -/
def Dev.couchStatus (d : Dev) (g : Nat) : Word :=
  let gaps := (d.fab.gaps.filter fun e => e.1 % 64 == g && e.2.at_ != 0).length
  let reasm := (d.path.copies.filter fun c => c.arrived != 0 && !c.last && dstGroup c.dst == g).length
  fput (fput 0 0 8 (satField 8 reasm)) 24 8 (satField 8 gaps)

/-- FABR_VOQ_STATUS (chapter 11): head frames of a pipeline waiting for credit and holding credit. -/
def Dev.voqStatus (d : Dev) (p : Nat) : Word :=
  let heads := d.path.copies.filter fun c => c.pipe == p && d.isHead c
  let wait := (heads.filter fun c => c.want.isSome).length
  let have_ := (heads.filter fun c => c.held != 0).length
  fput (fput 0 0 16 (satField 16 have_)) 16 16 (satField 16 wait)

/-- EGRS_Q_STATUS (chapter 12). -/
def Dev.queueStatus (d : Dev) (n c : Nat) : Word :=
  let q := d.path.copies.filter fun k => k.dst == n && k.cls == c && k.queued
  let neg := d.bitOf (Reg.EGRS_PORT_SCHED.CBS_EN n) c && decide (d.cbsCredit n c < 0)
  fput (fput (fput 0 0 16 (satField 16 q.length)) 16 11 (q.foldl (fun a (k : Copy) => a + k.staged) 0)) 31 1 (if neg then 1 else 0)

/-- PWCK_RAIL_STATUS (chapter 17). -/
def Dev.railStatus (d : Dev) (r : Nat) : Word :=
  let waits := (d.power.waiting.filter fun q => q.tokens.any fun t => t.1 == r).length
  let ramping := if d.now < tget d.power.slotFree 0 r then 1 else 0
  fput (fput (fput (fput 0 0 10 (d.railGranted r)) 16 10 (d.reserve r)) 26 5 (satField 5 waits)) 31 1 ramping

/-- PWCK_DOM_STATUS (chapter 17). -/
def Dev.domStatus (d : Dev) (h : Nat) (w : Word) : Word :=
  let mine := d.power.holds.filter fun x => x.holder == h
  let level := match mine.getLast? with | some x => x.level | none => 0
  let waits := d.power.waiting.any fun q => q.holder == h
  fput (fput (fput w 0 10 (mine.foldl (fun a (x : TokHold) => a + tokensOn x.tokens 0) 0)) 27 1 (if waits then 1 else 0)) 28 2 level

/-- Port and class of an EGRS register's index values (R27). -/
def egrsIndex (ix : List Nat) : Nat × Nat :=
  match ix with
  | [g, k, c] => (4 * g + k, c)
  | [k, c] => (256 + k, c)
  | _ => (0, 0)

/-- The SerDes group whose domain an address of zone PORT belongs to (R29). -/
def groupOfAddr (a : Nat) : Option Nat := if 0x01000000 ≤ a ∧ a < 0x01400000 then some ((a - 0x01000000) / 0x10000) else none

/-- RO fields of a unit whose domain is off read zero (R409). -/
def Dev.hideOff (d : Dev) (a : Nat) (r : RDecl) (w : Word) : Word :=
  match groupOfAddr a with
  | some g =>
    if d.rd (Reg.PWCK_DOM_STATUS.STATE g) = 2 then w
    else r.fields.foldl (fun w (f : RField) => if f.acc = Acc.ro then fput w f.lo f.width 0 else w) w
  | none => w

/-- The word a register shows to a reader: stored fields and every field that hardware computes. -/
def Dev.liveView (d : Dev) (a : Nat) : Word :=
  match findReg a with
  | none => 0
  | some (r, ix) =>
    let i := ix.headD 0
    let w := d.view a
    d.hideOff a r <| match r.name with
    | "REAM_WIN_LO" => BitVec.ofNat 32 (d.window i).1
    | "PARS_STATUS" => d.parsStatus i w
    | "PORT_STATUS" => match portOfAddr a with | some n => fput w 18 2 (d.fecShown n) | none => w
    | "PORT_GRP_STATUS" => fput w 0 4 (d.modeShown i)
    | "LKUP_TBL_STATUS" => fput w 0 11 (tget d.look.learnQ [] i).length
    | "LKUP_TBL_COUNT" => fput w 0 22 (d.addrCount i true)
    | "LKUP_TBL_STATIC" => fput w 0 19 (d.addrCount i false)
    | "STRM_STATUS" =>
      fput (fput w 0 8 (satField 8 (d.path.frames.filter fun f => f.pipe == i && f.stage == .filter && f.whole && !f.ended).length))
        8 17 (d.idList i).length
    | "STRM_ID_COUNT" => d.idCounts i
    | "STRM_RN_STATUS" => fput w 0 17 (d.red.nodes.filter fun e => e.2.valid).length
    | "STRM_RC_STATUS" => fput w 0 17 (d.rcInUse i)
    | "SEAL_CTX_STATUS" => fput w 0 15 (d.deck.ctxs.filter fun e => e.2.valid).length
    | "SEAL_CLU_STATUS" => fput (fput w 0 4 (d.clusterBusy i true)) 8 4 (d.clusterBusy i false)
    | "BUFF_BANK_STATUS" => fput w 0 19 (d.bank i).freeCells
    | "BUFF_BANK_PEND" => fput w 0 19 (d.pendingCells i)
    | "BUFF_HBM_STATUS" => if tget d.vat.ueAt 0 i + 10 ^ 9 ≤ d.now then fput w 0 8 0 else w
    | "BUFF_ICOUNT" => fput w 0 19 (d.ic (portOf i ((ix[1]?).getD 0)) ((ix[2]?).getD 0))
    | "FABR_GRP_COUCH" => d.couchStatus i
    | "FABR_VOQ_STATUS" => d.voqStatus i
    | "EGRS_Q_STATUS" => let e := egrsIndex ix; d.queueStatus e.1 e.2
    | "PWCK_RAIL_STATUS" => d.railStatus i
    | "PWCK_DOM_STATUS" => d.domStatus i w
    | _ => w

/-- A read of a register by a master with what the read itself does (R63, R307, R328, R354, R378, R379). -/
def Dev.readActs (d : Dev) (m a : Nat) : Dev :=
  match findReg a with
  | none => d.busReadW m a 0
  | some (r, ix) =>
    let i := ix.headD 0
    match r.name with
    | "TIO_CAP_NS" => tioCapRead m i d
    | "TIME_TB_NS" => tbTimeRead m i false d
    | "TIME_TB_PNS" => tbTimeRead m i true d
    | "SUPV_PMC_LO" => pmcRead m i ((ix[1]?).getD 0) d
    | "HOST_BEC_LO" => becRead m i d
    | "REAM_WIN_LO" => reamRead m i d
    | "DEV_AMD_SEQ_LO" => amdSeqRead m d
    | _ => d.busReadW m a (d.liveView a)

end Sys2Proof.Machine
end

