-- ==== Sys2Proof/Machine/Flollina.lean ====
section
/-! DEFINITION. The Flollina protocol (R368 to R375, R337, R351): channels, taking a request, replies on mailboxes and on MG0 and
MG1, and every request but AMEND_SUBMIT and IMAGE_STORE; DMA and the snapshot window (R376, R380); the PCI Express function
(R356, R358). -/

namespace Sys2Proof.Machine

/-! ### Messages and replies -/

/-- A request as its channel shows it: CODE, TAG, ORIGIN, payload, and whether its header or padding is malformed. -/
structure Request where
  code : Nat
  tag : Nat
  origin : Nat
  body : List Byte
  bad : Bool
  deriving DecidableEq, Repr

/-- A 16-byte message header (R368); hardware stamps ORIGIN. -/
def msgHead (code flags version origin tag seg len status detail : Nat) : List Byte :=
  le 1 code ++ le 1 flags ++ le 1 version ++ le 1 origin ++ le 4 tag ++ le 4 seg ++ le 2 len ++ le 1 status ++ le 1 detail

/-- A request standing in a mailbox: FLAGS and SEG zero, LEN at most 240, and zeros after the payload (R368, R375). -/
def mailRequest (b : List Byte) : Request :=
  let len := fromLe (slice b 12 2)
  { code := fromLe (slice b 0 1), tag := fromLe (slice b 4 4), origin := fromLe (slice b 3 1), body := slice b 16 (min len 240),
    bad := fromLe (slice b 1 1) != 0 || fromLe (slice b 8 4) != 0 || decide (240 < len) || (b.drop (16 + len)).any fun x => x != 0 }

/-- MG0 or MG1 and the requester's address of an MG channel, numbered 0x100 + 2^48 MG + address (R369, R370). -/
def mgChan (mg mac : Nat) : Nat := 0x100 + mg * 2 ^ 48 + mac

/-- The mailboxes of a channel's request and of its reply, where a request stands (R364, R370). -/
def Dev.requestBoxes (d : Dev) (ch : Nat) : Option (Nat × Nat) :=
  if ch < 4 then (if d.mbFull ch then some (ch, ch + 4) else none)
  else if ch = 4 then (if d.mbFull 12 then some (12, 14) else if d.mbFull 13 then some (13, 15) else none)
  else none

/-- The request a channel shows, once the ACTIVE supervisor may take it (R330, R372): its reply mailbox is EMPTY and no reply
waits. -/
def Dev.standing (d : Dev) (ch : Nat) : Option Request :=
  if !d.supRunning then none
  else
    match d.requestBoxes ch with
    | some (m, r) => if d.mbFull r || !(d.chan ch).outbox.isEmpty then none else some (mailRequest (d.mbBytes m))
    | none =>
      let c := d.chan ch
      if 0x100 ≤ ch && c.ready then
        some { code := fromLe (slice c.head 0 1), tag := fromLe (slice c.head 4 4), origin := 0x40 + (c.port - 256), body := c.body,
               bad := fromLe (slice c.head 1 1) != 0 }
      else none

/-- The ACTIVE supervisor takes a channel's request: its mailbox is released, and an output that the snapshot window shows for
the channel goes (R365, R372, R376). -/
def Dev.takeRequest (d : Dev) (ch : Nat) : Dev :=
  let d := match d.requestBoxes ch with
    | some (m, r) => (d.setFlag (Reg.HOST_MB_CTRL.FULL m) false).setChan ch { d.chan ch with port := r }
    | none => d.setChan ch { d.chan ch with ready := false }
  if d.host.snapChan = ch && !d.host.snapArea.isEmpty then { d with host := { d.host with snapArea := [] } } else d

/-- A frame that a supervisor sends on an MG port (R369): to the requester's address, from the fused base address. -/
def Dev.mgFrame (d : Dev) (ch : Nat) (msg : List Byte) : List Byte :=
  refcs (padFrame (be 6 (ch - 0x100) ++ be 6 d.boot.fuses.baseMac ++ [0x88, 0xB5] ++ msg) ++ List.replicate 4 0)

/-- A frame of a supervisor leaves: through bank 0 as any frame of port 258, in recovery straight to MG0 (R23, R67). -/
def Dev.supSays (d : Dev) (bytes : List Byte) : Dev :=
  if d.boot.recovery then
    if d.flag (Reg.PORT_STATUS.LINK_UP 256) then
      let d := ((d.cnt .rxFrames 258).cntBy .rxOctets 258 bytes.length).cnt .rxFramesOk 258
      let d := d.cntBy .rxOctetsOk 258 bytes.length
      ((d.cnt .txFrames 256).cntBy .txOctets 256 bytes.length).out (.frame 256 bytes true)
    else d
  else d.supSend bytes

/-- A message put into a reply mailbox by the ACTIVE supervisor, or kept until the mailbox is EMPTY. -/
def Dev.postReply (d : Dev) (ch m : Nat) (msg : List Byte) : Dev :=
  match d.activeSup with
  | some s => if d.mbFull m then d.setChan ch { d.chan ch with outbox := msg } else (d.setMbBytes m msg).postMb m (supMaster s)
  | none => d.setChan ch { d.chan ch with outbox := msg }

/-- The mailbox of a channel's replies. -/
def Dev.replyBox (d : Dev) (ch : Nat) : Nat := if ch < 4 then ch + 4 else (d.chan ch).port

/-- Master ID of the ACTIVE supervisor. -/
def Dev.supId (d : Dev) : Nat := match d.activeSup with | some s => supMaster s | none => 0

/-- A reply (R368, R369, R372): one message on a mailbox; on an MG channel as many segments as its data take. -/
def Dev.reply (d : Dev) (ch code tag status detail : Nat) (data : List Byte) : Dev :=
  let c := d.chan ch
  if ch < 0x100 then d.postReply ch (d.replyBox ch) (msgHead code 1 c.ver 0 tag 0 data.length status detail ++ data)
  else
    let parts := if data.isEmpty then [[]] else chunks 1440 data.length data
    let first := c.seg.getD 0
    let frames := (List.range parts.length).map fun i =>
      let p := (parts[i]?).getD []
      let flags := if i + 1 < parts.length then 3 else 1
      d.mgFrame ch (msgHead code flags c.ver d.supId tag (first + i) p.length status detail ++ p)
    frames.foldl Dev.supSays (d.setChan ch { c with reply := frames })

/-- The reply to a request without data. -/
def Dev.status (d : Dev) (ch : Nat) (q : Request) (status detail : Nat) : Dev := d.reply ch q.code q.tag status detail []

/-- A refusal by the operation for which the spec names no code: DETAIL is a free value (log entry 4). -/
def Dev.refused (d : Dev) (ch : Nat) (q : Request) : Dev :=
  let (v, d) := d.freeNat
  d.status ch q 8 (v % 256)

/-- The reply that ends an open exchange, where it has not been abandoned (R370, R372). -/
def Dev.answer (d : Dev) (ch code tag status detail : Nat) (data : List Byte) : Dev :=
  let c := d.chan ch
  if c.opened = some ⟨code, tag⟩ then (d.setChan ch { c with opened := none }).reply ch code tag status detail data else d

/-- An exchange stays open. -/
def Dev.openExchange (d : Dev) (ch : Nat) (q : Request) : Dev := d.setChan ch { d.chan ch with opened := some ⟨q.code, q.tag⟩ }

/-- Replies that wait are posted once a supervisor is ACTIVE and their mailbox is EMPTY. -/
def Dev.flushReplies (d : Dev) : Dev :=
  [0, 1, 2, 3, 4].foldl (fun (d : Dev) ch =>
    let c := d.chan ch
    if c.outbox.isEmpty || d.mbFull (d.replyBox ch) || !d.supRunning then d
    else (d.setChan ch { c with outbox := [] }).postReply ch (d.replyBox ch) c.outbox) d

/-! ### Taking a request (R370, R371) -/

/-- The ACTIVE supervisor takes the request of a channel if it has this CODE; only a HELLO is taken while an exchange is open. -/
def Dev.onRequest (d : Dev) (ch code : Nat) (f : Dev → Request → Dev) : Dev :=
  match d.standing ch with
  | some q => if q.code = code && ((d.chan ch).opened.isNone || code == 1) then f (d.takeRequest ch) q else d
  | none => d

/-- A request refused in recovery is logged (R67). -/
def Dev.refuseRecovery (d : Dev) (ch : Nat) (q : Request) : Dev :=
  (d.logFrom d.supOrigin 0x0020 ((d.activeSup).getD 0) (d.regData Reg.DEV_BOOT_STATUS.addr ++ le 1 q.code ++ le 1 q.origin)).status ch q 6 0

/-- A request with the checks common to all: malformed, HELLO required, version, recovery (R370, R371, R375). -/
def Dev.request (d : Dev) (ch code minVer : Nat) (recov : Bool) (f : Dev → Request → Dev) : Dev :=
  d.onRequest ch code fun d q =>
    if q.bad then d.status ch q 3 0
    else if (d.chan ch).ver = 0 then d.status ch q 0x0A 0
    else if (d.chan ch).ver < minVer then d.status ch q 0x0B 0
    else if d.boot.recovery && !recov then d.refuseRecovery ch q
    else f d q

/-- The codes of R371. -/
def knownCodes : List Nat := [1, 2, 3, 4, 5, 6, 7, 8, 9, 0x20, 0x21, 0x22, 0x23, 0x24, 0x25]

/-- UNKNOWN_CODE (R371): other codes receive STATUS 0x01. -/
def unknownCode (chan : Nat) (d : Dev) : Dev :=
  match d.standing chan with
  | some q =>
    if knownCodes.contains q.code || (d.chan chan).opened.isSome then d else (d.takeRequest chan).status chan q 1 0
  | none => d

def execUnknownCode (chan : Nat) (s : State) : Host.Outcome State Fault Refusal := s.on (unknownCode chan)

/-- The end of an exchange that a new HELLO abandons: its deliveries and its snapshot stop. -/
def Dev.abandonExchange (d : Dev) (ch : Nat) : Dev :=
  let busy := d.host.jobs.any (fun j => j.chan == ch && j.code == 4) || (d.host.snapReq.map fun r => r.chan == ch).getD false
  let d := { d with host := { d.host with
    jobs := d.host.jobs.filter fun (j : DmaJob) => j.chan != ch,
    snapReq := match d.host.snapReq with | some r => if r.chan = ch then none else some r | none => none } }
  let d := d.setChan ch { d.chan ch with opened := none }
  if busy then d.setFlag Reg.REAM_SNAP_STATUS.BUSY false else d

/-- HELLO (R370): versions 1 to 4 are supported, and the highest that both sides support is chosen. -/
def hello (chan : Nat) (d : Dev) : Dev :=
  d.onRequest chan 1 fun d q =>
    let d := d.abandonExchange chan
    let lo := fromLe (slice q.body 0 1)
    let hi := fromLe (slice q.body 1 1)
    if q.bad || q.body.length != 2 then d.status chan q 3 0
    else
      match ([4, 3, 2, 1].find? fun v => decide (lo ≤ v) && decide (v ≤ hi)) with
      | some v => (d.setChan chan { d.chan chan with ver := v }).reply chan 1 q.tag 0 0 (le 1 v ++ le 1 1 ++ le 1 4)
      | none => d.status chan q 2 4

def execHello (chan : Nat) (s : State) : Host.Outcome State Fault Refusal := s.on (hello chan)

/-! ### Descriptors and deliveries (R376) -/

/-- A descriptor as (KIND, LENGTH, ADDRESS); none where it is malformed. Sources have no KIND 1, mailbox channels no KIND 2. -/
def descriptor (b : List Byte) (source mg : Bool) : Option (Nat × Nat × Nat) :=
  let kind := fromLe (slice b 0 1)
  let len := fromLe (slice b 4 4)
  let addr := fromLe (slice b 8 8)
  if decide (2 < kind) || (kind == 1 && source) || (kind == 2 && !mg) || fromLe (slice b 1 3) != 0 || len % 64 != 0 ||
      decide (128 * 2 ^ 20 < len) || addr % 64 != 0 || (kind != 0 && addr != 0) then none
  else some (kind, len, addr)

/-- The DMA engine can work: the link is up and Bus Master Enable set (R375). -/
def Dev.dmaReady (d : Dev) : Bool := d.host.pcieLink && d.host.busMaster

/-- An output of a request goes to its destination: by DMA, into the snapshot window, or inline. -/
def Dev.sendOutput (d : Dev) (ch code tag : Nat) (dest : Nat × Nat × Nat) (out : List Byte) : Dev :=
  let (kind, len, addr) := dest
  if decide (len < out.length) || (kind == 1 && decide (512 * 2 ^ 10 < out.length)) then d.reply ch code tag 9 6 []
  else if kind = 0 then
    if d.dmaReady then
      let d := d.setChan ch { d.chan ch with opened := some ⟨code, tag⟩ }
      { d with host := { d.host with jobs := d.host.jobs ++
        [({ chan := ch, code := code, tag := tag, kind := kind, length := len, addr := addr, bytes := out } : DmaJob)] } }
    else d.reply ch code tag 9 5 []
  else if kind = 1 then
    let d := { d with host := { d.host with snapArea := out, snapChan := ch } }
    (d.wr Reg.HOST_WIN_POS.POS 0).reply ch code tag 0 0 []
  else d.reply ch code tag 0 0 out

/-- A delivery by DMA ends: the request is answered. -/
def Dev.endJob (d : Dev) (j : DmaJob) (status detail : Nat) : Dev :=
  let d := { d with host := { d.host with jobs := d.host.jobs.filter fun (x : DmaJob) => x.chan != j.chan } }
  let d := if j.code = 4 then d.setFlag Reg.REAM_SNAP_STATUS.BUSY false else d
  d.answer j.chan j.code j.tag status detail []

/-- Every DMA in progress is abandoned and answered STATUS 0x09, DETAIL 0x05 (R358, R375). -/
def Dev.abandonDma (d : Dev) : Dev := d.host.jobs.foldl (fun (d : Dev) (j : DmaJob) => d.endJob j 9 5) d

/-- A request that reads its source by DMA stands on a channel. -/
def dmaSource (q : Request) : Bool :=
  (q.code == 0x20 && fromLe (slice q.body 0 1) == 0) || (q.code == 0x24 && fromLe (slice q.body 4 1) == 0)

/-- DMA_DONE (R376): a transfer for a channel ends; `result` is 0 or the DETAIL of a failed completion, 1 to 4. A failed read of
a source ends its request. -/
def dmaDone (chan result : Nat) (d : Dev) : Dev :=
  if 4 < result || !d.supRunning then d
  else
    match d.host.jobs.find? fun (j : DmaJob) => j.chan == chan with
    | some j => if result = 0 then (d.out (.dmaWrite j.addr j.bytes)).endJob j 0 0 else d.endJob j 9 result
    | none =>
      match d.standing chan with
      | some q => if result ≠ 0 && dmaSource q && d.dmaReady && (d.chan chan).opened.isNone then (d.takeRequest chan).status chan q 9 result else d
      | none => d

def execDmaDone (chan result : Nat) (s : State) : Host.Outcome State Fault Refusal := s.on (dmaDone chan result)

/-! ### Read-only requests (R371) -/

/-- GET_INFO's reply in the order the table lists it. Without a loaded image its version and BUILD_ID are free. -/
def Dev.infoBytes (d : Dev) : List Byte × Dev :=
  let (img, d) := match d.boot.loaded with
    | some l => (le 4 l.hdr.version ++ slice l.hdr.buildId 0 16, d)
    | none => let (v, d) := d.freeNat; (le 20 v, d)
  let w (a : Nat) : List Byte := le 4 (d.liveView a).toNat
  (w Reg.DEV_IDENT.addr ++ w Reg.DEV_BOOT_STATUS.addr ++ w Reg.DEV_AMD_STATUS.addr ++ le 8 d.boot.amdSeq ++
    le 4 d.boot.fuses.realm ++ le 2 d.boot.fuses.devnum ++ le 6 d.boot.fuses.baseMac ++ img ++
    le 4 (Config.chewipor d.boot.recovery) ++ le 1 ((d.activeSup).getD 0), d)

/-- GET_INFO (R371). -/
def getInfo (chan : Nat) (d : Dev) : Dev :=
  d.request chan 2 1 true fun d q =>
    if q.body.isEmpty then let (b, d) := d.infoBytes; d.reply chan 2 q.tag 0 0 b else d.status chan q 3 0

def execGetInfo (chan : Nat) (s : State) : Host.Outcome State Fault Refusal := s.on (getInfo chan)

/-- The values of registers as the ACTIVE supervisor reads them, one after the other. -/
def Dev.readAll (d : Dev) (m : Nat) (as_ : List Nat) : List Nat × Dev :=
  as_.foldl (fun (x : List Nat × Dev) a => (x.1 ++ [x.2.readWord m a (x.2.liveView a)], x.2.readActs m a)) ([], d)

/-- READ_REGS (R371): up to 56 addresses. -/
def readRegs (chan : Nat) (d : Dev) : Dev :=
  d.request chan 3 1 true fun d q =>
    if q.body.length % 4 ≠ 0 || 224 < q.body.length then d.status chan q 3 0
    else
      let (vs, d) := d.readAll d.supId ((chunks 4 56 q.body).map fromLe)
      d.reply chan 3 q.tag 0 0 (vs.flatMap (le 4))

def execReadRegs (chan : Nat) (s : State) : Host.Outcome State Fault Refusal := s.on (readRegs chan)

/-- TABLE_DUMP (R371): TABLE_ID (2), reserved (2), first index (4), count (4), destination (16). -/
def tableDump (chan : Nat) (d : Dev) : Dev :=
  d.request chan 5 1 false fun d q =>
    let tid := fromLe (slice q.body 0 2)
    let first := fromLe (slice q.body 4 4)
    let n := fromLe (slice q.body 8 4)
    match descriptor (slice q.body 12 16) false (decide (0x100 ≤ chan)), dumpShape tid with
    | some dest, some (size, words) =>
      if q.body.length ≠ 28 || fromLe (slice q.body 2 2) ≠ 0 || size < first + n then d.status chan q 3 0
      else if dest.2.1 < 4 * words * n then d.status chan q 9 6
      else d.sendOutput chan 5 q.tag dest ((List.range n).flatMap fun i => d.dumpEntry tid (first + i))
    | _, _ => d.status chan q 3 0

def execTableDump (chan : Nat) (s : State) : Host.Outcome State Fault Refusal := s.on (tableDump chan)

/-- The 64 bytes of a log record (R346). -/
def LogEnt.bytes (e : LogEnt) : List Byte := logBytes e.seq e.boot e.sec e.ns e.sync e.body ++ le 4 e.crc

/-- The records of a source of LOG_READ, oldest first: the flight ring, the HBM ring, and the logs of NVA and NVB. -/
def Dev.logSource (d : Dev) (src : Nat) : List LogEnt :=
  match src with
  | 0 => d.supv.flight
  | 1 => d.supv.hbmRing
  | 2 => (d.nvm 0).log.flatMap fun x => x.recs
  | _ => (d.nvm 1).log.flatMap fun x => x.recs

/-- LOG_READ (R371): source (1), reserved (3), first SEQ (4), count (4), destination (16). -/
def logRead (chan : Nat) (d : Dev) : Dev :=
  d.request chan 6 1 true fun d q =>
    let src := fromLe (slice q.body 0 1)
    let first := fromLe (slice q.body 4 4)
    let n := fromLe (slice q.body 8 4)
    match descriptor (slice q.body 12 16) false (decide (0x100 ≤ chan)) with
    | some dest =>
      if q.body.length ≠ 28 || fromLe (slice q.body 1 3) ≠ 0 || 3 < src then d.status chan q 3 0
      else d.sendOutput chan 6 q.tag dest ((((d.logSource src).filter fun e => decide (first ≤ e.seq)).take n).flatMap LogEnt.bytes)
    | none => d.status chan q 3 0

def execLogRead (chan : Nat) (s : State) : Host.Outcome State Fault Refusal := s.on (logRead chan)

/-- What MODULE_READ finds wrong in its payload: cage, bank, page, offset and length, one byte each, 1 to 128 bytes. -/
def moduleReadBad (b : List Byte) : Bool :=
  b.length != 5 || decide (64 ≤ fromLe (slice b 0 1)) || fromLe (slice b 4 1) == 0 || decide (128 < fromLe (slice b 4 1))

/-- The bus of the cage that a standing MODULE_READ names waits for no retry. -/
def Dev.moduleBusFree (d : Dev) (ch : Nat) : Bool :=
  match d.standing ch with
  | some q => (d.mbus (busOf (fromLe (slice q.body 0 1)))).retry.isNone
  | none => true

/-- MODULE_READ (R371): `data` is what the module answers, none where the transaction fails (R94, R97). -/
def moduleRead (chan : Nat) (data : Option (List Byte)) (d : Dev) : Dev :=
  if !d.moduleBusFree chan then d
  else
    d.request chan 7 2 false fun d q =>
      let cage := fromLe (slice q.body 0 1)
      if moduleReadBad q.body then d.status chan q 3 0
      else if !d.cageUp cage || !d.flag (Reg.MODL_CAGE_STATUS.PRESENT cage) then d.refused chan q
      else
        let (d, _) := d.muxSelect cage true
        match data with
        | some b => d.reply chan 7 q.tag 0 0 (slice b 0 (fromLe (slice q.body 4 1)))
        | none => (d.busFail cage 0).refused chan q

def execModuleRead (chan : Nat) (data : Option (List Byte)) (s : State) : Host.Outcome State Fault Refusal := s.on (moduleRead chan data)

/-- One record of the counter directory (R379). -/
def dirRecord (kind : Nat) (r : Ctr × String × Nat) : List Byte :=
  slice (r.2.1.toList.map fun ch => BitVec.ofNat 8 ch.toNat) 0 32 ++ le 2 kind ++ le 2 r.2.2 ++ le 4 (scopeSize r.2.2) ++ le 8 0

/-- COUNTER_DIR (R379). -/
def counterDir (chan : Nat) (d : Dev) : Dev :=
  d.request chan 9 1 false fun d q =>
    match descriptor q.body false (decide (0x100 ≤ chan)) with
    | some dest =>
      if q.body.length ≠ 16 then d.status chan q 3 0
      else d.sendOutput chan 9 q.tag dest (d.host.dir.flatMap fun e => match ctrRow e.2 with | some r => dirRecord e.1 r | none => [])
    | none => d.status chan q 3 0

def execCounterDir (chan : Nat) (s : State) : Host.Outcome State Fault Refusal := s.on (counterDir chan)

/-! ### Snapshots (R380) -/

/-- The entries a SNAPSHOT names, as (KIND, first INSTANCE, count); none where its payload is malformed. -/
def snapItems (b : List Byte) : Option (List (Nat × Nat × Nat)) :=
  let n := fromLe (slice b 16 2)
  let es := (chunks 12 18 (b.drop 20)).map fun e => (fromLe (slice e 0 2), fromLe (slice e 2 2), fromLe (slice e 4 4), fromLe (slice e 8 4))
  if b.length ≠ 20 + 12 * n || n = 0 || 18 < n || fromLe (slice b 18 2) ≠ 0 || es.any (fun e => e.2.1 != 0) then none
  else some (es.map fun e => (e.1, e.2.2.1, e.2.2.2))

/-- SNAPSHOT (R380): the engine takes one at a time. -/
def snapshot (chan : Nat) (d : Dev) : Dev :=
  d.request chan 4 1 false fun d q =>
    match descriptor (slice q.body 0 16) false (decide (0x100 ≤ chan)), snapItems q.body with
    | some (kind, len, addr), some items =>
      if d.flag Reg.REAM_SNAP_STATUS.BUSY || 8388604 < items.foldl (fun a e => a + e.2.2) 0 then d.status chan q 7 0
      else if !d.hbmUp 0 && !d.hbmUp 1 then d.status chan q 6 0
      else
        let d := (d.openExchange chan q).setFlag Reg.REAM_SNAP_STATUS.BUSY true
        { d with host := { d.host with
          snapReq := some { chan := chan, tag := q.tag, kind := kind, length := len, addr := addr, items := items } } }
    | _, _ => d.status chan q 3 0

def execSnapshot (chan : Nat) (s : State) : Host.Outcome State Fault Refusal := s.on (snapshot chan)

/-- One entry of a snapshot: counter ID, value, FLAGS. An ID that names no counter has none. -/
def Dev.snapEntry (d : Dev) (id : Nat) : List Byte :=
  match d.counterOf id with
  | some (c, i) => le 4 id ++ le 8 (d.ctrValue c i) ++ le 1 (if d.ctrFlag c i then 1 else 0) ++ le 3 0
  | none => []

/-- The IDs a snapshot names that name counters; instances past the last of a kind's scope name none. -/
def Dev.snapIds (d : Dev) (items : List (Nat × Nat × Nat)) : List Nat :=
  items.flatMap fun e => ((List.range (min e.2.2 (2 ^ 20 - min e.2.1 (2 ^ 20)))).map fun k => e.1 * 2 ^ 20 + e.2.1 + k).filter fun id =>
    decide (e.1 < 4096) && (d.counterOf id).isSome

/-- The 64-byte header of a snapshot. -/
def Dev.snapHead (d : Dev) (n : Nat) : List Byte :=
  [0x4C, 0x4E, 0x53, 0x4E] ++ le 4 d.host.snapId ++ le 2 d.boot.bootCount ++ le 2 0 ++ le 4 (tNs (d.pres 0)) ++ le 8 (tSec (d.pres 0)) ++
    le 4 n ++ le 36 0

/-- SNAPSHOT_CAPTURE (R380): every named counter as it stands at this alignment edge; then the delivery begins. -/
def snapCapture (d : Dev) : Dev :=
  match d.host.snapReq with
  | none => d
  | some r =>
    let ids := d.snapIds r.items
    let out := d.snapHead ids.length ++ ids.flatMap d.snapEntry
    let d := { d with host := { d.host with snapReq := none, snapId := d.host.snapId + 1 } }
    let d := d.wr Reg.REAM_SNAP_STATUS.ENTRIES ids.length
    let d := d.setChan r.chan { d.chan r.chan with opened := none }
    let d := d.sendOutput r.chan 4 r.tag (r.kind, r.length, r.addr) out
    if d.host.jobs.any fun j => j.chan == r.chan && j.code == 4 then d else d.setFlag Reg.REAM_SNAP_STATUS.BUSY false

def execSnapshotCapture (s : State) : Host.Outcome State Fault Refusal := s.on snapCapture

/-! ### Signed requests (R373) -/

/-- GET_NONCE (R373): a fresh nonce replaces the channel's earlier one. -/
def getNonce (chan : Nat) (d : Dev) : Dev :=
  d.request chan 8 1 true fun d q =>
    if q.body.isEmpty then
      let (v, d) := d.freeNat
      (d.setChan chan { d.chan chan with nonce := some ⟨le 16 v, d.now⟩ }).reply chan 8 q.tag 0 0 (le 16 v)
    else d.status chan q 3 0

def execGetNonce (chan : Nat) (s : State) : Host.Outcome State Fault Refusal := s.on (getNonce chan)

/-- A nonce is valid for 60 s. -/
def Dev.nonceLive (d : Dev) (n : Nonce) : Bool := decide (d.now < n.at_ + 60 * 10 ^ 9)

/-- NONCE_EXPIRY (R373). -/
def nonceExpiry (chan : Nat) (d : Dev) : Dev :=
  match (d.chan chan).nonce with
  | some n => if d.nonceLive n then d else d.setChan chan { d.chan chan with nonce := none }
  | none => d

def execNonceExpiry (chan : Nat) (s : State) : Host.Outcome State Fault Refusal := s.on (nonceExpiry chan)

/-- The key of a SIGNER (R57, R373): the owner key of the loaded image, or a delegated key that is loaded. -/
def Dev.signerKey (d : Dev) (signer : Nat) : Option (List Byte) :=
  if signer = 0 then d.boot.loaded.map fun l => l.hdr.ownerKey
  else
    let k := tget d.boot.delegates [] signer
    if k.isEmpty || 8 < signer then none else some k

/-- Signature, REALM_ID and DEV_NUM of a signed request pass. -/
def Dev.signedOk (d : Dev) (q : Request) : Bool :=
  let b := q.body
  fromLe (slice b 0 4) == d.boot.fuses.realm && fromLe (slice b 4 2) == d.boot.fuses.devnum &&
    match d.signerKey (fromLe (slice b 6 1)) with
    | some k => ed25519Verify k (le 1 q.code ++ slice b 0 32) (slice b 32 64)
    | none => false

/-- A signed request: its payload, its nonce, consumed whatever follows, and its signature are checked before `f` acts. `argsOk`
says which ARGS the code takes. -/
def Dev.signed (d : Dev) (ch code minVer : Nat) (argsOk : Nat → Bool) (f : Dev → Request → Dev) : Dev :=
  d.request ch code minVer false fun d q =>
    let n := (d.chan ch).nonce
    let d := d.setChan ch { d.chan ch with nonce := none }
    let b := q.body
    if b.length ≠ 96 || fromLe (slice b 7 1) ≠ 0 || 8 < fromLe (slice b 6 1) || !argsOk (fromLe (slice b 24 8)) then d.status ch q 3 0
    else if !(match n with | some n => d.nonceLive n && n.bytes == slice b 8 16 | none => false) then d.status ch q 5 0
    else if !d.signedOk q then d.status ch q 4 0
    else f d q

/-- FORCE_SWITCH (R337, R371): refused where the STANDBY is not STANDBY_READY. -/
def forceSwitch (chan : Nat) (d : Dev) : Dev :=
  d.signed chan 0x21 1 (fun a => a == 0) fun d q =>
    match d.standbySup with
    | some b =>
      if d.flag (Reg.SUPV_CORE_STATUS.STANDBY_READY b) then (d.status chan q 0 0).forcedSwitch else d.refused chan q
    | none => d.refused chan q

def execForceSwitch (chan : Nat) (s : State) : Host.Outcome State Fault Refusal := s.on (forceSwitch chan)

/-- PLANE_ROTATE (R282, R371): ARGS byte 0 names a plane, or 0xFF for the scheduled choice. DETAIL is FABR_ROT.RESULT. -/
def planeRotate (chan : Nat) (d : Dev) : Dev :=
  d.signed chan 0x22 3 (fun a => decide (a ≤ 9) || a == 0xFF) fun d q =>
    let a := fromLe (slice q.body 24 1)
    let plane := if a = 0xFF then d.scheduledPlane else a
    let d := (d.wr Reg.FABR_ROT.PLANE plane).startRotation plane
    let r := d.rd Reg.FABR_ROT.RESULT
    d.status chan q (if r = 0 then 0 else if r = 3 then 7 else 8) r

def execPlaneRotate (chan : Nat) (s : State) : Host.Outcome State Fault Refusal := s.on (planeRotate chan)

/-- LOG_CLEAR (R351, R371): both log regions are erased, then the rings and SUPV_ALM. -/
def logClear (chan : Nat) (d : Dev) : Dev :=
  d.signed chan 0x23 1 (fun a => a == 0) fun d q =>
    let d := [0, 1].foldl (fun (d : Dev) nv => d.setNvm nv { d.nvm nv with log := [] }) d
    (d.clearLog q.origin).status chan q 0 0

def execLogClear (chan : Nat) (s : State) : Host.Outcome State Fault Refusal := s.on (logClear chan)

/-! ### Provisioning (R374) -/

/-- The fuses that PROVISION blows, and the fuse view (R41). -/
def Dev.blowFuses (d : Dev) (b : List Byte) : Dev :=
  let f := { d.boot.fuses with
    ownerHash := sha256 (slice b 0 32), realm := fromLe (slice b 32 4), devnum := fromLe (slice b 36 2), kek := slice b 40 32 }
  let d := { d with boot := { d.boot with fuses := f } }
  let d := (d.wr Reg.DEV_FUSE_REALM.REALM_ID f.realm).wr Reg.DEV_FUSE_DEVNUM.DEVNUM f.devnum
  d.setFlag Reg.DEV_BOOT_STATUS.UNPROV d.unprovisioned

/-- PROVISION (R374): accepted once, in recovery, by an unprovisioned device. -/
def provision (chan : Nat) (d : Dev) : Dev :=
  d.request chan 0x25 1 true fun d q =>
    let b := q.body
    if !d.boot.recovery then d.status chan q 6 0
    else if !d.unprovisioned then d.refuseRecovery chan q
    else if b.length ≠ 136 || fromLe (slice b 38 2) ≠ 0 then d.status chan q 3 0
    else if !ed25519Verify (slice b 0 32) (slice b 0 72) (slice b 72 64) then d.status chan q 4 0
    else (d.blowFuses b).status chan q 0 0

def execProvision (chan : Nat) (s : State) : Host.Outcome State Fault Refusal := s.on (provision chan)

/-! ### MG0 and MG1 (R369) -/

/-- A segment on an MG channel: `h` its header, `p` its payload. The first of a message starts it anew, the next is appended, a
repeat is answered again, any other is out of order. -/
def Dev.takeSegment (d : Dev) (ch port : Nat) (h p : List Byte) : Dev :=
  let c := d.chan ch
  let seg := fromLe (slice h 8 4)
  let tag := fromLe (slice h 4 4)
  let code := fromLe (slice h 0 1)
  let flags := fromLe (slice h 1 1)
  let same := slice c.head 4 4 == slice h 4 4 && slice c.head 0 1 == slice h 0 1
  let more := flags / 2 % 2 == 1
  if c.seg = some seg && same then c.reply.foldl Dev.supSays d
  else
    let fits := flags % 2 == 0 && flags / 4 == 0 && fromLe (slice h 12 2) == p.length && decide (p.length ≤ 1440) &&
      (seg == 0 || (c.seg == some (seg - 1) && same && fromLe (slice c.head 1 1) / 2 % 2 == 1))
    let body := if seg = 0 then p else c.body ++ p
    let head := if more then h else patch h 1 [0]
    let c := { c with port := port, seg := some seg, head := head, body := body, ready := fits && !more, reply := [] }
    let d := d.setChan ch c
    if !fits then d.reply ch code tag 3 0 [] else if more then d.reply ch code tag 0 0 [] else d

/-- Frame `i` of the supervisor frame Vat is taken out and its blocks returned (R247). -/
def Dev.dropSupFrame (d : Dev) (i : Nat) (f : SupFrame) : Dev :=
  ({ d with vat := { d.vat with supFrames := d.vat.supFrames.eraseIdx i } }).supGive f.blocks

/-- MG_SEGMENT (R369): the ACTIVE supervisor takes a frame from the supervisor frame Vat. One that is no Flollina message of MG0
or MG1 is put aside; one of a channel whose message waits or whose exchange is open waits too, but for a HELLO. -/
def mgSegment (frame : Nat) (d : Dev) : Dev :=
  match d.supRunning, (d.vat.supFrames[frame]?) with
  | true, some f =>
    let b := f.bytes
    if (f.port = 256 || f.port = 257) && d.flollinaFrame b && decide (34 ≤ b.length) then
      let ch := mgChan (f.port - 256) (fromBe (slice b 6 6))
      let h := slice b 14 16
      let len := fromLe (slice h 12 2)
      let c := d.chan ch
      let again := c.seg == some (fromLe (slice h 8 4)) && slice c.head 4 4 == slice h 4 4 && slice c.head 0 1 == slice h 0 1
      if (c.ready || c.opened.isSome) && !again && fromLe (slice h 0 1) != 1 then d
      else (d.dropSupFrame frame f).takeSegment ch f.port h (((b.take (b.length - 4)).drop 30).take len)
    else d.dropSupFrame frame f
  | _, _ => d

def execMgSegment (frame : Nat) (s : State) : Host.Outcome State Fault Refusal := s.on (mgSegment frame)

/-! ### The PCI Express function (R356, R358, R359) -/

/-- HOST_UP (R359): link up and Bus Master Enable set. -/
def Dev.hostUp (d : Dev) : Dev := d.setPeer Reg.HOST_PEER_ALIVE.HOST_UP d.dmaReady

/-- PCIE_RESET (R358): PERST_N or Function Level Reset. -/
def pcieReset (d : Dev) : Dev :=
  let d := { d with host := { d.host with stage := [], pcieLink := false, busMaster := false } }
  let d := (d.setReg Reg.HOST_INT_EN.addr 0).showEnables
  d.abandonDma.hostUp

def execPcieReset (s : State) : Host.Outcome State Fault Refusal := s.on pcieReset

/-- The PCI Express link goes down (R356, R411). -/
def pcieDown (d : Dev) : Dev := ({ d with host := { d.host with pcieLink := false } }).hostUp

/-- PCIE_LINK_DOWN (R356). -/
def execPcieLinkDown (s : State) : Host.Outcome State Fault Refusal := s.on pcieDown

/-- PCIE_REFCLK_LOSS (R411): PCI Express goes down, and nothing else. -/
def execPcieRefclkLoss (s : State) : Host.Outcome State Fault Refusal := s.on pcieDown

/-- PCIE_LINK_UP (R356). -/
def pcieUp (d : Dev) : Dev := ({ d with host := { d.host with pcieLink := true } }).hostUp

def execPcieLinkUp (s : State) : Host.Outcome State Fault Refusal := s.on pcieUp

/-- BUS_MASTER_ENABLE_CHANGE (R359, R375): clearing it ends every DMA with DETAIL 0x05. -/
def busMasterChange (on_ : Bool) (d : Dev) : Dev :=
  let d := ({ d with host := { d.host with busMaster := on_ } }).hostUp
  if on_ then d else d.abandonDma

def execBusMasterEnableChange (on : Bool) (s : State) : Host.Outcome State Fault Refusal := s.on (busMasterChange on)

end Sys2Proof.Machine
end

