-- ==== Sys2Proof/Machine/Image.lean ====
section
/-! DEFINITION. Byte formats of chapter 02: the image header and section table (R48, R49), the records of a section (R51 to R54),
and the amendment (R56), with the checks that need nothing but their bytes (codes 0x11 and 0x16 of R55, 0x01 of R57). -/

namespace Sys2Proof.Machine

/-! ### Records (R51 to R54) -/

/-- A number of `n` bytes at an offset (R47). -/
def num (b : List Byte) (off n : Nat) : Nat := fromLe (slice b off n)

/-- Words of an entry. -/
def entryAtOff (b : List Byte) (off words : Nat) : List Nat := (List.range words).map fun k => num b (off + 4 * k) 4

/-- The record at the front of bytes of a section or chunk type, and its length; none where no whole record stands there. An
entry without words stands for none: every table has words, so the record is refused whatever its COUNT. -/
def recAt (typ : Nat) (b : List Byte) : Option (CfgRec × Nat) :=
  match typ with
  | 2 => if b.length < 12 then none else some (.reg (num b 0 4) (num b 4 4) (num b 8 4), 12)
  | 3 =>
    let ew := num b 4 2
    let n := num b 12 4
    if b.length < 16 || b.length < 16 + 4 * ew * n then none
    else
      let es := if ew = 0 then [] else (List.range n).map fun k => entryAtOff b (16 + 4 * ew * k) ew
      some (.bulk (num b 0 2) (num b 2 2) ew (num b 6 2) (num b 8 4) es, 16 + 4 * ew * n)
  | 4 => if b.length < 64 then none else some (.key (num b 0 2) (num b 2 1) (num b 3 1) (slice b 4 12) (slice b 16 32) (slice b 48 16), 64)
  | 5 =>
    let n := num b 4 2
    if b.length < 8 || b.length < 8 + 32 * n then none
    else some (.store (num b 0 1) (num b 1 1) (num b 2 2) (num b 6 2) ((List.range n).map fun k => num b (8 + 32 * k) 32), 8 + 32 * n)
  | _ => none

/-- Every record of a section or chunk; none where its bytes do not divide into records. `n` bounds the records. -/
def recsOf (typ : Nat) : Nat → List Byte → Option (List CfgRec)
  | 0, b => if b.isEmpty then some [] else none
  | n + 1, b =>
    if b.isEmpty then some []
    else
      match recAt typ b with
      | none => none
      | some (r, k) => (recsOf typ n (b.drop k)).map (r :: ·)

/-- The first four bytes of a key record (R53). -/
def keyHead (slot kind res : Nat) : List Byte := le 2 slot ++ le 1 kind ++ le 1 res

/-! ### Images (R48, R49) -/

/-- Bytes of a NOR region: an erased byte is 0xFF. -/
def flashBytes (l : List Byte) (off n : Nat) : List Byte :=
  let s := (l.drop off).take n
  s ++ List.replicate (n - s.length) 0xFF

/-- The header of an image (R48). -/
def imgHeader (img : List Byte) : ImgHeader :=
  let b := flashBytes img 0 128
  { magic := num b 0 4, format := num b 4 2, hdrLen := num b 6 2, version := num b 8 4, epoch := num b 12 2, sectCount := num b 14 2,
    realm := num b 16 4, devFirst := num b 20 2, devLast := num b 22 2, imageLen := num b 24 4, tableOff := num b 28 4,
    sigOff := num b 32 4, flags := num b 36 4, seqBase := num b 40 8, ownerKey := slice b 48 32, buildId := slice b 80 16,
    reserved := slice b 96 32 }

/-- One entry of the section table (R49). -/
def imgSection (img : List Byte) (i : Nat) : Section :=
  let b := flashBytes img (128 + 48 * i) 48
  { typ := num b 0 2, minStep := num b 2 1, res1 := num b 3 1, offset := num b 4 4, length := num b 8 4, res2 := num b 12 4,
    hash := slice b 16 32 }

/-- The section table. -/
def imgSections (img : List Byte) (h : ImgHeader) : List Section := (List.range h.sectCount).map (imgSection img)

/-- Code 0x11: MAGIC, FORMAT, lengths, counts and reserved fields of the header. -/
def headerBad (h : ImgHeader) : Bool :=
  h.magic != 0x4D494E4C || !([1, 2, 3].contains h.format) || h.hdrLen != 128 || h.sectCount == 0 || decide (256 < h.sectCount) ||
    h.tableOff != 128 || h.sigOff != 128 + 48 * h.sectCount || decide (64 < h.epoch) || decide (2 ≤ h.flags) ||
    h.reserved.any fun b => b != 0

/-- What is wrong with one entry of the section table by itself. -/
def sectionBad (h : ImgHeader) (s : Section) : Bool :=
  s.res1 != 0 || s.res2 != 0 || (decide (h.format < 3) && s.minStep != 0) || s.offset % 64 != 0 || decide (s.offset < h.sigOff + 64) ||
    s.length % 4 != 0 || decide (h.imageLen < s.offset + s.length) || s.typ == 0 || decide (5 < s.typ)

/-- Two sections share a byte. -/
def sectionsMeet (a b : Section) : Bool :=
  a.length != 0 && b.length != 0 && decide (a.offset < b.offset + b.length) && decide (b.offset < a.offset + a.length)

/-- Two of the sections share a byte. -/
def sectionsOverlap : List Section → Bool
  | [] => false
  | s :: r => r.any (sectionsMeet s) || sectionsOverlap r

/-- Code 0x16: IMAGE_LEN against the region and the end of the last section, the geometry of the section table, and the counts of R49. -/
def geometryBad (h : ImgHeader) (ss : List Section) (region : Nat) : Bool :=
  decide (region < h.imageLen) || h.imageLen != ss.foldl (fun a s => max a (s.offset + s.length)) 0 || ss.any (sectionBad h) || sectionsOverlap ss ||
    (ss.head?.map fun s => s.typ) != some 1 || (ss.filter fun s => s.typ == 1).length != 1 ||
    decide (1 < (ss.filter fun s => s.typ == 4).length)

/-- The checks of R55 on header, section table and signature, in order: 0x01 where all pass. -/
def headerCode (f : Fuses) (region : Nat) (img : List Byte) : Nat :=
  let h := imgHeader img
  let ss := imgSections img h
  if headerBad h then 0x11
  else if sha256 h.ownerKey ≠ f.ownerHash then 0x12
  else if !ed25519Verify h.ownerKey (flashBytes img 0 h.sigOff) (flashBytes img h.sigOff 64) then 0x13
  else if h.realm ≠ f.realm || (h.format ≠ 1 && (f.devnum < h.devFirst || h.devLast < f.devnum)) then 0x14
  else if h.epoch < f.epoch then 0x15
  else if geometryBad h ss region then 0x16
  else 0x01

/-- The bytes of a section. -/
def sectionBytes (img : List Byte) (s : Section) : List Byte := flashBytes img s.offset s.length

/-- A section's bytes have the hash of its table entry. -/
def sectionHashOk (img : List Byte) (s : Section) : Bool := sha256 (sectionBytes img s) == s.hash

/-- The firmware section carries Daxnov's signature over all but its last 64 bytes (R49). -/
def firmwareOk (b : List Byte) : Bool :=
  decide (64 ≤ b.length) && ed25519Verify Config.daxnovKey (b.take (b.length - 64)) (b.drop (b.length - 64))

/-- The region that holds the image on a device of `c` MiB, in bytes (R39). -/
def imageRegion (c : Nat) : Nat := min (c - 24) 96 * 2 ^ 20

/-! ### Amendments (R56) -/

/-- An amendment as its bytes show it. `keyChunk` says whether it holds a key chunk. -/
structure AmdRec where
  realm : Nat
  list : Bool
  immediate : Bool
  tb : Nat
  signer : Nat
  seq : Nat
  act : Nat
  first : Nat
  last : Nat
  targets : List Nat
  keyChunk : Bool
  recs : List CfgRec
  signedPart : List Byte
  sig : List Byte
  len : Nat
  deriving DecidableEq, Repr

/-- Length of an amendment by its header. -/
def amdLen (b : List Byte) : Nat := 96 + (num b 40 2 * 2 + 3) / 4 * 4 + num b 44 4 + 64

/-- The chunks of a body as (type, records); none where the body does not divide into them. -/
def chunksOf : Nat → List Byte → Option (List (Nat × List CfgRec))
  | 0, b => if b.isEmpty then some [] else none
  | n + 1, b =>
    let t := num b 0 2
    let len := num b 4 4
    if b.isEmpty then some []
    else if b.length < 8 || t < 2 || 5 < t || num b 2 2 ≠ 0 || b.length < 8 + len then none
    else
      match recsOf t len ((b.drop 8).take len), chunksOf n (b.drop (8 + len)) with
      | some rs, some r => some ((t, rs) :: r)
      | _, _ => none

/-- Fields of the header that break R56 (code 0x01). -/
def amdHeaderBad (b : List Byte) : Bool :=
  let fmt := num b 4 2
  let kind := num b 12 1
  let n := num b 40 2
  num b 0 4 != 0x4D414E4C || (fmt != 1 && fmt != 2) || num b 6 2 != 96 || decide (1 < kind) || decide (1 < num b 13 1) ||
    decide (7 < num b 14 1) || decide (8 < num b 15 1) || (fmt == 1 && (kind != 0 || num b 15 1 != 0)) || num b 16 8 == 0 ||
    (num b 13 1 == 0 && (decide (2 ^ 48 ≤ num b 24 8) || decide (10 ^ 9 ≤ num b 32 4))) ||
    (if kind = 0 then n != 0 else n == 0 || decide (1024 < n)) || num b 42 2 != 0 || num b 44 4 % 4 != 0 ||
    (slice b 80 16).any fun x => x != 0

/-- The amendment at the front of bytes; none where it fails code 0x01 of R57. What follows it, filling its source, is not part
of it. -/
def parseAmd (src : List Byte) : Option AmdRec :=
  let b := src.take (amdLen src)
  let n := num b 40 2
  let pad := (n * 2 + 3) / 4 * 4
  let body := (b.drop (96 + pad)).take (num b 44 4)
  if b.length < 160 || b.length ≠ amdLen src || amdHeaderBad b || (slice b (96 + 2 * n) (pad - 2 * n)).any (· != 0) ||
      sha256 body ≠ slice b 48 32 then none
  else
    (chunksOf body.length body).map fun cs =>
      { realm := num b 8 4, list := num b 12 1 == 1, immediate := num b 13 1 == 1, tb := num b 14 1, signer := num b 15 1,
        seq := num b 16 8, act := num b 24 8 * 10 ^ 9 + num b 32 4, first := num b 36 2, last := num b 38 2,
        targets := (List.range n).map fun k => num b (96 + 2 * k) 2, keyChunk := cs.any fun c => c.1 == 4,
        recs := cs.flatMap fun c => c.2, signedPart := b.take (b.length - 64), sig := b.drop (b.length - 64), len := b.length }

/-- Bytes an entry takes in the journal (R60). -/
def entrySize (len : Nat) : Nat := (32 + len + 255) / 256 * 256

/-- Bytes of a journal in use. -/
def journalUsed (j : List JEntry) : Nat := j.foldl (fun a e => a + entrySize e.bytes.length) 0

/-- Size of the journal region (R39). -/
def journalSize : Nat := 16 * 2 ^ 20

end Sys2Proof.Machine
end

