-- ==== Sys2Proof/Machine/Loader.lean ====
section
/-! DEFINITION. Start-up (R37 to R55, R67): discovery, the candidate image, its sections and records, configuration reset and
recovery, HBM training, forwarding release, fuse advance, the restart out of recovery, and the machine check of a supervisor
(R332, R46). -/

namespace Sys2Proof.Machine

/-! ### Phases -/

/-- PHASE of DEV_BOOT_STATUS. -/
def Dev.phase (d : Dev) : Nat := d.rd Reg.DEV_BOOT_STATUS.PHASE

/-- The supervisor that runs the boot (R46). -/
def Dev.bootSup (d : Dev) : Nat := if d.boot.bootOnB then 1 else 0

/-- Something runs the boot: the boot supervisor is not held in reset, or another one is ACTIVE. -/
def Dev.bootRuns (d : Dev) : Bool :=
  (d.role d.bootSup != 3 && !d.flag (Reg.SUPV_CORE_STATUS.DISABLED d.bootSup)) || d.supRunning

/-- Images tried, in order (R40): 0 NVA, 1 NVB. -/
def bootOrder (sel : Nat) : List Nat :=
  match sel with
  | 0 => [0, 1]
  | 1 => [1, 0]
  | 2 => [0]
  | _ => []

/-- The result code of an NVM (R55). -/
def Dev.setResult (d : Dev) (nv code : Nat) : Dev :=
  d.wr (if nv = 0 then Reg.DEV_BOOT_STATUS.NVA_RESULT else Reg.DEV_BOOT_STATUS.NVB_RESULT) code

/-- Chewipor writes the record of a thermal shutdown kept on VDD_AON, and clears VALID (R344). -/
def Dev.shutdownRecord (d : Dev) : Dev :=
  if d.flag Reg.SUPV_SHUTDOWN.VALID then
    (d.logFrom d.supOrigin 0xB011 0x10 (le 1 (d.rd Reg.SUPV_SHUTDOWN.SENSOR) ++ le 1 0 ++ le 2 (d.rd Reg.SUPV_SHUTDOWN.TEMP))).setFlag
      Reg.SUPV_SHUTDOWN.VALID false
  else d

/-- Chewipor starts on both supervisors (R44 step 5, R330): the one that runs the boot ACTIVE, the other STANDBY unless it is
held FAILED. -/
def Dev.startSups (d : Dev) : Dev :=
  let a := d.bootSup
  let b := 1 - a
  let d := { d with supv := { d.supv with lastHb := tput (tput d.supv.lastHb 0 0 d.now) 0 1 d.now } }
  let d := if d.role b = 3 || d.flag (Reg.SUPV_CORE_STATUS.DISABLED b) then d else d.setRole b 2
  (d.setRole a 1).shutdownRecord

/-- Both HBM PHYs are powered for training (R44 step 6, R409). -/
def Dev.powerHbm (d : Dev) : Dev := (d.requestTokens 78 (holderLevel 78)).requestTokens 79 (holderLevel 79)

/-- ENTER_RECOVERY (R67): Chewipor runs from its copy in the boot ROM, and HBM is trained. -/
def Dev.enterRecovery (d : Dev) : Dev :=
  let d := { d with boot := { d.boot with recovery := true, cand := none } }
  let d := (d.wr Reg.DEV_BOOT_STATUS.PHASE 6).wr Reg.DEV_BOOT_STATUS.SOURCE 3
  d.startSups.powerHbm

/-! ### Discovery (R37, R38) -/

/-- A device meets R37 and advertises the protocol that NVM_MODE selects (R38). -/
def Nvm.meets (n : Nvm) (mode : Nat) : Bool :=
  n.attached && (n.capacity == 64 || n.capacity == 128) && (if mode = 0 then n.quad else n.octal)

/-- Free sectors of 64 KiB in the fuller journal (DEV_AMD_STATUS). -/
def Dev.showJournal (d : Dev) : Dev :=
  let free := (d.boot.nvm.filter fun n => n.ok).map fun n => (journalSize - journalUsed n.journal) / 2 ^ 16
  d.wr Reg.DEV_AMD_STATUS.JOURNAL_FREE (match free with
    | [] => 0
    | x :: r => r.foldl min x)

/-- NVM_DISCOVERY (R37, R38, R44 step 3); without an image to try the device enters recovery (R67). -/
def nvmDiscovery (d : Dev) : Dev :=
  if d.phase = 1 && d.bootRuns then
    let mode := d.rd Reg.DEV_STRAP.NVM_MODE
    let d := { d with boot := { d.boot with nvm := d.boot.nvm.map fun (n : Nvm) => { n with ok := n.meets mode } } }
    let d := (d.showJournal).wr Reg.DEV_BOOT_STATUS.PHASE 2
    if d.unprovisioned || (bootOrder (d.rd Reg.DEV_STRAP.BOOT_SEL)).isEmpty then d.enterRecovery else d
  else d

def execNvmDiscovery (s : State) : Host.Outcome State Fault Refusal := s.on nvmDiscovery

/-! ### Configuration reset (R46) -/

/-- Registers that a configuration reset leaves: those no image writes, and what supervisors and senders put into theirs. -/
def keepsThrough (name : String) : Bool :=
  ["HOST_DBG_CTRL", "HOST_DBG_CHAL", "HOST_DBG_RESP", "HOST_MB_BUF", "HOST_MB_CTRL", "HOST_MB_SUBMIT", "SUPV_HB", "SUPV_LOG_PUT"].contains name

/-- A configuration register at its reset value: its RW fields, and all of a register that only shows what was configured. -/
def Dev.resetReg (d : Dev) (a : Nat) : Dev :=
  match findReg a with
  | none => d
  | some (r, _) =>
    if keepsThrough r.name then d
    else if ["PORT_STATUS", "SEAL_KEY_STATUS", "SEAL_KEY_FPR"].contains r.name then d.setReg a (resetOf a)
    else
      d.setReg a (r.fields.foldl (fun w (f : RField) =>
        if f.acc = Acc.rw then fput w f.lo f.width (fget (resetOf a) f.lo f.width) else w) (d.reg a))

/-- A supervisor restarts (R46): one held FAILED since before step 5, or DISABLED, stays so. -/
def Dev.restartSup (d : Dev) (s : Nat) : Dev :=
  if (s = 0 && d.boot.bootOnB) || d.flag (Reg.SUPV_CORE_STATUS.DISABLED s) then d else d.setRole s 0

/-- CONFIG_RESET (R46): every configuration register and table at its reset value, both supervisors restarted. -/
def Dev.configReset (d : Dev) : Dev :=
  let d := (d.regs.map (·.1)).foldl Dev.resetReg d
  let d := { d with
    tabs := [],
    beat := { d.beat with store := [], bad := [], half := [], sideBad := [] },
    look := { d.look with slots := [], refStatic := [], refNext := [], failed := [] },
    strm := { ids := [], gate := [], meter := [], blocked := [], pol := [] },
    deck := { d.deck with keys := [], ctxs := [] },
    host := { d.host with chans := [], jobs := [], snapReq := none, snapArea := [] },
    supv := { d.supv with ckpts := [], loaded := none, takeover := none, mgmt := Mgmt.zero },
    boot := { d.boot with latched := [], delegates := [], storePipes := [] } }
  let d := ((d.restartSup 0).restartSup 1).setFlag Reg.SUPV_PAIR_STATUS.TAKING_OVER false
  let d := (d.showEnables.checkCages).pairsCheck
  ((List.range 8).foldl Dev.ptpCheck d).checkSeal

/-- A candidate fails a check of R55: its result is kept, the configuration reset, and the next candidate tried. -/
def Dev.failCandidate (d : Dev) (nv code : Nat) : Dev :=
  let d := d.configReset.setResult nv code
  { d with boot := { d.boot with cand := none, tried := d.boot.tried ++ [nv] } }.wr Reg.DEV_BOOT_STATUS.PHASE 2

/-! ### Header (R44 step 4, R55) -/

/-- IMAGE_HEADER_CHECK: the next candidate's header, section table and signature; with none left the device enters recovery. -/
def headerCheck (d : Dev) : Dev :=
  if d.phase = 2 && d.boot.cand.isNone && d.bootRuns then
    match (bootOrder (d.rd Reg.DEV_STRAP.BOOT_SEL)).find? fun nv => !d.boot.tried.contains nv with
    | none => d.enterRecovery
    | some nv =>
      let n := d.nvm nv
      let code := if n.ok then headerCode d.boot.fuses (imageRegion n.capacity) n.image else 0x10
      if code ≠ 0x01 then d.failCandidate nv code
      else
        let h := imgHeader n.image
        let l : Load := { nv := nv, hdr := h, sects := imgSections n.image h, cur := 0, pos := 0, fwHash := [] }
        { d with boot := { d.boot with cand := some l } }.wr Reg.DEV_BOOT_STATUS.PHASE 3
  else d

def execImageHeaderCheck (s : State) : Host.Outcome State Fault Refusal := s.on headerCheck

/-! ### Sections (R44 step 5, R49) -/

/-- The candidate being applied and its current section. -/
def Dev.loading (d : Dev) : Option (Load × Section) :=
  if d.phase = 3 && d.bootRuns then
    match d.boot.cand with
    | some l => (l.sects[l.cur]?).map fun s => (l, s)
    | none => none
  else none

/-- A section for a higher stepping is hashed and not applied. -/
def Dev.skips (d : Dev) (s : Section) : Bool := decide (d.rd Reg.DEV_IDENT.STEPPING < s.minStep)

def Dev.setCand (d : Dev) (l : Load) : Dev := { d with boot := { d.boot with cand := some l } }

/-- NVMs in use: discovered, of the two. -/
def Dev.nvms (d : Dev) : List Nat := [0, 1].filter fun nv => (d.nvm nv).ok

/-- Sequences journaled and WRITTEN. -/
def Dev.journaled (d : Dev) : List Nat :=
  d.nvms.flatMap fun nv => ((d.nvm nv).journal.filter fun e => e.written == 0).map fun e => e.seq

/-- Numbers in ascending order. -/
def sortNat (l : List Nat) : List Nat := l.foldr (fun x r => r.takeWhile (fun y => decide (y < x)) ++ x :: r.dropWhile fun y => decide (y < x)) []

/-- The last section has been applied (R44 step 6): the image has loaded, unless its Vats exceed the stacks (R241), and HBM
training begins. The journals' sequences above SEQ_BASE stand to be replayed (R61). -/
def Dev.finishLoad (d : Dev) (l : Load) : Dev :=
  if 62 < d.rd Reg.BUFF_VAT_CFG.S_SIZE + d.rd Reg.BUFF_VAT_CFG.M_SIZE then d.failCandidate l.nv 0x19
  else
    let d := (d.setResult l.nv 0x01).wr Reg.DEV_BOOT_STATUS.SOURCE (l.nv + 1)
    let d := { d with boot := { d.boot with
      cand := none, loaded := some l, replay := some (sortNat (d.journaled.eraseDups.filter fun q => decide (l.hdr.seqBase < q))) } }
    (d.wr Reg.DEV_BOOT_STATUS.PHASE 4).powerHbm

/-- The next section is streamed. -/
def Dev.nextSection (d : Dev) (l : Load) : Dev :=
  if l.cur + 1 < l.sects.length then d.setCand { l with cur := l.cur + 1, pos := 0 } else d.finishLoad l

/-- FIRMWARE_SECTION_LOAD (R49, R55): the first section, its hash and Daxnov's signature; Chewipor starts. -/
def firmwareLoad (d : Dev) : Dev :=
  match d.loading with
  | some (l, s) =>
    let img := (d.nvm l.nv).image
    if l.cur ≠ 0 then d
    else if !sectionHashOk img s then d.failCandidate l.nv 0x17
    else if !firmwareOk (sectionBytes img s) then d.failCandidate l.nv 0x18
    else (if d.skips s then d else d.startSups).nextSection { l with fwHash := s.hash }
  | none => d

def execFirmwareSectionLoad (s : State) : Host.Outcome State Fault Refusal := s.on firmwareLoad

/-- SECTION_HASH_CHECK (R55): the current section's hash; once its records are applied the next section follows. Bytes that are
no record refuse the image. -/
def sectionCheck (d : Dev) : Dev :=
  match d.loading with
  | some (l, s) =>
    let img := (d.nvm l.nv).image
    let rest := (sectionBytes img s).drop l.pos
    if l.cur = 0 then d
    else if !sectionHashOk img s then d.failCandidate l.nv 0x17
    else if d.skips s || rest.isEmpty then d.nextSection l
    else if (recAt s.typ rest).isNone then d.failCandidate l.nv 0x19
    else d
  | none => d

def execSectionHashCheck (s : State) : Host.Outcome State Fault Refusal := s.on sectionCheck

/-! ### Records (R51 to R54) -/

/-- The code with which a key record is refused (R53, R215, R55), 0 where it is not. -/
def keyCode (f : Fuses) (slot kind res : Nat) (nonce key tag : List Byte) : Nat :=
  let zeros := (nonce ++ tag).all (· == 0)
  if res ≠ 0 then 0x19
  else if kind = 0 then (if slot ≤ 511 && zeros then 0 else 0x19)
  else if kind = 1 then (if 511 < slot || !zeros then 0x19 else if edKeyOk key then 0 else 0x1A)
  else if kind = 2 then
    (if 511 < slot then 0x19 else if (gcmOpen f.kek nonce (keyHead slot kind res ++ le 4 f.realm) key tag).isSome then 0 else 0x1A)
  else if kind = 0x10 then (if slot = 0 || 8 < slot || !zeros then 0x19 else if edKeyOk key then 0 else 0x1A)
  else 0x19

/-- The key that a record carries, decrypted where it is a secret. -/
def keyPlain (f : Fuses) (slot kind res : Nat) (nonce key tag : List Byte) : List Byte :=
  if kind = 2 then (gcmOpen f.kek nonce (keyHead slot kind res ++ le 4 f.realm) key tag).getD [] else key

/-- A key record takes effect: on a slot, or in the amendment engine. -/
def Dev.applyKey (d : Dev) (slot kind res : Nat) (nonce key tag : List Byte) : Dev :=
  let k := keyPlain d.boot.fuses slot kind res nonce key tag
  if kind = 0x10 then { d with boot := { d.boot with delegates := tput d.boot.delegates [] slot k } } else d.writeKey slot kind k

/-- A store record is refused (R54). -/
def storeBad (pipes res first res2 count : Nat) : Bool :=
  decide (16 ≤ pipes) || res != 0 || res2 != 0 || decide (16383 < first) || decide (16384 < first + count)

/-- Words written from `first` on into halves of pipeline `p`'s store. -/
def Dev.writeWords (d : Dev) (p : Nat) (halves : List Nat) (first : Nat) (words : List Nat) : Dev :=
  (List.range words.length).foldl (fun (d : Dev) k =>
    halves.foldl (fun (d : Dev) h => d.writeStore p h (first + k) ((words[k]?).getD 0)) d) d

/-- Pipelines of a PIPE_MASK. -/
def pipesOf (mask : Nat) : List Nat := [0, 1, 2, 3].filter mask.testBit

/-- A store record of an image (R54, R113): both halves of every copy. -/
def Dev.loadStore (d : Dev) (pipes first : Nat) (words : List Nat) : Dev :=
  let d := (pipesOf pipes).foldl (fun (d : Dev) p => d.writeWords p [0, 1] first words) d
  { d with boot := { d.boot with
    storePipes := d.boot.storePipes ++ (pipesOf pipes).filter fun p => !d.boot.storePipes.contains p } }

/-- A record of an image applied, or the code that refuses it. -/
def Dev.imageRec (d : Dev) (r : CfgRec) : Nat × Dev :=
  match r with
  | .reg a m v => match d.loadReg a m v with
    | some e => (0, e)
    | none => (0x19, d)
  | .bulk tid flags ew res first es => match d.loadBulk tid flags ew res first es with
    | some e => (0, e)
    | none => (0x19, d)
  | .key slot kind res nonce key tag =>
    let c := if kind = 0 then 0x19 else keyCode d.boot.fuses slot kind res nonce key tag
    (c, if c = 0 then d.applyKey slot kind res nonce key tag else d)
  | .store pipes res first res2 words =>
    if storeBad pipes res first res2 words.length then (0x19, d) else (0, d.loadStore pipes first words)

/-- The loader takes a record, where it is the next one of the section being streamed. A refused record fails the image, with
the code of an earlier check of R55 where the section's hash fails too. -/
def Dev.loadRecord (d : Dev) (r : CfgRec) : Dev :=
  match d.loading with
  | some (l, s) =>
    let img := (d.nvm l.nv).image
    if l.cur = 0 || d.skips s then d
    else
      match recAt s.typ ((sectionBytes img s).drop l.pos) with
      | some (x, n) =>
        if x = r then
          match d.imageRec r with
          | (0, e) => e.setCand { l with pos := l.pos + n }
          | (c, _) => d.failCandidate l.nv (if sectionHashOk img s then c else 0x17)
        else d
      | none => d
  | none => d

/-- REGISTER_WRITE_RECORD (R51). -/
def execRegisterWriteRecord (addr mask value : Nat) (s : State) : Host.Outcome State Fault Refusal :=
  s.on fun d => Dev.loadRecord d (.reg addr mask value)

/-- BULK_TABLE_RECORD (R52). -/
def execBulkTableRecord (tid flags entryWords res first : Nat) (entries : List (List Nat)) (s : State) :
    Host.Outcome State Fault Refusal :=
  s.on fun d => Dev.loadRecord d (.bulk tid flags entryWords res first entries)

/-- KEY_RECORD (R53). -/
def execKeyRecord (slot kind res : Nat) (nonce key tag : List Byte) (s : State) : Host.Outcome State Fault Refusal :=
  s.on fun d => Dev.loadRecord d (.key slot kind res nonce key tag)

/-- STORE_RECORD (R54). -/
def execStoreRecord (pipes res first res2 : Nat) (words : List Nat) (s : State) : Host.Outcome State Fault Refusal :=
  s.on fun d => Dev.loadRecord d (.store pipes res first res2 words)

/-! ### HBM training (R44 steps 6 and 7, R242, R247, R255) -/

/-- A stack has trained: the free lists of its Vat halves are threaded; with the first stack the privileged Vats have blocks. -/
def Dev.stackUp (d : Dev) (s : Nat) : Dev :=
  let first := !d.hbmUp 0 && !d.hbmUp 1
  let d := d.setFlag (Reg.BUFF_HBM_STATUS.TRAINED s) true
  let d := [0, 1, 2].foldl (fun (d : Dev) v => (d.setVatHalf v s FreeList.zero).wr (Reg.BUFF_VAT_FREE.FREE v s) (d.vatBlocks v)) d
  if first then
    let d := { d with vat := { d.vat with sealP := Priv.zero, supP := Priv.zero } }
    (d.wr Reg.BUFF_PRIV_FREE.SEAL_FREE 16384).wr Reg.BUFF_PRIV_FREE.SUP_FREE 32768
  else d

/-- HBM_TRAINING_DONE: a stack's training ends; one that does not complete it fails. -/
def hbmTrained (stack : Nat) (ok : Bool) (d : Dev) : Dev :=
  if stack < 2 && (d.phase == 4 || d.phase == 6) && !d.boot.hbmDone.contains stack then
    let d := { d with boot := { d.boot with hbmDone := d.boot.hbmDone ++ [stack] } }
    if d.flag (Reg.BUFF_HBM_STATUS.FAILED stack) then d else if ok then d.stackUp stack else d.failStack stack 1
  else d

def execHbmTrainingDone (stack : Nat) (ok : Bool) (s : State) : Host.Outcome State Fault Refusal := s.on (hbmTrained stack ok)

/-! ### Forwarding release (R44 step 8) -/

/-- Every base stands in FREERUN with FREQ zero (R308, R314), and START_MARK is its presentation time (R218). -/
def Dev.releaseTime (d : Dev) : Dev :=
  let d := (List.range 8).foldl (fun (d : Dev) t =>
    let d := d.setTb t { d.tb t with integ := 0, good := 0, bad := 0 }
    let d := ((d.wr (Reg.TIME_TB_STATUS.STATE t) 0).setFlag (Reg.TIME_TB_STATUS.SYNC t) false).setFlag (Reg.TIME_TB_STATUS.EVER_LOCKED t) false
    (d.wr (Reg.TIME_TB_FREQ.VALUE t) 0).wr (Reg.TIME_TB_AVG.VALUE t) 0) d
  let d := { d with time := { d.time with
    startMark := (List.range 8).foldl (fun (m : Tab Nat) t => tput m 0 t (d.presNs t)) d.time.startMark, startSet := [] } }
  d.tioLate

/-- Beater copies enter service in the pipelines for which the image held a store record (R113, R140). -/
def Dev.releaseStores (d : Dev) : Dev :=
  let d := d.boot.storePipes.foldl (fun (d : Dev) p => d.wr (Reg.PARS_COPY_STATUS.OUT p) 0) d
  [0, 1, 2, 3].foldl Dev.copiesFollow d

/-- Schedules of the image are installed (R178, R291). -/
def Dev.releaseGates (d : Dev) : Dev :=
  let d := (List.range 258).foldl (fun (d : Dev) n => if d.flag (Reg.EGRS_GATE_CTRL.GATE_EN n) then d.installGates n else d) d
  [0, 1, 2, 3].foldl (fun (d : Dev) p =>
    (d.tabIndices (ctxTid p) 65536).foldl (fun (d : Dev) h =>
      if d.sctx p h 0 31 1 = 1 && d.sctx p h 0 30 1 = 1 then d.installStream p h else d) d) d

/-- Checks made at release (R69, R93, R165, R188, R227, R319). -/
def Dev.releaseChecks (d : Dev) : Dev :=
  let d := (d.checkPairs.checkMirrors).checkSeal
  let d := ((List.range 8).foldl Dev.ptpCheck d).pairsCheck
  let d := (List.range 256).foldl (fun (d : Dev) k => d.applyTxeq (k / 4) (k % 4)) d
  (List.range 258).foldl Dev.portCheck d

/-- Power of what starts at release (R230, R404, R409). -/
def Dev.releasePower (d : Dev) : Dev :=
  let d := (List.range 64).foldl (fun (d : Dev) g => if d.rd (Reg.PORT_GRP_MODE.MODE g) = 0 then d else d.groupPower g) d
  [0, 1, 2, 3].foldl (fun (d : Dev) c => if d.bitOf Reg.SEAL_CFG.CLU_EN c then d.requestTokens (80 + c) (holderLevel (80 + c)) else d) d

/-- Every hash seed register (R52, R193). -/
def allSeeds : List Nat := seedsOf 0x4FF0 ++ [0, 1, 2, 3].map Reg.STRM_ID_SEED.addr ++ [Reg.SEAL_CTX_SEED.addr, Reg.STRM_RN_SEED.addr]

/-- FORWARDING_RELEASE (R44 step 8): once the journals are replayed and training has ended in both stacks. -/
def forwardingRelease (d : Dev) : Dev :=
  if d.phase = 4 && d.boot.replay == some [] && d.boot.hbmDone.length == 2 && d.bootRuns then
    let d := { d with boot := { d.boot with released := true } }
    let d := (d.latch allSeeds).fabricRelease.releaseTime
    let d := d.releaseStores.releaseChecks.releaseGates
    let d := { d with vat := { d.vat with rot := [] } }
    let d := d.releasePower.moduleStart
    let d := { d.setFlag Reg.DEV_AUDIT_STATUS.RUNNING true with audit := { d.audit with checkAt := d.now, comparing := false, terms := [] } }
    let d := d.wr Reg.DEV_BOOT_TIME.RELEASE_US ((d.now - d.boot.t0) / 1000)
    let d := d.wr Reg.DEV_BOOT_STATUS.PHASE 5
    { d with supv := { d.supv with refRegs := d.regs, refTabs := d.tabs } }
  else d

def execForwardingRelease (s : State) : Host.Outcome State Fault Refusal := s.on forwardingRelease

/-- FUSE_ADVANCE (R42): after release, where the image asks for it, epoch fuses are blown up to its SECURITY_EPOCH. -/
def fuseAdvance (d : Dev) : Dev :=
  match d.boot.loaded with
  | some l =>
    if d.boot.released && l.hdr.flags % 2 == 1 && decide (d.boot.fuses.epoch < l.hdr.epoch) then
      let d := { d with boot := { d.boot with fuses := { d.boot.fuses with epoch := l.hdr.epoch } } }
      d.wr Reg.DEV_FUSE_COUNT.EPOCH l.hdr.epoch
    else d
  | none => d

def execFuseAdvance (s : State) : Host.Outcome State Fault Refusal := s.on fuseAdvance

/-- RECOVERY_RESTART (R68): 100 ms after the last write of an image store in recovery the device restarts from step 1 of R44,
with its straps as latched. -/
def recoveryRestart (d : Dev) : Dev :=
  match d.boot.restartAt with
  | some t =>
    if d.boot.recovery && decide (t + 100000000 ≤ d.now) then
      let sel := d.rd Reg.DEV_STRAP.BOOT_SEL
      let mode := d.rd Reg.DEV_STRAP.NVM_MODE
      (d.fullReset false { d.hold with clocks := false }).timeZero sel mode
    else d
  | none => d

def execRecoveryRestart (s : State) : Host.Outcome State Fault Refusal := s.on recoveryRestart

/-! ### Machine check of a supervisor (R332, R46) -/

/-- The boot ROM runs on a supervisor: before step 5 of R44. -/
def Dev.romOn (d : Dev) (s : Nat) : Bool :=
  decide (d.phase < 4) && s == d.bootSup && d.role s == 0 && !d.flag (Reg.SUPV_CORE_STATUS.DISABLED s)

/-- SUPV_MACHINE_CHECK: a running supervisor fails; one of SUP-A before step 5 moves the boot to SUP-B. -/
def supMachineCheck (s : Nat) (d : Dev) : Dev :=
  if s < 2 && d.supRuns s then d.failSup s 2
  else if s < 2 && d.romOn s then
    let d := d.failSup s 2
    if s = 0 then { d with boot := { d.boot with bootOnB := true } } else d
  else d

def execSupvMachineCheck (sup : Nat) (s : State) : Host.Outcome State Fault Refusal := s.on (supMachineCheck sup)

end Sys2Proof.Machine
end

