-- ==== Sys2Proof/Machine/Amend.lean ====
section
/-! DEFINITION. Amendments (R56 to R66): checks, the journals, replay at start, staging, arming, commit and cleanup; the image
store (R68); and the end of a takeover (R334), which hands amendments, requests and exchanges to the new supervisor. -/

namespace Sys2Proof.Machine

/-! ### What an amendment may change (R58, R114, R304) -/

/-- Registers of an amendment outside zone STRM, with the bits it may touch. -/
def amendMask (name : String) : Nat :=
  if ["PORT_GRP_MODE", "PORT_CFG", "SEAL_PROTECT", "SEAL_INGRESS", "SEAL_Q_RES", "SEAL_Q_BLOCKS", "SEAL_SLOT_POLICY",
      "SEAL_SLOT_WINDOW", "EGRS_GATE_CTRL", "EGRS_GATE_LIST", "EGRS_GATE_BASE_NS", "EGRS_GATE_BASE_SLO", "EGRS_GATE_BASE_SHI",
      "EGRS_GATE_CYCLE", "EGRS_CBS_IDLE", "EGRS_CBS_CREDIT", "EGRS_TBS_RATE", "EGRS_TBS_BURST", "EGRS_PORT_SHAPE"].contains name
  then 2 ^ 32 - 1
  else if name = "EGRS_PORT_SCHED" then 0xFFFF
  else if name = "PARS_CFG" then 0xF00000 else 0

/-- An address lies in STRM units 0x00 to 0x03. -/
def strmUnit (a : Nat) : Bool := decide (0x05000000 ≤ a) && decide (a < 0x05040000)

/-- A register record is within the permitted changes. -/
def regPermitted (a mask : Nat) : Bool :=
  match findReg a with
  | none => false
  | some (r, _) =>
    if strmUnit a then !(["STRM_BLOCKS_LO", "STRM_BLOCKS_HI", "STRM_ID_SEED"].contains r.name)
    else amendMask r.name != 0 && mask &&& amendMask r.name == mask

/-- A record is within the permitted changes. -/
def recPermitted (r : CfgRec) : Bool :=
  match r with
  | .reg a m _ => regPermitted a m
  | .bulk tid _ _ _ _ _ => tableAmendable tid
  | .key _ kind _ _ _ _ => kind != 0x10
  | .store _ _ first _ _ => decide (12288 ≤ first)

/-! ### Checks (R57) -/

/-- The amendment is addressed to this device. -/
def Dev.targeted (d : Dev) (a : AmdRec) : Bool :=
  let n := d.boot.fuses.devnum
  if a.list then a.targets.contains n else decide (a.first ≤ n) && decide (n ≤ a.last)

/-- The entry of an NVM's journal for a sequence, WRITTEN (R60); of several the first. -/
def Dev.entryOf (d : Dev) (nv seq : Nat) : Option JEntry := (d.nvm nv).journal.find? fun e => e.seq == seq && e.written == 0

/-- The highest sequence that a new amendment must exceed (code 0x05). -/
def Dev.lastSeq (d : Dev) : Nat :=
  let base := match d.boot.loaded with
    | some l => l.hdr.seqBase
    | none => 0
  (d.journaled ++ d.boot.amds.map fun (a : Amd) => a.seq).foldl max base

/-- Timed amendments journaled or accepted, as their records. -/
def Dev.timedRecs (d : Dev) : List AmdRec :=
  let js := d.nvms.flatMap fun nv => ((d.nvm nv).journal.filter fun e => e.written == 0).map fun e => e.bytes
  ((js ++ d.boot.amds.map fun (a : Amd) => a.bytes).filterMap parseAmd).filter fun a => !a.immediate

/-- NVMs whose journal has room for a record (R60). -/
def Dev.roomFor (d : Dev) (len : Nat) : List Nat :=
  d.nvms.filter fun nv => decide (journalUsed (d.nvm nv).journal + entrySize len ≤ journalSize)

/-- The code of R57 with which an amendment is refused, 0 where it passes. `replay` leaves out the checks against other
sequences, against time and against the journals' room (R61). -/
def Dev.amdCode (d : Dev) (replay : Bool) (a : AmdRec) : Nat :=
  if a.realm ≠ d.boot.fuses.realm then 0x02
  else if !d.targeted a then 0x0D
  else if !(match d.signerKey a.signer with | some k => ed25519Verify k a.signedPart a.sig | none => true) then 0x03
  else if (d.signerKey a.signer).isNone || (a.signer != 0 && a.keyChunk) then 0x04
  else if !replay && decide (a.seq ≤ d.lastSeq) then 0x05
  else if !replay && !a.immediate && decide (a.act ≤ d.presNs a.tb) then 0x06
  else if !replay && !a.immediate && d.timedRecs.any (fun x => decide (x.seq < a.seq) && decide (a.act < x.act)) then 0x07
  else if !a.recs.all recPermitted then 0x08
  else if 2 ^ 20 < a.len then 0x09
  else if !replay && (d.roomFor a.len).isEmpty then 0x0A
  else 0

/-! ### Submission and journal (R57, R59, R60) -/

/-- The code of a rejection is kept and logged (R57). -/
def Dev.rejectAmd (d : Dev) (code origin seq : Nat) : Dev :=
  (d.wr Reg.DEV_AMD_STATUS.LAST_REJECT code).logFrom d.supOrigin 0x0010 0 (noReg ++ le 1 code ++ le 1 origin ++ le 2 0 ++ le 8 seq)

/-- A marker not yet programmed. -/
def unset : Nat := 0xFFFFFFFF

/-- An entry appended to the journal of each NVM with room. -/
def Dev.appendEntry (d : Dev) (seq : Nat) (bytes : List Byte) : Dev :=
  (d.roomFor bytes.length).foldl (fun (d : Dev) nv =>
    d.setNvm nv { d.nvm nv with
      journal := (d.nvm nv).journal ++ [({ seq := seq, written := unset, committed := unset, abandoned := unset, bytes := bytes } : JEntry)] }) d

/-- An amendment submitted as bytes: rejected, not targeted, or accepted and being journaled. -/
def Dev.takeAmd (d : Dev) (ch : Nat) (q : Request) (src : List Byte) : Dev :=
  match parseAmd src with
  | none => (d.rejectAmd 0x01 q.origin (if 24 ≤ src.length then num src 16 8 else 0)).status ch q 8 0x01
  | some a =>
    let c := d.amdCode false a
    if c = 0x0D then d.status ch q 0 0x0D
    else if c ≠ 0 then (d.rejectAmd c q.origin a.seq).status ch q 8 c
    else
      let b := src.take a.len
      let d := (d.appendEntry a.seq b).openExchange ch q
      let d := { d with boot := { d.boot with
        amds := d.boot.amds ++ [({ seq := a.seq, bytes := b, chan := ch, tag := q.tag, phase := .journaling } : Amd)] } }
      d.showJournal

/-- AMEND_SUBMIT (R57, R371): taken only after forwarding release. `bytes` is what a source in host memory holds; an inline
record follows its descriptor. -/
def amendSubmit (chan : Nat) (bytes : List Byte) (d : Dev) : Dev :=
  if d.boot.released || d.boot.recovery then
    d.request chan 0x20 1 false fun d q =>
      match descriptor (slice q.body 0 16) true (decide (0x100 ≤ chan)) with
      | none => d.status chan q 3 0
      | some (kind, len, _) =>
        if kind = 0 then
          if q.body.length ≠ 16 then d.status chan q 3 0
          else if !d.dmaReady then d.status chan q 9 5
          else d.takeAmd chan q (slice bytes 0 len)
        else d.takeAmd chan q (q.body.drop 16)
  else d

def execAmendSubmit (chan : Nat) (bytes : List Byte) (s : State) : Host.Outcome State Fault Refusal := s.on (amendSubmit chan bytes)

/-- The last element that satisfies `p` changed. -/
def changeLast {α : Type} (p : α → Bool) (f : α → α) (l : List α) : List α :=
  match l.reverse.findIdx? p with
  | some k => l.modify (l.length - 1 - k) f
  | none => l

/-- The entry of a sequence that an NVM took last, changed where the NVM can be written (R60). -/
def Dev.markEntry (d : Dev) (nv seq : Nat) (f : JEntry → JEntry) : Dev :=
  if (d.nvm nv).ok && (d.nvm nv).writable then
    d.setNvm nv { d.nvm nv with journal := changeLast (fun (e : JEntry) => e.seq == seq) f (d.nvm nv).journal }
  else d

/-- The amendment of a sequence leaves the list. -/
def Dev.dropAmd (d : Dev) (seq : Nat) : Dev :=
  { d with boot := { d.boot with amds := d.boot.amds.filter fun (a : Amd) => a.seq != seq } }

/-- The amendments of a set of sequences change phase. -/
def Dev.setPhase (d : Dev) (f : Amd → Bool) (p : AmdPhase) : Dev :=
  { d with boot := { d.boot with amds := d.boot.amds.map fun (a : Amd) => if f a then { a with phase := p } else a } }

/-- DEGRADED follows the journals; one NVM in use is logged when it begins (R59). -/
def Dev.showDegraded (d : Dev) (good : List Nat) : Dev :=
  let was := d.flag Reg.DEV_AMD_STATUS.DEGRADED
  let deg := decide (good.length < 2)
  let d := d.setFlag Reg.DEV_AMD_STATUS.DEGRADED deg
  if deg && !was then d.logFrom d.supOrigin 0x0013 0 (d.regData Reg.DEV_AMD_STATUS.addr ++ le 1 (good.headD 0 + 1)) else d

/-- JOURNAL_WRITTEN (R59): programming of an entry ends, per NVM read back or failed. -/
def journalWritten (seq : Nat) (okA okB : Bool) (d : Dev) : Dev :=
  match d.boot.amds.find? fun (a : Amd) => a.seq == seq && a.phase == .journaling with
  | none => d
  | some a =>
    if !d.supRunning then d
    else
      let holds (nv : Nat) : Bool := (d.nvm nv).ok && (d.nvm nv).journal.any fun e => e.seq == seq
      let good := [0, 1].filter fun nv => holds nv && (d.nvm nv).writable && (if nv = 0 then okA else okB)
      if good.isEmpty then
        let origin := if a.chan < 4 then 1 else if a.chan = 4 then 0x20 else 0x40 + (d.chan a.chan).port - 256
        ((d.dropAmd seq).rejectAmd 0x0C origin seq).answer a.chan 0x20 a.tag 8 0x0C []
      else
        let d := good.foldl (fun (d : Dev) nv => d.markEntry nv seq fun (e : JEntry) => { e with written := 0 }) d
        let d := (d.setPhase (fun (x : Amd) => x.seq == seq) .waiting).showDegraded good
        d.answer a.chan 0x20 a.tag 0 0 []

def execJournalWritten (seq : Nat) (okA okB : Bool) (s : State) : Host.Outcome State Fault Refusal := s.on (journalWritten seq okA okB)

/-! ### Staging (R62) -/

/-- A register file and indexed tables with a staged record over them. -/
def Dev.overlay (d : Dev) (r : CfgRec) : Dev :=
  match r with
  | .reg a m v => match findReg a with
    | some (x, _) => d.setReg a (recordWord x (d.reg a) m v)
    | none => d
  | .bulk tid flags _ _ first es => if flags % 2 = 1 then d else
    (bulkEntries tid first es).foldl (fun (d : Dev) x => d.putEntry x.1 x.2.1 x.2.2) d
  | _ => d

/-- The registers and indexed tables as the commit of the shadow will leave them. -/
def Dev.next (d : Dev) : Dev := d.boot.shadow.foldl Dev.overlay d

/-- The registers a shadow changes. -/
def shadowRegs (l : List CfgRec) : List Nat :=
  (l.filterMap fun r => match r with | .reg a _ _ => some a | _ => none).eraseDups

/-- The records a shadow holds, with one more. -/
def Dev.addShadow (d : Dev) (r : CfgRec) : Dev := { d with boot := { d.boot with shadow := d.boot.shadow ++ [r] } }

/-- A schedule runs through an entry of its list. -/
def Sched.uses (s : Sched) (i : Nat) : Bool := decide (s.first ≤ i) && decide (i < s.first + s.len)

/-- A gate list entry is referenced by a schedule in operation or pending (R178, R291). -/
def Dev.entryInUse (d : Dev) (tid i : Nat) : Bool :=
  let u := tid / 16 % 256
  let used (a b : Option Sched) : Bool := (a.map fun s => s.uses i).getD false || (b.map fun s => s.uses i).getD false
  if tid / 4096 = 9 then
    ((if u = 0 then [256, 257] else []) ++ (List.range 4).map (4 * u + ·)).any fun n => used (d.egate n).oper (d.egate n).pend
  else if tid / 4096 = 5 ∧ tid % 16 = 2 then
    d.strm.gate.any fun e => d.handleOwner e.1 == some u && used e.2.oper e.2.pend
  else false

/-- The pipelines whose store a shadow writes. -/
def shadowStores (l : List CfgRec) : List Nat :=
  [0, 1, 2, 3].filter fun p => l.any fun r => match r with | .store m _ _ _ _ => m.testBit p | _ => false

/-- The half of the customer region in use, and the other (R113). -/
def Dev.halfNow (d : Dev) (p : Nat) : Nat := tget d.beat.half 0 p
def Dev.halfNext (d : Dev) (p : Nat) : Nat := 1 - d.halfNow p

/-- Each copy of a pipeline copies its current half into its shadow half (R113): a flipped bit goes with its word. -/
def Dev.copyHalf (d : Dev) (p : Nat) : Dev :=
  let a := d.halfNow p
  let b := d.halfNext p
  let d := { d with beat := { d.beat with
    store := d.beat.store.filter fun e => e.1 / 2 ^ 14 != 2 * p + b || decide (e.1 % 2 ^ 14 < custBase),
    bad := d.beat.bad.filter fun e => e.1 / 2 ^ 19 != p || e.1 / 2 ^ 14 % 2 != b || decide (e.1 % 2 ^ 14 < custBase) } }
  let words := (d.beat.store.filter fun e => e.1 / 2 ^ 14 == 2 * p + a && decide (custBase ≤ e.1 % 2 ^ 14)).map fun e => (e.1 % 2 ^ 14, e.2)
  let flips := (d.beat.bad.filter fun e => e.1 / 2 ^ 19 == p && e.1 / 2 ^ 14 % 2 == a && decide (custBase ≤ e.1 % 2 ^ 14)).map fun e => e
  let d := words.foldl (fun (d : Dev) w => d.writeStore p b w.1 w.2) d
  flips.foldl (fun (d : Dev) (e : Nat × Nat) => d.flipWord p (e.1 / 2 ^ 15 % 16) b (e.1 % 2 ^ 14) e.2) d

/-- Words staged into the shadow half of a pipeline. -/
def Dev.stageWords (d : Dev) (p first : Nat) (words : List Nat) : Dev := d.writeWords p [d.halfNext p] first words

/-- A register record is staged; none where it is refused (R51). -/
def Dev.stageReg (d : Dev) (a m v : Nat) : Option Dev :=
  let n := d.next
  if d.recordRefused a m then none
  else
    match findReg a with
    | none => none
    | some (r, ix) => if n.valueRefused r ix (recordWord r (n.reg a) m v).toNat then none else some (d.becCount 0x1F a .write)

/-- A keyed record is staged (R62), judged by the registers as the shadow leaves them. -/
def Dev.stageKeyed (d : Dev) (tid flags : Nat) (es : List (List Nat)) : Option Dev :=
  (d.next.keyedRecord tid flags es true).map fun (e : Dev) =>
    (shadowRegs d.boot.shadow).foldl (fun (e : Dev) a => e.setReg a (d.reg a)) { e with tabs := d.tabs }

/-- A table record is staged; none where it is refused (R52, R178, R291). -/
def Dev.stageBulk (d : Dev) (tid flags entryWords res first : Nat) (es : List (List Nat)) : Option Dev :=
  let n := d.next
  if bulkBad tid flags entryWords res first es then none
  else if flags % 2 = 1 then d.stageKeyed tid flags es
  else if (bulkEntries tid first es).any fun x => n.entryBad x.1 x.2.1 x.2.2 || d.entryInUse x.1 x.2.1 then none
  else some d

/-- A store record is staged; the copies of a pipeline take over their current half first (R113). -/
def Dev.stageStore (d : Dev) (pipes first : Nat) (words : List Nat) : Dev :=
  (pipesOf pipes).foldl (fun (d : Dev) p =>
    (if (shadowStores d.boot.shadow).contains p then d else d.copyHalf p).stageWords p first words) d

/-- One record of an amendment is staged; none where staging cannot complete. -/
def Dev.stageRec (d : Dev) (r : CfgRec) : Option Dev :=
  (match r with
    | .reg a m v => d.stageReg a m v
    | .bulk tid flags ew res first es => d.stageBulk tid flags ew res first es
    | .key slot kind res nonce key tag => if keyCode d.boot.fuses slot kind res nonce key tag = 0 then some d else none
    | .store pipes res first res2 words =>
      if storeBad pipes res first res2 words.length then none else some (d.stageStore pipes first words)).map fun (d : Dev) =>
        d.addShadow r

/-- The records of an amendment are staged in order. -/
def Dev.stageAll (d : Dev) (rs : List CfgRec) : Option Dev :=
  rs.foldl (fun (a : Option Dev) r => a.bind fun (d : Dev) => d.stageRec r) (some d)

/-- An amendment is abandoned (R62): never applied on any start. -/
def Dev.abandonAmd (d : Dev) (seq : Nat) : Dev :=
  let d := [0, 1].foldl (fun (d : Dev) nv => d.markEntry nv seq fun (e : JEntry) => if e.written = 0 then { e with abandoned := 0 } else e) d
  ((d.dropAmd seq).wr Reg.DEV_AMD_STATUS.LAST_REJECT 0x0B).logFrom d.supOrigin 0x0011 0 (noReg ++ le 8 seq)

/-- The amendments in the shadow, in REALM_SEQ order of staging. -/
def Dev.stagedAmds (d : Dev) : List (Amd × AmdRec) :=
  (d.boot.amds.filter fun (a : Amd) => a.phase == .staged).filterMap fun (a : Amd) => (parseAmd a.bytes).map fun r => (a, r)

/-- The lowest sequence among some amendments. -/
def lowestAmd (l : List (Amd × AmdRec)) : Option (Amd × AmdRec) :=
  l.foldl (fun (b : Option (Amd × AmdRec)) x => match b with
    | none => some x
    | some y => if x.1.seq < y.1.seq then some x else some y) none

/-- The amendment to be staged next: the lowest sequence while nothing is staged, else one of the same activation instant
(R62). -/
def Dev.nextAmd (d : Dev) : Option (Amd × AmdRec) :=
  let wait := (d.boot.amds.filter fun (a : Amd) => a.phase == .waiting).filterMap fun (a : Amd) => (parseAmd a.bytes).map fun r => (a, r)
  match d.stagedAmds.head? with
  | none => lowestAmd wait
  | some (_, r) => if r.immediate then none else lowestAmd (wait.filter fun x => !x.2.immediate && x.2.tb == r.tb && x.2.act == r.act)

/-- AMENDMENT_STAGE (R62): the next amendment is written into the shadow, or abandoned. An armed commit that it joins is armed
anew when its staging completes. -/
def amendmentStage (d : Dev) : Dev :=
  if d.boot.released && d.supRunning && d.boot.cleanup.isEmpty then
    match d.nextAmd with
    | none => d
    | some (a, r) =>
      match d.stageAll r.recs with
      | none => d.abandonAmd a.seq
      | some e =>
        let e := (e.setPhase (fun (x : Amd) => x.seq == a.seq) .staged).setFlag Reg.DEV_AMD_STATUS.STAGED true
        { e with boot := { e.boot with armed := none } }
  else d

def execAmendmentStage (s : State) : Host.Outcome State Fault Refusal := s.on amendmentStage

/-! ### Arming and commit (R63 to R65) -/

/-- The first whole millisecond of a base's presentation time after now. -/
def Dev.nextMs (d : Dev) (tb : Nat) : Nat := (d.presNs tb / 10 ^ 6 + 1) * 10 ^ 6

/-- STAGING_COMPLETE (R63, R64): every amendment of the instant is staged, and the commit is armed in hardware. -/
def stagingComplete (d : Dev) : Dev :=
  match d.stagedAmds.head? with
  | none => d
  | some (_, r) =>
    if !d.supRunning || d.boot.armed.isSome || d.nextAmd.isSome then d
    else
      let late := !r.immediate && decide (r.act < d.presNs r.tb + 2000000)
      let due := if r.immediate || late then d.nextMs r.tb else r.act
      { d with boot := { d.boot with armed := some { tb := r.tb, act := if r.immediate then due else r.act, due := due, late := late } } }

def execStagingComplete (s : State) : Host.Outcome State Fault Refusal := s.on stagingComplete

/-- Port of an EGRS register of a port's block (R27). -/
def egrsPort (a : Nat) : Nat :=
  let g := (a - 0x09000000) / 0x10000
  let k := a % 0x10000 / 0x1000 - 4
  if g = 0 ∧ 4 ≤ k then 252 + k else 4 * g + k

/-- Class of an EGRS register of a class, from 0x100 of the port's block on. -/
def egrsClass (a : Nat) : Nat := (a % 0x1000 - 0x100) / 0x10

/-- The name and indices of a register. -/
def regAt (a : Nat) : String × List Nat :=
  match findReg a with
  | some (r, ix) => (r.name, ix)
  | none => ("", [])

/-- A gate register of a port (R289). -/
def gateReg (name : String) : Bool :=
  ["EGRS_GATE_CTRL", "EGRS_GATE_LIST", "EGRS_GATE_BASE_NS", "EGRS_GATE_BASE_SLO", "EGRS_GATE_BASE_SHI", "EGRS_GATE_CYCLE"].contains name

/-- Ports whose EGRS registers stand among some addresses, of the names that `p` takes. -/
def egrsPorts (as_ : List Nat) (p : String → Bool) : List Nat :=
  ((as_.filter fun a => decide (0x09000000 ≤ a) && decide (a < 0x09400000) && p (regAt a).1).map egrsPort).eraseDups

/-- A policer's bucket is full (R184). -/
def Dev.policerFull (d : Dev) (ix : List Nat) : Dev :=
  let key := 8 * portOf (ix.headD 0) ((ix[1]?).getD 0) + (ix[2]?).getD 0
  { d with strm := { d.strm with pol := tput d.strm.pol Bucket.full key ⟨0, d.now⟩ } }

/-- What the commit does to the shaper or policer of a changed register (R184, R294, R297). -/
def Dev.shaperChanged (d : Dev) (a : Nat) (old : Word) : Dev :=
  let (name, ix) := regAt a
  if d.reg a = old then d
  else
    match name with
    | "EGRS_CBS_IDLE" => d.cbsReset (egrsPort a) (egrsClass a)
    | "EGRS_CBS_CREDIT" => d.cbsReset (egrsPort a) (egrsClass a)
    | "EGRS_TBS_RATE" => d.tbsReset (egrsPort a) (egrsClass a)
    | "EGRS_TBS_BURST" => d.tbsReset (egrsPort a) (egrsClass a)
    | "STRM_POL_RATE" => d.policerFull ix
    | "STRM_POL_CFG" => if fget old 6 24 = fget (d.reg a) 6 24 then d else d.policerFull ix
    | _ => d

/-- A staged register record comes into force; CFG_CLAMP of a port shows a value brought into its range (R424). -/
def Dev.commitReg (d : Dev) (r : CfgRec) : Dev :=
  match r with
  | .reg a m v =>
    match findReg a with
    | none => d
    | some (x, _) =>
      let old := d.reg a
      let d := d.setReg a (recordWord x old m v)
      match portOfAddr a with
      | some n => if x.fields.any (fun (f : RField) => f.acc = Acc.rw) then d.setFlag (Reg.PORT_STATUS.CFG_CLAMP n) (recordClamped x old m v) else d
      | none => d
  | _ => d

/-- Shadow registers become current, with what their new values set going (R63, R65). -/
def Dev.commitRegs (d : Dev) : Dev :=
  let as_ := shadowRegs d.boot.shadow
  let olds := as_.map fun a => (a, d.reg a)
  let ports := egrsPorts as_ fun _ => true
  let d := ports.foldl Dev.portEvent d
  let d := d.boot.shadow.foldl Dev.commitReg d
  let d := olds.foldl (fun (d : Dev) (x : Nat × Word) => (d.regWritten x.1 x.2).shaperChanged x.1 x.2) d
  let d := if d.boot.released then (egrsPorts as_ gateReg).foldl Dev.installGates d else d
  ports.foldl Dev.wfqRefresh d

/-- The entries of indexed tables in a shadow, each once with the words staged last. -/
def shadowEntries (l : List CfgRec) : List (Nat × Nat × List Nat) :=
  let all := l.flatMap fun r => match r with
    | .bulk tid flags _ _ first es => if flags % 2 = 1 then [] else bulkEntries tid first es
    | _ => []
  all.foldl (fun (a : List (Nat × Nat × List Nat)) x => (a.filter fun y => y.1 != x.1 || y.2.1 != x.2.1) ++ [x]) []

/-- Staged keys take effect (R223). -/
def Dev.commitKey (d : Dev) (r : CfgRec) : Dev :=
  match r with
  | .key slot kind res nonce key tag => d.applyKey slot kind res nonce key tag
  | _ => d

/-- The customer region of a pipeline is switched to its shadow half (R63, R113). -/
def Dev.flipHalf (d : Dev) (p : Nat) : Dev := { d with beat := { d.beat with half := tput d.beat.half 0 p (d.halfNext p) } }

/-- The reference of R66 takes the committed registers and tables. -/
def Dev.refNext (d : Dev) : Dev :=
  let r := ({ d with regs := d.supv.refRegs, tabs := d.supv.refTabs }).next
  { d with supv := { d.supv with refRegs := r.regs, refTabs := r.tabs } }

/-- The shadow becomes current on every unit (R63), and the amendments staged in it await their cleanup. -/
def Dev.commitShadow (d : Dev) : Dev :=
  let l := d.boot.shadow
  let d := d.refNext.commitRegs
  let d := (shadowEntries l).foldl (fun (d : Dev) x => d.writeEntry x.1 x.2.1 x.2.2) d
  let d := l.foldl Dev.commitKey d
  let d := (shadowStores l).foldl Dev.flipHalf d
  let d := ((d.commitStatic.commitIds).commitCtxs.checkMirrors).checkSeal
  let done := (d.boot.amds.filter fun (a : Amd) => a.phase == .staged).map fun (a : Amd) => a.seq
  let d := { d with boot := { d.boot with
    shadow := [], armed := none, amds := d.boot.amds.filter (fun (a : Amd) => a.phase != AmdPhase.staged), cleanup := d.boot.cleanup ++ done } }
  d.setFlag Reg.DEV_AMD_STATUS.STAGED false

/-- A supervisor runs, or has begun to take over (R64, R335). -/
def Dev.supAtEdge (d : Dev) : Bool := d.supRunning || d.supv.takeover.isSome

/-- COMMIT (R63): on the first alignment edge at or after the instant armed. A commit at whose edge no supervisor runs becomes
late (R64). -/
def commitEdge (d : Dev) : Dev :=
  match d.boot.armed with
  | some a =>
    if !a.late && decide (a.due ≤ d.presNs a.tb) then
      if d.supAtEdge then d.commitShadow
      else { d with boot := { d.boot with armed := some { a with late := true, due := d.nextMs a.tb } } }
    else d
  | none => d

def execCommit (s : State) : Host.Outcome State Fault Refusal := s.on commitEdge

/-- LATE_COMMIT (R64): at the first whole millisecond with a supervisor running; LATE is set, and each amendment logged with both
instants. -/
def lateCommit (d : Dev) : Dev :=
  match d.boot.armed with
  | some a =>
    if a.late && decide (a.due ≤ d.presNs a.tb) then
      if d.supAtEdge then
        let seqs := d.stagedAmds.map fun x => x.1.seq
        let d := d.commitShadow.setFlag Reg.DEV_AMD_STATUS.LATE true
        seqs.foldl (fun (d : Dev) q =>
          d.logFrom d.supOrigin 0x0012 0 (noReg ++ le 8 q ++ instantData a.act ++ instantData (d.presNs a.tb))) d
      else { d with boot := { d.boot with armed := some { a with due := d.nextMs a.tb } } }
    else d
  | none => d

def execLateCommit (s : State) : Host.Outcome State Fault Refusal := s.on lateCommit

/-- Cleanup of the committed amendments (R63): superseded entries go, COMMITTED is set, and DEV_AMD_SEQ shows the highest
sequence. -/
def Dev.cleanUp (d : Dev) : Dev :=
  let seqs := d.boot.cleanup
  let d := seqs.foldl (fun (d : Dev) q =>
    [0, 1].foldl (fun (d : Dev) nv => d.markEntry nv q fun (e : JEntry) => if e.written = 0 then { e with committed := 0 } else e) d) d.cleanStatic
  let top := seqs.foldl max d.boot.amdSeq
  let d := { d with boot := { d.boot with cleanup := [], amdSeq := top } }
  d.wr Reg.DEV_AMD_SEQ_LO.SEQ top

/-- COMMIT_CLEANUP_DONE (R63). -/
def cleanupDone (d : Dev) : Dev := if d.supRunning && !d.boot.cleanup.isEmpty then d.cleanUp else d

def execCommitCleanupDone (s : State) : Host.Outcome State Fault Refusal := s.on cleanupDone

/-! ### Replay (R61) -/

/-- The verdicts on a sequence's entries, per NVM: the code of R57 and the record. -/
def Dev.verdicts (d : Dev) (seq : Nat) : List (Nat × JEntry × Nat × Option AmdRec) :=
  d.nvms.filterMap fun nv => (d.entryOf nv seq).map fun e =>
    match parseAmd e.bytes with
    | none => (nv, e, 0x01, none)
    | some a => (nv, e, d.amdCode true a, some a)

/-- A sequence is skipped at replay and logged. -/
def Dev.skipEntry (d : Dev) (seq cause mask : Nat) : Dev :=
  d.logFrom d.supOrigin 0x0014 0 (noReg ++ le 8 seq ++ le 1 cause ++ le 1 mask)

/-- A COMMITTED entry is staged, committed and cleaned up at once; one that cannot be staged leaves nothing. -/
def Dev.replayCommitted (d : Dev) (seq mask : Nat) (a : AmdRec) : Dev :=
  match d.stageAll a.recs with
  | none => (d.wr Reg.DEV_AMD_STATUS.LAST_REJECT 0x0B).skipEntry seq 0x0B mask
  | some e =>
    let e := e.commitShadow
    ({ e with boot := { e.boot with cleanup := [seq] } }).cleanUp

/-- JOURNAL_ENTRY_REPLAY (R61): the next sequence of the journals. -/
def journalReplay (d : Dev) : Dev :=
  match d.boot.replay with
  | some (q :: rest) =>
    if d.phase = 4 && d.bootRuns then
      let v := d.verdicts q
      let mask := v.foldl (fun m x => m + 2 ^ x.1) 0
      let d := { d with boot := { d.boot with replay := some rest } }
      match v.find? fun x => x.2.2.1 == 0 with
      | some (_, e, _, some a) =>
        if v.any fun x => x.2.1.committed == 0 then d.replayCommitted q mask a
        else if v.any fun x => x.2.1.abandoned == 0 then d
        else { d with boot := { d.boot with
          amds := d.boot.amds ++ [({ seq := q, bytes := e.bytes, chan := 255, tag := 0, phase := .waiting } : Amd)] } }
      | _ => d.skipEntry q ((v.getLast?.map fun x => x.2.2.1).getD 0x01) mask
    else d
  | _ => d

def execJournalEntryReplay (s : State) : Host.Outcome State Fault Refusal := s.on journalReplay

/-! ### Image store (R68) -/

/-- The code of R55 for an image to be stored: header, section hashes, firmware and, without applying them, the records of the
sections that this stepping applies. -/
def Dev.storeCode (d : Dev) (region : Nat) (img : List Byte) : Nat :=
  let c := headerCode d.boot.fuses region img
  let ss := imgSections img (imgHeader img)
  if c ≠ 0x01 then c
  else if !ss.all (sectionHashOk img) then 0x17
  else if !(match ss.head? with | some s => firmwareOk (sectionBytes img s) | none => false) then 0x18
  else if (ss.drop 1).any fun s => !d.skips s && (recsOf s.typ s.length (sectionBytes img s)).isNone then 0x19
  else 0x01

/-- The next NVM of an image store is erased; in recovery its journal too. -/
def Dev.eraseNvm (d : Dev) (nv : Nat) : Dev :=
  let n := d.nvm nv
  if n.writable then (d.setNvm nv { n with image := [], journal := if d.boot.recovery then [] else n.journal }).showJournal else d

/-- The NVMs of a mask in the reverse of the BOOT_SEL order. -/
def storeOrder (sel mask : Nat) : List Nat := (if sel = 1 then [0, 1] else [1, 0]).filter mask.testBit

/-- The NVM that supplied the running image. -/
def Dev.runningNvm (d : Dev) : Option Nat :=
  (match d.boot.loaded with | some l => some l | none => d.boot.cand).map fun (l : Load) => l.nv

/-- IMAGE_STORE (R68, R371): NVM mask (1), reserved (3), source (16), and an inline image after it. -/
def imageStore (chan : Nat) (bytes : List Byte) (d : Dev) : Dev :=
  d.request chan 0x24 1 true fun d q =>
    let mask := fromLe (slice q.body 0 1)
    match descriptor (slice q.body 4 16) true (decide (0x100 ≤ chan)) with
    | none => d.status chan q 3 0
    | some (kind, len, _) =>
      if mask = 0 || 3 < mask || fromLe (slice q.body 1 3) ≠ 0 || q.body.length < 20 || (kind == 0 && q.body.length != 20) then d.status chan q 3 0
      else if !d.boot.recovery && ((d.runningNvm.map fun nv => mask.testBit nv).getD false) then d.status chan q 6 0
      else if !d.hbmUp 0 && !d.hbmUp 1 then d.status chan q 6 0
      else if d.boot.imgStore.isSome then d.status chan q 7 0
      else if kind = 0 && !d.dmaReady then d.status chan q 9 5
      else
        let todo := storeOrder (d.rd Reg.DEV_STRAP.BOOT_SEL) mask
        let img := if kind = 0 then slice bytes 0 len else q.body.drop 20
        let region := todo.foldl (fun m nv => min m (imageRegion (d.nvm nv).capacity)) (imageRegion 128)
        if todo.any fun nv => !(d.nvm nv).ok then d.status chan q 8 0x10
        else
          let c := d.storeCode region img
          if c ≠ 0x01 then d.status chan q 8 c
          else
            let d := (d.openExchange chan q).eraseNvm (todo.headD 0)
            { d with boot := { d.boot with
              imgStore := some { bytes := img.take (imgHeader img).imageLen, todo := todo, chan := chan, tag := q.tag } } }

def execImageStore (chan : Nat) (bytes : List Byte) (s : State) : Host.Outcome State Fault Refusal := s.on (imageStore chan bytes)

/-- NVM_PROGRAM_DONE (R68): a device has been programmed and verified by read-back, or not. A failure ends the request with a free
DETAIL. -/
def nvmProgramDone (ok : Bool) (d : Dev) : Dev :=
  match d.boot.imgStore with
  | some st =>
    let nv := st.todo.headD 0
    if !d.supRunning then d
    else if ok && (d.nvm nv).writable then
      let d := d.setNvm nv { d.nvm nv with image := st.bytes }
      match st.todo.drop 1 with
      | [] =>
        let d := { d with boot := { d.boot with imgStore := none, restartAt := if d.boot.recovery then some d.now else d.boot.restartAt } }
        d.answer st.chan 0x24 st.tag 0 0x01 []
      | x :: r => { d with boot := { d.boot with imgStore := some { st with todo := x :: r } } }.eraseNvm x
    else
      let (v, d) := d.freeNat
      ({ d with boot := { d.boot with imgStore := none } }).answer st.chan 0x24 st.tag 8 (v % 256) []
  | none => d

def execNvmProgramDone (ok : Bool) (s : State) : Host.Outcome State Fault Refusal := s.on (nvmProgramDone ok)

/-! ### Takeover (R334) -/

/-- A shadow whose staging was under way is discarded; its amendments are staged again. -/
def Dev.discardShadow (d : Dev) : Dev :=
  let d := ((d.unstageStatic).unstageIds).unstageCtxs
  let d := { d with boot := { d.boot with shadow := [] } }
  (d.setPhase (fun (a : Amd) => a.phase == .staged) .waiting).setFlag Reg.DEV_AMD_STATUS.STAGED false

/-- What a supervisor that failed leaves behind: the exchanges it had open, the deliveries and programming under way, and staging
not yet armed. -/
def Dev.dropOpen (d : Dev) : Dev :=
  let d := { d with
    host := { d.host with chans := d.host.chans.map fun (e : Nat × Chan) => (e.1, { e.2 with opened := none }), jobs := [], snapReq := none },
    boot := { d.boot with imgStore := none, amds := d.boot.amds.filter fun (a : Amd) => a.phase != AmdPhase.journaling } }
  let d := d.setFlag Reg.REAM_SNAP_STATUS.BUSY false
  if d.boot.armed.isNone && d.boot.amds.any fun (a : Amd) => a.phase == .staged then d.discardShadow else d

/-- TAKEOVER_COMPLETE (R334, R336): after a failure, open exchanges are lost; replies that waited are posted. -/
def takeoverComplete (d : Dev) : Dev :=
  match d.supv.takeover with
  | some t => (if t.cause = 3 then d.finishTakeover t else (d.finishTakeover t).dropOpen).flushReplies
  | none => d

def execTakeoverComplete (s : State) : Host.Outcome State Fault Refusal := s.on takeoverComplete

end Sys2Proof.Machine
end

