-- ==== Sys2Proof/Machine/Dispatch.lean ====
section
/-! DEFINITION. The dispatch: one arm per command, each one direct call of its meaning. -/

namespace Sys2Proof.Machine

open Sys2Proof

/-- The effect of a command on everything but the queue. -/
def exec (i : Instr) (s : State) : Host.Outcome State Fault Refusal :=
  match i with
  | .pwrGoodRise bootSel nvmMode => Sys2Proof.Machine.execPwrGoodRise bootSel nvmMode s
  | .porAssert => Sys2Proof.Machine.execPorAssert s
  | .pwrGoodFall => Sys2Proof.Machine.execPwrGoodFall s
  | .sysRstAssert bootSel nvmMode => Sys2Proof.Machine.execSysRstAssert bootSel nvmMode s
  | .pllLockDone => Sys2Proof.Machine.execPllLockDone s
  | .avsApplied readVout => Sys2Proof.Machine.execAvsApplied readVout s
  | .nvmDiscovery => Sys2Proof.Machine.execNvmDiscovery s
  | .imageHeaderCheck => Sys2Proof.Machine.execImageHeaderCheck s
  | .firmwareSectionLoad => Sys2Proof.Machine.execFirmwareSectionLoad s
  | .sectionHashCheck => Sys2Proof.Machine.execSectionHashCheck s
  | .registerWriteRecord addr mask value => Sys2Proof.Machine.execRegisterWriteRecord addr mask value s
  | .bulkTableRecord tid flags entryWords res first entries => Sys2Proof.Machine.execBulkTableRecord tid flags entryWords res first entries s
  | .keyRecord slot kind res nonce key tag => Sys2Proof.Machine.execKeyRecord slot kind res nonce key tag s
  | .storeRecord pipes res first res2 words => Sys2Proof.Machine.execStoreRecord pipes res first res2 words s
  | .hbmTrainingDone stack ok => Sys2Proof.Machine.execHbmTrainingDone stack ok s
  | .journalEntryReplay => Sys2Proof.Machine.execJournalEntryReplay s
  | .forwardingRelease => Sys2Proof.Machine.execForwardingRelease s
  | .fuseAdvance => Sys2Proof.Machine.execFuseAdvance s
  | .recoveryRestart => Sys2Proof.Machine.execRecoveryRestart s
  | .amendSubmit chan bytes => Sys2Proof.Machine.execAmendSubmit chan bytes s
  | .journalWritten seq okA okB => Sys2Proof.Machine.execJournalWritten seq okA okB s
  | .amendmentStage => Sys2Proof.Machine.execAmendmentStage s
  | .stagingComplete => Sys2Proof.Machine.execStagingComplete s
  | .commit => Sys2Proof.Machine.execCommit s
  | .commitCleanupDone => Sys2Proof.Machine.execCommitCleanupDone s
  | .lateCommit => Sys2Proof.Machine.execLateCommit s
  | .imageStore chan bytes => Sys2Proof.Machine.execImageStore chan bytes s
  | .nvmProgramDone ok => Sys2Proof.Machine.execNvmProgramDone ok s
  | .linkDown port cause => Sys2Proof.Machine.execLinkDown port cause s
  | .linkUp port clearFor => Sys2Proof.Machine.execLinkUp port clearFor s
  | .holdExpiry port => Sys2Proof.Machine.execHoldExpiry port s
  | .flushDone port => Sys2Proof.Machine.execFlushDone port s
  | .adminEnClear port => Sys2Proof.Machine.execAdminEnClear port s
  | .pauseCfgChange port value => Sys2Proof.Machine.execPauseCfgChange port value s
  | .macFrameEnd port mac ago bytes => Sys2Proof.Machine.execMacFrameEnd port mac ago bytes s
  | .pauseRx port bytes => Sys2Proof.Machine.execPauseRx port bytes s
  | .pfcRx port bytes => Sys2Proof.Machine.execPfcRx port bytes s
  | .macCtrlIgnored port bytes => Sys2Proof.Machine.execMacCtrlIgnored port bytes s
  | .pauseExpiry port cls => Sys2Proof.Machine.execPauseExpiry port cls s
  | .xoffRepeat port cls => Sys2Proof.Machine.execXoffRepeat port cls s
  | .pauseWdTrip port cls => Sys2Proof.Machine.execPauseWdTrip port cls s
  | .pauseWdHoldEnd port cls => Sys2Proof.Machine.execPauseWdHoldEnd port cls s
  | .preemptFragmentRx port ago start count last bytes => Sys2Proof.Machine.execPreemptFragmentRx port ago start count last bytes s
  | .preemptVerifyTimeout port => Sys2Proof.Machine.execPreemptVerifyTimeout port s
  | .rxAdaptUpdate port => Sys2Proof.Machine.execRxAdaptUpdate port s
  | .moduleInsert cage => Sys2Proof.Machine.execModuleInsert cage s
  | .moduleResetRelease cage => Sys2Proof.Machine.execModuleResetRelease cage s
  | .moduleReadyPoll cage answer => Sys2Proof.Machine.execModuleReadyPoll cage answer s
  | .moduleReadyTimeout cage => Sys2Proof.Machine.execModuleReadyTimeout cage s
  | .moduleIdentify cage ident => Sys2Proof.Machine.execModuleIdentify cage ident s
  | .modulePowerGrant => Sys2Proof.Machine.execModulePowerGrant s
  | .moduleDatapathReady cage => Sys2Proof.Machine.execModuleDatapathReady cage s
  | .moduleStep9Timeout cage => Sys2Proof.Machine.execModuleStep9Timeout cage s
  | .moduleRemove cage => Sys2Proof.Machine.execModuleRemove cage s
  | .moduleInt bus low flags => Sys2Proof.Machine.execModuleInt bus low flags s
  | .i2cTransaction bus ok muxOk => Sys2Proof.Machine.execI2cTransaction bus ok muxOk s
  | .i2cRetry bus ok muxOk sdaLow => Sys2Proof.Machine.execI2cRetry bus ok muxOk sdaLow s
  | .readFailRestart cage => Sys2Proof.Machine.execReadFailRestart cage s
  | .telemetryRead cage => Sys2Proof.Machine.execTelemetryRead cage s
  | .parseReady port mac ago bytes => Sys2Proof.Machine.execParseReady port mac ago bytes s
  | .engineStart pipe engine => Sys2Proof.Machine.execEngineStart pipe engine s
  | .seq pipe engine flips => Sys2Proof.Machine.execSeq pipe engine flips s
  | .jump pipe engine flips => Sys2Proof.Machine.execJump pipe engine flips s
  | .cjump pipe engine flips => Sys2Proof.Machine.execCjump pipe engine flips s
  | .call pipe engine flips => Sys2Proof.Machine.execCall pipe engine flips s
  | .ccall pipe engine flips => Sys2Proof.Machine.execCcall pipe engine flips s
  | .ret pipe engine flips => Sys2Proof.Machine.execRet pipe engine flips s
  | .cret pipe engine flips => Sys2Proof.Machine.execCret pipe engine flips s
  | .dispatch pipe engine flips => Sys2Proof.Machine.execDispatch pipe engine flips s
  | .done pipe engine flips => Sys2Proof.Machine.execDone pipe engine flips s
  | .sideLookupResult pipe engine bad => Sys2Proof.Machine.execSideLookupResult pipe engine bad s
  | .resume pipe engine => Sys2Proof.Machine.execResume pipe engine s
  | .handoffWaitExpiry pipe engine => Sys2Proof.Machine.execHandoffWaitExpiry pipe engine s
  | .stopRequest pipe engine => Sys2Proof.Machine.execStopRequest pipe engine s
  | .copyReloadDone pipe copy ok => Sys2Proof.Machine.execCopyReloadDone pipe copy ok s
  | .storeScrub pipe upsets => Sys2Proof.Machine.execStoreScrub pipe upsets s
  | .sideEntryRewrite pipe index => Sys2Proof.Machine.execSideEntryRewrite pipe index s
  | .storeWordRead master pipe value => Sys2Proof.Machine.execStoreWordRead master pipe value s
  | .forwardingDecision frame bad => Sys2Proof.Machine.execForwardingDecision frame bad s
  | .learningRingDeliver => Sys2Proof.Machine.execLearningRingDeliver s
  | .learnWrite pipe => Sys2Proof.Machine.execLearnWrite pipe s
  | .agingTick pipe fid bad => Sys2Proof.Machine.execAgingTick pipe fid bad s
  | .moveWindowEnd pipe => Sys2Proof.Machine.execMoveWindowEnd pipe s
  | .removalPassDone pipe => Sys2Proof.Machine.execRemovalPassDone pipe s
  | .staticCompare upsets => Sys2Proof.Machine.execStaticCompare upsets s
  | .staticReinsert => Sys2Proof.Machine.execStaticReinsert s
  | .streamIdentify frame => Sys2Proof.Machine.execStreamIdentify frame s
  | .streamFilter frame => Sys2Proof.Machine.execStreamFilter frame s
  | .portPolicer frame => Sys2Proof.Machine.execPortPolicer frame s
  | .streamGateEntry handle => Sys2Proof.Machine.execStreamGateEntry handle s
  | .streamGateTakeover handle => Sys2Proof.Machine.execStreamGateTakeover handle s
  | .nodeInsert => Sys2Proof.Machine.execNodeInsert s
  | .nodeSweep => Sys2Proof.Machine.execNodeSweep s
  | .takeAnySweep => Sys2Proof.Machine.execTakeAnySweep s
  | .supervisionTx pair slot => Sys2Proof.Machine.execSupervisionTx pair slot s
  | .commandDecision frames ue => Sys2Proof.Machine.execCommandDecision frames ue s
  | .engineGrant ed engine => Sys2Proof.Machine.execEngineGrant ed engine s
  | .sealVerifyDone ed engine => Sys2Proof.Machine.execSealVerifyDone ed engine s
  | .releaseToAdmission frame => Sys2Proof.Machine.execReleaseToAdmission frame s
  | .sealLogSummary port => Sys2Proof.Machine.execSealLogSummary port s
  | .clusterFault cluster cause => Sys2Proof.Machine.execClusterFault cluster cause s
  | .clusterReset cluster => Sys2Proof.Machine.execClusterReset cluster s
  | .cellWrite writes => Sys2Proof.Machine.execCellWrite writes s
  | .admission frame => Sys2Proof.Machine.execAdmission frame s
  | .copyRelease copy flip => Sys2Proof.Machine.execCopyRelease copy flip s
  | .bankSweep pipe found => Sys2Proof.Machine.execBankSweep pipe found s
  | .listRebuildDone pipe sub => Sys2Proof.Machine.execListRebuildDone pipe sub s
  | .spill pipes cuts => Sys2Proof.Machine.execSpill pipes cuts s
  | .spillComplete copy => Sys2Proof.Machine.execSpillComplete copy s
  | .refill pipe => Sys2Proof.Machine.execRefill pipe s
  | .refillDone copy corr ue flip => Sys2Proof.Machine.execRefillDone copy corr ue flip s
  | .privCacheRefill vat bad => Sys2Proof.Machine.execPrivCacheRefill vat bad s
  | .spillBurstReturn pipe => Sys2Proof.Machine.execSpillBurstReturn pipe s
  | .hbmStackFail stack => Sys2Proof.Machine.execHbmStackFail stack s
  | .creditRequest copy => Sys2Proof.Machine.execCreditRequest copy s
  | .creditGrant group => Sys2Proof.Machine.execCreditGrant group s
  | .creditRevoke port cls => Sys2Proof.Machine.execCreditRevoke port cls s
  | .slotMatch ue => Sys2Proof.Machine.execSlotMatch ue s
  | .seqReport src dst => Sys2Proof.Machine.execSeqReport src dst s
  | .cellArrive src dst seq crcOk => Sys2Proof.Machine.execCellArrive src dst seq crcOk s
  | .couchGapTimeout src dst => Sys2Proof.Machine.execCouchGapTimeout src dst s
  | .planeHeartbeatMiss plane group => Sys2Proof.Machine.execPlaneHeartbeatMiss plane group s
  | .planeAuditMarker => Sys2Proof.Machine.execPlaneAuditMarker s
  | .spareSyncDone => Sys2Proof.Machine.execSpareSyncDone s
  | .spareBringupTimeout => Sys2Proof.Machine.execSpareBringupTimeout s
  | .planeSelftest plane pass => Sys2Proof.Machine.execPlaneSelftest plane pass s
  | .rotationStart master plane => Sys2Proof.Machine.execRotationStart master plane s
  | .rotationSchedule => Sys2Proof.Machine.execRotationSchedule s
  | .rotationChangeover => Sys2Proof.Machine.execRotationChangeover s
  | .rotationComplete => Sys2Proof.Machine.execRotationComplete s
  | .schedulerSelect port mac => Sys2Proof.Machine.execSchedulerSelect port mac s
  | .preempt port => Sys2Proof.Machine.execPreempt port s
  | .gateStateChange port => Sys2Proof.Machine.execGateStateChange port s
  | .gateTakeover port => Sys2Proof.Machine.execGateTakeover port s
  | .frameTransmitEnd port mac => Sys2Proof.Machine.execFrameTransmitEnd port mac s
  | .offsetSample tb off tclk => Sys2Proof.Machine.execOffsetSample tb off tclk s
  | .sourceLoss tb => Sys2Proof.Machine.execSourceLoss tb s
  | .holdoverExpiry tb => Sys2Proof.Machine.execHoldoverExpiry tb s
  | .pairRevert pair => Sys2Proof.Machine.execPairRevert pair s
  | .pairSlew pair => Sys2Proof.Machine.execPairSlew pair s
  | .ptpRx frame bmca => Sys2Proof.Machine.execPtpRx frame bmca s
  | .ptpTx inst port bytes => Sys2Proof.Machine.execPtpTx inst port bytes s
  | .tc2Forward inst src seqId port => Sys2Proof.Machine.execTc2Forward inst src seqId port s
  | .tc2Abandon inst src seqId port => Sys2Proof.Machine.execTc2Abandon inst src seqId port s
  | .tioOutputEdge tio => Sys2Proof.Machine.execTioOutputEdge tio s
  | .tioCapture tio rising => Sys2Proof.Machine.execTioCapture tio rising s
  | .tioCapRead master tio => Sys2Proof.Machine.execTioCapRead master tio s
  | .ppsInEdge rising tclk => Sys2Proof.Machine.execPpsInEdge rising tclk s
  | .tclkLost => Sys2Proof.Machine.execTclkLost s
  | .tclkReturn => Sys2Proof.Machine.execTclkReturn s
  | .tbTimeRead master tb pres => Sys2Proof.Machine.execTbTimeRead master tb pres s
  | .supvHeartbeat master sup value => Sys2Proof.Machine.execSupvHeartbeat master sup value s
  | .supvHeartbeatMiss sup => Sys2Proof.Machine.execSupvHeartbeatMiss sup s
  | .supvMachineCheck sup => Sys2Proof.Machine.execSupvMachineCheck sup s
  | .takeoverComplete => Sys2Proof.Machine.execTakeoverComplete s
  | .checkpointWrite ok => Sys2Proof.Machine.execCheckpointWrite ok s
  | .checkpointLoad slot => Sys2Proof.Machine.execCheckpointLoad slot s
  | .supervisorRestart sup copyOk => Sys2Proof.Machine.execSupervisorRestart sup copyOk s
  | .resyncDone => Sys2Proof.Machine.execResyncDone s
  | .forcedSwitch master => Sys2Proof.Machine.execForcedSwitch master s
  | .watchdogExpiry => Sys2Proof.Machine.execWatchdogExpiry s
  | .sensorSample sensor reading => Sys2Proof.Machine.execSensorSample sensor reading s
  | .thermalShutdown => Sys2Proof.Machine.execThermalShutdown s
  | .voltageOutOfWindow monitor => Sys2Proof.Machine.execVoltageOutOfWindow monitor s
  | .railCurrentRead rail reading => Sys2Proof.Machine.execRailCurrentRead rail reading s
  | .regulatorAlert status => Sys2Proof.Machine.execRegulatorAlert status s
  | .logAccept => Sys2Proof.Machine.execLogAccept s
  | .logPutSubmit master sup value => Sys2Proof.Machine.execLogPutSubmit master sup value s
  | .logOverrunSummary => Sys2Proof.Machine.execLogOverrunSummary s
  | .logPersist nvm => Sys2Proof.Machine.execLogPersist nvm s
  | .logClearCmd master => Sys2Proof.Machine.execLogClearCmd master s
  | .firmwareAudit upsets => Sys2Proof.Machine.execFirmwareAudit upsets s
  | .pmcEvent sup event count => Sys2Proof.Machine.execPmcEvent sup event count s
  | .pmcClear master sup counter => Sys2Proof.Machine.execPmcClear master sup counter s
  | .pmcRead master sup counter => Sys2Proof.Machine.execPmcRead master sup counter s
  | .mbSubmit master mb writes => Sys2Proof.Machine.execMbSubmit master mb writes s
  | .mbPost master mb => Sys2Proof.Machine.execMbPost master mb s
  | .mbRelease master mb => Sys2Proof.Machine.execMbRelease master mb s
  | .pcieReset => Sys2Proof.Machine.execPcieReset s
  | .debugChallengeRead master word => Sys2Proof.Machine.execDebugChallengeRead master word s
  | .debugCheck master => Sys2Proof.Machine.execDebugCheck master s
  | .debugLock master => Sys2Proof.Machine.execDebugLock master s
  | .debugBlockExpiry => Sys2Proof.Machine.execDebugBlockExpiry s
  | .hello chan => Sys2Proof.Machine.execHello chan s
  | .getInfo chan => Sys2Proof.Machine.execGetInfo chan s
  | .readRegs chan => Sys2Proof.Machine.execReadRegs chan s
  | .snapshot chan => Sys2Proof.Machine.execSnapshot chan s
  | .snapshotCapture => Sys2Proof.Machine.execSnapshotCapture s
  | .tableDump chan => Sys2Proof.Machine.execTableDump chan s
  | .logRead chan => Sys2Proof.Machine.execLogRead chan s
  | .moduleRead chan data => Sys2Proof.Machine.execModuleRead chan data s
  | .getNonce chan => Sys2Proof.Machine.execGetNonce chan s
  | .nonceExpiry chan => Sys2Proof.Machine.execNonceExpiry chan s
  | .counterDir chan => Sys2Proof.Machine.execCounterDir chan s
  | .forceSwitch chan => Sys2Proof.Machine.execForceSwitch chan s
  | .planeRotate chan => Sys2Proof.Machine.execPlaneRotate chan s
  | .logClear chan => Sys2Proof.Machine.execLogClear chan s
  | .provision chan => Sys2Proof.Machine.execProvision chan s
  | .unknownCode chan => Sys2Proof.Machine.execUnknownCode chan s
  | .mgSegment frame => Sys2Proof.Machine.execMgSegment frame s
  | .dmaDone chan result => Sys2Proof.Machine.execDmaDone chan result s
  | .becClr master counter => Sys2Proof.Machine.execBecClr master counter s
  | .becClrOvf master counter => Sys2Proof.Machine.execBecClrOvf master counter s
  | .becRead master counter => Sys2Proof.Machine.execBecRead master counter s
  | .reamWinClr master window => Sys2Proof.Machine.execReamWinClr master window s
  | .reamWinClrOvf master window => Sys2Proof.Machine.execReamWinClrOvf master window s
  | .reamWinRead master window => Sys2Proof.Machine.execReamWinRead master window s
  | .amdSeqRead master => Sys2Proof.Machine.execAmdSeqRead master s
  | .registerWrite master addr value byteEn hwSet => Sys2Proof.Machine.execRegisterWrite master addr value byteEn hwSet s
  | .auditCheck => Sys2Proof.Machine.execAuditCheck s
  | .auditCompareDone => Sys2Proof.Machine.execAuditCompareDone s
  | .powerTokenGrant => Sys2Proof.Machine.execPowerTokenGrant s
  | .rampSlotEnd holder => Sys2Proof.Machine.execRampSlotEnd holder s
  | .rampDownEnd holder => Sys2Proof.Machine.execRampDownEnd holder s
  | .domainPowerGood domain => Sys2Proof.Machine.execDomainPowerGood domain s
  | .refclkLoss => Sys2Proof.Machine.execRefclkLoss s
  | .refclkReturn => Sys2Proof.Machine.execRefclkReturn s
  | .srefLoss k => Sys2Proof.Machine.execSrefLoss k s
  | .srefReturn k => Sys2Proof.Machine.execSrefReturn k s
  | .pcieRefclkLoss => Sys2Proof.Machine.execPcieRefclkLoss s
  | .porRelease bootSel nvmMode => Sys2Proof.Machine.execPorRelease bootSel nvmMode s
  | .pcieLinkDown => Sys2Proof.Machine.execPcieLinkDown s
  | .pcieLinkUp => Sys2Proof.Machine.execPcieLinkUp s
  | .busMasterEnableChange on => Sys2Proof.Machine.execBusMasterEnableChange on s
  | .autonegComplete port fec => Sys2Proof.Machine.execAutonegComplete port fec s
  | .linkTrainingComplete port coefs => Sys2Proof.Machine.execLinkTrainingComplete port coefs s
  | .verifyMpacketRx port respond => Sys2Proof.Machine.execVerifyMpacketRx port respond s
  | .cbsCreditReachesZero port cls => Sys2Proof.Machine.execCbsCreditReachesZero port cls s
  | .tokenBucketReachesZero port cls => Sys2Proof.Machine.execTokenBucketReachesZero port cls s
  | .standbyReadyLapse => Sys2Proof.Machine.execStandbyReadyLapse s

end Sys2Proof.Machine
end

