-- ==== Sys2Proof/Laws/State.lean ====
section
/-! SUPPORT. The frames of the shared operations of Machine/Ops.lean: for each operation, every component of the device it
leaves as it was. -/

namespace Sys2Proof.Machine

variable (d : Dev)

@[simp] theorem Dev.setReg_frame (a : Nat) (w : Word) :
    (d.setReg a w).now = d.now ∧ (d.setReg a w).free = d.free ∧ (d.setReg a w).hold = d.hold ∧ (d.setReg a w).ctrs = d.ctrs ∧
    (d.setReg a w).ctrOvf = d.ctrOvf ∧ (d.setReg a w).wire = d.wire ∧ (d.setReg a w).tabs = d.tabs ∧
    (d.setReg a w).time = d.time ∧ (d.setReg a w).supv = d.supv ∧ (d.setReg a w).host = d.host ∧
    (d.setReg a w).audit = d.audit ∧ (d.setReg a w).boot = d.boot ∧ (d.setReg a w).power = d.power ∧
    (d.setReg a w).ports = d.ports ∧ (d.setReg a w).mods = d.mods ∧ (d.setReg a w).path = d.path ∧
    (d.setReg a w).beat = d.beat ∧ (d.setReg a w).look = d.look ∧ (d.setReg a w).strm = d.strm ∧ (d.setReg a w).red = d.red ∧
    (d.setReg a w).deck = d.deck ∧ (d.setReg a w).vat = d.vat ∧ (d.setReg a w).fab = d.fab ∧ (d.setReg a w).egr = d.egr :=
  ⟨rfl, rfl, rfl, rfl, rfl, rfl, rfl, rfl, rfl, rfl, rfl, rfl, rfl, rfl, rfl, rfl, rfl, rfl, rfl, rfl, rfl, rfl, rfl, rfl⟩

@[simp] theorem Dev.wr_frame (r : FRef) (v : Nat) :
    (d.wr r v).now = d.now ∧ (d.wr r v).free = d.free ∧ (d.wr r v).hold = d.hold ∧ (d.wr r v).ctrs = d.ctrs ∧
    (d.wr r v).ctrOvf = d.ctrOvf ∧ (d.wr r v).wire = d.wire ∧ (d.wr r v).tabs = d.tabs ∧ (d.wr r v).time = d.time ∧
    (d.wr r v).supv = d.supv ∧ (d.wr r v).host = d.host ∧ (d.wr r v).audit = d.audit ∧ (d.wr r v).boot = d.boot ∧
    (d.wr r v).power = d.power ∧ (d.wr r v).ports = d.ports ∧ (d.wr r v).mods = d.mods ∧ (d.wr r v).path = d.path ∧
    (d.wr r v).beat = d.beat ∧ (d.wr r v).look = d.look ∧ (d.wr r v).strm = d.strm ∧ (d.wr r v).red = d.red ∧
    (d.wr r v).deck = d.deck ∧ (d.wr r v).vat = d.vat ∧ (d.wr r v).fab = d.fab ∧ (d.wr r v).egr = d.egr :=
  ⟨rfl, rfl, rfl, rfl, rfl, rfl, rfl, rfl, rfl, rfl, rfl, rfl, rfl, rfl, rfl, rfl, rfl, rfl, rfl, rfl, rfl, rfl, rfl, rfl⟩

@[simp] theorem Dev.wrS_frame (r : FRef) (v : Int) :
    (d.wrS r v).now = d.now ∧ (d.wrS r v).free = d.free ∧ (d.wrS r v).hold = d.hold ∧ (d.wrS r v).ctrs = d.ctrs ∧
    (d.wrS r v).ctrOvf = d.ctrOvf ∧ (d.wrS r v).wire = d.wire ∧ (d.wrS r v).tabs = d.tabs ∧ (d.wrS r v).time = d.time ∧
    (d.wrS r v).supv = d.supv ∧ (d.wrS r v).host = d.host ∧ (d.wrS r v).audit = d.audit ∧ (d.wrS r v).boot = d.boot ∧
    (d.wrS r v).power = d.power ∧ (d.wrS r v).ports = d.ports ∧ (d.wrS r v).mods = d.mods ∧ (d.wrS r v).path = d.path ∧
    (d.wrS r v).beat = d.beat ∧ (d.wrS r v).look = d.look ∧ (d.wrS r v).strm = d.strm ∧ (d.wrS r v).red = d.red ∧
    (d.wrS r v).deck = d.deck ∧ (d.wrS r v).vat = d.vat ∧ (d.wrS r v).fab = d.fab ∧ (d.wrS r v).egr = d.egr :=
  ⟨rfl, rfl, rfl, rfl, rfl, rfl, rfl, rfl, rfl, rfl, rfl, rfl, rfl, rfl, rfl, rfl, rfl, rfl, rfl, rfl, rfl, rfl, rfl, rfl⟩

@[simp] theorem Dev.setFlag_frame (r : FRef) (b : Bool) :
    (d.setFlag r b).now = d.now ∧ (d.setFlag r b).free = d.free ∧ (d.setFlag r b).hold = d.hold ∧
    (d.setFlag r b).ctrs = d.ctrs ∧ (d.setFlag r b).ctrOvf = d.ctrOvf ∧ (d.setFlag r b).wire = d.wire ∧
    (d.setFlag r b).tabs = d.tabs ∧ (d.setFlag r b).time = d.time ∧ (d.setFlag r b).supv = d.supv ∧
    (d.setFlag r b).host = d.host ∧ (d.setFlag r b).audit = d.audit ∧ (d.setFlag r b).boot = d.boot ∧
    (d.setFlag r b).power = d.power ∧ (d.setFlag r b).ports = d.ports ∧ (d.setFlag r b).mods = d.mods ∧
    (d.setFlag r b).path = d.path ∧ (d.setFlag r b).beat = d.beat ∧ (d.setFlag r b).look = d.look ∧
    (d.setFlag r b).strm = d.strm ∧ (d.setFlag r b).red = d.red ∧ (d.setFlag r b).deck = d.deck ∧
    (d.setFlag r b).vat = d.vat ∧ (d.setFlag r b).fab = d.fab ∧ (d.setFlag r b).egr = d.egr :=
  ⟨rfl, rfl, rfl, rfl, rfl, rfl, rfl, rfl, rfl, rfl, rfl, rfl, rfl, rfl, rfl, rfl, rfl, rfl, rfl, rfl, rfl, rfl, rfl, rfl⟩

@[simp] theorem Dev.setBitOf_frame (r : FRef) (k : Nat) (b : Bool) :
    (d.setBitOf r k b).now = d.now ∧ (d.setBitOf r k b).free = d.free ∧ (d.setBitOf r k b).hold = d.hold ∧
    (d.setBitOf r k b).ctrs = d.ctrs ∧ (d.setBitOf r k b).ctrOvf = d.ctrOvf ∧ (d.setBitOf r k b).wire = d.wire ∧
    (d.setBitOf r k b).tabs = d.tabs ∧ (d.setBitOf r k b).time = d.time ∧ (d.setBitOf r k b).supv = d.supv ∧
    (d.setBitOf r k b).host = d.host ∧ (d.setBitOf r k b).audit = d.audit ∧ (d.setBitOf r k b).boot = d.boot ∧
    (d.setBitOf r k b).power = d.power ∧ (d.setBitOf r k b).ports = d.ports ∧ (d.setBitOf r k b).mods = d.mods ∧
    (d.setBitOf r k b).path = d.path ∧ (d.setBitOf r k b).beat = d.beat ∧ (d.setBitOf r k b).look = d.look ∧
    (d.setBitOf r k b).strm = d.strm ∧ (d.setBitOf r k b).red = d.red ∧ (d.setBitOf r k b).deck = d.deck ∧
    (d.setBitOf r k b).vat = d.vat ∧ (d.setBitOf r k b).fab = d.fab ∧ (d.setBitOf r k b).egr = d.egr :=
  ⟨rfl, rfl, rfl, rfl, rfl, rfl, rfl, rfl, rfl, rfl, rfl, rfl, rfl, rfl, rfl, rfl, rfl, rfl, rfl, rfl, rfl, rfl, rfl, rfl⟩

@[simp] theorem Dev.setTabW_frame (tid i w : Nat) (v : Word) :
    (d.setTabW tid i w v).now = d.now ∧ (d.setTabW tid i w v).free = d.free ∧ (d.setTabW tid i w v).hold = d.hold ∧
    (d.setTabW tid i w v).regs = d.regs ∧ (d.setTabW tid i w v).ctrs = d.ctrs ∧ (d.setTabW tid i w v).ctrOvf = d.ctrOvf ∧
    (d.setTabW tid i w v).wire = d.wire ∧ (d.setTabW tid i w v).time = d.time ∧ (d.setTabW tid i w v).supv = d.supv ∧
    (d.setTabW tid i w v).host = d.host ∧ (d.setTabW tid i w v).audit = d.audit ∧ (d.setTabW tid i w v).boot = d.boot ∧
    (d.setTabW tid i w v).power = d.power ∧ (d.setTabW tid i w v).ports = d.ports ∧ (d.setTabW tid i w v).mods = d.mods ∧
    (d.setTabW tid i w v).path = d.path ∧ (d.setTabW tid i w v).beat = d.beat ∧ (d.setTabW tid i w v).look = d.look ∧
    (d.setTabW tid i w v).strm = d.strm ∧ (d.setTabW tid i w v).red = d.red ∧ (d.setTabW tid i w v).deck = d.deck ∧
    (d.setTabW tid i w v).vat = d.vat ∧ (d.setTabW tid i w v).fab = d.fab ∧ (d.setTabW tid i w v).egr = d.egr :=
  ⟨rfl, rfl, rfl, rfl, rfl, rfl, rfl, rfl, rfl, rfl, rfl, rfl, rfl, rfl, rfl, rfl, rfl, rfl, rfl, rfl, rfl, rfl, rfl, rfl⟩

@[simp] theorem Dev.out_frame (o : Out) :
    (d.out o).now = d.now ∧ (d.out o).free = d.free ∧ (d.out o).hold = d.hold ∧ (d.out o).regs = d.regs ∧
    (d.out o).ctrs = d.ctrs ∧ (d.out o).ctrOvf = d.ctrOvf ∧ (d.out o).tabs = d.tabs ∧ (d.out o).time = d.time ∧
    (d.out o).supv = d.supv ∧ (d.out o).host = d.host ∧ (d.out o).audit = d.audit ∧ (d.out o).boot = d.boot ∧
    (d.out o).power = d.power ∧ (d.out o).ports = d.ports ∧ (d.out o).mods = d.mods ∧ (d.out o).path = d.path ∧
    (d.out o).beat = d.beat ∧ (d.out o).look = d.look ∧ (d.out o).strm = d.strm ∧ (d.out o).red = d.red ∧
    (d.out o).deck = d.deck ∧ (d.out o).vat = d.vat ∧ (d.out o).fab = d.fab ∧ (d.out o).egr = d.egr :=
  ⟨rfl, rfl, rfl, rfl, rfl, rfl, rfl, rfl, rfl, rfl, rfl, rfl, rfl, rfl, rfl, rfl, rfl, rfl, rfl, rfl, rfl, rfl, rfl, rfl⟩

@[simp] theorem Dev.cntBy_frame (c : Ctr) (i n : Nat) :
    (d.cntBy c i n).now = d.now ∧ (d.cntBy c i n).free = d.free ∧ (d.cntBy c i n).hold = d.hold ∧
    (d.cntBy c i n).regs = d.regs ∧ (d.cntBy c i n).wire = d.wire ∧ (d.cntBy c i n).tabs = d.tabs ∧
    (d.cntBy c i n).time = d.time ∧ (d.cntBy c i n).supv = d.supv ∧ (d.cntBy c i n).host = d.host ∧
    (d.cntBy c i n).audit = d.audit ∧ (d.cntBy c i n).boot = d.boot ∧ (d.cntBy c i n).power = d.power ∧
    (d.cntBy c i n).ports = d.ports ∧ (d.cntBy c i n).mods = d.mods ∧ (d.cntBy c i n).path = d.path ∧
    (d.cntBy c i n).beat = d.beat ∧ (d.cntBy c i n).look = d.look ∧ (d.cntBy c i n).strm = d.strm ∧
    (d.cntBy c i n).red = d.red ∧ (d.cntBy c i n).deck = d.deck ∧ (d.cntBy c i n).vat = d.vat ∧ (d.cntBy c i n).fab = d.fab ∧
    (d.cntBy c i n).egr = d.egr :=
  ⟨rfl, rfl, rfl, rfl, rfl, rfl, rfl, rfl, rfl, rfl, rfl, rfl, rfl, rfl, rfl, rfl, rfl, rfl, rfl, rfl, rfl, rfl, rfl⟩

@[simp] theorem Dev.cnt_frame (c : Ctr) (i : Nat) :
    (d.cnt c i).now = d.now ∧ (d.cnt c i).free = d.free ∧ (d.cnt c i).hold = d.hold ∧ (d.cnt c i).regs = d.regs ∧
    (d.cnt c i).wire = d.wire ∧ (d.cnt c i).tabs = d.tabs ∧ (d.cnt c i).time = d.time ∧ (d.cnt c i).supv = d.supv ∧
    (d.cnt c i).host = d.host ∧ (d.cnt c i).audit = d.audit ∧ (d.cnt c i).boot = d.boot ∧ (d.cnt c i).power = d.power ∧
    (d.cnt c i).ports = d.ports ∧ (d.cnt c i).mods = d.mods ∧ (d.cnt c i).path = d.path ∧ (d.cnt c i).beat = d.beat ∧
    (d.cnt c i).look = d.look ∧ (d.cnt c i).strm = d.strm ∧ (d.cnt c i).red = d.red ∧ (d.cnt c i).deck = d.deck ∧
    (d.cnt c i).vat = d.vat ∧ (d.cnt c i).fab = d.fab ∧ (d.cnt c i).egr = d.egr :=
  ⟨rfl, rfl, rfl, rfl, rfl, rfl, rfl, rfl, rfl, rfl, rfl, rfl, rfl, rfl, rfl, rfl, rfl, rfl, rfl, rfl, rfl, rfl, rfl⟩

@[simp] theorem Dev.dropCount_frame (reason : Nat) :
    (d.dropCount reason).now = d.now ∧ (d.dropCount reason).free = d.free ∧ (d.dropCount reason).hold = d.hold ∧
    (d.dropCount reason).regs = d.regs ∧ (d.dropCount reason).wire = d.wire ∧ (d.dropCount reason).tabs = d.tabs ∧
    (d.dropCount reason).time = d.time ∧ (d.dropCount reason).supv = d.supv ∧ (d.dropCount reason).host = d.host ∧
    (d.dropCount reason).audit = d.audit ∧ (d.dropCount reason).boot = d.boot ∧ (d.dropCount reason).power = d.power ∧
    (d.dropCount reason).ports = d.ports ∧ (d.dropCount reason).mods = d.mods ∧ (d.dropCount reason).path = d.path ∧
    (d.dropCount reason).beat = d.beat ∧ (d.dropCount reason).look = d.look ∧ (d.dropCount reason).strm = d.strm ∧
    (d.dropCount reason).red = d.red ∧ (d.dropCount reason).deck = d.deck ∧ (d.dropCount reason).vat = d.vat ∧
    (d.dropCount reason).fab = d.fab ∧ (d.dropCount reason).egr = d.egr :=
  ⟨rfl, rfl, rfl, rfl, rfl, rfl, rfl, rfl, rfl, rfl, rfl, rfl, rfl, rfl, rfl, rfl, rfl, rfl, rfl, rfl, rfl, rfl, rfl⟩

@[simp] theorem Dev.freeNat_frame :
    (d.freeNat.2).now = d.now ∧ (d.freeNat.2).hold = d.hold ∧ (d.freeNat.2).regs = d.regs ∧ (d.freeNat.2).ctrs = d.ctrs ∧
    (d.freeNat.2).ctrOvf = d.ctrOvf ∧ (d.freeNat.2).wire = d.wire ∧ (d.freeNat.2).tabs = d.tabs ∧
    (d.freeNat.2).time = d.time ∧ (d.freeNat.2).supv = d.supv ∧ (d.freeNat.2).host = d.host ∧ (d.freeNat.2).audit = d.audit ∧
    (d.freeNat.2).boot = d.boot ∧ (d.freeNat.2).power = d.power ∧ (d.freeNat.2).ports = d.ports ∧
    (d.freeNat.2).mods = d.mods ∧ (d.freeNat.2).path = d.path ∧ (d.freeNat.2).beat = d.beat ∧ (d.freeNat.2).look = d.look ∧
    (d.freeNat.2).strm = d.strm ∧ (d.freeNat.2).red = d.red ∧ (d.freeNat.2).deck = d.deck ∧ (d.freeNat.2).vat = d.vat ∧
    (d.freeNat.2).fab = d.fab ∧ (d.freeNat.2).egr = d.egr :=
  ⟨rfl, rfl, rfl, rfl, rfl, rfl, rfl, rfl, rfl, rfl, rfl, rfl, rfl, rfl, rfl, rfl, rfl, rfl, rfl, rfl, rfl, rfl, rfl, rfl⟩

@[simp] theorem Dev.irq_frame (v : Nat) :
    (d.irq v).now = d.now ∧ (d.irq v).free = d.free ∧ (d.irq v).hold = d.hold ∧ (d.irq v).ctrs = d.ctrs ∧
    (d.irq v).ctrOvf = d.ctrOvf ∧ (d.irq v).tabs = d.tabs ∧ (d.irq v).time = d.time ∧ (d.irq v).supv = d.supv ∧
    (d.irq v).host = d.host ∧ (d.irq v).audit = d.audit ∧ (d.irq v).boot = d.boot ∧ (d.irq v).power = d.power ∧
    (d.irq v).ports = d.ports ∧ (d.irq v).mods = d.mods ∧ (d.irq v).path = d.path ∧ (d.irq v).beat = d.beat ∧
    (d.irq v).look = d.look ∧ (d.irq v).strm = d.strm ∧ (d.irq v).red = d.red ∧ (d.irq v).deck = d.deck ∧
    (d.irq v).vat = d.vat ∧ (d.irq v).fab = d.fab ∧ (d.irq v).egr = d.egr :=
  by unfold Dev.irq; split; · simp
     · dsimp only; split <;> simp

@[simp] theorem Dev.alarm_frame (g b : Nat) :
    (d.alarm g b).now = d.now ∧ (d.alarm g b).free = d.free ∧ (d.alarm g b).hold = d.hold ∧ (d.alarm g b).ctrs = d.ctrs ∧
    (d.alarm g b).ctrOvf = d.ctrOvf ∧ (d.alarm g b).tabs = d.tabs ∧ (d.alarm g b).time = d.time ∧
    (d.alarm g b).supv = d.supv ∧ (d.alarm g b).host = d.host ∧ (d.alarm g b).audit = d.audit ∧ (d.alarm g b).boot = d.boot ∧
    (d.alarm g b).power = d.power ∧ (d.alarm g b).ports = d.ports ∧ (d.alarm g b).mods = d.mods ∧
    (d.alarm g b).path = d.path ∧ (d.alarm g b).beat = d.beat ∧ (d.alarm g b).look = d.look ∧ (d.alarm g b).strm = d.strm ∧
    (d.alarm g b).red = d.red ∧ (d.alarm g b).deck = d.deck ∧ (d.alarm g b).vat = d.vat ∧ (d.alarm g b).fab = d.fab ∧
    (d.alarm g b).egr = d.egr :=
  by unfold Dev.alarm; split <;> simp

@[simp] theorem Dev.setPeer_frame (r : FRef) (b : Bool) :
    (d.setPeer r b).now = d.now ∧ (d.setPeer r b).free = d.free ∧ (d.setPeer r b).hold = d.hold ∧
    (d.setPeer r b).ctrs = d.ctrs ∧ (d.setPeer r b).ctrOvf = d.ctrOvf ∧ (d.setPeer r b).tabs = d.tabs ∧
    (d.setPeer r b).time = d.time ∧ (d.setPeer r b).supv = d.supv ∧ (d.setPeer r b).host = d.host ∧
    (d.setPeer r b).audit = d.audit ∧ (d.setPeer r b).boot = d.boot ∧ (d.setPeer r b).power = d.power ∧
    (d.setPeer r b).ports = d.ports ∧ (d.setPeer r b).mods = d.mods ∧ (d.setPeer r b).path = d.path ∧
    (d.setPeer r b).beat = d.beat ∧ (d.setPeer r b).look = d.look ∧ (d.setPeer r b).strm = d.strm ∧
    (d.setPeer r b).red = d.red ∧ (d.setPeer r b).deck = d.deck ∧ (d.setPeer r b).vat = d.vat ∧ (d.setPeer r b).fab = d.fab ∧
    (d.setPeer r b).egr = d.egr :=
  by unfold Dev.setPeer; split <;> simp

@[simp] theorem Dev.submit_frame (r : LogRec) :
    (d.submit r).now = d.now ∧ (d.submit r).free = d.free ∧ (d.submit r).hold = d.hold ∧ (d.submit r).regs = d.regs ∧
    (d.submit r).wire = d.wire ∧ (d.submit r).tabs = d.tabs ∧ (d.submit r).time = d.time ∧ (d.submit r).host = d.host ∧
    (d.submit r).audit = d.audit ∧ (d.submit r).boot = d.boot ∧ (d.submit r).power = d.power ∧ (d.submit r).ports = d.ports ∧
    (d.submit r).mods = d.mods ∧ (d.submit r).path = d.path ∧ (d.submit r).beat = d.beat ∧ (d.submit r).look = d.look ∧
    (d.submit r).strm = d.strm ∧ (d.submit r).red = d.red ∧ (d.submit r).deck = d.deck ∧ (d.submit r).vat = d.vat ∧
    (d.submit r).fab = d.fab ∧ (d.submit r).egr = d.egr :=
  by unfold Dev.submit; split <;> simp

@[simp] theorem Dev.log_frame (typ unit : Nat) (data : List Byte) :
    (d.log typ unit data).now = d.now ∧ (d.log typ unit data).free = d.free ∧ (d.log typ unit data).hold = d.hold ∧
    (d.log typ unit data).regs = d.regs ∧ (d.log typ unit data).wire = d.wire ∧ (d.log typ unit data).tabs = d.tabs ∧
    (d.log typ unit data).time = d.time ∧ (d.log typ unit data).host = d.host ∧ (d.log typ unit data).audit = d.audit ∧
    (d.log typ unit data).boot = d.boot ∧ (d.log typ unit data).power = d.power ∧ (d.log typ unit data).ports = d.ports ∧
    (d.log typ unit data).mods = d.mods ∧ (d.log typ unit data).path = d.path ∧ (d.log typ unit data).beat = d.beat ∧
    (d.log typ unit data).look = d.look ∧ (d.log typ unit data).strm = d.strm ∧ (d.log typ unit data).red = d.red ∧
    (d.log typ unit data).deck = d.deck ∧ (d.log typ unit data).vat = d.vat ∧ (d.log typ unit data).fab = d.fab ∧
    (d.log typ unit data).egr = d.egr :=
  Dev.submit_frame d _

@[simp] theorem Dev.logFrom_frame (origin typ unit : Nat) (data : List Byte) :
    (d.logFrom origin typ unit data).now = d.now ∧ (d.logFrom origin typ unit data).free = d.free ∧
    (d.logFrom origin typ unit data).hold = d.hold ∧ (d.logFrom origin typ unit data).regs = d.regs ∧
    (d.logFrom origin typ unit data).wire = d.wire ∧ (d.logFrom origin typ unit data).tabs = d.tabs ∧
    (d.logFrom origin typ unit data).time = d.time ∧ (d.logFrom origin typ unit data).host = d.host ∧
    (d.logFrom origin typ unit data).audit = d.audit ∧ (d.logFrom origin typ unit data).boot = d.boot ∧
    (d.logFrom origin typ unit data).power = d.power ∧ (d.logFrom origin typ unit data).ports = d.ports ∧
    (d.logFrom origin typ unit data).mods = d.mods ∧ (d.logFrom origin typ unit data).path = d.path ∧
    (d.logFrom origin typ unit data).beat = d.beat ∧ (d.logFrom origin typ unit data).look = d.look ∧
    (d.logFrom origin typ unit data).strm = d.strm ∧ (d.logFrom origin typ unit data).red = d.red ∧
    (d.logFrom origin typ unit data).deck = d.deck ∧ (d.logFrom origin typ unit data).vat = d.vat ∧
    (d.logFrom origin typ unit data).fab = d.fab ∧ (d.logFrom origin typ unit data).egr = d.egr :=
  Dev.submit_frame d _

end Sys2Proof.Machine
end

