-- ==== Sys2Proof/Safety.lean ====
section
/-! DEFINITION. What counts as a sound state of the block, in the terms the statements use: the register file and the counters
stand in the one form that a sparse table has, so that equal contents are equal data. -/

namespace Sys2Proof.Machine

/-- The register file, the counter store and its overflow bits stand in their canonical form (R14, R379). -/
def Dev.canon (d : Dev) : Bool := twf resetOf d.regs && twf (fun _ => (0 : Nat)) d.ctrs && twf (fun _ => false) d.ctrOvf

/-- The canonical form of a state. -/
def State.canon (s : State) : Bool := s.dev.canon

/-- Every sparse table that a rule reads by its listed entries stands in its canonical form: the register file and counters, the
indexed tables (R52), the Beater store (R113), the address table (R144), the node table and recovery contexts (R193, R197) and
the link RAM of every bank (R236); and the eight time bases and four pairs are there (R307, R317). -/
def Dev.tidy (d : Dev) : Bool :=
  d.canon && twf tabReset d.tabs && twf (fun _ => (0 : Nat)) d.beat.store && twf (fun _ => AEnt.zero) d.look.slots &&
    twf (fun _ => Node.zero) d.red.nodes && twf (fun _ => Rcv.zero) d.red.ctxs &&
    (d.vat.bank.all fun e => twf (fun _ => Link.zero) e.2.links) && d.time.tb.length == 8 && d.time.pair.length == 4

/-- Frames and copies carry numbers that no other has and that come before the next ones to be given. -/
def Dev.fresh (d : Dev) : Prop :=
  (d.path.frames.map fun f => f.id).Nodup ∧ (∀ f ∈ d.path.frames, f.id < d.path.nextFrame) ∧
    (d.path.copies.map fun c => c.id).Nodup ∧ ∀ c ∈ d.path.copies, c.id < d.path.nextCopy

/-- A state whose core is held: a command other than one of power, clock and reset finds nothing that acts (R44, R344, R399). -/
def State.held (s : State) : Bool := !s.dev.hold.live

/-! ### Frames: what a command leaves as it was -/

/-- Every register but those at the addresses listed holds in `e` what it holds in `d`. -/
def Dev.regsBut (d e : Dev) (l : List Nat) : Prop := ∀ a, a ∉ l → e.reg a = d.reg a

/-- Every counter instance but those of the keys listed stands in `e` as in `d`, value and OVF (R379). -/
def Dev.ctrsBut (d e : Dev) (l : List Nat) : Prop :=
  ∀ k, k ∉ l → tget e.ctrs 0 k = tget d.ctrs 0 k ∧ tget e.ctrOvf false k = tget d.ctrOvf false k

/-- The log writer's queue after the submission of a record (R348). -/
def Dev.queued (d : Dev) (r : LogRec) : List LogRec := if d.supv.logQ.length < 64 then d.supv.logQ ++ [r] else d.supv.logQ

/-- The field of a mask has bit `k` at `b` in `e`, and every other bit as in `d`. -/
def Dev.maskBit (d e : Dev) (r : FRef) (k : Nat) (b : Bool) : Prop :=
  e.bitOf r k = b ∧ ∀ j, j ≠ k → e.bitOf r j = d.bitOf r j

/-- Instance `i` of a counter has counted `n` more events, modulo 2^64 (R379). -/
def Dev.counted (d e : Dev) (c : Ctr) (i n : Nat) : Prop := e.ctr c i = if n = 0 then d.ctr c i else (d.ctr c i + n) % 2 ^ 64

/-- Engine `e` of pipeline `p` stands at the legal word `w` of frame `f` with nothing to wait for (R118, R125, R130). -/
def Dev.executes (d : Dev) (p e : Nat) (f : Frame) (w : Nat) : Prop :=
  d.engineFrame p e = some f ∧ d.storeWord p (d.homeOf p e) f.px.half f.px.addr = w ∧ wordParity w = true ∧
    wordIllegal f w = false ∧ (wordSafe f w = true → f.err = 0 ∧ f.px.stop = false) ∧ wf w 226 224 = 0 ∧
    (wf w 152 152 = 1 → f.px.pend = none)

/-- No slot that a lookup of a key reads has failing parity, and the lookup finds `r` (R145): no slot matches, or one does and
every other match, or every other match of a static type, carries the same content. -/
def Dev.finds (d : Dev) (p fid mac : Nat) (r : Option AEnt) : Prop :=
  (∀ s ∈ d.addrSlots p fid mac, (d.aslot p s).bad = 0) ∧
    match r with
    | none => ∀ s ∈ d.addrSlots p fid mac, d.amatch p fid mac s = false
    | some x => ∃ s ∈ d.addrSlots p fid mac, d.amatch p fid mac s = true ∧ d.aslot p s = x ∧
        ∀ t ∈ d.addrSlots p fid mac, d.amatch p fid mac t = true → d.aslot p t = x ∨ (x.typ ≠ 0 ∧ (d.aslot p t).typ = 0)

/-- The head copy of a class queue of port `n` stands ready to start whole: it is complete, its class is eligible (R287), it can fit
(R293), no check of step 17 drops it (R299) and its edited length is permitted (R80). -/
def Dev.mayStart (d : Dev) (n : Nat) (k : Copy) : Prop :=
  k.last = true ∧ k.ct = false ∧ k.cls < 8 ∧ d.eligible n k.cls = true ∧ d.tooLong n k.cls k = false ∧
    ∃ f, d.frame k.frame = some f ∧ f.ver = false ∧ d.overAge f k = false ∧ d.pairOfPort f.port = none ∧ f.handle = none ∧
      (d.editCopy f k 0).length ≤ d.rd (Reg.PORT_CFG.MAX_FRAME n)

/-- The express MAC of an enabled port is free to select, no other MAC of it transmits, preemption is not active, and no class of the
port has a credit-based shaper or the port a token bucket (R287). -/
def Dev.plainPort (d : Dev) (n : Nat) : Prop :=
  n < 258 ∧ d.adminUp n = true ∧ d.linkUp n = true ∧ tget d.egr.tx 0 (2 * n) = 0 ∧ tget d.egr.tx 0 (2 * n + 1) = 0 ∧
    d.preemptOn n = false ∧ (∀ c, c < 8 → d.bitOf (Reg.EGRS_PORT_SCHED.CBS_EN n) c = false) ∧
    d.flag (Reg.EGRS_PORT_SHAPE.PORT_TBS_EN n) = false

/-! ### Exchanges on the host's mailbox channels (R364 to R375) -/

/-- Registers that a request on channel `k` and its reply touch. -/
def mailRegs (k : Nat) : List Nat :=
  [Reg.HOST_MB_CTRL.addr k, Reg.HOST_MB_CTRL.addr (k + 4), Reg.HOST_INT_STATUS.addr] ++ (List.range 64).map (Reg.HOST_MB_BUF.addr (k + 4))

/-- The ACTIVE supervisor may take request `r` that stands in mailbox `k` of the host: the reply mailbox is EMPTY and no reply waits
(R330, R372). -/
def Dev.asks (d : Dev) (k : Nat) (r : Request) : Prop :=
  k < 4 ∧ d.supRunning = true ∧ d.mbFull k = true ∧ d.mbFull (k + 4) = false ∧ (d.chan k).outbox = [] ∧ mailRequest (d.mbBytes k) = r

/-- Request `r` of CODE `code` also passes the checks common to all: no exchange is open, it is well formed, the version of the channel
permits it, and the device is not in recovery (R370, R371, R375). -/
def Dev.asksFor (d : Dev) (k code minVer : Nat) (r : Request) : Prop :=
  d.asks k r ∧ r.code = code ∧ (d.chan k).opened = none ∧ r.bad = false ∧ minVer ≤ (d.chan k).ver ∧ 1 ≤ (d.chan k).ver ∧
    d.boot.recovery = false

/-- A signed request of CODE `code` that passes every check of R373. -/
def Dev.asksSigned (d : Dev) (k code minVer : Nat) (r : Request) : Prop :=
  d.asksFor k code minVer r ∧ r.body.length = 96 ∧ fromLe (slice r.body 7 1) = 0 ∧ fromLe (slice r.body 6 1) ≤ 8 ∧ d.signedOk r = true ∧
    ∃ n, (d.chan k).nonce = some n ∧ d.nonceLive n = true ∧ n.bytes = slice r.body 8 16

/-- Mailbox `k + 4` holds a reply in `e` that was posted by the ACTIVE supervisor of `d` (R365, R368): its header, stamped, and data. -/
def Dev.replied (d e : Dev) (k code tag ver status detail : Nat) (data : List Byte) : Prop :=
  ∃ s, d.activeSup = some s ∧
    e.mbBytes (k + 4) = slice (msgHead code 1 ver (supMaster s) tag 0 data.length status detail ++ data) 0 256 ∧ e.mbFull (k + 4) = true ∧
    e.rd (Reg.HOST_MB_CTRL.SEQ (k + 4)) = (d.rd (Reg.HOST_MB_CTRL.SEQ (k + 4)) + 1) % 65536 ∧ e.bitOf Reg.HOST_INT_STATUS.SRC k = true

/-- Request `r` has been taken from mailbox `k` and answered. -/
def Dev.answered (d e : Dev) (k : Nat) (r : Request) (ver status detail : Nat) (data : List Byte) : Prop :=
  e.mbFull k = false ∧ d.replied e k r.code r.tag ver status detail data

end Sys2Proof.Machine
end

