-- ==== Sys2Proof/Laws/Ops.lean ====
section
/-! SUPPORT. What the shared operations of Machine/Ops.lean do: reads after writes of sparse tables, of bit fields, of registers
and of counters, the canonical form they keep, and the one effect of each operation that raises, counts or queues. -/

namespace Sys2Proof.Machine

/-! ### Sparse tables -/

section Tables
variable {β : Type} (t : Tab β) (d e : β) (k j : Nat) (v : β)

@[simp] theorem tget_tdel_same : tget (tdel t k) d k = d := by
  induction t with
  | nil => rfl
  | cons x r ih =>
    obtain ⟨a, w⟩ := x
    by_cases h : a = k
    · simpa [tdel, h] using ih
    · have hk : k ≠ a := fun e => h e.symm
      simpa [tdel, h, hk, tget] using ih

theorem tget_tdel_ne (h : j ≠ k) : tget (tdel t k) d j = tget t d j := by
  induction t with
  | nil => rfl
  | cons x r ih =>
    obtain ⟨a, w⟩ := x
    by_cases hk : a = k
    · subst hk
      simpa [tdel, tget, h] using ih
    · by_cases ha : j = a
      · simp [tdel, hk, tget, ha]
      · simpa [tdel, hk, tget, ha] using ih

@[simp] theorem tget_tins_same : tget (tins t k v) d k = v := by
  induction t with
  | nil => simp [tins, tget]
  | cons x r ih =>
    obtain ⟨a, w⟩ := x
    unfold tins
    split
    · simp [tget]
    · split
      · simp [tget]
      · rename_i h1 h2
        simpa [tget, h2] using ih

theorem tget_tins_ne (h : j ≠ k) : tget (tins t k v) d j = tget t d j := by
  induction t with
  | nil => simp [tins, tget, h]
  | cons x r ih =>
    obtain ⟨a, w⟩ := x
    unfold tins
    split
    · simp [tget, h]
    · split
      · rename_i _ h2
        subst h2
        simp [tget, h]
      · by_cases ha : j = a <;> simp [tget, ha, ih]

theorem all_lt_tins (a : Nat) (ha : a < k) (h : (t.all fun e => decide (a < e.1)) = true) :
    ((tins t k v).all fun e => decide (a < e.1)) = true := by
  induction t with
  | nil => simp [tins, ha]
  | cons x r ih =>
    obtain ⟨b, w⟩ := x
    simp only [List.all_cons, Bool.and_eq_true] at h
    unfold tins
    split
    · simp [ha, h.1, h.2]
    · split
      · simp [ha, h.2]
      · simp [h.1, ih h.2]

variable [DecidableEq β]

/-- A key reads what was last written to it. -/
@[simp] theorem tget_tput_same : tget (tput t d k v) d k = v := by
  unfold tput
  split
  · rename_i h
    simp [h]
  · simp

/-- A write leaves every other key alone, whatever an unlisted key reads. -/
theorem tget_tput_ne (h : j ≠ k) : tget (tput t d k v) e j = tget t e j := by
  unfold tput
  split
  · exact tget_tdel_ne t e k j h
  · exact tget_tins_ne t e k j v h

variable (f : Nat → β)

theorem twf_tdel (h : twf f t = true) : twf f (tdel t k) = true := by
  induction t with
  | nil => rfl
  | cons x r ih =>
    obtain ⟨a, w⟩ := x
    simp only [twf, Bool.and_eq_true] at h
    have hr := ih h.2
    by_cases hk : a = k
    · simpa [tdel, hk] using hr
    · have hl : ((r.filter fun e => e.1 != k).all fun e => decide (a < e.1)) = true := by
        rw [List.all_eq_true]
        intro y hy
        exact (List.all_eq_true.mp h.1.2) y (List.mem_filter.mp hy).1
      have hc : (a != k) = true := by simpa using hk
      simp only [tdel, List.filter_cons, hc, if_true, twf, Bool.and_eq_true]
      exact ⟨⟨h.1.1, hl⟩, hr⟩

theorem twf_tins (hv : v ≠ f k) (h : twf f t = true) : twf f (tins t k v) = true := by
  induction t with
  | nil => simp [tins, twf, hv]
  | cons x r ih =>
    obtain ⟨a, w⟩ := x
    simp only [twf, Bool.and_eq_true, decide_eq_true_eq] at h
    unfold tins
    split
    · rename_i hka
      have hall : (r.all fun e => decide (k < e.1)) = true := by
        rw [List.all_eq_true]
        intro y hy
        have := (List.all_eq_true.mp h.1.2) y hy
        simp only [decide_eq_true_eq] at *
        omega
      simp [twf, hv, hka, h.1.1, h.1.2, h.2, hall]
    · split
      · rename_i _ hka
        subst hka
        simp [twf, hv, h.1.2, h.2]
      · rename_i h1 h2
        have hall := all_lt_tins r k v a (by omega) h.1.2
        simp [twf, h.1.1, hall, ih h.2]

/-- A write keeps the canonical form, whatever it writes. -/
theorem twf_tput (h : twf f t = true) : twf f (tput t (f k) k v) = true := by
  unfold tput
  split
  · exact twf_tdel t k f h
  · rename_i hv
    exact twf_tins t k v f hv h

end Tables

/-! ### Bit fields -/

theorem fput_toNat (w : Word) (lo wd v : Nat) (h : lo + wd ≤ 32) :
    (fput w lo wd v).toNat = (w.toNat / 2 ^ (lo + wd) * 2 ^ wd + v % 2 ^ wd) * 2 ^ lo + w.toNat % 2 ^ lo := by
  have hw := w.isLt
  unfold fput
  rw [BitVec.toNat_ofNat]
  apply Nat.mod_eq_of_lt
  have hq : w.toNat / 2 ^ (lo + wd) < 2 ^ (32 - (lo + wd)) := by
    rw [Nat.div_lt_iff_lt_mul (by positivity), ← pow_add]
    simpa [Nat.sub_add_cancel h] using hw
  have hv : v % 2 ^ wd < 2 ^ wd := Nat.mod_lt _ (by positivity)
  have hl : w.toNat % 2 ^ lo < 2 ^ lo := Nat.mod_lt _ (by positivity)
  calc
    _ < (w.toNat / 2 ^ (lo + wd) * 2 ^ wd + v % 2 ^ wd) * 2 ^ lo + 2 ^ lo := by omega
    _ = (w.toNat / 2 ^ (lo + wd) * 2 ^ wd + (v % 2 ^ wd + 1)) * 2 ^ lo := by ring
    _ ≤ (w.toNat / 2 ^ (lo + wd) * 2 ^ wd + 2 ^ wd) * 2 ^ lo := by gcongr; omega
    _ = (w.toNat / 2 ^ (lo + wd) + 1) * (2 ^ wd * 2 ^ lo) := by ring
    _ ≤ 2 ^ (32 - (lo + wd)) * (2 ^ wd * 2 ^ lo) := by gcongr; omega
    _ = 2 ^ 32 := by rw [← pow_add, ← pow_add]; congr 1; omega

theorem fput_testBit (w : Word) (lo wd v i : Nat) (h : lo + wd ≤ 32) :
    (fput w lo wd v).toNat.testBit i =
      if i < lo then w.toNat.testBit i else if i < lo + wd then v.testBit (i - lo) else w.toNat.testBit i := by
  rw [fput_toNat w lo wd v h]
  have hl : w.toNat % 2 ^ lo < 2 ^ lo := Nat.mod_lt _ (by positivity)
  have hv : v % 2 ^ wd < 2 ^ wd := Nat.mod_lt _ (by positivity)
  rw [Nat.mul_comm _ (2 ^ lo), Nat.testBit_two_pow_mul_add _ hl]
  split
  · rename_i hi
    simp [Nat.testBit_mod_two_pow, hi]
  · rename_i hi
    rw [Nat.mul_comm _ (2 ^ wd), Nat.testBit_two_pow_mul_add _ hv]
    split
    · rename_i hi2
      have : i < lo + wd := by omega
      simp [Nat.testBit_mod_two_pow, hi2, this]
    · rename_i hi2
      have : ¬ i < lo + wd := by omega
      rw [if_neg this, Nat.testBit_div_two_pow]
      congr 1
      omega

theorem fget_testBit (w : Word) (lo wd i : Nat) : (fget w lo wd).testBit i = (decide (i < wd) && w.toNat.testBit (lo + i)) := by
  unfold fget
  rw [Nat.testBit_mod_two_pow, Nat.testBit_div_two_pow, Nat.add_comm]

/-- A field reads what was last written to it, cut to its width. -/
theorem fget_fput_same (w : Word) (lo wd v : Nat) (h : lo + wd ≤ 32) : fget (fput w lo wd v) lo wd = v % 2 ^ wd := by
  apply Nat.eq_of_testBit_eq
  intro i
  rw [fget_testBit, fput_testBit _ _ _ _ _ h, Nat.testBit_mod_two_pow]
  by_cases hi : i < wd
  · have h1 : ¬ lo + i < lo := by omega
    simp [hi, h1]
  · simp [hi]

/-- A field write leaves every field that shares no bit with it alone. -/
theorem fget_fput_disjoint (w : Word) (lo wd v lo' wd' : Nat) (h : lo + wd ≤ 32) (hd : lo' + wd' ≤ lo ∨ lo + wd ≤ lo') :
    fget (fput w lo wd v) lo' wd' = fget w lo' wd' := by
  apply Nat.eq_of_testBit_eq
  intro i
  rw [fget_testBit, fget_testBit, fput_testBit _ _ _ _ _ h]
  by_cases hi : i < wd'
  · simp only [hi, decide_true, Bool.true_and]
    rcases hd with hd | hd
    · have : lo' + i < lo := by omega
      simp [this]
    · have h1 : ¬ lo' + i < lo := by omega
      have h2 : ¬ lo' + i < lo + wd := by omega
      simp [h1, h2]
  · simp [hi]

theorem fget_lt (w : Word) (lo wd : Nat) : fget w lo wd < 2 ^ wd := Nat.mod_lt _ (by positivity)

/-! ### Registers -/

variable (d : Dev)

theorem Dev.reg_def (a : Nat) : d.reg a = tget d.regs (resetOf a) a := rfl
theorem Dev.rd_def (r : FRef) : d.rd r = fget (d.reg r.addr) r.lo r.width := rfl

/-- Registers read alike in devices whose register files are equal. -/
theorem Dev.reg_congr {d d' : Dev} (h : d'.regs = d.regs) (a : Nat) : d'.reg a = d.reg a := by rw [Dev.reg, Dev.reg, h]
theorem Dev.rd_congr {d d' : Dev} (h : d'.regs = d.regs) (r : FRef) : d'.rd r = d.rd r := by rw [Dev.rd, Dev.rd, Dev.reg_congr h]

@[simp] theorem Dev.reg_setReg_same (a : Nat) (w : Word) : (d.setReg a w).reg a = w := tget_tput_same _ _ _ _

theorem Dev.reg_setReg_ne (a b : Nat) (w : Word) (h : b ≠ a) : (d.setReg a w).reg b = d.reg b := tget_tput_ne _ _ _ _ _ _ h

/-- A field write changes its register alone. -/
theorem Dev.reg_wr_ne (r : FRef) (v b : Nat) (h : b ≠ r.addr) : (d.wr r v).reg b = d.reg b := d.reg_setReg_ne _ _ _ h

theorem Dev.reg_wr_same (r : FRef) (v : Nat) : (d.wr r v).reg r.addr = fput (d.reg r.addr) r.lo r.width v :=
  d.reg_setReg_same _ _

/-- A field reads what was last written to it. -/
theorem Dev.rd_wr_same (r : FRef) (v : Nat) (h : r.lo + r.width ≤ 32) : (d.wr r v).rd r = v % 2 ^ r.width := by
  rw [Dev.rd, Dev.reg_wr_same, fget_fput_same _ _ _ _ h]

theorem Dev.rd_wr_ne (r q : FRef) (v : Nat) (h : q.addr ≠ r.addr) : (d.wr r v).rd q = d.rd q := by
  rw [Dev.rd, Dev.reg_wr_ne _ _ _ _ h, Dev.rd]

/-- A field write leaves the other fields of its register alone. -/
theorem Dev.rd_wr_disjoint (r q : FRef) (v : Nat) (h : r.lo + r.width ≤ 32) (ha : q.addr = r.addr)
    (hd : q.lo + q.width ≤ r.lo ∨ r.lo + r.width ≤ q.lo) : (d.wr r v).rd q = d.rd q := by
  rw [Dev.rd, ha, Dev.reg_wr_same, fget_fput_disjoint _ _ _ _ _ _ h hd, Dev.rd, ha]

theorem Dev.setFlag_eq (r : FRef) (b : Bool) : d.setFlag r b = d.wr r (if b then 1 else 0) := rfl

theorem Dev.flag_setFlag_same (r : FRef) (b : Bool) (h : r.lo + 1 ≤ 32) (hw : r.width = 1) : (d.setFlag r b).flag r = b := by
  rw [Dev.flag, Dev.setFlag, Dev.rd_wr_same _ _ _ (by omega), hw]
  cases b <;> rfl

theorem Dev.flag_wr_ne (r q : FRef) (v : Nat) (h : q.addr ≠ r.addr) : (d.wr r v).flag q = d.flag q := by
  rw [Dev.flag, Dev.rd_wr_ne _ _ _ _ h, Dev.flag]

theorem Dev.testBit_rd (r : FRef) (j : Nat) (hj : r.width ≤ j) : (d.rd r).testBit j = false :=
  Nat.testBit_lt_two_pow (Nat.lt_of_lt_of_le (fget_lt _ _ _) (Nat.pow_le_pow_right (by norm_num) hj))

/-- A mask write changes the one bit it names. -/
theorem Dev.bitOf_setBitOf (r : FRef) (k j : Nat) (b : Bool) (h : r.lo + r.width ≤ 32) (hk : k < r.width) :
    (d.setBitOf r k b).bitOf r j = if j = k then b else d.bitOf r j := by
  unfold Dev.bitOf Dev.setBitOf
  rw [Dev.rd_wr_same _ _ _ h, Nat.testBit_mod_two_pow]
  by_cases hj : j < r.width
  · simp only [hj, decide_true, Bool.true_and]
    cases b
    · simp only [Bool.false_eq_true, if_false]
      split
      · rename_i hb
        rw [Nat.testBit_xor, Nat.testBit_two_pow]
        by_cases hjk : j = k
        · subst hjk
          simp [hb]
        · simp [hjk, Ne.symm hjk]
      · rename_i hb
        by_cases hjk : j = k
        · subst hjk
          simpa using hb
        · simp [hjk]
    · simp only [if_true, Nat.testBit_or, Nat.testBit_two_pow]
      by_cases hjk : j = k
      · subst hjk
        simp
      · simp [hjk, Ne.symm hjk]
  · have hjk : j ≠ k := by omega
    simp [hj, hjk, Dev.testBit_rd d r j (by omega)]

@[simp] theorem Dev.reg_out (o : Out) (a : Nat) : (d.out o).reg a = d.reg a := Dev.reg_congr (by simp) a
@[simp] theorem Dev.reg_cntBy (c : Ctr) (i n : Nat) (a : Nat) : (d.cntBy c i n).reg a = d.reg a := Dev.reg_congr (by simp) a
@[simp] theorem Dev.reg_cnt (c : Ctr) (i : Nat) (a : Nat) : (d.cnt c i).reg a = d.reg a := Dev.reg_congr (by simp) a
@[simp] theorem Dev.reg_dropCount (r : Nat) (a : Nat) : (d.dropCount r).reg a = d.reg a := Dev.reg_congr (by simp) a
@[simp] theorem Dev.reg_submit (r : LogRec) (a : Nat) : (d.submit r).reg a = d.reg a := Dev.reg_congr (by simp) a
@[simp] theorem Dev.reg_log (typ unit : Nat) (data : List Byte) (a : Nat) : (d.log typ unit data).reg a = d.reg a := Dev.reg_congr (by simp) a
@[simp] theorem Dev.reg_logFrom (origin typ unit : Nat) (data : List Byte) (a : Nat) : (d.logFrom origin typ unit data).reg a = d.reg a := Dev.reg_congr (by simp) a
@[simp] theorem Dev.reg_freeNat (a : Nat) : (d.freeNat.2).reg a = d.reg a := Dev.reg_congr (by simp) a
@[simp] theorem Dev.reg_setTabW (tid i w : Nat) (v : Word) (a : Nat) : (d.setTabW tid i w v).reg a = d.reg a := Dev.reg_congr (by simp) a
@[simp] theorem Dev.ctr_irq (v : Nat) (c : Ctr) (i : Nat) : (d.irq v).ctr c i = d.ctr c i := by simp [Dev.ctr]
@[simp] theorem Dev.ctr_alarm (g b : Nat) (c : Ctr) (i : Nat) : (d.alarm g b).ctr c i = d.ctr c i := by simp [Dev.ctr]
@[simp] theorem Dev.ctr_setPeer (r : FRef) (b : Bool) (c : Ctr) (i : Nat) : (d.setPeer r b).ctr c i = d.ctr c i := by simp [Dev.ctr]
@[simp] theorem Dev.ctr_setReg (x : Nat) (w : Word) (c : Ctr) (i : Nat) : (d.setReg x w).ctr c i = d.ctr c i := by simp [Dev.ctr]
@[simp] theorem Dev.ctr_wr (r : FRef) (v : Nat) (c : Ctr) (i : Nat) : (d.wr r v).ctr c i = d.ctr c i := by simp [Dev.ctr]
@[simp] theorem Dev.ctr_setFlag (r : FRef) (b : Bool) (c : Ctr) (i : Nat) : (d.setFlag r b).ctr c i = d.ctr c i := by simp [Dev.ctr]
@[simp] theorem Dev.ctr_setBitOf (r : FRef) (k : Nat) (b : Bool) (c : Ctr) (i : Nat) : (d.setBitOf r k b).ctr c i = d.ctr c i := by simp [Dev.ctr]
@[simp] theorem Dev.ctr_out (o : Out) (c : Ctr) (i : Nat) : (d.out o).ctr c i = d.ctr c i := rfl

theorem Dev.reg_irq_ne (v a : Nat) (h : a ≠ Reg.HOST_INT_STATUS.addr) : (d.irq v).reg a = d.reg a := by
  unfold Dev.irq
  split
  · rfl
  · dsimp only
    split
    · rw [Dev.reg_out]
      exact d.reg_setReg_ne _ _ _ h
    · exact d.reg_setReg_ne _ _ _ h

theorem almField_addr (g : Nat) : (almField g).addr = Reg.SUPV_ALM.addr := by
  unfold almField
  split <;> rfl

theorem Dev.reg_alarm_ne (g b a : Nat) (h : a ≠ Reg.SUPV_ALM.addr) (hi : a ≠ Reg.HOST_INT_STATUS.addr) :
    (d.alarm g b).reg a = d.reg a := by
  unfold Dev.alarm
  split
  · rfl
  · rw [Dev.reg_irq_ne _ _ _ hi]
    exact d.reg_setReg_ne _ _ _ (by rwa [almField_addr])

/-! ### Counters -/

theorem Dev.ctr_cntBy_same (c : Ctr) (i n : Nat) : (d.cntBy c i n).ctr c i = (d.ctr c i + n) % 2 ^ 64 := tget_tput_same _ _ _ _

theorem Dev.ctr_cntBy_ne (c e : Ctr) (i j n : Nat) (h : e.key j ≠ c.key i) : (d.cntBy c i n).ctr e j = d.ctr e j :=
  tget_tput_ne _ _ _ _ _ _ h

/-! ### The canonical form -/

theorem Dev.canon_of_eq {d d' : Dev} (h : d.canon = true) (hr : d'.regs = d.regs) (hc : d'.ctrs = d.ctrs)
    (ho : d'.ctrOvf = d.ctrOvf) : d'.canon = true := by rwa [Dev.canon, hr, hc, ho]

theorem Dev.canon_setReg (a : Nat) (w : Word) (h : d.canon = true) : (d.setReg a w).canon = true := by
  simp only [Dev.canon, Bool.and_eq_true] at *
  exact ⟨⟨twf_tput _ _ _ _ h.1.1, h.1.2⟩, h.2⟩

theorem Dev.canon_wr (r : FRef) (v : Nat) (h : d.canon = true) : (d.wr r v).canon = true := d.canon_setReg _ _ h

theorem Dev.canon_setFlag (r : FRef) (b : Bool) (h : d.canon = true) : (d.setFlag r b).canon = true := d.canon_setReg _ _ h

theorem Dev.canon_setBitOf (r : FRef) (k : Nat) (b : Bool) (h : d.canon = true) : (d.setBitOf r k b).canon = true :=
  d.canon_setReg _ _ h

theorem Dev.canon_cntBy (c : Ctr) (i n : Nat) (h : d.canon = true) : (d.cntBy c i n).canon = true := by
  simp only [Dev.canon, Bool.and_eq_true] at *
  refine ⟨⟨h.1.1, twf_tput _ _ _ (fun _ => 0) h.1.2⟩, ?_⟩
  dsimp only [Dev.cntBy]
  split
  · exact h.2
  · exact twf_tput _ _ _ (fun _ => false) h.2

theorem Dev.canon_cnt (c : Ctr) (i : Nat) (h : d.canon = true) : (d.cnt c i).canon = true := d.canon_cntBy _ _ _ h

theorem Dev.canon_out (o : Out) (h : d.canon = true) : (d.out o).canon = true := h

theorem Dev.canon_irq (v : Nat) (h : d.canon = true) : (d.irq v).canon = true := by
  unfold Dev.irq
  split
  · exact h
  · dsimp only
    split
    · exact Dev.canon_out _ _ (d.canon_setBitOf _ _ _ h)
    · exact d.canon_setBitOf _ _ _ h

theorem Dev.canon_alarm (g b : Nat) (h : d.canon = true) : (d.alarm g b).canon = true := by
  unfold Dev.alarm
  split
  · exact h
  · exact Dev.canon_irq _ _ (d.canon_setBitOf _ _ _ h)

theorem Dev.canon_setPeer (r : FRef) (b : Bool) (h : d.canon = true) : (d.setPeer r b).canon = true := by
  unfold Dev.setPeer
  split
  · exact h
  · exact Dev.canon_irq _ _ (d.canon_setFlag _ _ h)

theorem Dev.canon_submit (r : LogRec) (h : d.canon = true) : (d.submit r).canon = true := by
  unfold Dev.submit
  split
  · exact h
  · exact d.canon_cnt _ _ h

theorem Dev.canon_log (typ unit : Nat) (data : List Byte) (h : d.canon = true) : (d.log typ unit data).canon = true :=
  d.canon_submit _ h

/-! ### Raising, counting and queueing -/

/-- A source that was set stays set, and no second message is sent for it (R359). -/
theorem Dev.irq_of_set (v : Nat) (h : d.bitOf Reg.HOST_INT_STATUS.SRC v = true) : d.irq v = d := by
  unfold Dev.irq
  simp [h]

/-- An alarm bit that was set stays set and raises nothing again (R341, R359). -/
theorem Dev.alarm_of_set (g b : Nat) (h : d.bitOf (almField g) b = true) : d.alarm g b = d := by
  unfold Dev.alarm
  simp [h]

/-- The log queue never grows past 64 records by a submission (R348). -/
theorem Dev.submit_length (r : LogRec) (h : d.supv.logQ.length ≤ 64) : (d.submit r).supv.logQ.length ≤ 64 := by
  unfold Dev.submit
  split
  · simp only [List.length_append, List.length_singleton]
    omega
  · exact h

theorem Dev.submit_room (r : LogRec) (h : d.supv.logQ.length < 64) : (d.submit r).supv.logQ = d.supv.logQ ++ [r] := by
  unfold Dev.submit
  simp [h]

theorem Dev.submit_full (r : LogRec) (h : ¬ d.supv.logQ.length < 64) : (d.submit r).supv.logQ = d.supv.logQ := by
  unfold Dev.submit
  simp [h]

end Sys2Proof.Machine
end

