-- ==== Sys2Proof/Certificates/Slice0/Obligations.lean ====
section
/-! DEFINITION. The statements about the block, one definition each, for the provers. A state is written ⟨d, q⟩: the device `d`
and the queue `q` of waiting commands; a next state ⟨e, q⟩ has the queue as it was. `d.hold.live` says that the core clocks run
and nothing holds the core in reset (log entry 7). -/

open Sys2Proof Sys2Proof.Machine

/-- A step runs the command at the front of the queue; on an empty queue one nanosecond passes. For every command c, device
d and queue q, a step with c at the front of the queue is exec of c with the queue's rest. On an empty queue the step lets
one nanosecond pass: the clock count advances by one and, while the clocks run and nothing holds the core in reset, each
time base by 1 ns and its FREQ, modulo 2^48 s; nothing else changes but the copy of TB0's seconds on VDD_AON. That time
passes on an empty queue is the model's choice (log entries 1 and 2). -/
def Obligations.StepRunsTheFrontCommand : Prop :=
  (∀ (c : Instr) (d : Dev) (q : List Instr), step ⟨d, c :: q⟩ = exec c ⟨d, q⟩) ∧
  (∀ d : Dev, ∃ e : Dev, step ⟨d, []⟩ = .next ⟨e, []⟩ ∧ e.now = d.now + 1 ∧
    (d.hold.live = false → e = { d with now := d.now + 1 }) ∧
    (d.hold.live = true → d.time.tb.length = 8 → ∀ t, t < 8 →
      e.own t = (((d.own t : Int) + 2 ^ 32 + d.rdS (Reg.TIME_TB_FREQ.VALUE t)) % (2 ^ 48 * 10 ^ 9 * 2 ^ 32)).toNat) ∧
    e = { d with
      now := e.now, time := { d.time with tb := e.time.tb }, boot := { d.boot with tb0Sec := e.boot.tb0Sec } })

/-- Every command completes, and a queue of commands is worked off first in, first out, whatever waits behind it. For every
command, device and queue, exec answers a next state whose queue is as it was. While the clocks stand or something holds the
core in reset, every command but those of power, reset and PLL_LOCK_DONE leaves the state as it is (log entry 7). For every
list of commands cs and every device d there is a device e such that running as many steps as cs has commands leaves e and
exactly the queue that stood behind cs, whatever it is; one command more is then exec of it on e; and k further steps on the
empty queue let k nanoseconds pass. So no command is lost, overtaken or influenced by what waits behind it. The queue is the
model's own (log entry 1). -/
def Obligations.CommandsRunInOrder : Prop :=
  (∀ (c : Instr) (d : Dev) (q : List Instr), ∃ e : Dev, exec c ⟨d, q⟩ = .next ⟨e, q⟩ ∧
    (d.hold.live = false → (∀ b n, c ≠ .pwrGoodRise b n ∧ c ≠ .porRelease b n ∧ c ≠ .sysRstAssert b n) → c ≠ .porAssert →
      c ≠ .pwrGoodFall → c ≠ .pllLockDone → e = d)) ∧
  (∀ (cs : List Instr) (d : Dev), ∃ e : Dev,
    (∀ q, Sys2Proof.core.run cs.length (⟨d, cs ++ q⟩ : State) = .next (⟨e, q⟩ : State)) ∧
    (∀ c q, Sys2Proof.core.run (cs.length + 1) (⟨d, cs ++ c :: q⟩ : State) = exec c ⟨e, q⟩) ∧
    (∀ k, Sys2Proof.core.run (cs.length + k) (⟨d, cs⟩ : State) = .next (⟨Dev.tick^[k] e, []⟩ : State)))

/-- Every step keeps the register file, counters, tables and memories in their canonical form. For every state in which the
register file, the counters and their OVF bits, the indexed tables, the Beater store, the address table, the node table, the
recovery contexts and the link RAM of every bank stand in canonical form (keys strictly rising, no entry that equals what an
unlisted key reads) and the eight time bases and four pairs are there, the state after any step is such a state. The form is
the model's (log entry 42); statements that read these tables by their listed entries take it as a premise. -/
def Obligations.TablesStayCanonical : Prop :=
  ∀ s t : State, step s = .next t → s.dev.tidy = true → t.dev.tidy = true

/-- Every step keeps the numbers of frames and copies distinct and below the next to be given. For every state in which no
two frames and no two copies carry the same number and each number lies below the next one to be given, the state after any
step is such a state: reception, linking, frames built in the device and frames of a supervisor take fresh numbers, and no
command gives a frame or a copy another number. The numbers are the model's own names for what the spec tells apart by its
place; statements about one frame or one copy take this as a premise. -/
def Obligations.FrameNumbersStayFresh : Prop :=
  ∀ s t : State, step s = .next t → s.dev.fresh → t.dev.fresh

/-- What the block holds before its first power-up, where both invariants hold. Before its first power-up the block has no
command waiting, PWR_GOOD low, no clock, no frame and no copy; every register reads the reset value its table gives, but
PWCK_AVS, which shows the fused setpoint; every counter reads zero with OVF clear, every entry of an indexed table its reset
value and every word of the Beater store zero; the tables are canonical and the numbers fresh. That the setpoint is 750 mV,
that flash is erased and what memories hold is the model's choice (log entries 5 and 42). -/
def Obligations.ResetHoldsTheStatedValues : Prop :=
  State.reset.pending = [] ∧ State.reset.dev.hold.live = false ∧ State.reset.dev.path.frames = [] ∧ State.reset.dev.path.copies = [] ∧
    (∀ a, a ≠ Reg.PWCK_AVS.addr → State.reset.dev.reg a = resetOf a) ∧ State.reset.dev.rd Reg.PWCK_AVS.SETPOINT_MV = 750 ∧
    (∀ c i, State.reset.dev.ctr c i = 0 ∧ tget State.reset.dev.ctrOvf false (c.key i) = false) ∧
    (∀ t i w, State.reset.dev.tabW t i w = tabReset (tabKey t i w)) ∧ (∀ p k h w, State.reset.dev.storeWord p k h w = 0) ∧
    State.reset.dev.tidy = true ∧ State.reset.dev.fresh

/-- From PWR_GOOD to forwarding release: the steps of start-up, what each needs and what it leaves. PWR_GOOD_RISE with POR_N
high, and POR_RELEASE with PWR_GOOD high, are time zero: the start is counted and the straps latched. PLL_LOCK_DONE starts
the clocks, the domains and the AVS setpoint. NVM_DISCOVERY accepts devices and goes to step 4, or to recovery.
IMAGE_HEADER_CHECK takes the next candidate or records its code; with none left recovery begins. FIRMWARE_SECTION_LOAD and
SECTION_HASH_CHECK pass or fail a section with 0x17 or 0x18. HBM_TRAINING_DONE marks a stack trained or failed.
JOURNAL_ENTRY_REPLAY takes the next sequence. FORWARDING_RELEASE needs replay and training ended. FUSE_ADVANCE blows the
epoch. RECOVERY_RESTART comes 100 ms after an image store. Out of their phase they change nothing. Points of start-up:
DEDUCED, log entries 8 to 13. -/
def Obligations.StartUpRunsItsSteps : Prop :=
  (∀ (d : Dev) (q : List Instr) (b n : Nat) (i : Instr), b < 4 → n < 2 → d.hold.live = false →
    (i = .pwrGoodRise b n ∧ d.hold.pwrGood = false ∧ d.hold.por = false) ∨ (i = .porRelease b n ∧ d.hold.pwrGood = true ∧ d.hold.por = true) →
    ∃ e : Dev, exec i ⟨d, q⟩ = .next ⟨e, q⟩ ∧ e.hold.pwrGood = true ∧ e.hold.por = false ∧ e.boot.t0 = d.now ∧
      e.boot.bootCount = (d.boot.bootCount + 1) % 2 ^ 16 ∧ e.rd Reg.DEV_STRAP.BOOT_SEL = b ∧ e.rd Reg.DEV_STRAP.NVM_MODE = n ∧
      e.flag Reg.DEV_BOOT_STATUS.UNPROV = d.unprovisioned ∧ d.regsBut e [Reg.DEV_STRAP.addr, Reg.DEV_BOOT_STATUS.addr] ∧
      e = { d with hold := e.hold, regs := e.regs, boot := e.boot }) ∧
  (∀ (d : Dev) (q : List Instr) (b n : Nat),
    (d.hold.pwrGood = true → exec (.pwrGoodRise b n) ⟨d, q⟩ = .next ⟨d, q⟩) ∧
    (d.hold.por = false → exec (.porRelease b n) ⟨d, q⟩ = .next ⟨d, q⟩) ∧
    (d.hold.pwrGood = true → d.hold.por = false → d.hold.shutdown = false → d.hold.clocks = false → ∃ e : Dev,
      exec .pllLockDone ⟨d, q⟩ = .next ⟨e, q⟩ ∧ e.hold.live = true ∧ e.flag Reg.PWCK_CLK_STATUS.PLL_LOCK = true ∧
      e.rd Reg.DEV_BOOT_STATUS.PHASE = 1 ∧ e.rd Reg.PWCK_AVS.VOUT_MV = d.rd Reg.PWCK_AVS.SETPOINT_MV ∧
      e.wire = d.wire ++ [.pmbus 0 (d.rd Reg.PWCK_AVS.SETPOINT_MV)] ∧ (d.power = PowerSt.zero → ∀ h ∈ step2Domains, ∃ x ∈ e.power.waiting,
        x.holder = h) ∧ e = { d with
          hold := e.hold, regs := e.regs, wire := e.wire, time := e.time, power := e.power }) ∧
    (d.hold.clocks = true ∨ d.hold.pwrGood = false → exec .pllLockDone ⟨d, q⟩ = .next ⟨d, q⟩)) ∧
  (∀ (d : Dev) (q : List Instr), d.hold.live = true → d.bootRuns = true →
    (d.phase = 1 → (∃ e : Dev, exec .nvmDiscovery ⟨d, q⟩ = .next ⟨e, q⟩ ∧
      e.boot.nvm = d.boot.nvm.map (fun n => { n with ok := n.meets (d.rd Reg.DEV_STRAP.NVM_MODE) }) ∧
      (d.unprovisioned = false → d.rd Reg.DEV_STRAP.BOOT_SEL ≠ 3 → e.phase = 2 ∧ e.boot.recovery = d.boot.recovery ∧
        d.regsBut e [Reg.DEV_BOOT_STATUS.addr, Reg.DEV_AMD_STATUS.addr] ∧ e = { d with
          regs := e.regs, boot := e.boot }) ∧
      (d.unprovisioned = true → e.phase = 6 ∧ e.boot.recovery = true ∧ e.rd Reg.DEV_BOOT_STATUS.SOURCE = 3 ∧ e.role d.bootSup = 1 ∧
        e = { d with
          regs := e.regs, ctrs := e.ctrs, ctrOvf := e.ctrOvf, wire := e.wire, supv := e.supv, boot := e.boot,
          power := e.power }))) ∧
    (d.phase = 2 → d.boot.cand = none → ∀ l, l = bootOrder (d.rd Reg.DEV_STRAP.BOOT_SEL) →
      ((∀ x ∈ l, x ∈ d.boot.tried) → ∃ e : Dev, exec .imageHeaderCheck ⟨d, q⟩ = .next ⟨e, q⟩ ∧ e.phase = 6 ∧ e.boot.recovery = true ∧
        e.role d.bootSup = 1 ∧ e = { d with
          regs := e.regs, ctrs := e.ctrs, ctrOvf := e.ctrOvf, wire := e.wire, supv := e.supv, boot := e.boot,
          power := e.power }) ∧
      (∀ nv c, l.find? (fun x => !d.boot.tried.contains x) = some nv →
        c = (if (d.nvm nv).ok then headerCode d.boot.fuses (imageRegion (d.nvm nv).capacity) (d.nvm nv).image else 0x10) →
        (c = 1 → ∃ (e : Dev) (x : Load), exec .imageHeaderCheck ⟨d, q⟩ = .next ⟨e, q⟩ ∧ e.phase = 3 ∧ e.boot.cand = some x ∧ x.nv = nv ∧
          x.hdr = imgHeader (d.nvm nv).image ∧ x.cur = 0 ∧ x.pos = 0 ∧ d.regsBut e [Reg.DEV_BOOT_STATUS.addr] ∧ e = { d with
            regs := e.regs, boot := e.boot }) ∧
        (c ≠ 1 → c < 256 → ∃ e : Dev, exec .imageHeaderCheck ⟨d, q⟩ = .next ⟨e, q⟩ ∧ e.rd (if nv = 0 then Reg.DEV_BOOT_STATUS.NVA_RESULT else Reg.DEV_BOOT_STATUS.NVB_RESULT) = c ∧ e.rd Reg.DEV_BOOT_STATUS.PHASE = 2 ∧ e.boot.cand = none ∧ e.boot.tried = d.boot.tried ++ [nv] ∧ e.tabs = []))) ∧
    (∀ l s, d.loading = some (l, s) →
      (l.cur = 0 → sectionHashOk (d.nvm l.nv).image s = false → ∃ e : Dev, exec .firmwareSectionLoad ⟨d, q⟩ = .next ⟨e, q⟩ ∧
        e.rd (if l.nv = 0 then Reg.DEV_BOOT_STATUS.NVA_RESULT else Reg.DEV_BOOT_STATUS.NVB_RESULT) = 0x17 ∧ e.rd Reg.DEV_BOOT_STATUS.PHASE = 2 ∧ e.boot.cand = none ∧ e.boot.tried = d.boot.tried ++ [l.nv] ∧ e.tabs = []) ∧
      (l.cur = 0 → sectionHashOk (d.nvm l.nv).image s = true → firmwareOk (sectionBytes (d.nvm l.nv).image s) = false →
        ∃ e : Dev, exec .firmwareSectionLoad ⟨d, q⟩ = .next ⟨e, q⟩ ∧ e.rd (if l.nv = 0 then Reg.DEV_BOOT_STATUS.NVA_RESULT else Reg.DEV_BOOT_STATUS.NVB_RESULT) = 0x18 ∧ e.rd Reg.DEV_BOOT_STATUS.PHASE = 2 ∧ e.boot.cand = none ∧ e.boot.tried = d.boot.tried ++ [l.nv] ∧ e.tabs = []) ∧
      (l.cur = 0 → sectionHashOk (d.nvm l.nv).image s = true → firmwareOk (sectionBytes (d.nvm l.nv).image s) = true → d.skips s = false →
        1 < l.sects.length → ∃ e : Dev, exec .firmwareSectionLoad ⟨d, q⟩ = .next ⟨e, q⟩ ∧ e.role d.bootSup = 1 ∧
        (d.role (1 - d.bootSup) ≠ 3 → d.flag (Reg.SUPV_CORE_STATUS.DISABLED (1 - d.bootSup)) = false → e.role (1 - d.bootSup) = 2) ∧
        e.boot.cand = some { l with cur := 1, pos := 0, fwHash := s.hash } ∧ e = { d with
          regs := e.regs, ctrs := e.ctrs, ctrOvf := e.ctrOvf, wire := e.wire, supv := e.supv, boot := e.boot }) ∧
      (l.cur ≠ 0 → sectionHashOk (d.nvm l.nv).image s = false → ∃ e : Dev, exec .sectionHashCheck ⟨d, q⟩ = .next ⟨e, q⟩ ∧
        e.rd (if l.nv = 0 then Reg.DEV_BOOT_STATUS.NVA_RESULT else Reg.DEV_BOOT_STATUS.NVB_RESULT) = 0x17 ∧ e.rd Reg.DEV_BOOT_STATUS.PHASE = 2 ∧ e.boot.cand = none ∧ e.boot.tried = d.boot.tried ++ [l.nv] ∧ e.tabs = []) ∧
      (l.cur ≠ 0 → sectionHashOk (d.nvm l.nv).image s = true → (sectionBytes (d.nvm l.nv).image s).length ≤ l.pos → l.cur + 1 < l.sects.length →
        ∃ e : Dev, exec .sectionHashCheck ⟨d, q⟩ = .next ⟨e, q⟩ ∧ e.boot.cand = some { l with cur := l.cur + 1, pos := 0 } ∧ e = { d with
          boot := e.boot }) ∧
      (l.cur ≠ 0 → exec .firmwareSectionLoad ⟨d, q⟩ = .next ⟨d, q⟩) ∧ (l.cur = 0 → exec .sectionHashCheck ⟨d, q⟩ = .next ⟨d, q⟩)) ∧
    (d.loading = none → exec .firmwareSectionLoad ⟨d, q⟩ = .next ⟨d, q⟩ ∧ exec .sectionHashCheck ⟨d, q⟩ = .next ⟨d, q⟩)) ∧
  (∀ (d : Dev) (q : List Instr) (s : Nat), d.hold.live = true → s < 2 → d.phase = 4 ∨ d.phase = 6 → s ∉ d.boot.hbmDone →
    d.flag (Reg.BUFF_HBM_STATUS.FAILED s) = false →
    (∃ e : Dev, exec (.hbmTrainingDone s true) ⟨d, q⟩ = .next ⟨e, q⟩ ∧ e.boot.hbmDone = d.boot.hbmDone ++ [s] ∧
      e.flag (Reg.BUFF_HBM_STATUS.TRAINED s) = true ∧ (∀ v, v < 3 → e.rd (Reg.BUFF_VAT_FREE.FREE v s) =
        d.vatBlocks v % 2 ^ (Reg.BUFF_VAT_FREE.FREE v s).width) ∧ e = { d with
          regs := e.regs, boot := e.boot, vat := e.vat }) ∧
    (d.flag (Reg.BUFF_HBM_STATUS.FAILED (1 - s)) = false → ∃ e : Dev, exec (.hbmTrainingDone s false) ⟨d, q⟩ = .next ⟨e, q⟩ ∧
      e.boot.hbmDone = d.boot.hbmDone ++ [s] ∧ e.flag (Reg.BUFF_HBM_STATUS.FAILED s) = true ∧ e.rd (Reg.BUFF_HBM_STATUS.CAUSE s) = 1 ∧
      e.bitOf Reg.SUPV_ALM.ALM2_SRC 1 = true ∧ e = { d with
        regs := e.regs, ctrs := e.ctrs, ctrOvf := e.ctrOvf, wire := e.wire, supv := e.supv, boot := e.boot,
        power := e.power, vat := e.vat })) ∧
  (∀ (d : Dev) (q : List Instr), d.hold.live = true →
    (d.boot.replay = none ∨ d.boot.replay = some [] ∨ d.phase ≠ 4 → exec .journalEntryReplay ⟨d, q⟩ = .next ⟨d, q⟩) ∧
    (∀ s l, d.boot.replay = some (s :: l) → d.phase = 4 → d.bootRuns = true →
      ((∀ x ∈ d.verdicts s, x.2.2.1 ≠ 0) → ∃ e : Dev, exec .journalEntryReplay ⟨d, q⟩ = .next ⟨e, q⟩ ∧ e.boot = { d.boot with replay := some l } ∧
        (d.supv.logQ.length < 64 → e.supv.logQ.length = d.supv.logQ.length + 1) ∧ e = { d with
          ctrs := e.ctrs, ctrOvf := e.ctrOvf, supv := e.supv, boot := e.boot }) ∧
      (∀ nv x a, (d.verdicts s).find? (fun y => y.2.2.1 == 0) = some (nv, x, 0, some a) → (∀ y ∈ d.verdicts s, y.2.1.committed ≠ 0) →
        ((∃ y ∈ d.verdicts s, y.2.1.abandoned = 0) → ∃ e : Dev, exec .journalEntryReplay ⟨d, q⟩ = .next ⟨e, q⟩ ∧
          e.boot = { d.boot with replay := some l } ∧ e = { d with boot := e.boot }) ∧
        ((∀ y ∈ d.verdicts s, y.2.1.abandoned ≠ 0) → ∃ e : Dev, exec .journalEntryReplay ⟨d, q⟩ = .next ⟨e, q⟩ ∧ e.boot.replay = some l ∧
          e.boot.amds = d.boot.amds ++ [({ seq := s, bytes := x.bytes, chan := 255, tag := 0, phase := .waiting } : Amd)] ∧ e = { d with
            boot := e.boot })) ∧
      (∀ nv x a, (d.verdicts s).find? (fun y => y.2.2.1 == 0) = some (nv, x, 0, some a) → (∃ y ∈ d.verdicts s, y.2.1.committed = 0) →
        a.recs = [] → d.boot.shadow = [] → ∃ e : Dev, exec .journalEntryReplay ⟨d, q⟩ = .next ⟨e, q⟩ ∧ e.boot.replay = some l ∧ e.boot.cleanup = [] ∧
          e.boot.amdSeq = max d.boot.amdSeq s)) ∧
    (d.phase ≠ 4 ∨ d.boot.replay ≠ some [] ∨ d.boot.hbmDone.length ≠ 2 ∨ d.bootRuns = false →
      exec .forwardingRelease ⟨d, q⟩ = .next ⟨d, q⟩) ∧
    (d.phase = 4 → d.boot.replay = some [] → d.boot.hbmDone.length = 2 → d.bootRuns = true → ∃ e : Dev,
      exec .forwardingRelease ⟨d, q⟩ = .next ⟨e, q⟩ ∧ e.boot.released = true ∧ e.phase = 5 ∧ e.flag Reg.DEV_AUDIT_STATUS.RUNNING = true ∧
      e.rd Reg.DEV_BOOT_TIME.RELEASE_US = (d.now - d.boot.t0) / 1000 % 2 ^ 32 ∧ (∀ a ∈ allSeeds, a ∈ e.boot.latched) ∧
      e.supv.refRegs = e.regs ∧ e.supv.refTabs = e.tabs ∧ e.boot.nvm = d.boot.nvm ∧ e.hold = d.hold ∧ e.now = d.now) ∧
    (∀ l, d.boot.loaded = some l →
      (d.boot.released = false ∨ l.hdr.flags % 2 = 0 ∨ l.hdr.epoch ≤ d.boot.fuses.epoch → exec .fuseAdvance ⟨d, q⟩ = .next ⟨d, q⟩) ∧
      (d.boot.released = true → l.hdr.flags % 2 = 1 → d.boot.fuses.epoch < l.hdr.epoch → l.hdr.epoch < 2 ^ 16 → ∃ e : Dev,
        exec .fuseAdvance ⟨d, q⟩ = .next ⟨e, q⟩ ∧ e.boot.fuses = { d.boot.fuses with epoch := l.hdr.epoch } ∧
        e.rd Reg.DEV_FUSE_COUNT.EPOCH = l.hdr.epoch % 2 ^ Reg.DEV_FUSE_COUNT.EPOCH.width ∧ d.regsBut e [Reg.DEV_FUSE_COUNT.addr] ∧
        e = { d with regs := e.regs, boot := e.boot })) ∧
    (∀ t, d.boot.restartAt = some t → (d.boot.recovery = false ∨ d.now < t + 10 ^ 8 → exec .recoveryRestart ⟨d, q⟩ = .next ⟨d, q⟩) ∧
      (d.boot.recovery = true → t + 10 ^ 8 ≤ d.now → ∃ e : Dev, exec .recoveryRestart ⟨d, q⟩ = .next ⟨e, q⟩ ∧ e.phase = 0 ∧
        e.boot.recovery = false ∧ e.hold = { d.hold with clocks := false } ∧ e.boot.fuses = d.boot.fuses ∧ e.boot.t0 = d.now ∧
        e.rd Reg.DEV_STRAP.BOOT_SEL = d.rd Reg.DEV_STRAP.BOOT_SEL ∧ e.boot.bootCount = (d.boot.bootCount + 1) % 2 ^ 16)))

/-- The loader applies the next record of a section to registers, tables, key slots and the stores, or refuses the image. A
record command that is not the next record of the section being streamed changes nothing. A refused record fails the
candidate with its code, or 0x17 if the section's hash is wrong. REGISTER_WRITE_RECORD writes the touched fields of a
register on which no unit hangs; BULK_TABLE_RECORD writes the words of the entries of an indexed table outside zones STRM
and PARS; KEY_RECORD fills a slot, with its status and fingerprint, or a delegated key; STORE_RECORD writes words into both
halves of every copy. Each leaves the loader after the record. Which record comes next: DEDUCED, log entry 9. -/
def Obligations.ImageRecordsAreApplied : Prop :=
  (∀ (d : Dev) (q : List Instr) (r : CfgRec) (i : Instr), d.hold.live = true →
    (∃ a m v, r = .reg a m v ∧ i = .registerWriteRecord a m v) ∨ (∃ t f w z n x, r = .bulk t f w z n x ∧ i = .bulkTableRecord t f w z n x) ∨
      (∃ s k z n y g, r = .key s k z n y g ∧ i = .keyRecord s k z n y g) ∨ (∃ p z n y w, r = .store p z n y w ∧ i = .storeRecord p z n y w) →
    (d.loading = none → exec i ⟨d, q⟩ = .next ⟨d, q⟩) ∧
    (∀ l s, d.loading = some (l, s) →
      (l.cur = 0 ∨ d.skips s = true ∨ (∀ n, recAt s.typ ((sectionBytes (d.nvm l.nv).image s).drop l.pos) ≠ some (r, n)) →
        exec i ⟨d, q⟩ = .next ⟨d, q⟩) ∧
      (∀ n c, l.cur ≠ 0 → d.skips s = false → recAt s.typ ((sectionBytes (d.nvm l.nv).image s).drop l.pos) = some (r, n) →
        (d.imageRec r).1 = c → c ≠ 0 → c < 256 → ∃ e : Dev, exec i ⟨d, q⟩ = .next ⟨e, q⟩ ∧
          e.rd (if l.nv = 0 then Reg.DEV_BOOT_STATUS.NVA_RESULT else Reg.DEV_BOOT_STATUS.NVB_RESULT) = (if sectionHashOk (d.nvm l.nv).image s then c else 0x17) ∧ e.rd Reg.DEV_BOOT_STATUS.PHASE = 2 ∧ e.boot.cand = none ∧ e.boot.tried = d.boot.tried ++ [l.nv] ∧ e.tabs = []))) ∧
  (∀ (d : Dev) (q : List Instr) (l : Load) (s : Section) (n : Nat) (x : CfgRec) (l2 : Load), d.hold.live = true → d.loading = some (l, s) →
    l.cur ≠ 0 → d.skips s = false → recAt s.typ ((sectionBytes (d.nvm l.nv).image s).drop l.pos) = some (x, n) →
    l2 = { l with pos := l.pos + n } →
    (∀ (a m v : Nat) (r : RDecl) (ix : List Nat), x = .reg a m v → findReg a = some (r, ix) → d.recordRefused a m = false →
      d.valueRefused r ix (recordWord r (d.reg a) m v).toNat = false → portOfAddr a = none → (∀ f ∈ r.fields, f.acc ≠ .cnt ∧ f.acc ≠ .w1s) →
      r.name ∉ ["PORT_GRP_MODE", "PORT_LANE_TXEQ", "TIME_INST_CFG", "TIME_INST_PORTS", "TIME_INST_INTV", "TIME_PAIR_CFG", "SEAL_Q_BLOCKS",
        "SEAL_Q_RES", "MODL_CAGE_CFG", "MODL_BUS_CFG", "HOST_INT_EN", "HOST_INT_STATUS", "HOST_BEC_HI"] →
      ∃ e : Dev, exec (.registerWriteRecord a m v) ⟨d, q⟩ = .next ⟨e, q⟩ ∧ e.reg a = recordWord r (d.reg a) m v ∧ e.boot.cand = some l2 ∧
        d.regsBut e (a :: (Reg.HOST_INT_STATUS.addr :: (List.range 16).map Reg.HOST_BEC_HI.addr)) ∧ e = { d with
          regs := e.regs, host := e.host, wire := e.wire, boot := e.boot }) ∧
    (∀ t w f es, x = .bulk t 0 w 0 f es → bulkBad t 0 w 0 f es = false → t / 4096 ≠ 5 → t / 4096 ≠ 3 →
      (∀ y ∈ es, d.entryBad t f y = false) → ∃ e : Dev, exec (.bulkTableRecord t 0 w 0 f es) ⟨d, q⟩ = .next ⟨e, q⟩ ∧
        (∀ u ∈ recTargets t, ∀ k ws j v, es[k]? = some ws → ws[j]? = some v → e.tabW u (f + k) j = BitVec.ofNat 32 v) ∧
        (∀ u k j, k < 2 ^ 17 → j < 16 → u ∉ recTargets t ∨ k < f ∨ f + es.length ≤ k → e.tabW u k j = d.tabW u k j) ∧
        e.boot.cand = some l2 ∧ e = { d with tabs := e.tabs, boot := e.boot }) ∧
    (∀ slot kind nonce key tag, x = .key slot kind 0 nonce key tag →
      (kind = 1 → slot ≤ 511 → (nonce ++ tag).all (· == 0) = true → edKeyOk key = true → ∃ e : Dev,
        exec (.keyRecord slot kind 0 nonce key tag) ⟨d, q⟩ = .next ⟨e, q⟩ ∧ tget e.deck.keys [] slot = slice key 0 32 ∧
        e.flag (Reg.SEAL_KEY_STATUS.VALID slot) = true ∧ e.rd (Reg.SEAL_KEY_STATUS.KIND slot) = 1 ∧
        e.rd (Reg.SEAL_KEY_FPR.FPR slot) = fromBe ((sha256 (slice key 0 32)).take 4) % 2 ^ 32 ∧ e.boot.cand = some l2 ∧
        d.regsBut e [Reg.SEAL_KEY_STATUS.addr slot, Reg.SEAL_KEY_FPR.addr slot] ∧ e = { d with
          regs := e.regs, deck := e.deck, boot := e.boot }) ∧
      (∀ p, kind = 2 → slot ≤ 511 → gcmOpen d.boot.fuses.kek nonce (keyHead slot kind 0 ++ le 4 d.boot.fuses.realm) key tag = some p → ∃ e : Dev,
        exec (.keyRecord slot kind 0 nonce key tag) ⟨d, q⟩ = .next ⟨e, q⟩ ∧ tget e.deck.keys [] slot = slice p 0 32 ∧
        e.rd (Reg.SEAL_KEY_STATUS.KIND slot) = 2 ∧ e.rd (Reg.SEAL_KEY_FPR.FPR slot) = 0 ∧ e.boot.cand = some l2 ∧ e = { d with
          regs := e.regs, deck := e.deck, boot := e.boot }) ∧
      (kind = 0x10 → 1 ≤ slot → slot ≤ 8 → (nonce ++ tag).all (· == 0) = true → edKeyOk key = true → ∃ e : Dev,
        exec (.keyRecord slot kind 0 nonce key tag) ⟨d, q⟩ = .next ⟨e, q⟩ ∧ tget e.boot.delegates [] slot = key ∧ e.boot.cand = some l2 ∧
        e = { d with boot := e.boot })) ∧
    (∀ m f ws, x = .store m 0 f 0 ws → storeBad m 0 f 0 ws.length = false → ∃ e : Dev,
      exec (.storeRecord m 0 f 0 ws) ⟨d, q⟩ = .next ⟨e, q⟩ ∧
      (∀ p k h j w, m.testBit p = true → p < 4 → k < 16 → h < 2 → ws[j]? = some w → e.storeWord p k h (f + j) = w) ∧
      (∀ p k h j, p < 4 → k < 16 → h < 2 → j < 2 ^ 14 → m.testBit p = false ∨ j < f ∨ f + ws.length ≤ j →
        e.storeWord p k h j = d.storeWord p k h j) ∧ (∀ p, p < 4 → m.testBit p = true → p ∈ e.boot.storePipes) ∧ e.boot.cand = some l2 ∧
      e = { d with beat := e.beat, boot := e.boot }))

/-- Submission, journal, staging, arming, commit and cleanup of an amendment. AMEND_SUBMIT before release waits; after it a
malformed record is answered 8 with code 1, one not addressed here 0 with 0x0D, one that fails R57 with its code, kept and
logged; else it is journaled and its exchange stays open. JOURNAL_WRITTEN answers 0 and lets the amendment wait for staging,
or 0x0C if no journal holds it. AMENDMENT_STAGE puts the next amendment into the shadow or abandons it with 0x0B.
STAGING_COMPLETE arms the commit at its instant, or late. COMMIT at that instant with a supervisor makes the shadow current,
without one it becomes late; LATE_COMMIT sets LATE and logs. COMMIT_CLEANUP_DONE marks the entries COMMITTED and shows the
sequence. Otherwise they change nothing. Points between the steps: DEDUCED, log entries 14 to 17. -/
def Obligations.AmendmentsReachTheirCommit : Prop :=
  (∀ (d : Dev) (q : List Instr) (k len ver : Nat) (adr c : Nat) (b : List Byte) (r : Request), d.hold.live = true →
    (d.boot.released = false → d.boot.recovery = false → exec (.amendSubmit k b) ⟨d, q⟩ = .next ⟨d, q⟩) ∧
    (d.boot.released = true → ver = (d.chan k).ver → d.asksFor k 0x20 1 r → r.body.length = 16 → d.dmaReady = true →
      descriptor (slice r.body 0 16) true false = some (0, len, adr) →
      (parseAmd (slice b 0 len) = none → ∃ e : Dev, exec (.amendSubmit k b) ⟨d, q⟩ = .next ⟨e, q⟩ ∧ d.answered e k r ver 8 1 [] ∧
        e.rd Reg.DEV_AMD_STATUS.LAST_REJECT = 1 ∧ d.regsBut e (Reg.DEV_AMD_STATUS.addr :: mailRegs k) ∧
        e = { d with
          regs := e.regs, ctrs := e.ctrs, ctrOvf := e.ctrOvf, wire := e.wire, host := e.host, supv := e.supv }) ∧
      (∀ a, parseAmd (slice b 0 len) = some a → c = d.amdCode false a →
        (c = 0x0D → ∃ e : Dev, exec (.amendSubmit k b) ⟨d, q⟩ = .next ⟨e, q⟩ ∧ d.answered e k r ver 0 0x0D [] ∧ d.regsBut e (mailRegs k) ∧
          e = { d with regs := e.regs, wire := e.wire, host := e.host }) ∧
        (c ≠ 0 → c ≠ 0x0D → ∃ e : Dev, exec (.amendSubmit k b) ⟨d, q⟩ = .next ⟨e, q⟩ ∧ d.answered e k r ver 8 c [] ∧
          e.rd Reg.DEV_AMD_STATUS.LAST_REJECT = c ∧ e.supv.logQ = d.queued ⟨0x0010, 3, d.supOrigin, 0, false,
            le 8 0 ++ le 1 c ++ le 1 r.origin ++ le 2 0 ++ le 8 a.seq⟩ ∧ d.regsBut e (Reg.DEV_AMD_STATUS.addr :: mailRegs k) ∧
          e = { d with
            regs := e.regs, ctrs := e.ctrs, ctrOvf := e.ctrOvf, wire := e.wire, host := e.host, supv := e.supv }) ∧
        (c = 0 → ∃ e : Dev, exec (.amendSubmit k b) ⟨d, q⟩ = .next ⟨e, q⟩ ∧ (e.chan k).opened = some ⟨0x20, r.tag⟩ ∧ e.mbFull k = false ∧
          e.boot.amds = d.boot.amds ++ [({ seq := a.seq, bytes := (slice b 0 len).take a.len, chan := k, tag := r.tag, phase := .journaling } :
            Amd)] ∧ (∀ nv, nv ∈ d.roomFor a.len → a.len ≤ len → (e.nvm nv).journal = (d.nvm nv).journal ++ 
              [JEntry.mk a.seq 0xFFFFFFFF 0xFFFFFFFF 0xFFFFFFFF ((slice b 0 len).take a.len)]) ∧
          d.regsBut e [Reg.HOST_MB_CTRL.addr k, Reg.DEV_AMD_STATUS.addr] ∧ e = { d with
            regs := e.regs, host := e.host, boot := e.boot })))) ∧
  (∀ (d : Dev) (q : List Instr) (s : Nat) (x y : Bool), d.hold.live = true →
    (d.supRunning = false ∨ (∀ a ∈ d.boot.amds, ¬(a.seq = s ∧ a.phase = .journaling)) → exec (.journalWritten s x y) ⟨d, q⟩ = .next ⟨d, q⟩) ∧
    (∀ a g, d.supRunning = true → d.boot.amds.find? (fun (z : Amd) => z.seq == s && z.phase == .journaling) = some a → a.chan < 4 →
      (d.chan a.chan).opened = some ⟨0x20, a.tag⟩ → d.mbFull (a.chan + 4) = false →
      g = [0, 1].filter (fun nv => (d.nvm nv).ok && (d.nvm nv).journal.any (fun z => z.seq == s) && (d.nvm nv).writable &&
        (if nv = 0 then x else y)) →
      (g = [] → ∃ e : Dev, exec (.journalWritten s x y) ⟨d, q⟩ = .next ⟨e, q⟩ ∧ d.replied e a.chan 0x20 a.tag (d.chan a.chan).ver 8 0x0C [] ∧
        e.boot.amds = d.boot.amds.filter (fun z => z.seq != s) ∧ e.rd Reg.DEV_AMD_STATUS.LAST_REJECT = 0x0C ∧
        e = { d with
          regs := e.regs, ctrs := e.ctrs, ctrOvf := e.ctrOvf, wire := e.wire, host := e.host, supv := e.supv,
          boot := e.boot }) ∧
      (g ≠ [] → ∃ e : Dev, exec (.journalWritten s x y) ⟨d, q⟩ = .next ⟨e, q⟩ ∧ d.replied e a.chan 0x20 a.tag (d.chan a.chan).ver 0 0 [] ∧
        (∀ z ∈ e.boot.amds, z.seq = s → z.phase = .waiting) ∧ e.flag Reg.DEV_AMD_STATUS.DEGRADED = decide (g.length < 2) ∧
        (∀ nv ∈ g, ∃ z ∈ (e.nvm nv).journal, z.seq = s ∧ z.written = 0) ∧ e = { d with
          regs := e.regs, ctrs := e.ctrs, ctrOvf := e.ctrOvf, wire := e.wire, host := e.host, supv := e.supv,
          boot := e.boot }))) ∧
  (∀ (d : Dev) (q : List Instr), d.hold.live = true →
    (d.boot.released = false ∨ d.supRunning = false ∨ d.boot.cleanup ≠ [] ∨ d.nextAmd = none →
      exec .amendmentStage ⟨d, q⟩ = .next ⟨d, q⟩) ∧
    (∀ a r, d.boot.released = true → d.supRunning = true → d.boot.cleanup = [] → d.nextAmd = some (a, r) →
      (d.stageAll r.recs = none → ∃ e : Dev, exec .amendmentStage ⟨d, q⟩ = .next ⟨e, q⟩ ∧
        e.boot.amds = d.boot.amds.filter (fun z => z.seq != a.seq) ∧ e.rd Reg.DEV_AMD_STATUS.LAST_REJECT = 0x0B ∧
        e.boot.shadow = d.boot.shadow ∧ e.supv.logQ = d.queued ⟨0x0011, 3, d.supOrigin, 0, false, le 8 0 ++ le 8 a.seq⟩ ∧
        d.regsBut e [Reg.DEV_AMD_STATUS.addr] ∧ e = { d with
          regs := e.regs, ctrs := e.ctrs, ctrOvf := e.ctrOvf, supv := e.supv, boot := e.boot }) ∧
      (∀ x, d.stageAll r.recs = some x → ∃ e : Dev, exec .amendmentStage ⟨d, q⟩ = .next ⟨e, q⟩ ∧ e.boot.shadow = d.boot.shadow ++ r.recs ∧
        e.boot.armed = none ∧ e.flag Reg.DEV_AMD_STATUS.STAGED = true ∧ (∀ z ∈ e.boot.amds, z.seq = a.seq → z.phase = .staged) ∧
        e = { d with
          regs := e.regs, ctrs := e.ctrs, ctrOvf := e.ctrOvf, wire := e.wire, host := e.host, supv := e.supv,
          boot := e.boot, strm := e.strm, look := e.look, deck := e.deck, beat := e.beat })) ∧
    (d.stagedAmds = [] ∨ d.supRunning = false ∨ d.boot.armed ≠ none ∨ d.nextAmd ≠ none → exec .stagingComplete ⟨d, q⟩ = .next ⟨d, q⟩) ∧
    (∀ a r l late due, d.stagedAmds = (a, r) :: l → d.supRunning = true → d.boot.armed = none → d.nextAmd = none →
      late = (!r.immediate && decide (r.act < d.presNs r.tb + 2000000)) →
      due = (if r.immediate ∨ late then (d.presNs r.tb / 10 ^ 6 + 1) * 10 ^ 6 else r.act) → ∃ e : Dev,
      exec .stagingComplete ⟨d, q⟩ = .next ⟨e, q⟩ ∧ e.boot = { d.boot with
        armed := some { tb := r.tb, act := if r.immediate then due else r.act, due := due, late := late } } ∧ e = { d with
          boot := e.boot })) ∧
  (∀ (d : Dev) (q : List Instr), d.hold.live = true →
    (d.boot.armed = none ∨ (∃ a, d.boot.armed = some a ∧ d.presNs a.tb < a.due) →
      exec .commit ⟨d, q⟩ = .next ⟨d, q⟩ ∧ exec .lateCommit ⟨d, q⟩ = .next ⟨d, q⟩) ∧
    (∀ a i, d.boot.armed = some a → a.due ≤ d.presNs a.tb →
      (a.late = true → exec .commit ⟨d, q⟩ = .next ⟨d, q⟩) ∧ (a.late = false → exec .lateCommit ⟨d, q⟩ = .next ⟨d, q⟩) ∧
      (i = .commit ∧ a.late = false ∨ i = .lateCommit ∧ a.late = true → d.supRunning = true ∨ d.supv.takeover ≠ none → ∃ e : Dev,
        exec i ⟨d, q⟩ = .next ⟨e, q⟩ ∧ e.boot.shadow = [] ∧ e.boot.armed = none ∧ (∀ z ∈ e.boot.amds, z.phase ≠ .staged) ∧
        e.boot.cleanup = d.boot.cleanup ++ (d.boot.amds.filter fun z => z.phase == .staged).map (fun z => z.seq) ∧
        e.flag Reg.DEV_AMD_STATUS.STAGED = false ∧ (a.late = true → e.flag Reg.DEV_AMD_STATUS.LATE = true) ∧
        (∀ x m v, d.boot.shadow = [.reg (Reg.EGRS_CBS_IDLE.addr x 0) m v] → x < 256 → e.reg (Reg.EGRS_CBS_IDLE.addr x 0) =
          (match findReg (Reg.EGRS_CBS_IDLE.addr x 0) with
            | some r => recordWord r.1 (d.reg (Reg.EGRS_CBS_IDLE.addr x 0)) m v
            | none => d.reg (Reg.EGRS_CBS_IDLE.addr x 0))) ∧ e.hold = d.hold ∧ e.now = d.now) ∧
      (d.supRunning = false → d.supv.takeover = none → i = .commit ∧ a.late = false ∨ i = .lateCommit ∧ a.late = true → ∃ e : Dev,
        exec i ⟨d, q⟩ = .next ⟨e, q⟩ ∧ e.boot = { d.boot with
          armed := some { a with late := true, due := (d.presNs a.tb / 10 ^ 6 + 1) * 10 ^ 6 } } ∧ e = { d with
            boot := e.boot })) ∧
    (d.supRunning = false ∨ d.boot.cleanup = [] → exec .commitCleanupDone ⟨d, q⟩ = .next ⟨d, q⟩) ∧
    (∀ s nv, d.supRunning = true → d.boot.cleanup = [s] → nv = 0 ∨ nv = 1 → ∃ e : Dev, exec .commitCleanupDone ⟨d, q⟩ = .next ⟨e, q⟩ ∧
      e.boot.cleanup = [] ∧ e.boot.amdSeq = max d.boot.amdSeq s ∧ e.rd Reg.DEV_AMD_SEQ_LO.SEQ = max d.boot.amdSeq s % 2 ^ 32 ∧
      (∀ x, (d.nvm nv).ok = true → (d.nvm nv).writable = true → x.seq = s → x.written = 0 → (d.nvm nv).journal = [x] →
        (e.nvm nv).journal = [{ x with committed := 0 }]) ∧ d.regsBut e (Reg.DEV_AMD_SEQ_LO.addr :: (List.range 4).map Reg.LKUP_TBL_STATUS.addr) ∧ e = { d with
          regs := e.regs, look := e.look, boot := e.boot }))

/-- An image store is refused, or erases and programs its devices one after the other and is answered. IMAGE_STORE of the
NVM that supplied the running image is answered 6, as is one without an HBM stack; a second one 7; one without bus mastering
9 with DETAIL 5; an image that fails a check of R55 is answered 8 with its code; else the exchange stays open with the
devices to be programmed in the reverse of the boot order. NVM_PROGRAM_DONE puts the image into the device and goes to the
next, or with the last one answers 0 with DETAIL 1; a failure is answered 8 with a free DETAIL (log entry 4). Without a
store, or a supervisor, it changes nothing. Order of these checks: DEDUCED, log entry 17. -/
def Obligations.ImagesAreStored : Prop :=
  (∀ (d : Dev) (q : List Instr) (k m len adr c ver : Nat) (b : List Byte) (r : Request), d.hold.live = true → ver = (d.chan k).ver →
    d.asksFor k 0x24 1 r → r.body.length = 20 → fromLe (slice r.body 0 1) = m → 1 ≤ m → m ≤ 3 → fromLe (slice r.body 1 3) = 0 →
    descriptor (slice r.body 4 16) true false = some (0, len, adr) →
    ((∃ nv, d.runningNvm = some nv ∧ m.testBit nv = true) ∨ (d.hbmUp 0 = false ∧ d.hbmUp 1 = false) → ∃ e : Dev,
      exec (.imageStore k b) ⟨d, q⟩ = .next ⟨e, q⟩ ∧ d.answered e k r ver 6 0 [] ∧ d.regsBut e (mailRegs k) ∧ e = { d with
        regs := e.regs, wire := e.wire, host := e.host }) ∧
    ((∀ nv, d.runningNvm = some nv → m.testBit nv = false) → d.hbmUp 0 = true ∨ d.hbmUp 1 = true →
      (d.boot.imgStore ≠ none → ∃ e : Dev, exec (.imageStore k b) ⟨d, q⟩ = .next ⟨e, q⟩ ∧ d.answered e k r ver 7 0 [] ∧ d.regsBut e (mailRegs k) ∧
        e = { d with regs := e.regs, wire := e.wire, host := e.host }) ∧
      (d.boot.imgStore = none → d.dmaReady = false → ∃ e : Dev, exec (.imageStore k b) ⟨d, q⟩ = .next ⟨e, q⟩ ∧ d.answered e k r ver 9 5 [] ∧
        d.regsBut e (mailRegs k) ∧ e = { d with regs := e.regs, wire := e.wire, host := e.host }) ∧
      (∀ todo region, d.boot.imgStore = none → d.dmaReady = true → todo = storeOrder (d.rd Reg.DEV_STRAP.BOOT_SEL) m →
        region = todo.foldl (fun n nv => min n (imageRegion (d.nvm nv).capacity)) (imageRegion 128) → (∀ nv ∈ todo, (d.nvm nv).ok = true) →
        c = d.storeCode region (slice b 0 len) →
        (c ≠ 1 → ∃ e : Dev, exec (.imageStore k b) ⟨d, q⟩ = .next ⟨e, q⟩ ∧ d.answered e k r ver 8 c [] ∧ d.regsBut e (mailRegs k) ∧ e = { d with
          regs := e.regs, wire := e.wire, host := e.host }) ∧
        (c = 1 → ∃ (e : Dev) (x : ImgStore), exec (.imageStore k b) ⟨d, q⟩ = .next ⟨e, q⟩ ∧ e.boot.imgStore = some x ∧ x.todo = todo ∧ x.chan = k ∧
          x.tag = r.tag ∧ x.bytes = (slice b 0 len).take (imgHeader (slice b 0 len)).imageLen ∧ (e.chan k).opened = some ⟨0x24, r.tag⟩ ∧
          e.mbFull k = false ∧ ((d.nvm (todo.headD 0)).writable = true → (e.nvm (todo.headD 0)).image = []) ∧
          d.regsBut e [Reg.HOST_MB_CTRL.addr k, Reg.DEV_AMD_STATUS.addr] ∧ e = { d with
            regs := e.regs, host := e.host, boot := e.boot })))) ∧
  (∀ (d : Dev) (q : List Instr) (x : Bool), d.hold.live = true →
    (d.boot.imgStore = none ∨ d.supRunning = false → exec (.nvmProgramDone x) ⟨d, q⟩ = .next ⟨d, q⟩) ∧
    (∀ s nv l, d.boot.imgStore = some s → d.supRunning = true → s.todo = nv :: l → (d.chan s.chan).opened = some ⟨0x24, s.tag⟩ → s.chan < 4 →
      d.mbFull (s.chan + 4) = false →
      ((d.nvm nv).writable = true → nv < d.boot.nvm.length → (l = [] → ∃ e : Dev, exec (.nvmProgramDone true) ⟨d, q⟩ = .next ⟨e, q⟩ ∧
          (e.nvm nv).image = s.bytes ∧ e.boot.imgStore = none ∧ (d.boot.recovery = true → e.boot.restartAt = some d.now) ∧
          d.replied e s.chan 0x24 s.tag (d.chan s.chan).ver 0 1 [] ∧ e = { d with
            regs := e.regs, wire := e.wire, host := e.host, boot := e.boot }) ∧
        (∀ n t, l = n :: t → n ≠ nv → ∃ e : Dev, exec (.nvmProgramDone true) ⟨d, q⟩ = .next ⟨e, q⟩ ∧ (e.nvm nv).image = s.bytes ∧
          e.boot.imgStore = some { s with todo := l } ∧ e = { d with regs := e.regs, boot := e.boot })) ∧
      (x = false ∨ (d.nvm nv).writable = false → ∃ e : Dev, exec (.nvmProgramDone x) ⟨d, q⟩ = .next ⟨e, q⟩ ∧ e.boot.imgStore = none ∧
        d.replied e s.chan 0x24 s.tag (d.chan s.chan).ver 8 (Config.freeValue d.free % 256) [] ∧ e.free = d.free + 1 ∧
        e = { d with free := e.free, regs := e.regs, wire := e.wire, host := e.host, boot := e.boot })))

/-- End of a received pause, trip and end of hold of the pause watchdog. PAUSE_EXPIRY at or after the end of the pause
releases the class; PAUSE_WD_TRIP once received pause has held the class for longer than WD_MS begins a hold of WD_HOLD_MS,
sets WD_HOLD, counts pause_wd_trip, raises the pause alarm and submits its record; PAUSE_WD_HOLD_END at the end of the hold
clears WD_HOLD. Each leaves every other register, counter and component as it was. That an event acts only once its instant
has come is log entry 7. -/
def Obligations.PauseTimersAct : Prop :=
  (∀ (d : Dev) (q : List Instr) (n c t : Nat), d.hold.live = true → n < 258 → c < 8 → (d.pauseSt n c).rxEnd = some t → t ≤ d.now →
    d.bitOf (Reg.PORT_PAUSE_STAT.WD_HOLD n) c = false →
    ∃ e : Dev, exec (.pauseExpiry n c) ⟨d, q⟩ = .next ⟨e, q⟩ ∧ (e.pauseSt n c).rxEnd = none ∧
      d.maskBit e (Reg.PORT_PAUSE_STAT.RX_PAUSED n) c false ∧
      e.rd (Reg.PORT_PAUSE_STAT.WD_HOLD n) = d.rd (Reg.PORT_PAUSE_STAT.WD_HOLD n) ∧
      e.rd (Reg.PORT_PAUSE_STAT.TX_XOFF n) = d.rd (Reg.PORT_PAUSE_STAT.TX_XOFF n) ∧
      (∀ m k, 8 * m + k ≠ 8 * n + c → e.pauseSt m k = d.pauseSt m k) ∧
      d.regsBut e [Reg.PORT_PAUSE_STAT.addr n] ∧ e = { d with regs := e.regs, ports := e.ports }) ∧
  (∀ (d : Dev) (q : List Instr) (n c : Nat), d.hold.live = true → n < 258 → c < 8 → (d.pauseSt n c).rxEnd.isSome = true →
    (d.pauseSt n c).since + d.rd (Reg.PORT_PAUSE_WD.WD_MS n) * 10 ^ 6 < d.now →
    ∃ e : Dev, exec (.pauseWdTrip n c) ⟨d, q⟩ = .next ⟨e, q⟩ ∧ (e.pauseSt n c).rxEnd = none ∧
      (e.pauseSt n c).wdEnd = d.now + d.rd (Reg.PORT_PAUSE_WD.WD_HOLD_MS n) * 10 ^ 6 ∧
      d.maskBit e (Reg.PORT_PAUSE_STAT.RX_PAUSED n) c false ∧ d.maskBit e (Reg.PORT_PAUSE_STAT.WD_HOLD n) c true ∧
      d.counted e .pauseWdTrip n 1 ∧ d.maskBit e Reg.SUPV_ALM.ALM3_SRC 0 true ∧
      (d.bitOf Reg.SUPV_ALM.ALM3_SRC 0 = false → d.maskBit e Reg.HOST_INT_STATUS.SRC 4 true) ∧
      e.supv.logQ = d.queued ⟨0x1001, 4, 0, groupOf n, false,
        le 4 (Reg.PORT_PAUSE_STAT.addr n) ++ le 4 (e.reg (Reg.PORT_PAUSE_STAT.addr n)).toNat ++ le 2 n ++ le 1 c⟩ ∧
      d.regsBut e [Reg.PORT_PAUSE_STAT.addr n, Reg.SUPV_ALM.addr, Reg.HOST_INT_STATUS.addr] ∧
      d.ctrsBut e [Ctr.pauseWdTrip.key n, Ctr.logOverrun.key 0] ∧
      e = { d with
        regs := e.regs, ctrs := e.ctrs, ctrOvf := e.ctrOvf, wire := e.wire, supv := e.supv, ports := e.ports }) ∧
  (∀ (d : Dev) (q : List Instr) (n c : Nat), d.hold.live = true → n < 258 → c < 8 →
    d.bitOf (Reg.PORT_PAUSE_STAT.WD_HOLD n) c = true → (d.pauseSt n c).wdEnd ≤ d.now →
    ∃ e : Dev, exec (.pauseWdHoldEnd n c) ⟨d, q⟩ = .next ⟨e, q⟩ ∧ d.maskBit e (Reg.PORT_PAUSE_STAT.WD_HOLD n) c false ∧
      e.rd (Reg.PORT_PAUSE_STAT.RX_PAUSED n) = d.rd (Reg.PORT_PAUSE_STAT.RX_PAUSED n) ∧
      e.rd (Reg.PORT_PAUSE_STAT.TX_XOFF n) = d.rd (Reg.PORT_PAUSE_STAT.TX_XOFF n) ∧
      d.regsBut e [Reg.PORT_PAUSE_STAT.addr n] ∧ e = { d with regs := e.regs })

/-- Link down, link up, the end of Hold and of a flush, and the clearing of ADMIN_EN. LINK_DOWN of a port that is up clears
LINK_UP, ends pause and preemption, counts link_down_events and begins Hold, or with LINK_HOLD 0 a flush. LINK_UP under the
conditions of R89 declares the link, ends Hold and starts verification; during a flush it is remembered. HOLD_EXPIRY ends
Hold in a flush: no copy for the port is left, each dropped as link_down_flush. FLUSH_DONE ends the flush and lets a
remembered link up take effect. ADMIN_EN_CLEAR takes the link down without Hold, its copies dropped as egress_disabled. Each
clause says what else may change. That LINK_UP also asks for the port to be in use, configured and clocked, and what
CDR_LOCK and SIG_DET show, are the model's reading (log entry 26). -/
def Obligations.LinkStateFollowsHold : Prop :=
  (∀ (d : Dev) (q : List Instr) (n cause : Nat), d.hold.live = true → n < 258 → d.flag (Reg.PORT_STATUS.LINK_UP n) = true →
    ∃ e : Dev, exec (.linkDown n cause) ⟨d, q⟩ = .next ⟨e, q⟩ ∧ e.flag (Reg.PORT_STATUS.LINK_UP n) = false ∧
      (d.rd (Reg.PORT_LINK_TIMING.LINK_HOLD n) ≠ 0 → e.flag (Reg.PORT_STATUS.HOLD n) = true ∧
        (e.portSt n).holdEnd = some (d.now + d.rd (Reg.PORT_LINK_TIMING.LINK_HOLD n) * 1000)) ∧
      (d.rd (Reg.PORT_LINK_TIMING.LINK_HOLD n) = 0 → e.flag (Reg.PORT_STATUS.HOLD n) = false ∧
        e.flag (Reg.PORT_STATUS.FLUSHING n) = true ∧ (e.portSt n).holdEnd = none) ∧
      (cause = 2 → e.flag (Reg.PORT_STATUS.LOCAL_FAULT n) = true) ∧ (cause = 3 → e.flag (Reg.PORT_STATUS.REMOTE_FAULT n) = true) ∧
      e.flag (Reg.PORT_STATUS.PREEMPT_ACTIVE n) = false ∧ e.rd (Reg.PORT_STATUS.VERIFY_STATUS n) = 0 ∧
      e.reg (Reg.PORT_PAUSE_STAT.addr n) = 0 ∧ (e.portSt n).reasm = none ∧ d.counted e .linkDownEvents n 1 ∧
      e = { d with
        regs := e.regs, ctrs := e.ctrs, ctrOvf := e.ctrOvf, wire := e.wire, supv := e.supv, ports := e.ports,
        path := e.path, look := e.look, deck := e.deck, vat := e.vat, fab := e.fab, egr := e.egr }) ∧
  (∀ (d : Dev) (q : List Instr) (n clear : Nat), d.hold.live = true → n < 258 → d.serves n = true → d.configured n = true →
    d.portMode n ≠ 0 → d.adminUp n = true → d.portBad n = false → d.moduleReady n = true → d.clocked n = true →
    d.flag (Reg.PORT_STATUS.LINK_UP n) = false → d.rd (Reg.PORT_LINK_TIMING.LINK_UP_STABLE n) * 10 ^ 6 ≤ clear →
    ∃ e : Dev, exec (.linkUp n clear) ⟨d, q⟩ = .next ⟨e, q⟩ ∧ e.flag (Reg.PORT_STATUS.LOCAL_FAULT n) = false ∧
      e.flag (Reg.PORT_STATUS.REMOTE_FAULT n) = false ∧
      (d.flag (Reg.PORT_STATUS.FLUSHING n) = true → e.flag (Reg.PORT_STATUS.LINK_UP n) = false ∧ (e.portSt n).upPending = true) ∧
      (d.flag (Reg.PORT_STATUS.FLUSHING n) = false → e.flag (Reg.PORT_STATUS.LINK_UP n) = true ∧
        e.flag (Reg.PORT_STATUS.HOLD n) = false ∧ (e.portSt n).holdEnd = none ∧
        (n < 256 → d.flag (Reg.PORT_PREEMPT_CFG.EN n) = true →
          (d.flag (Reg.PORT_PREEMPT_CFG.VERIFY_DIS n) = true →
            e.flag (Reg.PORT_STATUS.PREEMPT_ACTIVE n) = true ∧ e.rd (Reg.PORT_STATUS.VERIFY_STATUS n) = 0) ∧
          (d.flag (Reg.PORT_PREEMPT_CFG.VERIFY_DIS n) = false →
            e.flag (Reg.PORT_STATUS.PREEMPT_ACTIVE n) = false ∧ e.rd (Reg.PORT_STATUS.VERIFY_STATUS n) = 1))) ∧
      (∀ l ∈ d.lanesOf n, e.bitOf (Reg.PORT_GRP_STATUS.CDR_LOCK l.1) l.2 = true ∧ e.bitOf (Reg.PORT_GRP_STATUS.SIG_DET l.1) l.2 = true) ∧
      d.regsBut e [Reg.PORT_STATUS.addr n, Reg.PORT_PAUSE_STAT.addr n, Reg.PORT_GRP_STATUS.addr (n / 4)] ∧
      e = { d with regs := e.regs, ctrs := e.ctrs, ctrOvf := e.ctrOvf, wire := e.wire, ports := e.ports }) ∧
  (∀ (d : Dev) (q : List Instr) (n t : Nat), d.hold.live = true → n < 258 → (d.portSt n).holdEnd = some t → t ≤ d.now →
    d.flag (Reg.PORT_STATUS.HOLD n) = true →
    ∃ e : Dev, exec (.holdExpiry n) ⟨d, q⟩ = .next ⟨e, q⟩ ∧ e.flag (Reg.PORT_STATUS.HOLD n) = false ∧
      e.flag (Reg.PORT_STATUS.FLUSHING n) = true ∧ (e.portSt n).holdEnd = none ∧ (∀ c ∈ e.path.copies, c.dst ≠ n) ∧
      ((d.path.copies.map (·.id)).Nodup → d.counted e .drop 0x41 (d.path.copies.filter fun c => c.dst == n).length) ∧
      e = { d with
        regs := e.regs, ctrs := e.ctrs, ctrOvf := e.ctrOvf, wire := e.wire, supv := e.supv, ports := e.ports,
        path := e.path, vat := e.vat, fab := e.fab, egr := e.egr }) ∧
  (∀ (d : Dev) (q : List Instr) (n : Nat), d.hold.live = true → n < 258 → d.flag (Reg.PORT_STATUS.FLUSHING n) = true →
    ∃ e : Dev, exec (.flushDone n) ⟨d, q⟩ = .next ⟨e, q⟩ ∧ e.flag (Reg.PORT_STATUS.FLUSHING n) = false ∧
      ((d.portSt n).upPending = true → e.flag (Reg.PORT_STATUS.LINK_UP n) = true ∧ e.flag (Reg.PORT_STATUS.HOLD n) = false) ∧
      ((d.portSt n).upPending = false → e = d.setFlag (Reg.PORT_STATUS.FLUSHING n) false) ∧
      d.regsBut e [Reg.PORT_STATUS.addr n, Reg.PORT_PAUSE_STAT.addr n] ∧
      e = { d with regs := e.regs, ctrs := e.ctrs, ctrOvf := e.ctrOvf, wire := e.wire, ports := e.ports }) ∧
  (∀ (d : Dev) (q : List Instr) (n : Nat), d.hold.live = true → n < 258 → d.flag (Reg.PORT_CFG.ADMIN_EN n) = true →
    ∃ e : Dev, exec (.adminEnClear n) ⟨d, q⟩ = .next ⟨e, q⟩ ∧
      e.reg (Reg.PORT_CFG.addr n) = fput (d.reg (Reg.PORT_CFG.addr n)) 31 1 0 ∧ e.flag (Reg.PORT_STATUS.LINK_UP n) = false ∧
      e.flag (Reg.PORT_STATUS.HOLD n) = false ∧ e.flag (Reg.PORT_STATUS.FLUSHING n) = false ∧ (e.portSt n).holdEnd = none ∧
      e.reg (Reg.PORT_PAUSE_STAT.addr n) = 0 ∧ (∀ c ∈ e.path.copies, c.dst ≠ n) ∧
      d.counted e .linkDownEvents n (if d.flag (Reg.PORT_STATUS.LINK_UP n) then 1 else 0) ∧
      ((d.path.copies.map (·.id)).Nodup → d.counted e .drop 0x43 (d.path.copies.filter fun c => c.dst == n).length) ∧
      e = { d with
        regs := e.regs, ctrs := e.ctrs, ctrOvf := e.ctrOvf, wire := e.wire, supv := e.supv, ports := e.ports,
        path := e.path, look := e.look, deck := e.deck, vat := e.vat, fab := e.fab, egr := e.egr })

/-- Frames ended at the MAC: counts, runts, lengths, FCS, and MAC control frames. MAC_FRAME_END of a frame that arrives
whole counts rx_frames and rx_octets, and by its length and FCS rx_runt with its drop, rx_oversize, rx_fcs_error, or
rx_frames_ok and rx_octets_ok; reception stops at byte MAX_FRAME + 1. PAUSE_RX, PFC_RX and MAC_CTRL_IGNORED count the
control frame as its opcode and MODE say, act on received pause where RX_EN is set, and forward nothing: copies and cell
memory stay as they were. The premise that the next frame number is unused is the first part of FrameNumbersStayFresh. -/
def Obligations.ReceptionIsCountedAndJudged : Prop :=
  (∀ (d : Dev) (q : List Instr) (n ago : Nat) (b : List Byte), d.hold.live = true → d.receives n = true → d.openRx n 0 = none →
    (∀ f ∈ d.path.frames, f.id < d.path.nextFrame) → b ≠ [] → b.length ≤ d.rd (Reg.PORT_CFG.MAX_FRAME n) + 1 →
    1518 ≤ d.rd (Reg.PORT_CFG.MAX_FRAME n) →
    ∃ e : Dev, exec (.macFrameEnd n 0 ago b) ⟨d, q⟩ = .next ⟨e, q⟩ ∧ d.counted e .rxFrames n 1 ∧ d.counted e .rxOctets n b.length ∧
      (b.length < 64 → d.counted e .rxRunt n 1 ∧ d.counted e .drop 0x01 1 ∧ e.vat = d.vat ∧ e.path.copies = d.path.copies) ∧
      (64 ≤ b.length → d.rd (Reg.PORT_CFG.MAX_FRAME n) < b.length → d.counted e .rxOversize n 1) ∧
      (64 ≤ b.length → b.length ≤ d.rd (Reg.PORT_CFG.MAX_FRAME n) → fcsGood b = false →
        d.counted e .rxFcsError n 1 ∧ d.counted e .rxFramesOk n 0) ∧
      (64 ≤ b.length → b.length ≤ d.rd (Reg.PORT_CFG.MAX_FRAME n) → fcsGood b = true →
        d.counted e .rxFramesOk n 1 ∧ d.counted e .rxOctetsOk n b.length) ∧
      e = { d with
        regs := e.regs, ctrs := e.ctrs, ctrOvf := e.ctrOvf, wire := e.wire, supv := e.supv, ports := e.ports,
        path := e.path, vat := e.vat }) ∧
  (∀ (d : Dev) (q : List Instr) (n : Nat) (b : List Byte), d.hold.live = true → d.receives n = true → d.openRx n 0 = none →
    (∀ f ∈ d.path.frames, f.id < d.path.nextFrame) → 64 ≤ b.length → b.length ≤ d.rd (Reg.PORT_CFG.MAX_FRAME n) →
    isControl b = true → fcsGood b = true →
    (d.ctrlKind n b = 1 → ∃ e : Dev, exec (.pauseRx n b) ⟨d, q⟩ = .next ⟨e, q⟩ ∧ d.counted e .rxPause n 1 ∧
      d.counted e .rxFrames n 1 ∧ d.counted e .framesConsumed 0 1 ∧ e.vat = d.vat ∧ e.path.copies = d.path.copies ∧
      (∀ c, c < 8 → d.flag (Reg.PORT_PAUSE_CFG.RX_EN n) = true → d.bitOf (Reg.PORT_PAUSE_STAT.WD_HOLD n) c = false →
        (e.pauseSt n c).rxEnd = (if fromBe (slice b 16 2) = 0 then none else some (d.now + d.quantaNs n (fromBe (slice b 16 2)))) ∧
        e.bitOf (Reg.PORT_PAUSE_STAT.RX_PAUSED n) c = decide (fromBe (slice b 16 2) ≠ 0)) ∧
      d.regsBut e [Reg.PORT_PAUSE_STAT.addr n] ∧
      e = { d with regs := e.regs, ctrs := e.ctrs, ctrOvf := e.ctrOvf, ports := e.ports, path := e.path }) ∧
    (d.ctrlKind n b = 2 → ∃ e : Dev, exec (.pfcRx n b) ⟨d, q⟩ = .next ⟨e, q⟩ ∧ d.counted e .rxFrames n 1 ∧
      d.counted e .framesConsumed 0 1 ∧ e.vat = d.vat ∧ e.path.copies = d.path.copies ∧
      (∀ c, c < 8 → d.counted e (rxPfcCtr c) n (if (fromBe (slice b 16 2)).testBit c then 1 else 0) ∧
        ((fromBe (slice b 16 2)).testBit c = true → d.flag (Reg.PORT_PAUSE_CFG.RX_EN n) = true →
          d.bitOf (Reg.PORT_PAUSE_CFG.PFC_CLASSES n) c = true → d.bitOf (Reg.PORT_PAUSE_STAT.WD_HOLD n) c = false →
          (e.pauseSt n c).rxEnd = (if fromBe (slice b (18 + 2 * c) 2) = 0 then none
            else some (d.now + d.quantaNs n (fromBe (slice b (18 + 2 * c) 2)))) ∧
          e.bitOf (Reg.PORT_PAUSE_STAT.RX_PAUSED n) c = decide (fromBe (slice b (18 + 2 * c) 2) ≠ 0))) ∧
      d.regsBut e [Reg.PORT_PAUSE_STAT.addr n] ∧
      e = { d with regs := e.regs, ctrs := e.ctrs, ctrOvf := e.ctrOvf, ports := e.ports, path := e.path }) ∧
    (d.ctrlKind n b = 0 → ∃ e : Dev, exec (.macCtrlIgnored n b) ⟨d, q⟩ = .next ⟨e, q⟩ ∧ d.counted e .rxMacCtrlIgnored n 1 ∧
      d.counted e .rxFrames n 1 ∧ d.counted e .framesConsumed 0 1 ∧ e.vat = d.vat ∧ e.path.copies = d.path.copies ∧
      e = { d with ctrs := e.ctrs, ctrOvf := e.ctrOvf, path := e.path }))

/-- A new value of PORT_PAUSE_CFG, and the repetition of XOFF. PAUSE_CFG_CHANGE gives every field of PORT_PAUSE_CFG its new
value; a change of MODE or RX_EN clears received pause; PFC on MG0 or MG1 sets CFG_ERR. XOFF_REPEAT, half of QUANTA after
the last XOFF while the count stays above LOW, sends XOFF with QUANTA again, as a PFC frame for the class or as one Annex
31B frame, counts it, and changes nothing else but the instant of the last XOFF and TX_XOFF. -/
def Obligations.PauseTowardThePeer : Prop :=
  (∀ (d : Dev) (q : List Instr) (n v : Nat), d.hold.live = true → n < 258 →
    ∃ e : Dev, exec (.pauseCfgChange n v) ⟨d, q⟩ = .next ⟨e, q⟩ ∧ e.rd (Reg.PORT_PAUSE_CFG.MODE n) = v / 2 ^ 30 % 4 ∧
      e.rd (Reg.PORT_PAUSE_CFG.TX_EN n) = v / 2 ^ 29 % 2 ∧ e.rd (Reg.PORT_PAUSE_CFG.RX_EN n) = v / 2 ^ 28 % 2 ∧
      e.rd (Reg.PORT_PAUSE_CFG.PFC_CLASSES n) = v / 2 ^ 16 % 2 ^ 8 ∧ e.rd (Reg.PORT_PAUSE_CFG.QUANTA n) = v % 2 ^ 16 ∧
      (256 ≤ n → v / 2 ^ 30 % 4 = 2 → e.flag (Reg.PORT_STATUS.CFG_ERR n) = true) ∧
      (d.rd (Reg.PORT_PAUSE_CFG.MODE n) ≠ v / 2 ^ 30 % 4 ∨ d.rd (Reg.PORT_PAUSE_CFG.RX_EN n) ≠ v / 2 ^ 28 % 2 →
        e.rd (Reg.PORT_PAUSE_STAT.RX_PAUSED n) = 0 ∧ ∀ c, c < 8 → (e.pauseSt n c).rxEnd = none) ∧
      (d.portBad n = false → d.regsBut e [Reg.PORT_PAUSE_CFG.addr n, Reg.PORT_PAUSE_STAT.addr n, Reg.PORT_STATUS.addr n] ∧
        e = { d with regs := e.regs, ctrs := e.ctrs, ctrOvf := e.ctrOvf, wire := e.wire, ports := e.ports })) ∧
  (∀ (d : Dev) (q : List Instr) (n c : Nat), d.hold.live = true → n < 256 → c < 8 → d.flag (Reg.PORT_PAUSE_CFG.TX_EN n) = true →
    d.linkUp n = true →
    (d.pauseMode n = 2 → d.bitOf (Reg.PORT_PAUSE_STAT.TX_XOFF n) c = true → d.aboveLow n c = true →
      (d.pauseSt n c).xoffAt + d.quantaNs n (d.rd (Reg.PORT_PAUSE_CFG.QUANTA n)) / 2 ≤ d.now →
      ∃ e : Dev, exec (.xoffRepeat n c) ⟨d, q⟩ = .next ⟨e, q⟩ ∧ d.counted e (txPfcCtr c) n 1 ∧ (e.pauseSt n c).xoffAt = d.now ∧
        e.wire = d.wire ++ [.pause n true [(c, d.rd (Reg.PORT_PAUSE_CFG.QUANTA n))]] ∧ (∀ a, e.reg a = d.reg a) ∧
        d.ctrsBut e [(txPfcCtr c).key n] ∧
        e = { d with regs := e.regs, ctrs := e.ctrs, ctrOvf := e.ctrOvf, wire := e.wire, ports := e.ports }) ∧
    (d.pauseMode n = 1 → d.bitOf (Reg.PORT_PAUSE_STAT.TX_XOFF n) 0 = true → (classes.any (d.aboveLow n)) = true →
      (d.pauseSt n 0).xoffAt + d.quantaNs n (d.rd (Reg.PORT_PAUSE_CFG.QUANTA n)) / 2 ≤ d.now →
      ∃ e : Dev, exec (.xoffRepeat n c) ⟨d, q⟩ = .next ⟨e, q⟩ ∧ d.counted e .txPause n 1 ∧ (e.pauseSt n 0).xoffAt = d.now ∧
        e.wire = d.wire ++ [.pause n false [(0, d.rd (Reg.PORT_PAUSE_CFG.QUANTA n))]] ∧
        d.regsBut e [Reg.PORT_PAUSE_STAT.addr n] ∧ d.ctrsBut e [Ctr.txPause.key n] ∧
        e = { d with regs := e.regs, ctrs := e.ctrs, ctrOvf := e.ctrOvf, wire := e.wire, ports := e.ports }))

/-- Fragments, verification, auto-negotiation, training and receiver adaptation. PREEMPT_FRAGMENT_RX counts
rx_preempt_fragments; a start, or a continuation with the right count, that does not end the frame keeps it open with the
next count expected; a wrong count, or a continuation with no frame open, counts rx_preempt_assy_error and closes
reassembly. PREEMPT_VERIFY_TIMEOUT sends another verify mPacket, after three attempts it reports failure. VERIFY_MPACKET_RX
answers a verify and ends verification on a response. AUTONEG_COMPLETE sets AN_DONE and FEC_ACTIVE, LINK_TRAINING_COMPLETE
sets LT_DONE. RX_ADAPT_UPDATE leaves the state as it is, since no register or rule shows the receiver's coefficients. -/
def Obligations.PreemptionAndLanes : Prop :=
  (∀ (d : Dev) (q : List Instr) (n ago k : Nat) (start : Bool) (b : List Byte), d.hold.live = true → d.receives n = true → n < 256 →
    d.flag (Reg.PORT_PREEMPT_CFG.EN n) = true → b ≠ [] →
    (start = true → (d.portSt n).reasm = none → ∃ e : Dev, exec (.preemptFragmentRx n ago start k false b) ⟨d, q⟩ = .next ⟨e, q⟩ ∧
      d.counted e .rxPreemptFragments n 1 ∧ d.counted e .rxPreemptAssyError n 0 ∧ (e.portSt n).reasm = some 0) ∧
    (start = false → (d.portSt n).reasm = some (k % 4) →
      ∃ e : Dev, exec (.preemptFragmentRx n ago start k false b) ⟨d, q⟩ = .next ⟨e, q⟩ ∧
      d.counted e .rxPreemptFragments n 1 ∧ d.counted e .rxPreemptAssyError n 0 ∧ (e.portSt n).reasm = some ((k + 1) % 4)) ∧
    (∀ (last : Bool) (j : Nat), start = false → (d.portSt n).reasm = some j → j ≠ k % 4 → (d.openRx n 1).isSome = true →
      ∃ e : Dev, exec (.preemptFragmentRx n ago start k last b) ⟨d, q⟩ = .next ⟨e, q⟩ ∧
      d.counted e .rxPreemptFragments n 1 ∧ d.counted e .rxPreemptAssyError n 1 ∧ (e.portSt n).reasm = none) ∧
    (∀ last : Bool, start = false → (d.portSt n).reasm = none →
      ∃ e : Dev, exec (.preemptFragmentRx n ago start k last b) ⟨d, q⟩ = .next ⟨e, q⟩ ∧
      d.counted e .rxPreemptFragments n 1 ∧ d.counted e .rxPreemptAssyError n 1 ∧ (e.portSt n).reasm = none)) ∧
  (∀ (d : Dev) (q : List Instr) (n : Nat), d.hold.live = true → n < 256 → d.rd (Reg.PORT_STATUS.VERIFY_STATUS n) = 1 →
    (d.portSt n).verAt + d.rd (Reg.PORT_PREEMPT_CFG.VERIFY_TIME n) * 10 ^ 6 ≤ d.now →
    ((d.portSt n).verTries < 3 → ∃ e : Dev, exec (.preemptVerifyTimeout n) ⟨d, q⟩ = .next ⟨e, q⟩ ∧
      (e.portSt n).verTries = (d.portSt n).verTries + 1 ∧ (e.portSt n).verAt = d.now ∧ e.wire = d.wire ++ [.mpacket n false] ∧
      (∀ m, m ≠ n → e.portSt m = d.portSt m) ∧ e = { d with wire := e.wire, ports := e.ports }) ∧
    (¬ (d.portSt n).verTries < 3 → ∃ e : Dev, exec (.preemptVerifyTimeout n) ⟨d, q⟩ = .next ⟨e, q⟩ ∧
      e = d.wr (Reg.PORT_STATUS.VERIFY_STATUS n) 3)) ∧
  (∀ (d : Dev) (q : List Instr) (n : Nat), d.hold.live = true → d.receives n = true → n < 256 →
    d.flag (Reg.PORT_PREEMPT_CFG.EN n) = true →
    (∃ e : Dev, exec (.verifyMpacketRx n false) ⟨d, q⟩ = .next ⟨e, q⟩ ∧ e = d.out (.mpacket n true)) ∧
    (d.rd (Reg.PORT_STATUS.VERIFY_STATUS n) = 1 → ∃ e : Dev, exec (.verifyMpacketRx n true) ⟨d, q⟩ = .next ⟨e, q⟩ ∧
      e.rd (Reg.PORT_STATUS.VERIFY_STATUS n) = 2 ∧ e.flag (Reg.PORT_STATUS.PREEMPT_ACTIVE n) = true ∧
      d.regsBut e [Reg.PORT_STATUS.addr n] ∧ e = { d with regs := e.regs })) ∧
  (∀ (d : Dev) (q : List Instr) (n : Nat), exec (.rxAdaptUpdate n) ⟨d, q⟩ = .next ⟨d, q⟩) ∧
  (∀ (d : Dev) (q : List Instr) (n fec : Nat), d.hold.live = true → n < 258 → d.serves n = true →
    d.flag (Reg.PORT_CFG.AN_EN n) = true → d.portBad n = false → fecOk (d.portMode n) fec = true → fec ≤ d.portFec n →
    ∃ e : Dev, exec (.autonegComplete n fec) ⟨d, q⟩ = .next ⟨e, q⟩ ∧ e.flag (Reg.PORT_STATUS.AN_DONE n) = true ∧
      e.rd (Reg.PORT_STATUS.FEC_ACTIVE n) = fec ∧ d.regsBut e [Reg.PORT_STATUS.addr n] ∧ e = { d with
        regs := e.regs }) ∧
  (∀ (d : Dev) (q : List Instr) (n : Nat) (co : List Nat), d.hold.live = true → n < 258 → d.boot.released = true →
    d.flag (Reg.PORT_CFG.LT_EN n) = true → d.portBad n = false →
    ∃ e : Dev, exec (.linkTrainingComplete n co) ⟨d, q⟩ = .next ⟨e, q⟩ ∧ e.flag (Reg.PORT_STATUS.LT_DONE n) = true ∧
      (∀ k, k < modeWidth (d.portMode n) → k < co.length → n < 256 →
        e.reg (Reg.PORT_LANE_TXEQ_ACT.addr (n / 4) (n % 4 + k)) = BitVec.ofNat 32 (co.getD k 0 % 2 ^ 31)) ∧
      (∀ a, a ≠ Reg.PORT_STATUS.addr n → (∀ l ∈ d.lanesOf n, a ≠ Reg.PORT_LANE_TXEQ_ACT.addr l.1 l.2) → e.reg a = d.reg a) ∧
      e = { d with regs := e.regs })

/-- The insertion sequence of a module, its time limits and the telemetry pass. MODULE_INSERT sets PRESENT, counts
mod_insert and, for an enabled cage after forwarding release, puts the module into reset. MODULE_RESET_RELEASE,
MODULE_READY_POLL, MODULE_DATAPATH_READY and READ_FAIL_RESTART take the cage to the next STATE at the times of R98;
MODULE_READY_TIMEOUT and MODULE_STEP9_TIMEOUT do what R98 and R104 say of an exceeded limit, the third fault within 10 min
ending in Quarantine. TELEMETRY_READ runs once a second. Where flags wait for the end of the step, they are dealt with too
(R104), which these clauses leave aside. -/
def Obligations.ModuleSequenceAdvances : Prop :=
  (∀ (d : Dev) (q : List Instr) (c : Nat), d.hold.live = true → c < 64 → d.flag (Reg.MODL_CAGE_STATUS.PRESENT c) = false →
    ∃ e : Dev, exec (.moduleInsert c) ⟨d, q⟩ = .next ⟨e, q⟩ ∧ e.flag (Reg.MODL_CAGE_STATUS.PRESENT c) = true ∧
      (if c < 32 then e.bitOf Reg.MODL_PRS_LO.PRESENT c = true else e.bitOf Reg.MODL_PRS_HI.PRESENT (c - 32) = true) ∧
      d.counted e .modInsert c 1 ∧
      (d.boot.released = true → d.cageUp c = true → e.rd (Reg.MODL_CAGE_STATUS.STATE c) = 1 ∧ (e.cage c).startAt = d.now ∧
        e.wire = d.wire ++ [.pin "MOD_RST_N" c false]) ∧
      (d.boot.released = false ∨ d.cageUp c = false → e.rd (Reg.MODL_CAGE_STATUS.STATE c) = d.rd (Reg.MODL_CAGE_STATUS.STATE c)) ∧
      d.regsBut e [Reg.MODL_CAGE_STATUS.addr c, Reg.MODL_PRS_LO.addr, Reg.MODL_PRS_HI.addr] ∧
      d.ctrsBut e [Ctr.modInsert.key c] ∧ e = { d with
        regs := e.regs, ctrs := e.ctrs, ctrOvf := e.ctrOvf, wire := e.wire, mods := e.mods }) ∧
  (∀ (d : Dev) (q : List Instr) (c : Nat), d.hold.live = true → c < 64 → d.rd (Reg.MODL_CAGE_STATUS.STATE c) = 1 →
    (d.cage c).startAt + 20000 ≤ d.now → (d.cage c).flags = [] →
    ∃ e : Dev, exec (.moduleResetRelease c) ⟨d, q⟩ = .next ⟨e, q⟩ ∧ e.rd (Reg.MODL_CAGE_STATUS.STATE c) = 2 ∧
      (e.cage c).pollAt = (d.cage c).startAt + 20 * 10 ^ 6 ∧ e.wire = d.wire ++ [.pin "MOD_RST_N" c true] ∧
      d.regsBut e [Reg.MODL_CAGE_STATUS.addr c] ∧ e = { d with regs := e.regs, wire := e.wire, mods := e.mods }) ∧
  (∀ (d : Dev) (q : List Instr) (c : Nat), d.hold.live = true → c < 64 → d.rd (Reg.MODL_CAGE_STATUS.STATE c) = 2 →
    (d.cage c).pollAt ≤ d.now → (d.cage c).flags = [] →
    (∃ e : Dev, exec (.moduleReadyPoll c none) ⟨d, q⟩ = .next ⟨e, q⟩ ∧ (e.cage c).pollAt = d.now + 20 * 10 ^ 6 ∧ e = { d with
      mods := e.mods }) ∧
    (∀ (ident : Nat) (ready : Bool), ident ≠ 0x03 ∧ ready = true ∨
        ident = 0x03 ∧ (d.cage c).ackAt.getD d.now + 300 * 10 ^ 6 ≤ d.now →
      ∃ e : Dev, exec (.moduleReadyPoll c (some (ident, ready))) ⟨d, q⟩ = .next ⟨e, q⟩ ∧ e.rd (Reg.MODL_CAGE_STATUS.STATE c) = 3 ∧
        d.regsBut e [Reg.MODL_CAGE_STATUS.addr c] ∧ e = { d with regs := e.regs, mods := e.mods }) ∧
    (∀ (ident : Nat) (ready : Bool), ident ≠ 0x03 ∧ ready = false ∨
        ident = 0x03 ∧ d.now < (d.cage c).ackAt.getD d.now + 300 * 10 ^ 6 →
      ∃ e : Dev, exec (.moduleReadyPoll c (some (ident, ready))) ⟨d, q⟩ = .next ⟨e, q⟩ ∧
        (e.cage c).ackAt = some ((d.cage c).ackAt.getD d.now) ∧ (e.cage c).pollAt = d.now + 20 * 10 ^ 6 ∧ e = { d with
          mods := e.mods })) ∧
  (∀ (d : Dev) (q : List Instr) (c : Nat), d.hold.live = true → c < 64 → d.rd (Reg.MODL_CAGE_STATUS.STATE c) = 2 →
    (d.cage c).startAt + 5 * 10 ^ 9 < d.now → (d.cage c).flags = [] →
    ∃ e : Dev, exec (.moduleReadyTimeout c) ⟨d, q⟩ = .next ⟨e, q⟩ ∧ e.rd (Reg.MODL_CAGE_STATUS.STATE c) = 9 ∧
      d.counted e .modReadyTimeout c 1 ∧ d.regsBut e [Reg.MODL_CAGE_STATUS.addr c] ∧ d.ctrsBut e [Ctr.modReadyTimeout.key c] ∧
      e = { d with regs := e.regs, ctrs := e.ctrs, ctrOvf := e.ctrOvf, mods := e.mods }) ∧
  (∀ (d : Dev) (q : List Instr) (c : Nat), d.hold.live = true → c < 64 → d.rd (Reg.MODL_CAGE_STATUS.STATE c) = 6 →
    ((d.cage c).flags = [] → d.now ≤ (d.cage c).stepAt + d.step9Cap c →
      ∃ e : Dev, exec (.moduleDatapathReady c) ⟨d, q⟩ = .next ⟨e, q⟩ ∧ e.rd (Reg.MODL_CAGE_STATUS.STATE c) = 7 ∧
        d.regsBut e [Reg.MODL_CAGE_STATUS.addr c] ∧ e = { d with regs := e.regs, mods := e.mods }) ∧
    ((d.cage c).stepAt + d.step9Cap c < d.now →
      ∃ e : Dev, exec (.moduleStep9Timeout c) ⟨d, q⟩ = .next ⟨e, q⟩ ∧ d.counted e .modReadyTimeout c 1 ∧ d.counted e .modFault c 1 ∧
        e.bitOf Reg.SUPV_ALM.ALM3_SRC 2 = true ∧ e.flag (Reg.MODL_CAGE_STATUS.GRANTED c) = false ∧
        (((d.cage c).faults.filter fun t => decide (d.now < t + 600 * 10 ^ 9)).length < 2 → e.rd (Reg.MODL_CAGE_STATUS.STATE c) = 1) ∧
        (2 ≤ ((d.cage c).faults.filter fun t => decide (d.now < t + 600 * 10 ^ 9)).length →
          e.rd (Reg.MODL_CAGE_STATUS.STATE c) = 8 ∧ e.rd (Reg.MODL_CAGE_STATUS.QREASON c) = 6 ∧ d.counted e .modQuarantine c 1) ∧
        e = { d with
          regs := e.regs, ctrs := e.ctrs, ctrOvf := e.ctrOvf, wire := e.wire, supv := e.supv, ports := e.ports,
          mods := e.mods, path := e.path, look := e.look, deck := e.deck, vat := e.vat, fab := e.fab,
          egr := e.egr })) ∧
  (∀ (d : Dev) (q : List Instr) (c : Nat), d.hold.live = true → c < 64 → d.rd (Reg.MODL_CAGE_STATUS.STATE c) = 9 →
    (d.cage c).stepAt + 10 ^ 9 ≤ d.now → (d.cage c).flags = [] →
    ∃ e : Dev, exec (.readFailRestart c) ⟨d, q⟩ = .next ⟨e, q⟩ ∧ e.rd (Reg.MODL_CAGE_STATUS.STATE c) = 2 ∧
      (e.cage c).startAt = d.now ∧ (e.cage c).pollAt = d.now + 20 * 10 ^ 6 ∧
      d.regsBut e [Reg.MODL_CAGE_STATUS.addr c] ∧ e = { d with regs := e.regs, mods := e.mods }) ∧
  (∀ (d : Dev) (q : List Instr) (c : Nat), d.hold.live = true → c < 64 → d.busWants 2 c = true →
    ∃ e : Dev, exec (.telemetryRead c) ⟨d, q⟩ = .next ⟨e, q⟩ ∧ (e.cage c).telAt = d.now ∧ e = { d with mods := e.mods })

/-- Identity check, power grant and removal of a module. MODULE_IDENTIFY puts the module into Quarantine with the reason of
the first check it fails, counted, with the alarm, its grant returned; a module that passes waits for power with its SPEC
shown. MODULE_POWER_GRANT grants the first waiting request, by PRIORITY and then by cage, that the free budget covers, and
enables high power; with none it changes nothing. MODULE_REMOVE counts mod_remove, returns the grant and clears the cage to
EMPTY. -/
def Obligations.ModuleIdentityPowerRemoval : Prop :=
  (∀ (d : Dev) (q : List Instr) (c : Nat) (m : ModId), d.hold.live = true → c < 64 → d.rd (Reg.MODL_CAGE_STATUS.STATE c) = 3 →
    (∀ r, r < 16 → (modSpec m = .error r ∨
        (∃ sp, modSpec m = .ok sp) ∧ (r = 3 ∧ d.allowEntry m = none ∨
          ∃ i, d.allowEntry m = some i ∧ (r = 5 ∧ d.cageWidth c < m.lanes ∨
            r = 4 ∧ m.lanes ≤ d.cageWidth c ∧ d.allowPower i < modPower m))) →
      ∃ e : Dev, exec (.moduleIdentify c m) ⟨d, q⟩ = .next ⟨e, q⟩ ∧ e.rd (Reg.MODL_CAGE_STATUS.STATE c) = 8 ∧
        e.rd (Reg.MODL_CAGE_STATUS.QREASON c) = r ∧ e.flag (Reg.MODL_CAGE_STATUS.GRANTED c) = false ∧
        d.counted e .modQuarantine c 1 ∧ e.bitOf Reg.SUPV_ALM.ALM3_SRC 1 = true ∧
        e = { d with
          regs := e.regs, ctrs := e.ctrs, ctrOvf := e.ctrOvf, wire := e.wire, supv := e.supv, ports := e.ports,
          mods := e.mods, path := e.path, look := e.look, deck := e.deck, vat := e.vat, fab := e.fab,
          egr := e.egr }) ∧
    (∀ sp i, modSpec m = .ok sp → d.allowEntry m = some i → m.lanes ≤ d.cageWidth c → modPower m ≤ d.allowPower i →
      (d.cage c).flags = [] →
      ∃ e : Dev, exec (.moduleIdentify c m) ⟨d, q⟩ = .next ⟨e, q⟩ ∧ e.rd (Reg.MODL_CAGE_STATUS.STATE c) = 5 ∧
        e.rd (Reg.MODL_CAGE_STATUS.SPEC c) = sp ∧ (e.cage c).ident = some m ∧
        (d.flag (Reg.MODL_CAGE_STATUS.GRANTED c) = false → (e.cage c).want = modPower m) ∧
        e = { d with
          regs := e.regs, ctrs := e.ctrs, ctrOvf := e.ctrOvf, wire := e.wire, supv := e.supv, ports := e.ports,
          mods := e.mods, path := e.path, look := e.look, deck := e.deck, vat := e.vat, fab := e.fab,
          egr := e.egr })) ∧
  (∀ (d : Dev) (q : List Instr), d.hold.live = true →
    (d.waitingCages.find? d.powerFits = none → exec .modulePowerGrant ⟨d, q⟩ = .next ⟨d, q⟩) ∧
    (∀ c, d.waitingCages.find? d.powerFits = some c → (d.cage c).flags = [] →
      ∃ e : Dev, exec .modulePowerGrant ⟨d, q⟩ = .next ⟨e, q⟩ ∧ e.rd (Reg.MODL_CAGE_STATUS.STATE c) = 6 ∧
        e.flag (Reg.MODL_CAGE_STATUS.GRANTED c) = true ∧
        (d.flag (Reg.MODL_CAGE_STATUS.GRANTED c) = false →
          e.rd Reg.PWCK_MOD_BUDGET.GRANTED = d.rd Reg.PWCK_MOD_BUDGET.GRANTED + (d.cage c).want ∧
          e.rd (Reg.MODL_CAGE_STATUS.GRANT c) = min 255 (d.cage c).want) ∧
        Out.modulePower c (d.rd (Reg.MODL_CAGE_STATUS.SPEC c)) true ∈ e.wire ∧
        d.regsBut e [Reg.MODL_CAGE_STATUS.addr c, Reg.PWCK_MOD_BUDGET.addr] ∧ e = { d with
          regs := e.regs, wire := e.wire, mods := e.mods })) ∧
  (∀ (d : Dev) (q : List Instr) (c : Nat), d.hold.live = true → c < 64 → d.flag (Reg.MODL_CAGE_STATUS.PRESENT c) = true →
    ∃ e : Dev, exec (.moduleRemove c) ⟨d, q⟩ = .next ⟨e, q⟩ ∧ e.flag (Reg.MODL_CAGE_STATUS.PRESENT c) = false ∧
      e.rd (Reg.MODL_CAGE_STATUS.STATE c) = 0 ∧ e.rd (Reg.MODL_CAGE_STATUS.QREASON c) = 0 ∧
      e.rd (Reg.MODL_CAGE_STATUS.SPEC c) = 0 ∧ e.flag (Reg.MODL_CAGE_STATUS.GRANTED c) = false ∧
      e.rd Reg.PWCK_MOD_BUDGET.GRANTED =
        (if d.flag (Reg.MODL_CAGE_STATUS.GRANTED c) then d.rd Reg.PWCK_MOD_BUDGET.GRANTED - (d.cage c).want
          else d.rd Reg.PWCK_MOD_BUDGET.GRANTED) ∧
      e.cage c = CageSt.zero ∧ d.counted e .modRemove c 1 ∧
      e = { d with
        regs := e.regs, ctrs := e.ctrs, ctrOvf := e.ctrOvf, wire := e.wire, supv := e.supv, ports := e.ports,
        mods := e.mods, path := e.path, look := e.look, deck := e.deck, vat := e.vat, fab := e.fab, egr := e.egr })

/-- Module interrupts, bus transactions and their retries. MODULE_INT shows the level of the pin in INT_ACTIVE; a flag read
from a READY cage is submitted to the log, and one that flags a fault counts mod_fault. I2C_TRANSACTION of the cage whose
turn it is succeeds, the multiplexer then standing at its channel, or counts mod_i2c_error and waits for a retry. I2C_RETRY,
1 ms after the failure, succeeds, or counts and waits again, or after the third retry clears the bus: STUCK shows SDA, and
the cage enters READ_FAIL. -/
def Obligations.ModuleBusesTakeTurns : Prop :=
  (∀ (d : Dev) (q : List Instr) (b : Nat) (low : Bool), d.hold.live = true → b < 8 →
    (∃ e : Dev, exec (.moduleInt b low []) ⟨d, q⟩ = .next ⟨e, q⟩ ∧ e = d.setFlag (Reg.MODL_BUS_STATUS.INT_ACTIVE b) low) ∧
    (∀ c page off byte : Nat, c / 8 = b → d.boot.released = true → d.cageUp c = true →
      d.flag (Reg.MODL_CAGE_STATUS.PRESENT c) = true → d.rd (Reg.MODL_CAGE_STATUS.STATE c) = 7 →
      (∃ e : Dev, exec (.moduleInt b true [(c, page, off, byte, false)]) ⟨d, q⟩ = .next ⟨e, q⟩ ∧
        e.flag (Reg.MODL_BUS_STATUS.INT_ACTIVE b) = true ∧
        e.supv.logQ = d.queued ⟨0x2002, 4, 0, 0x10, false, le 4 (Reg.MODL_CAGE_STATUS.addr c) ++
          le 4 (d.reg (Reg.MODL_CAGE_STATUS.addr c)).toNat ++ le 2 c ++ le 1 page ++ le 1 off ++ le 1 byte⟩ ∧
        d.regsBut e [Reg.MODL_BUS_STATUS.addr b] ∧ d.ctrsBut e [Ctr.logOverrun.key 0] ∧ e = { d with
          regs := e.regs, ctrs := e.ctrs, ctrOvf := e.ctrOvf, supv := e.supv }) ∧
      (∃ e : Dev, exec (.moduleInt b true [(c, page, off, byte, true)]) ⟨d, q⟩ = .next ⟨e, q⟩ ∧ d.counted e .modFault c 1 ∧
        e.bitOf Reg.SUPV_ALM.ALM3_SRC 2 = true))) ∧
  (∀ (d : Dev) (q : List Instr) (b c l : Nat), d.hold.live = true → b < 8 → d.boot.released = true → (d.mbus b).retry = none →
    d.busNext b = some (c, l) →
    (∃ e : Dev, exec (.i2cTransaction b true true) ⟨d, q⟩ = .next ⟨e, q⟩ ∧ (e.mbus b).retry = none ∧
      (d.flag (Reg.MODL_BUS_CFG.MUX_EN b) = true → (e.mbus b).mux = some (2 ^ (c % 8))) ∧ e = { d with
        wire := e.wire, mods := e.mods }) ∧
    (∀ muxOk, ∃ e : Dev, exec (.i2cTransaction b false muxOk) ⟨d, q⟩ = .next ⟨e, q⟩ ∧ (e.mbus b).retry = some (c, 0, d.now) ∧
      (d.flag (Reg.MODL_BUS_CFG.MUX_EN b) = true → (e.mbus b).mux = some 0) ∧ d.counted e .modI2cError c 1 ∧
      d.ctrsBut e [Ctr.modI2cError.key c] ∧ e = { d with
        ctrs := e.ctrs, ctrOvf := e.ctrOvf, wire := e.wire, mods := e.mods })) ∧
  (∀ (d : Dev) (q : List Instr) (b c n t : Nat) (sda : Bool), d.hold.live = true → b < 8 → c / 8 = b →
    (d.mbus b).retry = some (c, n, t) → t + 10 ^ 6 ≤ d.now →
    (∃ e : Dev, exec (.i2cRetry b true true sda) ⟨d, q⟩ = .next ⟨e, q⟩ ∧ (e.mbus b).retry = none ∧ e = { d with
      wire := e.wire, mods := e.mods }) ∧
    (n < 2 → ∀ muxOk, ∃ e : Dev, exec (.i2cRetry b false muxOk sda) ⟨d, q⟩ = .next ⟨e, q⟩ ∧ (e.mbus b).retry = some (c, n + 1, d.now) ∧
      d.counted e .modI2cError c 1 ∧ d.ctrsBut e [Ctr.modI2cError.key c] ∧ e = { d with
        ctrs := e.ctrs, ctrOvf := e.ctrOvf, wire := e.wire, mods := e.mods }) ∧
    (2 ≤ n → ∃ e : Dev, exec (.i2cRetry b false true sda) ⟨d, q⟩ = .next ⟨e, q⟩ ∧ (e.mbus b).retry = none ∧
      e.flag (Reg.MODL_BUS_STATUS.STUCK b) = sda ∧ d.counted e .modI2cError c 1 ∧
      (d.rd (Reg.MODL_CAGE_STATUS.STATE c) ≠ 8 → e.rd (Reg.MODL_CAGE_STATUS.STATE c) = 9) ∧
      d.regsBut e [Reg.MODL_BUS_STATUS.addr b, Reg.MODL_CAGE_STATUS.addr c] ∧ e = { d with
        regs := e.regs, ctrs := e.ctrs, ctrOvf := e.ctrOvf, wire := e.wire, mods := e.mods }))

/-- The nine next-address operations of the Beater. An engine that stands at a legal word with nothing to wait for executes
it under the row of its NA_OP: SEQ, JUMP, CJUMP, CALL, CCALL, RET, CRET and DISPATCH give the next word and the micro-stack
as R119 says, conditions read as the word began; DONE delivers the vector, which leaves the Beater at once when no frame of
the MAC that became ready earlier is still being parsed, with W in FLAGS bit 14. No other frame changes and no other
component; the store words read as before. -/
def Obligations.MicrowordsSelectTheNextWord : Prop :=
  ∀ (d : Dev) (q : List Instr) (p n w : Nat) (f : Frame), d.hold.live = true → d.executes p n f w →
    (wf w 251 248 = 0 → ∃ (e : Dev) (g : Frame), exec (.seq p n 0) ⟨d, q⟩ = .next ⟨e, q⟩ ∧ e.frame f.id = some g ∧
      g.px.addr = f.px.addr + 1 ∧ g.px.stack = f.px.stack ∧ g.stage = f.stage ∧
      g.px.first = false ∧ (∀ k, tget e.beat.bad 0 k = tget d.beat.bad 0 k) ∧
      (∀ j, j ≠ f.id → e.frame j = d.frame j) ∧ e = { d with beat := e.beat, path := e.path }) ∧
    (wf w 251 248 = 1 → ∃ (e : Dev) (g : Frame), exec (.jump p n 0) ⟨d, q⟩ = .next ⟨e, q⟩ ∧ e.frame f.id = some g ∧
      g.px.addr = wf w 247 234 ∧ g.px.stack = f.px.stack ∧ g.stage = f.stage ∧
      g.px.first = false ∧ (∀ k, tget e.beat.bad 0 k = tget d.beat.bad 0 k) ∧
      (∀ j, j ≠ f.id → e.frame j = d.frame j) ∧ e = { d with beat := e.beat, path := e.path }) ∧
    (wf w 251 248 = 2 → ∃ (e : Dev) (g : Frame), exec (.cjump p n 0) ⟨d, q⟩ = .next ⟨e, q⟩ ∧ e.frame f.id = some g ∧
      g.px.addr = (if wordCond f w then wf w 247 234 else f.px.addr + 1) ∧ g.px.stack = f.px.stack ∧ g.stage = f.stage ∧
      g.px.first = false ∧ (∀ k, tget e.beat.bad 0 k = tget d.beat.bad 0 k) ∧
      (∀ j, j ≠ f.id → e.frame j = d.frame j) ∧ e = { d with beat := e.beat, path := e.path }) ∧
    (wf w 251 248 = 3 → f.px.stack.length < 8 → ∃ (e : Dev) (g : Frame), exec (.call p n 0) ⟨d, q⟩ = .next ⟨e, q⟩ ∧ e.frame f.id = some g ∧
      g.px.addr = wf w 247 234 ∧ g.px.stack = (f.px.addr + 1) :: f.px.stack ∧ g.stage = f.stage ∧
      g.px.first = false ∧ (∀ k, tget e.beat.bad 0 k = tget d.beat.bad 0 k) ∧
      (∀ j, j ≠ f.id → e.frame j = d.frame j) ∧ e = { d with beat := e.beat, path := e.path }) ∧
    (wf w 251 248 = 4 → wordCond f w = true → f.px.stack.length < 8 → ∃ (e : Dev) (g : Frame), exec (.ccall p n 0) ⟨d, q⟩ = .next ⟨e, q⟩ ∧ e.frame f.id = some g ∧
      g.px.addr = wf w 247 234 ∧ g.px.stack = (f.px.addr + 1) :: f.px.stack ∧ g.stage = f.stage ∧
      g.px.first = false ∧ (∀ k, tget e.beat.bad 0 k = tget d.beat.bad 0 k) ∧
      (∀ j, j ≠ f.id → e.frame j = d.frame j) ∧ e = { d with beat := e.beat, path := e.path }) ∧
    (wf w 251 248 = 4 → wordCond f w = false → ∃ (e : Dev) (g : Frame), exec (.ccall p n 0) ⟨d, q⟩ = .next ⟨e, q⟩ ∧ e.frame f.id = some g ∧
      g.px.addr = f.px.addr + 1 ∧ g.px.stack = f.px.stack ∧ g.stage = f.stage ∧
      g.px.first = false ∧ (∀ k, tget e.beat.bad 0 k = tget d.beat.bad 0 k) ∧
      (∀ j, j ≠ f.id → e.frame j = d.frame j) ∧ e = { d with beat := e.beat, path := e.path }) ∧
    (wf w 251 248 = 5 → ∀ a r, f.px.stack = a :: r → ∃ (e : Dev) (g : Frame), exec (.ret p n 0) ⟨d, q⟩ = .next ⟨e, q⟩ ∧ e.frame f.id = some g ∧
      g.px.addr = a ∧ g.px.stack = r ∧ g.stage = f.stage ∧
      g.px.first = false ∧ (∀ k, tget e.beat.bad 0 k = tget d.beat.bad 0 k) ∧
      (∀ j, j ≠ f.id → e.frame j = d.frame j) ∧ e = { d with beat := e.beat, path := e.path }) ∧
    (wf w 251 248 = 6 → wordCond f w = true → ∀ a r, f.px.stack = a :: r → ∃ (e : Dev) (g : Frame), exec (.cret p n 0) ⟨d, q⟩ = .next ⟨e, q⟩ ∧ e.frame f.id = some g ∧
      g.px.addr = a ∧ g.px.stack = r ∧ g.stage = f.stage ∧
      g.px.first = false ∧ (∀ k, tget e.beat.bad 0 k = tget d.beat.bad 0 k) ∧
      (∀ j, j ≠ f.id → e.frame j = d.frame j) ∧ e = { d with beat := e.beat, path := e.path }) ∧
    (wf w 251 248 = 6 → wordCond f w = false → ∃ (e : Dev) (g : Frame), exec (.cret p n 0) ⟨d, q⟩ = .next ⟨e, q⟩ ∧ e.frame f.id = some g ∧
      g.px.addr = f.px.addr + 1 ∧ g.px.stack = f.px.stack ∧ g.stage = f.stage ∧
      g.px.first = false ∧ (∀ k, tget e.beat.bad 0 k = tget d.beat.bad 0 k) ∧
      (∀ j, j ≠ f.id → e.frame j = d.frame j) ∧ e = { d with beat := e.beat, path := e.path }) ∧
    (wf w 251 248 = 7 → ∃ (e : Dev) (g : Frame), exec (.dispatch p n 0) ⟨d, q⟩ = .next ⟨e, q⟩ ∧ e.frame f.id = some g ∧
      g.px.addr = wf w 247 234 + f.px.reg (wf w 222 220) / 2 ^ wf w 219 215 % 16 ∧ g.px.stack = f.px.stack ∧ g.stage = f.stage ∧
      g.px.first = false ∧ (∀ k, tget e.beat.bad 0 k = tget d.beat.bad 0 k) ∧
      (∀ j, j ≠ f.id → e.frame j = d.frame j) ∧ e = { d with beat := e.beat, path := e.path }) ∧
    (wf w 251 248 = 8 → ∃ (e : Dev) (g : Frame), exec (.done p n 0) ⟨d, q⟩ = .next ⟨e, q⟩ ∧ e.frame f.id = some g ∧
      ((∀ h ∈ d.path.frames, h.port = f.port → h.mac = f.mac → h.id ≠ f.id → h.stage.parsing = true → f.ready ≤ h.ready) →
        g.stage = .identify) ∧
      (g.stage = .identify ∨ g.stage = .vector) ∧ (g.px.w = true → f.px.hv ≠ [] → g.flagBit 14 = true) ∧
      (∀ k, tget e.beat.bad 0 k = tget d.beat.bad 0 k) ∧ e = { d with beat := e.beat, path := e.path })

/-- The arithmetic, cursor and insertion parts of a microword. Of a SEQ word that executes: with EXT, EXTB and SL clear, the
destination of ALU_OP 0x1 to 0x8 takes the result, the flags follow with FLAG_UPD and stand without it; the cursor follows
CUR_OP; an insertion of a Daxnov word into a field other than FRAME_LEN writes the low INS_WIDTH + 1 bits of its source and
leaves the others; W stands. Shifts by zero leave C zero (log entry 28). -/
def Obligations.MicrowordDatapath : Prop :=
  ∀ (d : Dev) (q : List Instr) (p n w : Nat) (f : Frame), d.hold.live = true → d.executes p n f w → wf w 251 248 = 0 →
    wf w 214 214 = 0 → wf w 147 147 = 0 → wf w 152 152 = 0 →
    ∃ (e : Dev) (g : Frame), exec (.seq p n 0) ⟨d, q⟩ = .next ⟨e, q⟩ ∧ e.frame f.id = some g ∧ g.px.w = f.px.w ∧
      (∀ a b : Nat, a = f.px.reg (wf w 185 183) → b = (if wf w 179 179 = 1 then wf w 31 0 else f.px.reg (wf w 182 180)) →
        (wf w 192 189 = 0 → g.px.gr = f.px.gr ∧ g.px.z = f.px.z ∧ g.px.n = f.px.n ∧ g.px.c = f.px.c) ∧
        (wf w 192 189 = 1 → g.px.gr = f.px.gr.set (wf w 188 186) b) ∧
        (wf w 192 189 = 2 → g.px.gr = f.px.gr.set (wf w 188 186) ((a + b) % 2 ^ 32) ∧
          (wf w 178 178 = 1 → g.px.c = decide (2 ^ 32 ≤ a + b))) ∧
        (wf w 192 189 = 3 → g.px.gr = f.px.gr.set (wf w 188 186) ((a + 2 ^ 32 - b) % 2 ^ 32) ∧
          (wf w 178 178 = 1 → g.px.c = decide (a < b) ∧ g.px.z = decide ((a + 2 ^ 32 - b) % 2 ^ 32 = 0))) ∧
        (wf w 192 189 = 4 → g.px.gr = f.px.gr.set (wf w 188 186) (a &&& b)) ∧
        (wf w 192 189 = 5 → g.px.gr = f.px.gr.set (wf w 188 186) (a ||| b)) ∧
        (wf w 192 189 = 6 → g.px.gr = f.px.gr.set (wf w 188 186) (a ^^^ b)) ∧
        (wf w 192 189 = 7 → g.px.gr = f.px.gr.set (wf w 188 186) (a * 2 ^ (b % 32) % 2 ^ 32)) ∧
        (wf w 192 189 = 8 → g.px.gr = f.px.gr.set (wf w 188 186) (a / 2 ^ (b % 32))) ∧
        (wf w 192 189 = 9 → g.px.gr = f.px.gr ∧ (wf w 178 178 = 1 → g.px.c = decide (a < b))) ∧
        (wf w 192 189 = 10 → g.px.gr = f.px.gr ∧ (wf w 178 178 = 1 → g.px.z = decide (a &&& b = 0))) ∧
        (wf w 178 178 = 0 → g.px.z = f.px.z ∧ g.px.n = f.px.n ∧ g.px.c = f.px.c)) ∧
      (wf w 157 156 = 0 → g.px.cur = f.px.cur) ∧ (wf w 157 156 = 1 → g.px.cur = (f.px.cur + f.px.reg (wf w 155 153)) % 512) ∧
      (wf w 157 156 = 2 → g.px.cur = f.px.reg (wf w 155 153) % 512) ∧
      (wf w 157 156 = 3 → g.px.cur = (f.px.cur + wf w 7 0) % 512) ∧
      (wf w 177 177 = 0 → g.px.hv = f.px.hv) ∧
      (wf w 177 177 = 1 → f.px.addr < 12288 → wf w 176 171 ≠ 2 → f.px.hv.length = 64 → f.hv (wf w 176 171) < 2 ^ 32 →
        (∀ k, k ≠ wf w 176 171 → g.hv k = f.hv k) ∧
        ∀ j, j < 32 → (g.hv (wf w 176 171)).testBit j =
          if wf w 170 166 ≤ j ∧ j ≤ wf w 170 166 + wf w 165 161 then (f.px.reg (wf w 160 158)).testBit (j - wf w 170 166)
          else (f.hv (wf w 176 171)).testBit j)

/-- Illegal words, micro-stack faults, store parity, abort and stop. An illegal word counts beater_illegal and a push onto a
full micro-stack, or a pop from an empty one, beater_stack; the frame is dropped as parse_abort. A word whose parity fails
counts beater_parity, takes its copy out of service, and restarts the frame once from word 0 on a copy in service, counted
in beater_restart; a second time it drops the frame. At a safe point a pending abort drops the frame under its reason and a
pending stop as parse_abort, counted in beater_cycle_limit. Shown for the row SEQ, the stack for CALL and RET. -/
def Obligations.MachineChecksEndOrRestartAFrame : Prop :=
  ∀ (d : Dev) (q : List Instr) (p n w : Nat) (f : Frame), d.hold.live = true → d.engineFrame p n = some f →
    d.storeWord p (d.homeOf p n) f.px.half f.px.addr = w →
    (wordParity w = true → wf w 251 248 = 0 → (wordSafe f w = true → f.err = 0 ∧ f.px.stop = false) → wordIllegal f w = true →
      ∃ e : Dev, exec (.seq p n 0) ⟨d, q⟩ = .next ⟨e, q⟩ ∧ d.counted e .beaterIllegal p 1 ∧ d.counted e .drop 0x05 1 ∧
        e.engineFrame p n ≠ some f ∧ e = { d with
          regs := e.regs, ctrs := e.ctrs, ctrOvf := e.ctrOvf, wire := e.wire, supv := e.supv, beat := e.beat,
          path := e.path, vat := e.vat, deck := e.deck }) ∧
    (d.executes p n f w → wf w 251 248 = 3 → 8 ≤ f.px.stack.length →
      ∃ e : Dev, exec (.call p n 0) ⟨d, q⟩ = .next ⟨e, q⟩ ∧ d.counted e .beaterStack p 1 ∧ d.counted e .drop 0x05 1) ∧
    (d.executes p n f w → wf w 251 248 = 5 → f.px.stack = [] →
      ∃ e : Dev, exec (.ret p n 0) ⟨d, q⟩ = .next ⟨e, q⟩ ∧ d.counted e .beaterStack p 1 ∧ d.counted e .drop 0x05 1) ∧
    (wordParity w = true → wf w 251 248 = 0 → wordSafe f w = true → f.err ≠ 0 →
      ∃ e : Dev, exec (.seq p n 0) ⟨d, q⟩ = .next ⟨e, q⟩ ∧ d.counted e .drop f.err 1) ∧
    (wordParity w = true → wf w 251 248 = 0 → wordSafe f w = true → f.err = 0 → f.px.stop = true →
      ∃ e : Dev, exec (.seq p n 0) ⟨d, q⟩ = .next ⟨e, q⟩ ∧ d.counted e .beaterCycleLimit p 1 ∧ d.counted e .drop 0x05 1) ∧
    (wordParity w = false → f.px.restarted = true →
      ∃ e : Dev, exec (.seq p n 0) ⟨d, q⟩ = .next ⟨e, q⟩ ∧ d.counted e .beaterParity p 1 ∧ d.counted e .drop 0x05 1 ∧
        e.copyIn p (d.homeOf p n) = false) ∧
    (wordParity w = false → f.px.restarted = false → p < 4 → n < 128 →
      (∃ k, k < 16 ∧ k ≠ d.homeOf p n ∧ d.copyIn p k = true) →
      ∃ (e : Dev) (g : Frame), exec (.seq p n 0) ⟨d, q⟩ = .next ⟨e, q⟩ ∧ d.counted e .beaterParity p 1 ∧ d.counted e .beaterRestart p 1 ∧
        e.copyIn p (d.homeOf p n) = false ∧ e.copyIn p (e.homeOf p n) = true ∧ e.frame f.id = some g ∧ g.px.addr = 0 ∧
        g.px.stack = [] ∧ g.px.restarted = true ∧ g.px.half = f.px.half ∧ g.px.hook = f.px.hook ∧ g.handoff = false)

/-- The parse intake, engine start, resume, side lookup results, hand-off and stop. PARSE_READY puts a frame that has ended
into the intake, or drops it as parse_abort, counted in beater_overrun, where its group's 32 are used up. ENGINE_START gives
a free engine the oldest ready frame at word 0 with the fields of R110, or, with no copy in service, has the fallback parse
it. RESUME gives a free engine the parked frame that reached frame end first. SIDE_LOOKUP_RESULT puts the result of the
lowest matching entry, or zero, into GR7. HANDOFF_WAIT_EXPIRY and STOP_REQUEST act once their limit is passed. beater_frames
is counted at engine start (log entry 28). -/
def Obligations.FramesReachAndLeaveEngines : Prop :=
  (∀ (d : Dev) (q : List Instr) (n m ago : Nat) (b : List Byte) (f : Frame), d.hold.live = true →
    (d.path.frames.find? fun x => x.port == n && x.mac == m % 2 && x.stage = .receiving && x.ended) = some f →
    ((d.path.frames.filter fun x => x.stage = .intake && x.src == f.src).length < 32 →
      ∃ e : Dev, exec (.parseReady n m ago b) ⟨d, q⟩ = .next ⟨e, q⟩ ∧
        e.frame f.id = some { f with stage := .intake, ready := d.path.nextReady } ∧ e.path.nextReady = d.path.nextReady + 1 ∧
        (∀ j, j ≠ f.id → e.frame j = d.frame j) ∧ e = { d with path := e.path }) ∧
    (32 ≤ (d.path.frames.filter fun x => x.stage = .intake && x.src == f.src).length →
      ∃ e : Dev, exec (.parseReady n m ago b) ⟨d, q⟩ = .next ⟨e, q⟩ ∧ d.counted e .beaterOverrun f.pipe 1 ∧ d.counted e .drop 0x05 1 ∧
        e = { d with
          regs := e.regs, ctrs := e.ctrs, ctrOvf := e.ctrOvf, wire := e.wire, supv := e.supv, path := e.path,
          deck := e.deck, vat := e.vat })) ∧
  (∀ (d : Dev) (q : List Instr) (p n : Nat) (f : Frame), d.hold.live = true → n < 128 → d.engineFrame p n = none →
    d.nextResume p = none → leastBy Frame.ready (d.path.frames.filter fun x => x.pipe == p && x.stage = .intake) = some f →
    (d.copiesIn p ≠ [] → ∃ (e : Dev) (g : Frame), exec (.engineStart p n) ⟨d, q⟩ = .next ⟨e, q⟩ ∧ d.counted e .beaterFrames p 1 ∧
      e.frame f.id = some g ∧ g.stage = .engine n ∧ g.px.addr = 0 ∧ g.px.stack = [] ∧ g.px.gr = List.replicate 8 0 ∧ g.px.cur = 0 ∧
      g.px.hv = f.startHv ∧ g.px.half = tget d.beat.half 0 p ∧ g.px.hook = d.rd (Reg.PARS_CFG.HOOK_EN p) ∧
      e.copyIn p (e.homeOf p n) = true ∧ d.ctrsBut e [Ctr.beaterFrames.key p] ∧ e = { d with
        ctrs := e.ctrs, ctrOvf := e.ctrOvf, beat := e.beat, path := e.path }) ∧
    (d.copiesIn p = [] → f.err = 0 → ∃ (e : Dev) (g : Frame), exec (.engineStart p n) ⟨d, q⟩ = .next ⟨e, q⟩ ∧ d.counted e .beaterFrames p 1 ∧
      d.counted e .beaterFallbackFrames f.pipe 1 ∧ e.frame f.id = some g ∧ (g.stage = .vector ∨ g.stage = .identify) ∧
      g.px.hv = f.fallbackHv ∧ e.flag (Reg.PARS_STATUS.FALLBACK f.pipe) = true ∧
      d.regsBut e [Reg.PARS_STATUS.addr f.pipe] ∧ e = { d with
        regs := e.regs, ctrs := e.ctrs, ctrOvf := e.ctrOvf, path := e.path })) ∧
  (∀ (d : Dev) (q : List Instr) (p n : Nat) (f : Frame), d.hold.live = true → n < 128 → d.engineFrame p n = none →
    d.nextResume p = some f → d.copiesIn p ≠ [] →
    ∃ e : Dev, exec (.resume p n) ⟨d, q⟩ = .next ⟨e, q⟩ ∧ e.frame f.id = some { f with stage := .engine n } ∧
      e.copyIn p (e.homeOf p n) = true ∧ e = { d with beat := e.beat, path := e.path }) ∧
  (∀ (d : Dev) (q : List Instr) (p n key pr : Nat) (f : Frame), d.hold.live = true → d.engineFrame p n = some f →
    f.px.pend = some (key, pr) →
    ((∀ i, i < 4096 → tget d.beat.sideBad 0 (4096 * p + i) = 0 → d.sideMatch p key pr i = false) →
      ∃ (e : Dev) (g : Frame), exec (.sideLookupResult p n []) ⟨d, q⟩ = .next ⟨e, q⟩ ∧ e.frame f.id = some g ∧ g.px.gr = f.px.gr.set 7 0 ∧
        g.px.pend = none ∧ g.px.present = true ∧ g.px.hit = false ∧ e = { d with path := e.path }) ∧
    (∀ i, i < 4096 → tget d.beat.sideBad 0 (4096 * p + i) = 0 → d.sideMatch p key pr i = true →
      (∀ j, j < i → tget d.beat.sideBad 0 (4096 * p + j) = 0 → d.sideMatch p key pr j = false) →
      ∃ (e : Dev) (g : Frame), exec (.sideLookupResult p n []) ⟨d, q⟩ = .next ⟨e, q⟩ ∧ e.frame f.id = some g ∧
        g.px.gr = f.px.gr.set 7 (d.tabF (sideTid p) i 10 0 32) ∧ g.px.pend = none ∧ g.px.present = true ∧ g.px.hit = true ∧
        e = { d with path := e.path })) ∧
  (∀ (d : Dev) (q : List Instr) (p n : Nat) (f : Frame), d.hold.live = true → d.engineFrame p n = some f →
    (∀ t, f.px.waitAt = some t → d.rd (Reg.PARS_CFG.HANDOFF_WAIT p) * 64 ≤ (d.now - t) * 100 →
      ∃ (e : Dev) (g : Frame), exec (.handoffWaitExpiry p n) ⟨d, q⟩ = .next ⟨e, q⟩ ∧ d.counted e .beaterHandoffTimeout p 1 ∧
        e.frame f.id = some g ∧ g.px.waitAt = none ∧ g.px.waited = true ∧
        d.ctrsBut e [Ctr.beaterHandoffTimeout.key p] ∧ e = { d with
          ctrs := e.ctrs, ctrOvf := e.ctrOvf, path := e.path }) ∧
    (max 32 (d.rd (Reg.PARS_CFG.MAX_CYCLES p)) < f.px.cycles →
      ∃ e : Dev, exec (.stopRequest p n) ⟨d, q⟩ = .next ⟨e, q⟩ ∧ e.frame f.id = some { f with px := { f.px with stop := true } } ∧
        e = { d with path := e.path }))

/-- Reload and scrub of bank copies, side entry rewrite and store reads. COPY_RELOAD_DONE with every word correct returns a
copy to service with its words as the reference has them; otherwise the copy stays out. STORE_SCRUB with a supervisor
running leaves no copy in service whose words differ from the reference. SIDE_ENTRY_REWRITE makes an entry match again.
STORE_WORD_READ by a privileged master shows the selected word, as the selected copy holds it, in PARS_STORE_DATA. -/
def Obligations.ControlStoreIsRepaired : Prop :=
  (∀ (d : Dev) (q : List Instr) (p k : Nat), d.hold.live = true → p < 4 → k < 16 → d.supRunning = true →
    d.copyIn p k = false → tget d.beat.outAt 0 (16 * p + k) ≠ 0 → d.beat.heldOut.contains (16 * p + k) = false →
    (∃ e : Dev, exec (.copyReloadDone p k true) ⟨d, q⟩ = .next ⟨e, q⟩ ∧ e.copyIn p k = true ∧
      e.bitOf (Reg.PARS_COPY_STATUS.RELOADING p) k = false ∧
      (∀ half word, half < 2 → word < 2 ^ 14 → e.storeWord p k half word = d.storeRef p half word) ∧
      e.rd (Reg.PARS_STATUS.IN_SERVICE p) = (e.copiesIn p).length ∧
      d.regsBut e [Reg.PARS_COPY_STATUS.addr p, Reg.PARS_STATUS.addr p] ∧ d.ctrsBut e [Ctr.logOverrun.key 0] ∧
      e = { d with regs := e.regs, ctrs := e.ctrs, ctrOvf := e.ctrOvf, supv := e.supv, beat := e.beat }) ∧
    (∃ e : Dev, exec (.copyReloadDone p k false) ⟨d, q⟩ = .next ⟨e, q⟩ ∧ e.copyIn p k = false ∧
      e.beat.heldOut.contains (16 * p + k) = true ∧
      d.regsBut e [Reg.PARS_COPY_STATUS.addr p, Reg.PARS_STATUS.addr p] ∧ e = { d with
        regs := e.regs, ctrs := e.ctrs, ctrOvf := e.ctrOvf, supv := e.supv, beat := e.beat })) ∧
  (∀ (d : Dev) (q : List Instr) (p : Nat) (u : List (Nat × Nat × Nat × Nat)), d.hold.live = true → p < 4 → d.supRunning = true →
    ∃ e : Dev, exec (.storeScrub p u) ⟨d, q⟩ = .next ⟨e, q⟩ ∧
      (∀ k half word, e.copyIn p k = true → half < 2 → word < 2 ^ 14 → e.storeWord p k half word = d.storeRef p half word) ∧
      (∀ k, e.copyIn p k = true → d.copyIn p k = true) ∧
      d.regsBut e [Reg.PARS_COPY_STATUS.addr p, Reg.PARS_STATUS.addr p, Reg.SUPV_ALM.addr, Reg.HOST_INT_STATUS.addr] ∧
      e = { d with
        regs := e.regs, ctrs := e.ctrs, ctrOvf := e.ctrOvf, wire := e.wire, supv := e.supv, beat := e.beat }) ∧
  (∀ (d : Dev) (q : List Instr) (p i : Nat), d.hold.live = true → d.supRunning = true →
    ∃ e : Dev, exec (.sideEntryRewrite p i) ⟨d, q⟩ = .next ⟨e, q⟩ ∧ tget e.beat.sideBad 0 (4096 * p + i) = 0 ∧
      (∀ k, k ≠ 4096 * p + i → tget e.beat.sideBad 0 k = tget d.beat.sideBad 0 k) ∧
      e = { d with beat := e.beat } ∧ e.beat = { d.beat with sideBad := e.beat.sideBad }) ∧
  (∀ (d : Dev) (q : List Instr) (p m v : Nat), d.hold.live = true → p < 4 → m ∈ [0x10, 0x11, 0x1F] → v < 2 ^ 32 → v.testBit 31 = true →
    ∃ e : Dev, exec (.storeWordRead m p v) ⟨d, q⟩ = .next ⟨e, q⟩ ∧
      (∀ i, i < 8 → (e.reg (Reg.PARS_STORE_DATA.addr p i)).toNat =
        d.storeWord p (v / 2 ^ 16 % 16) (v / 2 ^ 15 % 2) (v % 2 ^ 14) / 2 ^ (32 * i) % 2 ^ 32) ∧
      e.rd (Reg.PARS_STORE_SEL.COPY p) = v / 2 ^ 16 % 16 ∧ e.rd (Reg.PARS_STORE_SEL.HALF p) = v / 2 ^ 15 % 2 ∧
      e.rd (Reg.PARS_STORE_SEL.WORD p) = v % 2 ^ 14 ∧ e = { d with
        regs := e.regs, wire := e.wire, host := e.host })

/-- The forwarding decision: VLAN, address and mask tables give the set, the mirrors and the learn event.
FORWARDING_DECISION drops a frame as vlan_filter where its VLAN refuses it, as static_drop where DA or SA has such an entry,
and, with no redundancy pair active, forms the set of configured ports that R147 gives; an empty set drops as
source_port_filter where the ingress port alone was in it, else as vlan_filter. Otherwise the frame goes to step 9 with that
set and the mirror sessions that select it, and a learn event is held until frame end, or issued when the frame has ended.
No slot read has failing parity. -/
def Obligations.ForwardingSetFollowsTheTables : Prop :=
  ∀ (d : Dev) (q : List Instr) (i fid : Nat) (f : Frame) (da sa : Option AEnt) (hair : Bool), d.hold.live = true →
    d.frame i = some f → f.stage = .lookup → hair = d.flag (Reg.LKUP_PORT_CFG.HAIRPIN f.pipe (portIdx f.port)) →
    fid = d.tabF vlanTid f.vid 0 0 12 →
    (f.vid = 0xFFF ∨ d.tabF vlanTid f.vid 0 31 1 = 0 ∨
        (d.flag (Reg.LKUP_PORT_CFG.INGRESS_FILTER f.pipe (portIdx f.port)) = true ∧ (d.vlanMember f.vid).testBit f.port = false) →
      ∃ e : Dev, exec (.forwardingDecision i []) ⟨d, q⟩ = .next ⟨e, q⟩ ∧ d.counted e .drop 0x06 1 ∧
        e = { d with
          regs := e.regs, ctrs := e.ctrs, ctrOvf := e.ctrOvf, wire := e.wire, supv := e.supv, path := e.path,
          deck := e.deck, vat := e.vat }) ∧
    (f.vid ≠ 0xFFF → d.tabF vlanTid f.vid 0 31 1 = 1 →
      (d.flag (Reg.LKUP_PORT_CFG.INGRESS_FILTER f.pipe (portIdx f.port)) = false ∨ (d.vlanMember f.vid).testBit f.port = true) →
      d.finds f.pipe fid f.da da → d.finds f.pipe fid f.sa sa →
      ((da.any (·.typ == 2) || sa.any (·.typ == 2)) = true →
        ∃ e : Dev, exec (.forwardingDecision i []) ⟨d, q⟩ = .next ⟨e, q⟩ ∧ d.counted e .drop 0x0B 1 ∧
          e = { d with
            regs := e.regs, ctrs := e.ctrs, ctrOvf := e.ctrOvf, wire := e.wire, supv := e.supv, path := e.path,
            deck := e.deck, vat := e.vat }) ∧
      ((da.any (·.typ == 2) || sa.any (·.typ == 2)) = false → (∀ r, r < 32 → d.pairActive r = false) → ∀ want : Nat → Bool,
        want = (fun n => match da with
          | some x => if x.typ = 3 then n == 258
            else if x.rk = 0 then n == x.res && (d.vlanMember f.vid).testBit n
            else (d.portMask x.res).testBit n && (d.vlanMember f.vid).testBit n
          | none => if reserved8021 f.da then n == 258
            else if f.da = 0xFFFFFFFFFFFF then (d.portMask (12288 + fid)).testBit n && (d.vlanMember f.vid).testBit n
            else if groupBit f.da then (d.portMask (8192 + fid)).testBit n && (d.vlanMember f.vid).testBit n
            else (d.portMask (4096 + fid)).testBit n && (d.vlanMember f.vid).testBit n) →
        ((∀ n, n < 259 → d.configured n = true → want n = true → n = f.port ∧ hair = false) →
          ∃ e : Dev, exec (.forwardingDecision i []) ⟨d, q⟩ = .next ⟨e, q⟩ ∧
            d.counted e .drop (if decide (f.port < 259) && d.configured f.port && want f.port then 0x0C else 0x06) 1 ∧
            e = { d with
              regs := e.regs, ctrs := e.ctrs, ctrOvf := e.ctrOvf, wire := e.wire, supv := e.supv, path := e.path,
              deck := e.deck, vat := e.vat, red := e.red }) ∧
        ((∃ n, n < 259 ∧ d.configured n = true ∧ want n = true ∧ (n ≠ f.port ∨ hair = true)) →
          ∀ learnable : Bool, learnable = (d.flag (Reg.LKUP_TBL_CTRL.LEARN_EN f.pipe) &&
            d.flag (Reg.LKUP_PORT_CFG.LEARN_EN f.pipe (portIdx f.port)) && d.tabF fidTid fid 0 31 1 == 1 && !groupBit f.sa &&
            f.sa != 0 && sa.all fun x => x.typ == 0 && (x.res != f.port || decide (x.age < 3))) →
          ∃ (e : Dev) (g : Frame), exec (.forwardingDecision i []) ⟨d, q⟩ = .next ⟨e, q⟩ ∧ e.frame i = some g ∧ g.stage = .command ∧
            (∀ n, g.set.testBit n = (decide (n < 259) && d.configured n && want n && (n != f.port || hair))) ∧
            g.mirrors = (List.range 8).filter (d.mirrorSelects f g.set) ∧
            (∀ m, m < 8 → d.counted e .mirrorCopies m (if m ∈ g.mirrors then 1 else 0)) ∧
            d.counted e (if da.isSome then .lkupDaHit else .lkupDaMiss) f.pipe 1 ∧
            (f.ended = false → g.learn = if learnable then some (fid, f.sa) else none) ∧
            (f.ended = true → learnable = true → (tget d.look.rate Bucket.full f.pipe).used ≤ 0 →
              (tget d.look.learnQ [] f.pipe).length < 1024 →
              tget e.look.learnQ [] f.pipe = tget d.look.learnQ [] f.pipe ++ [⟨fid, f.sa, f.port⟩] ∧
              e.look.ring = d.look.ring ++ [(f.pipe, ⟨fid, f.sa, f.port⟩)] ∧ d.counted e .learnEvents f.pipe 1) ∧
            (∀ p s, e.aslot p s = d.aslot p s) ∧ (∀ j, j ≠ i → e.frame j = d.frame j) ∧
            e = { d with ctrs := e.ctrs, ctrOvf := e.ctrOvf, look := e.look, red := e.red, path := e.path })))

/-- The learning ring and the table writer, and what an insertion leaves in the table. LEARNING_RING_DELIVER puts the oldest
event of the ring into the queue of every other pipeline, discarded and counted where one is full. LEARN_WRITE takes the
oldest event of a queue: it inserts a learned entry with AGE 3 into the first free slot, refreshes one on the same port,
moves one on another port, or pins it at MOVE_LIMIT; a pinned entry, a static type and a port under removal leave the table
as it was. Whatever relocation an insertion makes, every entry of another key that stood in one of its two buckets stands,
whole, in one of them afterwards. -/
def Obligations.LearnedEntriesFollowEvents : Prop :=
  (∀ (d : Dev) (q : List Instr) (src : Nat) (ev : LearnEv) (rest : List (Nat × LearnEv)), d.hold.live = true →
    d.look.ring = (src, ev) :: rest →
    ∃ e : Dev, exec .learningRingDeliver ⟨d, q⟩ = .next ⟨e, q⟩ ∧ e.look.ring = rest ∧
      (∀ p, p < 4 → p ≠ src → (tget d.look.learnQ [] p).length < 1024 →
        tget e.look.learnQ [] p = tget d.look.learnQ [] p ++ [ev] ∧ d.counted e .learnDrop p 0) ∧
      (∀ p, p < 4 → p ≠ src → 1024 ≤ (tget d.look.learnQ [] p).length →
        tget e.look.learnQ [] p = tget d.look.learnQ [] p ∧ d.counted e .learnDrop p 1) ∧
      tget e.look.learnQ [] src = tget d.look.learnQ [] src ∧ (∀ p s, e.aslot p s = d.aslot p s) ∧ e = { d with
        ctrs := e.ctrs, ctrOvf := e.ctrOvf, look := e.look }) ∧
  (∀ (d : Dev) (q : List Instr) (p : Nat) (ev : LearnEv) (rest : List LearnEv), d.hold.live = true →
    tget d.look.learnQ [] p = ev :: rest → ∀ ss : List Nat, ss = d.addrSlots p ev.fid ev.mac → (∀ s ∈ ss, (d.aslot p s).bad = 0) →
    ∀ mine : Nat → Bool, mine = (fun s => (d.aslot p s).valid && (d.aslot p s).fid == ev.fid && (d.aslot p s).mac == ev.mac) →
    (d.removing p ev.port = true ∨ (∃ s ∈ ss, mine s = true ∧ (d.aslot p s).typ ≠ 0 ∧
        (d.avisible p (d.aslot p s) = true ∨ (d.aslot p s).new = true)) →
      ∃ e : Dev, exec (.learnWrite p) ⟨d, q⟩ = .next ⟨e, q⟩ ∧ tget e.look.learnQ [] p = rest ∧ (∀ r s, e.aslot r s = d.aslot r s) ∧
        e = { d with look := e.look }) ∧
    (d.removing p ev.port = false → ∀ s ∈ ss, mine s = true → (d.aslot p s).typ = 0 → (∀ t ∈ ss, t ≠ s → mine t = false) →
      ∀ x : AEnt, x = d.aslot p s →
      (x.res = ev.port → ∃ e : Dev, exec (.learnWrite p) ⟨d, q⟩ = .next ⟨e, q⟩ ∧ tget e.look.learnQ [] p = rest ∧
        e.aslot p s = { x with age := 3 } ∧ (∀ r t, ¬(r = p ∧ t = s) → t < 2 ^ 21 → e.aslot r t = d.aslot r t) ∧
        d.counted e .learnRefresh p 1 ∧ e = { d with ctrs := e.ctrs, ctrOvf := e.ctrOvf, look := e.look }) ∧
      (x.res ≠ ev.port → x.pinned = false → x.moves < d.rd (Reg.LKUP_MOVE_CFG.MOVE_LIMIT p) →
        ∃ e : Dev, exec (.learnWrite p) ⟨d, q⟩ = .next ⟨e, q⟩ ∧ tget e.look.learnQ [] p = rest ∧
          e.aslot p s = { x with res := ev.port, age := 3, moves := min 15 (x.moves + 1) } ∧
          (∀ r t, ¬(r = p ∧ t = s) → t < 2 ^ 21 → e.aslot r t = d.aslot r t) ∧ d.counted e .learnMove p 1 ∧ e = { d with
            ctrs := e.ctrs, ctrOvf := e.ctrOvf, look := e.look }) ∧
      (x.res ≠ ev.port → x.pinned = false → d.rd (Reg.LKUP_MOVE_CFG.MOVE_LIMIT p) ≤ x.moves →
        ∃ e : Dev, exec (.learnWrite p) ⟨d, q⟩ = .next ⟨e, q⟩ ∧ tget e.look.learnQ [] p = rest ∧ e.aslot p s = { x with pinned := true } ∧
          (∀ r t, ¬(r = p ∧ t = s) → t < 2 ^ 21 → e.aslot r t = d.aslot r t) ∧ d.counted e .movePinned p 1 ∧
          e.supv.logQ = d.queued ⟨0x4001, 4, 0, p, false,
            noReg ++ le 1 p ++ le 1 0 ++ le 2 x.fid ++ be 6 x.mac ++ le 2 x.res ++ le 2 ev.port⟩ ∧ e = { d with
              ctrs := e.ctrs, ctrOvf := e.ctrOvf, supv := e.supv, look := e.look }) ∧
      (x.res ≠ ev.port → x.pinned = true → ∃ e : Dev, exec (.learnWrite p) ⟨d, q⟩ = .next ⟨e, q⟩ ∧ tget e.look.learnQ [] p = rest ∧
        (∀ r s, e.aslot r s = d.aslot r s) ∧ e = { d with look := e.look })) ∧
    (d.removing p ev.port = false → (∀ t ∈ ss, mine t = false) → ∀ a b s, ss = a ++ s :: b →
      (∀ t ∈ a, (d.aslot p t).valid = true) → (d.aslot p s).valid = false →
      ∃ e : Dev, exec (.learnWrite p) ⟨d, q⟩ = .next ⟨e, q⟩ ∧ tget e.look.learnQ [] p = rest ∧
        e.aslot p s = { AEnt.zero with valid := true, mac := ev.mac, fid := ev.fid, age := 3, res := ev.port } ∧
        (∀ r t, ¬(r = p ∧ t = s) → t < 2 ^ 21 → e.aslot r t = d.aslot r t) ∧ d.counted e .learnInsert p 1 ∧
        e = { d with ctrs := e.ctrs, ctrOvf := e.ctrOvf, look := e.look })) ∧
  (∀ (d : Dev) (q : List Instr) (p : Nat) (ev : LearnEv) (rest : List LearnEv), d.hold.live = true →
    tget d.look.learnQ [] p = ev :: rest →
    ∃ e : Dev, exec (.learnWrite p) ⟨d, q⟩ = .next ⟨e, q⟩ ∧ tget e.look.learnQ [] p = rest ∧
      ∀ s x, d.aslot p s = x → x.valid = true → x.bad = 0 → ¬(x.fid = ev.fid ∧ x.mac = ev.mac) → s ∈ d.addrSlots p x.fid x.mac →
        ∃ t ∈ e.addrSlots p x.fid x.mac, e.aslot p t = x)

/-- Aging ticks, the end of a move window and a removal pass. With no failing parity in the table: AGING_TICK of a FID that
is due and enabled removes its learned entries of AGE 0 and lowers the AGE of the others, and one that is not due or not
enabled changes nothing. MOVE_WINDOW_END clears MOVE_CNT of every entry of the pipeline. REMOVAL_PASS_DONE removes every
learned entry of a port the pass served; ports under removal since then get a further pass, and with none left FLUSHING
clears. No other entry changes. The table stands in its canonical form, which every step keeps (TablesStayCanonical). -/
def Obligations.AddressTableSweeps : Prop :=
  ∀ (d : Dev) (q : List Instr) (p : Nat), d.hold.live = true → twf (fun _ => AEnt.zero) d.look.slots = true →
    (∀ s, (d.aslot p s).bad = 0) →
    (∀ (fid : Nat) (due : Bool), due = (d.flag (Reg.LKUP_TBL_CTRL.AGE_EN p) && d.tabF fidTid fid 0 30 1 == 1 && decide (fid < 4096) &&
        decide (tget d.look.aged 0 (4096 * p + fid) + (d.tabF fidTid fid 0 0 16 * 10 + 2) / 3 * 10 ^ 8 ≤ d.now)) →
      (due = false → exec (.agingTick p fid []) ⟨d, q⟩ = .next ⟨d, q⟩) ∧
      (due = true → ∃ e : Dev, exec (.agingTick p fid []) ⟨d, q⟩ = .next ⟨e, q⟩ ∧ tget e.look.aged 0 (4096 * p + fid) = d.now ∧
        (∀ s x, s < 2 ^ 21 → x = d.aslot p s → x.valid = true → x.typ = 0 → x.fid = fid →
          e.aslot p s = if x.age = 0 then AEnt.zero else { x with age := x.age - 1 }) ∧
        (∀ r s x, s < 2 ^ 21 → x = d.aslot r s → ¬(r = p ∧ x.valid = true ∧ x.typ = 0 ∧ x.fid = fid) → e.aslot r s = x) ∧
        d.counted e .ageRemoved p (d.look.slots.filter fun s => s.1 / 2 ^ 21 == p && s.2.valid && s.2.typ == 0 && s.2.fid == fid &&
          s.2.age == 0).length ∧ d.ctrsBut e [Ctr.ageRemoved.key p] ∧ e = { d with
            ctrs := e.ctrs, ctrOvf := e.ctrOvf, look := e.look })) ∧
    (tget d.look.moved 0 p + d.rd (Reg.LKUP_MOVE_CFG.MOVE_WINDOW_MS p) / 100 * 10 ^ 8 ≤ d.now →
      ∃ e : Dev, exec (.moveWindowEnd p) ⟨d, q⟩ = .next ⟨e, q⟩ ∧ tget e.look.moved 0 p = d.now ∧
        (∀ s, s < 2 ^ 21 → e.aslot p s = { d.aslot p s with moves := 0 }) ∧
        (∀ r s, s < 2 ^ 21 → r ≠ p → e.aslot r s = d.aslot r s) ∧ e = { d with look := e.look }) ∧
    (∀ run old, run = tget d.look.passing 0 p → old = tget d.look.removing 0 p → run ≠ 0 →
      ∃ e : Dev, exec (.removalPassDone p) ⟨d, q⟩ = .next ⟨e, q⟩ ∧
        (∀ s x, s < 2 ^ 21 → x = d.aslot p s → e.aslot p s = if x.valid && x.typ == 0 && run.testBit x.res then AEnt.zero else x) ∧
        (∀ r s, s < 2 ^ 21 → r ≠ p → e.aslot r s = d.aslot r s) ∧
        (∀ n, e.removing p n = (old.testBit n && !run.testBit n)) ∧ tget e.look.passing 0 p = tget e.look.removing 0 p ∧
        (tget e.look.removing 0 p = 0 → e.flag (Reg.LKUP_TBL_STATUS.FLUSHING p) = false) ∧
        (tget e.look.removing 0 p ≠ 0 → e.regs = d.regs) ∧
        d.counted e .flushRemoved p (d.look.slots.filter fun s => s.1 / 2 ^ 21 == p && s.2.valid && s.2.typ == 0 &&
          run.testBit s.2.res).length ∧
        d.regsBut e [Reg.LKUP_TBL_STATUS.addr p] ∧ d.ctrsBut e [Ctr.flushRemoved.key p] ∧ e = { d with
          regs := e.regs, ctrs := e.ctrs, ctrOvf := e.ctrOvf, look := e.look })

/-- The supervisor compares static entries with the reference and re-inserts after a parity failure. STATIC_COMPARE with a
supervisor running removes every visible static entry that an empty reference does not name, and writes a reference entry
that an empty table lacks into every pipeline, each correction counted in static_rewrite. STATIC_REINSERT puts a reference
entry back of which a failed slot lay in a bucket, where a slot of its buckets is free. Without a supervisor neither does
anything. -/
def Obligations.StaticEntriesFollowTheReference : Prop :=
  ∀ (d : Dev) (q : List Instr), d.hold.live = true →
    (d.supRunning = false → exec (.staticCompare []) ⟨d, q⟩ = .next ⟨d, q⟩ ∧ exec .staticReinsert ⟨d, q⟩ = .next ⟨d, q⟩) ∧
    (d.supRunning = true →
      (d.look.refStatic = [] → (∀ p s, (d.aslot p s).bad = 0) → ∃ e : Dev, exec (.staticCompare []) ⟨d, q⟩ = .next ⟨e, q⟩ ∧
        (∀ p s x, p < 4 → s < 2 ^ 21 → x = d.aslot p s →
          e.aslot p s = if x.valid && x.typ != 0 && d.avisible p x then AEnt.zero else x) ∧ e = { d with
            ctrs := e.ctrs, ctrOvf := e.ctrOvf, supv := e.supv, look := e.look }) ∧
      (∀ fid mac typ rk res, fid < 4096 → mac < 2 ^ 48 → typ = 1 ∨ typ = 2 ∨ typ = 3 → rk < 2 → res < 4096 → d.look.slots = [] →
        d.look.refStatic = [(fid * 2 ^ 48 + mac, typ + 4 * rk + 8 * res)] →
        ∃ e : Dev, exec (.staticCompare []) ⟨d, q⟩ = .next ⟨e, q⟩ ∧
          (∀ p, p < 4 → e.aslot p (4 * d.addrBucket p 0 fid mac) =
            { AEnt.zero with valid := true, fid := fid, mac := mac, typ := typ, rk := rk, res := res } ∧
            d.counted e .staticRewrite p 1) ∧
          d.ctrsBut e ([0, 1, 2, 3].map Ctr.staticRewrite.key ++ [Ctr.logOverrun.key 0]) ∧ e = { d with
            ctrs := e.ctrs, ctrOvf := e.ctrOvf, supv := e.supv, look := e.look }) ∧
      (∀ p s t fid mac typ rk res, p < 4 → s < 2 ^ 21 → fid < 4096 → mac < 2 ^ 48 → typ = 1 ∨ typ = 2 ∨ typ = 3 → rk < 2 → res < 4096 →
        d.look.refStatic = [(fid * 2 ^ 48 + mac, typ + 4 * rk + 8 * res)] → d.look.failed = [(2 ^ 21 * p + s, t)] →
        s ∈ d.addrSlots p fid mac → d.staticSlots p fid mac = [] →
        (∃ u ∈ d.addrSlots p fid mac, (d.aslot p u).valid = false) →
        ∃ e : Dev, exec .staticReinsert ⟨d, q⟩ = .next ⟨e, q⟩ ∧
          (∃ u ∈ d.addrSlots p fid mac, e.aslot p u =
            { AEnt.zero with valid := true, fid := fid, mac := mac, typ := typ, rk := rk, res := res }) ∧
          e = { d with regs := e.regs, ctrs := e.ctrs, ctrOvf := e.ctrOvf, look := e.look }))

/-- Stream identification takes the handle of the first probe that finds an admitting entry. STREAM_IDENTIFY gives a frame
at step 5 its ingress VID and class. With ID_EN set, the first probe in the order of R172 whose bucket holds a visible entry
of its key that admits the ingress port and the tag gives the frame that entry's HANDLE, counted in stream_id_hit and
stream_frames; without one, or with ID_EN clear, the frame goes on with no handle, counted in stream_id_miss. Nothing else
changes. -/
def Obligations.StreamsAreIdentified : Prop :=
  ∀ (d : Dev) (q : List Instr) (i vid : Nat) (f : Frame), d.hold.live = true → d.frame i = some f → f.stage = .identify →
    d.ptpTakes f = none →
    vid = (if f.flagBit 1 && f.hvF 9 16 16 == d.portTpid f.port && f.hvF 9 0 12 != 0 then f.hvF 9 0 12
      else d.rd (Reg.LKUP_PORT_CFG.PVID f.pipe (portIdx f.port))) →
    ∀ (key : Nat × Nat → List Byte) (admits : Nat × Nat → Nat → Bool), key = (fun x => d.probeKey f.pipe f vid x.1 x.2) →
    admits = (fun x s =>
      let b := (d.idEnt f.pipe s).bytes
      !b.isEmpty && !(d.idEnt f.pipe s).new && idKey b == key x && (idField b 8 2 == 0x1FF || idField b 8 2 == f.port) &&
        (idField b 6 1 != 1 || (f.flagBit 1 && f.hvF 9 0 12 != 0)) && (idField b 6 1 != 2 || !(f.flagBit 1 && f.hvF 9 0 12 != 0))) →
    ((d.flag (Reg.STRM_CFG.ID_EN f.pipe) = false ∨
        ∀ x ∈ d.probes f, ∀ s ∈ d.idBucket f.pipe (key x), admits x s = false) →
      ∃ e : Dev, exec (.streamIdentify i) ⟨d, q⟩ = .next ⟨e, q⟩ ∧
        e.frame i = some { f with vid := vid, cls := f.hvF 35 0 3, stage := .filter } ∧ (∀ j, j ≠ i → e.frame j = d.frame j) ∧
        d.counted e .streamIdMiss f.pipe 1 ∧ d.ctrsBut e [Ctr.streamIdMiss.key f.pipe] ∧ e = { d with
          ctrs := e.ctrs, ctrOvf := e.ctrOvf, path := e.path }) ∧
    (∀ a b x s h, d.flag (Reg.STRM_CFG.ID_EN f.pipe) = true → d.probes f = a ++ x :: b →
      (∀ y ∈ a, ∀ t ∈ d.idBucket f.pipe (key y), admits y t = false) → s ∈ d.idBucket f.pipe (key x) → admits x s = true →
      h = idField (d.idEnt f.pipe s).bytes 2 2 →
      (∀ t ∈ d.idBucket f.pipe (key x), admits x t = true → idField (d.idEnt f.pipe t).bytes 2 2 = h) →
      ∃ e : Dev, exec (.streamIdentify i) ⟨d, q⟩ = .next ⟨e, q⟩ ∧
        e.frame i = some { f with vid := vid, cls := f.hvF 35 0 3, handle := some h, stage := .filter } ∧
        (∀ j, j ≠ i → e.frame j = d.frame j) ∧ d.counted e .streamIdHit f.pipe 1 ∧ d.counted e .streamFrames h 1 ∧
        d.ctrsBut e [Ctr.streamIdHit.key f.pipe, Ctr.streamFrames.key h] ∧ e = { d with
          ctrs := e.ctrs, ctrOvf := e.ctrOvf, path := e.path })

/-- The stream filter: waiting for length, blocked handles, MAX_SDU, the gate, octets and the meter. STREAM_FILTER marks a
frame whose length is needed before its end as waiting; a frame without a VALID handle goes on to step 7. For a VALID handle
the checks of R176 drop the frame under their reasons and counters, block the handle where the context says so, count the
octets of the gate entry and give the class of its IPV; the meter of R180, with both buckets brought up to date, passes it
green, passes it yellow and drop-eligible, or drops it red without taking tokens. The gate clauses are for a handle without
MAX_SDU and meter, the meter clauses for one without MAX_SDU and gate. -/
def Obligations.StreamFilterChecksInOrder : Prop :=
  ∀ (d : Dev) (q : List Instr) (i : Nat) (f : Frame), d.hold.live = true → d.frame i = some f → f.stage = .filter →
    (d.needsLen f = true → f.ended = false → ∃ e : Dev, exec (.streamFilter i) ⟨d, q⟩ = .next ⟨e, q⟩ ∧
      e.frame i = some { f with whole := true } ∧ (∀ j, j ≠ i → e.frame j = d.frame j) ∧ e = { d with
        path := e.path }) ∧
    ((d.needsLen f = true → f.ended = true) →
      ((∀ h, f.handle = some h → d.sctx f.pipe h 0 31 1 = 0) → ∃ e : Dev, exec (.streamFilter i) ⟨d, q⟩ = .next ⟨e, q⟩ ∧
        e.frame i = some { f with stage := .police } ∧ (∀ j, j ≠ i → e.frame j = d.frame j) ∧ e = { d with
          path := e.path }) ∧
      ∀ h (maxSdu : Nat), f.handle = some h → d.sctx f.pipe h 0 31 1 = 1 → maxSdu = d.sctx f.pipe h 0 0 14 →
        (tget d.strm.blocked 0 h = 1 → ∃ e : Dev, exec (.streamFilter i) ⟨d, q⟩ = .next ⟨e, q⟩ ∧ d.counted e .drop 0x07 1 ∧
          d.counted e .streamSduDrop h 1 ∧ e = { d with
            regs := e.regs, ctrs := e.ctrs, ctrOvf := e.ctrOvf, wire := e.wire, supv := e.supv, path := e.path,
            deck := e.deck, vat := e.vat }) ∧
        (tget d.strm.blocked 0 h = 2 → ∃ e : Dev, exec (.streamFilter i) ⟨d, q⟩ = .next ⟨e, q⟩ ∧ d.counted e .drop 0x08 1 ∧
          d.counted e .streamGateDrop h 1 ∧ e = { d with
            regs := e.regs, ctrs := e.ctrs, ctrOvf := e.ctrOvf, wire := e.wire, supv := e.supv, path := e.path,
            deck := e.deck, vat := e.vat }) ∧
        (tget d.strm.blocked 0 h = 0 → maxSdu ≠ 0 →
          maxSdu < f.len - 18 - 4 * ((if f.flagBit 1 then 1 else 0) + (if f.flagBit 2 then 1 else 0)) →
          ∃ e : Dev, exec (.streamFilter i) ⟨d, q⟩ = .next ⟨e, q⟩ ∧ d.counted e .drop 0x07 1 ∧ d.counted e .streamSduDrop h 1 ∧
            tget e.strm.blocked 0 h = (if d.sctx f.pipe h 0 28 1 = 1 then 1 else 0) ∧
            d.counted e .streamBlocked f.pipe (if d.sctx f.pipe h 0 28 1 = 1 then 1 else 0) ∧
            e = { d with
              regs := e.regs, ctrs := e.ctrs, ctrOvf := e.ctrOvf, wire := e.wire, supv := e.supv, path := e.path,
              deck := e.deck, vat := e.vat, strm := e.strm }) ∧
        (tget d.strm.blocked 0 h = 0 → maxSdu = 0 → d.sctx f.pipe h 0 30 1 = 1 → d.sctx f.pipe h 0 29 1 = 0 →
          ∀ ipv octMax start oct,
          (d.gateState f.pipe h (d.gateTime f h) = (false, ipv, octMax, start) →
            ∃ e : Dev, exec (.streamFilter i) ⟨d, q⟩ = .next ⟨e, q⟩ ∧ d.counted e .drop 0x08 1 ∧ d.counted e .streamGateDrop h 1 ∧
              d.counted e .streamGateOctets h 0 ∧ tget e.strm.blocked 0 h = (if d.sctx f.pipe h 0 27 1 = 1 then 2 else 0) ∧
              e = { d with
                regs := e.regs, ctrs := e.ctrs, ctrOvf := e.ctrOvf, wire := e.wire, supv := e.supv,
                path := e.path, deck := e.deck, vat := e.vat, strm := e.strm }) ∧
          (d.gateState f.pipe h (d.gateTime f h) = (true, ipv, octMax, start) →
            oct = (if (d.sgate h).start = start then (d.sgate h).octets else 0) →
            (octMax ≠ 0 → octMax < oct + f.len → ∃ e : Dev, exec (.streamFilter i) ⟨d, q⟩ = .next ⟨e, q⟩ ∧ d.counted e .drop 0x08 1 ∧
              d.counted e .streamGateDrop h 1 ∧ d.counted e .streamGateOctets h 1 ∧
              e = { d with
                regs := e.regs, ctrs := e.ctrs, ctrOvf := e.ctrOvf, wire := e.wire, supv := e.supv,
                path := e.path, deck := e.deck, vat := e.vat }) ∧
            ((octMax = 0 ∨ oct + f.len ≤ octMax) → ∃ e : Dev, exec (.streamFilter i) ⟨d, q⟩ = .next ⟨e, q⟩ ∧
              e.frame i = some { f with cls := ipv.getD f.cls, stage := .police } ∧ (∀ j, j ≠ i → e.frame j = d.frame j) ∧
              (octMax ≠ 0 → (e.sgate h).start = start ∧ (e.sgate h).octets = oct + f.len) ∧ e = { d with
                path := e.path, strm := e.strm }))) ∧
        (tget d.strm.blocked 0 h = 0 → maxSdu = 0 → d.sctx f.pipe h 0 30 1 = 0 → d.sctx f.pipe h 0 29 1 = 1 →
          ∀ (m : Meter) (col : Nat) (cbs ebs addC addE bc be len : Int), m = tget d.strm.meter Meter.full h → col = d.inColour f h →
          cbs = (d.sctx f.pipe h 4 0 24 * 65536 : Nat) → ebs = (d.sctx f.pipe h 5 0 24 * 65536 : Nat) →
          addC = rateUnits (d.sctx f.pipe h 2 0 32) (d.now - m.at_) → addE = rateUnits (d.sctx f.pipe h 3 0 32) (d.now - m.at_) →
          bc = min cbs (cbs - m.c + addC) →
          be = min ebs (ebs - m.e + addE + (if d.sctx f.pipe h 0 26 1 = 1 then max 0 (addC - m.c) else 0)) →
          len = ((f.len + d.sctx f.pipe h 1 0 6) * 65536 : Nat) →
          (col = 0 → len ≤ bc → ∃ e : Dev, exec (.streamFilter i) ⟨d, q⟩ = .next ⟨e, q⟩ ∧ e.frame i = some { f with stage := .police } ∧
            cbs - (tget e.strm.meter Meter.full h).c = bc - len ∧ ebs - (tget e.strm.meter Meter.full h).e = be ∧
            d.counted e .meterGreen h 1 ∧ d.ctrsBut e [Ctr.meterGreen.key h] ∧ e = { d with
              ctrs := e.ctrs, ctrOvf := e.ctrOvf, path := e.path, strm := e.strm }) ∧
          (¬(col = 0 ∧ len ≤ bc) → col ≠ 2 → len ≤ be → ∃ e : Dev, exec (.streamFilter i) ⟨d, q⟩ = .next ⟨e, q⟩ ∧
            e.frame i = some { f with stage := .police, de := true } ∧ cbs - (tget e.strm.meter Meter.full h).c = bc ∧
            ebs - (tget e.strm.meter Meter.full h).e = be - len ∧ d.counted e .meterYellow h 1 ∧
            d.ctrsBut e [Ctr.meterYellow.key h] ∧ e = { d with
              ctrs := e.ctrs, ctrOvf := e.ctrOvf, path := e.path, strm := e.strm }) ∧
          (¬(col = 0 ∧ len ≤ bc) → ¬(col ≠ 2 ∧ len ≤ be) → ∃ e : Dev, exec (.streamFilter i) ⟨d, q⟩ = .next ⟨e, q⟩ ∧
            d.counted e .drop 0x09 1 ∧ d.counted e .meterRed h 1 ∧ cbs - (tget e.strm.meter Meter.full h).c = bc ∧
            ebs - (tget e.strm.meter Meter.full h).e = be ∧ e = { d with
              regs := e.regs, ctrs := e.ctrs, ctrOvf := e.ctrOvf, wire := e.wire, supv := e.supv, path := e.path,
              deck := e.deck, vat := e.vat, strm := e.strm })))

/-- The port aggregate policer, and takeover and entry start of a stream gate. PORT_POLICER passes a frame whose port and
class have no policer; else the bucket, filled at RATE and never beyond BURST, passes a frame whose metered length fits and
takes it, or drops it as port_policer_excess taking nothing. It waits while an earlier frame of the MAC has not left step 7.
STREAM_GATE_TAKEOVER puts a pending schedule into operation once its first cycle start is reached, the octet count at zero;
STREAM_GATE_ENTRY restarts the octet count when a new entry interval has begun. -/
def Obligations.PolicersAndStreamGates : Prop :=
  (∀ (d : Dev) (q : List Instr) (i key : Nat) (f : Frame), d.hold.live = true → d.frame i = some f → f.stage = .police →
    key = 8 * f.port + f.cls →
    (d.policeWaits f = true → exec (.portPolicer i) ⟨d, q⟩ = .next ⟨d, q⟩) ∧
    (d.policeWaits f = false → d.polOn f.port f.cls = false → ∃ e : Dev, exec (.portPolicer i) ⟨d, q⟩ = .next ⟨e, q⟩ ∧
      e.frame i = some { f with stage := .lookup } ∧ (∀ j, j ≠ i → e.frame j = d.frame j) ∧ e = { d with
        path := e.path }) ∧
    (d.policeWaits f = false → d.polOn f.port f.cls = true →
      ∀ (b : Bucket) (depth have_ len : Int), b = tget d.strm.pol Bucket.full key →
      depth = (d.rd (Reg.STRM_POL_CFG.BURST (pipeOf f.port) (portIdx f.port) f.cls) * 65536 : Nat) →
      have_ = min depth (depth - b.used +
        rateUnits (min 400000000 (d.rd (Reg.STRM_POL_RATE.RATE (pipeOf f.port) (portIdx f.port) f.cls))) (d.now - b.at_)) →
      len = ((f.len + d.rd (Reg.STRM_POL_CFG.OVERHEAD (pipeOf f.port) (portIdx f.port) f.cls)) * 65536 : Nat) →
      (len ≤ have_ → ∃ e : Dev, exec (.portPolicer i) ⟨d, q⟩ = .next ⟨e, q⟩ ∧ e.frame i = some { f with stage := .lookup } ∧
        (∀ j, j ≠ i → e.frame j = d.frame j) ∧ depth - (tget e.strm.pol Bucket.full key).used = have_ - len ∧
        (tget e.strm.pol Bucket.full key).at_ = d.now ∧ d.counted e .polPassFrames key 1 ∧
        e.ctr .polPassOctets key = (d.ctr .polPassOctets key + f.len) % 2 ^ 64 ∧
        d.ctrsBut e [Ctr.polPassFrames.key key, Ctr.polPassOctets.key key] ∧
        (∀ k, k ≠ key → tget e.strm.pol Bucket.full k = tget d.strm.pol Bucket.full k) ∧
        e.strm = { d.strm with pol := e.strm.pol } ∧ e = { d with
          ctrs := e.ctrs, ctrOvf := e.ctrOvf, path := e.path, strm := e.strm }) ∧
      (have_ < len → ∃ e : Dev, exec (.portPolicer i) ⟨d, q⟩ = .next ⟨e, q⟩ ∧ d.counted e .drop 0x0A 1 ∧ d.counted e .polDropFrames key 1 ∧
        depth - (tget e.strm.pol Bucket.full key).used = have_ ∧ e.strm = { d.strm with pol := e.strm.pol } ∧
        e = { d with
          regs := e.regs, ctrs := e.ctrs, ctrOvf := e.ctrOvf, wire := e.wire, supv := e.supv, path := e.path,
          deck := e.deck, vat := e.vat, strm := e.strm }))) ∧
  (∀ (d : Dev) (q : List Instr) (h : Nat) (s : Sched), d.hold.live = true → (d.sgate h).pend = some s →
    (d.presNs s.tb < s.due → exec (.streamGateTakeover h) ⟨d, q⟩ = .next ⟨d, q⟩) ∧
    (s.due ≤ d.presNs s.tb → ∃ e : Dev, exec (.streamGateTakeover h) ⟨d, q⟩ = .next ⟨e, q⟩ ∧ (e.sgate h).oper = some s ∧
      (e.sgate h).pend = none ∧ (e.sgate h).octets = 0 ∧ (∀ k, k ≠ h → e.sgate k = d.sgate k) ∧
      e.strm = { d.strm with gate := e.strm.gate } ∧ e = { d with strm := e.strm })) ∧
  (∀ (d : Dev) (q : List Instr) (h p k start : Nat) (s : Sched), d.hold.live = true → (d.sgate h).oper = some s →
    d.handleOwner h = some p → d.sgateEntry p s (d.presNs s.tb) = some (k, start) →
    (start ≤ (d.sgate h).start → exec (.streamGateEntry h) ⟨d, q⟩ = .next ⟨d, q⟩) ∧
    ((d.sgate h).start < start → ∃ e : Dev, exec (.streamGateEntry h) ⟨d, q⟩ = .next ⟨e, q⟩ ∧
      e.sgate h = { d.sgate h with start := start, octets := 0 } ∧ (∀ j, j ≠ h → e.sgate j = d.sgate j) ∧
      e.strm = { d.strm with gate := e.strm.gate } ∧ e = { d with strm := e.strm }))

/-- The octet count of a stream gate restarts with every entry interval, every cycle and a takeover. In every state,
STREAM_GATE_ENTRY at an instant of an entry interval that began after the one counted, be it a later entry of the cycle or
the first of a new cycle, leaves the octet count at zero from that start; STREAM_GATE_TAKEOVER of a schedule whose first
cycle start has come leaves it at zero from there. -/
def Obligations.OctetCountsRestart : Prop :=
  ∀ (d : Dev) (q : List Instr) (h : Nat) (s : Sched), d.hold.live = true →
    (∀ p k start, (d.sgate h).oper = some s → d.handleOwner h = some p → d.sgateEntry p s (d.presNs s.tb) = some (k, start) →
      (d.sgate h).start < start → ∃ e : Dev, exec (.streamGateEntry h) ⟨d, q⟩ = .next ⟨e, q⟩ ∧ (e.sgate h).octets = 0 ∧
        (e.sgate h).start = start) ∧
    (∀ p t, (d.sgate h).oper = some s → d.handleOwner h = some p → s.cycle ≠ 0 → s.len ≠ 0 → t = d.presNs s.tb →
      ((t : Int) - s.base) % (s.cycle : Int) ≤ t →
      ((d.sgate h).start : Int) < t - ((t : Int) - s.base) % (s.cycle : Int) →
      ∃ e : Dev, exec (.streamGateEntry h) ⟨d, q⟩ = .next ⟨e, q⟩ ∧ (e.sgate h).octets = 0) ∧
    ((d.sgate h).pend = some s → s.due ≤ d.presNs s.tb →
      ∃ e : Dev, exec (.streamGateTakeover h) ⟨d, q⟩ = .next ⟨e, q⟩ ∧ (e.sgate h).octets = 0 ∧ (e.sgate h).start = s.due)

/-- The node writer: refresh, proxy and remote insertion, full buckets and exhausted ranges. NODE_INSERT takes the oldest
request. A node that its bucket holds is refreshed: AGE_S zero, the seen bit of its port set. A new node takes the lowest
free slot of its bucket: a proxy starts at the number after the frame's; a remote node takes the lowest free context of its
pair, on HSR also the lowest free ring context, each starting with the frame's sequence, history bit 0, TAKE_ANY clear, the
millisecond count and the next generation. A full bucket or an exhausted range inserts nothing and counts rn_table_full. -/
def Obligations.NodeTableFollowsRequests : Prop :=
  ∀ (d : Dev) (q : List Instr) (r : NodeReq) (rest : List NodeReq) (bs : List Nat), d.hold.live = true → d.red.reqs = r :: rest →
    bs = bucketSlots (d.nodeBucket r.pair r.mac) →
    ∀ mine : Nat → Bool, mine = (fun s => (d.node s).valid && (d.node s).pair == r.pair && (d.node s).mac == r.mac) →
    (∀ s x, s ∈ bs → mine s = true → (∀ t ∈ bs, t ≠ s → mine t = false) → x = d.node s →
      ∃ e : Dev, exec .nodeInsert ⟨d, q⟩ = .next ⟨e, q⟩ ∧ e.red.reqs = rest ∧
        e.node s = { x with age := 0, seen := x.seen ||| d.seenBit r.pair r.port } ∧ (∀ t, t ≠ s → e.node t = d.node t) ∧
        (∀ c, e.rcv c = d.rcv c) ∧ e = { d with red := e.red }) ∧
    ((∀ s ∈ bs, mine s = false) → (∀ s ∈ bs, (d.node s).valid = true) →
      ∃ e : Dev, exec .nodeInsert ⟨d, q⟩ = .next ⟨e, q⟩ ∧ e.red = { d.red with reqs := rest } ∧ d.counted e .rnTableFull r.pair 1 ∧
        d.ctrsBut e [Ctr.rnTableFull.key r.pair] ∧ e = { d with
          ctrs := e.ctrs, ctrOvf := e.ctrOvf, red := e.red }) ∧
    (∀ a s b, (∀ t ∈ bs, mine t = false) → bs = a ++ s :: b → (∀ t ∈ a, (d.node t).valid = true) → (d.node s).valid = false →
      (r.proxy = true → ∃ e : Dev, exec .nodeInsert ⟨d, q⟩ = .next ⟨e, q⟩ ∧ e.red.reqs = rest ∧
        e.node s = { Node.zero with valid := true, mac := r.mac, pair := r.pair, seen := d.seenBit r.pair r.port, proxy := true,
                                    cs := (r.seq + 1) % 65536 } ∧
        (∀ t, t ≠ s → e.node t = d.node t) ∧ (∀ c, e.rcv c = d.rcv c) ∧ d.counted e .rnNodeInsert r.pair 1 ∧ e = { d with
          ctrs := e.ctrs, ctrOvf := e.ctrOvf, red := e.red }) ∧
      (r.proxy = false → (∀ c, (d.pairCtx r.pair).1 ≤ c → c ≤ (d.pairCtx r.pair).2 → (d.rcv c).alloc ≠ none) →
        ∃ e : Dev, exec .nodeInsert ⟨d, q⟩ = .next ⟨e, q⟩ ∧ e.red = { d.red with reqs := rest } ∧ d.counted e .rnTableFull r.pair 1 ∧
          e = { d with ctrs := e.ctrs, ctrOvf := e.ctrOvf, red := e.red }) ∧
      (∀ c, r.proxy = false → (d.pairCtx r.pair).1 ≤ c → c ≤ (d.pairCtx r.pair).2 → (d.rcv c).alloc = none →
        (∀ k, (d.pairCtx r.pair).1 ≤ k → k < c → (d.rcv k).alloc ≠ none) →
        (d.pairHsr r.pair = false → ∃ e : Dev, exec .nodeInsert ⟨d, q⟩ = .next ⟨e, q⟩ ∧ e.red.reqs = rest ∧
          e.rcv c = { takeAny := false, recov := r.seq, last := d.now / 10 ^ 6 % 65536, hist := 1, gen := ((d.rcv c).gen + 1) % 256,
                      alloc := some (d.pairIl r.pair, d.pairReset r.pair, none) } ∧
          e.node s = { Node.zero with valid := true, mac := r.mac, pair := r.pair, seen := d.seenBit r.pair r.port, cs := c,
                                      gen := ((d.rcv c).gen + 1) % 256 } ∧
          (∀ t, t ≠ s → e.node t = d.node t) ∧ (∀ k, k ≠ c → e.rcv k = d.rcv k) ∧ d.counted e .rnNodeInsert r.pair 1 ∧
          d.ctrsBut e [Ctr.rnNodeInsert.key r.pair] ∧ e = { d with
            ctrs := e.ctrs, ctrOvf := e.ctrOvf, red := e.red }) ∧
        (∀ g, d.pairHsr r.pair = true → (d.pairRing r.pair).1 ≤ g → g ≤ (d.pairRing r.pair).2 → g ≠ c → (d.rcv g).alloc = none →
          (∀ k, (d.pairRing r.pair).1 ≤ k → k < g → (d.rcv k).alloc ≠ none) →
          ∃ e : Dev, exec .nodeInsert ⟨d, q⟩ = .next ⟨e, q⟩ ∧ e.red.reqs = rest ∧
            (e.rcv c).alloc = some (d.pairIl r.pair, d.pairReset r.pair, none) ∧ (e.rcv c).recov = r.seq ∧ (e.rcv c).hist = 1 ∧
            e.rcv g = { takeAny := false, recov := r.seq, last := d.now / 10 ^ 6 % 65536, hist := 1,
                        gen := ((d.rcv g).gen + 1) % 256, alloc := some (d.pairA r.pair, d.pairReset r.pair, some (d.pairB r.pair)) } ∧
            e.node s = { Node.zero with valid := true, mac := r.mac, pair := r.pair, seen := d.seenBit r.pair r.port, cs := c, ring := g,
                                        gen := ((d.rcv c).gen + 1) % 256, ringGen := ((d.rcv g).gen + 1) % 256 } ∧
            (∀ t, t ≠ s → e.node t = d.node t) ∧ (∀ k, k ≠ c → k ≠ g → e.rcv k = d.rcv k) ∧ d.counted e .rnNodeInsert r.pair 1 ∧
            e = { d with ctrs := e.ctrs, ctrOvf := e.ctrOvf, red := e.red })))

/-- The node sweep, the TAKE_ANY sweep and supervision frames. NODE_SWEEP once a second raises AGE_S of every entry and
removes those older than FORGET_S with their contexts, counted in rn_node_forget. TAKE_ANY_SWEEP once a second sets TAKE_ANY
in exactly the contexts whose elapsed time exceeds RESET_MS. Before their second has passed neither does anything.
SUPERVISION_TX for the RedBox, when due, queues the supervision frame at class 7 on A and on B with the next number of the
pair and counts rn_sup_tx twice. The node and context tables stand in their canonical form, which every step keeps
(TablesStayCanonical). -/
def Obligations.RedundancySweepsAndSupervision : Prop :=
  ∀ (d : Dev) (q : List Instr), d.hold.live = true →
    (d.now < d.red.nodeSweep + 10 ^ 9 → exec .nodeSweep ⟨d, q⟩ = .next ⟨d, q⟩) ∧
    (d.now < d.red.ctxSweep + 10 ^ 9 → exec .takeAnySweep ⟨d, q⟩ = .next ⟨d, q⟩) ∧
    (twf (fun _ => Node.zero) d.red.nodes = true → d.red.nodeSweep + 10 ^ 9 ≤ d.now →
      ∃ e : Dev, exec .nodeSweep ⟨d, q⟩ = .next ⟨e, q⟩ ∧ e.red.nodeSweep = d.now ∧
        (∀ s x, x = d.node s → x ≠ Node.zero → e.node s =
          if d.rd Reg.STRM_RN_CFG.FORGET_S < min 65535 (x.age + 1) then Node.zero else { x with age := min 65535 (x.age + 1) }) ∧
        (∀ s, d.node s = Node.zero → e.node s = Node.zero) ∧
        (∀ s x, x = d.node s → x ≠ Node.zero → x.proxy = false → d.rd Reg.STRM_RN_CFG.FORGET_S < min 65535 (x.age + 1) →
          (e.rcv x.cs).alloc = none ∧ (e.rcv x.cs).takeAny = true ∧ (d.pairHsr x.pair = true → (e.rcv x.ring).alloc = none)) ∧
        (∀ c, (e.rcv c).gen = (d.rcv c).gen) ∧
        (∀ r, d.counted e .rnNodeForget r (d.red.nodes.filter fun x => Ctr.rnNodeForget.key x.2.pair == Ctr.rnNodeForget.key r &&
          decide (d.rd Reg.STRM_RN_CFG.FORGET_S < min 65535 (x.2.age + 1))).length) ∧ e = { d with
            ctrs := e.ctrs, ctrOvf := e.ctrOvf, red := e.red }) ∧
    (twf (fun _ => Rcv.zero) d.red.ctxs = true → d.red.ctxSweep + 10 ^ 9 ≤ d.now →
      ∃ e : Dev, exec .takeAnySweep ⟨d, q⟩ = .next ⟨e, q⟩ ∧ e.red.ctxSweep = d.now ∧
        (∀ c port reset b, d.rcvCfg ((d.rcOwner c).getD 0) c = some (port, reset, b) →
          e.rcv c = if (reset : Int) < diff16 (d.now / 10 ^ 6 % 65536) (d.rcv c).last then { d.rcv c with takeAny := true } else d.rcv c) ∧
        (∀ c, d.rcvCfg ((d.rcOwner c).getD 0) c = none → e.rcv c = d.rcv c) ∧ (∀ s, e.node s = d.node s) ∧
        e.red = { d.red with ctxs := e.red.ctxs, ctxSweep := d.now } ∧ e = { d with red := e.red }) ∧
    (∀ pair k : Nat, k = pair * 2 ^ 17 + 65536 → d.pairActive pair = true → d.pairSupEn pair = true →
      (tget d.red.supAt 0 k = 0 ∨ tget d.red.supAt 0 k + d.pairLife pair * 10 ^ 6 ≤ d.now + 1) → d.findNode pair (d.pairMac pair) = none →
      ∀ n bytes, n = d.rd (Reg.STRM_RN_PAIR_STATUS.SEQ_DEFAULT pair) → bytes = refcs (d.supFrame pair n none ++ List.replicate 4 0) →
      ∃ (e : Dev) (fa fb : Frame) (ca cb : Copy), exec (.supervisionTx pair 65536) ⟨d, q⟩ = .next ⟨e, q⟩ ∧ e.path.frames = d.path.frames ++ [fa, fb] ∧
        e.path.copies = d.path.copies ++ [ca, cb] ∧ fa.bytes = bytes ∧ fb.bytes = bytes ∧ ca.frame = fa.id ∧ cb.frame = fb.id ∧
        ca.dst = d.pairA pair ∧ cb.dst = d.pairB pair ∧ ca.cls = 7 ∧ cb.cls = 7 ∧ ca.queued = true ∧ cb.queued = true ∧
        ca.seq = n ∧ cb.seq = n ∧ e.rd (Reg.STRM_RN_PAIR_STATUS.SEQ_DEFAULT pair) = (n + 1) % 65536 ∧
        tget e.red.supAt 0 k = d.now + 1 ∧ d.counted e .rnSupTx pair 2 ∧ d.counted e .framesOriginated 0 2 ∧
        d.regsBut e [Reg.STRM_RN_PAIR_STATUS.addr pair] ∧
        d.ctrsBut e [Ctr.rnSupTx.key pair, Ctr.framesOriginated.key 0, Ctr.egrQFrames.key (8 * d.pairA pair + 7),
          Ctr.egrQFrames.key (8 * d.pairB pair + 7)] ∧ e = { d with
            regs := e.regs, ctrs := e.ctrs, ctrOvf := e.ctrOvf, red := e.red, path := e.path })

/-- The command flag of a frame after step 9. COMMAND_DECISION of a frame at step 9 completes, and if the frame still stands
afterwards its command flag is set exactly when FLAGS.COMMAND of its header vector is set, or it matches a VALID entry of
the command classifier, or FLAGS.FALLBACK is set and some copy in its forwarding set goes to a protected port. -/
def Obligations.CommandFlagFollowsTheRule : Prop :=
  ∀ (d : Dev) (q : List Instr) (i : Nat) (f : Frame), d.hold.live = true → d.frame i = some f → f.stage = .command →
    (f.sealFound = true → f.ended = true) →
    ∃ e : Dev, exec (.commandDecision [i] []) ⟨d, q⟩ = .next ⟨e, q⟩ ∧
      ∀ g, e.frame i = some g → (g.cmd = true ↔
        f.flagBit 0 = true ∨ (∃ k, k < 64 ∧ d.tabF classTid k 0 31 1 = 1 ∧ d.classMatch f k = true) ∨
        (f.flagBit 12 = true ∧ ∃ n ∈ d.dests f, d.protected_ n = true))

/-- Step 9: unverified frames go on, the screen drops under its reasons, and a frame is staged whole or not at all.
COMMAND_DECISION passes a frame that is not command-flagged, or needs no verification, on to admission with its flag. A
frame that must be verified drops as seal_missing without a trailer, as seal_invalid where a field or its slot refuses it,
as seal_unknown_sender without a context, as seal_time_window outside the window or at or before START_MARK, as seal_replay
where its SEQ is not new; otherwise it takes its blocks in the queue of its lowest protected port, or drops as seal_backlog.
-/
def Obligations.SealScreenAndStaging : Prop :=
  ∀ (d : Dev) (q : List Instr) (i : Nat) (f : Frame), d.hold.live = true → d.frame i = some f → f.stage = .command →
    (f.sealFound = true → f.ended = true) →
    (d.commandFlagged f = false ∨ d.mustVerify f = false → ∃ e : Dev, exec (.commandDecision [i] []) ⟨d, q⟩ = .next ⟨e, q⟩ ∧
      e.frame i = some { f with cmd := d.commandFlagged f, handoff := false, stage := .admission } ∧
      (∀ j, j ≠ i → e.frame j = d.frame j) ∧ e = { d with path := e.path }) ∧
    (d.commandFlagged f = true → d.mustVerify f = true →
      (f.sealFound = false → ∃ e : Dev, exec (.commandDecision [i] []) ⟨d, q⟩ = .next ⟨e, q⟩ ∧ d.counted e .drop 0x10 1 ∧ e = { d with
        regs := e.regs, ctrs := e.ctrs, ctrOvf := e.ctrOvf, wire := e.wire, supv := e.supv, path := e.path,
        deck := e.deck, vat := e.vat }) ∧
      (f.sealFound = true → (f.fieldsOk = false ∨ d.slotAccepts f = false) →
        ∃ e : Dev, exec (.commandDecision [i] []) ⟨d, q⟩ = .next ⟨e, q⟩ ∧ d.counted e .drop 0x11 1 ∧ e = { d with
          regs := e.regs, ctrs := e.ctrs, ctrOvf := e.ctrOvf, wire := e.wire, supv := e.supv, path := e.path,
          deck := e.deck, vat := e.vat }) ∧
      (f.sealFound = true → f.fieldsOk = true → d.slotAccepts f = true →
        (d.findCtx f.ctxKey = none → ∃ e : Dev, exec (.commandDecision [i] []) ⟨d, q⟩ = .next ⟨e, q⟩ ∧ d.counted e .drop 0x12 1 ∧ e = { d with
          regs := e.regs, ctrs := e.ctrs, ctrOvf := e.ctrOvf, wire := e.wire, supv := e.supv, path := e.path,
          deck := e.deck, vat := e.vat }) ∧
        ∀ (s : Nat) (c : SCtx) (t w : Int), d.findCtx f.ctxKey = some s → c = d.sctxAt s →
          t = tNsTotal (d.translate f.ts f.tsTb (d.sealTb f)) → w = d.rd (Reg.SEAL_SLOT_WINDOW.WINDOW_US f.keySlot) * 1000 →
          (d.tbSync (d.sealTb f) = true → (f.sealTime ≤ tget d.time.startMark 0 (d.sealTb f) ∨ f.sealTime < t - w ∨ t + w < f.sealTime) →
            ∃ e : Dev, exec (.commandDecision [i] []) ⟨d, q⟩ = .next ⟨e, q⟩ ∧ d.counted e .drop 0x14 1 ∧ e = { d with
              regs := e.regs, ctrs := e.ctrs, ctrOvf := e.ctrOvf, wire := e.wire, supv := e.supv, path := e.path,
              deck := e.deck, vat := e.vat }) ∧
          (d.tbSync (d.sealTb f) = false → d.flag (Reg.SEAL_SLOT_POLICY.ACCEPT_UNSYNC f.keySlot) = false →
            ∃ e : Dev, exec (.commandDecision [i] []) ⟨d, q⟩ = .next ⟨e, q⟩ ∧ d.counted e .drop 0x14 1 ∧ e = { d with
              regs := e.regs, ctrs := e.ctrs, ctrOvf := e.ctrOvf, wire := e.wire, supv := e.supv, path := e.path,
              deck := e.deck, vat := e.vat }) ∧
          (tget d.time.startMark 0 (d.sealTb f) < f.sealTime →
            (d.tbSync (d.sealTb f) = true ∧ t - w ≤ f.sealTime ∧ f.sealTime ≤ t + w) ∨
              (d.tbSync (d.sealTb f) = false ∧ d.flag (Reg.SEAL_SLOT_POLICY.ACCEPT_UNSYNC f.keySlot) = true) →
            ∀ (fresh : Bool) (n b : Nat), fresh = (if c.empty then decide (c.minSeq ≤ f.sealSeq)
              else decide (c.high < f.sealSeq) || (decide (c.high - f.sealSeq < 64) && !c.window.testBit (c.high - f.sealSeq))) →
            ((∃ m ∈ d.dests f, d.protected_ m = true) → n ∈ d.dests f ∧ d.protected_ n = true ∧
              ∀ m ∈ d.dests f, d.protected_ m = true → n ≤ m) → ((∀ m ∈ d.dests f, d.protected_ m = false) → n = f.port) →
            b = (f.len + 2047) / 2048 →
            (fresh = false → ∃ e : Dev, exec (.commandDecision [i] []) ⟨d, q⟩ = .next ⟨e, q⟩ ∧ d.counted e .drop 0x13 1 ∧
              d.counted e .sealUnsyncPass 0 (if d.tbSync (d.sealTb f) then 0 else 1) ∧ e = { d with
                regs := e.regs, ctrs := e.ctrs, ctrOvf := e.ctrOvf, wire := e.wire, supv := e.supv,
                path := e.path, deck := e.deck, vat := e.vat }) ∧
            (fresh = true → d.rd (Reg.SEAL_Q_BLOCKS.MAX n) < d.qUsed n + b ∨ d.sharedFree < d.needShared n b ∨
                (∀ k, k < 4 → d.clusterUp k = false) →
              ∃ e : Dev, exec (.commandDecision [i] []) ⟨d, q⟩ = .next ⟨e, q⟩ ∧ d.counted e .drop 0x16 1 ∧ d.counted e .sealQBacklog n 1 ∧ e = { d with
                regs := e.regs, ctrs := e.ctrs, ctrOvf := e.ctrOvf, wire := e.wire, supv := e.supv,
                path := e.path, deck := e.deck, vat := e.vat }) ∧
            (∀ bs v k, fresh = true → d.qUsed n + b ≤ d.rd (Reg.SEAL_Q_BLOCKS.MAX n) → d.needShared n b ≤ d.sharedFree →
              k < 4 → d.clusterUp k = true → d.hbmUp 0 = true → d.vat.sealP.takeN 16384 b = some (bs, v) →
              ∃ (e : Dev) (g : Frame), exec (.commandDecision [i] []) ⟨d, q⟩ = .next ⟨e, q⟩ ∧ e.frame i = some g ∧ g.stage = .staged ∧ g.cmd = true ∧
                g.blocks = bs ∧ g.sealQ = n ∧ g.slot = f.keySlot ∧ g.sealCtx = f.ctxKey ∧ g.cells = [] ∧
                g.order9 = e.path.nextStep9 ∧ e.path.nextStep9 = d.path.nextStep9 + 1 ∧ e.qUsed n = d.qUsed n + b ∧
                d.counted e .sealStaged n 1 ∧ d.counted e .sealUnsyncPass 0 (if d.tbSync (d.sealTb f) then 0 else 1) ∧
                e.sctxAt s = c ∧ e = { d with
                  regs := e.regs, ctrs := e.ctrs, ctrOvf := e.ctrOvf, wire := e.wire, supv := e.supv,
                  path := e.path, deck := e.deck, vat := e.vat })))) 

/-- Engine grants, verification with the replay commit, and release in context order. ENGINE_GRANT starts a free engine of a
cluster in service on the oldest frame of the next queue in rotation below its reservation, or of the next that waits where
none is, and reads GEN; with none waiting nothing happens. SEAL_VERIFY_DONE drops a wrong TAG as seal_invalid, a removed
context as seal_unknown_sender and a SEQ no longer new as seal_replay; otherwise it moves the window of the context and
marks the frame verified. RELEASE_TO_ADMISSION waits for earlier frames of the context, writes the frame back into cells of
the bank, whole, or drops it as cell_exhausted. -/
def Obligations.EnginesVerifyInTurn : Prop :=
  (∀ (d : Dev) (q : List Instr) (ed : Bool) (n : Nat), d.hold.live = true → n < (if ed then 32 else 16) →
    d.clusterUp (engineCluster ed n) = true → d.engineHolds ed n = none →
    ((∀ k, k < 259 → d.waitingIn ed k = []) → exec (.engineGrant ed n) ⟨d, q⟩ = .next ⟨d, q⟩) ∧
    ∀ (j m from_ : Nat) (f : Frame), from_ = tget d.deck.lastQ 0 (kindKey ed) → j < 259 → m = (from_ + j) % 259 →
      f ∈ d.waitingIn ed m → (∀ g ∈ d.waitingIn ed m, g ≠ f → f.order9 < g.order9) →
      ((d.qGrants ed m < d.qRes ed m ∧ ∀ k, k < j → d.waitingIn ed ((from_ + k) % 259) = [] ∨
          d.qRes ed ((from_ + k) % 259) ≤ d.qGrants ed ((from_ + k) % 259)) ∨
        ((∀ k, k < 259 → d.waitingIn ed k = [] ∨ d.qRes ed k ≤ d.qGrants ed k) ∧
          ∀ k, k < j → d.waitingIn ed ((from_ + k) % 259) = [])) →
      ∃ e : Dev, exec (.engineGrant ed n) ⟨d, q⟩ = .next ⟨e, q⟩ ∧
        e.frame f.id = some { f with stage := .verifying ed n, gen := d.rd (Reg.SEAL_KEY_STATUS.GEN f.slot) } ∧
        (∀ k, k ≠ f.id → e.frame k = d.frame k) ∧ tget e.deck.lastQ 0 (kindKey ed) = (m + 1) % 259 ∧
        tget e.deck.held [] (64 * kindKey ed + n) = d.keyOf f.slot ∧ e = { d with
          path := e.path, deck := e.deck }) ∧
  (∀ (d : Dev) (q : List Instr) (ed : Bool) (n : Nat) (f : Frame), d.hold.live = true → d.engineHolds ed n = some f →
    (f.tagOk (tget d.deck.held [] (64 * kindKey ed + n)) = false →
      ∃ e : Dev, exec (.sealVerifyDone ed n) ⟨d, q⟩ = .next ⟨e, q⟩ ∧ d.counted e .drop 0x11 1 ∧ d.counted e .sealTagFail f.slot 1 ∧
        (∀ s, e.sctxAt s = d.sctxAt s) ∧ e = { d with
          regs := e.regs, ctrs := e.ctrs, ctrOvf := e.ctrOvf, wire := e.wire, supv := e.supv, path := e.path,
          deck := e.deck, vat := e.vat }) ∧
    (f.tagOk (tget d.deck.held [] (64 * kindKey ed + n)) = true →
      (d.findCtx f.sealCtx = none → ∃ e : Dev, exec (.sealVerifyDone ed n) ⟨d, q⟩ = .next ⟨e, q⟩ ∧ d.counted e .drop 0x12 1 ∧
        (∀ s, e.sctxAt s = d.sctxAt s) ∧ e = { d with
          regs := e.regs, ctrs := e.ctrs, ctrOvf := e.ctrOvf, wire := e.wire, supv := e.supv, path := e.path,
          deck := e.deck, vat := e.vat }) ∧
      ∀ (s : Nat) (c : SCtx) (fresh : Bool), d.findCtx f.sealCtx = some s → c = d.sctxAt s → fresh = (if c.empty then
          decide (c.minSeq ≤ f.sealSeq)
        else decide (c.high < f.sealSeq) || (decide (c.high - f.sealSeq < 64) && !c.window.testBit (c.high - f.sealSeq))) →
        (fresh = false → ∃ e : Dev, exec (.sealVerifyDone ed n) ⟨d, q⟩ = .next ⟨e, q⟩ ∧ d.counted e .drop 0x13 1 ∧
          (∀ s, e.sctxAt s = d.sctxAt s) ∧ e = { d with
            regs := e.regs, ctrs := e.ctrs, ctrOvf := e.ctrOvf, wire := e.wire, supv := e.supv, path := e.path,
            deck := e.deck, vat := e.vat }) ∧
        (fresh = true → ∃ e : Dev, exec (.sealVerifyDone ed n) ⟨d, q⟩ = .next ⟨e, q⟩ ∧
          e.frame f.id = some { f with ver := true, stage := .verified } ∧ (∀ k, k ≠ f.id → e.frame k = d.frame k) ∧
          d.counted e .sealVerified f.slot 1 ∧ (∀ t, t ≠ s → e.sctxAt t = d.sctxAt t) ∧ (e.sctxAt s).empty = false ∧
          (e.sctxAt s).high = (if c.empty then f.sealSeq else max c.high f.sealSeq) ∧
          (∀ k, k < 64 → (e.sctxAt s).window.testBit k = (if c.empty then k == 0
            else if c.high < f.sealSeq then k == 0 || (decide (f.sealSeq - c.high ≤ k) && c.window.testBit (k - (f.sealSeq - c.high)))
            else c.window.testBit k || k == c.high - f.sealSeq)) ∧ e = { d with
              ctrs := e.ctrs, ctrOvf := e.ctrOvf, path := e.path, deck := e.deck }))) ∧
  (∀ (d : Dev) (q : List Instr) (i : Nat) (f : Frame), d.hold.live = true → d.frame i = some f → f.stage = .verified →
    ((∃ g ∈ d.path.frames, g.inDeckle = true ∧ g.sealCtx = f.sealCtx ∧ g.order9 < f.order9) →
      exec (.releaseToAdmission i) ⟨d, q⟩ = .next ⟨d, q⟩) ∧
    ((∀ g ∈ d.path.frames, g.inDeckle = true → g.sealCtx = f.sealCtx → f.order9 ≤ g.order9) →
      ((d.bank f.pipe).allocable < cellsOf f.len → ∃ e : Dev, exec (.releaseToAdmission i) ⟨d, q⟩ = .next ⟨e, q⟩ ∧
        d.counted e .drop 0x21 1 ∧ d.counted e .lastElementContest f.pipe 1 ∧ e = { d with
          regs := e.regs, ctrs := e.ctrs, ctrOvf := e.ctrOvf, wire := e.wire, supv := e.supv, path := e.path,
          deck := e.deck, vat := e.vat }) ∧
      (d.bank f.pipe = Bank.zero → f.ended = true → f.err = 0 → cellsOf f.len ≤ maxCells →
        ∃ (e : Dev) (g : Frame), exec (.releaseToAdmission i) ⟨d, q⟩ = .next ⟨e, q⟩ ∧ e.frame i = some g ∧ g.stage = .admission ∧ g.blocks = [] ∧
          g.cells = List.range (cellsOf f.len) ∧ g.ver = f.ver ∧ g.gen = f.gen ∧ (∀ j, j ≠ i → e.frame j = d.frame j) ∧
          e.qUsed f.sealQ = d.qUsed f.sealQ - f.blocks.length ∧ e = { d with
            regs := e.regs, path := e.path, deck := e.deck, vat := e.vat })))

/-- Summary records of suppressed reports, a cluster fault and its reset. SEAL_LOG_SUMMARY writes one record with a port and
the number of reports suppressed, at most once a second. CLUSTER_FAULT of a cluster in service, another staying in service,
takes it out, sets FAULT, counts it, raises the alarm and puts the frames its engines held back to waiting. CLUSTER_RESET
with a supervisor running returns a faulted cluster to service at once when its domain is powered, else asks for its tokens;
without a supervisor nothing happens. -/
def Obligations.ClustersAndSealSummaries : Prop :=
  (∀ (d : Dev) (q : List Instr) (n m : Nat), d.hold.live = true → m = tget d.deck.supp 0 n → m ≠ 0 →
    (tget d.deck.summAt 0 n ≠ 0 → d.now + 1 < tget d.deck.summAt 0 n + 10 ^ 9 → exec (.sealLogSummary n) ⟨d, q⟩ = .next ⟨d, q⟩) ∧
    ((tget d.deck.summAt 0 n = 0 ∨ tget d.deck.summAt 0 n + 10 ^ 9 ≤ d.now + 1) →
      ∃ e : Dev, exec (.sealLogSummary n) ⟨d, q⟩ = .next ⟨e, q⟩ ∧ tget e.deck.supp 0 n = 0 ∧ tget e.deck.summAt 0 n = d.now + 1 ∧
        e.supv.logQ = d.queued ⟨0x60FF, 4, 0, 0, true, le 2 n ++ le 4 m⟩ ∧
        e.deck = { d.deck with supp := e.deck.supp, summAt := e.deck.summAt } ∧ e = { d with
          ctrs := e.ctrs, ctrOvf := e.ctrOvf, supv := e.supv, deck := e.deck })) ∧
  (∀ (d : Dev) (q : List Instr) (c cause : Nat), d.hold.live = true → c < 4 → d.clusterUp c = true →
    (∃ k, k < 4 ∧ k ≠ c ∧ d.clusterUp k = true) →
    ∃ e : Dev, exec (.clusterFault c cause) ⟨d, q⟩ = .next ⟨e, q⟩ ∧ e.clusterUp c = false ∧ e.flag (Reg.SEAL_CLU_STATUS.FAULT c) = true ∧
      d.maskBit e Reg.SEAL_STATUS.CLU_UP c false ∧ e.bitOf Reg.SUPV_ALM.ALM2_SRC 4 = true ∧ d.counted e .sealClusterFault 0 1 ∧
      (∀ f ∈ d.path.frames, ∀ ed n, f.stage = .verifying ed n → engineCluster ed n = c → { f with stage := .staged } ∈ e.path.frames) ∧
      (∀ f ∈ d.path.frames, (∀ ed n, f.stage = .verifying ed n → engineCluster ed n ≠ c) → f ∈ e.path.frames) ∧
      (∀ s, e.sctxAt s = d.sctxAt s) ∧
      d.regsBut e [Reg.SEAL_CLU_STATUS.addr c, Reg.SEAL_STATUS.addr, Reg.SUPV_ALM.addr, Reg.HOST_INT_STATUS.addr,
        Reg.PWCK_DOM_STATUS.addr (80 + c)] ∧ e = { d with
          regs := e.regs, ctrs := e.ctrs, ctrOvf := e.ctrOvf, wire := e.wire, supv := e.supv, power := e.power,
          deck := e.deck, path := e.path }) ∧
  (∀ (d : Dev) (q : List Instr) (c : Nat), d.hold.live = true →
    (d.supRunning = false → exec (.clusterReset c) ⟨d, q⟩ = .next ⟨d, q⟩) ∧
    (d.supRunning = true → tget d.deck.faultAt 0 c = 1 →
      (c < 4 → d.holdsTokens (80 + c) = true → d.rd (Reg.PWCK_DOM_STATUS.STATE (80 + c)) = 2 →
        ∃ e : Dev, exec (.clusterReset c) ⟨d, q⟩ = .next ⟨e, q⟩ ∧ e.clusterUp c = true ∧ d.maskBit e Reg.SEAL_STATUS.CLU_UP c true ∧
          tget e.deck.faultAt 0 c = 0 ∧ d.regsBut e [Reg.SEAL_CLU_STATUS.addr c, Reg.SEAL_STATUS.addr] ∧ e = { d with
            regs := e.regs, deck := e.deck }) ∧
      (d.hold_ (80 + c) = none → (∀ r ∈ d.power.waiting, r.holder ≠ 80 + c) →
        ∃ e : Dev, exec (.clusterReset c) ⟨d, q⟩ = .next ⟨e, q⟩ ∧
          e.power.waiting = d.power.waiting ++ [⟨80 + c, 0, holderNeeds (80 + c), []⟩] ∧ tget e.deck.faultAt 0 c = 0 ∧
          e = { d with power := e.power, deck := e.deck })))

/-- Cells fill during reception, admission checks and links, and a copy releases its references. CELL_WRITE of the first
bytes of a frame on a MAC begins it and writes the cells that have filled. ADMISSION drops a frame of one copy under the
first check that refuses it; a frame of which every copy passes gets a copy per destination in order, REFCNT of each of its
cells is their number, and IC and EC are charged. COPY_RELEASE takes one reference from the cell and returns it, with its
charge, when none is left; a decrement of zero counts refcnt_error. Frame numbers stay fresh (FrameNumbersStayFresh). -/
def Obligations.CellsAdmissionAndRelease : Prop :=
  (∀ (d : Dev) (q : List Instr) (n m ago : Nat) (b : List Byte), d.hold.live = true → (∀ f ∈ d.path.frames, f.id < d.path.nextFrame) →
    d.receives n = true → m < 2 → d.openRx n m = none → b ≠ [] → isControl b = false → b.length ≤ 12288 → b.length ≤ d.maxFrame n →
    d.bank (pipeOf n) = Bank.zero →
    ∃ (e : Dev) (g : Frame), exec (.cellWrite [(n, m, ago, b)]) ⟨d, q⟩ = .next ⟨e, q⟩ ∧ e.frame d.path.nextFrame = some g ∧ g.port = n ∧ g.mac = m ∧
      g.bytes = b ∧ g.ended = false ∧ g.stage = .receiving ∧ g.ts = d.ingressStamp n ago ∧
      g.cells = List.range (if b.length < 104 then 0 else 1 + (b.length - 104) / 120) ∧
      (∀ j, j ≠ d.path.nextFrame → e.frame j = d.frame j) ∧ e = { d with path := e.path, vat := e.vat }) ∧
  (∀ (d : Dev) (q : List Instr) (i b : Nat) (f : Frame), d.hold.live = true → d.frame i = some f → f.stage = .admission →
    b = (if f.ended then cellsOf f.len else f.cells.length) →
    (∀ m c s, d.wants f = [(m, c, s)] →
      (d.quarantined m = true → ∃ e : Dev, exec (.admission i) ⟨d, q⟩ = .next ⟨e, q⟩ ∧ d.counted e .drop 0x45 1 ∧ e = { d with
        regs := e.regs, ctrs := e.ctrs, ctrOvf := e.ctrOvf, wire := e.wire, supv := e.supv, path := e.path,
        deck := e.deck, vat := e.vat }) ∧
      (d.quarantined m = false → d.adminUp m = true →
        (d.downDrop m = true ∨ (f.cmd = true ∧ m ≠ 258 ∧ d.flag (Reg.PORT_STATUS.HOLD m) = true)) →
        ∃ e : Dev, exec (.admission i) ⟨d, q⟩ = .next ⟨e, q⟩ ∧ d.counted e .drop 0x41 1 ∧ e = { d with
          regs := e.regs, ctrs := e.ctrs, ctrOvf := e.ctrOvf, wire := e.wire, supv := e.supv, path := e.path,
          deck := e.deck, vat := e.vat }) ∧
      (d.copyRefused f m = none → d.ingressLim f < d.ic f.port f.cls + b ∨ d.egressLim f m c < d.ec f.pipe m c + b →
        ∃ e : Dev, exec (.admission i) ⟨d, q⟩ = .next ⟨e, q⟩ ∧ d.counted e .drop 0x20 1 ∧ e = { d with
          regs := e.regs, ctrs := e.ctrs, ctrOvf := e.ctrOvf, wire := e.wire, supv := e.supv, path := e.path,
          deck := e.deck, vat := e.vat })) ∧
    (d.wants f ≠ [] → (∀ w ∈ d.wants f, d.copyRefused f w.1 = none ∧ d.ec f.pipe w.1 w.2.1 + b ≤ d.egressLim f w.1 w.2.1 ∧
        d.deepClass w.2.1 = false) → ((d.wants f).map fun w => (w.1, w.2.1)).Nodup → f.cls < 8 →
      d.ic f.port f.cls + b ≤ d.ingressLim f →
      ∃ (e : Dev) (cs : List Copy), exec (.admission i) ⟨d, q⟩ = .next ⟨e, q⟩ ∧
        e.frame i = some { f with stage := .linked, pend := false, kept := (d.wants f).length } ∧
        e.path.copies = d.path.copies ++ cs ∧ cs.map (fun c => (c.dst, c.cls)) = (d.wants f).map (fun w => (w.1, w.2.1)) ∧
        (∀ c ∈ cs, c.frame = i ∧ c.src = f.src ∧ c.read = false ∧ c.sent = 0) ∧
        (∀ k ∈ f.cells, ((e.bank f.pipe).link k).ref = (d.wants f).length) ∧
        (∀ w ∈ d.wants f, e.ec f.pipe w.1 w.2.1 = d.ec f.pipe w.1 w.2.1 + f.cells.length) ∧
        e.ic f.port f.cls = d.ic f.port f.cls + f.cells.length ∧
        e.ctr .copiesCreated 0 = (d.ctr .copiesCreated 0 + ((d.wants f).length - 1)) % 2 ^ 64 ∧
        (∀ j, j ≠ i → e.frame j = d.frame j) ∧ e = { d with
          regs := e.regs, ctrs := e.ctrs, ctrOvf := e.ctrOvf, wire := e.wire, ports := e.ports, path := e.path,
          vat := e.vat })) ∧
  (∀ (d : Dev) (q : List Instr) (i k n : Nat) (c : Copy) (f : Frame), d.hold.live = true → d.copy i = some c → c.out = true →
    c.read = false → d.frame c.frame = some f → f.cells = [k] → n = ((d.bank f.pipe).link k).ref →
    (2 ≤ n → ∃ e : Dev, exec (.copyRelease i 0) ⟨d, q⟩ = .next ⟨e, q⟩ ∧ ((e.bank f.pipe).link k).ref = n - 1 ∧
      ((e.bank f.pipe).link k).free = ((d.bank f.pipe).link k).free ∧ e.ec f.pipe c.dst c.cls = d.ec f.pipe c.dst c.cls - 1 ∧
      e.ic f.port f.cls = d.ic f.port f.cls ∧ e.copy i = some { c with read := true } ∧ e = { d with
        path := e.path, vat := e.vat }) ∧
    (n = 1 → k < bankCells → ((d.bank f.pipe).link k).free = false →
      ∃ e : Dev, exec (.copyRelease i 0) ⟨d, q⟩ = .next ⟨e, q⟩ ∧ (e.bank f.pipe).link k = Link.zero ∧
        (e.bank f.pipe).used = (d.bank f.pipe).used - 1 ∧
        tget (e.bank f.pipe).sub FreeList.zero (k % 32) = (tget (d.bank f.pipe).sub FreeList.zero (k % 32)).put (k / 32) ∧
        e.ec f.pipe c.dst c.cls = d.ec f.pipe c.dst c.cls - 1 ∧
        e.ic f.port f.cls = d.ic f.port f.cls - (if f.refilled then 0 else 1) ∧ e.copy i = some { c with read := true } ∧
        e = { d with
          regs := e.regs, ctrs := e.ctrs, ctrOvf := e.ctrOvf, wire := e.wire, ports := e.ports, path := e.path,
          vat := e.vat }) ∧
    (n = 0 → ((d.bank f.pipe).link k).free = true → ∃ e : Dev, exec (.copyRelease i 0) ⟨d, q⟩ = .next ⟨e, q⟩ ∧
      d.counted e .refcntError f.pipe 1 ∧ e.bank f.pipe = d.bank f.pipe ∧ e.copy i = some { c with read := true } ∧
      e = { d with ctrs := e.ctrs, ctrOvf := e.ctrOvf, path := e.path, vat := e.vat }))

/-- The bank sweep, a list rebuild, the cache of a privileged Vat and a failed HBM stack. BANK_SWEEP counts a corrected
error; an uncorrectable first word of a free cell, a used cell on a free list or a bad pointer is counted or reported and
takes the sub-bank out of allocation for a rebuild; an uncorrectable link entry then holds a free value (log entry 4), for
every value of it. LIST_REBUILD_DONE leaves on the list exactly the cells whose FREE bit is set, in index order.
PRIV_CACHE_REFILL fills a cache below half full and loses no entry. HBM_STACK_FAIL marks a stack failed by a PHY fault with
no free blocks. Link tables stay canonical (TablesStayCanonical). -/
def Obligations.BanksAndStacksSurviveFaults : Prop :=
  (∀ (d : Dev) (q : List Instr) (p k : Nat), d.hold.live = true → p < 4 → k < bankCells →
    (∃ e : Dev, exec (.bankSweep p [(0, k)]) ⟨d, q⟩ = .next ⟨e, q⟩ ∧ d.counted e .cellEccCorrected p 1 ∧
      d.ctrsBut e [Ctr.cellEccCorrected.key p] ∧ e = { d with ctrs := e.ctrs, ctrOvf := e.ctrOvf }) ∧
    (((d.bank p).link k).free = true → tget (d.bank p).rebuild 0 (k % 32) = 0 →
      ∃ e : Dev, exec (.bankSweep p [(1, k)]) ⟨d, q⟩ = .next ⟨e, q⟩ ∧ d.counted e .cellEccUncorrectable p 1 ∧ d.counted e .listRebuild p 1 ∧
        tget (e.bank p).rebuild 0 (k % 32) = d.now + 1 ∧ e.flag (Reg.BUFF_BANK_PEND.REBUILDING p) = true ∧
        e.flag (Reg.BUFF_BANK_ERR.VALID p) = true ∧
        (d.flag (Reg.BUFF_BANK_ERR.VALID p) = false → e.rd (Reg.BUFF_BANK_ERR.CELL p) = k ∧ e.flag (Reg.BUFF_BANK_ERR.LINK p) = false) ∧
        e.bitOf Reg.SUPV_ALM.ALM0_SRC 1 = true ∧
        d.regsBut e [Reg.BUFF_BANK_ERR.addr p, Reg.BUFF_BANK_PEND.addr p, Reg.SUPV_ALM.addr, Reg.HOST_INT_STATUS.addr] ∧
        e = { d with
          regs := e.regs, ctrs := e.ctrs, ctrOvf := e.ctrOvf, wire := e.wire, supv := e.supv, vat := e.vat }) ∧
    (∃ (e : Dev) (v : Nat), v = Config.freeValue d.free ∧ exec (.bankSweep p [(2, k)]) ⟨d, q⟩ = .next ⟨e, q⟩ ∧
      d.counted e .cellEccUncorrectable p 1 ∧ e.free = d.free + 1 ∧
      (e.bank p).link k = { next := v / 2 ^ 12 % 2 ^ 18, ref := v % 2 ^ 10, free := v.testBit 10, last := v.testBit 11 } ∧
      (∀ j, j ≠ k → (e.bank p).link j = (d.bank p).link j) ∧ e = { d with
        free := e.free, regs := e.regs, ctrs := e.ctrs, ctrOvf := e.ctrOvf, wire := e.wire, supv := e.supv,
        vat := e.vat }) ∧
    (((d.bank p).link k).free = false → tget (d.bank p).rebuild 0 (k % 32) = 0 →
      ∃ e : Dev, exec (.bankSweep p [(3, k)]) ⟨d, q⟩ = .next ⟨e, q⟩ ∧ d.counted e .listRebuild p 1 ∧
        tget (e.bank p).rebuild 0 (k % 32) = d.now + 1 ∧ d.regsBut e [Reg.BUFF_BANK_PEND.addr p] ∧ e = { d with
          regs := e.regs, ctrs := e.ctrs, ctrOvf := e.ctrOvf, vat := e.vat }) ∧
    (∃ e : Dev, exec (.bankSweep p [(4, k)]) ⟨d, q⟩ = .next ⟨e, q⟩ ∧ d.counted e .pointerCheckEvents p 1 ∧
      tget (e.bank p).rebuild 0 (k % 32) ≠ 0 ∧ e.flag Reg.BUFF_PTR_ERR.VALID = true ∧
      (d.flag Reg.BUFF_PTR_ERR.VALID = false → e.rd Reg.BUFF_PTR_ERR.STORE = p ∧ e.rd Reg.BUFF_PTR_ERR.VALUE = k) ∧
      e.bitOf Reg.SUPV_ALM.ALM0_SRC 2 = true ∧ e = { d with
        regs := e.regs, ctrs := e.ctrs, ctrOvf := e.ctrOvf, wire := e.wire, supv := e.supv, vat := e.vat })) ∧
  (∀ (d : Dev) (q : List Instr) (p s : Nat), d.hold.live = true → p < 4 → s < 32 → tget (d.bank p).rebuild 0 s ≠ 0 →
    twf (fun _ => Link.zero) (d.bank p).links = true →
    ∃ (e : Dev) (fl : FreeList), exec (.listRebuildDone p s) ⟨d, q⟩ = .next ⟨e, q⟩ ∧ tget (e.bank p).rebuild 0 s = 0 ∧
      tget (e.bank p).sub FreeList.zero s = fl ∧ fl.pushed.Pairwise (· < ·) ∧ (∀ r ∈ fl.pushed, r < fl.fresh) ∧
      (∀ r, r < subRows → ((r ∈ fl.pushed ∨ fl.fresh ≤ r) ↔ ((d.bank p).link (32 * r + s)).free = true)) ∧
      (∀ k, (e.bank p).link k = (d.bank p).link k) ∧ (∀ r, r ≠ p → e.bank r = d.bank r) ∧ e = { d with
        regs := e.regs, vat := e.vat }) ∧
  (∀ (d : Dev) (q : List Instr), d.hold.live = true →
    (64 ≤ d.vat.sealP.cache.length → exec (.privCacheRefill 0 []) ⟨d, q⟩ = .next ⟨d, q⟩) ∧
    (d.vat.sealP.cache.length < 64 → d.hbmUp 0 = true ∨ d.hbmUp 1 = true →
      ∃ (e : Dev) (l : List Nat), exec (.privCacheRefill 0 []) ⟨d, q⟩ = .next ⟨e, q⟩ ∧ e.vat.sealP.cache = d.vat.sealP.cache ++ l ∧
        l.length = min (128 - d.vat.sealP.cache.length) (d.vat.sealP.ring.count 16384) ∧
        e.vat.sealP.ring.count 16384 = d.vat.sealP.ring.count 16384 - l.length ∧ e.vat = { d.vat with sealP := e.vat.sealP } ∧
        e = { d with vat := e.vat })) ∧
  (∀ (d : Dev) (q : List Instr) (s : Nat), d.hold.live = true → s < 2 → d.flag (Reg.BUFF_HBM_STATUS.FAILED s) = false →
    d.flag (Reg.BUFF_HBM_STATUS.FAILED (1 - s)) = false →
    ∃ e : Dev, exec (.hbmStackFail s) ⟨d, q⟩ = .next ⟨e, q⟩ ∧ e.flag (Reg.BUFF_HBM_STATUS.FAILED s) = true ∧
      e.rd (Reg.BUFF_HBM_STATUS.CAUSE s) = 2 ∧ (∀ v, v < 3 → e.rd (Reg.BUFF_VAT_FREE.FREE v s) = 0) ∧
      (∀ v, v < 3 → e.rd (Reg.BUFF_VAT_FREE.FREE v (1 - s)) = d.rd (Reg.BUFF_VAT_FREE.FREE v (1 - s))) ∧
      e.flag (Reg.BUFF_HBM_STATUS.FAILED (1 - s)) = false ∧ e.bitOf Reg.SUPV_ALM.ALM2_SRC 1 = true ∧
      e.vat.sealP = d.vat.sealP ∧ e.vat.supP = d.vat.supP ∧ e = { d with
        regs := e.regs, ctrs := e.ctrs, ctrOvf := e.ctrOvf, wire := e.wire, supv := e.supv, power := e.power,
        vat := e.vat })

/-- Spill into the smallest Vat that fits, completion, refill and the return of a burst. SPILL with a grant takes the head
of the queue: beyond DEEP_LIMIT the frame drops as admission_limit; else it takes a block of its Vat from the stack with
more free blocks; an empty Vat passes it on, counted in spill_fallback; with VAT_L empty it drops as spill_exhausted.
SPILL_COMPLETE releases the cells. REFILL drops a frame of a failed stack as pointer_check or an aged one as
egress_age_limit, waits for cells, or allocates them; REFILL_DONE returns the block and makes the entry resident, or drops
it on an uncorrectable error. SPILL_BURST_RETURN returns the grant of an engine idle for 10 us. Copy numbers are distinct
(FrameNumbersStayFresh). -/
def Obligations.SpilledFramesComeAndGo : Prop :=
  (∀ (d : Dev) (q : List Instr) (p i : Nat) (rest : List Nat) (c : Copy) (f : Frame), d.hold.live = true → p < 4 →
    d.holdsTokens (96 + p) = true → tget d.vat.spillQ [] p = i :: rest → d.copy i = some c → d.frame c.frame = some f →
    (d.rd (Reg.BUFF_CLASS_DEEP.DEEP_LIMIT c.cls) * 65536 < d.voqStored c + f.len + 16 →
      ∃ e : Dev, exec (.spill [p] []) ⟨d, q⟩ = .next ⟨e, q⟩ ∧ d.counted e .drop 0x20 1 ∧ e.copy i = none) ∧
    (d.voqStored c + f.len + 16 ≤ d.rd (Reg.BUFF_CLASS_DEEP.DEEP_LIMIT c.cls) * 65536 →
      ∀ v s, v = (if f.len ≤ 496 then 0 else if f.len ≤ 2032 then 1 else 2) → s = (if d.vatFree v 0 < d.vatFree v 1 then 1 else 0) →
      (∀ b fl, d.vatFree v s ≠ 0 → (d.vatHalf v s).take (d.vatBlocks v) = some (b, fl) →
        ∃ e : Dev, exec (.spill [p] []) ⟨d, q⟩ = .next ⟨e, q⟩ ∧ e.copy i = some { c with spill := .writing, block := some (v, s, b) } ∧
          e.vatFree v s = d.vatFree v s - 1 ∧ e.vatHalf v s = fl ∧ tget e.vat.spillQ [] p = rest ∧
          d.regsBut e [Reg.BUFF_VAT_FREE.addr v s] ∧ e = { d with regs := e.regs, path := e.path, vat := e.vat }) ∧
      (∀ b fl t, v = 0 → d.vatFree 0 0 = 0 → d.vatFree 0 1 = 0 → t = (if d.vatFree 1 0 < d.vatFree 1 1 then 1 else 0) →
        d.vatFree 1 t ≠ 0 → (d.vatHalf 1 t).take (d.vatBlocks 1) = some (b, fl) →
        ∃ e : Dev, exec (.spill [p] []) ⟨d, q⟩ = .next ⟨e, q⟩ ∧ e.copy i = some { c with spill := .writing, block := some (1, t, b) } ∧
          d.counted e .spillFallback p 1 ∧ d.regsBut e [Reg.BUFF_VAT_FREE.addr 1 t] ∧ e = { d with
            regs := e.regs, ctrs := e.ctrs, ctrOvf := e.ctrOvf, path := e.path, vat := e.vat }) ∧
      ((∀ w t, w < 3 → t < 2 → d.vatFree w t = 0) → ∃ e : Dev, exec (.spill [p] []) ⟨d, q⟩ = .next ⟨e, q⟩ ∧ d.counted e .drop 0x22 1 ∧
        e.copy i = none ∧ d.counted e .spillFallback p (2 - v)))) ∧
  (∀ (d : Dev) (q : List Instr) (i : Nat) (c : Copy) (f : Frame), d.hold.live = true → d.copy i = some c → c.spill = .writing →
    c.read = false → d.frame c.frame = some f →
    ∃ e : Dev, exec (.spillComplete i) ⟨d, q⟩ = .next ⟨e, q⟩ ∧ e.copy i = some { c with spill := .spilled, read := true } ∧
      d.counted e .spillFrames c.pipe 1 ∧ e.ec f.pipe c.dst c.cls = d.ec f.pipe c.dst c.cls - f.cells.length ∧
      e = { d with
        regs := e.regs, ctrs := e.ctrs, ctrOvf := e.ctrOvf, wire := e.wire, supv := e.supv, ports := e.ports,
        path := e.path, vat := e.vat }) ∧
  (∀ (d : Dev) (q : List Instr) (p i v s b : Nat) (rest : List Nat) (c : Copy) (f : Frame), d.hold.live = true → p < 4 →
    tget d.vat.refillQ [] p = i :: rest → d.copy i = some c → d.frame c.frame = some f → c.block = some (v, s, b) →
    (d.flag (Reg.BUFF_HBM_STATUS.FAILED s) = true → ∃ e : Dev, exec (.refill p) ⟨d, q⟩ = .next ⟨e, q⟩ ∧ d.counted e .drop 0x23 1 ∧
      d.counted e .hbmLostFrames s 1 ∧ e.copy i = none) ∧
    (d.flag (Reg.BUFF_HBM_STATUS.FAILED s) = false → d.overAge f c = true → ∃ e : Dev, exec (.refill p) ⟨d, q⟩ = .next ⟨e, q⟩ ∧
      d.counted e .drop 0x40 1 ∧ d.counted e .ageDrop (8 * c.dst + c.cls) 1 ∧ e.copy i = none) ∧
    (d.flag (Reg.BUFF_HBM_STATUS.FAILED s) = false → d.overAge f c = false → (d.bank p).allocable < cellsOf f.len →
      ∃ e : Dev, exec (.refill p) ⟨d, q⟩ = .next ⟨e, q⟩ ∧ (tget e.vat.refillQ [] p).head? = some i ∧
        d.counted e .lastElementContest p 1 ∧ e = { d with ctrs := e.ctrs, ctrOvf := e.ctrOvf, vat := e.vat }) ∧
    (d.flag (Reg.BUFF_HBM_STATUS.FAILED s) = false → d.overAge f c = false → d.bank p = Bank.zero → f.pipe = p → f.stage = .linked →
      f.ended = true → f.err = 0 → cellsOf f.len ≤ maxCells → d.copiesOf f.id = [c] →
      (d.path.copies.map Copy.id).Nodup →
      ∃ (e : Dev) (g : Frame) (k : Copy), exec (.refill p) ⟨d, q⟩ = .next ⟨e, q⟩ ∧ e.frame f.id = some g ∧
        g.cells = List.range (cellsOf f.len) ∧ g.refilled = true ∧ e.copy i = some k ∧ k.spill = .refilling ∧ k.read = false ∧
        (∀ j, j < cellsOf f.len → ((e.bank p).link j).ref = 1) ∧
        e.ec p c.dst c.cls = d.ec p c.dst c.cls + cellsOf f.len ∧ (∀ n c, e.ic n c = d.ic n c) ∧ e = { d with
          path := e.path, vat := e.vat })) ∧
  (∀ (d : Dev) (q : List Instr) (i v s b : Nat) (c : Copy), d.hold.live = true → d.copy i = some c → c.spill = .refilling →
    c.block = some (v, s, b) → d.flag (Reg.BUFF_HBM_STATUS.FAILED s) = false →
    (d.blockOk v s (d.blockAddr (v, s, b)) = true → ∃ e : Dev, exec (.refillDone i 0 false 0) ⟨d, q⟩ = .next ⟨e, q⟩ ∧
      e.copy i = some { c with spill := .resident, block := none } ∧ d.counted e .refillFrames c.pipe 1 ∧
      e.vatFree v s = (d.vatFree v s + 1) % 2 ^ 26 ∧ e.vatHalf v s = (d.vatHalf v s).put b ∧
      d.regsBut e [Reg.BUFF_VAT_FREE.addr v s] ∧ e = { d with
        regs := e.regs, ctrs := e.ctrs, ctrOvf := e.ctrOvf, path := e.path, vat := e.vat }) ∧
    (s < 2 → ∃ e : Dev, exec (.refillDone i 0 true 0) ⟨d, q⟩ = .next ⟨e, q⟩ ∧ e.copy i = none ∧ d.counted e .hbmEccUncorrectable s 1)) ∧
  (∀ (d : Dev) (q : List Instr) (p : Nat) (h : TokHold), d.hold.live = true → p < 4 → d.hold_ (96 + p) = some h →
    ((tget d.vat.spillQ [] p ≠ [] ∨ d.now < max (tget d.vat.burstEmpty 0 p) h.rampAt + 10000) →
      exec (.spillBurstReturn p) ⟨d, q⟩ = .next ⟨d, q⟩) ∧
    (tget d.vat.spillQ [] p = [] → max (tget d.vat.burstEmpty 0 p) h.rampAt + 10000 ≤ d.now →
      ∃ e : Dev, exec (.spillBurstReturn p) ⟨d, q⟩ = .next ⟨e, q⟩ ∧ e.hold_ (96 + p) = none ∧
        (∀ k, k ≠ 96 + p → e.hold_ k = d.hold_ k) ∧ (∀ r ∈ e.power.waiting, r.holder ≠ 96 + p) ∧ e = { d with
          power := e.power }))

/-- The head of a source list asks for credit, its group grants it whole, and a closing gate revokes it. CREDIT_REQUEST of a
resident head asks for n(FRAME_LEN) cells once frame end is reached, else for n(MAX_FRAME + 1); for an administratively
disabled port the copy drops as egress_disabled; any other copy changes nothing. CREDIT_GRANT gives the one waiting request
its whole count when free credit, CREDIT_MAX and R273 permit it and changes nothing otherwise. CREDIT_REVOKE takes the
credit of a frame that has sent no cell when its gate is closed or closes within LEAD_NS, counts it (credit_revoked counts
frames, DEDUCED, log entry 36) and returns it; with the gate open for longer it changes nothing. -/
def Obligations.CreditFollowsTheHead : Prop :=
  (∀ (d : Dev) (q : List Instr) (i : Nat) (c : Copy) (f : Frame), d.hold.live = true → d.copy i = some c → d.frame c.frame = some f →
    (d.isHead c = true → c.want = none → c.granted = false → c.spill = .resident →
      (d.adminUp c.dst = true → ∀ n, n = (if f.full then max 1 f.cells.length else if f.ended then cellsOf f.len
          else cellsOf (d.maxFrame f.port + 1)) →
        ∃ e : Dev, exec (.creditRequest i) ⟨d, q⟩ = .next ⟨e, q⟩ ∧ e.copy i = some { c with want := some n, reqNo := d.path.nextQ } ∧
          e.path.nextQ = d.path.nextQ + 1 ∧ e.path.frames = d.path.frames ∧ (∀ j, j ≠ i → e.copy j = d.copy j) ∧ e = { d with
            path := e.path }) ∧
      (d.adminUp c.dst = false → ∃ e : Dev, exec (.creditRequest i) ⟨d, q⟩ = .next ⟨e, q⟩ ∧ d.counted e .drop 0x43 1 ∧ e.copy i = none ∧
        e = { d with
          regs := e.regs, ctrs := e.ctrs, ctrOvf := e.ctrOvf, wire := e.wire, supv := e.supv, ports := e.ports,
          path := e.path, vat := e.vat, fab := e.fab, egr := e.egr })) ∧
    (d.isHead c = false ∨ c.want.isSome = true ∨ c.granted = true ∨ c.spill ≠ .resident →
      exec (.creditRequest i) ⟨d, q⟩ = .next ⟨d, q⟩)) ∧
  (∀ (d : Dev) (q : List Instr) (g w : Nat) (c : Copy), d.hold.live = true → g < 64 → d.path.copies.filter (fun k => k.want.isSome) = [c] →
    c.want = some w → c.dst ∈ groupPorts g 0 → c.cls < 8 →
    (d.creditOk c.dst c.cls = true → d.rd (Reg.FABR_GRP_CREDIT.OUTSTANDING g) + w ≤ 1536 →
      d.outstanding c.dst c.cls + w ≤ d.rd Reg.FABR_CREDIT_CFG.CREDIT_MAX →
      ∃ e : Dev, exec (.creditGrant g) ⟨d, q⟩ = .next ⟨e, q⟩ ∧ e.copy c.id = some { c with held := c.held + w, granted := true, want := none } ∧
        e.rd (Reg.FABR_GRP_CREDIT.OUTSTANDING g) = d.rd (Reg.FABR_GRP_CREDIT.OUTSTANDING g) + w ∧
        e.rd (Reg.FABR_GRP_CREDIT.STAGED g) = d.rd (Reg.FABR_GRP_CREDIT.STAGED g) ∧
        tget e.fab.issued 0 g = tget d.fab.issued 0 g + w ∧ tget e.fab.grantAt 0 g = c.dst + 1 ∧
        (∀ j, j ≠ c.id → e.copy j = d.copy j) ∧ d.regsBut e [Reg.FABR_GRP_CREDIT.addr g] ∧ e = { d with
          regs := e.regs, path := e.path, fab := e.fab }) ∧
    (d.creditOk c.dst c.cls = false ∨ 1536 < d.rd (Reg.FABR_GRP_CREDIT.OUTSTANDING g) + w ∨
        d.rd Reg.FABR_CREDIT_CFG.CREDIT_MAX < d.outstanding c.dst c.cls + w → exec (.creditGrant g) ⟨d, q⟩ = .next ⟨d, q⟩)) ∧
  (∀ (d : Dev) (q : List Instr) (n k : Nat) (c : Copy), d.hold.live = true → n < 258 →
    d.path.copies.filter (fun x => x.dst == n && x.cls == k && x.granted && x.sent == 0) = [c] →
    (d.gateOpen n k = false ∨ (∃ t, d.closesIn n k = some t ∧ t ≤ d.rd Reg.FABR_CTRL.LEAD_NS) →
      ∃ e : Dev, exec (.creditRevoke n k) ⟨d, q⟩ = .next ⟨e, q⟩ ∧ e.copy c.id = some { c with held := 0, granted := false } ∧
        d.counted e .creditRevoked (dstGroup n) 1 ∧
        e.rd (Reg.FABR_GRP_CREDIT.OUTSTANDING (dstGroup n)) = d.rd (Reg.FABR_GRP_CREDIT.OUTSTANDING (dstGroup n)) - c.held ∧
        tget e.fab.back 0 (dstGroup n) = tget d.fab.back 0 (dstGroup n) + c.held ∧
        d.ctrsBut e [Ctr.creditRevoked.key (dstGroup n)] ∧ d.regsBut e [Reg.FABR_GRP_CREDIT.addr (dstGroup n)] ∧
        e = { d with regs := e.regs, ctrs := e.ctrs, ctrOvf := e.ctrOvf, path := e.path, fab := e.fab }) ∧
    (d.gateOpen n k = true → (∀ t, d.closesIn n k = some t → d.rd Reg.FABR_CTRL.LEAD_NS < t) →
      exec (.creditRevoke n k) ⟨d, q⟩ = .next ⟨d, q⟩))

/-- A slot matches and sprays, the Couch keeps the order of a pair, and a gap that outlives its time is resolved. SLOT_MATCH
sends the one ready cell on an active plane with the next sequence number of its pair and moves the pointers of that plane;
of two inputs that ask for one output of the only active plane it serves the one first at or after the grant pointer.
CELL_ARRIVE in sequence joins the cell to its frame and with the last cell the frame joins its class queue; out of sequence
it is held, counted and opens a gap; a failed CRC discards it and counts. SEQ_REPORT opens a gap for a frame whose sent cell
is missing. COUCH_GAP_TIMEOUT takes the missing cells as lost, moves E past them, drops their frame as plane_loss or
couch_timeout and releases held cells. The slot counter and dead cells: DEDUCED, log entry 36. -/
def Obligations.CellsCrossInSequence : Prop :=
  (∀ (d : Dev) (q : List Instr), d.hold.live = true →
    (d.boot.released = false → exec (.slotMatch []) ⟨d, q⟩ = .next ⟨d, q⟩) ∧
    (d.boot.released = true → d.fab.joinSlot = none → (∀ c ∈ d.path.copies, d.readyCells c = 0) →
      exec (.slotMatch []) ⟨d, q⟩ = .next ⟨{ d with fab := { d.fab with slot := max (d.fab.slot + 1) d.slotNow } }, q⟩)) ∧
  (∀ (d : Dev) (q : List Instr) (c : Copy) (f : Frame) (i j : Nat), d.hold.live = true → d.boot.released = true → d.fab.joinSlot = none →
    d.activePlanes ≠ [] → d.path.copies.filter (fun k => d.readyCells k != 0) = [c] → d.readyCells c = 1 → c.src ≤ 64 →
    d.frame c.frame = some f → f.full = false → i = c.input → j = dstGroup c.dst → (d.inProgress i j).length < 8 →
    ∃ (e : Dev) (x : FCell), exec (.slotMatch []) ⟨d, q⟩ = .next ⟨e, q⟩ ∧ e.fab.flight = d.fab.flight ++ [x] ∧
      d.planeActive x.plane = true ∧ x.slot = max (d.fab.slot + 1) d.slotNow ∧ x.src = i ∧ x.dst = j ∧
      x.seq = tget d.fab.seqNext 0 (pairKey i j) ∧ x.copy = c.id ∧ x.first = (c.sent == 0) ∧
      x.last = (f.ended && c.sent + 1 == f.cells.length) ∧ x.port = c.dst ∧ x.cls = c.cls ∧ x.dead = false ∧
      x.bytes = (if f.ended then cellBytes f.len c.sent else if c.sent = 0 then 104 else 120) ∧
      tget e.fab.seqNext 0 (pairKey i j) = (x.seq + 1) % 65536 ∧
      (∀ k, k ≠ pairKey i j → tget e.fab.seqNext 0 k = tget d.fab.seqNext 0 k) ∧
      tget e.fab.gptr 0 (64 * x.plane + j) = (i + 1) % 64 ∧ tget e.fab.aptr 0 (64 * x.plane + i) = (j + 1) % 64 ∧
      (∀ k, k ≠ 64 * x.plane + j → tget e.fab.gptr 0 k = tget d.fab.gptr 0 k) ∧
      (∃ k, e.copy c.id = some k ∧ k.sent = c.sent + 1 ∧ k.held = c.held - 1 ∧ k.out = x.last) ∧
      d.counted e .planeCells x.plane 1 ∧ d.counted e .fabCellsTx i 1 ∧
      d.ctrsBut e [Ctr.planeCells.key x.plane, Ctr.fabCellsTx.key i] ∧ e = { d with
        ctrs := e.ctrs, ctrOvf := e.ctrOvf, path := e.path, fab := e.fab, vat := e.vat }) ∧
  (∀ (d : Dev) (q : List Instr) (a b : Copy) (p j g : Nat), d.hold.live = true → d.boot.released = true → d.fab.joinSlot = none →
    d.activePlanes = [p] → d.path.copies.filter (fun k => d.readyCells k != 0) = [a, b] → a.src < 64 → b.src < 64 → a.src ≠ b.src →
    dstGroup a.dst = j → dstGroup b.dst = j → (d.inProgress a.src j).length < 8 → (d.inProgress b.src j).length < 8 →
    g = tget d.fab.gptr 0 (64 * p + j) → dist64 a.src g < dist64 b.src g →
    ∃ (e : Dev) (x : FCell), exec (.slotMatch []) ⟨d, q⟩ = .next ⟨e, q⟩ ∧ e.fab.flight = d.fab.flight ++ [x] ∧ x.copy = a.id ∧
      x.plane = p ∧ tget e.fab.gptr 0 (64 * p + j) = (a.src + 1) % 64 ∧ tget e.fab.aptr 0 (64 * p + a.src) = (j + 1) % 64 ∧
      tget e.fab.aptr 0 (64 * p + b.src) = tget d.fab.aptr 0 (64 * p + b.src) ∧ e = { d with
        ctrs := e.ctrs, ctrOvf := e.ctrOvf, path := e.path, fab := e.fab, vat := e.vat }) ∧
  (∀ (d : Dev) (q : List Instr) (i j s : Nat) (ok : Bool), d.hold.live = true →
    (∀ y ∈ d.fab.flight, ¬(y.src = i ∧ y.dst = j ∧ y.seq = s ∧ y.dead = false)) → exec (.cellArrive i j s ok) ⟨d, q⟩ = .next ⟨d, q⟩) ∧
  (∀ (d : Dev) (q : List Instr) (i j s : Nat) (x : FCell), d.hold.live = true →
    d.fab.flight.find? (fun y => y.src == i && y.dst == j && y.seq == s && !y.dead) = some x →
    (d.now < tget d.fab.crcAt 0 x.plane + 10 ^ 6 → d.rd (Reg.FABR_PLANE_STATUS.CRC_1MS x.plane) < 7 →
      ∃ e : Dev, exec (.cellArrive i j s false) ⟨d, q⟩ = .next ⟨e, q⟩ ∧ d.counted e .planeCrcError x.plane 1 ∧
        e.rd (Reg.FABR_PLANE_STATUS.CRC_1MS x.plane) = d.rd (Reg.FABR_PLANE_STATUS.CRC_1MS x.plane) + 1 ∧
        e.expect i j = d.expect i j ∧ e.fab.held = d.fab.held ∧ (∀ y ∈ e.fab.flight, y ≠ x) ∧
        d.ctrsBut e [Ctr.planeCrcError.key x.plane] ∧ d.regsBut e [Reg.FABR_PLANE_STATUS.addr x.plane] ∧ e = { d with
          regs := e.regs, ctrs := e.ctrs, ctrOvf := e.ctrOvf, fab := e.fab }) ∧
    (∀ c f, d.copy x.copy = some c → d.frame c.frame = some f → (x.port < 258 → d.gateOpen x.port x.cls = true) →
      (s ≠ d.expect i j → ∃ e : Dev, exec (.cellArrive i j s true) ⟨d, q⟩ = .next ⟨e, q⟩ ∧ e.fab.held = d.fab.held ++ [x] ∧
        e.expect i j = d.expect i j ∧ e.copy x.copy = some { c with staged := c.staged + 1, held := if x.last then 0 else c.held } ∧
        d.counted e .couchReorder j 1 ∧ d.counted e .fabCellsRx j 1 ∧ d.counted e .fabLateCell j 0 ∧
        e.rd (Reg.FABR_GRP_CREDIT.STAGED j) = (d.rd (Reg.FABR_GRP_CREDIT.STAGED j) + 1) % 2 ^ 11 ∧
        (e.gapOf i j).at_ = (if (d.gapOf i j).at_ = 0 then d.now + 1 else (d.gapOf i j).at_) ∧
        d.regsBut e [Reg.FABR_GRP_CREDIT.addr j] ∧ e = { d with
          regs := e.regs, ctrs := e.ctrs, ctrOvf := e.ctrOvf, path := e.path, fab := e.fab }) ∧
      (s = d.expect i j → d.heldCells i j = [] → ¬(c.arrived = 0 ∧ c.ct = true) →
        (x.last = false → ∃ e : Dev, exec (.cellArrive i j s true) ⟨d, q⟩ = .next ⟨e, q⟩ ∧ e.expect i j = (s + 1) % 65536 ∧
          e.copy x.copy = some { c with staged := c.staged + 1, arrived := c.arrived + 1, last := false, endErr := x.err } ∧
          e.fab.held = d.fab.held ∧ d.counted e .fabCellsRx j 1 ∧ d.regsBut e [Reg.FABR_GRP_CREDIT.addr j] ∧ e = { d with
            regs := e.regs, ctrs := e.ctrs, ctrOvf := e.ctrOvf, path := e.path, fab := e.fab }) ∧
        (x.last = true → x.err = 0 → c.dst ≠ 258 → c.queued = false → c.txAt = none →
          ∃ e : Dev, exec (.cellArrive i j s true) ⟨d, q⟩ = .next ⟨e, q⟩ ∧ e.expect i j = (s + 1) % 65536 ∧
            e.copy x.copy = some { c with
              staged := c.staged + 1, arrived := c.arrived + 1, last := true, endErr := 0, held := 0, queued := true, qNo := d.path.nextQ } ∧
            d.counted e .egrQFrames (8 * c.dst + c.cls) 1 ∧ d.counted e .fabCellsRx j 1 ∧
            d.regsBut e [Reg.FABR_GRP_CREDIT.addr j] ∧ e = { d with
              regs := e.regs, ctrs := e.ctrs, ctrOvf := e.ctrOvf, path := e.path, fab := e.fab, egr := e.egr })))) ∧
  (∀ (d : Dev) (q : List Instr) (i j : Nat), d.hold.live = true → i < 64 → j < 64 →
    ∃ e : Dev, exec (.seqReport i j) ⟨d, q⟩ = .next ⟨e, q⟩ ∧ tget e.fab.reported 0 (pairKey i j) = tget d.fab.seqNext 0 (pairKey i j) ∧
      (d.heldCells i j = [] → d.underReasm i j = true → diff16 (tget d.fab.seqNext 0 (pairKey i j)) (d.expect i j) > 0 →
        (d.gapOf i j).at_ = 0 → (e.gapOf i j).at_ = d.now + 1) ∧
      (d.heldCells i j = [] → d.underReasm i j = false → (e.gapOf i j).at_ = 0) ∧ e = { d with fab := e.fab }) ∧
  (∀ (d : Dev) (q : List Instr) (i j : Nat), d.hold.live = true →
    ((d.gapOf i j).at_ = 0 ∨ d.now < (d.gapOf i j).at_ - 1 + max 4 (d.rd Reg.FABR_CTRL.COUCH_TIMEOUT_US) * 1000 →
      exec (.couchGapTimeout i j) ⟨d, q⟩ = .next ⟨d, q⟩) ∧
    ((d.gapOf i j).at_ ≠ 0 → (d.gapOf i j).at_ - 1 + max 4 (d.rd Reg.FABR_CTRL.COUCH_TIMEOUT_US) * 1000 ≤ d.now →
      (∀ n x c, d.heldCells i j = [] → n = seqDist (tget d.fab.reported 0 (pairKey i j)) (d.expect i j) →
        d.fab.flight.filter (fun y => y.src == i && y.dst == j && decide (seqDist y.seq (d.expect i j) < n)) = [x] → d.copy x.copy = some c →
        ∃ e : Dev, exec (.couchGapTimeout i j) ⟨d, q⟩ = .next ⟨e, q⟩ ∧ e.expect i j = (d.expect i j + n) % 65536 ∧
          e.ctr .couchLostCells j = (d.ctr .couchLostCells j + n) % 2 ^ 64 ∧
          d.counted e .drop (if (d.gapOf i j).failed then 0x30 else 0x31) 1 ∧ e.copy x.copy = none ∧
          (∀ y ∈ e.fab.flight, y ≠ x) ∧ e = { d with
            regs := e.regs, ctrs := e.ctrs, ctrOvf := e.ctrOvf, wire := e.wire, supv := e.supv, ports := e.ports,
            path := e.path, vat := e.vat, fab := e.fab, egr := e.egr }) ∧
      (∀ y, d.heldCells i j = [y] → y.seq < 65536 → d.expect i j < 65536 →
        ∃ e : Dev, exec (.couchGapTimeout i j) ⟨d, q⟩ = .next ⟨e, q⟩ ∧ e.expect i j = (y.seq + 1) % 65536 ∧ e.heldCells i j = [] ∧
          e.ctr .couchLostCells j = (d.ctr .couchLostCells j + seqDist y.seq (d.expect i j)) % 2 ^ 64 ∧
          e = { d with
            regs := e.regs, ctrs := e.ctrs, ctrOvf := e.ctrOvf, wire := e.wire, supv := e.supv, ports := e.ports,
            path := e.path, vat := e.vat, fab := e.fab, egr := e.egr, deck := e.deck })))

/-- A plane is declared failed, the spare joins or fails its bring-up, and a planned rotation runs its steps.
PLANE_HEARTBEAT_MISS of an active plane and an unbalanced PLANE_AUDIT_MARKER declare it failed with causes 2 and 3, mark
open gaps and bring up the spare; SPARE_SYNC_DONE names the slot, a multiple of 16, from which the spare joins, for a
rotation at least 2 us ahead; SPARE_BRINGUP_TIMEOUT after 30 us fails the spare with cause 4 and ends a rotation with RESULT
4. PLANE_SELFTEST makes a failed plane the spare, or keeps it failed. ROTATION_START by a supervisor, and ROTATION_SCHEDULE
when its interval has passed, start a rotation or show the refusal (the order of refusals: DEDUCED, log entry 36); the host
may not write FABR_ROT. ROTATION_CHANGEOVER swaps the planes at the slot; ROTATION_COMPLETE makes the drained plane the
spare. -/
def Obligations.PlanesFailOverAndRotate : Prop :=
  (∀ (d : Dev) (q : List Instr) (n g : Nat), d.hold.live = true → n < 10 → g < 64 →
    (d.rd (Reg.FABR_PLANE_STATUS.ROLE n) ≠ 1 → exec (.planeHeartbeatMiss n g) ⟨d, q⟩ = .next ⟨d, q⟩) ∧
    (d.rd (Reg.FABR_PLANE_STATUS.ROLE n) = 1 → d.fab.rotation = none → d.fab.join = none →
      ∃ e : Dev, exec (.planeHeartbeatMiss n g) ⟨d, q⟩ = .next ⟨e, q⟩ ∧ e.rd (Reg.FABR_PLANE_STATUS.ROLE n) = 3 ∧
        e.rd (Reg.FABR_PLANE_STATUS.CAUSE n) = 2 ∧ e.rd (Reg.FABR_PLANE_STATUS.HB_GROUP n) = g ∧
        e.flag (Reg.FABR_PLANE_STATUS.SYNC n) = false ∧ e.bitOf Reg.FABR_STATUS.FAILED n = true ∧
        e.bitOf Reg.FABR_STATUS.ACTIVE n = false ∧ e.flag Reg.FABR_STATUS.DEGRADED = decide (e.activePlanes.length < 9) ∧
        e.bitOf Reg.SUPV_ALM.ALM2_SRC 0 = true ∧ d.counted e .planeHbMiss n 1 ∧ d.counted e .planeFailEvents n 1 ∧
        (∀ i j, e.gapOf i j = if (d.gapOf i j).at_ = 0 then d.gapOf i j else { d.gapOf i j with failed := true }) ∧
        (d.rd Reg.FABR_STATUS.SPARE < 10 → d.rd Reg.FABR_STATUS.SPARE ≠ n → e.fab.join = some (d.rd Reg.FABR_STATUS.SPARE, d.now)) ∧
        d.regsBut e [Reg.FABR_PLANE_STATUS.addr n, Reg.FABR_STATUS.addr, Reg.SUPV_ALM.addr, Reg.HOST_INT_STATUS.addr,
          Reg.PWCK_DOM_STATUS.addr (68 + n)] ∧ e = { d with
            regs := e.regs, ctrs := e.ctrs, ctrOvf := e.ctrOvf, wire := e.wire, supv := e.supv, power := e.power,
            fab := e.fab })) ∧
  (∀ (d : Dev) (q : List Instr), d.hold.live = true →
    ((∀ n, n < 10 → d.rd (Reg.FABR_PLANE_STATUS.ROLE n) = 1 → d.planeMissing n (d.slotNow - 196) = 0) →
      exec .planeAuditMarker ⟨d, q⟩ = .next ⟨d, q⟩) ∧
    (∀ n, n < 10 → d.rd (Reg.FABR_PLANE_STATUS.ROLE n) = 1 → d.planeMissing n (d.slotNow - 196) ≠ 0 → d.fab.rotation = none →
      (∀ m, m < 10 → m ≠ n → d.rd (Reg.FABR_PLANE_STATUS.ROLE m) = 1 → d.planeMissing m (d.slotNow - 196) = 0) →
      ∃ e : Dev, exec .planeAuditMarker ⟨d, q⟩ = .next ⟨e, q⟩ ∧ e.rd (Reg.FABR_PLANE_STATUS.ROLE n) = 3 ∧
        e.rd (Reg.FABR_PLANE_STATUS.CAUSE n) = 3 ∧ d.counted e .planeFailEvents n 1 ∧
        (∀ m, m < 10 → m ≠ n → e.rd (Reg.FABR_PLANE_STATUS.ROLE m) = d.rd (Reg.FABR_PLANE_STATUS.ROLE m)) ∧
        e = { d with
          regs := e.regs, ctrs := e.ctrs, ctrOvf := e.ctrOvf, wire := e.wire, supv := e.supv, power := e.power,
          fab := e.fab })) ∧
  (∀ (d : Dev) (q : List Instr) (n t : Nat), d.hold.live = true → n < 10 → d.fab.join = some (n, t) → d.fab.joinSlot = none →
    (d.rd (Reg.PWCK_DOM_STATUS.STATE (68 + n)) = 2 → ∃ (e : Dev) (s : Nat), exec .spareSyncDone ⟨d, q⟩ = .next ⟨e, q⟩ ∧
      e.fab = { d.fab with joinSlot := some (n, s) } ∧ s % 16 = 0 ∧ d.fab.slot < s ∧ d.slotNow < s ∧ s ≤ max d.fab.slot d.slotNow + 16 ∧
      e.flag (Reg.FABR_PLANE_STATUS.SYNC n) = true ∧ d.regsBut e [Reg.FABR_PLANE_STATUS.addr n] ∧ e = { d with
        regs := e.regs, fab := e.fab }) ∧
    (d.now < t + 30000 → exec .spareBringupTimeout ⟨d, q⟩ = .next ⟨d, q⟩) ∧
    (t + 30000 ≤ d.now → ∃ e : Dev, exec .spareBringupTimeout ⟨d, q⟩ = .next ⟨e, q⟩ ∧ e.fab.join = none ∧
      e.rd (Reg.FABR_PLANE_STATUS.ROLE n) = 3 ∧ e.rd (Reg.FABR_PLANE_STATUS.CAUSE n) = 4 ∧ d.counted e .planeFailEvents n 1 ∧
      e = { d with
        regs := e.regs, ctrs := e.ctrs, ctrOvf := e.ctrOvf, wire := e.wire, supv := e.supv, power := e.power,
        fab := e.fab })) ∧
  (∀ (d : Dev) (q : List Instr) (r : Rotation), d.hold.live = true → d.fab.join = none → d.fab.rotation = some r → r.slot = none →
    r.spare < 10 →
    (d.rd (Reg.PWCK_DOM_STATUS.STATE (68 + r.spare)) = 2 → ∃ (e : Dev) (s : Nat), exec .spareSyncDone ⟨d, q⟩ = .next ⟨e, q⟩ ∧
      e.fab = { d.fab with rotation := some { r with slot := some s } } ∧ s % 16 = 0 ∧ d.slotNow + 196 < s ∧ e = { d with
        regs := e.regs, fab := e.fab }) ∧
    (r.since + 30000 ≤ d.now → ∃ e : Dev, exec .spareBringupTimeout ⟨d, q⟩ = .next ⟨e, q⟩ ∧ e.fab.rotation = none ∧
      e.rd Reg.FABR_ROT.RESULT = 4 ∧ e.flag Reg.FABR_STATUS.ROTATING = false ∧ e.rd (Reg.FABR_PLANE_STATUS.CAUSE r.spare) = 4 ∧
      e = { d with
        regs := e.regs, ctrs := e.ctrs, ctrOvf := e.ctrOvf, wire := e.wire, supv := e.supv, power := e.power,
        fab := e.fab })) ∧
  (∀ (d : Dev) (q : List Instr) (n : Nat), d.hold.live = true → n < 10 → d.rd (Reg.FABR_PLANE_STATUS.ROLE n) = 3 →
    (d.supRunning = false ∨ n ∈ d.fab.bad → ∀ ok, exec (.planeSelftest n ok) ⟨d, q⟩ = .next ⟨d, q⟩) ∧
    (d.supRunning = true → n ∉ d.fab.bad →
      (d.rd Reg.FABR_STATUS.SPARE = 0xF → ∃ e : Dev, exec (.planeSelftest n true) ⟨d, q⟩ = .next ⟨e, q⟩ ∧
        e.rd (Reg.FABR_PLANE_STATUS.ROLE n) = 2 ∧ e.rd Reg.FABR_STATUS.SPARE = n ∧ e.flag Reg.FABR_STATUS.SPARE_READY = true ∧
        e.bitOf Reg.FABR_STATUS.FAILED n = false ∧ d.regsBut e [Reg.FABR_PLANE_STATUS.addr n, Reg.FABR_STATUS.addr] ∧ e = { d with
          regs := e.regs }) ∧
      exec (.planeSelftest n false) ⟨d, q⟩ = .next ⟨{ d with fab := { d.fab with bad := d.fab.bad ++ [n] } }, q⟩)) ∧
  (∀ (d : Dev) (q : List Instr) (n r : Nat), d.hold.live = true → n < 16 →
    r = (if d.rd Reg.FABR_STATUS.SPARE = 0xF then 1 else if 10 ≤ n ∨ d.bitOf Reg.FABR_STATUS.ACTIVE n = false then 2
      else if d.fab.rotation.isSome ∨ d.fab.join.isSome then 3 else 0) →
    (r ≠ 0 → ∃ e : Dev, exec (.rotationStart 0x10 n) ⟨d, q⟩ = .next ⟨e, q⟩ ∧ e.rd Reg.FABR_ROT.RESULT = r ∧ e.rd Reg.FABR_ROT.PLANE = n ∧
      e = { d with
        regs := e.regs, ctrs := e.ctrs, ctrOvf := e.ctrOvf, host := e.host, wire := e.wire, supv := e.supv }) ∧
    (r = 0 → ∃ e : Dev, exec (.rotationStart 0x10 n) ⟨d, q⟩ = .next ⟨e, q⟩ ∧ e.rd Reg.FABR_ROT.RESULT = 0 ∧ e.rd Reg.FABR_ROT.PLANE = n ∧
      e.flag Reg.FABR_STATUS.ROTATING = true ∧ e.fab = { d.fab with
        rotation := some { out := n, spare := d.rd Reg.FABR_STATUS.SPARE, since := d.now, slot := none, changed := false } } ∧
      e = { d with regs := e.regs, host := e.host, wire := e.wire, fab := e.fab, power := e.power }) ∧
    (∃ e : Dev, exec (.rotationStart 0x01 n) ⟨d, q⟩ = .next ⟨e, q⟩ ∧ e.reg Reg.FABR_ROT.addr = d.reg Reg.FABR_ROT.addr ∧ e = { d with
      regs := e.regs, host := e.host, wire := e.wire })) ∧
  (∀ (d : Dev) (q : List Instr) (h : Nat), d.hold.live = true → h = d.rd Reg.FABR_ROT_SCHED.INTERVAL_H →
    (h = 0 ∨ d.boot.released = false ∨ d.now < d.fab.schedAt + h * (3600 * 10 ^ 9) → exec .rotationSchedule ⟨d, q⟩ = .next ⟨d, q⟩) ∧
    (h ≠ 0 → d.boot.released = true → d.fab.schedAt + h * (3600 * 10 ^ 9) ≤ d.now →
      ∃ e : Dev, exec .rotationSchedule ⟨d, q⟩ = .next ⟨e, q⟩ ∧ e.fab.schedAt = d.now ∧
        e.rd Reg.FABR_ROT.RESULT = d.rotationRefusal d.scheduledPlane ∧
        (d.rotationRefusal d.scheduledPlane = 0 → e.fab.rotation.map Rotation.out = some d.scheduledPlane) ∧
        e = { d with
          regs := e.regs, ctrs := e.ctrs, ctrOvf := e.ctrOvf, supv := e.supv, fab := e.fab, power := e.power })) ∧
  (∀ (d : Dev) (q : List Instr) (r : Rotation) (s : Nat), d.hold.live = true → d.fab.rotation = some r → r.slot = some s →
    r.changed = false → r.out < 10 → r.spare < 10 → r.out ≠ r.spare →
    (max d.fab.slot d.slotNow < s → exec .rotationChangeover ⟨d, q⟩ = .next ⟨d, q⟩) ∧
    (s ≤ max d.fab.slot d.slotNow → ∃ e : Dev, exec .rotationChangeover ⟨d, q⟩ = .next ⟨e, q⟩ ∧
      e.bitOf Reg.FABR_STATUS.ACTIVE r.out = false ∧ e.bitOf Reg.FABR_STATUS.ACTIVE r.spare = true ∧
      (∀ n, n < 10 → n ≠ r.out → n ≠ r.spare → e.bitOf Reg.FABR_STATUS.ACTIVE n = d.bitOf Reg.FABR_STATUS.ACTIVE n) ∧
      e.rd (Reg.FABR_PLANE_STATUS.ROLE r.spare) = 1 ∧ e.rd Reg.FABR_STATUS.SPARE = 0xF ∧
      (∀ k, k < 64 → tget e.fab.gptr 0 (64 * r.spare + k) = 0 ∧ tget e.fab.aptr 0 (64 * r.spare + k) = 0) ∧
      e.fab.rotation = some { r with changed := true } ∧
      d.regsBut e [Reg.FABR_STATUS.addr, Reg.FABR_PLANE_STATUS.addr r.spare] ∧ e = { d with
        regs := e.regs, fab := e.fab, power := e.power })) ∧
  (∀ (d : Dev) (q : List Instr) (r : Rotation) (sent recv : Nat), d.hold.live = true → d.fab.rotation = some r → r.changed = true →
    r.out < 10 → sent = tget d.fab.sentOn 0 r.out → recv = tget d.fab.recvOn 0 r.out →
    (sent ≠ recv → exec .rotationComplete ⟨d, q⟩ = .next ⟨d, q⟩) ∧
    (sent = recv → (∀ x ∈ d.fab.flight, x.plane = r.out → x.dead = true) →
      ∃ e : Dev, exec .rotationComplete ⟨d, q⟩ = .next ⟨e, q⟩ ∧ e.rd (Reg.FABR_PLANE_STATUS.ROLE r.out) = 2 ∧
        e.rd Reg.FABR_STATUS.SPARE = r.out ∧ e.flag Reg.FABR_STATUS.SPARE_READY = true ∧ e.flag Reg.FABR_STATUS.ROTATING = false ∧
        e.rd Reg.FABR_ROT.RESULT = 0 ∧ e.fab = { d.fab with rotation := none } ∧ d.counted e .planeRotations r.out 1 ∧
        e = { d with
          regs := e.regs, ctrs := e.ctrs, ctrOvf := e.ctrOvf, supv := e.supv, power := e.power, fab := e.fab }))

/-- What a selection starts or drops, preemption and its resumption, and the end of a transmission. SCHEDULER_SELECT starts
the one eligible head on the express MAC with its edited bytes; of two eligible heads the strict class of higher number, or
a strict class before one that is not, or of two active fair-queued classes the lesser finish tag. A head for a disabled
port drops as egress_disabled, one that can never fit as egress_oversize, one over its residence limit as egress_age_limit.
PREEMPT cuts the preemptable frame and counts it; SCHEDULER_SELECT of the preemptable MAC resumes it. FRAME_TRANSMIT_END
after the wire time puts the frame on the wire, counts it and frees the copy; a two-step event message leaves an entry in
the timestamp queue, or overflows it. Bytes sent of a preempted frame and its counters: DEDUCED, log entry 37. -/
def Obligations.SchedulerServesThePort : Prop :=
  (∀ (d : Dev) (q : List Instr) (n : Nat) (k : Copy), d.hold.live = true → d.plainPort n →
    d.path.copies.filter (fun x => x.queued && x.dst == n) = [k] →
    (d.mayStart n k → ∃ (e : Dev) (f : Frame), exec (.schedulerSelect n 0) ⟨d, q⟩ = .next ⟨e, q⟩ ∧ d.frame k.frame = some f ∧
      e.copy k.id = some { k with queued := false, txAt := some d.now, wire := d.editCopy f k 0, cutAt := 0, preempted := false } ∧
      tget e.egr.tx 0 (2 * n) = k.id + 1 ∧ tget e.egr.txEnd 0 (2 * n) = d.now + d.wireNs n (d.editLen f k + 20) ∧
      (∀ j, j ≠ k.id → e.copy j = d.copy j) ∧ (∀ j, j ≠ 2 * n → tget e.egr.tx 0 j = tget d.egr.tx 0 j) ∧ e = { d with
        path := e.path, egr := e.egr }) ∧
    (k.cls < 8 → d.tooLong n k.cls k = true → ∃ e : Dev, exec (.schedulerSelect n 0) ⟨d, q⟩ = .next ⟨e, q⟩ ∧
      d.counted e .gateTooLong (8 * n + k.cls) 1 ∧ d.counted e .drop 0x44 1 ∧ e.copy k.id = none ∧ e = { d with
        regs := e.regs, ctrs := e.ctrs, ctrOvf := e.ctrOvf, wire := e.wire, supv := e.supv, ports := e.ports,
        path := e.path, vat := e.vat, fab := e.fab, egr := e.egr, deck := e.deck }) ∧
    (k.cls < 8 → d.eligible n k.cls = true → d.tooLong n k.cls k = false → ∀ f, d.frame k.frame = some f → f.ver = false →
      d.overAge f k = true → ∃ e : Dev, exec (.schedulerSelect n 0) ⟨d, q⟩ = .next ⟨e, q⟩ ∧ d.counted e .ageDrop (8 * k.dst + k.cls) 1 ∧
        d.counted e .drop 0x40 1 ∧ e.copy k.id = none ∧ e = { d with
          regs := e.regs, ctrs := e.ctrs, ctrOvf := e.ctrOvf, wire := e.wire, supv := e.supv, ports := e.ports,
          path := e.path, vat := e.vat, fab := e.fab, egr := e.egr, deck := e.deck })) ∧
  (∀ (d : Dev) (q : List Instr) (n : Nat) (k : Copy), d.hold.live = true → n < 258 → d.adminUp n = false →
    d.path.copies.filter (fun x => x.dst == n && x.queued) = [k] → ∃ e : Dev, exec (.schedulerSelect n 0) ⟨d, q⟩ = .next ⟨e, q⟩ ∧
      d.counted e .drop 0x43 1 ∧ e = { d with
        regs := e.regs, ctrs := e.ctrs, ctrOvf := e.ctrOvf, wire := e.wire, supv := e.supv, ports := e.ports,
        path := e.path, vat := e.vat, fab := e.fab, egr := e.egr, deck := e.deck }) ∧
  (∀ (d : Dev) (q : List Instr) (n : Nat) (a b : Copy), d.hold.live = true → d.plainPort n → a.id ≠ b.id → a.cls ≠ b.cls →
    d.path.copies.filter (fun x => x.queued && x.dst == n) = [a, b] → d.mayStart n a → d.mayStart n b →
    (d.bitOf (Reg.EGRS_PORT_SCHED.STRICT n) a.cls = true ∧ (d.bitOf (Reg.EGRS_PORT_SCHED.STRICT n) b.cls = false ∨ b.cls < a.cls)) ∨
      (d.bitOf (Reg.EGRS_PORT_SCHED.STRICT n) a.cls = false ∧ d.bitOf (Reg.EGRS_PORT_SCHED.STRICT n) b.cls = false ∧
        (d.wfqOf n a.cls).active = true ∧ (d.wfqOf n b.cls).active = true ∧
        tagLess (d.wfqOf n a.cls).finish (d.wfqOf n b.cls).finish = true ∧ tagLess (d.wfqOf n b.cls).finish (d.wfqOf n a.cls).finish = false) →
    ∃ e : Dev, exec (.schedulerSelect n 0) ⟨d, q⟩ = .next ⟨e, q⟩ ∧ tget e.egr.tx 0 (2 * n) = a.id + 1 ∧ e.copy b.id = d.copy b.id ∧ e = { d with
      path := e.path, egr := e.egr }) ∧
  (∀ (d : Dev) (q : List Instr) (n m : Nat) (c : Copy), d.hold.live = true → d.txCopy n 1 = some c →
    (m = d.sentBytes n c → d.preemptOn n = true → c.last = true → c.preempted = false → d.preemptCause n c = true →
      64 * (1 + d.rd (Reg.PORT_PREEMPT_CFG.ADD_FRAG_SIZE n)) - 4 ≤ m - c.cutAt → 64 ≤ c.wire.length - m →
      ∃ e : Dev, exec (.preempt n) ⟨d, q⟩ = .next ⟨e, q⟩ ∧ e.copy c.id = some { c with preempted := true, cutAt := m } ∧
        e.wire = d.wire ++ [.frame n ((c.wire.take m).drop c.cutAt) true] ∧ d.counted e .txPreemptFragments n 1 ∧
        d.counted e .txPreempted n (if c.cutAt = 0 then 1 else 0) ∧ e.egr.tx = d.egr.tx ∧
        d.ctrsBut e [Ctr.txPreemptFragments.key n, Ctr.txPreempted.key n] ∧ e = { d with
          ctrs := e.ctrs, ctrOvf := e.ctrOvf, wire := e.wire, path := e.path, egr := e.egr }) ∧
    (d.preemptOn n = false ∨ c.preempted = true ∨ d.preemptCause n c = false → exec (.preempt n) ⟨d, q⟩ = .next ⟨d, q⟩) ∧
    (n < 258 → c.preempted = true → d.adminUp n = true → d.linkUp n = true → tget d.egr.tx 0 (2 * n) = 0 → d.gateOpen n c.cls = true →
      (d.egate n).hold = false → (∀ x ∈ d.path.copies, x.ct = false) →
      ∃ e : Dev, exec (.schedulerSelect n 1) ⟨d, q⟩ = .next ⟨e, q⟩ ∧ e.copy c.id = some { c with preempted := false } ∧
        tget e.egr.txEnd 0 (2 * n + 1) = d.now + d.wireNs n (c.wire.length - c.cutAt + 20) ∧ e.egr.tx = d.egr.tx ∧ e = { d with
          path := e.path, egr := e.egr })) ∧
  (∀ (d : Dev) (q : List Instr) (n m t : Nat) (c : Copy) (f : Frame), d.hold.live = true → d.txCopy n m = some c →
    d.frame c.frame = some f → c.txAt = some t → c.ct = false → c.last = true → c.preempted = false →
    (d.now < tget d.egr.txEnd 0 (2 * n + m) → exec (.frameTransmitEnd n m) ⟨d, q⟩ = .next ⟨d, q⟩) ∧
    (tget d.egr.txEnd 0 (2 * n + m) ≠ 0 → tget d.egr.txEnd 0 (2 * n + m) ≤ d.now → c.wire.length ≤ d.rd (Reg.PORT_CFG.MAX_FRAME n) →
      ∃ (e : Dev) (l : List Out), exec (.frameTransmitEnd n m) ⟨d, q⟩ = .next ⟨e, q⟩ ∧
        e.wire = d.wire ++ .frame n (c.wire.drop c.cutAt) true :: l ∧ d.counted e .txFrames n 1 ∧
        e.ctr .txOctets n = (d.ctr .txOctets n + c.wire.length) % 2 ^ 64 ∧ d.counted e .txClassFrames (8 * n + c.cls) 1 ∧
        d.counted e .txPreemptFragments n (if c.cutAt = 0 then 0 else 1) ∧ e.copy c.id = none ∧ (∀ x ∈ e.egr.tx, x.2 ≠ c.id + 1) ∧
        (d.twoStep f c = none → e.time = d.time) ∧
        (∀ k po, d.twoStep f c = some (k, po) →
          ((tget d.time.tsq [] n).length < 16 → ∃ x : TsEntry, tget e.time.tsq [] n = tget d.time.tsq [] n ++ [x] ∧ x.port = n ∧ x.inst = k) ∧
          (16 ≤ (tget d.time.tsq [] n).length → d.counted e .tsQueueOverflow n 1 ∧ e.time = d.time)) ∧
        e = { d with
          regs := e.regs, ctrs := e.ctrs, ctrOvf := e.ctrOvf, wire := e.wire, supv := e.supv, ports := e.ports,
          path := e.path, vat := e.vat, fab := e.fab, egr := e.egr, time := e.time }))

/-- Gate state changes, takeovers of pending schedules, and shapers brought up to date. GATE_STATE_CHANGE makes
EGRS_GATE_STATUS show the gates of now and applies OP 0b01 and 0b10 of an entry that starts. GATE_TAKEOVER at or after its
instant puts the pending schedule in operation, clears PENDING and counts; without a pending schedule, or before its
instant, it changes nothing. CBS_CREDIT_REACHES_ZERO leaves the credit of a shaped class within its limits; waiting with its
gate open it has risen at idleSlope, and with an empty queue a positive credit is zero. TOKEN_BUCKET_REACHES_ZERO leaves the
bucket filled at RATE, never beyond full. Fractions are floored (DEDUCED, log entry 37). -/
def Obligations.GatesAndShapersMove : Prop :=
  (∀ (d : Dev) (q : List Instr) (n : Nat), d.hold.live = true → n < 258 →
    ∃ e : Dev, exec (.gateStateChange n) ⟨d, q⟩ = .next ⟨e, q⟩ ∧ e.rd (Reg.EGRS_GATE_STATUS.STATES n) = d.gatesAt n 0 ∧
      e.flag (Reg.EGRS_GATE_STATUS.PENDING n) = (d.egate n).pend.isSome ∧ e.flag (Reg.EGRS_GATE_STATUS.OPER n) = (d.egate n).oper.isSome ∧
      (e.egate n).oper = (d.egate n).oper ∧ (e.egate n).pend = (d.egate n).pend ∧
      (∀ s i t, (d.egate n).oper = some s → d.egateEntry n s (d.presNs s.tb) = some (i, t) → (d.egate n).entryAt ≠ t + 1 →
        (e.egate n).hold = (match fget (d.egateState n s i) 30 2 with
          | 1 => true
          | 2 => false
          | _ => (d.egate n).hold)) ∧
      (∀ k, k ≠ n → e.egate k = d.egate k) ∧ d.regsBut e [Reg.EGRS_GATE_STATUS.addr n] ∧ e = { d with
        regs := e.regs, egr := e.egr }) ∧
  (∀ (d : Dev) (q : List Instr) (n : Nat), d.hold.live = true →
    (258 ≤ n → exec (.gateStateChange n) ⟨d, q⟩ = .next ⟨d, q⟩ ∧ exec (.gateTakeover n) ⟨d, q⟩ = .next ⟨d, q⟩) ∧
    ((d.egate n).pend = none → exec (.gateTakeover n) ⟨d, q⟩ = .next ⟨d, q⟩) ∧
    (∀ s, (d.egate n).pend = some s → d.presNs s.tb < s.due → exec (.gateTakeover n) ⟨d, q⟩ = .next ⟨d, q⟩) ∧
    (∀ s, n < 258 → (d.egate n).pend = some s → s.due ≤ d.presNs s.tb → ∃ e : Dev, exec (.gateTakeover n) ⟨d, q⟩ = .next ⟨e, q⟩ ∧
      (e.egate n).oper = some s ∧ (e.egate n).pend = none ∧ e.flag (Reg.EGRS_GATE_STATUS.PENDING n) = false ∧
      e.flag (Reg.EGRS_GATE_STATUS.OPER n) = true ∧ d.counted e .gateTakeovers n 1 ∧ d.ctrsBut e [Ctr.gateTakeovers.key n] ∧
      d.regsBut e [Reg.EGRS_GATE_STATUS.addr n] ∧ e = { d with
        regs := e.regs, ctrs := e.ctrs, ctrOvf := e.ctrOvf, egr := e.egr })) ∧
  (∀ (d : Dev) (q : List Instr) (n c : Nat) (b : Cbs), d.hold.live = true → n < 258 → c < 8 → b = tget d.egr.cbs Cbs.zero (8 * n + c) →
    ∃ (e : Dev) (v : Cbs), exec (.cbsCreditReachesZero n c) ⟨d, q⟩ = .next ⟨e, q⟩ ∧ tget e.egr.cbs Cbs.zero (8 * n + c) = v ∧
      (d.bitOf (Reg.EGRS_PORT_SCHED.CBS_EN n) c = false → v = b) ∧
      (d.bitOf (Reg.EGRS_PORT_SCHED.CBS_EN n) c = true → v.at_ = d.now ∧
        -(d.rd (Reg.EGRS_CBS_CREDIT.LO_CREDIT n c) * 65536 : Nat) ≤ v.credit ∧
        v.credit ≤ (d.rd (Reg.EGRS_CBS_CREDIT.HI_CREDIT n c) * 65536 : Nat) ∧
        (d.classOnMac n c = none → d.queueHead n c = none → 0 < b.credit → v.credit = 0) ∧
        (d.classOnMac n c = none → (d.queueHead n c).isSome = true → (d.gatesAt n (d.now - b.at_)).testBit c = true →
          v.credit = clampI (b.credit + rateUnits (d.rd (Reg.EGRS_CBS_IDLE.IDLE_SLOPE n c)) (d.now - b.at_))
            (-(d.rd (Reg.EGRS_CBS_CREDIT.LO_CREDIT n c) * 65536 : Nat)) (d.rd (Reg.EGRS_CBS_CREDIT.HI_CREDIT n c) * 65536 : Nat))) ∧
      e.egr.tx = d.egr.tx ∧ e.egr.tbs = d.egr.tbs ∧ e.egr.gate = d.egr.gate ∧ e = { d with egr := e.egr }) ∧
  (∀ (d : Dev) (q : List Instr) (n c : Nat) (b : Bucket), d.hold.live = true → n < 258 → c < 9 → b = tget d.egr.tbs Bucket.full (9 * n + c) →
    ∃ e : Dev, exec (.tokenBucketReachesZero n c) ⟨d, q⟩ = .next ⟨e, q⟩ ∧
      tget e.egr.tbs Bucket.full (9 * n + c) = ⟨max 0 (b.used - rateUnits (d.rd (Reg.EGRS_TBS_RATE.RATE n c)) (d.now - b.at_)), d.now⟩ ∧
      (∀ k, k ≠ 9 * n + c → tget e.egr.tbs Bucket.full k = tget d.egr.tbs Bucket.full k) ∧ e.egr.tx = d.egr.tx ∧ e = { d with
        egr := e.egr })

/-- A sample moves an unpaired base as the servo says, and its state follows samples, losses and time. OFFSET_SAMPLE outside
LOCKED with STEP_EN and an offset over STEP_US steps the base and leaves I and FREQ; else I and FREQ follow the clamped PI
equations, from I = -AVG on entry from HOLDOVER; the eighth good sample locks the base, sets EVER_LOCKED and at the first
lock START_MARK; in LOCKED AVG follows, and the fourth sample over the threshold is a fault into HOLDOVER. With FREQ_TCLK
the measured frequency stands for I. SOURCE_LOSS takes LOCKED to HOLDOVER and ACQUIRING to FREERUN, HOLDOVER_EXPIRY takes
HOLDOVER to FREERUN; otherwise both change nothing. PPS_IN_EDGE samples every base on PPS_IN. TCLK_LOST and TCLK_RETURN move
the flag. Products are floored and TCLK_LOST acts on the bases that use TCLK_IN (DEDUCED, log entry 38). All 8 bases stand
in the state (TablesStayCanonical). -/
def Obligations.ServoDisciplinesTheBase : Prop :=
  (∀ (d : Dev) (q : List Instr) (t : Nat) (off x i0 i f avg : Int) (b : TbSt) (st : Nat) (big : Bool), d.hold.live = true → t < 8 →
    d.time.tb.length = 8 → d.rd (Reg.TIME_TB_CFG.SRC t) = 1 → d.pairOf t = none → b = d.tb t → st = d.rd (Reg.TIME_TB_STATUS.STATE t) →
    avg = d.rdS (Reg.TIME_TB_AVG.VALUE t) → big = decide (d.rd (Reg.TIME_TB_THRESH.STEP_US t) * 1000 * 2 ^ 16 < off.natAbs) →
    i0 = (if st = 3 then -avg else b.integ) →
    i = clampI (i0 + d.rd (Reg.TIME_TB_KI.GAIN t) * off / 2 ^ 32) (-858993) 858993 →
    f = clampI (-(d.rd (Reg.TIME_TB_KP.GAIN t) * off / 2 ^ 32 + i)) (-858993) 858993 →
    ∃ e : Dev, exec (.offsetSample t off x) ⟨d, q⟩ = .next ⟨e, q⟩ ∧ d.counted e .tbSamples t 1 ∧
      e.rdS (Reg.TIME_TB_OFFSET.VALUE t) = clampI (off / 2 ^ 16) (-2147483648) 2147483647 ∧ e = { d with
        regs := e.regs, ctrs := e.ctrs, ctrOvf := e.ctrOvf, wire := e.wire, time := e.time } ∧
      (st ≠ 2 → d.flag (Reg.TIME_TB_CFG.STEP_EN t) = true → big = true →
        e.own t = (((d.own t : Int) - off * 2 ^ 16) % (tbModulus : Int)).toNat ∧ d.counted e .tbSteps t 1 ∧
        e.rd (Reg.TIME_TB_STATUS.STATE t) = 1 ∧ e.flag (Reg.TIME_TB_STATUS.STEPPED t) = true ∧ (e.tb t).good = 0 ∧
        (e.tb t).integ = i0 ∧ e.rdS (Reg.TIME_TB_FREQ.VALUE t) = d.rdS (Reg.TIME_TB_FREQ.VALUE t)) ∧
      (d.flag (Reg.TIME_TB_CFG.STEP_EN t) = false ∨ big = false →
        (∀ g, st ≠ 2 → g = (if off.natAbs ≤ d.rd (Reg.TIME_TB_THRESH.LOCK_NS t) * 2 ^ 16 then (if st = 1 then b.good else 0) + 1 else 0) →
          e.own t = d.own t ∧ (e.tb t).integ = i ∧ e.rdS (Reg.TIME_TB_FREQ.VALUE t) = f ∧
          (g < 8 → e.rd (Reg.TIME_TB_STATUS.STATE t) = 1 ∧ (e.tb t).good = g) ∧
          (8 ≤ g → e.rd (Reg.TIME_TB_STATUS.STATE t) = 2 ∧ e.flag (Reg.TIME_TB_STATUS.SYNC t) = true ∧
            e.flag (Reg.TIME_TB_STATUS.EVER_LOCKED t) = true ∧
            (tget d.time.startSet 0 t = 0 → tget e.time.startMark 0 t = d.presNs t)))) ∧
      (st = 2 → e.own t = d.own t ∧ e.rdS (Reg.TIME_TB_AVG.VALUE t) = avg + (f - avg) / 16 ∧ (e.tb t).integ = i ∧
        (big = false ∨ b.bad < 3 → e.rd (Reg.TIME_TB_STATUS.STATE t) = 2 ∧ e.rdS (Reg.TIME_TB_FREQ.VALUE t) = f ∧
          (e.tb t).bad = if big then b.bad + 1 else 0) ∧
        (big = true → 3 ≤ b.bad → e.rd (Reg.TIME_TB_STATUS.STATE t) = 3 ∧ d.counted e .tbFaults t 1 ∧
          d.counted e .tbHoldoverEntries t 1 ∧ e.rdS (Reg.TIME_TB_FREQ.VALUE t) = avg + (f - avg) / 16 ∧
          e.flag (Reg.TIME_TB_STATUS.SYNC t) = true ∧ e.bitOf Reg.SUPV_ALM.ALM2_SRC 5 = true))) ∧
  (∀ (d : Dev) (q : List Instr) (t : Nat) (off x : Int), d.hold.live = true →
    (8 ≤ t ∨ d.rd (Reg.TIME_TB_CFG.SRC t) = 0 ∨ d.rd (Reg.TIME_TB_CFG.SRC t) = 3 → exec (.offsetSample t off x) ⟨d, q⟩ = .next ⟨d, q⟩) ∧
    (t < 8 → d.time.tb.length = 8 → d.rd (Reg.TIME_TB_CFG.SRC t) = 2 → d.flag (Reg.TIME_TB_CFG.FREQ_TCLK t) = true →
      d.flag (Reg.TIME_TB_STATUS.TCLK_LOST t) = false → d.pairOf t = none → d.rd (Reg.TIME_TB_STATUS.STATE t) = 2 →
      off.natAbs ≤ d.rd (Reg.TIME_TB_THRESH.STEP_US t) * 1000 * 2 ^ 16 →
      ∃ e : Dev, exec (.offsetSample t off x) ⟨d, q⟩ = .next ⟨e, q⟩ ∧ (e.tb t).integ = (d.tb t).integ ∧
        e.rdS (Reg.TIME_TB_FREQ.VALUE t) = clampI (-(d.rd (Reg.TIME_TB_KP.GAIN t) * off / 2 ^ 32 + x)) (-858993) 858993 ∧ e = { d with
          regs := e.regs, ctrs := e.ctrs, ctrOvf := e.ctrOvf, wire := e.wire, time := e.time })) ∧
  (∀ (d : Dev) (q : List Instr) (t st : Nat) (avg : Int), d.hold.live = true → t < 8 → d.time.tb.length = 8 → d.pairOf t = none →
    st = d.rd (Reg.TIME_TB_STATUS.STATE t) → avg = d.rdS (Reg.TIME_TB_AVG.VALUE t) →
    (d.rd (Reg.TIME_TB_CFG.SRC t) = 0 ∨ d.rd (Reg.TIME_TB_CFG.SRC t) = 3 ∨ (d.rd (Reg.TIME_TB_CFG.SRC t) = 1 ∧ st ≠ 1 ∧ st ≠ 2) ∨
        (d.rd (Reg.TIME_TB_CFG.SRC t) = 2 ∧ ∀ l, d.time.ppsLast = some l → d.now < l + 1500000000) →
      exec (.sourceLoss t) ⟨d, q⟩ = .next ⟨d, q⟩) ∧
    (d.rd (Reg.TIME_TB_CFG.SRC t) = 1 ∨
        (d.rd (Reg.TIME_TB_CFG.SRC t) = 2 ∧ ∃ l, d.time.ppsLast = some l ∧ l + 1500000000 ≤ d.now) →
      (st = 2 → ∃ e : Dev, exec (.sourceLoss t) ⟨d, q⟩ = .next ⟨e, q⟩ ∧ e.rd (Reg.TIME_TB_STATUS.STATE t) = 3 ∧
        e.flag (Reg.TIME_TB_STATUS.SYNC t) = true ∧ e.rdS (Reg.TIME_TB_FREQ.VALUE t) = avg ∧ (e.tb t).holdAt = d.now ∧
        d.counted e .tbHoldoverEntries t 1 ∧ e.bitOf Reg.SUPV_ALM.ALM2_SRC 5 = true ∧ e = { d with
          regs := e.regs, ctrs := e.ctrs, ctrOvf := e.ctrOvf, wire := e.wire, time := e.time }) ∧
      (st = 1 → ∃ e : Dev, exec (.sourceLoss t) ⟨d, q⟩ = .next ⟨e, q⟩ ∧ e.rd (Reg.TIME_TB_STATUS.STATE t) = 0 ∧
        e.flag (Reg.TIME_TB_STATUS.SYNC t) = false ∧ e.rdS (Reg.TIME_TB_FREQ.VALUE t) = avg ∧ (e.tb t).integ = -avg ∧ e = { d with
          regs := e.regs, ctrs := e.ctrs, ctrOvf := e.ctrOvf, wire := e.wire, time := e.time })) ∧
    (st ≠ 3 ∨ d.now ≤ (d.tb t).holdAt + d.rd (Reg.TIME_TB_CFG.HOLDOVER_S t) * 10 ^ 9 →
      exec (.holdoverExpiry t) ⟨d, q⟩ = .next ⟨d, q⟩) ∧
    (st = 3 → (d.tb t).holdAt + d.rd (Reg.TIME_TB_CFG.HOLDOVER_S t) * 10 ^ 9 < d.now →
      ∃ e : Dev, exec (.holdoverExpiry t) ⟨d, q⟩ = .next ⟨e, q⟩ ∧ e.rd (Reg.TIME_TB_STATUS.STATE t) = 0 ∧
        e.flag (Reg.TIME_TB_STATUS.SYNC t) = false ∧ e.rdS (Reg.TIME_TB_FREQ.VALUE t) = avg ∧ (e.tb t).integ = -avg ∧ e = { d with
          regs := e.regs, ctrs := e.ctrs, ctrOvf := e.ctrOvf, wire := e.wire, time := e.time })) ∧
  (∀ (d : Dev) (q : List Instr) (r : Bool) (x : Int), d.hold.live = true →
    (d.flag Reg.TIME_PPS_CFG.EN = false ∨ r = d.flag Reg.TIME_PPS_CFG.POL → exec (.ppsInEdge r x) ⟨d, q⟩ = .next ⟨d, q⟩) ∧
    (d.flag Reg.TIME_PPS_CFG.EN = true → r ≠ d.flag Reg.TIME_PPS_CFG.POL →
      ∃ e : Dev, exec (.ppsInEdge r x) ⟨d, q⟩ = .next ⟨e, q⟩ ∧ e.time.ppsLast = some d.now ∧
        (∀ t, t < 8 → d.rd (Reg.TIME_TB_CFG.SRC t) = 2 → d.counted e .tbSamples t 1 ∧
          e.rdS (Reg.TIME_TB_OFFSET.VALUE t) = clampI (d.ppsSample t / 2 ^ 16) (-2147483648) 2147483647) ∧
        (∀ t, t < 8 → d.rd (Reg.TIME_TB_CFG.SRC t) ≠ 2 → d.counted e .tbSamples t 0 ∧ e.own t = d.own t ∧
          e.reg (Reg.TIME_TB_STATUS.addr t) = d.reg (Reg.TIME_TB_STATUS.addr t)) ∧ e = { d with
            regs := e.regs, ctrs := e.ctrs, ctrOvf := e.ctrOvf, wire := e.wire, time := e.time })) ∧
  (∀ (d : Dev) (q : List Instr), d.hold.live = true →
    (∃ e : Dev, exec .tclkLost ⟨d, q⟩ = .next ⟨e, q⟩ ∧ e.time = { d.time with tclkAbsent := true } ∧
      (∀ t, t < 8 → e.flag (Reg.TIME_TB_STATUS.TCLK_LOST t) = (d.flag (Reg.TIME_TB_STATUS.TCLK_LOST t) ||
        (d.rd (Reg.TIME_TB_CFG.SRC t) == 2 && d.flag (Reg.TIME_TB_CFG.FREQ_TCLK t)))) ∧ e = { d with
          regs := e.regs, time := e.time }) ∧
    (∃ e : Dev, exec .tclkReturn ⟨d, q⟩ = .next ⟨e, q⟩ ∧ e.time = { d.time with tclkAbsent := false } ∧
      (∀ t, t < 8 → e.flag (Reg.TIME_TB_STATUS.TCLK_LOST t) = false) ∧
      d.regsBut e ((List.range 8).map Reg.TIME_TB_STATUS.addr) ∧ e = { d with regs := e.regs, time := e.time }))

/-- A pair reverts and slews without a step of its time; TIO pins; captures; reads that latch. PAIR_REVERT after REVERT_S of
LOCKED makes PRIMARY the source, counts and leaves the presentation time where it was; PAIR_SLEW moves D at most 10 ns
toward zero once in a millisecond; otherwise they change nothing. TIO_OUTPUT_EDGE drives the pin as its schedule says at
this time and ends a one-shot. TIO_CAPTURE queues a selected edge, or with 8 waiting sets OVF and counts. TIO_CAP_READ by a
privileged master removes the oldest and latches it; of any other master it removes nothing. TB_TIME_READ answers the
nanoseconds and latches seconds and fraction. All 8 bases and 4 pairs stand in the state (TablesStayCanonical). -/
def Obligations.PairsPinsAndReadsOfTime : Prop :=
  (∀ (d : Dev) (q : List Instr) (k a b : Nat), d.hold.live = true → k < 4 → d.time.tb.length = 8 → d.time.pair.length = 4 →
    a = d.rd (Reg.TIME_PAIR_CFG.PRIMARY k) → b = d.rd (Reg.TIME_PAIR_CFG.SECONDARY k) →
    (d.flag (Reg.TIME_PAIR_CFG.REVERT k) = false ∨ d.flag (Reg.TIME_PAIR_STATUS.SOURCE k) = false ∨ d.pairOn k = false ∨
        d.rd (Reg.TIME_TB_STATUS.STATE a) ≠ 2 ∨ d.now < (d.tb a).lockedAt + d.rd (Reg.TIME_PAIR_CFG.REVERT_S k) * 10 ^ 9 →
      exec (.pairRevert k) ⟨d, q⟩ = .next ⟨d, q⟩) ∧
    (d.flag (Reg.TIME_PAIR_CFG.REVERT k) = true → d.flag (Reg.TIME_PAIR_STATUS.SOURCE k) = true → d.pairOn k = true →
      d.rd (Reg.TIME_TB_STATUS.STATE a) = 2 → (d.tb a).lockedAt + d.rd (Reg.TIME_PAIR_CFG.REVERT_S k) * 10 ^ 9 ≤ d.now →
      d.pairOf a = some k → d.pairOf b = some k →
      ∃ e : Dev, exec (.pairRevert k) ⟨d, q⟩ = .next ⟨e, q⟩ ∧ e.flag (Reg.TIME_PAIR_STATUS.SOURCE k) = false ∧ e.pairSource k = a ∧
        e.pres a = d.pres a ∧ e.pres b = d.pres b ∧ e.pairD k = (d.own a : Int) - d.pres b ∧ d.counted e .pairSwitches k 1 ∧
        e.bitOf Reg.SUPV_ALM.ALM2_SRC 5 = true ∧ d.ctrsBut e [Ctr.pairSwitches.key k] ∧ (∀ t, e.tb t = d.tb t) ∧
        e = { d with regs := e.regs, ctrs := e.ctrs, ctrOvf := e.ctrOvf, wire := e.wire, time := e.time }) ∧
    (d.pairOn k = false ∨ d.pairD k = 0 ∨ (∃ p, d.time.pair[k]? = some p ∧ d.now < p.slewAt + 1000000) →
      exec (.pairSlew k) ⟨d, q⟩ = .next ⟨d, q⟩) ∧
    (∀ p, d.pairOn k = true → d.time.pair[k]? = some p → p.dRem ≠ 0 → p.slewAt + 1000000 ≤ d.now →
      ∃ e : Dev, exec (.pairSlew k) ⟨d, q⟩ = .next ⟨e, q⟩ ∧
        e.pairD k = (if 0 ≤ p.dRem then max 0 (p.dRem - 10 * nsUnit) else min 0 (p.dRem + 10 * nsUnit)) ∧
        e.flag (Reg.TIME_PAIR_STATUS.SLEWING k) = (e.pairD k != 0) ∧ (∀ t, e.tb t = d.tb t) ∧
        (e.time.pair[k]?).map PairSt.slewAt = some d.now ∧
        d.regsBut e [Reg.TIME_PAIR_STATUS.addr k, Reg.TIME_PAIR_D.addr k] ∧ e = { d with
          regs := e.regs, time := e.time })) ∧
  (∀ (d : Dev) (q : List Instr) (i : Nat), d.hold.live = true → i < 16 →
    (d.rd (Reg.TIO_CFG.MODE i) = 0 ∨ d.rd (Reg.TIO_CFG.MODE i) = 3 ∨ d.tioOn i = (tget d.time.tioActive 0 i == 1) →
      exec (.tioOutputEdge i) ⟨d, q⟩ = .next ⟨d, q⟩) ∧
    (d.rd (Reg.TIO_CFG.MODE i) = 1 ∨ d.rd (Reg.TIO_CFG.MODE i) = 2 → d.tioOn i ≠ (tget d.time.tioActive 0 i == 1) →
      ∃ e : Dev, exec (.tioOutputEdge i) ⟨d, q⟩ = .next ⟨e, q⟩ ∧ tget e.time.tioActive 0 i = (if d.tioOn i then 1 else 0) ∧
        e.wire = d.wire ++ [.pin "TIO" i (d.tioOn i != d.flag (Reg.TIO_CFG.POL i))] ∧
        (d.tioOn i = false → d.rd (Reg.TIO_CFG.MODE i) = 1 → tget e.time.tioDone 0 i = 1) ∧ e = { d with
          wire := e.wire, time := e.time }) ∧
    (∀ r, d.rd (Reg.TIO_CFG.MODE i) ≠ 3 ∨ edgeTaken (d.rd (Reg.TIO_CFG.EDGE i)) (d.flag (Reg.TIO_CFG.POL i)) r = false →
      exec (.tioCapture i r) ⟨d, q⟩ = .next ⟨d, q⟩) ∧
    (∀ r, d.rd (Reg.TIO_CFG.MODE i) = 3 → edgeTaken (d.rd (Reg.TIO_CFG.EDGE i)) (d.flag (Reg.TIO_CFG.POL i)) r = true →
      ((tget d.time.tioFifo [] i).length < 8 → ∃ (e : Dev) (t : Nat), exec (.tioCapture i r) ⟨d, q⟩ = .next ⟨e, q⟩ ∧
        tget e.time.tioFifo [] i = tget d.time.tioFifo [] i ++ [(t, if r then 0 else 1)] ∧
        (d.rdS (Reg.TIO_ADJ.ADJ i) = 0 → d.presNs (d.rd (Reg.TIO_CFG.TB i)) < 2 ^ 48 * 10 ^ 9 →
          t = d.presNs (d.rd (Reg.TIO_CFG.TB i)) * nsUnit) ∧
        d.counted e .tioCaptures i 1 ∧ (∀ j, j ≠ i → tget e.time.tioFifo [] j = tget d.time.tioFifo [] j) ∧ e = { d with
          ctrs := e.ctrs, ctrOvf := e.ctrOvf, time := e.time }) ∧
      (8 ≤ (tget d.time.tioFifo [] i).length → ∃ e : Dev, exec (.tioCapture i r) ⟨d, q⟩ = .next ⟨e, q⟩ ∧
        e.flag (Reg.TIO_STATUS.OVF i) = true ∧ d.counted e .tioCaptureOverflow i 1 ∧ d.regsBut e [Reg.TIO_STATUS.addr i] ∧
        e = { d with regs := e.regs, ctrs := e.ctrs, ctrOvf := e.ctrOvf })) ∧
    (∀ t x r, tget d.time.tioFifo [] i = (t, x) :: r → ∃ e : Dev, exec (.tioCapRead 0x10 i) ⟨d, q⟩ = .next ⟨e, q⟩ ∧
      tget e.time.tioFifo [] i = r ∧ e.rd (Reg.TIO_CAP_SLO.CAP i) = tSec t % 2 ^ 32 ∧ e.rd (Reg.TIO_CAP_SHI.CAP i) = shiWord t % 2 ^ 32 ∧
      e.rd (Reg.TIO_STATUS.LAST_EDGE i) = x % 2 ∧ .completion 0x10 (Reg.TIO_CAP_NS.addr i) (tNs t) ∈ e.wire ∧ e = { d with
        regs := e.regs, host := e.host, wire := e.wire, time := e.time }) ∧
    (∃ e : Dev, exec (.tioCapRead 0x01 i) ⟨d, q⟩ = .next ⟨e, q⟩ ∧ e.reg (Reg.TIO_CAP_SLO.addr i) = d.reg (Reg.TIO_CAP_SLO.addr i) ∧
      e = { d with regs := e.regs, host := e.host, wire := e.wire })) ∧
  (∀ (d : Dev) (q : List Instr) (t : Nat), d.hold.live = true → t < 8 →
    (∃ (e : Dev) (l : List Out), exec (.tbTimeRead 0x10 t false) ⟨d, q⟩ = .next ⟨e, q⟩ ∧
      e.wire = d.wire ++ l ++ [.completion 0x10 (Reg.TIME_TB_NS.addr t) (tNs (d.own t))] ∧
      e.rd (Reg.TIME_TB_SLO.TIME t) = tSec (d.own t) % 2 ^ 32 ∧ e.rd (Reg.TIME_TB_SHI.TIME t) = shiWord (d.own t) % 2 ^ 32 ∧
      e = { d with regs := e.regs, host := e.host, wire := e.wire }) ∧
    (∃ (e : Dev) (l : List Out), exec (.tbTimeRead 0x10 t true) ⟨d, q⟩ = .next ⟨e, q⟩ ∧
      e.wire = d.wire ++ l ++ [.completion 0x10 (Reg.TIME_TB_PNS.addr t) (tNs (d.pres t))] ∧
      e.rd (Reg.TIME_TB_PSLO.TIME t) = tSec (d.pres t) % 2 ^ 32 ∧ e.rd (Reg.TIME_TB_PSHI.TIME t) = shiWord (d.pres t) % 2 ^ 32 ∧
      e = { d with regs := e.regs, host := e.host, wire := e.wire }))

/-- Messages the time protocol engine consumes, drops, sends and corrects. PTP_RX of a frame that matches no instance, or
that its TYPE forwards, changes nothing; a taken frame is consumed and counted on its port, a management message also as
ignored, and the outcome of the BMCA shows in the status of an OC or BC; with 256 waiting it is discarded and counted in
ptp_engine_drop. PTP_TX builds a frame from the port MAC in the instance's class queue and counts it. TC2_FORWARD within 10
ms sends the held general message on a port whose event copy left its timestamp; TC2_ABANDON after 10 ms counts a port
without one. One message per microsecond, and ptp_tx for TC2 copies: DEDUCED, log entry 38. Frame numbers stay fresh
(FrameNumbersStayFresh). -/
def Obligations.PtpEngineTakesAndSends : Prop :=
  (∀ (d : Dev) (q : List Instr) (i : Nat) (f : Frame) (o : Option Bmca), d.hold.live = true → d.frame i = some f →
    (f.stage ≠ .identify ∨ d.ptpTakes f = none → exec (.ptpRx i o) ⟨d, q⟩ = .next ⟨d, q⟩) ∧
    (∀ k, f.stage = .identify → d.ptpTakes f = some k → 256 ≤ d.ptpWaiting.length →
      ∃ e : Dev, exec (.ptpRx i o) ⟨d, q⟩ = .next ⟨e, q⟩ ∧ d.counted e .ptpEngineDrop k 1 ∧ d.counted e .framesConsumed 0 1 ∧
        (∀ g, e.frame i = some g → g.stage = .gone) ∧ e = { d with
          regs := e.regs, ctrs := e.ctrs, ctrOvf := e.ctrOvf, wire := e.wire, supv := e.supv, path := e.path,
          deck := e.deck, vat := e.vat, time := e.time }) ∧
    (∀ k, f.stage = .identify → d.ptpTakes f = some k → d.ptpWaiting.length < 256 →
      ∃ (e : Dev) (m : PtpMsg), exec (.ptpRx i o) ⟨d, q⟩ = .next ⟨e, q⟩ ∧ d.counted e .ptpRx f.port 1 ∧ d.counted e .framesConsumed 0 1 ∧
        d.counted e .ptpMgmtIgnored k (if f.hvF 25 0 4 = 0xD then 1 else 0) ∧ e.time.ptpBuf = d.ptpWaiting ++ [m] ∧
        m.inst = k ∧ m.port = f.port ∧ m.msgType = f.hvF 25 0 4 ∧ m.seqId = f.hvF 26 0 16 ∧ d.now + 1000 ≤ m.done ∧
        (∀ g, e.frame i = some g → g.stage = .gone) ∧
        (∀ x : Bmca, o = some x → d.rd (Reg.TIME_INST_CFG.TYPE k) < 3 → e.flag (Reg.TIME_INST_STATUS.GM k) = x.gm ∧
          e.flag (Reg.TIME_INST_STATUS.PARENT_VALID k) = x.parent ∧ e.rd (Reg.TIME_INST_STATUS.SLAVE_PORT k) = x.slavePort % 2 ^ 9) ∧
        (d.rd (Reg.TIME_INST_CFG.TYPE k) = 4 → f.hvF 25 0 4 = 8 ∨ f.hvF 25 0 4 = 9 →
          ∃ h ∈ e.time.tc2, h.inst = k ∧ h.bytes = f.bytes ∧ h.since = d.now) ∧
        e = { d with
          regs := e.regs, ctrs := e.ctrs, ctrOvf := e.ctrOvf, wire := e.wire, supv := e.supv, path := e.path,
          deck := e.deck, vat := e.vat, time := e.time })) ∧
  (∀ (d : Dev) (q : List Instr) (k n : Nat) (b : List Byte), d.hold.live = true →
    (d.boot.released = false ∨ 8 ≤ k ∨ d.flag (Reg.TIME_INST_CFG.EN k) = false ∨ d.ptpBad k = true ∨ d.ptpPort k n = false →
      exec (.ptpTx k n b) ⟨d, q⟩ = .next ⟨d, q⟩) ∧
    ((∀ f ∈ d.path.frames, f.id < d.path.nextFrame) → d.boot.released = true → k < 8 → d.flag (Reg.TIME_INST_CFG.EN k) = true →
      d.ptpBad k = false → d.ptpPort k n = true → d.configured n = true → d.linkUp n = true → 46 ≤ b.length →
      d.rd (Reg.TIME_INST_CFG.TRANSPORT k) = 0 →
      ∃ (e : Dev) (f : Frame) (c : Copy) (mt : Nat), exec (.ptpTx k n b) ⟨d, q⟩ = .next ⟨e, q⟩ ∧ mt = fromBe (slice b 0 1) % 16 ∧
        e.path.copies = d.path.copies ++ [c] ∧ c.dst = n ∧ c.cls = d.rd (Reg.TIME_INST_CFG.CLASS k) ∧ c.queued = true ∧
        c.frame = d.path.nextFrame ∧ e.frame d.path.nextFrame = some f ∧ f.inst = some k ∧
        f.bytes = (be 6 (if d.rd (Reg.TIME_INST_CFG.PROFILE k) = 4 ∨ mt = 2 ∨ mt = 3 ∨ mt = 0xA then 0x0180C200000E else 0x011B19000000) ++
          be 6 (d.portMac n) ++ be 2 0x88F7 ++ b) ++ fcsOf (be 6 (if d.rd (Reg.TIME_INST_CFG.PROFILE k) = 4 ∨ mt = 2 ∨ mt = 3 ∨ mt = 0xA
          then 0x0180C200000E else 0x011B19000000) ++ be 6 (d.portMac n) ++ be 2 0x88F7 ++ b) ∧
        d.counted e .ptpTx n 1 ∧ d.counted e .framesOriginated 0 1 ∧ e = { d with
          ctrs := e.ctrs, ctrOvf := e.ctrOvf, path := e.path })) ∧
  (∀ (d : Dev) (q : List Instr) (k s m n : Nat) (h : Tc2Held), d.hold.live = true → d.tc2Held k s m = some h →
    (∀ x, d.tc2Entry h n = some x → d.now < h.since + 10 ^ 7 → n ∉ h.served →
      ∃ (e : Dev) (c : Copy), exec (.tc2Forward k s m n) ⟨d, q⟩ = .next ⟨e, q⟩ ∧ e.path.copies = d.path.copies ++ [c] ∧ c.dst = n ∧
        c.cls = d.rd (Reg.TIME_INST_CFG.CLASS k) ∧ c.queued = true ∧ (∀ y ∈ tget e.time.tsq [] n, y ≠ x) ∧ d.counted e .ptpTx n 1 ∧
        e = { d with ctrs := e.ctrs, ctrOvf := e.ctrOvf, path := e.path, time := e.time }) ∧
    (d.tc2Entry h n = none ∨ h.since + 10 ^ 7 ≤ d.now ∨ n ∈ h.served → exec (.tc2Forward k s m n) ⟨d, q⟩ = .next ⟨d, q⟩) ∧
    (d.tc2Entry h n = none → h.since + 10 ^ 7 ≤ d.now → n ∉ h.served → ∃ e : Dev, exec (.tc2Abandon k s m n) ⟨d, q⟩ = .next ⟨e, q⟩ ∧
      d.counted e .tc2Abandoned n 1 ∧ d.ctrsBut e [Ctr.tc2Abandoned.key n] ∧ e = { d with
        ctrs := e.ctrs, ctrOvf := e.ctrOvf, time := e.time }) ∧
    (d.tc2Entry h n ≠ none ∨ d.now < h.since + 10 ^ 7 ∨ n ∈ h.served → exec (.tc2Abandon k s m n) ⟨d, q⟩ = .next ⟨d, q⟩))

/-- Heartbeats, the failure of a supervisor, the takeover that follows and its completion. SUPV_HEARTBEAT by the supervisor
itself marks the instant and, if it is ACTIVE, releases WDOG_OUT_N; by another master it marks nothing. A miss after 200 us
or a machine check sets the cause, ROLE FAILED, or OFF and DISABLED at the third failure in an hour, raises ALM2, is counted
and logged; if the ACTIVE fails, a STANDBY that is STANDBY_READY takes over, and a takeover whose STANDBY fails is
abandoned. A machine check of the boot ROM on SUP-A moves the boot to SUP-B. TAKEOVER_COMPLETE makes the supervisor ACTIVE
with a heartbeat, counts and logs it; after a failure open exchanges and unfinished journal writes are gone. WATCHDOG_EXPIRY
drives the pin after WDOG_MS. Otherwise they change nothing. What a takeover loses: DEDUCED, log entries 8 to 19. -/
def Obligations.SupervisorsFailAndTakeOver : Prop :=
  (∀ (d : Dev) (q : List Instr) (s m v : Nat), d.hold.live = true → s < 2 →
    (d.supRuns s = true → ∃ e : Dev, exec (.supvHeartbeat (0x10 + s) s v) ⟨d, q⟩ = .next ⟨e, q⟩ ∧ tget e.supv.lastHb 0 s = d.now ∧
      (∀ r, r ≠ s → tget e.supv.lastHb 0 r = tget d.supv.lastHb 0 r) ∧
      (d.role s = 1 → e.flag Reg.SUPV_PAIR_STATUS.WDOG = false ∧
        (d.flag Reg.SUPV_PAIR_STATUS.WDOG = true → .pin "WDOG_OUT_N" 0 true ∈ e.wire)) ∧ e = { d with
          regs := e.regs, host := e.host, wire := e.wire, supv := e.supv }) ∧
    (d.supRuns s = false ∨ m ≠ 0x10 + s → ∃ e : Dev, exec (.supvHeartbeat m s v) ⟨d, q⟩ = .next ⟨e, q⟩ ∧ e = { d with
      regs := e.regs, host := e.host, wire := e.wire })) ∧
  (∀ (d : Dev) (q : List Instr) (s cause n : Nat) (i : Instr), d.hold.live = true → s < 2 → d.supRuns s = true →
    (i = .supvHeartbeatMiss s ∧ cause = 1 ∧ tget d.supv.lastHb 0 s + 200000 ≤ d.now) ∨ (i = .supvMachineCheck s ∧ cause = 2) →
    n = ((d.supv.fails.filter fun f => decide (d.now < f.2 + 3600 * 10 ^ 9)).filter fun f => f.1 == s).length →
    ∃ e : Dev, exec i ⟨d, q⟩ = .next ⟨e, q⟩ ∧ e.rd (Reg.SUPV_CORE_STATUS.LAST_CAUSE s) = cause ∧ d.counted e .supvFailures 0 1 ∧
      d.maskBit e Reg.SUPV_ALM.ALM2_SRC 2 true ∧ e.supv.logQ = d.queued ⟨0xB002, 2, 0, s, false, le 1 s ++ le 1 cause⟩ ∧
      e.rd (Reg.SUPV_CORE_STATUS.FAILS_1H s) = min (n + 1) 255 ∧ e.flag (Reg.SUPV_CORE_STATUS.STANDBY_READY s) = false ∧
      (n < 2 → e.role s = 3 ∧ e.power = d.power) ∧
      (2 ≤ n → e.role s = 0 ∧ e.flag (Reg.SUPV_CORE_STATUS.DISABLED s) = true) ∧
      (∀ b, d.role s = 1 → d.standbySup = some b → d.flag (Reg.SUPV_CORE_STATUS.STANDBY_READY b) = true →
        e.supv.takeover = some ⟨b, cause, d.now⟩ ∧ e.flag Reg.SUPV_PAIR_STATUS.TAKING_OVER = true) ∧
      (d.role s = 1 → d.standbySup = none → e.supv.takeover = d.supv.takeover) ∧
      (∀ t, d.role s ≠ 1 → d.supv.takeover = some t → t.sup = s →
        e.supv.takeover = none ∧ e.flag Reg.SUPV_PAIR_STATUS.TAKING_OVER = false) ∧
      d.regsBut e [Reg.SUPV_CORE_STATUS.addr s, Reg.SUPV_PAIR_STATUS.addr, Reg.HOST_PEER_ALIVE.addr, Reg.SUPV_ALM.addr,
        Reg.HOST_INT_STATUS.addr, Reg.PWCK_DOM_STATUS.addr (92 + s)] ∧ e = { d with
          regs := e.regs, ctrs := e.ctrs, ctrOvf := e.ctrOvf, wire := e.wire, supv := e.supv, power := e.power }) ∧
  (∀ (d : Dev) (q : List Instr) (s : Nat), d.hold.live = true → s < 2 →
    (d.supRuns s = false ∨ d.now < tget d.supv.lastHb 0 s + 200000 → exec (.supvHeartbeatMiss s) ⟨d, q⟩ = .next ⟨d, q⟩) ∧
    (d.supRuns s = false → d.romOn s = false → exec (.supvMachineCheck s) ⟨d, q⟩ = .next ⟨d, q⟩) ∧
    (d.romOn 0 = true → d.supv.fails = [] → ∃ e : Dev, exec (.supvMachineCheck 0) ⟨d, q⟩ = .next ⟨e, q⟩ ∧ e.boot.bootOnB = true ∧ e.role 0 = 3 ∧
      d.counted e .supvFailures 0 1 ∧ e = { d with
        regs := e.regs, ctrs := e.ctrs, ctrOvf := e.ctrOvf, wire := e.wire, supv := e.supv, boot := e.boot })) ∧
  (∀ (d : Dev) (q : List Instr), d.hold.live = true →
    (d.supv.takeover = none → exec .takeoverComplete ⟨d, q⟩ = .next ⟨d, q⟩) ∧
    (∀ t c, d.supv.takeover = some t → t.sup < 2 → newestCkpt d.supv.ckpts = some c →
      ∃ e : Dev, exec .takeoverComplete ⟨d, q⟩ = .next ⟨e, q⟩ ∧ e.role t.sup = 1 ∧ e.rd Reg.SUPV_PAIR_STATUS.ACTIVE_SUP = t.sup ∧
        e.flag Reg.SUPV_PAIR_STATUS.TAKING_OVER = false ∧ e.supv.takeover = none ∧ tget e.supv.lastHb 0 t.sup = d.now ∧
        e.supv.mgmt.auditPos = c.mgmt.auditPos ∧ d.counted e .supvTakeovers 0 1 ∧
        e.supv.logQ = d.queued ⟨0xB001, 2, t.sup + 1, t.sup, false,
          le 1 t.cause ++ le 1 t.sup ++ le 2 0 ++ le 4 ((d.now - c.at_) / 1000)⟩ ∧ e.boot.armed = d.boot.armed ∧
        (t.cause ≠ 3 → (∀ k, (e.chan k).opened = none) ∧ (∀ a ∈ e.boot.amds, a.phase ≠ .journaling) ∧ e.host.jobs = []) ∧
        (t.cause = 3 → e.boot = d.boot ∧ e.host.jobs = d.host.jobs ∧ ∀ k, (e.chan k).opened = (d.chan k).opened) ∧
        e = { d with
          regs := e.regs, ctrs := e.ctrs, ctrOvf := e.ctrOvf, wire := e.wire, supv := e.supv, host := e.host,
          boot := e.boot, look := e.look, strm := e.strm, deck := e.deck }) ∧
    (max (tget d.supv.lastHb 0 0) (tget d.supv.lastHb 0 1) + d.rd Reg.SUPV_PAIR_CTRL.WDOG_MS * 1000000 ≤ d.now →
      ∃ e : Dev, exec .watchdogExpiry ⟨d, q⟩ = .next ⟨e, q⟩ ∧ e.flag Reg.SUPV_PAIR_STATUS.WDOG = true ∧
        e.wire = d.wire ++ [.pin "WDOG_OUT_N" 0 false] ∧ d.regsBut e [Reg.SUPV_PAIR_STATUS.addr] ∧ e = { d with
          regs := e.regs, wire := e.wire }) ∧
    (d.now < max (tget d.supv.lastHb 0 0) (tget d.supv.lastHb 0 1) + d.rd Reg.SUPV_PAIR_CTRL.WDOG_MS * 1000000 →
      exec .watchdogExpiry ⟨d, q⟩ = .next ⟨d, q⟩))

/-- Checkpoint slots, the readiness of the STANDBY, its restart and the forced switch. CHECKPOINT_WRITE by an ACTIVE
supervisor fills the next of the two slots and counts it, or leaves that slot incomplete; CHECKPOINT_LOAD makes the STANDBY
ready from a newer slot less than 20 ms old; STANDBY_READY_LAPSE ends readiness at 20 ms. SUPERVISOR_RESTART takes a FAILED
supervisor to RESYNC while one is ACTIVE and the copy checks; RESYNC_DONE takes it to STANDBY from the newest slot.
FORCED_SWITCH by a privileged master, with the STANDBY ready, writes a last checkpoint, sets the former ACTIVE to RESYNC and
begins takeover with cause SWITCH; without a ready STANDBY or privilege no role changes. A failed slot write logs nothing:
DEDUCED, log entry 43. -/
def Obligations.CheckpointsAndForcedSwitches : Prop :=
  (∀ (d : Dev) (q : List Instr), d.hold.live = true →
    (∀ b, d.supRunning = false → exec (.checkpointWrite b) ⟨d, q⟩ = .next ⟨d, q⟩) ∧
    (d.supRunning = true →
      (∃ (e : Dev) (c : Ckpt), exec (.checkpointWrite true) ⟨d, q⟩ = .next ⟨e, q⟩ ∧ c ∈ e.supv.ckpts ∧ c.slot = d.supv.ckptSeq % 2 ∧
        c.seq = d.supv.ckptSeq + 1 ∧ c.at_ = d.now ∧ c.mgmt.persist = d.supv.mgmt.persist ∧ e.supv.ckptSeq = d.supv.ckptSeq + 1 ∧
        (∀ x, x ∈ e.supv.ckpts ↔ x = c ∨ (x ∈ d.supv.ckpts ∧ x.slot ≠ c.slot)) ∧ d.counted e .supvCheckpoints 0 1 ∧
        d.ctrsBut e [Ctr.supvCheckpoints.key 0] ∧ e = { d with
          ctrs := e.ctrs, ctrOvf := e.ctrOvf, supv := e.supv }) ∧
      (∃ e : Dev, exec (.checkpointWrite false) ⟨d, q⟩ = .next ⟨e, q⟩ ∧
        (∀ x, x ∈ e.supv.ckpts ↔ x ∈ d.supv.ckpts ∧ x.slot ≠ d.supv.ckptSeq % 2) ∧ e.supv.ckptSeq = d.supv.ckptSeq ∧ e = { d with
          supv := e.supv })) ∧
    (∀ n, (d.standbySup = none ∨ ∀ c ∈ d.supv.ckpts, c.slot ≠ n) → exec (.checkpointLoad n) ⟨d, q⟩ = .next ⟨d, q⟩) ∧
    (∀ b c, d.standbySup = some b → d.supv.ckpts = [c] →
      (d.supv.loaded = none → 0 < c.seq → ∃ e : Dev, exec (.checkpointLoad c.slot) ⟨d, q⟩ = .next ⟨e, q⟩ ∧ e.supv.loaded = some c ∧
        e.flag (Reg.SUPV_CORE_STATUS.STANDBY_READY b) = decide (d.now < c.at_ + 20000000) ∧
        d.regsBut e [Reg.SUPV_CORE_STATUS.addr b] ∧ e = { d with regs := e.regs, supv := e.supv }) ∧
      (∀ x, d.supv.loaded = some x → c.seq ≤ x.seq → exec (.checkpointLoad c.slot) ⟨d, q⟩ = .next ⟨d, q⟩)) ∧
    (∀ b c, d.standbySup = some b → d.supv.loaded = some c →
      (c.at_ + 20000000 ≤ d.now → ∃ e : Dev, exec .standbyReadyLapse ⟨d, q⟩ = .next ⟨e, q⟩ ∧
        e.flag (Reg.SUPV_CORE_STATUS.STANDBY_READY b) = false ∧ e.role b = d.role b ∧
        d.regsBut e [Reg.SUPV_CORE_STATUS.addr b] ∧ e = { d with regs := e.regs }) ∧
      (d.now < c.at_ + 20000000 → exec .standbyReadyLapse ⟨d, q⟩ = .next ⟨d, q⟩)) ∧
    (d.standbySup = none → exec .standbyReadyLapse ⟨d, q⟩ = .next ⟨d, q⟩)) ∧
  (∀ (d : Dev) (q : List Instr) (s : Nat), d.hold.live = true → s < 2 →
    (d.supRunning = true → d.role s = 3 → ∃ e : Dev, exec (.supervisorRestart s true) ⟨d, q⟩ = .next ⟨e, q⟩ ∧ e.role s = 4 ∧
      tget e.supv.lastHb 0 s = d.now ∧ e.role (1 - s) = d.role (1 - s) ∧ e.supv.takeover = d.supv.takeover ∧ e = { d with
        regs := e.regs, wire := e.wire, supv := e.supv }) ∧
    (d.supRunning = false ∨ d.role s ≠ 3 → ∀ ok, exec (.supervisorRestart s ok) ⟨d, q⟩ = .next ⟨d, q⟩) ∧
    (exec (.supervisorRestart s false) ⟨d, q⟩ = .next ⟨d, q⟩) ∧
    (∀ c, d.role s = 4 → d.role (1 - s) ≠ 4 → newestCkpt d.supv.ckpts = some c → ∃ e : Dev, exec .resyncDone ⟨d, q⟩ = .next ⟨e, q⟩ ∧
      e.role s = 2 ∧ e.role (1 - s) = d.role (1 - s) ∧ e.supv.loaded = some c ∧
      e.flag (Reg.SUPV_CORE_STATUS.STANDBY_READY s) = decide (d.now < c.at_ + 20000000) ∧ e = { d with
        regs := e.regs, wire := e.wire, supv := e.supv }) ∧
    (d.role 0 ≠ 4 → d.role 1 ≠ 4 → exec .resyncDone ⟨d, q⟩ = .next ⟨d, q⟩)) ∧
  (∀ (d : Dev) (q : List Instr) (m a b : Nat), d.hold.live = true → d.activeSup = some a → d.standbySup = some b →
    (m = 0x10 ∨ m = 0x11 → d.flag (Reg.SUPV_CORE_STATUS.STANDBY_READY b) = true → (∀ c ∈ d.supv.ckpts, c.seq ≤ d.supv.ckptSeq) →
      ∃ (e : Dev) (c : Ckpt), exec (.forcedSwitch m) ⟨d, q⟩ = .next ⟨e, q⟩ ∧ e.role a = 4 ∧ e.role b = 2 ∧
        e.rd (Reg.SUPV_CORE_STATUS.LAST_CAUSE a) = 3 ∧ e.supv.takeover = some ⟨b, 3, d.now⟩ ∧
        e.flag Reg.SUPV_PAIR_STATUS.TAKING_OVER = true ∧ d.counted e .supvForcedSwitches 0 1 ∧ d.counted e .supvCheckpoints 0 1 ∧
        e.supv.loaded = some c ∧ c.at_ = d.now ∧ c.seq = d.supv.ckptSeq + 1 ∧ e.supv.logQ = d.supv.logQ ∧
        e = { d with
          regs := e.regs, ctrs := e.ctrs, ctrOvf := e.ctrOvf, wire := e.wire, host := e.host, supv := e.supv }) ∧
    (d.privileged m = false ∨ d.flag (Reg.SUPV_CORE_STATUS.STANDBY_READY b) = false →
      ∃ e : Dev, exec (.forcedSwitch m) ⟨d, q⟩ = .next ⟨e, q⟩ ∧ e.role a = d.role a ∧ e.role b = d.role b ∧ e = { d with
        regs := e.regs, host := e.host, wire := e.wire }))

/-- Samples of sensors, warnings, the thermal shutdown, voltage windows, rail currents and regulator alerts. A valid die
sample stands in SUPV_TEMP and in MAX; WARN sets, with ALM1, count and log, when a valid reading is at or above THERM_WARN
and clears when all are at or below THERM_WARN - HYST; the HBM stacks move HBM_WARN_ACT alike; an invalid conversion sets
FAULT and ALM1. Two samples of a valid sensor at 120 C or more make THERMAL_SHUTDOWN hold the core with the record in
SUPV_SHUTDOWN, else it changes nothing. Three samples of a monitor outside its window make VOLTAGE_OUT_OF_WINDOW set OUT,
raise ALM1, count and log; three inside clear OUT. RAIL_CURRENT_READ stands in SUPV_RAIL_I, and a rail unread for 30 ms is
STALE. REGULATOR_ALERT logs a fault while a supervisor is ACTIVE, and nothing otherwise. -/
def Obligations.SensorsAndRailsAreRead : Prop :=
  (∀ (d : Dev) (q : List Instr) (i : Nat) (v warn clear : Int), d.hold.live = true → i < 24 → -32768 ≤ v → v < 32768 →
    warn = 4 * (d.rd Reg.SUPV_THERM_CFG.THERM_WARN : Int) → clear = warn - 4 * (d.rd Reg.SUPV_THERM_CFG.HYST : Int) →
    ∃ e : Dev, exec (.sensorSample i (some v)) ⟨d, q⟩ = .next ⟨e, q⟩ ∧ e.rdS (Reg.SUPV_TEMP.TEMP i) = v ∧
      e.flag (Reg.SUPV_TEMP.VALID i) = true ∧ e.flag (Reg.SUPV_TEMP.FAULT i) = false ∧
      (∀ j, j < 24 → e.flag (Reg.SUPV_TEMP.VALID j) = true → e.rdS (Reg.SUPV_TEMP.TEMP j) ≤ e.rdS Reg.SUPV_THERM_STATUS.MAX) ∧
      (∃ j, j < 24 ∧ e.rd Reg.SUPV_THERM_STATUS.MAX_SENSOR = j ∧ e.flag (Reg.SUPV_TEMP.VALID j) = true ∧
        e.rdS (Reg.SUPV_TEMP.TEMP j) = e.rdS Reg.SUPV_THERM_STATUS.MAX) ∧
      (warn ≤ e.rdS Reg.SUPV_THERM_STATUS.MAX → e.flag Reg.SUPV_THERM_STATUS.WARN = true ∧
        (d.flag Reg.SUPV_THERM_STATUS.WARN = false → d.counted e .thermWarnEvents 0 1 ∧ e.bitOf Reg.SUPV_ALM.ALM1_SRC 0 = true ∧
          e.supv.logQ = d.queued ⟨0xB010, 4, 0, 0x10, false, le 1 (e.rd Reg.SUPV_THERM_STATUS.MAX_SENSOR) ++ le 1 0 ++
            le 2 (e.rd Reg.SUPV_THERM_STATUS.MAX)⟩)) ∧
      (e.rdS Reg.SUPV_THERM_STATUS.MAX < warn → d.counted e .thermWarnEvents 0 0 ∧ e.supv.logQ = d.supv.logQ ∧
        e.flag Reg.SUPV_THERM_STATUS.WARN =
          (decide (clear < e.rdS Reg.SUPV_THERM_STATUS.MAX) && d.flag Reg.SUPV_THERM_STATUS.WARN)) ∧
      tget e.supv.over120 0 i = (if 480 ≤ v then tget d.supv.over120 0 i + 1 else 0) ∧
      d.regsBut e ([Reg.SUPV_ALM.addr, Reg.HOST_INT_STATUS.addr] ++ [Reg.SUPV_THERM_STATUS.addr, Reg.SUPV_TEMP.addr i]) ∧ e = { d with
        regs := e.regs, ctrs := e.ctrs, ctrOvf := e.ctrOvf, wire := e.wire, supv := e.supv }) ∧
  (∀ (d : Dev) (q : List Instr) (i : Nat), d.hold.live = true → i < 26 →
    ∃ e : Dev, exec (.sensorSample i none) ⟨d, q⟩ = .next ⟨e, q⟩ ∧ e.flag (Reg.SUPV_TEMP.VALID i) = false ∧
      e.flag (Reg.SUPV_TEMP.FAULT i) = true ∧ e.bitOf Reg.SUPV_ALM.ALM1_SRC 3 = true ∧ (i < 24 → tget e.supv.over120 0 i = 0) ∧
      d.regsBut e ([Reg.SUPV_ALM.addr, Reg.HOST_INT_STATUS.addr] ++ [Reg.SUPV_THERM_STATUS.addr, Reg.SUPV_TEMP.addr i]) ∧ e = { d with
        regs := e.regs, ctrs := e.ctrs, ctrOvf := e.ctrOvf, wire := e.wire, supv := e.supv }) ∧
  (∀ (d : Dev) (q : List Instr) (i : Nat) (v : Int), d.hold.live = true → i = 24 ∨ i = 25 → -32768 ≤ v → v < 32768 →
    ∃ e : Dev, exec (.sensorSample i (some v)) ⟨d, q⟩ = .next ⟨e, q⟩ ∧ e.rdS (Reg.SUPV_TEMP.TEMP i) = v ∧
      e.flag (Reg.SUPV_TEMP.VALID i) = true ∧
      (4 * (d.rd Reg.SUPV_THERM_CFG.HBM_WARN : Int) ≤ v → e.flag Reg.SUPV_THERM_STATUS.HBM_WARN_ACT = true ∧
        (d.flag Reg.SUPV_THERM_STATUS.HBM_WARN_ACT = false →
          e.bitOf Reg.SUPV_ALM.ALM1_SRC 1 = true ∧ d.counted e .thermWarnEvents 0 1)) ∧
      e.rd Reg.SUPV_THERM_STATUS.MAX = d.rd Reg.SUPV_THERM_STATUS.MAX ∧
      d.regsBut e ([Reg.SUPV_ALM.addr, Reg.HOST_INT_STATUS.addr] ++ [Reg.SUPV_THERM_STATUS.addr, Reg.SUPV_TEMP.addr i]) ∧ e = { d with
        regs := e.regs, ctrs := e.ctrs, ctrOvf := e.ctrOvf, wire := e.wire, supv := e.supv }) ∧
  (∀ (d : Dev) (q : List Instr) (i k : Nat) (inside : Bool), d.hold.live = true → i < 32 → k < 65536 →
    inside = (decide (d.rd (Reg.SUPV_VMON_WIN.LOW i) ≤ k) && decide (k ≤ d.rd (Reg.SUPV_VMON_WIN.HIGH i))) →
    (∃ e : Dev, exec (.sensorSample (26 + i) (some k)) ⟨d, q⟩ = .next ⟨e, q⟩ ∧ e.rd (Reg.SUPV_VMON.MV i) = k ∧
      tget e.supv.vOut 0 i = (if inside then 0 else tget d.supv.vOut 0 i + 1) ∧
      tget e.supv.vIn 0 i = (if inside then tget d.supv.vIn 0 i + 1 else 0) ∧
      e.flag (Reg.SUPV_VMON.OUT i) = (d.flag (Reg.SUPV_VMON.OUT i) && !(inside && decide (2 ≤ tget d.supv.vIn 0 i))) ∧
      d.regsBut e [Reg.SUPV_VMON.addr i] ∧ e = { d with regs := e.regs, supv := e.supv }) ∧
    (exec (.sensorSample (26 + i) none) ⟨d, q⟩ = .next ⟨d, q⟩) ∧
    (3 ≤ tget d.supv.vOut 0 i → d.flag (Reg.SUPV_VMON.OUT i) = false → ∃ e : Dev, exec (.voltageOutOfWindow i) ⟨d, q⟩ = .next ⟨e, q⟩ ∧
      e.flag (Reg.SUPV_VMON.OUT i) = true ∧ e.bitOf Reg.SUPV_ALM.ALM1_SRC 2 = true ∧ d.counted e .vmonEvents 0 1 ∧
      e.supv.logQ = d.queued ⟨0xB012, 4, 0, 0x10, false, le 1 i ++ le 1 0 ++ le 2 (d.rd (Reg.SUPV_VMON.MV i)) ++
        le 2 (d.rd (Reg.SUPV_VMON_WIN.LOW i)) ++ le 2 (d.rd (Reg.SUPV_VMON_WIN.HIGH i))⟩ ∧
      d.regsBut e ([Reg.SUPV_ALM.addr, Reg.HOST_INT_STATUS.addr] ++ [Reg.SUPV_VMON.addr i]) ∧ e = { d with
        regs := e.regs, ctrs := e.ctrs, ctrOvf := e.ctrOvf, wire := e.wire, supv := e.supv }) ∧
    (tget d.supv.vOut 0 i < 3 ∨ d.flag (Reg.SUPV_VMON.OUT i) = true → exec (.voltageOutOfWindow i) ⟨d, q⟩ = .next ⟨d, q⟩)) ∧
  (∀ (d : Dev) (q : List Instr), d.hold.live = true →
    (∀ i, i < 24 → 2 ≤ tget d.supv.over120 0 i → d.flag (Reg.SUPV_TEMP.VALID i) = true →
      (∀ j, j < i → tget d.supv.over120 0 j < 2 ∨ d.flag (Reg.SUPV_TEMP.VALID j) = false) →
      ∃ e : Dev, exec .thermalShutdown ⟨d, q⟩ = .next ⟨e, q⟩ ∧ e.hold = { d.hold with shutdown := true } ∧ e.hold.live = false ∧
        e.flag Reg.SUPV_SHUTDOWN.VALID = true ∧ e.rd Reg.SUPV_SHUTDOWN.SENSOR = i ∧
        e.rd Reg.SUPV_SHUTDOWN.TEMP = d.rd (Reg.SUPV_TEMP.TEMP i) ∧ d.regsBut e [Reg.SUPV_SHUTDOWN.addr] ∧ e = { d with
          regs := e.regs, hold := e.hold }) ∧
    ((∀ j, j < 24 → tget d.supv.over120 0 j < 2 ∨ d.flag (Reg.SUPV_TEMP.VALID j) = false) →
      exec .thermalShutdown ⟨d, q⟩ = .next ⟨d, q⟩)) ∧
  (∀ (d : Dev) (q : List Instr) (r c : Nat), d.hold.live = true → r < 10 →
    (∃ e : Dev, exec (.railCurrentRead r (some c)) ⟨d, q⟩ = .next ⟨e, q⟩ ∧ e.rd (Reg.SUPV_RAIL_I.CURRENT r) = c % 65536 ∧
      e.flag (Reg.SUPV_RAIL_I.STALE r) = false ∧ tget e.supv.railAt 0 r = d.now ∧ tget e.power.pmbFails 0 r = 0 ∧
      d.regsBut e [Reg.SUPV_RAIL_I.addr r] ∧ e = { d with regs := e.regs, supv := e.supv, power := e.power }) ∧
    (∃ e : Dev, exec (.railCurrentRead r none) ⟨d, q⟩ = .next ⟨e, q⟩ ∧
      e.rd (Reg.SUPV_RAIL_I.CURRENT r) = d.rd (Reg.SUPV_RAIL_I.CURRENT r) ∧
      e.flag (Reg.SUPV_RAIL_I.STALE r) = (d.flag (Reg.SUPV_RAIL_I.STALE r) || decide (tget d.supv.railAt 0 r + 30000000 ≤ d.now)) ∧
      (2 ≤ tget d.power.pmbFails 0 r → e.flag Reg.PWCK_AVS.PMB_ERR = true) ∧ e = { d with
        regs := e.regs, ctrs := e.ctrs, ctrOvf := e.ctrOvf, supv := e.supv, power := e.power }) ∧
    (d.supRunning = false → ∀ l, exec (.regulatorAlert l) ⟨d, q⟩ = .next ⟨d, q⟩) ∧
    (∀ x, d.supRunning = true → x ≠ 0 → ∃ e : Dev, exec (.regulatorAlert [(r, x)]) ⟨d, q⟩ = .next ⟨e, q⟩ ∧
      e.supv.logQ = d.queued ⟨0xE001, 3, d.supOrigin, 0, false, d.regData Reg.PWCK_AVS.addr ++ le 1 r ++ le 1 0 ++ le 2 x⟩ ∧
      e = { d with ctrs := e.ctrs, ctrOvf := e.ctrOvf, supv := e.supv }))

/-- The log writer, supervisor records, persistence and clearing; the firmware audit; performance counters. LOG_ACCEPT takes
the oldest queued record, gives it SEQ, BOOT, time and CRC and appends it to both rings. LOG_PUT_SUBMIT of a supervisor
queues its staged record, or counts it lost with the queue full; another master submits nothing. LOG_OVERRUN_SUMMARY reports
the loss at most once a second; LOG_PERSIST writes the next record due to a region while a supervisor is ACTIVE;
LOG_CLEAR_CMD of the ACTIVE supervisor leaves one 0xB032 record and every alarm clear. FIRMWARE_AUDIT counts a pass, and
reports one upset register as its zone policy says, or repairs it. PMC_EVENT counts what EVENT selects modulo 2^48 with OVF,
PMC_CLEAR zeroes, PMC_READ latches HI. Points of the audit: DEDUCED, log entry 40; CLEAR: log entry 43. -/
def Obligations.LogRecordsAndAudits : Prop :=
  (∀ (d : Dev) (q : List Instr), d.hold.live = true →
    (d.supv.logQ = [] → exec .logAccept ⟨d, q⟩ = .next ⟨d, q⟩) ∧
    (∀ r l, d.supv.logQ = r :: l → d.supv.hbmRing.length < 16384 → ∃ (e : Dev) (x : LogEnt), exec .logAccept ⟨d, q⟩ = .next ⟨e, q⟩ ∧
      x.seq = d.rd Reg.SUPV_LOG_STATUS.NEXT_SEQ ∧ x.boot = d.boot.bootCount % 2 ^ 16 ∧ x.sec = tSec (d.pres 0) ∧ x.ns = tNs (d.pres 0) ∧
      x.sync = d.flag (Reg.TIME_TB_STATUS.SYNC 0) ∧ x.body = { r with data := slice r.data 0 36 } ∧
      x.crc = crc32 0xFFFFFFFF (logBytes x.seq x.boot x.sec x.ns x.sync r) ∧
      e.rd Reg.SUPV_LOG_STATUS.NEXT_SEQ = (x.seq + 1) % 2 ^ 32 ∧ e.supv.hbmRing = d.supv.hbmRing ++ [x] ∧
      (d.supv.flight.length < 1024 → e.supv.flight = d.supv.flight ++ [x]) ∧
      (d.supv.flight.length = 1024 → e.supv.flight = d.supv.flight.drop 1 ++ [x]) ∧ e.supv.logQ = l ∧ d.counted e .logRecords 0 1 ∧
      d.regsBut e [Reg.SUPV_LOG_STATUS.addr] ∧ e = { d with
        regs := e.regs, ctrs := e.ctrs, ctrOvf := e.ctrOvf, supv := e.supv }) ∧
    (∀ r l o, d.supv.logQ = r :: l → d.supv.hbmRing.length = 16384 → d.supv.hbmRing.head? = some o →
      d.unpersisted 0 o = true → ∃ e : Dev, exec .logAccept ⟨d, q⟩ = .next ⟨e, q⟩ ∧ d.counted e .logPersistLost 0 1 ∧
        (l.length < 64 → e.supv.logQ = l ++ [⟨0xB031, 3, 0, 0x20, false, le 4 o.seq ++ le 4 1⟩]) ∧ e = { d with
          regs := e.regs, ctrs := e.ctrs, ctrOvf := e.ctrOvf, supv := e.supv }) ∧
    (d.supv.lostRecs = 0 ∨ (∃ t, d.supv.lastSummary = some t ∧ d.now < t + 10 ^ 9) → exec .logOverrunSummary ⟨d, q⟩ = .next ⟨d, q⟩) ∧
    (d.supv.lostRecs ≠ 0 → d.supv.logQ.length < 64 → (∀ t, d.supv.lastSummary = some t → t + 10 ^ 9 ≤ d.now) →
      ∃ e : Dev, exec .logOverrunSummary ⟨d, q⟩ = .next ⟨e, q⟩ ∧ e.supv.lostRecs = 0 ∧ e.supv.lastSummary = some d.now ∧
        e.supv.logQ = d.supv.logQ ++ [⟨0xB030, 3, 0, 0x20, true, le 4 d.supv.lostRecs⟩] ∧ e = { d with
          supv := e.supv })) ∧
  (∀ (d : Dev) (q : List Instr) (s m v : Nat) (w : Nat → Nat), d.hold.live = true → s < 2 →
    w = (fun i => d.rd (Reg.SUPV_LOG_PUT.WORD s i)) →
    (∃ e : Dev, exec (.logPutSubmit (0x10 + s) s v) ⟨d, q⟩ = .next ⟨e, q⟩ ∧
      e.supv.logQ = d.queued ⟨w 1 / 2 ^ 16, min 7 (w 2 % 2 ^ 8), s + 1, w 2 / 2 ^ 16 % 2 ^ 8, (w 5).testBit 17,
        (List.range 9).flatMap fun i => le 4 (w (6 + i))⟩ ∧
      (64 ≤ d.supv.logQ.length → d.counted e .logOverrun 0 1 ∧ e.supv.lostRecs = d.supv.lostRecs + 1) ∧
      (∀ i, i < 15 → e.rd (Reg.SUPV_LOG_PUT.WORD s i) = w i) ∧ e = { d with
        regs := e.regs, ctrs := e.ctrs, ctrOvf := e.ctrOvf, host := e.host, wire := e.wire, supv := e.supv }) ∧
    (m ≠ 0x10 + s → ∃ e : Dev, exec (.logPutSubmit m s v) ⟨d, q⟩ = .next ⟨e, q⟩ ∧ e = { d with
      regs := e.regs, host := e.host, wire := e.wire })) ∧
  (∀ (d : Dev) (q : List Instr) (n m : Nat), d.hold.live = true →
    (d.supRunning = false ∨ d.supv.hbmRing.find? (d.unpersisted n) = none → exec (.logPersist n) ⟨d, q⟩ = .next ⟨d, q⟩) ∧
    (∀ x, d.supRunning = true → d.supv.hbmRing.find? (d.unpersisted n) = some x → ∃ e : Dev, exec (.logPersist n) ⟨d, q⟩ = .next ⟨e, q⟩ ∧
      e.nvm n = { d.nvm n with log := appendLog (d.nvm n).log x } ∧ (∀ k, k ≠ n → e.nvm k = d.nvm k) ∧
      e.supv.mgmt.persist = d.supv.mgmt.persist.set n (x.seq + 1) ∧ e.supv.hbmRing = d.supv.hbmRing ∧ e = { d with
        boot := e.boot, supv := e.supv }) ∧
    (∀ s, d.activeSup = some s → ∃ (e : Dev) (x : LogEnt), exec (.logClearCmd (0x10 + s)) ⟨d, q⟩ = .next ⟨e, q⟩ ∧
      e.supv.flight = [x] ∧ e.supv.hbmRing = [x] ∧ x.body = ⟨0xB032, 5, s + 1, 0x20, false, slice (le 1 (0x10 + s)) 0 36⟩ ∧
      x.seq = d.rd Reg.SUPV_LOG_STATUS.NEXT_SEQ ∧ e.reg Reg.SUPV_ALM.addr = 0 ∧ e.supv.logQ = d.supv.logQ ∧
      e = { d with
        regs := e.regs, ctrs := e.ctrs, ctrOvf := e.ctrOvf, host := e.host, wire := e.wire, supv := e.supv }) ∧
    (d.activeSup.map supMaster ≠ some m → ∃ e : Dev, exec (.logClearCmd m) ⟨d, q⟩ = .next ⟨e, q⟩ ∧ e = { d with
      regs := e.regs, host := e.host, wire := e.wire })) ∧
  (∀ (d : Dev) (q : List Instr), d.hold.live = true →
    (d.supRunning = false ∨ d.boot.cleanup ≠ [] ∨ d.boot.released = false → exec (.firmwareAudit []) ⟨d, q⟩ = .next ⟨d, q⟩) ∧
    (d.supRunning = true → d.boot.cleanup = [] → d.boot.released = true → d.regs = d.supv.refRegs → d.tabs = d.supv.refTabs →
      (∃ e : Dev, exec (.firmwareAudit []) ⟨d, q⟩ = .next ⟨e, q⟩ ∧ d.counted e .auditPasses 0 1 ∧ d.ctrsBut e [Ctr.auditPasses.key 0] ∧
        e = { d with ctrs := e.ctrs, ctrOvf := e.ctrOvf, supv := e.supv }) ∧
      (∀ (a m : Nat) (f : Word) (r : RDecl) (ix : List Nat) (x : Bool), d.canon = true → findReg a = some (r, ix) → portOfAddr a = none →
        f = BitVec.ofNat 32 m → f ≠ 0 → f &&& auditMask a = f → a ≠ Reg.SUPV_AUDIT_POLICY.addr →
        r.name ∉ ["PORT_GRP_MODE", "PORT_LANE_TXEQ", "TIME_INST_CFG", "TIME_INST_PORTS", "TIME_INST_INTV", "TIME_PAIR_CFG",
          "SEAL_Q_BLOCKS", "SEAL_Q_RES", "MODL_CAGE_CFG", "MODL_BUS_CFG", "HOST_INT_EN"] →
        d.auditPolicy (a / 2 ^ 24) ≠ 0 → x = (d.auditPolicy (a / 2 ^ 24) == 2 && !isSeed a) →
        ∃ e : Dev, exec (.firmwareAudit [(a, m)]) ⟨d, q⟩ = .next ⟨e, q⟩ ∧ e.reg a = (if x then d.reg a else d.reg a ^^^ f) ∧
          d.counted e .auditMismatch 0 1 ∧ d.counted e .auditRepair 0 (if x then 1 else 0) ∧ d.counted e .auditPasses 0 1 ∧
          e.bitOf Reg.SUPV_ALM.ALM0_SRC 3 = true ∧
          e.supv.logQ = d.queued ⟨0xB020, 3, d.supOrigin, d.activeSup.getD 0, false, le 4 a ++ le 4 (d.reg a &&& auditMask a).toNat ++
            le 4 ((d.reg a ^^^ f) &&& auditMask a).toNat ++ le 1 (if x then 1 else 0)⟩ ∧
          d.regsBut e ([Reg.SUPV_ALM.addr, Reg.HOST_INT_STATUS.addr] ++ [a] ++ (List.range 16).map Reg.HOST_BEC_HI.addr) ∧ e = { d with
            regs := e.regs, ctrs := e.ctrs, ctrOvf := e.ctrOvf, wire := e.wire, host := e.host, supv := e.supv }))) ∧
  (∀ (d : Dev) (q : List Instr) (s k n v m : Nat), d.hold.live = true → s < 2 →
    (v = 0 ∨ 13 < v → exec (.pmcEvent s v n) ⟨d, q⟩ = .next ⟨d, q⟩) ∧
    (1 ≤ v → v ≤ 13 → ∃ e : Dev, exec (.pmcEvent s v n) ⟨d, q⟩ = .next ⟨e, q⟩ ∧
      (∀ k, k < 8 → d.flag (Reg.SUPV_PMC_CFG.EN s k) = true ∧ d.rd (Reg.SUPV_PMC_CFG.EVENT s k) = v →
        tget e.supv.pmc 0 (8 * s + k) = (tget d.supv.pmc 0 (8 * s + k) + n) % 2 ^ 48 ∧
        e.flag (Reg.SUPV_PMC_CFG.OVF s k) = (d.flag (Reg.SUPV_PMC_CFG.OVF s k) || decide (2 ^ 48 ≤ tget d.supv.pmc 0 (8 * s + k) + n))) ∧
      (∀ k, k < 8 → d.flag (Reg.SUPV_PMC_CFG.EN s k) = false ∨ d.rd (Reg.SUPV_PMC_CFG.EVENT s k) ≠ v →
        tget e.supv.pmc 0 (8 * s + k) = tget d.supv.pmc 0 (8 * s + k) ∧
        e.reg (Reg.SUPV_PMC_CFG.addr s k) = d.reg (Reg.SUPV_PMC_CFG.addr s k)) ∧
      d.regsBut e ((List.range 8).map (Reg.SUPV_PMC_CFG.addr s)) ∧ e = { d with regs := e.regs, supv := e.supv }) ∧
    (k < 8 → d.reaches m = true →
      (∃ e : Dev, exec (.pmcClear m s k) ⟨d, q⟩ = .next ⟨e, q⟩ ∧ e.supv = { d.supv with pmc := tput d.supv.pmc 0 (8 * s + k) 0 } ∧
        e.reg (Reg.SUPV_PMC_CFG.addr s k) = d.reg (Reg.SUPV_PMC_CFG.addr s k) ∧ e = { d with
          regs := e.regs, host := e.host, wire := e.wire, supv := e.supv }) ∧
      (∃ e : Dev, exec (.pmcRead m s k) ⟨d, q⟩ = .next ⟨e, q⟩ ∧
        e.rd (Reg.SUPV_PMC_HI.COUNT s k) = tget d.supv.pmc 0 (8 * s + k) / 2 ^ 32 % 2 ^ 16 ∧
        .completion m (Reg.SUPV_PMC_LO.addr s k) (tget d.supv.pmc 0 (8 * s + k) % 2 ^ 32) ∈ e.wire ∧ e = { d with
          regs := e.regs, host := e.host, wire := e.wire })))

/-- The checks common to requests, the replies they give, HELLO and unknown codes. A command of a request for which no
request stands, or one of another CODE, changes nothing. Taken from its mailbox, a malformed request is answered STATUS 3,
one before HELLO 0x0A, one of too low a version 0x0B, and in recovery one not accepted there 6, logged. HELLO abandons what
is open on the channel and answers with the highest common version of 1 to 4, or STATUS 2 and DETAIL 4 where none is common.
UNKNOWN_CODE answers STATUS 1 to a code that R371 does not list. Versions outside 1 to 4 in a HELLO are compared as they
stand (DEDUCED, log entry 18). -/
def Obligations.RequestsAreCheckedInOrder : Prop :=
  (∀ (d : Dev) (q : List Instr) (k code minVer ver : Nat) (inRec : Bool) (i : Instr), d.hold.live = true → ver = (d.chan k).ver →
    (code, minVer, inRec, i) ∈ [(2, 1, true, Instr.getInfo k), (3, 1, true, .readRegs k), (4, 1, false, .snapshot k), (5, 1, false, .tableDump k),
      (6, 1, true, .logRead k), (8, 1, true, .getNonce k), (9, 1, false, .counterDir k), (0x21, 1, false, .forceSwitch k),
      (0x22, 3, false, .planeRotate k), (0x23, 1, false, .logClear k), (0x25, 1, true, .provision k)] →
    (d.standing k = none → exec i ⟨d, q⟩ = .next ⟨d, q⟩) ∧
    (∀ r, d.asks k r → (r.code ≠ code ∨ (d.chan k).opened.isSome = true → exec i ⟨d, q⟩ = .next ⟨d, q⟩) ∧
      (r.code = code → (d.chan k).opened = none →
        (r.bad = true → ∃ e : Dev, exec i ⟨d, q⟩ = .next ⟨e, q⟩ ∧ d.answered e k r ver 3 0 [] ∧ d.regsBut e (mailRegs k) ∧ e = { d with
          regs := e.regs, wire := e.wire, host := e.host }) ∧
        (r.bad = false → ver = 0 → ∃ e : Dev, exec i ⟨d, q⟩ = .next ⟨e, q⟩ ∧ d.answered e k r ver 0x0A 0 [] ∧ d.regsBut e (mailRegs k) ∧
          e = { d with regs := e.regs, wire := e.wire, host := e.host }) ∧
        (r.bad = false → ver ≠ 0 → ver < minVer → ∃ e : Dev, exec i ⟨d, q⟩ = .next ⟨e, q⟩ ∧ d.answered e k r ver 0x0B 0 [] ∧
          d.regsBut e (mailRegs k) ∧ e = { d with regs := e.regs, wire := e.wire, host := e.host }) ∧
        (r.bad = false → ver ≠ 0 → minVer ≤ ver → d.boot.recovery = true → inRec = false → ∃ e : Dev, exec i ⟨d, q⟩ = .next ⟨e, q⟩ ∧
          d.answered e k r ver 6 0 [] ∧ e.supv.logQ = d.queued ⟨0x0020, 4, d.supOrigin, d.activeSup.getD 0, false,
            d.regData Reg.DEV_BOOT_STATUS.addr ++ le 1 r.code ++ le 1 r.origin⟩ ∧ d.regsBut e (mailRegs k) ∧
          e = { d with
            regs := e.regs, ctrs := e.ctrs, ctrOvf := e.ctrOvf, wire := e.wire, host := e.host, supv := e.supv })))) ∧
  (∀ (d : Dev) (q : List Instr) (k lo hi : Nat) (r : Request), d.hold.live = true → d.asks k r →
    (r.code = 1 → r.bad = false → r.body.length = 2 → lo = fromLe (slice r.body 0 1) → hi = fromLe (slice r.body 1 1) →
      (∀ v, 1 ≤ v → v ≤ 4 → lo ≤ v → v ≤ hi → (∀ w, v < w → w ≤ 4 → w < lo ∨ hi < w) → ∃ e : Dev, exec (.hello k) ⟨d, q⟩ = .next ⟨e, q⟩ ∧
        (e.chan k).ver = v ∧ (e.chan k).opened = none ∧ e.host.jobs = d.host.jobs.filter (fun j => j.chan != k) ∧
        d.answered e k r v 0 0 (le 1 v ++ le 1 1 ++ le 1 4) ∧ d.regsBut e (Reg.REAM_SNAP_STATUS.addr :: mailRegs k) ∧ e = { d with
          regs := e.regs, wire := e.wire, host := e.host }) ∧
      ((∀ v, 1 ≤ v → v ≤ 4 → v < lo ∨ hi < v) → ∃ e : Dev, exec (.hello k) ⟨d, q⟩ = .next ⟨e, q⟩ ∧ (e.chan k).ver = (d.chan k).ver ∧
        (e.chan k).opened = none ∧ d.answered e k r (d.chan k).ver 2 4 [] ∧ e = { d with
          regs := e.regs, wire := e.wire, host := e.host })) ∧
    (r.code ∈ knownCodes ∨ (d.chan k).opened.isSome = true → exec (.unknownCode k) ⟨d, q⟩ = .next ⟨d, q⟩) ∧
    (r.code ∉ knownCodes → (d.chan k).opened = none → ∃ e : Dev, exec (.unknownCode k) ⟨d, q⟩ = .next ⟨e, q⟩ ∧
      d.answered e k r (d.chan k).ver 1 0 [] ∧ d.regsBut e (mailRegs k) ∧ e = { d with
        regs := e.regs, wire := e.wire, host := e.host }))

/-- What the read-only requests answer or deliver, the snapshot and its capture, and the end of a DMA. GET_INFO answers the
identity, status, sequence, fuses, image and supervisor; READ_REGS the value of a register as the ACTIVE supervisor reads
it; GET_NONCE a fresh nonce, a free value, that stands on the channel until NONCE_EXPIRY at 60 s. TABLE_DUMP, LOG_READ and
COUNTER_DIR give their output to the DMA engine where the descriptor names host memory and bus mastering is on. SNAPSHOT
opens an exchange and takes the engine, or answers 7 when it is busy or 6 without an HBM stack; SNAPSHOT_CAPTURE copies the
named counters with their header and starts delivery. DMA_DONE writes the bytes and answers 0, or STATUS 9 with the failure.
MODULE_READ answers what the module gives, or STATUS 8 with a free DETAIL for a cage not in use (log entry 4). -/
def Obligations.RequestsReadAndDeliver : Prop :=
  (∀ (d : Dev) (q : List Instr) (k ver : Nat) (r : Request), d.hold.live = true → ver = (d.chan k).ver →
    (∀ l, d.asksFor k 2 1 r → r.body = [] → d.boot.loaded = some l → ∃ e : Dev, exec (.getInfo k) ⟨d, q⟩ = .next ⟨e, q⟩ ∧
      d.answered e k r ver 0 0 (le 4 (d.reg Reg.DEV_IDENT.addr).toNat ++ le 4 (d.reg Reg.DEV_BOOT_STATUS.addr).toNat ++
        le 4 (d.reg Reg.DEV_AMD_STATUS.addr).toNat ++ le 8 d.boot.amdSeq ++ le 4 d.boot.fuses.realm ++ le 2 d.boot.fuses.devnum ++
        le 6 d.boot.fuses.baseMac ++ (le 4 l.hdr.version ++ slice l.hdr.buildId 0 16) ++ le 4 (Config.chewipor false) ++
        le 1 (d.activeSup.getD 0)) ∧ d.regsBut e (mailRegs k) ∧ e = { d with
          regs := e.regs, wire := e.wire, host := e.host }) ∧
    (∀ a, d.asksFor k 3 1 r → r.body = le 4 a → a < 2 ^ 32 → ∃ e : Dev, exec (.readRegs k) ⟨d, q⟩ = .next ⟨e, q⟩ ∧
      d.answered e k r ver 0 0 (le 4 ((d.takeRequest k).readWord d.supId a ((d.takeRequest k).liveView a))) ∧ e = { d with
        regs := e.regs, wire := e.wire, host := e.host, time := e.time }) ∧
    (d.asksFor k 8 1 r → r.body = [] → ∃ e : Dev, exec (.getNonce k) ⟨d, q⟩ = .next ⟨e, q⟩ ∧
      d.answered e k r ver 0 0 (le 16 (Config.freeValue d.free)) ∧ (e.chan k).nonce = some ⟨le 16 (Config.freeValue d.free), d.now⟩ ∧
      e.free = d.free + 1 ∧ d.regsBut e (mailRegs k) ∧ e = { d with
        free := e.free, regs := e.regs, wire := e.wire, host := e.host }) ∧
    (∀ n, (d.chan k).nonce = some n → (d.now < n.at_ + 60 * 10 ^ 9 → exec (.nonceExpiry k) ⟨d, q⟩ = .next ⟨d, q⟩) ∧
      (n.at_ + 60 * 10 ^ 9 ≤ d.now → ∃ e : Dev, exec (.nonceExpiry k) ⟨d, q⟩ = .next ⟨e, q⟩ ∧ (e.chan k).nonce = none ∧
        (∀ j, j ≠ k → e.chan j = d.chan j) ∧ e = { d with host := e.host })) ∧
    ((d.chan k).nonce = none → exec (.nonceExpiry k) ⟨d, q⟩ = .next ⟨d, q⟩)) ∧
  (∀ (d : Dev) (q : List Instr) (k len adr : Nat) (r : Request) (out : List Byte), d.hold.live = true → d.dmaReady = true → out.length ≤ len →
    (∀ t s n w, d.asksFor k 5 1 r → r.body.length = 28 → fromLe (slice r.body 0 2) = t → fromLe (slice r.body 2 2) = 0 →
      fromLe (slice r.body 4 4) = s → fromLe (slice r.body 8 4) = n → descriptor (slice r.body 12 16) false false = some (0, len, adr) →
      dumpShape t = some w → s + n ≤ w.1 → 4 * w.2 * n ≤ len → out = (List.range n).flatMap (fun i => d.dumpEntry t (s + i)) →
      ∃ e : Dev, exec (.tableDump k) ⟨d, q⟩ = .next ⟨e, q⟩ ∧ (e.chan k).opened = some ⟨r.code, r.tag⟩ ∧ e.mbFull k = false ∧
        e.host.jobs = d.host.jobs ++ [({ chan := k, code := r.code, tag := r.tag, kind := 0, length := len, addr := adr, bytes := out } : DmaJob)] ∧
        d.regsBut e [Reg.HOST_MB_CTRL.addr k] ∧ e = { d with regs := e.regs, host := e.host }) ∧
    (∀ t s n, d.asksFor k 6 1 r → r.body.length = 28 → fromLe (slice r.body 0 1) = t → t ≤ 3 → fromLe (slice r.body 1 3) = 0 →
      fromLe (slice r.body 4 4) = s → fromLe (slice r.body 8 4) = n → descriptor (slice r.body 12 16) false false = some (0, len, adr) →
      out = (((d.logSource t).filter fun x => decide (s ≤ x.seq)).take n).flatMap LogEnt.bytes →
      ∃ e : Dev, exec (.logRead k) ⟨d, q⟩ = .next ⟨e, q⟩ ∧ (e.chan k).opened = some ⟨r.code, r.tag⟩ ∧ e.mbFull k = false ∧
        e.host.jobs = d.host.jobs ++ [({ chan := k, code := r.code, tag := r.tag, kind := 0, length := len, addr := adr, bytes := out } : DmaJob)] ∧
        d.regsBut e [Reg.HOST_MB_CTRL.addr k] ∧ e = { d with regs := e.regs, host := e.host }) ∧
    (d.asksFor k 9 1 r → r.body.length = 16 → descriptor r.body false false = some (0, len, adr) →
      out = d.host.dir.flatMap (fun x => match ctrRow x.2 with | some c => dirRecord x.1 c | none => []) →
      ∃ e : Dev, exec (.counterDir k) ⟨d, q⟩ = .next ⟨e, q⟩ ∧ (e.chan k).opened = some ⟨r.code, r.tag⟩ ∧ e.mbFull k = false ∧
        e.host.jobs = d.host.jobs ++ [({ chan := k, code := r.code, tag := r.tag, kind := 0, length := len, addr := adr, bytes := out } : DmaJob)] ∧
        d.regsBut e [Reg.HOST_MB_CTRL.addr k] ∧ e = { d with regs := e.regs, host := e.host })) ∧
  (∀ (d : Dev) (q : List Instr) (k ver : Nat) (r : Request) (a : Nat × Nat × Nat) (l : List (Nat × Nat × Nat)), d.hold.live = true →
    d.asksFor k 4 1 r → ver = (d.chan k).ver → descriptor (slice r.body 0 16) false false = some a → snapItems r.body = some l →
    (d.flag Reg.REAM_SNAP_STATUS.BUSY = true ∨ 8388604 < l.foldl (fun n x => n + x.2.2) 0 → ∃ e : Dev, exec (.snapshot k) ⟨d, q⟩ = .next ⟨e, q⟩ ∧
      d.answered e k r ver 7 0 [] ∧ d.regsBut e (mailRegs k) ∧ e = { d with
        regs := e.regs, wire := e.wire, host := e.host }) ∧
    (d.flag Reg.REAM_SNAP_STATUS.BUSY = false → l.foldl (fun n x => n + x.2.2) 0 ≤ 8388604 →
      (d.hbmUp 0 = false → d.hbmUp 1 = false → ∃ e : Dev, exec (.snapshot k) ⟨d, q⟩ = .next ⟨e, q⟩ ∧ d.answered e k r ver 6 0 [] ∧
        d.regsBut e (mailRegs k) ∧ e = { d with regs := e.regs, wire := e.wire, host := e.host }) ∧
      (d.hbmUp 0 = true ∨ d.hbmUp 1 = true → ∃ e : Dev, exec (.snapshot k) ⟨d, q⟩ = .next ⟨e, q⟩ ∧ (e.chan k).opened = some ⟨4, r.tag⟩ ∧
        e.host.snapReq = some { chan := k, tag := r.tag, kind := a.1, length := a.2.1, addr := a.2.2, items := l } ∧ e.mbFull k = false ∧
        e.flag Reg.REAM_SNAP_STATUS.BUSY = true ∧ d.regsBut e [Reg.HOST_MB_CTRL.addr k, Reg.REAM_SNAP_STATUS.addr] ∧ e = { d with
          regs := e.regs, host := e.host }))) ∧
  (∀ (d : Dev) (q : List Instr), d.hold.live = true →
    (d.host.snapReq = none → exec .snapshotCapture ⟨d, q⟩ = .next ⟨d, q⟩) ∧
    (∀ x out, d.host.snapReq = some x → x.kind = 0 → d.dmaReady = true → out.length ≤ x.length →
      out = d.snapHead (d.snapIds x.items).length ++ (d.snapIds x.items).flatMap d.snapEntry →
      ∃ e : Dev, exec .snapshotCapture ⟨d, q⟩ = .next ⟨e, q⟩ ∧ e.host.snapReq = none ∧ e.host.snapId = d.host.snapId + 1 ∧
        e.rd Reg.REAM_SNAP_STATUS.ENTRIES = (d.snapIds x.items).length % 2 ^ 24 ∧ (e.chan x.chan).opened = some ⟨4, x.tag⟩ ∧
        e.host.jobs = d.host.jobs ++ [({ chan := x.chan, code := 4, tag := x.tag, kind := 0, length := x.length, addr := x.addr, bytes := out } :
          DmaJob)] ∧ d.regsBut e [Reg.REAM_SNAP_STATUS.addr] ∧ e = { d with regs := e.regs, host := e.host })) ∧
  (∀ (d : Dev) (q : List Instr) (k n ver : Nat), d.hold.live = true → k < 4 → ver = (d.chan k).ver →
    (4 < n ∨ d.supRunning = false → exec (.dmaDone k n) ⟨d, q⟩ = .next ⟨d, q⟩) ∧
    (∀ j, d.supRunning = true → d.host.jobs.find? (fun (x : DmaJob) => x.chan == k) = some j → (d.chan k).opened = some ⟨j.code, j.tag⟩ →
      d.mbFull (k + 4) = false →
      (∃ e : Dev, exec (.dmaDone k 0) ⟨d, q⟩ = .next ⟨e, q⟩ ∧ .dmaWrite j.addr j.bytes ∈ e.wire ∧ d.replied e k j.code j.tag ver 0 0 [] ∧
        (e.chan k).opened = none ∧ (∀ x ∈ e.host.jobs, x.chan ≠ k) ∧ e = { d with
          regs := e.regs, wire := e.wire, host := e.host }) ∧
      (1 ≤ n → n ≤ 4 → ∃ e : Dev, exec (.dmaDone k n) ⟨d, q⟩ = .next ⟨e, q⟩ ∧ d.replied e k j.code j.tag ver 9 n [] ∧
        (e.chan k).opened = none ∧ (∀ x ∈ e.host.jobs, x.chan ≠ k) ∧ e = { d with
          regs := e.regs, wire := e.wire, host := e.host })) ∧
    (d.host.jobs = [] → d.standing k = none → exec (.dmaDone k n) ⟨d, q⟩ = .next ⟨d, q⟩)) ∧
  (∀ (d : Dev) (q : List Instr) (k c ver : Nat) (r : Request) (x : Option (List Byte)), d.hold.live = true →
    (d.moduleBusFree k = false → exec (.moduleRead k x) ⟨d, q⟩ = .next ⟨d, q⟩) ∧
    (d.asksFor k 7 2 r → d.moduleBusFree k = true → moduleReadBad r.body = false → c = fromLe (slice r.body 0 1) → ver = (d.chan k).ver →
      (∀ b, d.cageUp c = true → d.flag (Reg.MODL_CAGE_STATUS.PRESENT c) = true → ∃ e : Dev, exec (.moduleRead k (some b)) ⟨d, q⟩ = .next ⟨e, q⟩ ∧
        d.answered e k r ver 0 0 (slice b 0 (fromLe (slice r.body 4 1))) ∧ d.regsBut e (mailRegs k) ∧ e = { d with
          regs := e.regs, wire := e.wire, host := e.host, mods := e.mods }) ∧
      (d.cageUp c = false ∨ d.flag (Reg.MODL_CAGE_STATUS.PRESENT c) = false → ∃ e : Dev, exec (.moduleRead k x) ⟨d, q⟩ = .next ⟨e, q⟩ ∧
        d.answered e k r ver 8 (Config.freeValue d.free % 256) [] ∧ e.free = d.free + 1 ∧ d.regsBut e (mailRegs k) ∧
        e = { d with free := e.free, regs := e.regs, wire := e.wire, host := e.host })))

/-- Signed requests consume their nonce and act; PROVISION blows the fuses; a supervisor takes a segment. A signed request
without a live nonce of its own is answered 5, one whose signature, REALM_ID or DEV_NUM fails 4; the nonce is gone in every
case. FORCE_SWITCH with a ready STANDBY is answered 0 and begins takeover, else it is answered 8 with a free DETAIL.
PLANE_ROTATE starts the rotation of the plane or answers the refusal in DETAIL (order of refusals DEDUCED, log entry 36).
LOG_CLEAR empties both NVM logs, leaves one 0xB032 record in both rings and every alarm clear. PROVISION in recovery of an
unprovisioned device with a good signature blows the fuses once. MG_SEGMENT without an ACTIVE supervisor or frame changes
nothing; a frame that is no Flollina message leaves the supervisor Vat with its blocks returned; a whole message makes its
channel ready. -/
def Obligations.SignedRequestsAct : Prop :=
  (∀ (d : Dev) (q : List Instr) (k code minVer ver : Nat) (i : Instr) (r : Request), d.hold.live = true → ver = (d.chan k).ver →
    (code, minVer, i) ∈ [(0x21, 1, Instr.forceSwitch k), (0x22, 3, .planeRotate k), (0x23, 1, .logClear k)] → d.asksFor k code minVer r →
    r.body.length = 96 → fromLe (slice r.body 7 1) = 0 → fromLe (slice r.body 6 1) ≤ 8 → fromLe (slice r.body 24 8) = 0 →
    ((∀ n, (d.chan k).nonce = some n → d.nonceLive n = false ∨ n.bytes ≠ slice r.body 8 16) → ∃ e : Dev, exec i ⟨d, q⟩ = .next ⟨e, q⟩ ∧
      d.answered e k r ver 5 0 [] ∧ (e.chan k).nonce = none ∧ d.regsBut e (mailRegs k) ∧ e = { d with
        regs := e.regs, wire := e.wire, host := e.host }) ∧
    (∀ n, (d.chan k).nonce = some n → d.nonceLive n = true → n.bytes = slice r.body 8 16 → d.signedOk r = false →
      ∃ e : Dev, exec i ⟨d, q⟩ = .next ⟨e, q⟩ ∧ d.answered e k r ver 4 0 [] ∧ (e.chan k).nonce = none ∧ d.regsBut e (mailRegs k) ∧
        e = { d with regs := e.regs, wire := e.wire, host := e.host })) ∧
  (∀ (d : Dev) (q : List Instr) (k ver : Nat) (r : Request), d.hold.live = true → ver = (d.chan k).ver →
    (d.asksSigned k 0x21 1 r → fromLe (slice r.body 24 8) = 0 →
      (∀ a b, d.activeSup = some a → d.standbySup = some b → d.flag (Reg.SUPV_CORE_STATUS.STANDBY_READY b) = true →
        (∀ c ∈ d.supv.ckpts, c.seq ≤ d.supv.ckptSeq) → ∃ e : Dev, exec (.forceSwitch k) ⟨d, q⟩ = .next ⟨e, q⟩ ∧ d.answered e k r ver 0 0 [] ∧ (e.chan k).nonce = none ∧ e.role a = 4 ∧
          e.supv.takeover = some ⟨b, 3, d.now⟩ ∧ d.counted e .supvForcedSwitches 0 1 ∧ e = { d with
            regs := e.regs, ctrs := e.ctrs, ctrOvf := e.ctrOvf, wire := e.wire, host := e.host, supv := e.supv }) ∧
      ((∀ b, d.standbySup = some b → d.flag (Reg.SUPV_CORE_STATUS.STANDBY_READY b) = false) → ∃ e : Dev, exec (.forceSwitch k) ⟨d, q⟩ = .next ⟨e, q⟩ ∧
        d.answered e k r ver 8 (Config.freeValue d.free % 256) [] ∧ (e.chan k).nonce = none ∧ e.free = d.free + 1 ∧
        d.regsBut e (mailRegs k) ∧ e = { d with free := e.free, regs := e.regs, wire := e.wire, host := e.host })) ∧
    (∀ a x, d.asksSigned k 0x22 3 r → fromLe (slice r.body 24 8) = a → a ≤ 9 → x = d.rotationRefusal a →
      ∃ e : Dev, exec (.planeRotate k) ⟨d, q⟩ = .next ⟨e, q⟩ ∧ d.answered e k r ver (if x = 0 then 0 else if x = 3 then 7 else 8) x [] ∧
        (e.chan k).nonce = none ∧ e.rd Reg.FABR_ROT.PLANE = a ∧ e.rd Reg.FABR_ROT.RESULT = x ∧
        (x = 0 → e.flag Reg.FABR_STATUS.ROTATING = true ∧ e.fab.rotation =
          some { out := a, spare := d.rd Reg.FABR_STATUS.SPARE, since := d.now, slot := none, changed := false }) ∧
        (x ≠ 0 → e.fab = d.fab ∧ e.power = d.power) ∧
        d.regsBut e ([Reg.FABR_ROT.addr, Reg.FABR_STATUS.addr] ++ mailRegs k) ∧ e = { d with
          regs := e.regs, ctrs := e.ctrs, ctrOvf := e.ctrOvf, wire := e.wire, host := e.host, supv := e.supv,
          fab := e.fab, power := e.power }) ∧
    (d.asksSigned k 0x23 1 r → fromLe (slice r.body 24 8) = 0 → ∃ (e : Dev) (x : LogEnt), exec (.logClear k) ⟨d, q⟩ = .next ⟨e, q⟩ ∧
      d.answered e k r ver 0 0 [] ∧ (e.chan k).nonce = none ∧ e.supv.flight = [x] ∧ e.supv.hbmRing = [x] ∧ (e.nvm 0).log = [] ∧
      (e.nvm 1).log = [] ∧ x.body = ⟨0xB032, 5, d.supOrigin, 0x20, false, slice (le 1 r.origin) 0 36⟩ ∧ e.reg Reg.SUPV_ALM.addr = 0 ∧
      d.regsBut e ([Reg.SUPV_ALM.addr, Reg.SUPV_LOG_STATUS.addr] ++ mailRegs k) ∧ e = { d with
        regs := e.regs, ctrs := e.ctrs, ctrOvf := e.ctrOvf, wire := e.wire, host := e.host, supv := e.supv,
        boot := e.boot }) ∧
    (d.asks k r → r.code = 0x25 → (d.chan k).opened = none → r.bad = false → 1 ≤ ver →
      (d.boot.recovery = false → ∃ e : Dev, exec (.provision k) ⟨d, q⟩ = .next ⟨e, q⟩ ∧ d.answered e k r ver 6 0 [] ∧ d.regsBut e (mailRegs k) ∧
        e = { d with regs := e.regs, wire := e.wire, host := e.host }) ∧
      (d.boot.recovery = true → d.unprovisioned = true → r.body.length = 136 → fromLe (slice r.body 38 2) = 0 →
        ed25519Verify (slice r.body 0 32) (slice r.body 0 72) (slice r.body 72 64) = true → ∃ e : Dev, exec (.provision k) ⟨d, q⟩ = .next ⟨e, q⟩ ∧
        d.answered e k r ver 0 0 [] ∧ e.boot.fuses = { d.boot.fuses with
          ownerHash := sha256 (slice r.body 0 32), realm := fromLe (slice r.body 32 4), devnum := fromLe (slice r.body 36 2),
          kek := slice r.body 40 32 } ∧ e.rd Reg.DEV_FUSE_REALM.REALM_ID = fromLe (slice r.body 32 4) ∧
        e.rd Reg.DEV_FUSE_DEVNUM.DEVNUM = fromLe (slice r.body 36 2) ∧ e = { d with
          regs := e.regs, wire := e.wire, host := e.host, boot := e.boot }))) ∧
  (∀ (d : Dev) (q : List Instr) (n : Nat), d.hold.live = true →
    (d.supRunning = false ∨ d.vat.supFrames[n]? = none → exec (.mgSegment n) ⟨d, q⟩ = .next ⟨d, q⟩) ∧
    (∀ f ch, d.supRunning = true → d.vat.supFrames[n]? = some f →
      ((f.port ≠ 256 ∧ f.port ≠ 257) ∨ d.flollinaFrame f.bytes = false → ∃ e : Dev, exec (.mgSegment n) ⟨d, q⟩ = .next ⟨e, q⟩ ∧
        e.vat.supFrames = d.vat.supFrames.eraseIdx n ∧
        e.rd Reg.BUFF_PRIV_FREE.SUP_FREE = (d.rd Reg.BUFF_PRIV_FREE.SUP_FREE + f.blocks.length) % 2 ^ Reg.BUFF_PRIV_FREE.SUP_FREE.width ∧
        d.regsBut e [Reg.BUFF_PRIV_FREE.addr] ∧ e = { d with regs := e.regs, vat := e.vat }) ∧
      (f.port = 256 ∨ f.port = 257 → d.flollinaFrame f.bytes = true → 34 ≤ f.bytes.length →
        ch = mgChan (f.port - 256) (fromBe (slice f.bytes 6 6)) → d.chan ch = Chan.zero → fromLe (slice f.bytes 15 1) = 0 →
        fromLe (slice f.bytes 22 4) = 0 → fromLe (slice f.bytes 26 2) ≤ min 1440 (f.bytes.length - 34) → ∃ (e : Dev) (c : Chan),
          exec (.mgSegment n) ⟨d, q⟩ = .next ⟨e, q⟩ ∧ e.chan ch = c ∧ c.ready = true ∧ c.port = f.port ∧ c.head = slice f.bytes 14 16 ∧
          c.body = slice f.bytes 30 (fromLe (slice f.bytes 26 2)) ∧ (∀ j, j ≠ ch → e.chan j = d.chan j) ∧
          e.vat.supFrames = d.vat.supFrames.eraseIdx n ∧ d.regsBut e [Reg.BUFF_PRIV_FREE.addr] ∧ e = { d with
            regs := e.regs, host := e.host, vat := e.vat })))

/-- Submission through STAGE, POST and RELEASE of a mailbox, by whom they act and what a FULL mailbox answers. MB_SUBMIT of
the host puts the staged bytes, stamped 0x01, into an EMPTY mailbox, makes it FULL with SEQ advanced, and the read gives SEQ
with bit 31; a FULL mailbox is left as it is and the read aborts; with the link down nothing happens, and another master
reads zero and sends nothing. MB_POST by the sender stamps byte 3, advances SEQ, sets FULL and rings the doorbell of the
host; with FULL set it is a bus error and changes no mailbox; another master changes no mailbox. MB_RELEASE by the receiver
sets the mailbox EMPTY, and a reply that waits for it is posted; another master changes none. -/
def Obligations.MailboxesCarryMessages : Prop :=
  (∀ (d : Dev) (q : List Instr) (m n : Nat) (w : List (Nat × Byte)), d.hold.live = true → m < 4 →
    (d.host.pcieLink = false → exec (.mbSubmit 1 m w) ⟨d, q⟩ = .next ⟨d, q⟩) ∧
    (d.host.pcieLink = true → d.mbFull m = true → ∃ e : Dev, exec (.mbSubmit 1 m w) ⟨d, q⟩ = .next ⟨e, q⟩ ∧
      .busError 1 (Reg.HOST_MB_SUBMIT.addr m) ∈ e.wire ∧ e.host.stage = (d.writeStage m w).host.stage ∧
      d.regsBut e (Reg.HOST_INT_STATUS.addr :: (List.range 16).map Reg.HOST_BEC_HI.addr) ∧ e = { d with
        regs := e.regs, host := e.host, wire := e.wire }) ∧
    (d.host.pcieLink = true → d.mbFull m = false → n = (d.rd (Reg.HOST_MB_CTRL.SEQ m) + 1) % 65536 →
      ∃ e : Dev, exec (.mbSubmit 1 m w) ⟨d, q⟩ = .next ⟨e, q⟩ ∧ e.mbBytes m = patch ((d.writeStage m w).stageBytes m) 3 [1] ∧
        e.mbFull m = true ∧ e.rd (Reg.HOST_MB_CTRL.SEQ m) = n ∧ .completion 1 (Reg.HOST_MB_SUBMIT.addr m) (2 ^ 31 + n) ∈ e.wire ∧
        (∀ j, j ≠ m → j < 16 → e.mbFull j = d.mbFull j ∧ e.mbBytes j = d.mbBytes j) ∧ e = { d with
          regs := e.regs, host := e.host, wire := e.wire }) ∧
    (∀ x, x ≠ 1 → ∃ e : Dev, exec (.mbSubmit x m w) ⟨d, q⟩ = .next ⟨e, q⟩ ∧ .completion x (Reg.HOST_MB_SUBMIT.addr m) 0 ∈ e.wire ∧
      d.regsBut e (Reg.HOST_INT_STATUS.addr :: (List.range 16).map Reg.HOST_BEC_HI.addr) ∧ e = { d with
        regs := e.regs, host := e.host, wire := e.wire })) ∧
  (∀ (d : Dev) (q : List Instr) (x m : Nat), d.hold.live = true → m < 16 →
    (x ∈ mbSenders m → x ≠ 1 → d.mbFull m = false → ∃ e : Dev, exec (.mbPost x m) ⟨d, q⟩ = .next ⟨e, q⟩ ∧
      e.mbBytes m = patch (d.mbBytes m) 3 (le 1 x) ∧ e.mbFull m = true ∧
      e.rd (Reg.HOST_MB_CTRL.SEQ m) = (d.rd (Reg.HOST_MB_CTRL.SEQ m) + 1) % 65536 ∧
      (4 ≤ m → m < 8 → e.bitOf Reg.HOST_INT_STATUS.SRC (m - 4) = true) ∧
      d.regsBut e ([Reg.HOST_MB_CTRL.addr m, Reg.HOST_MB_BUF.addr m 0] ++ (Reg.HOST_INT_STATUS.addr :: (List.range 16).map Reg.HOST_BEC_HI.addr)) ∧ e = { d with
        regs := e.regs, host := e.host, wire := e.wire }) ∧
    (x ∈ mbSenders m → x ≠ 1 → d.mbFull m = true → ∃ e : Dev, exec (.mbPost x m) ⟨d, q⟩ = .next ⟨e, q⟩ ∧
      .busError x (Reg.HOST_MB_CTRL.addr m) ∈ e.wire ∧ d.regsBut e (Reg.HOST_INT_STATUS.addr :: (List.range 16).map Reg.HOST_BEC_HI.addr) ∧ e = { d with
        regs := e.regs, host := e.host, wire := e.wire }) ∧
    (x ∉ mbSenders m ∨ x = 1 → ∃ e : Dev, exec (.mbPost x m) ⟨d, q⟩ = .next ⟨e, q⟩ ∧ d.regsBut e (Reg.HOST_INT_STATUS.addr :: (List.range 16).map Reg.HOST_BEC_HI.addr) ∧ e = { d with
      regs := e.regs, host := e.host, wire := e.wire }) ∧
    (x ∈ mbReceivers m → d.reaches x = true → ∃ e : Dev, exec (.mbRelease x m) ⟨d, q⟩ = .next ⟨e, q⟩ ∧
      (replyChan m = none ∨ d.activeSup = none ∨ (∀ c, replyChan m = some c → (d.chan c).outbox = []) → e.mbFull m = false ∧
        e.mbBytes m = d.mbBytes m ∧ d.regsBut e (Reg.HOST_MB_CTRL.addr m :: (Reg.HOST_INT_STATUS.addr :: (List.range 16).map Reg.HOST_BEC_HI.addr))) ∧
      (∀ s, 4 ≤ m → m < 8 → d.activeSup = some s → (d.chan (m - 4)).outbox ≠ [] → e.mbFull m = true ∧ (e.chan (m - 4)).outbox = [] ∧
        e.mbBytes m = patch (slice (d.chan (m - 4)).outbox 0 256) 3 (le 1 (supMaster s))) ∧ e = { d with
          regs := e.regs, host := e.host, wire := e.wire }) ∧
    (x ∉ mbReceivers m → ∃ e : Dev, exec (.mbRelease x m) ⟨d, q⟩ = .next ⟨e, q⟩ ∧ d.regsBut e (Reg.HOST_INT_STATUS.addr :: (List.range 16).map Reg.HOST_BEC_HI.addr) ∧ e = { d with
      regs := e.regs, host := e.host, wire := e.wire }))

/-- Writes of registers by access type, privilege and range; bus event counters and Ream windows. REGISTER_WRITE to an
address that is unaligned, not written whole or not implemented changes no register but those that count it. A write that no
command or unit hangs on gives each field its access type, privilege and range: SUPV_THERM_CFG shows the bounds, W1C bits of
SUPV_ALM clear but for those hardware sets, ALM0_SRC does not, and an unprivileged write leaves both. BEC_CLR and
BEC_CLR_OVF of a privileged master clear a counter that does not count the access; BEC_READ gives the count before its own
and latches HI. REAM_WIN_CLR and REAM_WIN_CLR_OVF of a privileged master clear the selected counter or its OVF, of another
nothing; REAM_WIN_READ gives the counter and latches HI and FLAG. AMD_SEQ_READ gives the low word and latches the high one.
-/
def Obligations.RegisterAccessesAreRuled : Prop :=
  (∀ (d : Dev) (q : List Instr) (m a v b : Nat), d.hold.live = true →
    (a % 4 ≠ 0 ∨ b ≠ 15 ∨ findReg a = none → ∃ e : Dev, exec (.registerWrite m a v b 0) ⟨d, q⟩ = .next ⟨e, q⟩ ∧
      d.regsBut e (Reg.HOST_INT_STATUS.addr :: (List.range 16).map Reg.HOST_BEC_HI.addr) ∧ e = { d with
        regs := e.regs, host := e.host, wire := e.wire }) ∧
    (∀ (r : RDecl) (ix : List Nat), findReg a = some (r, ix) → a % 4 = 0 → portOfAddr a = none → d.reaches m = true →
      d.pathBroken m a true v = false →
      r.name ∉ ["PARS_STORE_SEL", "FABR_ROT", "SUPV_PAIR_CTRL", "SUPV_LOG_CFG", "SUPV_LOG_PUT", "SUPV_HB", "SUPV_PMC_LO", "SUPV_ALM",
        "HOST_DBG_CTRL", "HOST_MB_CTRL", "HOST_MB_BUF", "HOST_BEC_CMD", "HOST_BEC_HI", "HOST_INT_STATUS", "HOST_INT_EN", "REAM_WIN_CMD",
        "PORT_GRP_MODE", "PORT_LANE_TXEQ", "TIME_INST_CFG", "TIME_INST_PORTS", "TIME_INST_INTV", "TIME_PAIR_CFG", "SEAL_Q_BLOCKS",
        "SEAL_Q_RES", "MODL_CAGE_CFG", "MODL_BUS_CFG"] →
      ∃ e : Dev, exec (.registerWrite m a v 15 0) ⟨d, q⟩ = .next ⟨e, q⟩ ∧
        e.reg a = r.fields.foldl (fun w f => writeField (d.privileged m) (d.reg a) (BitVec.ofNat 32 v) 0 f w) (d.reg a) ∧
        d.regsBut e (a :: (Reg.HOST_INT_STATUS.addr :: (List.range 16).map Reg.HOST_BEC_HI.addr)) ∧ e = { d with
          regs := e.regs, host := e.host, wire := e.wire })) ∧
  (∀ (d : Dev) (q : List Instr) (m v : Nat) (h : Nat), d.hold.live = true →
    (m = 0x10 ∨ m = 0x11 → ∃ e : Dev, exec (.registerWrite m Reg.SUPV_THERM_CFG.addr v 15 h) ⟨d, q⟩ = .next ⟨e, q⟩ ∧
      e.rd Reg.SUPV_THERM_CFG.THERM_WARN = min 115 (max 60 (v % 2 ^ 7)) ∧ e.rd Reg.SUPV_THERM_CFG.HYST = min 20 (max 1 (v / 2 ^ 8 % 2 ^ 5)) ∧
      e.rd Reg.SUPV_THERM_CFG.HBM_WARN = min 105 (max 60 (v / 2 ^ 16 % 2 ^ 7)) ∧ e = { d with
        regs := e.regs, host := e.host, wire := e.wire }) ∧
    (m = 0x10 ∨ m = 0x11 → ∃ e : Dev, exec (.registerWrite m Reg.SUPV_ALM.addr v 15 h) ⟨d, q⟩ = .next ⟨e, q⟩ ∧
      e.rd Reg.SUPV_ALM.ALM0_SRC = d.rd Reg.SUPV_ALM.ALM0_SRC ∧
      (∀ k, k < 8 → e.bitOf Reg.SUPV_ALM.ALM1_SRC k = (h.testBit (8 + k) || (d.bitOf Reg.SUPV_ALM.ALM1_SRC k && !v.testBit (8 + k))) ∧
        e.bitOf Reg.SUPV_ALM.ALM3_SRC k = (h.testBit (24 + k) || (d.bitOf Reg.SUPV_ALM.ALM3_SRC k && !v.testBit (24 + k)))) ∧
      e = { d with regs := e.regs, host := e.host, wire := e.wire }) ∧
    (d.privileged m = false → ∀ a, a = Reg.SUPV_ALM.addr ∨ a = Reg.SUPV_THERM_CFG.addr →
      ∃ e : Dev, exec (.registerWrite m a v 15 0) ⟨d, q⟩ = .next ⟨e, q⟩ ∧ e.reg a = d.reg a ∧ e = { d with
        regs := e.regs, host := e.host, wire := e.wire })) ∧
  (∀ (d : Dev) (q : List Instr) (m k : Nat), d.hold.live = true → k < 16 → d.reaches m = true →
    (d.privileged m = true → d.flag (Reg.HOST_BEC_CFG.EN k) = false → ∃ (e f : Dev), exec (.becClr m k) ⟨d, q⟩ = .next ⟨e, q⟩ ∧
      exec (.becClrOvf m k) ⟨d, q⟩ = .next ⟨f, q⟩ ∧ tget e.host.bec 0 k = 0 ∧ e.reg (Reg.HOST_BEC_HI.addr k) = d.reg (Reg.HOST_BEC_HI.addr k) ∧
      tget f.host.bec 0 k = tget d.host.bec 0 k ∧ f.flag (Reg.HOST_BEC_HI.OVF k) = false ∧ d.regsBut e (Reg.HOST_INT_STATUS.addr :: (List.range 16).map Reg.HOST_BEC_HI.addr) ∧
      d.regsBut f (Reg.HOST_INT_STATUS.addr :: (List.range 16).map Reg.HOST_BEC_HI.addr) ∧ e = { d with
        regs := e.regs, host := e.host, wire := e.wire } ∧ f = { d with regs := f.regs, host := f.host, wire := f.wire }) ∧
    (∃ e : Dev, exec (.becRead m k) ⟨d, q⟩ = .next ⟨e, q⟩ ∧ .completion m (Reg.HOST_BEC_LO.addr k) (tget d.host.bec 0 k % 2 ^ 32) ∈ e.wire ∧
      e.rd (Reg.HOST_BEC_HI.COUNT k) = tget d.host.bec 0 k / 2 ^ 32 % 2 ^ 16 ∧ d.regsBut e (Reg.HOST_INT_STATUS.addr :: (List.range 16).map Reg.HOST_BEC_HI.addr) ∧ e = { d with
        regs := e.regs, host := e.host, wire := e.wire })) ∧
  (∀ (d : Dev) (q : List Instr) (m w i : Nat) (c : Ctr), d.hold.live = true → w < 8 → d.reaches m = true →
    d.counterOf (d.rd (Reg.REAM_WIN_SEL.ID w)) = some (c, i) →
    (d.privileged m = true → ∃ (e f : Dev), exec (.reamWinClr m w) ⟨d, q⟩ = .next ⟨e, q⟩ ∧ exec (.reamWinClrOvf m w) ⟨d, q⟩ = .next ⟨f, q⟩ ∧
      e.ctr c i = 0 ∧ d.ctrFlag c i = e.ctrFlag c i ∧ f.ctrFlag c i = false ∧ f.ctr c i = d.ctr c i ∧ d.ctrsBut e [c.key i] ∧
      d.ctrsBut f [c.key i] ∧ e = { d with regs := e.regs, host := e.host, wire := e.wire, ctrs := e.ctrs } ∧ f = { d with regs := f.regs, host := f.host, wire := f.wire, ctrOvf := f.ctrOvf }) ∧
    (d.privileged m = false → ∃ (e f : Dev), exec (.reamWinClr m w) ⟨d, q⟩ = .next ⟨e, q⟩ ∧ exec (.reamWinClrOvf m w) ⟨d, q⟩ = .next ⟨f, q⟩ ∧
      e = { d with regs := e.regs, host := e.host, wire := e.wire } ∧ f = { d with regs := f.regs, host := f.host, wire := f.wire }) ∧
    (∃ e : Dev, exec (.reamWinRead m w) ⟨d, q⟩ = .next ⟨e, q⟩ ∧ .completion m (Reg.REAM_WIN_LO.addr w) (d.ctrValue c i % 2 ^ 32) ∈ e.wire ∧
      e.rd (Reg.REAM_WIN_HI.COUNT w) = d.ctrValue c i / 2 ^ 32 % 2 ^ 32 ∧ e.flag (Reg.REAM_WIN_FLAG.OVF w) = d.ctrFlag c i ∧
      e.flag (Reg.REAM_WIN_FLAG.NONE w) = false ∧ e = { d with regs := e.regs, host := e.host, wire := e.wire })) ∧
  (∀ (d : Dev) (q : List Instr) (m w : Nat), d.hold.live = true → d.reaches m = true →
    (w < 8 → d.counterOf (d.rd (Reg.REAM_WIN_SEL.ID w)) = none → ∃ e : Dev, exec (.reamWinRead m w) ⟨d, q⟩ = .next ⟨e, q⟩ ∧
      .completion m (Reg.REAM_WIN_LO.addr w) 0 ∈ e.wire ∧ e.flag (Reg.REAM_WIN_FLAG.NONE w) = true ∧ e = { d with
        regs := e.regs, host := e.host, wire := e.wire }) ∧
    (∃ e : Dev, exec (.amdSeqRead m) ⟨d, q⟩ = .next ⟨e, q⟩ ∧ .completion m Reg.DEV_AMD_SEQ_LO.addr (d.boot.amdSeq % 2 ^ 32) ∈ e.wire ∧
      e.rd Reg.DEV_AMD_SEQ_HI.SEQ = d.boot.amdSeq / 2 ^ 32 % 2 ^ 32 ∧ d.regsBut e (Reg.DEV_AMD_SEQ_HI.addr :: (Reg.HOST_INT_STATUS.addr :: (List.range 16).map Reg.HOST_BEC_HI.addr)) ∧
      e = { d with regs := e.regs, host := e.host, wire := e.wire }))

/-- The debug challenge, its check and lock, and what the PCI Express function does when its link or bus mastering changes.
DEBUG_CHALLENGE_READ of word 0 by the debug master makes a fresh challenge, a free value, unless a failed check blocks it;
any other read leaves it. DEBUG_CHECK with the right response sets UNLOCKED and is logged, else the challenge is cleared, a
new one is blocked and the failure logged; DEBUG_LOCK clears UNLOCKED; another master changes nothing. DEBUG_BLOCK_EXPIRY
ends the block after one second. PCIE_LINK_UP, PCIE_LINK_DOWN, PCIE_REFCLK_LOSS and BUS_MASTER_ENABLE_CHANGE move the link,
Bus Master Enable and HOST_UP; PCIE_RESET clears them, STAGE and the interrupt enables and keeps the mailboxes; a DMA in
progress at a reset or at the end of bus mastering is answered STATUS 9, DETAIL 5. -/
def Obligations.DebugUnlocksAndPcieFalls : Prop :=
  (∀ (d : Dev) (q : List Instr) (m i : Nat), d.hold.live = true → i < 8 →
    (d.host.dbgBlock = none → ∃ e : Dev, exec (.debugChallengeRead 0x20 0) ⟨d, q⟩ = .next ⟨e, q⟩ ∧ e.challenge = le 32 (Config.freeValue d.free) ∧
      e.host.dbgChal = true ∧ e.free = d.free + 1 ∧ .completion 0x20 (Reg.HOST_DBG_CHAL.addr 0) (Config.freeValue d.free % 2 ^ 32) ∈ e.wire ∧
      d.regsBut e ((List.range 8).map Reg.HOST_DBG_CHAL.addr ++ (Reg.HOST_INT_STATUS.addr :: (List.range 16).map Reg.HOST_BEC_HI.addr)) ∧ e = { d with
        free := e.free, regs := e.regs, host := e.host, wire := e.wire }) ∧
    (m ≠ 0x20 ∨ i ≠ 0 ∨ d.host.dbgBlock ≠ none → ∃ e : Dev, exec (.debugChallengeRead m i) ⟨d, q⟩ = .next ⟨e, q⟩ ∧ e.challenge = d.challenge ∧
      e.host.dbgChal = d.host.dbgChal ∧ d.regsBut e (Reg.HOST_INT_STATUS.addr :: (List.range 16).map Reg.HOST_BEC_HI.addr) ∧ e = { d with
        regs := e.regs, host := e.host, wire := e.wire }) ∧
    (d.responseOk = true → ∃ e : Dev, exec (.debugCheck 0x20) ⟨d, q⟩ = .next ⟨e, q⟩ ∧ e.flag Reg.HOST_DBG_CTRL.UNLOCKED = true ∧
      e.flag Reg.HOST_PEER_ALIVE.DBG_UNLOCKED = true ∧ e.privileged 0x20 = true ∧
      e.supv.logQ = d.queued ⟨0xC001, 5, 0, 0, false, e.regData Reg.HOST_DBG_CTRL.addr⟩ ∧ e = { d with
        regs := e.regs, ctrs := e.ctrs, ctrOvf := e.ctrOvf, host := e.host, wire := e.wire, supv := e.supv }) ∧
    (d.responseOk = false → ∃ e : Dev, exec (.debugCheck 0x20) ⟨d, q⟩ = .next ⟨e, q⟩ ∧ e.challenge = le 32 0 ∧ e.host.dbgChal = false ∧
      e.host.dbgBlock = some d.now ∧ e.flag Reg.HOST_DBG_CTRL.UNLOCKED = d.flag Reg.HOST_DBG_CTRL.UNLOCKED ∧
      e.supv.logQ = d.queued ⟨0xC002, 4, 0, 0, false, d.regData Reg.HOST_DBG_CTRL.addr⟩ ∧ e = { d with
        regs := e.regs, ctrs := e.ctrs, ctrOvf := e.ctrOvf, host := e.host, wire := e.wire, supv := e.supv }) ∧
    (∃ e : Dev, exec (.debugLock 0x20) ⟨d, q⟩ = .next ⟨e, q⟩ ∧ e.flag Reg.HOST_DBG_CTRL.UNLOCKED = false ∧
      e.flag Reg.HOST_PEER_ALIVE.DBG_UNLOCKED = false ∧ e.privileged 0x20 = false ∧ e = { d with
        regs := e.regs, host := e.host, wire := e.wire }) ∧
    (m ≠ 0x20 → ∃ (e f : Dev), exec (.debugCheck m) ⟨d, q⟩ = .next ⟨e, q⟩ ∧ exec (.debugLock m) ⟨d, q⟩ = .next ⟨f, q⟩ ∧ d.regsBut e (Reg.HOST_INT_STATUS.addr :: (List.range 16).map Reg.HOST_BEC_HI.addr) ∧
      d.regsBut f (Reg.HOST_INT_STATUS.addr :: (List.range 16).map Reg.HOST_BEC_HI.addr) ∧ e = { d with
        regs := e.regs, host := e.host, wire := e.wire } ∧ f = { d with regs := f.regs, host := f.host, wire := f.wire }) ∧
    (d.host.dbgBlock = none ∨ (∃ t, d.host.dbgBlock = some t ∧ d.now < t + 10 ^ 9) → exec .debugBlockExpiry ⟨d, q⟩ = .next ⟨d, q⟩) ∧
    (∀ t, d.host.dbgBlock = some t → t + 10 ^ 9 ≤ d.now →
      ∃ e : Dev, exec .debugBlockExpiry ⟨d, q⟩ = .next ⟨e, q⟩ ∧ e.host = { d.host with dbgBlock := none } ∧ e = { d with
        host := e.host })) ∧
  (∀ (d : Dev) (q : List Instr) (i : Instr) (l b : Bool), d.hold.live = true →
    (i, l, b) ∈ [(Instr.pcieLinkUp, true, d.host.busMaster), (.pcieLinkDown, false, d.host.busMaster),
      (.pcieRefclkLoss, false, d.host.busMaster), (.busMasterEnableChange true, d.host.pcieLink, true)] →
    ∃ e : Dev, exec i ⟨d, q⟩ = .next ⟨e, q⟩ ∧ e.host = { d.host with pcieLink := l, busMaster := b } ∧
      e.flag Reg.HOST_PEER_ALIVE.HOST_UP = (l && b) ∧
      (d.flag Reg.HOST_PEER_ALIVE.HOST_UP ≠ (l && b) → e.bitOf Reg.HOST_INT_STATUS.SRC 5 = true) ∧
      d.regsBut e [Reg.HOST_PEER_ALIVE.addr, Reg.HOST_INT_STATUS.addr] ∧ e = { d with
        regs := e.regs, host := e.host, wire := e.wire }) ∧
  (∀ (d : Dev) (q : List Instr) (i : Instr), d.hold.live = true → i = .pcieReset ∨ i = .busMasterEnableChange false →
    (d.host.jobs = [] → ∃ e : Dev, exec i ⟨d, q⟩ = .next ⟨e, q⟩ ∧ e.flag Reg.HOST_PEER_ALIVE.HOST_UP = false ∧ e.host.busMaster = false ∧
      (i = .pcieReset → e.host = { d.host with stage := [], pcieLink := false, busMaster := false } ∧ e.reg Reg.HOST_INT_EN.addr = 0 ∧
        e.rd Reg.HOST_INT_STATUS.MSI_EN = 0 ∧ e.rd Reg.HOST_INT_STATUS.PIN_EN = 0) ∧
      (i = .busMasterEnableChange false → e.host = { d.host with busMaster := false } ∧ e.reg Reg.HOST_INT_EN.addr = d.reg Reg.HOST_INT_EN.addr) ∧
      d.regsBut e [Reg.HOST_PEER_ALIVE.addr, Reg.HOST_INT_STATUS.addr, Reg.HOST_INT_EN.addr] ∧ e = { d with
        regs := e.regs, host := e.host, wire := e.wire }) ∧
    (∀ j, d.host.jobs = [j] → j.chan < 4 → (d.chan j.chan).opened = some ⟨j.code, j.tag⟩ → d.supRunning = true → d.mbFull (j.chan + 4) = false →
      ∃ e : Dev, exec i ⟨d, q⟩ = .next ⟨e, q⟩ ∧ d.replied e j.chan j.code j.tag (d.chan j.chan).ver 9 5 [] ∧ e.host.jobs = [] ∧
        (e.chan j.chan).opened = none ∧ e.host.busMaster = false ∧ e.flag Reg.HOST_PEER_ALIVE.HOST_UP = false ∧ e = { d with
          regs := e.regs, host := e.host, wire := e.wire }))

/-- What each reset leaves and keeps, when time zero falls, and what the loss and return of a reference clock do.
POR_ASSERT, PWR_GOOD_FALL and SYS_RST_ASSERT return every register and every other piece of the device to its reset value,
but SUPV_SHUTDOWN, the start count, the seconds of TB0, the fuses and the flash contents, which they keep; registers shown
from the fuses show them. The first two stop the root PLL and end a thermal shutdown, SYS_RST_ASSERT keeps PLL_LOCK and,
with PWR_GOOD and POR_N high, is time zero. PWR_GOOD_FALL with PWR_GOOD low changes nothing. REFCLK_LOSS sets REFCLK_LOST
once, counts and logs it; REFCLK_RETURN clears it. SREF_LOSS marks the input, counts it, clears TX_PLL_LOCK of its eight
groups and takes their links down; SREF_RETURN clears the mark and locks the PLL of each of these groups whose domain is on.
What the flash keeps and when the straps are sampled again: log entries 5 and 21. -/
def Obligations.ResetsAndClockLosses : Prop :=
  (∀ (d : Dev) (q : List Instr) (i : Instr) (b n : Nat) (h : HoldSt) (lock zero : Bool), b < 4 → n < 2 →
    (i = .porAssert ∧ h = { d.hold with por := true, shutdown := false, clocks := false } ∧ lock = false ∧ zero = false) ∨
    (i = .pwrGoodFall ∧ d.hold.pwrGood = true ∧ h = { d.hold with pwrGood := false, shutdown := false, clocks := false } ∧ lock = false ∧
      zero = false) ∨
    (i = .sysRstAssert b n ∧ h = { d.hold with clocks := false } ∧ lock = d.flag Reg.PWCK_CLK_STATUS.PLL_LOCK ∧
      zero = (d.hold.pwrGood && !d.hold.por)) →
    ∃ e : Dev, exec i ⟨d, q⟩ = .next ⟨e, q⟩ ∧ e.hold = h ∧ e.flag Reg.PWCK_CLK_STATUS.PLL_LOCK = lock ∧ e.flag Reg.PWCK_CLK_STATUS.REFCLK_LOST = false ∧
      e.rd Reg.PWCK_CLK_STATUS.SREF_LOST = 0 ∧ e.reg Reg.SUPV_SHUTDOWN.addr = d.reg Reg.SUPV_SHUTDOWN.addr ∧
      (∀ x ∈ fuseRegs d.boot.fuses, e.reg x.1 = BitVec.ofNat 32 x.2) ∧
      (∀ a, a ∉ [Reg.PWCK_CLK_STATUS.addr, Reg.SUPV_SHUTDOWN.addr, Reg.DEV_STRAP.addr, Reg.DEV_BOOT_STATUS.addr] ++ (fuseRegs d.boot.fuses).map (·.1) →
        e.reg a = resetOf a) ∧
      (zero = false → e.reg Reg.DEV_STRAP.addr = resetOf Reg.DEV_STRAP.addr ∧ e.phase = 0 ∧ e.boot.t0 = 0 ∧ e.boot.bootCount = d.boot.bootCount) ∧
      (zero = true → e.rd Reg.DEV_STRAP.BOOT_SEL = b ∧ e.rd Reg.DEV_STRAP.NVM_MODE = n ∧ e.phase = 0 ∧ e.boot.t0 = d.now ∧
        e.boot.bootCount = (d.boot.bootCount + 1) % 2 ^ 16 ∧ e.flag Reg.DEV_BOOT_STATUS.UNPROV = d.unprovisioned) ∧
      e.boot = { BootSt.zero with
        fuses := d.boot.fuses, tb0Sec := d.boot.tb0Sec, t0 := e.boot.t0, bootCount := e.boot.bootCount,
        nvm := d.boot.nvm.map fun x => { x with ok := false } } ∧
      e = { Dev.zero with now := d.now, free := d.free, wire := d.wire, hold := e.hold, regs := e.regs, boot := e.boot }) ∧
  (∀ (d : Dev) (q : List Instr), d.hold.pwrGood = false → exec .pwrGoodFall ⟨d, q⟩ = .next ⟨d, q⟩) ∧
  (∀ (d : Dev) (q : List Instr), d.hold.live = true →
    (d.flag Reg.PWCK_CLK_STATUS.REFCLK_LOST = true → exec .refclkLoss ⟨d, q⟩ = .next ⟨d, q⟩) ∧
    (d.flag Reg.PWCK_CLK_STATUS.REFCLK_LOST = false →
      ∃ e : Dev, exec .refclkLoss ⟨d, q⟩ = .next ⟨e, q⟩ ∧ e.flag Reg.PWCK_CLK_STATUS.REFCLK_LOST = true ∧
        e.flag Reg.PWCK_CLK_STATUS.PLL_LOCK = d.flag Reg.PWCK_CLK_STATUS.PLL_LOCK ∧ d.counted e .refclkLossEvents 0 1 ∧
        e.supv.logQ = d.queued ⟨0xE002, 3, 0, 0x10, false, e.regData Reg.PWCK_CLK_STATUS.addr⟩ ∧ d.regsBut e [Reg.PWCK_CLK_STATUS.addr] ∧
        e = { d with regs := e.regs, ctrs := e.ctrs, ctrOvf := e.ctrOvf, supv := e.supv }) ∧
    (∃ e : Dev, exec .refclkReturn ⟨d, q⟩ = .next ⟨e, q⟩ ∧ e.flag Reg.PWCK_CLK_STATUS.REFCLK_LOST = false ∧
      e.flag Reg.PWCK_CLK_STATUS.PLL_LOCK = d.flag Reg.PWCK_CLK_STATUS.PLL_LOCK ∧
      e.rd Reg.PWCK_CLK_STATUS.SREF_LOST = d.rd Reg.PWCK_CLK_STATUS.SREF_LOST ∧ d.regsBut e [Reg.PWCK_CLK_STATUS.addr] ∧ e = { d with
        regs := e.regs })) ∧
  (∀ (d : Dev) (q : List Instr) (k : Nat), d.hold.live = true →
    (8 ≤ k → exec (.srefLoss k) ⟨d, q⟩ = .next ⟨d, q⟩ ∧ exec (.srefReturn k) ⟨d, q⟩ = .next ⟨d, q⟩) ∧
    (d.bitOf Reg.PWCK_CLK_STATUS.SREF_LOST k = true → exec (.srefLoss k) ⟨d, q⟩ = .next ⟨d, q⟩) ∧
    (k < 8 → d.bitOf Reg.PWCK_CLK_STATUS.SREF_LOST k = false →
      ∃ e : Dev, exec (.srefLoss k) ⟨d, q⟩ = .next ⟨e, q⟩ ∧ d.maskBit e Reg.PWCK_CLK_STATUS.SREF_LOST k true ∧ d.counted e .srefLossEvents k 1 ∧
        (∀ i, i < 8 → e.flag (Reg.PORT_GRP_STATUS.TX_PLL_LOCK (8 * k + i)) = false) ∧
        (∀ p ∈ srefPorts k, e.flag (Reg.PORT_STATUS.LINK_UP p) = false) ∧ e.hold = d.hold ∧ e.now = d.now ∧
        ((∀ p ∈ srefPorts k, d.flag (Reg.PORT_STATUS.LINK_UP p) = false) →
          d.regsBut e (Reg.PWCK_CLK_STATUS.addr :: (List.range 8).map fun i => Reg.PORT_GRP_STATUS.addr (8 * k + i)) ∧
          e = { d with regs := e.regs, ctrs := e.ctrs, ctrOvf := e.ctrOvf })) ∧
    (k < 8 → ∃ e : Dev, exec (.srefReturn k) ⟨d, q⟩ = .next ⟨e, q⟩ ∧ d.maskBit e Reg.PWCK_CLK_STATUS.SREF_LOST k false ∧
      (∀ i, i < 8 → e.flag (Reg.PORT_GRP_STATUS.TX_PLL_LOCK (8 * k + i)) =
        (d.flag (Reg.PORT_GRP_STATUS.TX_PLL_LOCK (8 * k + i)) || d.rd (Reg.PWCK_DOM_STATUS.STATE (8 * k + i)) == 2)) ∧
      d.regsBut e (Reg.PWCK_CLK_STATUS.addr :: (List.range 8).map fun i => Reg.PORT_GRP_STATUS.addr (8 * k + i)) ∧ e = { d with
        regs := e.regs }))

/-- The steward grants, passes over, ramps and takes back power tokens, and a domain is on once its power is good.
AVS_APPLIED sets APPLIED where READ_VOUT agrees within 5 mV with a setpoint that was commanded. POWER_TOKEN_GRANT before
APPLIED grants nothing; after it a request that fits gets every token it names, in a ramp slot of k/8 µs after the rail's
earlier slots, and pwr_grants counts; one that does not fit waits and counts pwr_waits once for each short rail; a waiting
level-0 request blocks a request of another level on a rail they share. RAMP_SLOT_END ends the slot and sets when power is
good. RAMP_DOWN_END frees the tokens of a fall that has ended and switches the domain off; DOMAIN_POWER_GOOD switches it on,
locks a quad's transmit PLL to a present clock and puts an enabled cluster into service. Each changes nothing before its
instant. The instants within a cycle are the model's (log entries 2 and 20). -/
def Obligations.TokensAreGrantedInOrder : Prop :=
  (∀ (d : Dev) (q : List Instr) (v s : Nat), d.hold.live = true → s = d.rd Reg.PWCK_AVS.SETPOINT_MV →
    (d.rd Reg.PWCK_AVS.VOUT_MV = s → v ≤ s + 5 → s ≤ v + 5 →
      ∃ e : Dev, exec (.avsApplied v) ⟨d, q⟩ = .next ⟨e, q⟩ ∧ e.flag Reg.PWCK_AVS.APPLIED = true ∧ e.rd Reg.PWCK_AVS.VOUT_MV = s ∧
        e.rd Reg.PWCK_AVS.SETPOINT_MV = s ∧ d.regsBut e [Reg.PWCK_AVS.addr] ∧ e = { d with regs := e.regs }) ∧
    (d.rd Reg.PWCK_AVS.VOUT_MV ≠ s ∨ s + 5 < v ∨ v + 5 < s → exec (.avsApplied v) ⟨d, q⟩ = .next ⟨d, q⟩)) ∧
  (∀ (d : Dev) (q : List Instr), d.hold.live = true → (∀ h ∈ d.power.holds, h.fallEnd = none) →
    (d.flag Reg.PWCK_AVS.APPLIED = false → exec .powerTokenGrant ⟨d, q⟩ = .next ⟨d, q⟩) ∧
    (∀ r : TokReq, d.flag Reg.PWCK_AVS.APPLIED = true → d.power.waiting = [r] → r.level < 4 →
      ((∀ t ∈ r.tokens, d.railFits r.level t.1 t.2 = true) →
        ∃ (e : Dev) (x : TokHold), exec .powerTokenGrant ⟨d, q⟩ = .next ⟨e, q⟩ ∧ e.power.waiting = [] ∧ e.power.holds = d.power.holds ++ [x] ∧
          x.holder = r.holder ∧ x.level = r.level ∧ x.tokens = r.tokens ∧ x.fallEnd = none ∧
          (r.holder < 96 → e.rd (Reg.PWCK_DOM_STATUS.STATE r.holder) = 1) ∧
          (∀ a k, r.tokens = [(a, k)] → x.rampAt = max d.now (tget d.power.slotFree 0 a) ∧ x.rampEnd = some (x.rampAt + 125 * k) ∧
            tget e.power.slotFree 0 a = x.rampAt + 125 * k ∧ d.counted e .pwrGrants a 1) ∧
          d.regsBut e [Reg.PWCK_DOM_STATUS.addr r.holder] ∧ e = { d with
            regs := e.regs, ctrs := e.ctrs, ctrOvf := e.ctrOvf, power := e.power }) ∧
      (d.shortRails r ≠ [] → ∃ e : Dev, exec .powerTokenGrant ⟨d, q⟩ = .next ⟨e, q⟩ ∧
        e.power.waiting = [{ r with short := r.short ++ (d.shortRails r).filter fun a => !r.short.contains a }] ∧
        (∀ a k, r.tokens = [(a, k)] → d.counted e .pwrWaits a (if a ∈ r.short then 0 else 1)) ∧ e.power = { d.power with waiting := e.power.waiting } ∧
        e = { d with ctrs := e.ctrs, ctrOvf := e.ctrOvf, power := e.power })) ∧
    (∀ r w : TokReq, d.flag Reg.PWCK_AVS.APPLIED = true → d.power.waiting = [r, w] → w.level = 0 → 0 < r.level → r.level < 4 →
      (∃ t ∈ w.tokens, ∃ u ∈ r.tokens, u.1 = t.1) → d.shortRails w ≠ [] →
      ∃ e : Dev, exec .powerTokenGrant ⟨d, q⟩ = .next ⟨e, q⟩ ∧ e.power.holds = d.power.holds ∧ e.power.waiting.length = 2 ∧ e = { d with
        ctrs := e.ctrs, ctrOvf := e.ctrOvf, power := e.power })) ∧
  (∀ (d : Dev) (q : List Instr) (h : Nat), d.hold.live = true →
    (d.hold_ h = none ∨ (∃ x, d.hold_ h = some x ∧ ∀ t, x.rampEnd = some t → d.now < t) → exec (.rampSlotEnd h) ⟨d, q⟩ = .next ⟨d, q⟩) ∧
    (∀ x t, d.hold_ h = some x → x.rampEnd = some t → t ≤ d.now →
      ∃ e : Dev, exec (.rampSlotEnd h) ⟨d, q⟩ = .next ⟨e, q⟩ ∧ e.hold_ h = some { x with rampEnd := none } ∧
        (h < 96 → tget e.power.goodAt 0 h = t + goodDelay h) ∧ e.power.waiting = d.power.waiting ∧ e = { d with
          power := e.power }) ∧
    ((∀ x ∈ d.power.holds, x.holder = h → ∀ t, x.fallEnd = some t → d.now < t) → exec (.rampDownEnd h) ⟨d, q⟩ = .next ⟨d, q⟩) ∧
    ((∃ x ∈ d.power.holds, x.holder = h ∧ ∃ t, x.fallEnd = some t ∧ t ≤ d.now) →
      ∃ e : Dev, exec (.rampDownEnd h) ⟨d, q⟩ = .next ⟨e, q⟩ ∧
        (∀ x, x ∈ e.power.holds ↔ x ∈ d.power.holds ∧ ¬(x.holder = h ∧ ∃ t, x.fallEnd = some t ∧ t ≤ d.now)) ∧
        (h < 96 → (∀ x ∈ e.power.holds, x.holder ≠ h) → e.rd (Reg.PWCK_DOM_STATUS.STATE h) = 0 ∧
          (h < 64 → e.flag (Reg.PORT_GRP_STATUS.TX_PLL_LOCK h) = false)) ∧ e.power.waiting = d.power.waiting ∧
        d.regsBut e [Reg.PWCK_DOM_STATUS.addr h, Reg.PORT_GRP_STATUS.addr h] ∧ e = { d with
          regs := e.regs, power := e.power }) ∧
    (96 ≤ h ∨ d.rd (Reg.PWCK_DOM_STATUS.STATE h) ≠ 1 ∨ d.hold_ h = none ∨ d.now < tget d.power.goodAt 0 h →
      exec (.domainPowerGood h) ⟨d, q⟩ = .next ⟨d, q⟩) ∧
    (∀ x, h < 96 → d.rd (Reg.PWCK_DOM_STATUS.STATE h) = 1 → d.hold_ h = some x →
      (x.rampEnd ≠ none → exec (.domainPowerGood h) ⟨d, q⟩ = .next ⟨d, q⟩) ∧
      (x.rampEnd = none → tget d.power.goodAt 0 h ≤ d.now →
        ∃ e : Dev, exec (.domainPowerGood h) ⟨d, q⟩ = .next ⟨e, q⟩ ∧ e.rd (Reg.PWCK_DOM_STATUS.STATE h) = 2 ∧
          (h < 64 → d.bitOf Reg.PWCK_CLK_STATUS.SREF_LOST (h / 8) = false → e.flag (Reg.PORT_GRP_STATUS.TX_PLL_LOCK h) = true) ∧
          (∀ c, h = 80 + c → c < 4 → d.bitOf Reg.SEAL_CFG.CLU_EN c = true → tget d.deck.faultAt 0 c = 0 →
            e.flag (Reg.SEAL_CLU_STATUS.IN_SERVICE c) = true ∧ d.maskBit e Reg.SEAL_STATUS.CLU_UP c true) ∧
          (64 ≤ h → h < 80 ∨ 84 ≤ h → d.regsBut e [Reg.PWCK_DOM_STATUS.addr h]) ∧ e = { d with regs := e.regs })))

/-- The audit latches its terms every millisecond and reports, keeps and withdraws the locations whose sides differ.
AUDIT_CHECK, while RUNNING is set, no comparison runs and a new millisecond since forwarding release has begun, latches
every term pair and counts audit_unit_checks; else it changes nothing. AUDIT_COMPARE_DONE before 0.5 ms have passed changes
nothing. After them, with every side equal and nothing open, OPEN is 0 and DISC clear. A pair that differs counts
audit_unit_discrepancies, sets bit 0 of ALM0, is latched in DEV_AUDIT_ERR, EXP and FOUND unless VALID is set, opens its
location with a log record and sets DISC; a location found again with the same difference is not logged again; one whose
sides agree again is logged and leaves OPEN. Which millisecond a check belongs to is the model's reading (log entry 40). -/
def Obligations.AuditsFindDiscrepancies : Prop :=
  (∀ (d : Dev) (q : List Instr), d.hold.live = true →
    (d.flag Reg.DEV_AUDIT_STATUS.RUNNING = false ∨ d.audit.comparing = true ∨
        (d.now - d.fab.relAt) / 10 ^ 6 ≤ (d.audit.checkAt - d.fab.relAt) / 10 ^ 6 → exec .auditCheck ⟨d, q⟩ = .next ⟨d, q⟩) ∧
    (d.flag Reg.DEV_AUDIT_STATUS.RUNNING = true → d.audit.comparing = false →
      (d.audit.checkAt - d.fab.relAt) / 10 ^ 6 < (d.now - d.fab.relAt) / 10 ^ 6 →
      ∃ e : Dev, exec .auditCheck ⟨d, q⟩ = .next ⟨e, q⟩ ∧
        e.audit = { d.audit with terms := d.auditTerms, checkAt := d.now, comparing := true } ∧ d.counted e .auditUnitChecks 0 1 ∧
        e = { d with ctrs := e.ctrs, ctrOvf := e.ctrOvf, audit := e.audit }) ∧
    (d.audit.comparing = false ∨ d.now < d.audit.checkAt + 500000 → exec .auditCompareDone ⟨d, q⟩ = .next ⟨d, q⟩) ∧
    (d.audit.comparing = true → d.audit.checkAt + 500000 ≤ d.now → (∀ t ∈ d.audit.terms, t.expected = t.found) → d.audit.opens = [] →
      ∃ e : Dev, exec .auditCompareDone ⟨d, q⟩ = .next ⟨e, q⟩ ∧ e.audit = { d.audit with terms := [], comparing := false } ∧
        e.rd Reg.DEV_AUDIT_STATUS.OPEN = 0 ∧ e.flag Reg.DEV_AUDIT_STATUS.DISC = false ∧
        e.flag Reg.DEV_AUDIT_STATUS.RUNNING = d.flag Reg.DEV_AUDIT_STATUS.RUNNING ∧ d.regsBut e [Reg.DEV_AUDIT_STATUS.addr] ∧ e = { d with
          regs := e.regs, audit := e.audit })) ∧
  (∀ (d : Dev) (q : List Instr) (t : AuditTerm), d.hold.live = true → d.audit.comparing = true → d.audit.checkAt + 500000 ≤ d.now →
    d.audit.terms = [t] → t.check = 1 ∨ d.auditable t.check t.loc = true → t.check < 8 → t.loc < 256 →
    (t.expected ≠ t.found → d.audit.opens = [] →
      ∃ e : Dev, exec .auditCompareDone ⟨d, q⟩ = .next ⟨e, q⟩ ∧ d.counted e .auditUnitDiscrepancies 0 1 ∧ e.bitOf Reg.SUPV_ALM.ALM0_SRC 0 = true ∧
        e.audit = { d.audit with
          terms := [], comparing := false, opens := [⟨t.check, t.loc, (t.found : Int) - t.expected, d.now⟩] } ∧
        e.rd Reg.DEV_AUDIT_STATUS.OPEN = 1 ∧ e.flag Reg.DEV_AUDIT_STATUS.DISC = true ∧ e.flag Reg.DEV_AUDIT_ERR.VALID = true ∧
        (d.flag Reg.DEV_AUDIT_ERR.VALID = false → e.rd Reg.DEV_AUDIT_ERR.CHECK = t.check ∧ e.rd Reg.DEV_AUDIT_ERR.WHERE = t.loc ∧
          e.rd Reg.DEV_AUDIT_EXP.VALUE = t.expected % 2 ^ 32 ∧ e.rd Reg.DEV_AUDIT_FOUND.VALUE = t.found % 2 ^ 32) ∧
        (d.flag Reg.DEV_AUDIT_ERR.VALID = true → e.reg Reg.DEV_AUDIT_ERR.addr = d.reg Reg.DEV_AUDIT_ERR.addr ∧
          e.reg Reg.DEV_AUDIT_EXP.addr = d.reg Reg.DEV_AUDIT_EXP.addr) ∧
        e.supv.logQ = d.queued ⟨0x0001, 2, 0, 2, false, e.regData Reg.DEV_AUDIT_ERR.addr ++ le 4 t.expected ++ le 4 t.found⟩ ∧
        e = { d with
          regs := e.regs, ctrs := e.ctrs, ctrOvf := e.ctrOvf, wire := e.wire, supv := e.supv, audit := e.audit }) ∧
    (∀ o : AuditOpen, d.audit.opens = [o] → o.check = t.check → o.loc = t.loc →
      (t.expected = t.found → ∃ e : Dev, exec .auditCompareDone ⟨d, q⟩ = .next ⟨e, q⟩ ∧
        e.audit = { d.audit with terms := [], comparing := false, opens := [] } ∧ e.rd Reg.DEV_AUDIT_STATUS.OPEN = 0 ∧
        e.flag Reg.DEV_AUDIT_STATUS.DISC = false ∧
        e.supv.logQ = d.queued ⟨0x0001, 2, 0, 2, false, d.regData Reg.DEV_AUDIT_ERR.addr ++ le 4 t.expected ++ le 4 t.found⟩ ∧
        d.regsBut e [Reg.DEV_AUDIT_STATUS.addr] ∧ e = { d with
          regs := e.regs, ctrs := e.ctrs, ctrOvf := e.ctrOvf, supv := e.supv, audit := e.audit }) ∧
      (t.expected ≠ t.found → o.diff = (t.found : Int) - t.expected →
        ∃ e : Dev, exec .auditCompareDone ⟨d, q⟩ = .next ⟨e, q⟩ ∧ e.audit = { d.audit with terms := [], comparing := false } ∧
          d.counted e .auditUnitDiscrepancies 0 1 ∧ e.rd Reg.DEV_AUDIT_STATUS.OPEN = 1 ∧ e.supv = d.supv ∧
          e = { d with regs := e.regs, ctrs := e.ctrs, ctrOvf := e.ctrOvf, wire := e.wire, audit := e.audit })))
end

