-- ==== Sys2Proof/Tests/Slice0.lean ====
section
/-! SUPPORT. The model's own tests: ill-formed commands that the checks refuse, single steps whose results are worked out from the
rules of spec/, and for the statements of Certificates/Slice0 states and operands that meet their hypotheses. -/

namespace Sys2Proof.Tests

open Sys2Proof.Machine

set_option Elab.async false

/-! ### Small states -/

/-- The device with its clocks running and nothing configured. -/
def up : Dev := { Dev.zero with hold := ⟨false, true, false, true⟩ }

/-- SUP-A is ACTIVE. -/
def sup (d : Dev) : Dev := d.wr (Reg.SUPV_CORE_STATUS.ROLE 0) 1

/-- PHASE of start-up. -/
def inPhase (n : Nat) (d : Dev) : Dev := d.wr Reg.DEV_BOOT_STATUS.PHASE n

/-- Forwarding is released and SUP-A is ACTIVE. -/
def run : Dev := sup (inPhase 5 { up with boot := { up.boot with released := true } })

/-! ### Commands that are not well formed -/

theorem test_wf_smoke :
    Instr.wf (.pwrGoodRise 4 0) = false ∧ Instr.wf (.pwrGoodRise 0 2) = false ∧ Instr.wf (.pwrGoodRise 3 1) = true ∧
    Instr.wf (.amdSeqRead 256) = false ∧ Instr.wf (.amdSeqRead 255) = true ∧
    Instr.wf (.registerWriteRecord (2 ^ 32) 0 0) = false ∧ Instr.wf (.registerWriteRecord 0 (2 ^ 32 - 1) 0) = true ∧
    Instr.wf (.bulkTableRecord 65536 0 0 0 0 []) = false ∧ Instr.wf (.bulkTableRecord 65535 0 0 0 0 [[1]]) = true ∧
    Instr.wf (.bulkTableRecord 0 0 0 0 0 [[2 ^ 32]]) = false ∧
    Instr.wf (.keyRecord 0 256 0 (le 12 0) (le 32 0) (le 16 0)) = false ∧ Instr.wf (.keyRecord 0 255 0 (le 12 0) (le 32 0) (le 16 0)) = true ∧
    Instr.wf (.keyRecord 0 0 0 [] (le 32 0) (le 16 0)) = false ∧
    Instr.wf (.storeRecord 1 0 0 0 [2 ^ 256]) = false ∧ Instr.wf (.storeRecord 1 0 0 0 [2 ^ 256 - 1]) = true ∧
    Instr.wf (.amendSubmit 5 []) = false ∧ Instr.wf (.amendSubmit 0x100 []) = true ∧ Instr.wf (.amendSubmit 4 []) = true := by
  decide +kernel

/-! ### A request in mailbox 0 -/

/-- A request of a code with TAG 7 and a payload stands in mailbox 0 of a channel of version 2, SUP-A being ACTIVE. -/
def asking (code : Nat) (body : List Byte) (d : Dev) : Dev :=
  ((sup d).setChan 0 { Chan.zero with ver := 2 }).setMbBytes 0 (msgHead code 0 2 1 7 0 body.length 0 0 ++ body)
    |>.setFlag (Reg.HOST_MB_CTRL.FULL 0) true

/-- The request that a supervisor finds there. -/
def ask (code : Nat) (body : List Byte) : Request := ⟨code, 7, 1, body, false⟩

/-- The host's link is up and Bus Master Enable set. -/
def dma (d : Dev) : Dev := { d with host := { d.host with pcieLink := true, busMaster := true } }

/-- Everything `Dev.asksFor` asks. -/
def asked (d : Dev) (code minVer : Nat) (r : Request) : Bool :=
  d.hold.live && d.supRunning && d.mbFull 0 && !d.mbFull 4 && (d.chan 0).outbox.isEmpty && mailRequest (d.mbBytes 0) == r &&
    r.code == code && (d.chan 0).opened.isNone && !r.bad && decide (minVer ≤ (d.chan 0).ver) && decide (1 ≤ (d.chan 0).ver) && !d.boot.recovery

theorem asked_iff (d : Dev) (code minVer : Nat) (r : Request) (h : asked d code minVer r = true) :
    d.hold.live = true ∧ d.asksFor 0 code minVer r := by
  simp only [asked, Bool.and_eq_true, beq_iff_eq, Bool.not_eq_true', decide_eq_true_eq, Option.isNone_iff_eq_none,
    List.isEmpty_iff] at h
  unfold Dev.asksFor Dev.asks
  simp_all

/-! ### Frames and instants -/

/-- A frame of a destination, a source and a payload, padded, with its FCS. -/
def whole (b : List Byte) : List Byte := refcs (padFrame b ++ le 4 0)

/-- A later instant. -/
def later (t : Nat) (d : Dev) : Dev := { d with now := t }

/-- A frame that port `n` has received whole. -/
def rxd (n : Nat) (b : List Byte) (d : Dev) : Frame := { d.newFrame n 0 0 with bytes := b, ended := true }

/-! ### Witnesses: start-up, images and amendments -/

/-- A public key under which every signature `edSig` verifies: the neutral element. -/
def edId : List Byte := le 32 1
def edSig : List Byte := le 64 1

/-- An image of 256 bytes with one empty section of type 1. -/
def img : List Byte :=
  le 4 0x4D494E4C ++ le 2 1 ++ le 2 128 ++ le 4 7 ++ le 2 0 ++ le 2 1 ++ le 4 0 ++ le 4 0 ++ le 4 256 ++ le 4 128 ++ le 4 176 ++ le 4 0 ++
    le 8 0 ++ edId ++ le 48 0 ++ (le 2 1 ++ le 2 0 ++ le 4 256 ++ le 4 0 ++ le 4 0 ++ sha256 []) ++ edSig ++ le 16 0

/-- A device whose flash A holds `b` and whose fuses name `edId` as the owner's key. -/
def withImg (b : List Byte) (d : Dev) : Dev :=
  { d with boot := { d.boot with
    fuses := { d.boot.fuses with ownerHash := sha256 edId }, nvm := [{ Nvm.blank with ok := true, image := b }, { Nvm.blank with ok := true }] } }

/-- A section of `b`, at the start of the flash. -/
def sect (t : Nat) (b : List Byte) (h : List Byte) : Section := ⟨t, 0, 0, 0, b.length, 0, h⟩

/-- A device that streams section `i` of a candidate whose sections are `ss`, with `b` in flash A. -/
def streaming (i : Nat) (ss : List Section) (b : List Byte) : Dev :=
  let d := inPhase 3 (withImg b up)
  { d with boot := { d.boot with cand := some ⟨0, imgHeader img, ss, i, 0, []⟩ } }

/-- An amendment of sequence `q` without records, at once where `now` is set. -/
def amd (q : Nat) (now : Bool) : List Byte :=
  le 4 0x4D414E4C ++ le 2 1 ++ le 2 96 ++ le 4 0 ++ le 1 0 ++ le 1 (if now then 1 else 0) ++ le 2 0 ++ le 8 q ++ le 8 0 ++ le 4 500 ++ le 8 0 ++
    le 4 0 ++ sha256 [] ++ le 16 0 ++ edSig

/-- A device in phase 4 whose journals hold entries `l` and that stands to replay sequence 1. -/
def replaying (l : List JEntry) : Dev :=
  let d := inPhase 4 (withImg [] up)
  { d with boot := { d.boot with
    nvm := [{ Nvm.blank with ok := true, journal := l }, { Nvm.blank with ok := true }],
    loaded := some ⟨0, imgHeader img, [], 0, 0, []⟩, replay := some [1] } }

theorem witness_start_up_clocks :
    (Dev.zero.hold.live = false ∧ Dev.zero.hold.pwrGood = false ∧ Dev.zero.hold.por = false) ∧
    (let d := { Dev.zero with hold := ⟨true, true, false, false⟩ }; d.hold.live = false ∧ d.hold.pwrGood = true ∧ d.hold.por = true) ∧
    (let d := { Dev.zero with hold := ⟨false, true, false, false⟩ }
     d.hold.pwrGood = true ∧ d.hold.por = false ∧ d.hold.shutdown = false ∧ d.hold.clocks = false ∧ d.power = PowerSt.zero) ∧
    (let d := inPhase 1 (withImg [] up)
     d.hold.live = true ∧ d.bootRuns = true ∧ d.phase = 1 ∧ d.unprovisioned = false ∧ d.rd Reg.DEV_STRAP.BOOT_SEL ≠ 3) ∧
    (let d := inPhase 1 up; d.bootRuns = true ∧ d.phase = 1 ∧ d.unprovisioned = true) := by decide +kernel

theorem witness_start_up_images :
    (let d := inPhase 2 { up with boot := { up.boot with tried := [1, 0] } }
     d.bootRuns = true ∧ d.phase = 2 ∧ d.boot.cand = none ∧ ∀ x ∈ bootOrder (d.rd Reg.DEV_STRAP.BOOT_SEL), x ∈ d.boot.tried) ∧
    (let d := inPhase 2 up
     d.phase = 2 ∧ (bootOrder (d.rd Reg.DEV_STRAP.BOOT_SEL)).find? (fun x => !d.boot.tried.contains x) = some 0 ∧ (d.nvm 0).ok = false) ∧
    (let d := inPhase 2 (withImg img up)
     d.phase = 2 ∧ (bootOrder (d.rd Reg.DEV_STRAP.BOOT_SEL)).find? (fun x => !d.boot.tried.contains x) = some 0 ∧
       (d.nvm 0).ok = true ∧ headerCode d.boot.fuses (imageRegion (d.nvm 0).capacity) (d.nvm 0).image = 1) := by decide +kernel

theorem witness_start_up_sections :
    (let s := sect 1 [] []
     (streaming 0 [s] []).loading = some (⟨0, imgHeader img, [s], 0, 0, []⟩, s) ∧ sectionHashOk [] s = false) ∧
    (let s := sect 1 [] (sha256 [])
     (streaming 0 [s] []).loading = some (⟨0, imgHeader img, [s], 0, 0, []⟩, s) ∧ sectionHashOk [] s = true ∧ firmwareOk (sectionBytes [] s) = false) ∧
    (let b := le 64 0
     let s := sect 1 b (sha256 b)
     let d := streaming 0 [s, s] b
     d.loading = some (⟨0, imgHeader img, [s, s], 0, 0, []⟩, s) ∧ sectionHashOk b s = true ∧ d.skips s = false ∧
       d.role (1 - d.bootSup) ≠ 3 ∧ d.flag (Reg.SUPV_CORE_STATUS.DISABLED (1 - d.bootSup)) = false) ∧
    (let s := sect 2 [] (sha256 [])
     let d := streaming 1 [s, s, s] []
     d.loading = some (⟨0, imgHeader img, [s, s, s], 1, 0, []⟩, s) ∧ sectionHashOk [] s = true ∧ (sectionBytes [] s).length ≤ 0) ∧
    (let s := sect 2 [] []; sectionHashOk [] s = false ∧ (streaming 1 [s, s] []).loading ≠ none) ∧ up.loading = none := by
  decide +kernel

theorem witness_start_up_release :
    (let d := inPhase 4 up
     d.hold.live = true ∧ d.phase = 4 ∧ 0 ∉ d.boot.hbmDone ∧ d.flag (Reg.BUFF_HBM_STATUS.FAILED 0) = false ∧
       d.flag (Reg.BUFF_HBM_STATUS.FAILED (1 - 0)) = false) ∧
    (let d := inPhase 4 { up with boot := { up.boot with replay := some [], hbmDone := [0, 1] } }
     d.phase = 4 ∧ d.boot.replay = some [] ∧ d.boot.hbmDone.length = 2 ∧ d.bootRuns = true) ∧
    (let l : Load := ⟨0, { imgHeader img with flags := 1, epoch := 3 }, [], 0, 0, []⟩
     let d := { up with boot := { up.boot with released := true, loaded := some l } }
     d.boot.loaded = some l ∧ l.hdr.flags % 2 = 1 ∧ d.boot.fuses.epoch < l.hdr.epoch ∧ l.hdr.epoch < 2 ^ 16) ∧
    (let d := { up with now := 10 ^ 8, boot := { up.boot with recovery := true, restartAt := some 0 } }
     d.boot.restartAt = some 0 ∧ d.boot.recovery = true ∧ 0 + 10 ^ 8 ≤ d.now) ∧
    (let d := { up with boot := { up.boot with recovery := true, restartAt := some 0 } }
     d.boot.restartAt = some 0 ∧ d.now < 0 + 10 ^ 8) := by decide +kernel

/-- What replay finds of sequence 1: the code and the bytes of the first entry that passes R57. -/
def found (d : Dev) : Option (Nat × List Byte × Bool) :=
  ((d.verdicts 1).find? fun y => y.2.2.1 == 0).map fun y => (y.1, y.2.1.bytes, y.2.2.2.isSome)

theorem witness_start_up_replay :
    (let d := replaying [⟨1, 0, 1, 1, []⟩]
     d.boot.replay = some [1] ∧ d.phase = 4 ∧ d.bootRuns = true ∧ ((d.verdicts 1).map fun x => x.2.2.1) = [1]) ∧
    (let d := replaying [⟨1, 0, 1, 0, amd 1 true⟩]
     found d = some (0, amd 1 true, true) ∧ ((d.verdicts 1).map fun y => (y.2.1.committed, y.2.1.abandoned)) = [(1, 0)]) ∧
    (let d := replaying [⟨1, 0, 1, 1, amd 1 true⟩]
     found d = some (0, amd 1 true, true) ∧ ((d.verdicts 1).map fun y => (y.2.1.committed, y.2.1.abandoned)) = [(1, 1)]) ∧
    (let d := replaying [⟨1, 0, 0, 1, amd 1 true⟩]
     found d = some (0, amd 1 true, true) ∧ ((d.verdicts 1).map fun y => y.2.1.committed) = [0] ∧
       ((d.verdicts 1).map fun y => y.2.2.2.map fun a => a.recs) = [some []] ∧ d.boot.shadow = []) := by decide +kernel

/-- The bytes of a register write record. -/
def regRec (a m v : Nat) : List Byte := le 4 a ++ le 4 m ++ le 4 v

/-- A device whose next record, of a section of type `t`, stands at the front of `b`. -/
def recDev (t : Nat) (b : List Byte) : Dev := streaming 1 [sect t b (sha256 b), sect t b (sha256 b)] b

/-- Its section. -/
def recSect (t : Nat) (b : List Byte) : Section := sect t b (sha256 b)

/-- `b` is the next record of `recDev t b`. -/
def recNext (t : Nat) (b : List Byte) (r : CfgRec) : Bool :=
  let d := recDev t b
  let s := recSect t b
  d.hold.live && d.loading == some (⟨0, imgHeader img, [s, s], 1, 0, []⟩, s) && !d.skips s && recAt s.typ ((sectionBytes (d.nvm 0).image s).drop 0) == some (r, b.length)

theorem witness_image_register_and_table :
    (let a := Reg.EGRS_CBS_IDLE.addr 3 2
     let b := regRec a 0xFF 5
     recNext 2 b (.reg a 0xFF 5) = true ∧ (recDev 2 b).recordRefused a 0xFF = false ∧
       ((findReg a).map fun r => (r.1.name, (recDev 2 b).valueRefused r.1 r.2 (recordWord r.1 ((recDev 2 b).reg a) 0xFF 5).toNat)) =
         some ("EGRS_CBS_IDLE", false) ∧
       ((findReg a).map fun r => r.1.fields.all fun f => f.acc ≠ .cnt && f.acc ≠ .w1s) = some true ∧ portOfAddr a = none) ∧
    (let b := regRec 0xFFFF0000 0xFF 5; recNext 2 b (.reg 0xFFFF0000 0xFF 5) = true ∧ ((recDev 2 b).imageRec (.reg 0xFFFF0000 0xFF 5)).1 = 0x19) ∧
    (let e := [[7, 0]]
     let b := le 2 0x7FF1 ++ le 2 0 ++ le 2 2 ++ le 2 0 ++ le 4 5 ++ le 4 1 ++ le 4 7 ++ le 4 0
     recNext 3 b (.bulk 0x7FF1 0 2 0 5 e) = true ∧ bulkBad 0x7FF1 0 2 0 5 e = false ∧ 0x7FF1 / 4096 ≠ 5 ∧ 0x7FF1 / 4096 ≠ 3 ∧
       ∀ y ∈ e, (recDev 3 b).entryBad 0x7FF1 5 y = false) := by decide +kernel

/-- The bytes of a key record. -/
def keyRec (slot kind : Nat) (nonce key tag : List Byte) : List Byte := le 2 slot ++ le 1 kind ++ le 1 0 ++ nonce ++ key ++ tag

/-- The base point as a public key. -/
def edKey : List Byte := le 32 (4 * powMod edP 255 5 (edP - 2) % edP)

theorem witness_image_keys :
    (let b := keyRec 511 1 (le 12 0) edKey (le 16 0)
     recNext 4 b (.key 511 1 0 (le 12 0) edKey (le 16 0)) = true ∧ (le 12 0 ++ le 16 0).all (· == 0) = true ∧ edKeyOk edKey = true) ∧
    (let b := keyRec 8 0x10 (le 12 0) edKey (le 16 0); recNext 4 b (.key 8 0x10 0 (le 12 0) edKey (le 16 0)) = true) := by decide +kernel

theorem witness_image_secret_key :
    (let tag : List Byte := be 16 296260730158295988541851840250600288980
     let b := keyRec 511 2 (le 12 0) (le 32 0) tag
     recNext 4 b (.key 511 2 0 (le 12 0) (le 32 0) tag) = true ∧
       (gcmOpen (recDev 4 b).boot.fuses.kek (le 12 0) (keyHead 511 2 0 ++ le 4 (recDev 4 b).boot.fuses.realm) (le 32 0) tag).isSome = true) := by
  decide +kernel

theorem witness_image_store :
    (let b := le 1 5 ++ le 1 0 ++ le 2 16383 ++ le 2 1 ++ le 2 0 ++ le 32 9
     recNext 5 b (.store 5 0 16383 0 [9]) = true ∧ storeBad 5 0 16383 0 1 = false) := by decide +kernel

/-- A released device with an owner's key. -/
def owned : Dev :=
  let d := withImg [] run
  dma { d with boot := { d.boot with loaded := some ⟨0, imgHeader img, [], 0, 0, []⟩ } }

/-- AMEND_SUBMIT with a source of 192 bytes in host memory. -/
def submitBody : List Byte := le 4 0 ++ le 4 192 ++ le 8 4096

/-- An amendment whose bytes are `b` stands in phase `p`. -/
def amending (b : List Byte) (q : Nat) (p : AmdPhase) (d : Dev) : Dev :=
  { d with boot := { d.boot with amds := [⟨q, b, 0, 9, p⟩] } }

theorem witness_amendment_submitted :
    (let d := asking 0x20 submitBody owned
     asked d 0x20 1 (ask 0x20 submitBody) = true ∧ submitBody.length = 16 ∧ d.boot.released = true ∧ d.dmaReady = true ∧
       descriptor (slice submitBody 0 16) true false = some (0, 192, 4096) ∧ parseAmd (slice [] 0 192) = none ∧
       ((parseAmd (slice (amd 1 true) 0 192)).map fun a => (d.amdCode false a, decide (a.len ≤ 192), d.roomFor a.len)) = some (0, true, [0, 1]) ∧
       ((parseAmd (slice (amd 1 false) 0 192)).map fun a => d.amdCode false a) = some 0) ∧
    (let d := asking 0x20 submitBody { owned with now := 1, time := { owned.time with tb := [⟨10 ^ 6 * 2 ^ 32, 0, 0, 0, 0, 0, 0⟩] } }
     asked d 0x20 1 (ask 0x20 submitBody) = true ∧ ((parseAmd (slice (amd 1 false) 0 192)).map fun a => d.amdCode false a) = some 6) ∧
    (let d := asking 0x20 submitBody { owned with boot := { owned.boot with fuses := { owned.boot.fuses with devnum := 3 } } }
     asked d 0x20 1 (ask 0x20 submitBody) = true ∧ ((parseAmd (slice (amd 1 true) 0 192)).map fun a => d.amdCode false a) = some 0x0D) ∧
    (up.hold.live = true ∧ up.boot.released = false ∧ up.boot.recovery = false) := by decide +kernel

/-- NVMs of a device that is programming an entry of sequence 4. -/
def journaling : Dev :=
  let d := amending [] 4 .journaling run
  { d.setChan 0 { Chan.zero with ver := 2, opened := some ⟨0x20, 9⟩ } with boot := { d.boot with
    nvm := [{ Nvm.blank with ok := true, journal := [⟨4, 1, 1, 1, []⟩] }, { Nvm.blank with ok := true, journal := [⟨4, 1, 1, 1, []⟩] }] } }

theorem witness_journal_written :
    let d := journaling
    d.hold.live = true ∧ d.supRunning = true ∧
      d.boot.amds.find? (fun (z : Amd) => z.seq == 4 && z.phase == .journaling) = some ⟨4, [], 0, 9, .journaling⟩ ∧
      (d.chan 0).opened = some ⟨0x20, 9⟩ ∧ d.mbFull 4 = false ∧
      ([0, 1].filter fun nv => (d.nvm nv).ok && (d.nvm nv).journal.any (fun z => z.seq == 4) && (d.nvm nv).writable &&
        (if nv = 0 then true else false)) = [0] ∧
      ([0, 1].filter fun nv => (d.nvm nv).ok && (d.nvm nv).journal.any (fun z => z.seq == 4) && (d.nvm nv).writable &&
        (if nv = 0 then false else false)) = [] := by decide +kernel

/-- An amendment waits whose one record gives register `a` a value. -/
def amdReg (a : Nat) : List Byte :=
  let body := le 2 2 ++ le 2 0 ++ le 4 12 ++ regRec a 0xFF 5
  le 4 0x4D414E4C ++ le 2 1 ++ le 2 96 ++ le 4 0 ++ le 1 0 ++ le 1 1 ++ le 2 0 ++ le 8 4 ++ le 8 0 ++ le 4 500 ++ le 8 0 ++
    le 4 body.length ++ sha256 body ++ le 16 0 ++ body ++ edSig

theorem witness_amendment_staged :
    (let d := amending (amdReg (Reg.EGRS_CBS_IDLE.addr 3 2)) 4 .waiting owned
     d.hold.live = true ∧ d.boot.released = true ∧ d.supRunning = true ∧ d.boot.cleanup = [] ∧
       (d.nextAmd.map fun x => (x.1.seq, x.2.recs, (d.stageAll x.2.recs).isSome)) = some (4, [.reg (Reg.EGRS_CBS_IDLE.addr 3 2) 0xFF 5], true)) ∧
    (let d := amending (amdReg 0xFFFF0000) 4 .waiting owned
     (d.nextAmd.map fun x => (x.1.seq, (d.stageAll x.2.recs).isSome)) = some (4, false)) ∧
    (let d := amending (amd 4 true) 4 .staged owned
     (d.stagedAmds.map fun x => (x.1.seq, x.2.immediate)) = [(4, true)] ∧ d.supRunning = true ∧ d.boot.armed = none ∧ d.nextAmd = none) ∧
    (let d := amending (amd 4 false) 4 .staged owned
     (d.stagedAmds.map fun x => (x.2.immediate, x.2.act, decide (x.2.act < d.presNs x.2.tb + 2000000))) = [(false, 500, true)]) := by
  decide +kernel

theorem witness_amendment_committed :
    (let x : Armed := ⟨0, 0, 0, false⟩
     let d := { amending (amd 4 true) 4 .staged owned with boot := { (amending (amd 4 true) 4 .staged owned).boot with
       armed := some x, shadow := [.reg (Reg.EGRS_CBS_IDLE.addr 3 0) 0xFF 5] } }
     d.hold.live = true ∧ d.boot.armed = some x ∧ x.due ≤ d.presNs x.tb ∧ x.late = false ∧ d.supRunning = true) ∧
    (let x : Armed := ⟨0, 0, 0, true⟩
     let d := { owned with boot := { owned.boot with armed := some x } }
     d.boot.armed = some x ∧ x.due ≤ d.presNs x.tb ∧ d.supRunning = true) ∧
    (let d := { up with boot := { up.boot with armed := some ⟨0, 0, 0, false⟩ } }
     d.hold.live = true ∧ d.supRunning = false ∧ d.supv.takeover = none ∧ 0 ≤ d.presNs 0) ∧
    (let d := { run with boot := { run.boot with armed := some ⟨0, 0, 9, false⟩ } }; d.presNs 0 < 9) ∧
    (let y : JEntry := ⟨4, 0, 1, 1, []⟩
     let d := { run with boot := { run.boot with cleanup := [4], nvm := [{ Nvm.blank with ok := true, journal := [y] }, Nvm.blank] } }
     d.supRunning = true ∧ d.boot.cleanup = [4] ∧ (d.nvm 0).ok = true ∧ (d.nvm 0).writable = true ∧ y.written = 0 ∧ (d.nvm 0).journal = [y]) := by
  decide +kernel

/-- IMAGE_STORE of flash B from 512 bytes of host memory. -/
def storeBody : List Byte := le 1 2 ++ le 3 0 ++ le 4 0 ++ le 4 512 ++ le 8 4096

/-- A device with one HBM stack in service. -/
def hbm (d : Dev) : Dev := d.setFlag (Reg.BUFF_HBM_STATUS.TRAINED 0) true

theorem witness_image_stored :
    (let d := asking 0x24 storeBody (hbm owned)
     asked d 0x24 1 (ask 0x24 storeBody) = true ∧ storeBody.length = 20 ∧ fromLe (slice storeBody 0 1) = 2 ∧ fromLe (slice storeBody 1 3) = 0 ∧
       descriptor (slice storeBody 4 16) true false = some (0, 512, 4096) ∧ d.runningNvm = some 0 ∧ (2 : Nat).testBit 0 = false ∧
       d.hbmUp 0 = true ∧ d.boot.imgStore = none ∧ d.dmaReady = true ∧ storeOrder (d.rd Reg.DEV_STRAP.BOOT_SEL) 2 = [1] ∧ (d.nvm 1).ok = true ∧
       d.storeCode (imageRegion 128) (slice [] 0 512) = 0x11) ∧
    (let d := asking 0x24 storeBody owned
     asked d 0x24 1 (ask 0x24 storeBody) = true ∧ d.hbmUp 0 = false ∧ d.hbmUp 1 = false) ∧
    (let d := asking 0x24 storeBody { hbm owned with boot := { owned.boot with imgStore := some ⟨[], [0], 0, 1⟩ } }
     asked d 0x24 1 (ask 0x24 storeBody) = true ∧ d.boot.imgStore ≠ none) := by decide +kernel

theorem witness_image_programmed :
    (let x : ImgStore := ⟨[1, 2], [0, 1], 0, 9⟩
     let d := { (run.setChan 0 { Chan.zero with ver := 2, opened := some ⟨0x24, 9⟩ }) with boot := { run.boot with imgStore := some x } }
     d.hold.live = true ∧ d.boot.imgStore = some x ∧ d.supRunning = true ∧ (d.chan 0).opened = some ⟨0x24, 9⟩ ∧ d.mbFull 4 = false ∧
       (d.nvm 0).writable = true ∧ 0 < d.boot.nvm.length) := by decide +kernel

/-! ### Witnesses: ports -/

/-- Group 0 runs four ports of one 10 Gb/s lane each, and port `n` of it is enabled and up. -/
def port (n : Nat) (d : Dev) : Dev :=
  (((d.wr (Reg.PORT_GRP_MODE.MODE 0) 2).setFlag (Reg.PORT_GRP_STATUS.TX_PLL_LOCK 0) true).setFlag (Reg.PORT_CFG.ADMIN_EN n) true).setFlag
    (Reg.PORT_STATUS.LINK_UP n) true

/-- The same with the link down. -/
def downPort (n : Nat) (d : Dev) : Dev := (port n d).setFlag (Reg.PORT_STATUS.LINK_UP n) false

theorem witness_pause_timers :
    (let d := run.setPauseSt 257 7 { PauseSt.zero with rxEnd := some 0 }
     d.hold.live = true ∧ (d.pauseSt 257 7).rxEnd = some 0 ∧ 0 ≤ d.now ∧ d.bitOf (Reg.PORT_PAUSE_STAT.WD_HOLD 257) 7 = false) ∧
    (let d := ({ run with now := 10 ^ 15 }).setPauseSt 257 7 { PauseSt.zero with rxEnd := some 0 }
     (d.pauseSt 257 7).rxEnd.isSome = true ∧ (d.pauseSt 257 7).since + d.rd (Reg.PORT_PAUSE_WD.WD_MS 257) * 10 ^ 6 < d.now ∧
       d.bitOf Reg.SUPV_ALM.ALM3_SRC 0 = false) ∧
    (let d := run.setBitOf (Reg.PORT_PAUSE_STAT.WD_HOLD 257) 7 true
     d.bitOf (Reg.PORT_PAUSE_STAT.WD_HOLD 257) 7 = true ∧ (d.pauseSt 257 7).wdEnd ≤ d.now) := by decide +kernel

theorem witness_link_state :
    (let d := port 3 run; d.hold.live = true ∧ d.flag (Reg.PORT_STATUS.LINK_UP 3) = true) ∧
    (let d := (port 3 run).wr (Reg.PORT_LINK_TIMING.LINK_HOLD 3) 0
     d.flag (Reg.PORT_STATUS.LINK_UP 3) = true ∧ d.rd (Reg.PORT_LINK_TIMING.LINK_HOLD 3) = 0) ∧
    (let d := (port 3 run).wr (Reg.PORT_LINK_TIMING.LINK_HOLD 3) 5; d.rd (Reg.PORT_LINK_TIMING.LINK_HOLD 3) ≠ 0) ∧
    (let d := (downPort 3 run).setFlag (Reg.PORT_PREEMPT_CFG.EN 3) true
     d.serves 3 = true ∧ d.configured 3 = true ∧ d.portMode 3 ≠ 0 ∧ d.adminUp 3 = true ∧ d.portBad 3 = false ∧ d.moduleReady 3 = true ∧
       d.clocked 3 = true ∧ d.flag (Reg.PORT_STATUS.LINK_UP 3) = false ∧ d.rd (Reg.PORT_LINK_TIMING.LINK_UP_STABLE 3) * 10 ^ 6 ≤ 10 ^ 10 ∧
       d.flag (Reg.PORT_STATUS.FLUSHING 3) = false ∧ d.flag (Reg.PORT_PREEMPT_CFG.EN 3) = true ∧
       d.flag (Reg.PORT_PREEMPT_CFG.VERIFY_DIS 3) = false ∧
       (d.setFlag (Reg.PORT_PREEMPT_CFG.VERIFY_DIS 3) true).flag (Reg.PORT_PREEMPT_CFG.VERIFY_DIS 3) = true ∧
       (d.setFlag (Reg.PORT_STATUS.FLUSHING 3) true).flag (Reg.PORT_STATUS.FLUSHING 3) = true) ∧
    (let d := (run.setFlag (Reg.PORT_STATUS.HOLD 257) true).setPortSt 257 { PortSt.zero with holdEnd := some 0 }
     (d.portSt 257).holdEnd = some 0 ∧ 0 ≤ d.now ∧ d.flag (Reg.PORT_STATUS.HOLD 257) = true ∧ (d.path.copies.map (·.id)).Nodup) ∧
    (let d := (run.setFlag (Reg.PORT_STATUS.FLUSHING 257) true).setPortSt 257 { PortSt.zero with upPending := true }
     d.flag (Reg.PORT_STATUS.FLUSHING 257) = true ∧ (d.portSt 257).upPending = true) ∧
    (let d := run.setFlag (Reg.PORT_STATUS.FLUSHING 0) true; d.flag (Reg.PORT_STATUS.FLUSHING 0) = true ∧ (d.portSt 0).upPending = false) ∧
    (let d := port 3 run; d.flag (Reg.PORT_CFG.ADMIN_EN 3) = true ∧ d.flag (Reg.PORT_STATUS.LINK_UP 3) = true) := by decide +kernel

/-- A MAC control frame of an opcode with operands. -/
def control (op : Nat) (b : List Byte) : List Byte := whole (be 6 0x0180C2000001 ++ be 6 2 ++ be 2 0x8808 ++ be 2 op ++ b)

theorem witness_reception :
    (let d := port 3 run
     d.hold.live = true ∧ d.receives 3 = true ∧ d.openRx 3 0 = none ∧ (∀ f ∈ d.path.frames, f.id < d.path.nextFrame) ∧
       1518 ≤ d.rd (Reg.PORT_CFG.MAX_FRAME 3) ∧ (le 63 1).length < 64 ∧ 64 ≤ (le 64 1).length ∧ fcsGood (le 64 1) = false ∧
       64 ≤ (whole (le 60 7)).length ∧ fcsGood (whole (le 60 7)) = true ∧ (whole (le 60 7)).length ≤ d.rd (Reg.PORT_CFG.MAX_FRAME 3)) ∧
    (let d := port 3 run
     (List.replicate (d.rd (Reg.PORT_CFG.MAX_FRAME 3) + 1) (0 : Byte)).length = d.rd (Reg.PORT_CFG.MAX_FRAME 3) + 1 ∧
       d.rd (Reg.PORT_CFG.MAX_FRAME 3) < d.rd (Reg.PORT_CFG.MAX_FRAME 3) + 1) := by decide +kernel

theorem witness_mac_control :
    (let d := ((port 3 run).wr (Reg.PORT_PAUSE_CFG.MODE 3) 1).setFlag (Reg.PORT_PAUSE_CFG.RX_EN 3) true
     let b := control 1 (be 2 9)
     d.receives 3 = true ∧ d.openRx 3 0 = none ∧ 64 ≤ b.length ∧ isControl b = true ∧ fcsGood b = true ∧ d.ctrlKind 3 b = 1 ∧
       d.flag (Reg.PORT_PAUSE_CFG.RX_EN 3) = true ∧ d.bitOf (Reg.PORT_PAUSE_STAT.WD_HOLD 3) 7 = false) ∧
    (let d := (((port 3 run).wr (Reg.PORT_PAUSE_CFG.MODE 3) 2).setFlag (Reg.PORT_PAUSE_CFG.RX_EN 3) true).wr (Reg.PORT_PAUSE_CFG.PFC_CLASSES 3) 255
     let b := control 0x0101 (be 2 128 ++ be 14 0 ++ be 2 9)
     isControl b = true ∧ fcsGood b = true ∧ d.ctrlKind 3 b = 2 ∧ (fromBe (slice b 16 2)).testBit 7 = true ∧
       d.bitOf (Reg.PORT_PAUSE_CFG.PFC_CLASSES 3) 7 = true ∧ (fromBe (slice b 16 2)).testBit 0 = false) ∧
    ((port 3 run).ctrlKind 3 (control 7 []) = 0 ∧ isControl (control 7 []) = true) := by decide +kernel

theorem witness_pause_sent :
    (let d := run
     d.hold.live = true ∧ d.portBad 257 = false ∧ (2 * 2 ^ 30) / 2 ^ 30 % 4 = 2 ∧ d.rd (Reg.PORT_PAUSE_CFG.MODE 257) ≠ (2 * 2 ^ 30) / 2 ^ 30 % 4) ∧
    (let d := ({ (((((port 3 run).wr (Reg.PORT_PAUSE_CFG.MODE 3) 2).setFlag (Reg.PORT_PAUSE_CFG.TX_EN 3) true).wr (Reg.PORT_PAUSE_CFG.PFC_CLASSES 3) 255).setBitOf
       (Reg.PORT_PAUSE_STAT.TX_XOFF 3) 7 true) with vat := { run.vat with ic := [(31, 1000000)] }, now := 10 ^ 9 })
     d.flag (Reg.PORT_PAUSE_CFG.TX_EN 3) = true ∧ d.linkUp 3 = true ∧ d.pauseMode 3 = 2 ∧ d.bitOf (Reg.PORT_PAUSE_STAT.TX_XOFF 3) 7 = true ∧
       d.aboveLow 3 7 = true ∧ (d.pauseSt 3 7).xoffAt + d.quantaNs 3 (d.rd (Reg.PORT_PAUSE_CFG.QUANTA 3)) / 2 ≤ d.now) ∧
    (let d := ({ ((((port 3 run).wr (Reg.PORT_PAUSE_CFG.MODE 3) 1).setFlag (Reg.PORT_PAUSE_CFG.TX_EN 3) true).setBitOf
       (Reg.PORT_PAUSE_STAT.TX_XOFF 3) 0 true) with vat := { run.vat with ic := [(31, 1000000)] }, now := 10 ^ 9 })
     d.pauseMode 3 = 1 ∧ d.bitOf (Reg.PORT_PAUSE_STAT.TX_XOFF 3) 0 = true ∧ (classes.any (d.aboveLow 3)) = true ∧
       (d.pauseSt 3 0).xoffAt + d.quantaNs 3 (d.rd (Reg.PORT_PAUSE_CFG.QUANTA 3)) / 2 ≤ d.now) := by decide +kernel

theorem witness_preemption_and_lanes :
    (let d := (port 3 run).setFlag (Reg.PORT_PREEMPT_CFG.EN 3) true
     d.hold.live = true ∧ d.receives 3 = true ∧ d.flag (Reg.PORT_PREEMPT_CFG.EN 3) = true ∧ (d.portSt 3).reasm = none ∧
       ((d.setPortSt 3 { PortSt.zero with reasm := some 3 }).portSt 3).reasm = some (7 % 4) ∧
       (((d.rxFrame 3 1 0).2.setPortSt 3 { PortSt.zero with reasm := some 2 }).portSt 3).reasm = some 2 ∧
       ((d.rxFrame 3 1 0).2.openRx 3 1).isSome = true ∧ 2 ≠ 7 % 4) ∧
    (let d := { (run.wr (Reg.PORT_STATUS.VERIFY_STATUS 3) 1) with now := 10 ^ 12 }
     d.rd (Reg.PORT_STATUS.VERIFY_STATUS 3) = 1 ∧ (d.portSt 3).verAt + d.rd (Reg.PORT_PREEMPT_CFG.VERIFY_TIME 3) * 10 ^ 6 ≤ d.now ∧
       (d.portSt 3).verTries < 3 ∧ ¬((d.setPortSt 3 { PortSt.zero with verTries := 3 }).portSt 3).verTries < 3) ∧
    (let d := (port 3 run).setFlag (Reg.PORT_CFG.AN_EN 3) true
     d.serves 3 = true ∧ d.flag (Reg.PORT_CFG.AN_EN 3) = true ∧ d.portBad 3 = false ∧ fecOk (d.portMode 3) 0 = true ∧ 0 ≤ d.portFec 3) ∧
    (let d := (port 3 run).setFlag (Reg.PORT_CFG.LT_EN 3) true
     d.boot.released = true ∧ d.flag (Reg.PORT_CFG.LT_EN 3) = true ∧ d.portBad 3 = false ∧ 0 < modeWidth (d.portMode 3)) := by decide +kernel

/-! ### Witnesses: modules -/

/-- An enabled cage with a module in it stands in a STATE. -/
def cage (c st : Nat) (d : Dev) : Dev :=
  ((d.setFlag (Reg.MODL_CAGE_CFG.EN c) true).setFlag (Reg.MODL_CAGE_STATUS.PRESENT c) true).wr (Reg.MODL_CAGE_STATUS.STATE c) st

/-- The same with the module's own state. -/
def caged (c st : Nat) (s : CageSt) (d : Dev) : Dev := (cage c st d).setCage c s

theorem witness_module_sequence :
    (let d := run.setFlag (Reg.MODL_CAGE_CFG.EN 63) true
     d.hold.live = true ∧ 63 < 64 ∧ d.flag (Reg.MODL_CAGE_STATUS.PRESENT 63) = false ∧ d.boot.released = true ∧ d.cageUp 63 = true) ∧
    (run.cageUp 0 = false ∧ run.flag (Reg.MODL_CAGE_STATUS.PRESENT 0) = false ∧ up.boot.released = false) ∧
    (let d := later 20000 (cage 63 1 run)
     d.hold.live = true ∧ d.rd (Reg.MODL_CAGE_STATUS.STATE 63) = 1 ∧ (d.cage 63).startAt + 20000 ≤ d.now ∧ (d.cage 63).flags = []) ∧
    (let d := caged 63 2 { CageSt.zero with ackAt := some 0 } run
     d.rd (Reg.MODL_CAGE_STATUS.STATE 63) = 2 ∧ (d.cage 63).pollAt ≤ d.now ∧ (d.cage 63).flags = [] ∧
       d.now < (d.cage 63).ackAt.getD d.now + 300 * 10 ^ 6 ∧
       (later (300 * 10 ^ 6) d).rd (Reg.MODL_CAGE_STATUS.STATE 63) = 2 ∧
       ((later (300 * 10 ^ 6) d).cage 63).ackAt.getD (later (300 * 10 ^ 6) d).now + 300 * 10 ^ 6 ≤ (later (300 * 10 ^ 6) d).now) ∧
    (let d := later (5 * 10 ^ 9 + 1) (cage 63 2 run)
     d.rd (Reg.MODL_CAGE_STATUS.STATE 63) = 2 ∧ (d.cage 63).startAt + 5 * 10 ^ 9 < d.now ∧ (d.cage 63).flags = []) ∧
    (let d := cage 63 6 run
     d.rd (Reg.MODL_CAGE_STATUS.STATE 63) = 6 ∧ (d.cage 63).flags = [] ∧ d.now ≤ (d.cage 63).stepAt + d.step9Cap 63) ∧
    (let d := later (61 * 10 ^ 9) (cage 63 6 run)
     d.rd (Reg.MODL_CAGE_STATUS.STATE 63) = 6 ∧ (d.cage 63).stepAt + d.step9Cap 63 < d.now ∧
       ((d.cage 63).faults.filter fun t => decide (d.now < t + 600 * 10 ^ 9)).length < 2) ∧
    (let d := later (61 * 10 ^ 9) (caged 63 6 { CageSt.zero with faults := [0, 1] } run)
     (d.cage 63).stepAt + d.step9Cap 63 < d.now ∧ 2 ≤ ((d.cage 63).faults.filter fun t => decide (d.now < t + 600 * 10 ^ 9)).length) ∧
    (let d := later (10 ^ 9) (cage 63 9 run)
     d.rd (Reg.MODL_CAGE_STATUS.STATE 63) = 9 ∧ (d.cage 63).stepAt + 10 ^ 9 ≤ d.now ∧ (d.cage 63).flags = []) ∧
    (let d := later (10 ^ 9) (cage 63 7 run); d.hold.live = true ∧ d.busWants 2 63 = true) := by decide +kernel

/-- Identity of a CMIS 5 module of two lanes that draws 3.3 W. -/
def cmis : ModId := ⟨0x18, 0x50, [1, 2, 3], [0x41], 2, 2, 3300, [], 1000⟩

/-- The allow-list: entry 5 takes any module of two lanes up to `w` quarter watts. -/
def allow (w : Nat) (d : Dev) : Dev :=
  ((((d.setTabW 0x2100 5 0 3).setTabW 0x2100 5 1 0x2A).setTabW 0x2100 5 5 0x200).setTabW 0x2100 5 6 (BitVec.ofNat 32 w)).wr
    (Reg.MODL_CAGE_CFG.WIDTH 63) 1

theorem witness_module_spec : modSpec cmis = .ok 4 ∧ modSpec { cmis with identifier := 0 } = .error 1 ∧
    modSpec { cmis with revision := 0x30 } = .error 2 ∧ modSpec { cmis with identifier := 0x03 } = .ok 1 := ⟨rfl, rfl, rfl, rfl⟩

theorem witness_module_identity :
    (let d := allow 14 (cage 63 3 run)
     d.hold.live = true ∧ d.rd (Reg.MODL_CAGE_STATUS.STATE 63) = 3 ∧ d.allowEntry cmis = some 5 ∧
       cmis.lanes ≤ d.cageWidth 63 ∧ modPower cmis = 14 ∧ modPower cmis ≤ d.allowPower 5 ∧ (d.cage 63).flags = [] ∧
       d.flag (Reg.MODL_CAGE_STATUS.GRANTED 63) = false) ∧
    (let d := cage 63 3 run; d.rd (Reg.MODL_CAGE_STATUS.STATE 63) = 3 ∧ d.allowEntry cmis = none) ∧
    (let d := (allow 14 (cage 63 3 run)).wr (Reg.MODL_CAGE_CFG.WIDTH 63) 0; d.allowEntry cmis = some 5 ∧ d.cageWidth 63 < cmis.lanes) ∧
    (let d := allow 13 (cage 63 3 run)
     d.allowEntry cmis = some 5 ∧ cmis.lanes ≤ d.cageWidth 63 ∧ d.allowPower 5 < modPower cmis) ∧
    (run.waitingCages.find? run.powerFits = none) ∧
    (let d := (cage 62 5 (cage 63 5 run)).wr (Reg.MODL_CAGE_CFG.PRIORITY 63) 7
     d.waitingCages.find? d.powerFits = some 63 ∧ (d.cage 63).flags = [] ∧ d.flag (Reg.MODL_CAGE_STATUS.GRANTED 63) = false) ∧
    (let d := (cage 63 7 run).setFlag (Reg.MODL_CAGE_STATUS.GRANTED 63) true
     d.hold.live = true ∧ d.flag (Reg.MODL_CAGE_STATUS.PRESENT 63) = true ∧ d.flag (Reg.MODL_CAGE_STATUS.GRANTED 63) = true) ∧
    (cage 63 7 run).flag (Reg.MODL_CAGE_STATUS.GRANTED 63) = false := by decide +kernel

theorem witness_module_buses :
    (let d := cage 63 7 run
     d.hold.live = true ∧ 63 / 8 = 7 ∧ d.boot.released = true ∧ d.cageUp 63 = true ∧ d.flag (Reg.MODL_CAGE_STATUS.PRESENT 63) = true ∧
       d.rd (Reg.MODL_CAGE_STATUS.STATE 63) = 7) ∧
    (let d := (cage 62 7 (cage 63 2 run)).setFlag (Reg.MODL_BUS_CFG.MUX_EN 7) true
     d.hold.live = true ∧ d.boot.released = true ∧ (d.mbus 7).retry = none ∧ d.busNext 7 = some (63, 0) ∧
       d.flag (Reg.MODL_BUS_CFG.MUX_EN 7) = true) ∧
    (let d := later (10 ^ 6) ((cage 63 2 run).setMbus 7 { MBus.zero with retry := some (63, 1, 0) })
     63 / 8 = 7 ∧ (d.mbus 7).retry = some (63, 1, 0) ∧ 0 + 10 ^ 6 ≤ d.now ∧ 1 < 2) ∧
    (let d := later (10 ^ 6) ((cage 63 2 run).setMbus 7 { MBus.zero with retry := some (63, 2, 0) })
     (d.mbus 7).retry = some (63, 2, 0) ∧ 0 + 10 ^ 6 ≤ d.now ∧ 2 ≤ 2 ∧ d.rd (Reg.MODL_CAGE_STATUS.STATE 63) ≠ 8) := by decide +kernel

/-! ### Witnesses: the Beater -/

/-- The four parity bits of a microword (R117). -/
def microword (w : Nat) : Nat :=
  ((List.range 4).map fun k => if ((List.range 64).filter fun i => decide (64 * k + i < 252) && w.testBit (64 * k + i)).length % 2 = 1
    then 2 ^ (252 + k) else 0).sum + w

/-- Every bank copy of pipeline 3 is in service. -/
def served (d : Dev) : Dev := d.wr (Reg.PARS_COPY_STATUS.OUT 3) 0

/-- A frame that port 255 has received. -/
def frame (d : Dev) : Frame := { d.newFrame 255 0 0 with bytes := whole (le 60 7), ended := true }

/-- The frame stands at an engine of its pipeline, at word `a`. -/
def engaged (px : Parse) (d : Dev) : Frame := { frame d with stage := .engine 127, px := { px with half := 1, hv := (frame d).startHv, gr := List.replicate 8 5 } }

/-- The device holds a frame. -/
def hold1 (f : Frame) (d : Dev) : Dev := { d with path := { d.path with frames := [f], nextFrame := f.id + 1 } }

/-- Everything `Dev.executes` asks. -/
def executesB (d : Dev) (p e : Nat) (f : Frame) (w : Nat) : Bool :=
  d.engineFrame p e == some f && d.storeWord p (d.homeOf p e) f.px.half f.px.addr == w && wordParity w && !wordIllegal f w &&
    (!wordSafe f w || (f.err == 0 && !f.px.stop)) && wf w 226 224 == 0 && (wf w 152 152 != 1 || f.px.pend.isNone)

theorem executes_of (d : Dev) (p e : Nat) (f : Frame) (w : Nat) (h : executesB d p e f w = true) : d.executes p e f w := by
  simp only [executesB, Bool.and_eq_true, Bool.or_eq_true, beq_iff_eq, Bool.not_eq_true', bne_iff_ne, Option.isNone_iff_eq_none] at h
  obtain ⟨⟨⟨⟨⟨⟨h1, h2⟩, h3⟩, h4⟩, h5⟩, h6⟩, h7⟩ := h
  refine ⟨h1, h2, h3, h4, fun h => ?_, h6, fun h => ?_⟩
  · rcases h5 with h5 | h5
    · simp [h] at h5
    · exact h5
  · rcases h7 with h7 | h7
    · exact absurd h h7
    · exact h7

/-- A frame of pipeline 3 stands at word 0x3456 of the customer region, which holds `w`. -/
def atWord (w : Nat) (px : Parse) : Dev :=
  let d := run.writeStore 3 1 0x3456 w
  hold1 (engaged { px with addr := 0x3456 } d) d

/-- The word there is executed. -/
def executesAt (w : Nat) (px : Parse) : Bool :=
  let d := atWord w px
  d.hold.live && executesB d 3 127 (engaged { px with addr := 0x3456 } (run.writeStore 3 1 0x3456 w)) w

/-- The word with a next-address operation, a condition (true, or its inversion) and an address. -/
def naWord (op inv addr : Nat) : Nat := microword (op * 2 ^ 248 + addr * 2 ^ 234 + inv * 2 ^ 227)

theorem witness_next_address :
    executesAt (naWord 0 0 0) Parse.zero = true ∧ executesAt (naWord 1 0 0x3FFF) Parse.zero = true ∧
    executesAt (naWord 2 0 0x3FFF) Parse.zero = true ∧ executesAt (naWord 3 0 0x3FFF) Parse.zero = true ∧
    executesAt (naWord 4 0 0x3FFF) { Parse.zero with stack := List.replicate 7 3 } = true ∧
    executesAt (naWord 4 1 0x3FFF) Parse.zero = true ∧ executesAt (naWord 5 0 0) { Parse.zero with stack := [9] } = true ∧
    executesAt (naWord 6 0 0) { Parse.zero with stack := [9] } = true ∧ executesAt (naWord 6 1 0) Parse.zero = true ∧
    executesAt (naWord 7 0 0x3FF0) Parse.zero = true ∧
    (let f := engaged { Parse.zero with addr := 0x3456 } run
     wordCond f (naWord 4 0 0x3FFF) = true ∧ wordCond f (naWord 4 1 0x3FFF) = false ∧ wordCond f (naWord 6 0 0) = true ∧
       wordCond f (naWord 6 1 0) = false) ∧
    (let d := run.writeStore 3 0 7 (naWord 8 0 0)
     let f := engaged { Parse.zero with addr := 7, w := true } d
     executesB (hold1 f d) 3 127 f (naWord 8 0 0) = true ∧ f.px.w = true ∧ f.px.hv ≠ [] ∧
       ((hold1 f d).path.frames.all fun h => decide (h.id = f.id)) = true) := by decide +kernel

theorem witness_datapath :
    (let w := microword (2 * 2 ^ 189 + 2 ^ 178 + 2 ^ 177 + 6 * 2 ^ 171 + 4 * 2 ^ 166 + 7 * 2 ^ 161)
     let d := run.writeStore 3 0 7 w
     let f := engaged { Parse.zero with addr := 7 } d
     executesB (hold1 f d) 3 127 f w = true ∧ wf w 251 248 = 0 ∧ wf w 214 214 = 0 ∧ wf w 147 147 = 0 ∧ wf w 152 152 = 0 ∧
       wf w 192 189 = 2 ∧ wf w 178 178 = 1 ∧ wf w 177 177 = 1 ∧ f.px.addr < 12288 ∧ wf w 176 171 ≠ 2 ∧ f.px.hv.length = 64 ∧
       f.hv (wf w 176 171) < 2 ^ 32) ∧
    ((List.range 11).all fun op => (List.range 4).all fun cur =>
      executesAt (microword (op * 2 ^ 189 + cur * 2 ^ 156)) Parse.zero) = true := by decide +kernel

theorem witness_machine_checks :
    (let w := microword (9 * 2 ^ 224)
     let d := run.writeStore 3 1 0x3456 (microword (4 * 2 ^ 224))
     let f := engaged { Parse.zero with addr := 0x3456 } d
     let u := microword (4 * 2 ^ 224)
     d.hold.live = true ∧ (hold1 f d).engineFrame 3 127 = some f ∧ (hold1 f d).storeWord 3 ((hold1 f d).homeOf 3 127) f.px.half f.px.addr = u ∧
       wordParity u = true ∧ wf u 251 248 = 0 ∧ (f.err = 0 ∧ f.px.stop = false) ∧ wordIllegal f u = true ∧ w ≠ u) ∧
    executesAt (naWord 3 0 0x3FFF) { Parse.zero with stack := List.replicate 8 3 } = true ∧
    executesAt (naWord 5 0 0) Parse.zero = true ∧
    (let u := naWord 0 0 0
     let d := run.writeStore 3 1 0x3456 u
     let f := engaged { Parse.zero with addr := 0x3456, first := true } d
     let g := { f with err := 0x01 }
     let h := engaged { Parse.zero with addr := 0x3456, first := true, stop := true } d
     wordParity u = true ∧ wf u 251 248 = 0 ∧ wordSafe g u = true ∧ g.err ≠ 0 ∧ (hold1 g d).engineFrame 3 127 = some g ∧
       wordSafe h u = true ∧ h.err = 0 ∧ h.px.stop = true ∧ (hold1 h d).engineFrame 3 127 = some h ∧
       (hold1 h d).storeWord 3 ((hold1 h d).homeOf 3 127) h.px.half h.px.addr = u) ∧
    (let d := (served run).writeStore 3 1 0x3456 1
     let f := engaged { Parse.zero with addr := 0x3456 } d
     let g := engaged { Parse.zero with addr := 0x3456, restarted := true } d
     (hold1 f d).storeWord 3 ((hold1 f d).homeOf 3 127) f.px.half f.px.addr = 1 ∧ wordParity 1 = false ∧ f.px.restarted = false ∧
       (hold1 f d).homeOf 3 127 = 15 ∧ (hold1 f d).copyIn 3 0 = true ∧ g.px.restarted = true ∧
       (hold1 g d).engineFrame 3 127 = some g) := by decide +kernel

/-- Frames of one group fill its share of an intake. -/
def intakes (f : Frame) (n : Nat) : List Frame := (List.range n).map fun k => { f with id := k + 1, stage := .intake }

theorem witness_engines :
    (let f := frame run
     let d := hold1 f run
     let e := { run with path := { run.path with frames := f :: intakes f 32 } }
     d.hold.live = true ∧ (d.path.frames.find? fun x => x.port == 255 && x.mac == 2 % 2 && x.stage = .receiving && x.ended) = some f ∧
       (d.path.frames.filter fun x => x.stage = .intake && x.src == f.src).length < 32 ∧
       (e.path.frames.find? fun x => x.port == 255 && x.mac == 2 % 2 && x.stage = .receiving && x.ended) = some f ∧
       32 ≤ (e.path.frames.filter fun x => x.stage = .intake && x.src == f.src).length) ∧
    (let f := { frame run with stage := .intake }
     let d := hold1 f (served run)
     let e := d.wr (Reg.PARS_COPY_STATUS.OUT 3) 0xFFFF
     127 < 128 ∧ d.engineFrame 3 127 = none ∧ d.nextResume 3 = none ∧
       leastBy Frame.ready (d.path.frames.filter fun x => x.pipe == 3 && x.stage = .intake) = some f ∧ d.copiesIn 3 ≠ [] ∧
       e.engineFrame 3 127 = none ∧ e.nextResume 3 = none ∧
       leastBy Frame.ready (e.path.frames.filter fun x => x.pipe == 3 && x.stage = .intake) = some f ∧ e.copiesIn 3 = [] ∧ f.err = 0) ∧
    (let f := { frame run with stage := .parked }
     let d := hold1 f (served run)
     d.engineFrame 3 127 = none ∧ d.nextResume 3 = some f ∧ d.copiesIn 3 ≠ []) ∧
    (let d := ((run.setTabW 0x3030 4095 10 77).setTabW 0x3030 4095 11 0x8F).setTabW 0x3030 4095 5 0xFF |>.setTabW 0x3030 4095 0 0x12
     let f := engaged { Parse.zero with pend := some (0x312, 15) } d
     let g := engaged { Parse.zero with pend := some (0x313, 15) } d
     (hold1 f d).engineFrame 3 127 = some f ∧ f.px.pend = some (0x312, 15) ∧ 4095 < 4096 ∧ tget (hold1 f d).beat.sideBad 0 (4096 * 3 + 4095) = 0 ∧
       (hold1 f d).sideMatch 3 0x312 15 4095 = true ∧ (hold1 g d).engineFrame 3 127 = some g ∧
       (hold1 g d).sideMatch 3 0x313 15 4095 = false ∧ (hold1 g d).sideMatch 3 0x312 14 4095 = false) ∧
    (let f := engaged { Parse.zero with waitAt := some 0 } run
     let d := later (10 ^ 9) (hold1 f run)
     d.engineFrame 3 127 = some f ∧ f.px.waitAt = some 0 ∧ d.rd (Reg.PARS_CFG.HANDOFF_WAIT 3) * 64 ≤ (d.now - 0) * 100) ∧
    (let f := engaged { Parse.zero with cycles := 2 ^ 17 } run
     let d := hold1 f run
     d.engineFrame 3 127 = some f ∧ max 32 (d.rd (Reg.PARS_CFG.MAX_CYCLES 3)) < f.px.cycles) := by decide +kernel

/-- An unlisted entry matches nothing. -/
theorem side_silent (d : Dev) (p key pr i : Nat) (h : d.tabW (sideTid p) i 11 = 0) : d.sideMatch p key pr i = false := by
  simp [Dev.sideMatch, Dev.tabF, h, fget]

theorem witness_control_store :
    (let d := ({ run with beat := { run.beat with outAt := tput run.beat.outAt 0 63 1 } }).setBitOf (Reg.PARS_COPY_STATUS.OUT 3) 15 true
     d.hold.live = true ∧ 3 < 4 ∧ 15 < 16 ∧ d.supRunning = true ∧ d.copyIn 3 15 = false ∧ tget d.beat.outAt 0 (16 * 3 + 15) ≠ 0 ∧
       d.beat.heldOut.contains (16 * 3 + 15) = false) ∧
    (run.hold.live = true ∧ run.supRunning = true ∧ 0x1F ∈ [0x10, 0x11, 0x1F] ∧ (2 ^ 32 - 1).testBit 31 = true) := by decide +kernel

/-! ### Witnesses: lookup -/

/-- A frame of port 3 with a DA and an SA at step 8, in VLAN 5. -/
def lookFrame (da sa : Nat) (d : Dev) : Frame :=
  let hv := (((List.replicate 64 0).set 6 (da / 2 ^ 16)).set 7 (da % 2 ^ 16 * 2 ^ 16 + sa / 2 ^ 32)).set 8 (sa % 2 ^ 32)
  { rxd 3 (whole (be 6 da ++ be 6 sa ++ be 48 0)) d with stage := .lookup, vid := 5, px := { Parse.zero with hv := hv } }

/-- VLAN 5 is FID 9 with the ports of group 0 as members; an unknown address of it goes to ports 2 and 3; FID 9 learns and ages. -/
def vlan5 (d : Dev) : Dev :=
  (((((port 3 d).setTabW 0x4200 5 0 0x80000009).setTabW 0x4200 5 1 0xF).setTabW 0x4201 (4096 + 9) 0 0xC).setTabW 0x4202 9 0 0xC0000003)

/-- The device holds a frame of VLAN 5. -/
def looking (da sa : Nat) (d : Dev) : Dev := hold1 (lookFrame da sa d) d

/-- An entry of FID 9 stands in the first slot for its key. -/
def entry (mac typ rk res : Nat) (d : Dev) : Dev :=
  d.setAslot 0 (4 * d.addrBucket 0 0 9 mac) { AEnt.zero with valid := true, mac := mac, fid := 9, typ := typ, rk := rk, res := res }

/-- A lookup finds nothing, or an entry, as `Dev.finds` has it. -/
def findsB (d : Dev) (fid mac : Nat) (r : Option AEnt) : Bool :=
  ((d.addrSlots 0 fid mac).all fun s => (d.aslot 0 s).bad == 0) &&
    match r with
    | none => (d.addrSlots 0 fid mac).all fun s => !d.amatch 0 fid mac s
    | some x => ((d.addrSlots 0 fid mac).any fun s => d.amatch 0 fid mac s && d.aslot 0 s == x) &&
        (d.addrSlots 0 fid mac).all fun s => !d.amatch 0 fid mac s || d.aslot 0 s == x

theorem finds_of (d : Dev) (fid mac : Nat) (r : Option AEnt) (h : findsB d fid mac r = true) : d.finds 0 fid mac r := by
  unfold findsB at h
  unfold Dev.finds
  cases r with
  | none =>
    simp only [Bool.and_eq_true, List.all_eq_true, beq_iff_eq, Bool.not_eq_true'] at h
    exact ⟨h.1, h.2⟩
  | some x =>
    simp only [Bool.and_eq_true, List.all_eq_true, List.any_eq_true, beq_iff_eq, Bool.or_eq_true, Bool.not_eq_true'] at h
    obtain ⟨h1, ⟨s, hs, h2, h3⟩, h4⟩ := h
    refine ⟨h1, s, hs, h2, h3, fun t ht hm => ?_⟩
    rcases h4 t ht with h5 | h5
    · rw [hm] at h5
      exact absurd h5 (by decide)
    · exact .inl h5

/-- What a frame of VLAN 5 from port 3 has met when its addresses are looked up. -/
def looked (d : Dev) (da sa : Nat) (r t : Option AEnt) : Bool :=
  let f := lookFrame da sa d
  let d := hold1 f d
  d.hold.live && d.frame f.id == some f && f.stage == .lookup && f.da == da && f.sa == sa && f.vid != 0xFFF && d.tabF vlanTid f.vid 0 0 12 == 9 &&
    d.tabF vlanTid f.vid 0 31 1 == 1 && !d.flag (Reg.LKUP_PORT_CFG.INGRESS_FILTER f.pipe (portIdx f.port)) && findsB d 9 da r && findsB d 9 sa t &&
    (List.range 32).all fun r => !d.pairActive r

theorem witness_forwarding :
    (let f := { lookFrame 2 4 run with vid := 0xFFF }
     let d := hold1 f run
     d.hold.live = true ∧ d.frame f.id = some f ∧ f.stage = .lookup ∧ f.vid = 0xFFF) ∧
    (let d := looking 2 4 run; d.tabF vlanTid 5 0 31 1 = 0) ∧
    (let d := (vlan5 run).setTabW 0x4200 5 1 7
     let d := (hold1 (lookFrame 2 4 d) d).setFlag (Reg.LKUP_PORT_CFG.INGRESS_FILTER 0 3) true
     d.tabF vlanTid 5 0 31 1 = 1 ∧ d.flag (Reg.LKUP_PORT_CFG.INGRESS_FILTER 0 (portIdx 3)) = true ∧ (d.vlanMember 5).testBit 3 = false) ∧
    looked (vlan5 run) 2 4 none none = true ∧
    (let x : AEnt := { AEnt.zero with valid := true, mac := 2, fid := 9, typ := 2, rk := 0, res := 0 }
     looked (entry 2 2 0 0 (vlan5 run)) 2 4 (some x) none = true ∧ x.typ = 2) ∧
    (let d := looking 2 4 (vlan5 run)
     d.configured 2 = true ∧ 2 < 259 ∧ (d.portMask (4096 + 9)).testBit 2 = true ∧ (d.vlanMember 5).testBit 2 = true ∧ 2 ≠ 3 ∧
       groupBit 2 = false ∧ reserved8021 2 = false ∧ (tget d.look.rate Bucket.full 0).used ≤ 0 ∧ (tget d.look.learnQ [] 0).length < 1024 ∧
       (((d.setFlag (Reg.LKUP_TBL_CTRL.LEARN_EN 0) true).setFlag (Reg.LKUP_PORT_CFG.LEARN_EN 0 3) true).flag (Reg.LKUP_TBL_CTRL.LEARN_EN 0) &&
         ((d.setFlag (Reg.LKUP_TBL_CTRL.LEARN_EN 0) true).setFlag (Reg.LKUP_PORT_CFG.LEARN_EN 0 3) true).flag (Reg.LKUP_PORT_CFG.LEARN_EN 0 3) &&
         d.tabF fidTid 9 0 31 1 == 1) = true) ∧
    (looked (entry 2 1 0 3 (vlan5 run)) 2 4 (some { AEnt.zero with valid := true, mac := 2, fid := 9, typ := 1, rk := 0, res := 3 }) none = true ∧
      (looking 2 4 (vlan5 run)).flag (Reg.LKUP_PORT_CFG.HAIRPIN 0 3) = false ∧ (looking 2 4 (vlan5 run)).configured 3 = true) := by
  decide +kernel

theorem witness_learning :
    (let ev : LearnEv := ⟨9, 4, 3⟩
     let d := { run with look := { run.look with ring := [(2, ev)], learnQ := [(3, List.replicate 1024 ev)] } }
     d.hold.live = true ∧ d.look.ring = [(2, ev)] ∧ (tget d.look.learnQ [] 0).length < 1024 ∧ 1024 ≤ (tget d.look.learnQ [] 3).length) ∧
    (let d := { run with look := { run.look with learnQ := [(0, [⟨9, 4, 3⟩])] } }
     d.hold.live = true ∧ tget d.look.learnQ [] 0 = [⟨9, 4, 3⟩] ∧ ((d.addrSlots 0 9 4).all fun s => d.aslot 0 s == AEnt.zero) = true ∧
       d.removing 0 3 = false ∧ (d.addrSlots 0 9 4).length = 8 ∧ (d.aslot 0 (4 * d.addrBucket 0 0 9 4)).valid = false) ∧
    (let d := { run with look := { run.look with learnQ := [(0, [⟨9, 4, 3⟩])], removing := [(0, 8)] } }; d.removing 0 3 = true) ∧
    (let d := entry 4 1 0 3 { run with look := { run.look with learnQ := [(0, [⟨9, 4, 3⟩])] } }
     (d.addrSlots 0 9 4).any (fun s => d.aslot 0 s == { AEnt.zero with valid := true, mac := 4, fid := 9, typ := 1, res := 3 } &&
       d.avisible 0 (d.aslot 0 s)) = true) ∧
    (let d := entry 4 0 0 3 { run with look := { run.look with learnQ := [(0, [⟨9, 4, 3⟩])] } }
     let s := 4 * d.addrBucket 0 0 9 4
     d.removing 0 3 = false ∧ s ∈ d.addrSlots 0 9 4 ∧ (d.aslot 0 s).valid = true ∧ (d.aslot 0 s).fid = 9 ∧ (d.aslot 0 s).mac = 4 ∧
       (d.aslot 0 s).typ = 0 ∧ ((d.addrSlots 0 9 4).all fun t => t == s || d.aslot 0 t == AEnt.zero) = true ∧ (d.aslot 0 s).res = 3 ∧
       (d.aslot 0 s).pinned = false ∧ (d.aslot 0 s).moves = 0 ∧ (d.wr (Reg.LKUP_MOVE_CFG.MOVE_LIMIT 0) 2).rd (Reg.LKUP_MOVE_CFG.MOVE_LIMIT 0) = 2 ∧
       (d.wr (Reg.LKUP_MOVE_CFG.MOVE_LIMIT 0) 0).rd (Reg.LKUP_MOVE_CFG.MOVE_LIMIT 0) = 0 ∧
       (entry 4 0 0 2 run).aslot 0 s = { d.aslot 0 s with res := 2 }) := by decide +kernel

theorem witness_sweeps :
    (let d := (entry 4 0 0 3 (vlan5 run)).setFlag (Reg.LKUP_TBL_CTRL.AGE_EN 0) true
     d.hold.live = true ∧ twf (fun _ => AEnt.zero) d.look.slots = true ∧ (d.look.slots.all fun s => s.2.bad == 0) = true ∧
       d.flag (Reg.LKUP_TBL_CTRL.AGE_EN 0) = true ∧ d.tabF fidTid 9 0 30 1 = 1 ∧ 9 < 4096 ∧
       tget (later (10 ^ 12) d).look.aged 0 9 + (d.tabF fidTid 9 0 0 16 * 10 + 2) / 3 * 10 ^ 8 ≤ (later (10 ^ 12) d).now ∧
       ¬(tget d.look.aged 0 9 + (d.tabF fidTid 9 0 0 16 * 10 + 2) / 3 * 10 ^ 8 ≤ d.now) ∧
       tget (later (10 ^ 15) d).look.moved 0 0 + d.rd (Reg.LKUP_MOVE_CFG.MOVE_WINDOW_MS 0) / 100 * 10 ^ 8 ≤ (later (10 ^ 15) d).now) ∧
    (let d := { run with look := { run.look with passing := [(3, 2 ^ 258)], removing := [(3, 2 ^ 258 + 1)] } }
     tget d.look.passing 0 3 = 2 ^ 258 ∧ tget d.look.removing 0 3 = 2 ^ 258 + 1 ∧ 2 ^ 258 ≠ 0) := by decide +kernel

theorem witness_statics :
    (inPhase 5 up).supRunning = false ∧ run.supRunning = true ∧ run.look.refStatic = [] ∧ run.look.slots = [] ∧
    (let l := [(4095 * 2 ^ 48 + 4, 1 + 8 * 258)]
     let x := [(2 ^ 21 * 3 + 4 * run.addrBucket 3 0 4095 4, 0)]
     let d := { run with look := { run.look with refStatic := l, failed := x } }
     d.look.refStatic = [(4095 * 2 ^ 48 + 4, 1 + 4 * 0 + 8 * 258)] ∧ 4 * run.addrBucket 3 0 4095 4 ∈ d.addrSlots 3 4095 4 ∧
       d.staticSlots 3 4095 4 = [] ∧ (d.aslot 3 (4 * d.addrBucket 3 0 4095 4)).valid = false ∧ 4 * run.addrBucket 3 0 4095 4 < 2 ^ 21) := by
  decide +kernel

/-! ### Witnesses: streams -/

/-- A frame of 64 bytes from port 255 at a stage, with a handle. -/
def streamFrame (st : Stage) (h : Option Nat) (d : Dev) : Frame := { rxd 255 (whole (le 60 7)) d with stage := st, handle := h }

/-- The frame at step 5 where identification is enabled. -/
def identifying : Dev := (hold1 (streamFrame .identify none run) run).setFlag (Reg.STRM_CFG.ID_EN 3) true

/-- The keys of its probes in methods 2 and 0, VID 1. -/
def key2 : List Byte := 2 :: 0 :: 0 :: 0 :: 1 :: List.replicate 59 0

def key0 : List Byte := 0 :: 0 :: 0 :: 0 :: 1 :: List.replicate 59 0

/-- An entry of handle 77 for the second key, at port 255 alone. -/
def entry77 : KEnt := { bytes := patch (patch key0 2 (le 2 77)) 8 (le 2 255), new := false, old := false }

/-- The same device with that entry. -/
def identifies : Dev := { identifying with strm := { run.strm with ids := [(2 ^ 16 * 3 + 50392, entry77)] } }

theorem witness_probe_keys :
    identifies.probeKey 3 (streamFrame .identify none run) 1 2 0 = key2 ∧ identifies.probeKey 3 (streamFrame .identify none run) 1 0 0 = key0 ∧
    identifies.ingressVid (streamFrame .identify none run) = 1 := by decide +kernel

/-- Groups of eight zero bytes. -/
def zeros : Nat → List Byte
  | 0 => []
  | n + 1 => List.replicate 8 0 ++ zeros n

theorem crc_append (s t v : Nat) (a b : List Byte) (h : crc32 s a = t) (k : crc32 t b = v) : crc32 s (a ++ b) = v := by
  rw [← k, ← h]
  simp [crc32, List.foldl_append]

theorem crc_key0 : crc32 0 key0 = 461469851 := by
  have h0 : crc32 461469851 (zeros 0) = 461469851 := rfl
  have h1 : crc32 2539644177 (zeros 1) = 461469851 := crc_append _ 461469851 _ _ _ (by decide +kernel) h0
  have h2 : crc32 3122564211 (zeros 2) = 461469851 := crc_append _ 2539644177 _ _ _ (by decide +kernel) h1
  have h3 : crc32 668005350 (zeros 3) = 461469851 := crc_append _ 3122564211 _ _ _ (by decide +kernel) h2
  have h4 : crc32 24215387 (zeros 4) = 461469851 := crc_append _ 668005350 _ _ _ (by decide +kernel) h3
  have h5 : crc32 872583126 (zeros 5) = 461469851 := crc_append _ 24215387 _ _ _ (by decide +kernel) h4
  have h6 : crc32 133620486 (zeros 6) = 461469851 := crc_append _ 872583126 _ _ _ (by decide +kernel) h5
  have h7 : crc32 3698170551 (zeros 7) = 461469851 := crc_append _ 133620486 _ _ _ (by decide +kernel) h6
  have h : key0 = (0 :: 0 :: 0 :: 0 :: 1 :: List.replicate 3 0) ++ zeros 7 := rfl
  rw [h]
  exact crc_append _ 3698170551 _ _ _ (by decide +kernel) h7

theorem crc_key2 : crc32 0 key2 = 4141501619 := by
  have h0 : crc32 4141501619 (zeros 0) = 4141501619 := rfl
  have h1 : crc32 3026772993 (zeros 1) = 4141501619 := crc_append _ 4141501619 _ _ _ (by decide +kernel) h0
  have h2 : crc32 685690181 (zeros 2) = 4141501619 := crc_append _ 3026772993 _ _ _ (by decide +kernel) h1
  have h3 : crc32 2031127872 (zeros 3) = 4141501619 := crc_append _ 685690181 _ _ _ (by decide +kernel) h2
  have h4 : crc32 615307765 (zeros 4) = 4141501619 := crc_append _ 2031127872 _ _ _ (by decide +kernel) h3
  have h5 : crc32 2573055154 (zeros 5) = 4141501619 := crc_append _ 615307765 _ _ _ (by decide +kernel) h4
  have h6 : crc32 1486462322 (zeros 6) = 4141501619 := crc_append _ 2573055154 _ _ _ (by decide +kernel) h5
  have h7 : crc32 1798185763 (zeros 7) = 4141501619 := crc_append _ 1486462322 _ _ _ (by decide +kernel) h6
  have h : key2 = (2 :: 0 :: 0 :: 0 :: 1 :: List.replicate 3 0) ++ zeros 7 := rfl
  rw [h]
  exact crc_append _ 1798185763 _ _ _ (by decide +kernel) h7

theorem seed_zero : identifies.rd (Reg.STRM_ID_SEED.SEED 3) = 0 := by decide +kernel

theorem bucket_of_seed (d : Dev) (p c : Nat) (key : List Byte) (h : d.rd (Reg.STRM_ID_SEED.SEED p) = 0) (k : crc32 0 key = c) :
    d.idBucket p key = bucketSlots (8 * (c % 2 ^ 13)) := by
  rw [Dev.idBucket, bucketOf, h, k]

theorem witness_buckets : identifies.idBucket 3 key0 = (List.range 8).map (50392 + ·) ∧
    identifies.idBucket 3 key2 = (List.range 8).map (26008 + ·) :=
  ⟨bucket_of_seed _ _ _ _ seed_zero crc_key0, bucket_of_seed _ _ _ _ seed_zero crc_key2⟩

theorem witness_identification :
    (let f := streamFrame .identify none run
     let d := hold1 f run
     d.hold.live = true ∧ d.frame f.id = some f ∧ f.stage = .identify ∧ d.ptpTakes f = none ∧ d.flag (Reg.STRM_CFG.ID_EN f.pipe) = false) ∧
    (let f := streamFrame .identify none run
     let d := identifies
     d.frame f.id = some f ∧ d.ptpTakes f = none ∧ d.flag (Reg.STRM_CFG.ID_EN f.pipe) = true ∧ d.probes f = [(2, 0)] ++ (0, 0) :: [(1, 0)] ∧
       50392 ∈ (List.range 8).map (50392 + ·) ∧ d.idEnt 3 50392 = entry77 ∧ idKey entry77.bytes = key0 ∧ entry77.bytes.isEmpty = false ∧
       idField entry77.bytes 8 2 = f.port ∧ idField entry77.bytes 6 1 = 0 ∧ idField entry77.bytes 2 2 = 77 ∧
       ((List.range 8).all fun t => (d.idEnt 3 (26008 + t)).bytes.isEmpty && (t == 0 || (d.idEnt 3 (50392 + t)).bytes.isEmpty)) = true) := by
  decide +kernel

/-- Word 0 of the context of handle 1029 of pipeline 3, and the frame at its filter. -/
def filtering (w0 : Nat) (ended : Bool) (d : Dev) : Dev :=
  hold1 { streamFrame .filter (some 1029) d with ended := ended } (d.setTabW 0x5031 1029 0 (BitVec.ofNat 32 w0))

/-- An open or closed entry of the gate list, with an octet limit. -/
def gated (w1 : Nat) (d : Dev) : Dev :=
  ((d.setTabW 0x5032 8 0 100).setTabW 0x5032 8 1 (BitVec.ofNat 32 w1)).setSgate 1029 { SGate.zero with oper := some ⟨0, 1000, 8, 1, 0, 0⟩ }

theorem witness_filter :
    (let d := filtering 0x80000010 false run
     let f := { streamFrame .filter (some 1029) run with ended := false }
     d.hold.live = true ∧ d.frame f.id = some f ∧ f.stage = .filter ∧ d.needsLen f = true ∧ f.ended = false) ∧
    (let d := filtering 0 true run
     let f := streamFrame .filter (some 1029) run
     d.frame f.id = some f ∧ d.needsLen f = false ∧ f.handle = some 1029 ∧ d.sctx f.pipe 1029 0 31 1 = 0) ∧
    (let d := filtering 0x90000010 true run
     let f := streamFrame .filter (some 1029) run
     d.frame f.id = some f ∧ f.ended = true ∧ d.sctx f.pipe 1029 0 31 1 = 1 ∧ d.sctx f.pipe 1029 0 0 14 = 16 ∧
       tget d.strm.blocked 0 1029 = 0 ∧ 16 < f.len - 18 - 4 * 0 ∧ f.flagBit 1 = false ∧ f.flagBit 2 = false ∧ d.sctx f.pipe 1029 0 28 1 = 1 ∧
       tget ({ d with strm := { d.strm with blocked := [(1029, 1)] } }).strm.blocked 0 1029 = 1 ∧
       tget ({ d with strm := { d.strm with blocked := [(1029, 2)] } }).strm.blocked 0 1029 = 2) ∧
    (let f := streamFrame .filter (some 1029) run
     let d := filtering 0xC8000000 true (gated 0 run)
     let e := filtering 0xC0000000 true (gated 0xE8000040 run)
     d.frame f.id = some f ∧ d.sctx 3 1029 0 0 14 = 0 ∧ d.sctx 3 1029 0 30 1 = 1 ∧ d.sctx 3 1029 0 29 1 = 0 ∧
       d.gateState f.pipe 1029 (d.gateTime f 1029) = (false, none, 0, 0) ∧ d.sctx 3 1029 0 27 1 = 1 ∧
       e.frame f.id = some f ∧ e.gateState f.pipe 1029 (e.gateTime f 1029) = (true, some 5, 64, 0) ∧ (e.sgate 1029).start = 0 ∧
       (e.sgate 1029).octets + f.len ≤ 64 ∧
       (let g := e.setSgate 1029 { e.sgate 1029 with octets := 1 }; 64 < (g.sgate 1029).octets + f.len)) ∧
    (let f := streamFrame .filter (some 1029) run
     let d := filtering 0xA0000000 true run
     let g := d.setTabW 0x5031 1029 4 64
     let y := d.setTabW 0x5031 1029 5 64
     d.frame f.id = some f ∧ d.sctx 3 1029 0 0 14 = 0 ∧ d.sctx 3 1029 0 30 1 = 0 ∧ d.sctx 3 1029 0 29 1 = 1 ∧ d.inColour f 1029 = 0 ∧
       f.len + d.sctx 3 1029 1 0 6 ≤ g.sctx 3 1029 4 0 24 ∧ ¬(f.len + y.sctx 3 1029 1 0 6 ≤ y.sctx 3 1029 4 0 24) ∧
       f.len + y.sctx 3 1029 1 0 6 ≤ y.sctx 3 1029 5 0 24 ∧ ¬(f.len + d.sctx 3 1029 1 0 6 ≤ d.sctx 3 1029 5 0 24)) := by decide +kernel

theorem witness_policers :
    (let f := streamFrame .police none run
     let g := { f with id := 9, ready := 1 }
     let d := { run with path := { run.path with frames := [f, g] } }
     let e := d.setFlag (Reg.STRM_POL_CFG.EN 3 63 0) true
     d.hold.live = true ∧ d.frame 9 = some g ∧ g.stage = .police ∧ d.policeWaits g = true ∧ d.frame f.id = some f ∧
       d.policeWaits f = false ∧ d.polOn 255 0 = false ∧ e.polOn 255 0 = true ∧ e.policeWaits f = false ∧
       e.rd (Reg.STRM_POL_CFG.BURST 3 63 0) < f.len ∧
       f.len ≤ (e.wr (Reg.STRM_POL_CFG.BURST 3 63 0) 64).rd (Reg.STRM_POL_CFG.BURST 3 63 0)) ∧
    (let s : Sched := ⟨0, 1000, 8, 1, 0, 0⟩
     let t := { s with due := 1 }
     let d := run.setSgate 1029 { SGate.zero with pend := some s }
     let e := run.setSgate 1029 { SGate.zero with pend := some t }
     (d.sgate 1029).pend = some s ∧ s.due ≤ d.presNs s.tb ∧ (e.sgate 1029).pend = some t ∧ e.presNs t.tb < t.due) ∧
    (let d := (later 0 (gated 0 run)).setBitOf (Reg.STRM_BLOCKS_LO.OWN 3) 1 true
     let e := { d with time := { d.time with tb := d.time.tb.map fun (b : TbSt) => { b with own := 5 * 10 ^ 9 * nsUnit } } }
     (d.sgate 1029).oper = some ⟨0, 1000, 8, 1, 0, 0⟩ ∧ d.handleOwner 1029 = some 3 ∧
       d.sgateEntry 3 ⟨0, 1000, 8, 1, 0, 0⟩ (d.presNs 0) = some (0, 0) ∧ 0 ≤ (d.sgate 1029).start ∧
       e.sgateEntry 3 ⟨0, 1000, 8, 1, 0, 0⟩ (e.presNs 0) = some (0, 5 * 10 ^ 9) ∧ (e.sgate 1029).start < 5 * 10 ^ 9) := by decide +kernel

/-! ### Witnesses: stream gates over cycles, redundancy -/

theorem witness_octets_restart :
    (let s : Sched := ⟨5, 1000, 8, 1, 0, 0⟩
     let d := (run.setSgate 1029 { SGate.zero with oper := some s }).setBitOf (Reg.STRM_BLOCKS_LO.OWN 3) 1 true
     let d := { d with time := { d.time with tb := d.time.tb.map fun (b : TbSt) => { b with own := 5 * 10 ^ 9 * nsUnit } } }
     let t := d.presNs s.tb
     d.hold.live = true ∧ (d.sgate 1029).oper = some s ∧ d.handleOwner 1029 = some 3 ∧ s.cycle ≠ 0 ∧ s.len ≠ 0 ∧
       ((t : Int) - s.base) % (s.cycle : Int) ≤ t ∧ ((d.sgate 1029).start : Int) < t - ((t : Int) - s.base) % (s.cycle : Int)) := by
  decide +kernel

/-- A request for node 9 of pair 31, seen with sequence 65535. -/
def nodeReq (proxy : Bool) : NodeReq := ⟨31, 9, 3, 65535, proxy⟩

/-- The request waits, the pair's ranges being `w2` and `w3`. -/
def noding (proxy : Bool) (w0 w2 w3 : BitVec 32) : Dev :=
  let d := ((run.setTabW pairTid 31 0 w0).setTabW pairTid 31 2 w2).setTabW pairTid 31 3 w3
  { d with red := { d.red with reqs := [nodeReq proxy] } }

/-- A node of another address. -/
def other : Node := { Node.zero with valid := true, mac := 1, pair := 31 }

theorem witness_nodes :
    (let d := noding false 0 0 0
     let s := d.nodeBucket 31 9 + 7
     let d := d.setNode s { other with mac := 9 }
     d.hold.live = true ∧ d.red.reqs = [nodeReq false] ∧ s ∈ bucketSlots (d.nodeBucket 31 9) ∧ (d.node s).valid = true ∧ (d.node s).pair = 31 ∧
       (d.node s).mac = 9 ∧ ((bucketSlots (d.nodeBucket 31 9)).all fun t => t == s || !(d.node t).valid) = true) ∧
    (let d := noding false 0 0 0
     let d := (bucketSlots (d.nodeBucket 31 9)).foldl (fun d s => d.setNode s other) d
     ((bucketSlots (d.nodeBucket 31 9)).all fun t => (d.node t).valid && (d.node t).mac != 9) = true) ∧
    (let d := noding true 0 0 0
     d.red.reqs = [nodeReq true] ∧ (nodeReq true).proxy = true ∧ ((bucketSlots (d.nodeBucket 31 9)).all fun t => d.node t == Node.zero) = true) ∧
    (let d := (noding false 0 0x00050005 0).setRcv 5 { Rcv.zero with alloc := some (0, 0, none) }
     d.pairCtx 31 = (5, 5) ∧ (d.rcv 5).alloc ≠ none ∧ ((bucketSlots (d.nodeBucket 31 9)).all fun t => d.node t == Node.zero) = true) ∧
    (let d := (noding false 0 0x00060005 0).setRcv 5 { Rcv.zero with alloc := some (0, 0, none) }
     d.pairCtx 31 = (5, 6) ∧ (d.rcv 6).alloc = none ∧ (d.rcv 5).alloc ≠ none ∧ d.pairHsr 31 = false) ∧
    (let d := noding false 1 0x00060006 0x00080007
     d.pairHsr 31 = true ∧ d.pairCtx 31 = (6, 6) ∧ d.pairRing 31 = (7, 8) ∧ (d.rcv 6).alloc = none ∧ (d.rcv 7).alloc = none ∧ 7 ≠ 6) := by
  decide +kernel

theorem witness_redundancy_sweeps :
    (run.hold.live = true ∧ run.now < run.red.nodeSweep + 10 ^ 9 ∧ run.now < run.red.ctxSweep + 10 ^ 9) ∧
    (let d := later (10 ^ 9) (run.setNode 65535 { other with age := 65535 })
     let e := d.wr Reg.STRM_RN_CFG.FORGET_S 60
     twf (fun _ => Node.zero) e.red.nodes = true ∧ e.red.nodeSweep + 10 ^ 9 ≤ e.now ∧ e.node 65535 ≠ Node.zero ∧ (e.node 65535).proxy = false ∧
       e.rd Reg.STRM_RN_CFG.FORGET_S < min 65535 ((e.node 65535).age + 1)) ∧
    (let d := later (10 ^ 9) (run.setRcv 65535 { Rcv.zero with alloc := some (3, 5, none) })
     twf (fun _ => Rcv.zero) d.red.ctxs = true ∧ d.red.ctxSweep + 10 ^ 9 ≤ d.now ∧ d.rcvCfg ((d.rcOwner 65535).getD 0) 65535 = some (3, 5, none) ∧
       (5 : Int) < diff16 (d.now / 10 ^ 6 % 65536) (d.rcv 65535).last ∧ d.rcvCfg ((d.rcOwner 4).getD 0) 4 = none) ∧
    (let d := ((run.setTabW pairTid 31 0 2).setTabW pairTid 31 1 1).setFlag (Reg.STRM_RN_PAIR_STATUS.ACTIVE 31) true
     d.hold.live = true ∧ d.pairActive 31 = true ∧ d.pairSupEn 31 = true ∧ tget d.red.supAt 0 (31 * 2 ^ 17 + 65536) = 0 ∧
       d.findNode 31 (d.pairMac 31) = none) := by decide +kernel

/-! ### Witnesses: the Deckle -/

/-- A frame of port 255 with a trailer of format 2: HMAC, slot 511, sender 7, SEQ `seq`, one nanosecond of base 7. The parser's
fields of it stand in the header vector. Its tag is HMAC-SHA256 of its first 88 bytes under the key of 32 bytes that begins with 9. -/
def sealed (seq : Nat) (d : Dev) : Frame :=
  let tag := be 32 0xc410930f79f851634298517a2984d84526bf29d161c051b2f16f4dc8d3074a63
  let hv := ((((List.replicate 64 0).set 0 (2 ^ 11 + 1)).set 27 (60 + 62 * 2 ^ 16 + 2 * 2 ^ 24 + 3 * 2 ^ 28)).set 28 (511 * 2 ^ 16 + 7)).set 30 seq
  let hv := ((hv.set 32 (7 * 2 ^ 8)).set 33 1).set 34 (2 ^ 32 - 1)
  { rxd 255 (le 60 7 ++ le 28 0 ++ tag ++ le 6 0) d with stage := .command, px := { Parse.zero with hv := hv } }

/-- Key slot 511 holds that key, accepts the format and the time base, whose window is 1 µs; port 255 may send commands only sealed. -/
def keyed (d : Dev) : Dev :=
  let d := ((d.writeKey 511 2 (le 32 9)).setFlag (Reg.SEAL_SLOT_POLICY.V2_OK 511) true).setFlag (Reg.SEAL_SLOT_POLICY.FULL_OK 511) true
  let d := (d.setBitOf (Reg.SEAL_SLOT_POLICY.TB_MASK 511) 7 true).wr (Reg.SEAL_SLOT_WINDOW.WINDOW_US 511) 1
  (d.setFlag (Reg.TIME_TB_STATUS.SYNC 7) true).setBitOf (Reg.SEAL_INGRESS.PORTS 7) 31 true

/-- The context of (511, 7) stands in the first slot of its bucket. -/
def context (c : SCtx) (d : Dev) : Dev := d.setSctx (d.ctxBucket (511 * 2 ^ 16 + 7)) c

/-- A context of (511, 7) that has seen `h`, or nothing yet. -/
def seen (h : Option Nat) : SCtx :=
  { SCtx.zero with valid := true, key := 511 * 2 ^ 16 + 7, empty := h.isNone, high := h.getD 0, window := if h.isSome then 1 else 0 }

/-- Cluster 3 is in service and one stack of the HBM is up. -/
def clustered (d : Dev) : Dev := (d.setFlag (Reg.SEAL_CLU_STATUS.IN_SERVICE 3) true).setFlag (Reg.BUFF_HBM_STATUS.TRAINED 0) true

/-- What a frame has passed when its context is looked up. -/
def screened (f : Frame) (d : Dev) : Bool :=
  d.hold.live && d.frame f.id == some f && f.stage == .command && f.sealFound && f.ended && d.commandFlagged f && d.mustVerify f &&
    f.fieldsOk && d.slotAccepts f

theorem witness_command_flag :
    (let f := { sealed 5 run with px := Parse.zero }
     let d := hold1 f run
     d.hold.live = true ∧ d.frame f.id = some f ∧ f.stage = .command ∧ f.sealFound = false ∧ d.commandFlagged f = false) ∧
    (let f := { sealed 5 run with px := { Parse.zero with hv := [1] } }
     let d := hold1 f (keyed run)
     d.frame f.id = some f ∧ d.commandFlagged f = true ∧ d.mustVerify f = true ∧ f.sealFound = false ∧ run.mustVerify f = false) := by
  decide +kernel

theorem witness_screen :
    (let f := sealed 5 run
     let d := hold1 f ((keyed run).setFlag (Reg.SEAL_SLOT_POLICY.FULL_OK 511) false)
     d.commandFlagged f = true ∧ d.mustVerify f = true ∧ f.sealFound = true ∧ f.ended = true ∧ d.slotAccepts f = false) ∧
    (let f := sealed 5 (keyed run); screened f (hold1 f (keyed run)) = true ∧ (hold1 f (keyed run)).findCtx f.ctxKey = none) ∧
    (let f := sealed 5 (keyed run)
     let d := hold1 f (context (seen (some 5)) (keyed run))
     let e := hold1 f (context (seen none) (keyed run))
     let s := d.ctxBucket f.ctxKey
     screened f d = true ∧ screened f e = true ∧ d.findCtx f.ctxKey = some s ∧ e.findCtx f.ctxKey = some s ∧ d.sealTb f = 7 ∧
       d.tbSync 7 = true ∧ d.rd (Reg.SEAL_SLOT_WINDOW.WINDOW_US f.keySlot) * 1000 = 1000 ∧ f.sealTime = 1 ∧
       tNsTotal (d.translate f.ts f.tsTb 7) = 0 ∧ tget d.time.startMark 0 7 < f.sealTime ∧
       (let g := { d with time := { d.time with startMark := [(7, 1)] } }; f.sealTime ≤ tget g.time.startMark 0 7) ∧
       (let g := d.setFlag (Reg.TIME_TB_STATUS.SYNC 7) false
        g.tbSync 7 = false ∧ g.flag (Reg.SEAL_SLOT_POLICY.ACCEPT_UNSYNC f.keySlot) = false ∧
          (g.setFlag (Reg.SEAL_SLOT_POLICY.ACCEPT_UNSYNC 511) true).flag (Reg.SEAL_SLOT_POLICY.ACCEPT_UNSYNC f.keySlot) = true) ∧
       d.dests f = [] ∧ f.port = 255 ∧ (f.len + 2047) / 2048 = 1 ∧
       ((seen (some 5)).window.testBit (5 - f.sealSeq) = true ∧ f.sealSeq = 5 ∧ (seen none).minSeq ≤ f.sealSeq)) := by decide +kernel

theorem witness_staging :
    (let f := sealed 5 (keyed run)
     let e := hold1 f (context (seen none) (keyed run))
     let d := clustered e
     d.findCtx f.ctxKey = some (d.ctxBucket f.ctxKey) ∧ d.sctxAt (d.ctxBucket f.ctxKey) = seen none ∧ screened f d = true ∧
       (d.wr (Reg.SEAL_Q_BLOCKS.MAX 255) 0).rd (Reg.SEAL_Q_BLOCKS.MAX 255) < d.qUsed 255 + 1 ∧
       (d.wr (Reg.SEAL_Q_BLOCKS.MAX 255) 1).rd (Reg.SEAL_Q_BLOCKS.MAX 255) = d.qUsed 255 + 1 ∧ d.needShared 255 1 ≤ d.sharedFree ∧
       d.clusterUp 3 = true ∧ d.hbmUp 0 = true ∧ (d.vat.sealP.takeN 16384 1).isSome = true ∧
       ((List.range 4).all fun k => !e.clusterUp k) = true) := by decide +kernel

/-- The frame is staged with a place in the order of step 9. -/
def staged (n o : Nat) (st : Stage) (seq : Nat) (d : Dev) : Frame :=
  { sealed seq d with id := n, stage := st, cmd := true, slot := 511, sealCtx := 511 * 2 ^ 16 + 7, sealQ := 255, order9 := o, blocks := [8] }

/-- The device holds two frames. -/
def hold2 (f g : Frame) (d : Dev) : Dev := { d with path := { d.path with frames := [f, g], nextFrame := 9 } }

theorem witness_engine_grant :
    (let d := clustered run
     d.hold.live = true ∧ 15 < 16 ∧ d.clusterUp (engineCluster false 15) = true ∧ d.engineHolds false 15 = none ∧ d.path.frames = []) ∧
    (let f := staged 1 4 .staged 5 run
     let g := staged 2 3 .staged 6 run
     let d := clustered (hold2 f g run)
     tget d.deck.lastQ 0 (kindKey false) = 0 ∧ 255 < 259 ∧ g ∈ d.waitingIn false 255 ∧ d.waitingIn false 255 = [f, g] ∧
       g.order9 < f.order9 ∧ ((List.range 255).all fun k => (d.waitingIn false k).isEmpty) = true ∧ d.qRes false 255 ≤ d.qGrants false 255 ∧
       (let e := d.wr (Reg.SEAL_Q_RES.RES_HM 255) 1; e.qGrants false 255 < e.qRes false 255)) := by decide +kernel

theorem witness_verification :
    (let f := staged 1 4 (.verifying false 15) 5 run
     let d := context (seen none) (hold1 f (keyed run))
     let held := d.keyOf 511
     let e := { d with deck := { d.deck with held := [(64 + 15, held)] } }
     d.hold.live = true ∧ d.engineHolds false 15 = some f ∧ f.tagOk (tget d.deck.held [] (64 * kindKey false + 15)) = false ∧
       e.engineHolds false 15 = some f ∧ f.tagOk (tget e.deck.held [] (64 * kindKey false + 15)) = true ∧
       (hold1 f (keyed run)).findCtx f.sealCtx = none ∧ e.findCtx f.sealCtx = some (e.ctxBucket f.sealCtx) ∧
       (e.sctxAt (e.ctxBucket f.sealCtx)).empty = true ∧ f.sealSeq = 5 ∧
       (context (seen (some 4)) e).findCtx f.sealCtx = some (e.ctxBucket f.sealCtx) ∧
       (context (seen (some 5)) e).findCtx f.sealCtx = some (e.ctxBucket f.sealCtx) ∧ (seen (some 5)).window.testBit 0 = true) := by
  decide +kernel

theorem witness_seal_release :
    (let f := staged 1 4 .verified 6 run
     let g := staged 2 3 .staged 5 run
     let d := hold2 f g run
     let e := hold1 f run
     d.hold.live = true ∧ d.frame 1 = some f ∧ f.stage = .verified ∧ g ∈ d.path.frames ∧ g.inDeckle = true ∧ g.sealCtx = f.sealCtx ∧
       g.order9 < f.order9 ∧ e.frame 1 = some f ∧ (e.path.frames.all fun x => decide (f.order9 ≤ x.order9)) = true ∧
       e.bank f.pipe = Bank.zero ∧ f.ended = true ∧ f.err = 0 ∧ cellsOf f.len ≤ maxCells ∧
       (let x := e.setBank f.pipe { Bank.zero with rebuild := (List.range 32).map fun s => (s, 1) }
        (x.bank f.pipe).allocable < cellsOf f.len)) := by decide +kernel

theorem witness_clusters :
    (let d := { run with deck := { run.deck with supp := [(258, 3)] } }
     let e := { d with deck := { d.deck with summAt := [(258, 1)] } }
     d.hold.live = true ∧ tget d.deck.supp 0 258 = 3 ∧ tget d.deck.summAt 0 258 = 0 ∧ tget e.deck.summAt 0 258 ≠ 0 ∧
       e.now + 1 < tget e.deck.summAt 0 258 + 10 ^ 9) ∧
    (let d := (clustered run).setFlag (Reg.SEAL_CLU_STATUS.IN_SERVICE 0) true
     3 < 4 ∧ d.clusterUp 3 = true ∧ d.clusterUp 0 = true) ∧
    (let d := { run with deck := { run.deck with faultAt := [(3, 1)] } }
     let h : TokHold := ⟨83, 0, [], 0, none, none⟩
     let e := ({ d with power := { d.power with holds := [h] } }).wr (Reg.PWCK_DOM_STATUS.STATE 83) 2
     up.supRunning = false ∧ d.supRunning = true ∧ tget d.deck.faultAt 0 3 = 1 ∧ d.hold_ (80 + 3) = none ∧ d.power.waiting = [] ∧
       tget e.deck.faultAt 0 3 = 1 ∧ e.holdsTokens (80 + 3) = true ∧ e.rd (Reg.PWCK_DOM_STATUS.STATE (80 + 3)) = 2) := by decide +kernel

/-! ### Witnesses: cells, Vats and admission -/

/-- Port 3's frame at admission toward port 2, in one cell. -/
def admitting (cls set : Nat) (d : Dev) : Frame :=
  { rxd 3 (whole (le 60 7)) d with stage := .admission, set := set, cls := cls, cells := [5] }

/-- Ports 2 and 3 run, and every pair may hold nine cells. -/
def pair23 (d : Dev) : Dev :=
  let d := (port 2 (port 3 d)).wr (Reg.BUFF_ILIM.CELLS 0 3 7) 9
  (d.setTabW 0x7001 23 0 9).setTabW 0x7001 31 0 9

theorem witness_cells :
    (let d := port 3 run
     let b := be 6 9 ++ be 6 2 ++ List.replicate 212 (0 : Byte)
     d.hold.live = true ∧ d.path.frames = [] ∧ d.receives 3 = true ∧ 1 < 2 ∧ d.openRx 3 1 = none ∧ b ≠ [] ∧ isControl b = false ∧
       b.length ≤ 12288 ∧ b.length ≤ d.maxFrame 3 ∧ d.bank (pipeOf 3) = Bank.zero) := by decide +kernel

theorem witness_admission :
    (let f := admitting 7 4 run
     let d := hold1 f (pair23 run)
     d.frame f.id = some f ∧ f.stage = .admission ∧ d.wants f = [(2, 7, none)] ∧ d.quarantined 2 = false ∧ d.adminUp 2 = true ∧
       d.copyRefused f 2 = none ∧ d.ic 3 7 + cellsOf f.len ≤ d.ingressLim f ∧ d.ec 0 2 7 + cellsOf f.len ≤ d.egressLim f 2 7 ∧
       d.deepClass 7 = false ∧ f.cls < 8) ∧
    (let f := admitting 7 4 run
     let d := hold1 f (pair23 run)
     d.ingressLim f < 9 + 1 ∧ ({ d with vat := { d.vat with ic := [(31, 9)] } }).ic 3 7 = 9) ∧
    (let f := { admitting 7 12 run with port := 258 }
     let d := hold1 f ((pair23 run).wr (Reg.BUFF_ILIM.CELLS 0 66 7) 1)
     d.wants f = [(2, 7, none), (3, 7, none)] ∧ d.copyRefused f 2 = none ∧ d.copyRefused f 3 = none ∧ d.ic 258 7 + 1 ≤ d.ingressLim f ∧
       d.ec f.pipe 2 7 + 1 ≤ d.egressLim f 2 7 ∧ d.ec f.pipe 3 7 + 1 ≤ d.egressLim f 3 7 ∧ d.deepClass 7 = false ∧ cellsOf f.len = 1) ∧
    (let f := { admitting 7 4 run with cmd := true }
     let d := hold1 f ((pair23 run).setFlag (Reg.PORT_STATUS.HOLD 2) true)
     d.wants f = [(2, 7, none)] ∧ d.quarantined 2 = false ∧ d.adminUp 2 = true ∧ f.cmd = true ∧ 2 ≠ 258 ∧
       d.flag (Reg.PORT_STATUS.HOLD 2) = true) ∧
    (let f := admitting 7 4 run
     let d := hold1 f (cage 9 8 ((pair23 run).wr (Reg.MODL_CAGE_CFG.WIDTH 9) 2))
     d.wants f = [(2, 7, none)] ∧ d.quarantined 2 = true) := by decide +kernel

/-- A copy of a frame toward port 2 in class 7. -/
def copyOf (f : Frame) : Copy := { Copy.mk0 4 f 2 7 with out := true }

/-- The device holds a frame and one copy of it. -/
def holdCopy (f : Frame) (c : Copy) (d : Dev) : Dev :=
  { d with path := { d.path with frames := [f], copies := [c], nextFrame := 9, nextCopy := 9 } }

theorem witness_release_of_a_copy :
    (let f := { admitting 7 4 run with stage := .linked, pend := false }
     let c := copyOf f
     let d := holdCopy f c run
     let l (n : Nat) (free : Bool) : Dev := d.setBank 0 ((d.bank 0).setLink 5 ⟨0, n, free, true⟩)
     d.hold.live = true ∧ d.copy 4 = some c ∧ c.out = true ∧ c.read = false ∧ d.frame c.frame = some f ∧ f.cells = [5] ∧ 5 < bankCells ∧
       (((l 2 false).bank f.pipe).link 5).ref = 2 ∧ (((l 1 false).bank f.pipe).link 5).ref = 1 ∧ (((l 1 false).bank f.pipe).link 5).free = false ∧
       (((l 0 true).bank f.pipe).link 5).ref = 0 ∧ (((l 0 true).bank f.pipe).link 5).free = true) := by decide +kernel

theorem witness_banks :
    (let d := run.setBank 3 { Bank.zero with rebuild := [(31, 1)] }
     d.hold.live = true ∧ 3 < 4 ∧ bankCells - 1 < bankCells ∧ ((run.bank 3).link (bankCells - 1)).free = true ∧
       tget (run.bank 3).rebuild 0 ((bankCells - 1) % 32) = 0 ∧
       (((run.setBank 3 ((run.bank 3).setLink 5 ⟨0, 1, false, true⟩)).bank 3).link 5).free = false ∧
       tget (d.bank 3).rebuild 0 31 ≠ 0 ∧ twf (fun _ => Link.zero) (d.bank 3).links = true) ∧
    (let d := run.setFlag (Reg.BUFF_HBM_STATUS.TRAINED 1) true
     let e := { d with vat := { d.vat with sealP := { Priv.zero with cache := List.replicate 64 8 } } }
     64 ≤ e.vat.sealP.cache.length ∧ d.vat.sealP.cache.length < 64 ∧ d.hbmUp 1 = true) ∧
    (1 < 2 ∧ run.flag (Reg.BUFF_HBM_STATUS.FAILED 1) = false ∧ run.flag (Reg.BUFF_HBM_STATUS.FAILED (1 - 1)) = false) := by decide +kernel

/-- The spill engine of pipeline 0 holds its burst's tokens and has a copy in its queue. -/
def spilling (f : Frame) (d : Dev) : Dev :=
  let c := { Copy.mk0 4 f 2 7 with spill := .queued }
  let h : TokHold := ⟨96, 3, [], 0, none, none⟩
  let d := holdCopy f c d
  { d with power := { d.power with holds := [h] }, vat := { d.vat with spillQ := [(0, [4])] } }

/-- Free blocks of the Vat halves. -/
def freeBlocks (v s n : Nat) (d : Dev) : Dev := d.wr (Reg.BUFF_VAT_FREE.FREE v s) n

theorem witness_spill :
    (let f := { admitting 7 4 run with stage := .linked, pend := false }
     let c := { Copy.mk0 4 f 2 7 with spill := .queued }
     let d := spilling f run
     let e := (d.wr (Reg.BUFF_CLASS_DEEP.DEEP_LIMIT 7) 1).wr Reg.BUFF_VAT_CFG.M_SIZE 1 |>.wr Reg.BUFF_VAT_CFG.S_SIZE 1
     0 < 4 ∧ d.hold.live = true ∧ d.holdsTokens (96 + 0) = true ∧ tget d.vat.spillQ [] 0 = 4 :: [] ∧ d.copy 4 = some c ∧
       d.frame c.frame = some f ∧
       (let x := d.wr (Reg.BUFF_CLASS_DEEP.DEEP_LIMIT 7) 0
        x.rd (Reg.BUFF_CLASS_DEEP.DEEP_LIMIT c.cls) * 65536 < x.voqStored c + f.len + 16) ∧
       e.voqStored c + f.len + 16 ≤ e.rd (Reg.BUFF_CLASS_DEEP.DEEP_LIMIT c.cls) * 65536 ∧ f.len ≤ 496 ∧
       (let x := freeBlocks 0 1 2 e
        x.vatFree 0 0 < x.vatFree 0 1 ∧ x.vatFree 0 1 ≠ 0 ∧ (x.vatHalf 0 1).take (x.vatBlocks 0) = some (0, ⟨[], 1⟩)) ∧
       (let x := freeBlocks 1 0 2 e
        x.vatFree 0 0 = 0 ∧ x.vatFree 0 1 = 0 ∧ x.vatFree 1 0 ≠ 0 ∧ (x.vatHalf 1 0).take (x.vatBlocks 1) = some (0, ⟨[], 1⟩)) ∧
       ((List.range 3).all fun w => (List.range 2).all fun t => e.vatFree w t == 0) = true) := by decide +kernel

theorem witness_spill_complete :
    (let f := { admitting 7 4 run with stage := .linked, pend := false }
     let c := { copyOf f with spill := .writing, out := false }
     let d := holdCopy f c run
     d.copy 4 = some c ∧ c.spill = .writing ∧ c.read = false ∧ d.frame c.frame = some f) ∧
    (let h : TokHold := ⟨96 + 3, 3, [], 0, none, none⟩
     let d := { run with power := { run.power with holds := [h] } }
     let e := later 10000 d
     d.hold_ (96 + 3) = some h ∧ d.now < max (tget d.vat.burstEmpty 0 3) h.rampAt + 10000 ∧ tget d.vat.spillQ [] 3 = [] ∧
       max (tget e.vat.burstEmpty 0 3) h.rampAt + 10000 ≤ e.now ∧ e.hold_ (96 + 3) = some h) := by decide +kernel

theorem witness_refill :
    (let f := { admitting 7 4 run with stage := .linked, pend := false, cells := [] }
     let c := { Copy.mk0 4 f 2 7 with spill := .spilled, read := true, block := some (2, 1, 0) }
     let d := holdCopy f c run
     let d := { d with vat := { d.vat with refillQ := [(0, [4])] } }
     d.hold.live = true ∧ tget d.vat.refillQ [] 0 = 4 :: [] ∧ d.copy 4 = some c ∧ d.frame c.frame = some f ∧ c.block = some (2, 1, 0) ∧
       d.flag (Reg.BUFF_HBM_STATUS.FAILED 1) = false ∧ (d.setFlag (Reg.BUFF_HBM_STATUS.FAILED 1) true).flag (Reg.BUFF_HBM_STATUS.FAILED 1) = true ∧
       d.overAge f c = false ∧ d.bank 0 = Bank.zero ∧ f.pipe = 0 ∧ f.stage = .linked ∧ f.ended = true ∧ f.err = 0 ∧
       cellsOf f.len ≤ maxCells ∧ d.copiesOf f.id = [c] ∧ (d.path.copies.map Copy.id).Nodup ∧
       (let x := d.setBank 0 { Bank.zero with rebuild := (List.range 32).map fun s => (s, 1) }
        (x.bank 0).allocable < cellsOf f.len) ∧
       (let g := { f with ts := (run.pres 0 + tbModulus - 2 * 10 ^ 6 * nsUnit) % tbModulus }
        let x := (holdCopy g c run).wr (Reg.EGRS_AGE_LIMIT.LIMIT_US 2 7) 1
        x.overAge g c = true)) ∧
    (let f := { admitting 7 4 run with stage := .linked, pend := false }
     let c := { Copy.mk0 4 f 2 7 with spill := .refilling, block := some (2, 1, 0) }
     let d := holdCopy f c run
     d.copy 4 = some c ∧ c.spill = .refilling ∧ c.block = some (2, 1, 0) ∧ d.flag (Reg.BUFF_HBM_STATUS.FAILED 1) = false ∧ 1 < 2 ∧
       d.blockOk 2 1 (d.blockAddr (2, 1, 0)) = true) := by decide +kernel

/-! ### Witnesses: the fabric -/

/-- A linked frame of one cell from port 3. -/
def linked (d : Dev) : Frame := { admitting 7 4 d with stage := .linked, pend := false }

/-- Its copy toward port 2 stands in a source list. -/
def waitingCopy (d : Dev) : Copy := { Copy.mk0 4 (linked d) 2 7 with reqNo := 1 }

/-- The gate of a port's classes: one entry that holds `states` for a cycle of 1 ms. -/
def gating (n : Nat) (states : BitVec 32) (d : Dev) : Dev :=
  let d := ((d.setTabW (0x9000 + 0x10 * groupOf n) 0 0 (BitVec.ofNat 32 1000)).setTabW (0x9000 + 0x10 * groupOf n) 0 1 states).setFlag
    (Reg.EGRS_GATE_CTRL.GATE_EN n) true
  d.setEgate n { EGate.zero with oper := some ⟨0, 1000, 0, 1, 0, 0⟩ }

theorem witness_credit :
    (let f := linked run
     let c := waitingCopy run
     let d := holdCopy f c (port 2 run)
     d.hold.live = true ∧ d.copy 4 = some c ∧ d.frame c.frame = some f ∧ d.isHead c = true ∧ c.want = none ∧ c.granted = false ∧
       c.spill = .resident ∧ d.adminUp c.dst = true ∧ run.adminUp c.dst = false ∧ { c with granted := true }.granted = true) ∧
    (let f := linked run
     let c := { waitingCopy run with want := some 1 }
     let d := (holdCopy f c (port 2 run)).wr Reg.FABR_CREDIT_CFG.CREDIT_MAX 1
     0 < 64 ∧ d.path.copies.filter (fun k => k.want.isSome) = [c] ∧ c.want = some 1 ∧ c.dst ∈ groupPorts 0 0 ∧ c.cls < 8 ∧
       d.creditOk c.dst c.cls = true ∧ d.rd (Reg.FABR_GRP_CREDIT.OUTSTANDING 0) + 1 ≤ 1536 ∧
       d.outstanding c.dst c.cls + 1 ≤ d.rd Reg.FABR_CREDIT_CFG.CREDIT_MAX ∧
       (d.setFlag (Reg.PORT_STATUS.HOLD 2) true).creditOk c.dst c.cls = false ∧
       1536 < (d.wr (Reg.FABR_GRP_CREDIT.OUTSTANDING 0) 1536).rd (Reg.FABR_GRP_CREDIT.OUTSTANDING 0) + 1 ∧
       (d.wr Reg.FABR_CREDIT_CFG.CREDIT_MAX 0).rd Reg.FABR_CREDIT_CFG.CREDIT_MAX < d.outstanding c.dst c.cls + 1) ∧
    (let f := linked run
     let c := { waitingCopy run with granted := true, held := 1 }
     let d := holdCopy f c (port 2 run)
     let e := gating 2 0 d
     let g := (gating 2 0xFF d)
     2 < 258 ∧ d.path.copies.filter (fun x => x.dst == 2 && x.cls == 7 && x.granted && x.sent == 0) = [c] ∧ e.gateOpen 2 7 = false ∧
       e.path.copies = [c] ∧ d.gateOpen 2 7 = true ∧ d.closesIn 2 7 = none ∧ g.gateOpen 2 7 = true ∧ g.closesIn 2 7 = none ∧
       (let h := (g.setEgate 2 { oper := (g.egate 2).oper, pend := some ⟨0, 1000, 0, 0, 0, 5⟩, entryAt := 0, hold := false }).wr Reg.FABR_CTRL.LEAD_NS 5
        h.closesIn 2 7 = some 5 ∧ 5 ≤ h.rd Reg.FABR_CTRL.LEAD_NS ∧ (h.wr Reg.FABR_CTRL.LEAD_NS 4).rd Reg.FABR_CTRL.LEAD_NS < 5)) := by
  decide +kernel

/-- The same copy with credit for its cell, planes `m` active. -/
def ready (m : Nat) (d : Dev) : Dev :=
  (holdCopy (linked d) { waitingCopy d with granted := true, held := 1 } d).wr Reg.FABR_STATUS.ACTIVE m

theorem witness_slots :
    (up.boot.released = false ∧ up.hold.live = true) ∧
    (run.boot.released = true ∧ run.fab.joinSlot = none ∧ run.path.copies = []) ∧
    (let d := ready 0x201 run
     let c := { waitingCopy run with granted := true, held := 1 }
     d.boot.released = true ∧ d.fab.joinSlot = none ∧ d.activePlanes ≠ [] ∧ d.path.copies.filter (fun k => d.readyCells k != 0) = [c] ∧
       d.readyCells c = 1 ∧ c.src ≤ 64 ∧ d.frame c.frame = some (linked run) ∧ (linked run).full = false ∧
       (d.inProgress c.input (dstGroup c.dst)).length < 8) ∧
    (let a := { waitingCopy run with granted := true, held := 1, src := 63, id := 4 }
     let b := { waitingCopy run with granted := true, held := 1, src := 0, id := 5 }
     let d := (ready 0x200 run)
     let x := { d.fab with gptr := [(64 * 9, 60)] }
     let d := { d with path := { d.path with copies := [a, b] }, fab := x }
     d.activePlanes = [9] ∧ d.path.copies.filter (fun k => d.readyCells k != 0) = [a, b] ∧ a.src < 64 ∧ b.src < 64 ∧ a.src ≠ b.src ∧
       dstGroup a.dst = 0 ∧ dstGroup b.dst = 0 ∧ (d.inProgress a.src 0).length < 8 ∧ (d.inProgress b.src 0).length < 8 ∧
       tget d.fab.gptr 0 (64 * 9 + 0) = 60 ∧ dist64 a.src 60 < dist64 b.src 60) := by decide +kernel

/-- A cell of that copy in flight on plane 9, from group 0 to group 0. -/
def cell (seq : Nat) (last : Bool) : FCell := ⟨9, 1, 0, 0, seq, 4, true, last, 0, 64, 2, 7, false⟩

/-- The copy has given the cells `l` to the fabric. -/
def flying (c : Copy) (l held : List FCell) (d : Dev) : Dev :=
  let d := holdCopy (linked d) c d
  { d with fab := { d.fab with flight := l, held := held } }

theorem witness_couch :
    (run.fab.flight = [] ∧ run.hold.live = true) ∧
    (let c := { waitingCopy run with granted := true, sent := 1, out := true }
     let d := flying c [cell 65535 true] [] (later 1 run)
     let e := flying c [cell 0 true] [] run
     let g := flying c [cell 0 false] [] run
     d.fab.flight.find? (fun y => y.src == 0 && y.dst == 0 && y.seq == 65535 && !y.dead) = some (cell 65535 true) ∧
       d.now < tget d.fab.crcAt 0 9 + 10 ^ 6 ∧ d.rd (Reg.FABR_PLANE_STATUS.CRC_1MS 9) < 7 ∧ d.copy 4 = some c ∧
       d.frame c.frame = some (linked run) ∧ d.gateOpen 2 7 = true ∧ 65535 ≠ d.expect 0 0 ∧ e.expect 0 0 = 0 ∧ e.heldCells 0 0 = [] ∧
       e.fab.flight.find? (fun y => y.src == 0 && y.dst == 0 && y.seq == 0 && !y.dead) = some (cell 0 true) ∧
       g.fab.flight.find? (fun y => y.src == 0 && y.dst == 0 && y.seq == 0 && !y.dead) = some (cell 0 false) ∧
       ¬(c.arrived = 0 ∧ c.ct = true) ∧ (cell 0 true).err = 0 ∧ c.dst ≠ 258 ∧ c.queued = false ∧ c.txAt = none) ∧
    (let c := { waitingCopy run with granted := true, sent := 1, arrived := 1 }
     let d := flying c [] [] run
     let d := { d with fab := { d.fab with seqNext := [(0, 1)] } }
     d.heldCells 0 0 = [] ∧ d.underReasm 0 0 = true ∧ diff16 (tget d.fab.seqNext 0 (pairKey 0 0)) (d.expect 0 0) > 0 ∧ (d.gapOf 0 0).at_ = 0 ∧
       run.underReasm 63 63 = false ∧ run.heldCells 63 63 = []) ∧
    (let c := { waitingCopy run with granted := true, sent := 2, arrived := 1 }
     let g : Gap := ⟨1, false, true⟩
     let d := (flying c [cell 0 false] [] run).setGap 0 0 g
     let d := { d with fab := { d.fab with reported := [(0, 1)] } }
     let e := later (10 ^ 9) d
     let h := later (10 ^ 9) ((flying c [] [cell 5 false] run).setGap 0 0 g)
     (d.gapOf 0 0).at_ ≠ 0 ∧ d.now < (d.gapOf 0 0).at_ - 1 + max 4 (d.rd Reg.FABR_CTRL.COUCH_TIMEOUT_US) * 1000 ∧
       (e.gapOf 0 0).at_ - 1 + max 4 (e.rd Reg.FABR_CTRL.COUCH_TIMEOUT_US) * 1000 ≤ e.now ∧
       e.heldCells 0 0 = [] ∧ seqDist (tget e.fab.reported 0 (pairKey 0 0)) (e.expect 0 0) = 1 ∧
       e.fab.flight.filter (fun y => y.src == 0 && y.dst == 0 && decide (seqDist y.seq (e.expect 0 0) < 1)) = [cell 0 false] ∧
       e.copy 4 = some c ∧ (h.gapOf 0 0).at_ - 1 + max 4 (h.rd Reg.FABR_CTRL.COUCH_TIMEOUT_US) * 1000 ≤ h.now ∧
       h.heldCells 0 0 = [cell 5 false] ∧ (cell 5 false).seq < 65536 ∧ h.expect 0 0 < 65536) := by decide +kernel

/-- Planes 0 to 8 are active and 9 is the spare. -/
def planed (d : Dev) : Dev := d.fabricRelease

theorem witness_planes :
    (let d := planed run
     d.hold.live = true ∧ 8 < 10 ∧ 63 < 64 ∧ d.rd (Reg.FABR_PLANE_STATUS.ROLE 8) = 1 ∧ d.rd (Reg.FABR_PLANE_STATUS.ROLE 9) ≠ 1 ∧
       d.fab.rotation = none ∧ d.fab.join = none ∧ d.rd Reg.FABR_STATUS.SPARE = 9 ∧
       ((List.range 10).all fun n => d.planeMissing n (d.slotNow - 196) == 0) = true) ∧
    (let d := planed run
     let d := { d with fab := { d.fab with sentOn := [(8, 1)] } }
     d.rd (Reg.FABR_PLANE_STATUS.ROLE 8) = 1 ∧ d.planeMissing 8 (d.slotNow - 196) ≠ 0 ∧ d.fab.rotation = none ∧
       ((List.range 10).all fun m => m == 8 || d.planeMissing m (d.slotNow - 196) == 0) = true) ∧
    (let d := planed run
     let d := { d with fab := { d.fab with join := some (9, 0) } }
     let e := later 30000 d
     d.fab.join = some (9, 0) ∧ d.fab.joinSlot = none ∧ (d.wr (Reg.PWCK_DOM_STATUS.STATE 77) 2).rd (Reg.PWCK_DOM_STATUS.STATE (68 + 9)) = 2 ∧
       d.now < 0 + 30000 ∧ 0 + 30000 ≤ e.now) ∧
    (let r : Rotation := ⟨3, 9, 0, none, false⟩
     let d := planed run
     let d := later 30000 { d with fab := { d.fab with rotation := some r } }
     d.fab.join = none ∧ d.fab.rotation = some r ∧ r.slot = none ∧ r.spare < 10 ∧ r.since + 30000 ≤ d.now) ∧
    (let d := (planed run).wr (Reg.FABR_PLANE_STATUS.ROLE 8) 3
     d.rd (Reg.FABR_PLANE_STATUS.ROLE 8) = 3 ∧ d.supRunning = true ∧ 8 ∉ d.fab.bad ∧ up.supRunning = false ∧
       (d.wr Reg.FABR_STATUS.SPARE 0xF).rd Reg.FABR_STATUS.SPARE = 0xF) := by decide +kernel

theorem witness_rotation :
    (let d := planed run
     d.hold.live = true ∧ 8 < 16 ∧ d.bitOf Reg.FABR_STATUS.ACTIVE 8 = true ∧ d.bitOf Reg.FABR_STATUS.ACTIVE 9 = false ∧
       d.rd Reg.FABR_STATUS.SPARE ≠ 0xF ∧ d.fab.rotation.isSome = false ∧ d.fab.join.isSome = false) ∧
    (let d := later (3600 * 10 ^ 9) ((planed run).wr Reg.FABR_ROT_SCHED.INTERVAL_H 1)
     let e := (planed run).wr Reg.FABR_ROT_SCHED.INTERVAL_H 1
     d.rd Reg.FABR_ROT_SCHED.INTERVAL_H = 1 ∧ d.boot.released = true ∧ d.fab.schedAt + 1 * (3600 * 10 ^ 9) ≤ d.now ∧
       e.now < e.fab.schedAt + 1 * (3600 * 10 ^ 9) ∧ d.rotationRefusal d.scheduledPlane = 0) ∧
    (let r : Rotation := ⟨3, 9, 0, some 16, false⟩
     let d := planed run
     let d := { d with fab := { d.fab with rotation := some r } }
     let e := { d with fab := { d.fab with slot := 16 } }
     d.fab.rotation = some r ∧ r.slot = some 16 ∧ r.changed = false ∧ r.out < 10 ∧ r.spare < 10 ∧ r.out ≠ r.spare ∧
       max d.fab.slot d.slotNow < 16 ∧ 16 ≤ max e.fab.slot e.slotNow) ∧
    (let r : Rotation := ⟨3, 9, 0, some 16, true⟩
     let d := planed run
     let d := { d with fab := { d.fab with rotation := some r, sentOn := [(3, 7)], recvOn := [(3, 7)] } }
     let e := { d with fab := { d.fab with recvOn := [(3, 6)] } }
     d.fab.rotation = some r ∧ r.changed = true ∧ r.out < 10 ∧ tget d.fab.sentOn 0 3 = tget d.fab.recvOn 0 3 ∧ d.fab.flight = [] ∧
       tget e.fab.sentOn 0 3 ≠ tget e.fab.recvOn 0 3) := by decide +kernel

/-! ### Witnesses: egress -/

/-- The frame's copy toward port 2 stands in class queue `c`, whole. -/
def queuedCopy (i c : Nat) (d : Dev) : Copy :=
  { Copy.mk0 i { linked d with port := 258 } 2 c with out := true, read := true, last := true, queued := true, qNo := i }

/-- The device holds the frame, which came from port 258, and copies of it. -/
def queues (cs : List Copy) (d : Dev) : Dev :=
  { d with path := { d.path with frames := [{ linked d with port := 258 }], copies := cs, nextFrame := 9, nextCopy := 9 } }

/-- What `Dev.plainPort` asks of port 2. -/
def plainB (d : Dev) : Bool :=
  d.adminUp 2 && d.linkUp 2 && tget d.egr.tx 0 4 == 0 && tget d.egr.tx 0 5 == 0 && !d.preemptOn 2 &&
    ((List.range 8).all fun c => !d.bitOf (Reg.EGRS_PORT_SCHED.CBS_EN 2) c) && !d.flag (Reg.EGRS_PORT_SHAPE.PORT_TBS_EN 2)

/-- What `Dev.mayStart` asks of a copy there. -/
def startsB (d : Dev) (k : Copy) : Bool :=
  k.last && !k.ct && decide (k.cls < 8) && d.eligible 2 k.cls && !d.tooLong 2 k.cls k &&
    (d.frame k.frame).any fun f => !f.ver && !d.overAge f k && (d.pairOfPort f.port).isNone && f.handle.isNone &&
      decide ((d.editCopy f k 0).length ≤ d.rd (Reg.PORT_CFG.MAX_FRAME 2))

theorem plain_of (d : Dev) (h : plainB d = true) : d.plainPort 2 := by
  simp only [plainB, Bool.and_eq_true, beq_iff_eq, Bool.not_eq_true', List.all_eq_true, List.mem_range] at h
  obtain ⟨⟨⟨⟨⟨⟨h1, h2⟩, h3⟩, h4⟩, h5⟩, h6⟩, h7⟩ := h
  exact ⟨by decide, h1, h2, h3, h4, h5, h6, h7⟩

theorem starts_of (d : Dev) (k : Copy) (h : startsB d k = true) : d.mayStart 2 k := by
  simp only [startsB, Bool.and_eq_true, Bool.not_eq_true', decide_eq_true_eq, Option.any_eq_true, Option.isNone_iff_eq_none] at h
  obtain ⟨⟨⟨⟨⟨h1, h2⟩, h3⟩, h4⟩, h5⟩, f, h6, ⟨⟨⟨⟨h7, h8⟩, h9⟩, h10⟩, h11⟩⟩ := h
  exact ⟨h1, h2, h3, h4, h5, f, h6, h7, h8, h9, h10, h11⟩

theorem witness_selection :
    (let k := queuedCopy 4 7 run
     let d := queues [k] (port 2 run)
     let e := gating 2 0x80 d
     d.hold.live = true ∧ plainB d = true ∧ d.path.copies.filter (fun x => x.queued && x.dst == 2) = [k] ∧ startsB d k = true ∧
       plainB e = true ∧ e.path.copies = [k] ∧ k.cls < 8 ∧
       (let g := e.setTabW 0x9000 0 1 0x7F; g.tooLong 2 7 k = true ∧ plainB g = true) ∧
       (let f := { linked run with port := 258, ts := (run.pres 0 + tbModulus - 2 * 10 ^ 6 * nsUnit) % tbModulus }
        let x := (d.wr (Reg.EGRS_AGE_LIMIT.LIMIT_US 2 7) 1)
        let x := { x with path := { x.path with frames := [f] } }
        plainB x = true ∧ x.eligible 2 7 = true ∧ x.tooLong 2 7 k = false ∧ x.frame k.frame = some f ∧ f.ver = false ∧ x.overAge f k = true)) ∧
    (let k := queuedCopy 4 7 run
     let d := queues [k] run
     2 < 258 ∧ d.adminUp 2 = false ∧ d.path.copies.filter (fun x => x.dst == 2 && x.queued) = [k]) ∧
    (let a := queuedCopy 4 7 run
     let b := queuedCopy 5 6 run
     let d := queues [a, b] ((port 2 run).wr (Reg.EGRS_PORT_SCHED.STRICT 2) 0xFF)
     let e := ((d.wr (Reg.EGRS_PORT_SCHED.STRICT 2) 0).setWfq 2 7 ⟨0, 2 ^ 48 - 1, true⟩).setWfq 2 6 ⟨0, 1, true⟩
     plainB d = true ∧ a.id ≠ b.id ∧ a.cls ≠ b.cls ∧ d.path.copies.filter (fun x => x.queued && x.dst == 2) = [a, b] ∧ startsB d a = true ∧
       startsB d b = true ∧ d.bitOf (Reg.EGRS_PORT_SCHED.STRICT 2) a.cls = true ∧ b.cls < a.cls ∧
       (d.setBitOf (Reg.EGRS_PORT_SCHED.STRICT 2) 6 false).bitOf (Reg.EGRS_PORT_SCHED.STRICT 2) b.cls = false ∧
       plainB e = true ∧ startsB e a = true ∧ startsB e b = true ∧ e.bitOf (Reg.EGRS_PORT_SCHED.STRICT 2) a.cls = false ∧
       e.bitOf (Reg.EGRS_PORT_SCHED.STRICT 2) b.cls = false ∧ (e.wfqOf 2 a.cls).active = true ∧ (e.wfqOf 2 b.cls).active = true ∧
       tagLess (e.wfqOf 2 a.cls).finish (e.wfqOf 2 b.cls).finish = true ∧ tagLess (e.wfqOf 2 b.cls).finish (e.wfqOf 2 a.cls).finish = false) := by
  decide +kernel

/-- A copy of 200 bytes that a MAC of port 2 transmits since time zero. -/
def sending (cut : Nat) (pre : Bool) (d : Dev) : Copy :=
  { queuedCopy 4 0 d with queued := false, txAt := some 0, wire := List.replicate 200 0, cutAt := cut, preempted := pre }

/-- MAC `m` of port 2 transmits it until `t`. -/
def transmits (m t : Nat) (c : Copy) (d : Dev) : Dev :=
  let d := queues [c] d
  { d with egr := { d.egr with tx := [(4 + m, 5)], txEnd := [(4 + m, t)] } }

theorem witness_preemption :
    (let c := sending 0 false run
     let d := transmits 1 72 c (((port 2 run).setFlag (Reg.PORT_STATUS.PREEMPT_ACTIVE 2) true).setBitOf (Reg.EGRS_PORT_SCHED.PREEMPTABLE 2) 0 true)
     let d := d.setEgate 2 { EGate.zero with hold := true }
     let m := d.sentBytes 2 c
     d.hold.live = true ∧ d.txCopy 2 1 = some c ∧ d.preemptOn 2 = true ∧ c.last = true ∧ c.preempted = false ∧ d.preemptCause 2 c = true ∧
       64 * (1 + d.rd (Reg.PORT_PREEMPT_CFG.ADD_FRAG_SIZE 2)) - 4 ≤ m - c.cutAt ∧ 64 ≤ c.wire.length - m ∧
       (let e := d.setFlag (Reg.PORT_STATUS.PREEMPT_ACTIVE 2) false; e.preemptOn 2 = false ∧ e.txCopy 2 1 = some c)) ∧
    (let c := sending 60 true run
     let d := transmits 1 0 c (port 2 run)
     2 < 258 ∧ d.txCopy 2 1 = some c ∧ c.preempted = true ∧ d.adminUp 2 = true ∧ d.linkUp 2 = true ∧ tget d.egr.tx 0 (2 * 2) = 0 ∧
       d.gateOpen 2 c.cls = true ∧ (d.egate 2).hold = false ∧ (d.path.copies.all fun x => !x.ct) = true) := by decide +kernel

theorem witness_transmit_end :
    (let c := sending 0 false run
     let f := { linked run with port := 258 }
     let d := transmits 0 72 c (port 2 run)
     let e := later 72 d
     d.hold.live = true ∧ d.txCopy 2 0 = some c ∧ d.frame c.frame = some f ∧ c.txAt = some 0 ∧ c.ct = false ∧ c.last = true ∧ c.preempted = false ∧
       d.now < tget d.egr.txEnd 0 (2 * 2 + 0) ∧ tget e.egr.txEnd 0 (2 * 2 + 0) ≠ 0 ∧ tget e.egr.txEnd 0 (2 * 2 + 0) ≤ e.now ∧
       c.wire.length ≤ e.rd (Reg.PORT_CFG.MAX_FRAME 2) ∧ e.twoStep f c = none) ∧
    (let c := sending 0 false run
     let f := { linked run with port := 258, inst := some 7, bytes := be 12 0 ++ be 2 0x88F7 ++ List.replicate 50 2 }
     let e := later 72 (transmits 0 72 c (port 2 run))
     let e := { e with path := { e.path with frames := [f] } }
     e.frame c.frame = some f ∧ (e.twoStep f c).isSome = true ∧ (tget e.time.tsq [] 2).length < 16 ∧
       (let x : TsEntry := ⟨2, 0, 0, 7, 0, 0, 0⟩
        let g := { e with time := { e.time with tsq := [(2, List.replicate 16 x)] } }
        16 ≤ (tget g.time.tsq [] 2).length)) := by decide +kernel

theorem witness_gates_and_shapers :
    (let d := gating 257 0x40000080 run
     let s : Sched := ⟨0, 1000, 0, 1, 0, 0⟩
     let e := d.setEgate 257 { EGate.zero with pend := some s }
     let g := d.setEgate 257 { EGate.zero with pend := some { s with due := 1 } }
     d.hold.live = true ∧ 257 < 258 ∧ (d.egate 257).oper = some s ∧ d.egateEntry 257 s (d.presNs s.tb) = some (0, 0) ∧
       (d.egate 257).entryAt ≠ 0 + 1 ∧ fget (d.egateState 257 s 0) 30 2 = 1 ∧ (d.egate 257).pend = none ∧ (e.egate 257).pend = some s ∧
       s.due ≤ e.presNs s.tb ∧ g.presNs s.tb < 1) ∧
    (let d := queues [queuedCopy 4 7 run] (later 1000 ((port 2 run).setBitOf (Reg.EGRS_PORT_SCHED.CBS_EN 2) 7 true))
     let e := later 1000 ((port 2 run).setBitOf (Reg.EGRS_PORT_SCHED.CBS_EN 2) 7 true)
     let e := { e with egr := { e.egr with cbs := [(23, ⟨5, 0⟩)] } }
     d.bitOf (Reg.EGRS_PORT_SCHED.CBS_EN 2) 7 = true ∧ d.classOnMac 2 7 = none ∧ (d.queueHead 2 7).isSome = true ∧
       (d.gatesAt 2 (d.now - 0)).testBit 7 = true ∧ e.queueHead 2 7 = none ∧ (tget e.egr.cbs Cbs.zero 23).credit = 5 ∧
       run.bitOf (Reg.EGRS_PORT_SCHED.CBS_EN 257) 7 = false) := by decide +kernel

/-! ### Witnesses: time -/

/-- Base 7 with source `src`, in state `st`. -/
def base7 (src st : Nat) (b : TbSt) : Dev :=
  let d := (((run.wr (Reg.TIME_TB_CFG.SRC 7) src).wr (Reg.TIME_TB_STATUS.STATE 7) st).wr (Reg.TIME_TB_THRESH.STEP_US 7) 1).wr
    (Reg.TIME_TB_THRESH.LOCK_NS 7) 100
  (later (10 ^ 10) d).setTb 7 b

/-- An offset of `ns` nanoseconds. -/
def offNs (ns : Int) : Int := ns * 2 ^ 16

/-- What every sample of base 7 needs. -/
def sampled (d : Dev) (src st : Nat) : Bool :=
  d.hold.live && d.time.tb.length == 8 && d.rd (Reg.TIME_TB_CFG.SRC 7) == src && d.pairOf 7 == none && d.rd (Reg.TIME_TB_STATUS.STATE 7) == st

theorem witness_servo :
    (let big (d : Dev) (off : Int) : Bool := decide (d.rd (Reg.TIME_TB_THRESH.STEP_US 7) * 1000 * 2 ^ 16 < off.natAbs)
     let f := base7 1 3 TbSt.zero |>.setFlag (Reg.TIME_TB_CFG.STEP_EN 7) true
     let a := (base7 1 1 { TbSt.zero with good := 7 }).setFlag (Reg.TIME_TB_CFG.STEP_EN 7) false
     let l := base7 1 2 { TbSt.zero with bad := 3 }
     sampled f 1 3 = true ∧ big f (offNs (-1001)) = true ∧ big f (offNs 1000) = false ∧ f.flag (Reg.TIME_TB_CFG.STEP_EN 7) = true ∧
       sampled a 1 1 = true ∧ a.flag (Reg.TIME_TB_CFG.STEP_EN 7) = false ∧
       (offNs 100).natAbs ≤ a.rd (Reg.TIME_TB_THRESH.LOCK_NS 7) * 2 ^ 16 ∧ 8 ≤ (a.tb 7).good + 1 ∧
       ¬ (offNs 101).natAbs ≤ a.rd (Reg.TIME_TB_THRESH.LOCK_NS 7) * 2 ^ 16 ∧ tget a.time.startSet 0 7 = 0 ∧
       sampled l 1 2 = true ∧ big l (offNs 1001) = true ∧ (l.tb 7).bad = 3 ∧ big l (offNs (-1000)) = false) ∧
    (let d := base7 2 2 TbSt.zero |>.setFlag (Reg.TIME_TB_CFG.FREQ_TCLK 7) true
     sampled d 2 2 = true ∧ d.flag (Reg.TIME_TB_CFG.FREQ_TCLK 7) = true ∧ d.flag (Reg.TIME_TB_STATUS.TCLK_LOST 7) = false ∧
       (offNs 1000).natAbs ≤ d.rd (Reg.TIME_TB_THRESH.STEP_US 7) * 1000 * 2 ^ 16 ∧ (base7 3 2 TbSt.zero).rd (Reg.TIME_TB_CFG.SRC 7) = 3) ∧
    (let e (st : Nat) (l : Option Nat) : Dev := let d := base7 2 st TbSt.zero; { d with time := { d.time with ppsLast := l } }
     sampled (base7 1 2 TbSt.zero) 1 2 = true ∧ sampled (base7 1 1 TbSt.zero) 1 1 = true ∧ sampled (base7 1 3 TbSt.zero) 1 3 = true ∧
       (e 2 (some 8500000000)).time.ppsLast = some 8500000000 ∧ 8500000000 + 1500000000 ≤ (e 2 (some 8500000000)).now ∧
       sampled (e 1 none) 2 1 = true ∧ (e 1 none).time.ppsLast = none ∧ (e 2 (some 8500000001)).now < 8500000001 + 1500000000) ∧
    (let d := base7 0 3 { TbSt.zero with holdAt := 0 } |>.wr (Reg.TIME_TB_CFG.HOLDOVER_S 7) 9
     let e := base7 0 3 { TbSt.zero with holdAt := 0 } |>.wr (Reg.TIME_TB_CFG.HOLDOVER_S 7) 10
     sampled d 0 3 = true ∧ (d.tb 7).holdAt + d.rd (Reg.TIME_TB_CFG.HOLDOVER_S 7) * 10 ^ 9 < d.now ∧
       e.now ≤ (e.tb 7).holdAt + e.rd (Reg.TIME_TB_CFG.HOLDOVER_S 7) * 10 ^ 9) ∧
    (let d := run.setFlag Reg.TIME_PPS_CFG.EN true
     run.hold.live = true ∧ run.flag Reg.TIME_PPS_CFG.EN = false ∧ d.flag Reg.TIME_PPS_CFG.EN = true ∧ true ≠ d.flag Reg.TIME_PPS_CFG.POL ∧
       false = d.flag Reg.TIME_PPS_CFG.POL ∧ (base7 2 0 TbSt.zero).rd (Reg.TIME_TB_CFG.SRC 7) = 2) := by decide +kernel

/-- Pair 3 of bases 6 and 7, SECONDARY the source. -/
def paired (st : Nat) (p : PairSt) : Dev :=
  let d := (((run.setFlag (Reg.TIME_PAIR_CFG.EN 3) true).wr (Reg.TIME_PAIR_CFG.PRIMARY 3) 6).wr (Reg.TIME_PAIR_CFG.SECONDARY 3) 7).setFlag
    (Reg.TIME_PAIR_STATUS.SOURCE 3) true
  let d := ((d.setFlag (Reg.TIME_PAIR_CFG.REVERT 3) true).wr (Reg.TIME_PAIR_CFG.REVERT_S 3) 10).wr (Reg.TIME_TB_STATUS.STATE 6) st
  let d := later (10 ^ 10) d
  { d with time := { d.time with pair := d.time.pair.set 3 p } }

/-- Pin 15 in a mode, with a pulse from 0 to 100 ns of base 0. -/
def pin15 (mode : Nat) : Dev := (run.wr (Reg.TIO_CFG.MODE 15) mode).wr (Reg.TIO_WIDTH.NS 15) 100

theorem witness_pairs_and_pins :
    (let d := paired 2 ⟨-5, 9999000000⟩
     d.hold.live = true ∧ 3 < 4 ∧ d.time.tb.length = 8 ∧ d.time.pair.length = 4 ∧ d.rd (Reg.TIME_PAIR_CFG.PRIMARY 3) = 6 ∧
       d.rd (Reg.TIME_PAIR_CFG.SECONDARY 3) = 7 ∧ d.flag (Reg.TIME_PAIR_CFG.REVERT 3) = true ∧
       d.flag (Reg.TIME_PAIR_STATUS.SOURCE 3) = true ∧ d.pairOn 3 = true ∧ d.rd (Reg.TIME_TB_STATUS.STATE 6) = 2 ∧
       (d.tb 6).lockedAt + d.rd (Reg.TIME_PAIR_CFG.REVERT_S 3) * 10 ^ 9 ≤ d.now ∧ d.pairOf 6 = some 3 ∧ d.pairOf 7 = some 3 ∧
       (paired 3 ⟨0, 0⟩).rd (Reg.TIME_TB_STATUS.STATE 6) ≠ 2 ∧ d.time.pair[3]? = some ⟨-5, 9999000000⟩ ∧ 9999000000 + 1000000 ≤ d.now ∧
       (paired 2 ⟨0, 0⟩).pairD 3 = 0 ∧ (paired 2 ⟨1, 9999000001⟩).now < 9999000001 + 1000000) ∧
    (let d := pin15 1
     let e := later 0 ((pin15 2).wr (Reg.TIO_PERIOD.NS 15) 1000)
     let off := pin15 0
     15 < 16 ∧ d.hold.live = true ∧ d.rd (Reg.TIO_CFG.MODE 15) = 1 ∧ d.tioOn 15 = true ∧ tget d.time.tioActive 0 15 = 0 ∧
       e.rd (Reg.TIO_CFG.MODE 15) = 2 ∧ e.tioOn 15 = true ∧ off.rd (Reg.TIO_CFG.MODE 15) = 0 ∧
       (let s := d.wr (Reg.TIO_START_NS.START 15) 1
        let s := { s with time := { s.time with tioActive := [(15, 1)] } }
        s.tioOn 15 = false ∧ s.tioOn 15 ≠ (tget s.time.tioActive 0 15 == 1))) ∧
    (let d := (pin15 3).wr (Reg.TIO_CFG.EDGE 15) 1
     let x : List (Nat × Nat) := List.replicate 8 (2 ^ 40, 1)
     let e := { d with time := { d.time with tioFifo := [(15, x)] } }
     d.rd (Reg.TIO_CFG.MODE 15) = 3 ∧ edgeTaken (d.rd (Reg.TIO_CFG.EDGE 15)) (d.flag (Reg.TIO_CFG.POL 15)) true = true ∧
       edgeTaken (d.rd (Reg.TIO_CFG.EDGE 15)) (d.flag (Reg.TIO_CFG.POL 15)) false = false ∧ (tget d.time.tioFifo [] 15).length < 8 ∧
       d.rdS (Reg.TIO_ADJ.ADJ 15) = 0 ∧ d.presNs (d.rd (Reg.TIO_CFG.TB 15)) < 2 ^ 48 * 10 ^ 9 ∧ 8 ≤ (tget e.time.tioFifo [] 15).length ∧
       tget e.time.tioFifo [] 15 = (2 ^ 40, 1) :: List.replicate 7 (2 ^ 40, 1)) := by decide +kernel

/-- A PTP message of type `mt` on L2 that port 257 has received. -/
def ptpFrame (mt : Nat) : Frame :=
  let hv := (((List.replicate 64 0).set 0 (2 ^ 9)).set 25 mt).set 26 (0xFFFF + 14 * 2 ^ 16)
  { (rxd 257 (be 12 0 ++ be 2 0x88F7 ++ be 1 mt ++ le 49 0)) run with stage := .identify, px := { Parse.zero with hv := hv } }

/-- Instance 7 of a TYPE on port 257. -/
def clocked (typ : Nat) (f : Frame) : Dev :=
  let d := ((hold1 f (port 257 run)).setFlag (Reg.TIME_INST_CFG.EN 7) true).wr (Reg.TIME_INST_CFG.TYPE 7) typ
  (d.setBitOf (Reg.TIME_INST_PORTS.PORTS 7 8) 1 true).wr (Reg.TIME_INST_INTV.ANN_TO 7) 2

theorem witness_ptp :
    (let f := ptpFrame 9
     let d := clocked 4 f
     let e := { d with time := { d.time with ptpBuf := List.replicate 256 ⟨7, 257, 0, 0, 0, 1⟩ } }
     d.hold.live = true ∧ d.frame f.id = some f ∧ f.stage = .identify ∧ d.ptpTakes f = some 7 ∧ d.ptpWaiting.length < 256 ∧
       d.rd (Reg.TIME_INST_CFG.TYPE 7) = 4 ∧ f.hvF 25 0 4 = 9 ∧ e.frame f.id = some f ∧ e.ptpTakes f = some 7 ∧ 256 ≤ e.ptpWaiting.length ∧
       (clocked 4 (ptpFrame 0)).ptpTakes (ptpFrame 0) = none ∧ (clocked 4 (ptpFrame 0)).frame 0 = some (ptpFrame 0) ∧
       (clocked 2 (ptpFrame 0xD)).ptpTakes (ptpFrame 0xD) = some 7 ∧ (clocked 2 f).rd (Reg.TIME_INST_CFG.TYPE 7) < 3) ∧
    (let d := clocked 2 (ptpFrame 9)
     (d.path.frames.all fun f => decide (f.id < d.path.nextFrame)) = true ∧ d.boot.released = true ∧ d.flag (Reg.TIME_INST_CFG.EN 7) = true ∧
       d.ptpBad 7 = false ∧ d.ptpPort 7 257 = true ∧ d.configured 257 = true ∧ d.linkUp 257 = true ∧ d.rd (Reg.TIME_INST_CFG.TRANSPORT 7) = 0 ∧
       46 ≤ (le 46 1).length ∧ d.ptpPort 7 256 = false) ∧
    (let h : Tc2Held := ⟨7, 9, 65535, 3, be 12 0 ++ be 2 0x88F7 ++ List.replicate 50 9, 14, [], 0⟩
     let x : TsEntry := { (⟨257, 0, 0, 0, 0, 0, 0⟩ : TsEntry) with inst := 7, src := 3, seqId := 65535, msgType := 1 }
     let d := clocked 4 (ptpFrame 9)
     let e := { d with time := { d.time with tc2 := [h], tsq := [(257, [x])] } }
     let g := later (10 ^ 7) { d with time := { d.time with tc2 := [h] } }
     e.tc2Held 7 3 65535 = some h ∧ e.tc2Entry h 257 = some x ∧ e.now < h.since + 10 ^ 7 ∧ 257 ∉ h.served ∧ g.tc2Held 7 3 65535 = some h ∧
       g.tc2Entry h 257 = none ∧ h.since + 10 ^ 7 ≤ g.now) := by decide +kernel

/-! ### Witnesses: supervisors, sensors, log -/

/-- A device with SUP-A in role `a` and SUP-B in role `b` at 3 ms. -/
def roles (a b : Nat) : Dev := later 3000000 ((run.wr (Reg.SUPV_CORE_STATUS.ROLE 0) a).wr (Reg.SUPV_CORE_STATUS.ROLE 1) b)

/-- A checkpoint of slot 1. -/
def ckpt (t : Nat) : Ckpt := ⟨1, 7, t, { SupvSt.zero.mgmt with auditPos := 3 }⟩

/-- The device with its supervisors' state replaced. -/
def withSupv (d : Dev) (f : SupvSt → SupvSt) : Dev := { d with supv := f d.supv }

theorem witness_failures :
    (let d := roles 1 2
     let e := d.setFlag (Reg.SUPV_CORE_STATUS.STANDBY_READY 1) true
     let late := withSupv (roles 2 1) fun (x : SupvSt) => { x with fails := [(1, 0), (1, 1)], takeover := some ⟨0, 1, 0⟩ }
     d.hold.live = true ∧ d.supRuns 0 = true ∧ d.supRuns 1 = true ∧ tget d.supv.lastHb 0 1 + 200000 ≤ d.now ∧ d.role 0 = 1 ∧
       d.standbySup = some 1 ∧ e.flag (Reg.SUPV_CORE_STATUS.STANDBY_READY 1) = true ∧ (roles 1 0).standbySup = none ∧
       (roles 1 0).supRuns 1 = false ∧ late.role 0 ≠ 1 ∧ late.supRuns 0 = true ∧ late.supv.takeover = some ⟨0, 1, 0⟩ ∧
       ((late.supv.fails.filter fun f => decide (late.now < f.2 + 3600 * 10 ^ 9)).filter fun f => f.1 == 1).length = 2 ∧
       late.supRuns 1 = true ∧ (later 199999 d).now < tget d.supv.lastHb 0 0 + 200000) ∧
    (let r := inPhase 3 up
     r.romOn 0 = true ∧ r.supv.fails = [] ∧ run.romOn 1 = false ∧ run.supRuns 1 = false) ∧
    (let t (c : Nat) : Dev := withSupv (roles 3 2) fun (x : SupvSt) => { x with ckpts := [ckpt 0], takeover := some ⟨1, c, 5⟩ }
     (t 1).supv.takeover = some ⟨1, 1, 5⟩ ∧ newestCkpt (t 1).supv.ckpts = some (ckpt 0) ∧ (t 3).supv.takeover = some ⟨1, 3, 5⟩ ∧
       run.supv.takeover = none) ∧
    (let d := (roles 1 2).wr Reg.SUPV_PAIR_CTRL.WDOG_MS 3
     max (tget d.supv.lastHb 0 0) (tget d.supv.lastHb 0 1) + d.rd Reg.SUPV_PAIR_CTRL.WDOG_MS * 1000000 ≤ d.now ∧
       (later 0 d).now < max (tget d.supv.lastHb 0 0) (tget d.supv.lastHb 0 1) + d.rd Reg.SUPV_PAIR_CTRL.WDOG_MS * 1000000) := by
  decide +kernel

theorem witness_checkpoints :
    (let d := roles 1 2
     let e := withSupv d fun (x : SupvSt) => { x with ckpts := [ckpt 0] }
     let l := withSupv e fun (x : SupvSt) => { x with loaded := some (ckpt 0) }
     d.hold.live = true ∧ d.supRunning = true ∧ up.supRunning = false ∧ d.standbySup = some 1 ∧ e.supv.ckpts = [ckpt 0] ∧
       e.supv.loaded = none ∧ 0 < (ckpt 0).seq ∧ (e.supv.ckpts.all fun c => c.slot != 0) = true ∧ l.supv.loaded = some (ckpt 0) ∧
       (later 20000000 l).now = (ckpt 0).at_ + 20000000 ∧ l.now < (ckpt 0).at_ + 20000000 ∧ run.standbySup = none) ∧
    (let d := roles 1 3
     let e := withSupv (roles 1 4) fun (x : SupvSt) => { x with ckpts := [ckpt 0] }
     d.supRunning = true ∧ d.role 1 = 3 ∧ (roles 1 2).role 1 ≠ 3 ∧ e.role 1 = 4 ∧ e.role 0 ≠ 4 ∧ newestCkpt e.supv.ckpts = some (ckpt 0) ∧
       d.role 0 ≠ 4 ∧ d.role 1 ≠ 4) ∧
    (let d := withSupv ((roles 2 1).setFlag (Reg.SUPV_CORE_STATUS.STANDBY_READY 0) true) fun (x : SupvSt) => { x with ckpts := [ckpt 0], ckptSeq := 7 }
     d.hold.live = true ∧ d.activeSup = some 1 ∧ d.standbySup = some 0 ∧ d.flag (Reg.SUPV_CORE_STATUS.STANDBY_READY 0) = true ∧
       (d.supv.ckpts.all fun c => decide (c.seq ≤ d.supv.ckptSeq)) = true ∧ (roles 2 1).privileged 1 = false ∧
       (roles 2 1).flag (Reg.SUPV_CORE_STATUS.STANDBY_READY 0) = false) := by decide +kernel

theorem witness_sensors :
    (run.hold.live = true ∧ 23 < 24 ∧ -32768 ≤ (32767 : Int) ∧ (25 : Nat) < 26 ∧ 31 < 32 ∧ 65535 < 65536) ∧
    (let d := withSupv run fun (x : SupvSt) => { x with vOut := [(31, 3)], vIn := [(31, 2)] }
     3 ≤ tget d.supv.vOut 0 31 ∧ d.flag (Reg.SUPV_VMON.OUT 31) = false ∧ tget run.supv.vOut 0 31 < 3) ∧
    (let d := withSupv (run.setFlag (Reg.SUPV_TEMP.VALID 23) true) fun (x : SupvSt) => { x with over120 := [(23, 2)] }
     2 ≤ tget d.supv.over120 0 23 ∧ d.flag (Reg.SUPV_TEMP.VALID 23) = true ∧
       ((List.range 23).all fun j => decide (tget d.supv.over120 0 j < 2)) = true ∧
       ((List.range 24).all fun j => decide (tget run.supv.over120 0 j < 2)) = true) ∧
    (let d := { run with power := { run.power with pmbFails := [(9, 2)] } }
     9 < 10 ∧ 2 ≤ tget d.power.pmbFails 0 9 ∧ up.supRunning = false ∧ run.supRunning = true) := by decide +kernel

/-- A log record. -/
def record0 : LogRec := ⟨0xB001, 2, 1, 0, false, [1]⟩

/-- Both NVMs are there. -/
def stored (d : Dev) : Dev := { d with boot := { d.boot with nvm := List.replicate 2 { Nvm.empty with ok := true } } }

theorem witness_log :
    (let x : LogEnt := ⟨0, 0, record0, 0, 0, false, 0⟩
     let d := withSupv run fun (s : SupvSt) => { s with logQ := [record0] }
     let full := withSupv d fun (s : SupvSt) => { s with flight := List.replicate 1024 x }
     let lost := withSupv run fun (s : SupvSt) => { s with lostRecs := 3 }
     d.hold.live = true ∧ run.supv.logQ = [] ∧ d.supv.logQ = [record0] ∧ d.supv.hbmRing.length < 16384 ∧ d.supv.flight.length < 1024 ∧
       full.supv.flight.length = 1024 ∧ run.supv.lostRecs = 0 ∧ lost.supv.lostRecs ≠ 0 ∧ lost.supv.logQ.length < 64 ∧
       lost.supv.lastSummary = none) ∧
    (let d := withSupv run fun (s : SupvSt) => { s with logQ := List.replicate 64 record0 }
     1 < 2 ∧ 64 ≤ d.supv.logQ.length) ∧
    (let x : LogEnt := ⟨7, 0, record0, 0, 0, false, 0⟩
     let d := withSupv (stored run) fun (s : SupvSt) => { s with hbmRing := [x] }
     d.supRunning = true ∧ d.supv.hbmRing.find? (d.unpersisted 1) = some x ∧ run.supv.hbmRing.find? (run.unpersisted 1) = none ∧
       d.activeSup = some 0 ∧ d.activeSup.map supMaster ≠ some 0x11) := by decide +kernel

/-- The ring of 16,384 records is full. -/
theorem witness_full_ring :
    (let x : LogEnt := ⟨7, 0, record0, 0, 0, false, 0⟩
     let d := withSupv (stored run) fun (s : SupvSt) => { s with logQ := [record0], hbmRing := List.replicate 16384 x }
     d.supv.logQ = [record0] ∧ d.supv.hbmRing.length = 16384 ∧ d.supv.hbmRing.head? = some x ∧ d.unpersisted 0 x = true) := by
  have h : (withSupv (stored run) fun (s : SupvSt) => { s with logQ := [record0], hbmRing := [] }).unpersisted 0 ⟨7, 0, record0, 0, 0, false, 0⟩ = true := by
    decide +kernel
  exact ⟨rfl, List.length_replicate, rfl, h⟩

theorem witness_audit :
    (let d := withSupv run fun (s : SupvSt) => { s with refRegs := run.regs, refTabs := run.tabs }
     let a := Reg.SUPV_THERM_CFG.addr
     d.hold.live = true ∧ d.supRunning = true ∧ d.boot.cleanup = [] ∧ d.boot.released = true ∧ d.regs = d.supv.refRegs ∧
       d.tabs = d.supv.refTabs ∧ d.canon = true ∧ ((findReg a).map fun x => x.1.name) = some "SUPV_THERM_CFG" ∧ portOfAddr a = none ∧
       BitVec.ofNat 32 1 ≠ (0 : Word) ∧ BitVec.ofNat 32 1 &&& auditMask a = BitVec.ofNat 32 1 ∧ a ≠ Reg.SUPV_AUDIT_POLICY.addr ∧
       d.auditPolicy (a / 2 ^ 24) ≠ 0 ∧ isSeed a = false ∧ up.supRunning = false) ∧
    (let d := withSupv ((run.setFlag (Reg.SUPV_PMC_CFG.EN 1 7) true).wr (Reg.SUPV_PMC_CFG.EVENT 1 7) 13) fun (s : SupvSt) => { s with pmc := [(15, 2 ^ 48 - 1)] }
     1 < 2 ∧ d.flag (Reg.SUPV_PMC_CFG.EN 1 7) = true ∧ d.rd (Reg.SUPV_PMC_CFG.EVENT 1 7) = 13 ∧
       2 ^ 48 ≤ tget d.supv.pmc 0 15 + 1 ∧ d.flag (Reg.SUPV_PMC_CFG.EN 1 6) = false ∧ d.reaches 0x10 = true ∧ 7 < 8) := by decide +kernel

/-! ### Witnesses: Flollina, mailboxes, registers, debug, PCI Express -/

/-- The channel of mailbox 0 replaced. -/
def chan0 (f : Chan → Chan) (d : Dev) : Dev := d.setChan 0 (f (d.chan 0))

/-- A request of GET_INFO with a byte of FLAGS set. -/
def badAsk : Dev := ((asking 2 [] run).setMbBytes 0 (msgHead 2 1 2 1 7 0 0 0 0)).setFlag (Reg.HOST_MB_CTRL.FULL 0) true

/-- `Dev.asks`, computed. -/
def asksB (d : Dev) (r : Request) : Bool :=
  d.hold.live && d.supRunning && d.mbFull 0 && !d.mbFull 4 && (d.chan 0).outbox.isEmpty && mailRequest (d.mbBytes 0) == r

theorem asks_of (d : Dev) (r : Request) (h : asksB d r = true) : d.asks 0 r := by
  simp only [asksB, Bool.and_eq_true, beq_iff_eq, Bool.not_eq_true', List.isEmpty_iff] at h
  unfold Dev.asks
  simp_all

theorem witness_checks :
    ((List.range 4).map run.standing = List.replicate 4 none ∧ run.hold.live = true) ∧
    (asksB (asking 3 [] run) (ask 3 []) = true ∧ (ask 3 []).code ≠ 2 ∧
      (let d := chan0 (fun (c : Chan) => { c with opened := some ⟨2, 9⟩ }) (asking 2 [] run); asksB d (ask 2 []) = true ∧ (d.chan 0).opened.isSome = true)) ∧
    (asksB badAsk { ask 2 [] with bad := true } = true ∧ (badAsk.chan 0).opened = none) ∧
    (let d := chan0 (fun (c : Chan) => { c with ver := 0 }) (asking 2 [] run); asksB d (ask 2 []) = true ∧ (d.chan 0).ver = 0) ∧
    (let d := asking 0x22 [] run; asksB d (ask 0x22 []) = true ∧ (d.chan 0).ver = 2 ∧ 2 < 3) ∧
    (let d := asking 9 [] run; let e := { d with boot := { d.boot with recovery := true } }
     asksB e (ask 9 []) = true ∧ (e.chan 0).opened = none ∧ e.boot.recovery = true) ∧
    (asksB (asking 1 [1, 200] run) (ask 1 [1, 200]) = true ∧ asksB (asking 1 [5, 200] run) (ask 1 [5, 200]) = true ∧
      asksB (asking 0 [] run) (ask 0 []) = true ∧ 0 ∉ knownCodes ∧ 1 ∈ knownCodes) := by decide +kernel

/-- The body of a read with a destination of 64 bytes in host memory. -/
def toHost (head : List Byte) : List Byte := head ++ (le 4 0 ++ le 4 64 ++ le 8 4096)

/-- One counter that KIND 1 names. -/
def snapBody : List Byte := toHost [] ++ (le 2 1 ++ le 2 0) ++ (le 2 1 ++ le 2 0 ++ le 4 0 ++ le 4 1)

theorem witness_reads :
    (asked (asking 2 [] owned) 2 1 (ask 2 []) = true ∧ ((asking 2 [] owned).boot.loaded.map fun l => l.hdr.version) = some 7 ∧
      asked (asking 3 (le 4 4) owned) 3 1 (ask 3 (le 4 4)) = true ∧ asked (asking 8 [] owned) 8 1 (ask 8 []) = true ∧
      (let d := later (60 * 10 ^ 9) (chan0 (fun (c : Chan) => { c with nonce := some ⟨[], 0⟩ }) owned)
       (d.chan 0).nonce = some ⟨[], 0⟩ ∧ 0 + 60 * 10 ^ 9 ≤ d.now ∧ (later 5 d).now < 0 + 60 * 10 ^ 9) ∧ (owned.chan 0).nonce = none) ∧
    (let b := toHost (le 2 0x9000 ++ le 2 0 ++ le 4 8191 ++ le 4 1)
     let d := asking 5 b owned
     asked d 5 1 (ask 5 b) = true ∧ d.dmaReady = true ∧ b.length = 28 ∧ fromLe (slice b 0 2) = 0x9000 ∧ fromLe (slice b 2 2) = 0 ∧
       fromLe (slice b 4 4) = 8191 ∧ fromLe (slice b 8 4) = 1 ∧ descriptor (slice b 12 16) false false = some (0, 64, 4096) ∧
       (dumpShape 0x9000).isSome = true ∧ ((dumpShape 0x9000).all fun w => decide (8191 + 1 ≤ w.1) && decide (4 * w.2 * 1 ≤ 64)) = true) ∧
    (let b := toHost (le 1 3 ++ le 3 0 ++ le 4 7 ++ le 4 9)
     let d := asking 6 b owned
     asked d 6 1 (ask 6 b) = true ∧ b.length = 28 ∧ fromLe (slice b 0 1) = 3 ∧ fromLe (slice b 1 3) = 0 ∧ fromLe (slice b 4 4) = 7 ∧
       fromLe (slice b 8 4) = 9 ∧ descriptor (slice b 12 16) false false = some (0, 64, 4096) ∧
       ((((d.logSource 3).filter fun x => decide (7 ≤ x.seq)).take 9).flatMap LogEnt.bytes).length ≤ 64) ∧
    (let b := le 4 0 ++ le 4 65536 ++ le 8 4096
     let d := asking 9 b { owned with host := { owned.host with dir := [(1, 1), (9, 183)] } }
     asked d 9 1 (ask 9 b) = true ∧ b.length = 16 ∧ descriptor b false false = some (0, 65536, 4096) ∧
       (d.host.dir.flatMap fun x => match ctrRow x.2 with | some c => dirRecord x.1 c | none => []).length ≤ 65536) := by decide +kernel

theorem witness_snapshot :
    (let d := asking 4 snapBody (hbm owned)
     let e := asking 4 snapBody owned
     let b := asking 4 snapBody ((hbm owned).setFlag Reg.REAM_SNAP_STATUS.BUSY true)
     asked d 4 1 (ask 4 snapBody) = true ∧ descriptor (slice snapBody 0 16) false false = some (0, 64, 4096) ∧
       snapItems snapBody = some [(1, 0, 1)] ∧ d.flag Reg.REAM_SNAP_STATUS.BUSY = false ∧ d.hbmUp 0 = true ∧
       asked e 4 1 (ask 4 snapBody) = true ∧ e.hbmUp 0 = false ∧ e.hbmUp 1 = false ∧ asked b 4 1 (ask 4 snapBody) = true ∧
       b.flag Reg.REAM_SNAP_STATUS.BUSY = true) ∧
    (let x : SnapReq := { chan := 0, tag := 7, kind := 0, length := 128, addr := 4096, items := [(1, 0, 1)] }
     let d := { owned with host := { owned.host with snapReq := some x } }
     owned.host.snapReq = none ∧ d.host.snapReq = some x ∧ x.kind = 0 ∧ d.dmaReady = true ∧
       (d.snapHead (d.snapIds x.items).length ++ (d.snapIds x.items).flatMap d.snapEntry).length ≤ x.length) ∧
    (let j : DmaJob := { chan := 0, code := 4, tag := 7, kind := 0, length := 64, addr := 4096, bytes := [1] }
     let d := chan0 (fun (c : Chan) => { c with opened := some ⟨4, 7⟩ }) { owned with host := { owned.host with jobs := [j] } }
     d.supRunning = true ∧ d.host.jobs.find? (fun (x : DmaJob) => x.chan == 0) = some j ∧ (d.chan 0).opened = some ⟨j.code, j.tag⟩ ∧
       d.mbFull 4 = false ∧ owned.host.jobs = [] ∧ owned.standing 0 = none ∧ up.supRunning = false ∧ j.chan < 4) := by decide +kernel

theorem witness_module_read :
    (let b := [63, 0, 0, 0, 128]
     let d := asking 7 b owned
     let e := cage 63 4 d
     asked d 7 2 (ask 7 b) = true ∧ d.moduleBusFree 0 = true ∧ moduleReadBad b = false ∧ fromLe (slice b 0 1) = 63 ∧
       d.flag (Reg.MODL_CAGE_STATUS.PRESENT 63) = false ∧ asked e 7 2 (ask 7 b) = true ∧ e.cageUp 63 = true ∧ e.moduleBusFree 0 = true ∧
       (let g := d.setMbus (busOf 63) { d.mbus (busOf 63) with retry := some (0, 0, 0) }; g.moduleBusFree 0 = false)) := by decide +kernel

/-- The body of a signed request: REALM_ID, DEV_NUM, SIGNER 0, nonce, ARGS, and a signature that the neutral key accepts. -/
def signedBody (args : Nat) : List Byte := le 4 0 ++ le 2 0 ++ le 2 0 ++ le 16 99 ++ le 8 args ++ edSig

/-- A signed request on a channel of version 3 with its nonce. -/
def signing (code args : Nat) (d : Dev) : Dev :=
  chan0 (fun (c : Chan) => { c with ver := 3, nonce := some ⟨le 16 99, 0⟩ }) (asking code (signedBody args) d)

/-- What `Dev.asksSigned` asks. -/
def asksSignedB (d : Dev) (code args : Nat) : Bool :=
  asked d code 3 (ask code (signedBody args)) && (signedBody args).length == 96 && fromLe (slice (signedBody args) 7 1) == 0 &&
    fromLe (slice (signedBody args) 6 1) == 0 && d.signedOk (ask code (signedBody args)) &&
    (d.chan 0).nonce == some ⟨slice (signedBody args) 8 16, 0⟩ && d.nonceLive ⟨[], 0⟩ && fromLe (slice (signedBody args) 24 8) == args

/-- A supervisor pair of which SUP-B is ready. -/
def ready2 (d : Dev) : Dev := (d.wr (Reg.SUPV_CORE_STATUS.ROLE 1) 2).setFlag (Reg.SUPV_CORE_STATUS.STANDBY_READY 1) true

theorem witness_signed :
    (let d := signing 0x21 0 (ready2 owned)
     asksSignedB d 0x21 0 = true ∧ d.activeSup = some 0 ∧ d.standbySup = some 1 ∧ d.flag (Reg.SUPV_CORE_STATUS.STANDBY_READY 1) = true ∧
       d.supv.ckpts = [] ∧ (signing 0x21 0 owned).standbySup = none) ∧
    (asksSignedB (signing 0x22 9 owned) 0x22 9 = true ∧ asksSignedB (signing 0x23 0 owned) 0x23 0 = true) ∧
    (let d := chan0 (fun (c : Chan) => { c with nonce := some ⟨le 16 98, 0⟩ }) (signing 0x23 0 owned)
     asked d 0x23 1 (ask 0x23 (signedBody 0)) = true ∧ (⟨le 16 98, 0⟩ : Nonce).bytes ≠ slice (signedBody 0) 8 16) ∧
    (let e := signing 0x23 0 { owned with boot := { owned.boot with fuses := { owned.boot.fuses with devnum := 3 } } }
     asked e 0x23 1 (ask 0x23 (signedBody 0)) = true ∧ e.signedOk (ask 0x23 (signedBody 0)) = false ∧
       (e.chan 0).nonce = some ⟨slice (signedBody 0) 8 16, 0⟩ ∧ e.nonceLive ⟨le 16 99, 0⟩ = true) ∧
    (let b := edId ++ le 4 7 ++ le 2 5 ++ le 2 0 ++ le 32 9 ++ edSig
     let d := asking 0x25 b run
     let e := { d with boot := { d.boot with recovery := true } }
     asksB d (ask 0x25 b) = true ∧ d.boot.recovery = false ∧ asksB e (ask 0x25 b) = true ∧ e.unprovisioned = true ∧ b.length = 136 ∧
       fromLe (slice b 38 2) = 0 ∧ ed25519Verify (slice b 0 32) (slice b 0 72) (slice b 72 64) = true ∧ (e.chan 0).ver = 2) := by
  decide +kernel

theorem witness_segment :
    (let f : SupFrame := ⟨255, [3], [1]⟩
     let d := { run with vat := { run.vat with supFrames := [f] } }
     up.supRunning = false ∧ d.supRunning = true ∧ d.vat.supFrames[0]? = some f ∧ f.port ≠ 256 ∧ f.port ≠ 257 ∧ d.vat.supFrames[1]? = none) ∧
    (let b := be 6 0xFFFFFFFFFFFF ++ be 6 5 ++ be 2 0x88B5 ++ (le 1 2 ++ le 1 0 ++ le 1 2 ++ le 1 0 ++ le 4 7 ++ le 4 0 ++ le 2 1 ++ le 2 0) ++ [9] ++ le 4 0
     let f : SupFrame := ⟨257, [3], b⟩
     let d := { run with vat := { run.vat with supFrames := [f] } }
     d.vat.supFrames[0]? = some f ∧ d.flollinaFrame f.bytes = true ∧ 34 ≤ f.bytes.length ∧ d.chan (mgChan 1 5) = Chan.zero ∧
       fromBe (slice b 6 6) = 5 ∧ fromLe (slice b 15 1) = 0 ∧ fromLe (slice b 22 4) = 0 ∧ fromLe (slice b 26 2) ≤ min 1440 (b.length - 34)) := by
  decide +kernel

theorem witness_mailboxes :
    (3 < 4 ∧ run.host.pcieLink = false ∧ (dma run).host.pcieLink = true ∧ (dma run).mbFull 3 = false ∧
      ((dma run).setFlag (Reg.HOST_MB_CTRL.FULL 3) true).mbFull 3 = true ∧ (0x20 : Nat) ≠ 1) ∧
    (15 < 16 ∧ 0x11 ∈ mbSenders 15 ∧ run.mbFull 15 = false ∧ (run.setFlag (Reg.HOST_MB_CTRL.FULL 15) true).mbFull 15 = true ∧
      0x20 ∉ mbSenders 15 ∧ 0x20 ∈ mbReceivers 15 ∧ run.reaches 0x20 = true ∧ 0x10 ∉ mbReceivers 15 ∧ replyChan 3 = none) ∧
    (let d := (run.setChan 3 { Chan.zero with outbox := [5] }).setFlag (Reg.HOST_MB_CTRL.FULL 7) true
     let e := dma d
     1 ∈ mbReceivers 7 ∧ e.reaches 1 = true ∧ e.activeSup = some 0 ∧ (e.chan 3).outbox ≠ []) := by decide +kernel

theorem witness_registers :
    (findReg 2 = none ∧ 2 % 4 ≠ 0 ∧ (7 : Nat) ≠ 15) ∧
    (let a := Reg.EGRS_AGE_LIMIT.addr 257 7
     ((findReg a).map fun x => x.1.name) = some "EGRS_AGE_LIMIT" ∧ a % 4 = 0 ∧ portOfAddr a = none ∧ run.reaches 0x10 = true ∧
       run.pathBroken 0x10 a true 5 = false) ∧
    (run.privileged 1 = false ∧ run.privileged 0x10 = true ∧ run.flag (Reg.HOST_BEC_CFG.EN 15) = false ∧ 15 < 16) ∧
    (let d := run.wr (Reg.REAM_WIN_SEL.ID 7) (2 ^ 20)
     (d.counterOf (d.rd (Reg.REAM_WIN_SEL.ID 7))).isSome = true ∧ d.reaches 0x10 = true ∧ (dma d).reaches 1 = true ∧
       (dma d).privileged 1 = false ∧ run.counterOf (run.rd (Reg.REAM_WIN_SEL.ID 7)) = none) := by decide +kernel

theorem witness_debug :
    (run.hold.live = true ∧ run.host.dbgBlock = none ∧ run.responseOk = false ∧
      (let d := { owned with host := { owned.host with dbgBlock := some 0 } }
       d.host.dbgBlock = some 0 ∧ d.now < 0 + 10 ^ 9 ∧ 0 + 10 ^ 9 ≤ (later (10 ^ 9) d).now)) ∧
    (let d := { owned with host := { owned.host with dbgChal := true } }
     let d := (d.wr (Reg.HOST_DBG_RESP.DATA 0) 1)
     d.responseOk = true) := by decide +kernel

theorem witness_pcie :
    run.hold.live = true ∧ run.host.jobs = [] ∧
    (let j : DmaJob := { chan := 3, code := 4, tag := 7, kind := 0, length := 64, addr := 4096, bytes := [1] }
     let d := owned.setChan 3 { Chan.zero with opened := some ⟨4, 7⟩ }
     let d := { d with host := { d.host with jobs := [j] } }
     d.host.jobs = [j] ∧ j.chan < 4 ∧ (d.chan j.chan).opened = some ⟨j.code, j.tag⟩ ∧ d.supRunning = true ∧ d.mbFull 7 = false) := by
  decide +kernel

/-! ### Witnesses: resets, power tokens, audits, invariants -/

/-- The power state replaced. -/
def withPower (d : Dev) (f : PowerSt → PowerSt) : Dev := { d with power := f d.power }

theorem witness_resets :
    (run.hold.pwrGood = true ∧ Dev.zero.hold.pwrGood = false ∧ 3 < 4 ∧ 1 < 2 ∧ run.hold.live = true) ∧
    (let d := run.setFlag Reg.PWCK_CLK_STATUS.REFCLK_LOST true
     d.flag Reg.PWCK_CLK_STATUS.REFCLK_LOST = true ∧ run.flag Reg.PWCK_CLK_STATUS.REFCLK_LOST = false) ∧
    (let d := run.setBitOf Reg.PWCK_CLK_STATUS.SREF_LOST 7 true
     8 ≤ 8 ∧ 7 < 8 ∧ d.bitOf Reg.PWCK_CLK_STATUS.SREF_LOST 7 = true ∧ run.bitOf Reg.PWCK_CLK_STATUS.SREF_LOST 7 = false ∧
       ((srefPorts 7).all fun p => !run.flag (Reg.PORT_STATUS.LINK_UP p)) = true) := by decide +kernel

/-- The core voltage has been applied. -/
def applied : Dev := run.setFlag Reg.PWCK_AVS.APPLIED true

/-- A request of `n` tokens of rail 5. -/
def wants (h level n : Nat) : TokReq := { holder := h, level := level, tokens := [(5, n)], short := [] }

theorem witness_tokens :
    (let s := run.rd Reg.PWCK_AVS.SETPOINT_MV
     let d := run.wr Reg.PWCK_AVS.VOUT_MV s
     d.hold.live = true ∧ d.rd Reg.PWCK_AVS.VOUT_MV = d.rd Reg.PWCK_AVS.SETPOINT_MV ∧ s + 5 ≤ d.rd Reg.PWCK_AVS.SETPOINT_MV + 5 ∧
       run.rd Reg.PWCK_AVS.VOUT_MV ≠ s) ∧
    (let d := withPower applied fun (p : PowerSt) => { p with waiting := [wants 95 1 4] }
     let e := withPower applied fun (p : PowerSt) => { p with waiting := [wants 95 1 1000000] }
     let b := withPower applied fun (p : PowerSt) => { p with waiting := [wants 95 1 4, wants 94 0 1000000] }
     run.flag Reg.PWCK_AVS.APPLIED = false ∧ d.flag Reg.PWCK_AVS.APPLIED = true ∧ d.power.holds = [] ∧ (wants 95 1 4).level < 4 ∧
       d.railFits 1 5 4 = true ∧ e.shortRails (wants 95 1 1000000) ≠ [] ∧ b.shortRails (wants 94 0 1000000) ≠ [] ∧
       b.power.waiting = [wants 95 1 4, wants 94 0 1000000]) ∧
    (let x : TokHold := { holder := 83, level := 1, tokens := [(5, 4)], rampAt := 0, rampEnd := some 9, fallEnd := none }
     let y : TokHold := { x with rampEnd := none }
     let z : TokHold := { y with fallEnd := some 9 }
     let d := later 9 (withPower run fun (p : PowerSt) => { p with holds := [x] })
     let e := later 9 (withPower (run.wr (Reg.PWCK_DOM_STATUS.STATE 83) 1) fun (p : PowerSt) => { p with holds := [y], goodAt := [(83, 9)] })
     let f := later 9 (withPower run fun (p : PowerSt) => { p with holds := [z] })
     d.hold_ 83 = some x ∧ x.rampEnd = some 9 ∧ 9 ≤ d.now ∧ (later 8 d).now < 9 ∧ run.hold_ 83 = none ∧ f.power.holds = [z] ∧ z.fallEnd = some 9 ∧
       e.rd (Reg.PWCK_DOM_STATUS.STATE 83) = 1 ∧ e.hold_ 83 = some y ∧ y.rampEnd = none ∧ tget e.power.goodAt 0 83 ≤ e.now ∧
       (let g := e.setBitOf Reg.SEAL_CFG.CLU_EN 3 true; g.bitOf Reg.SEAL_CFG.CLU_EN 3 = true ∧ tget g.deck.faultAt 0 3 = 0)) := by decide +kernel

/-- The audit unit runs, and a comparison of `t` has had its time. -/
def auditing (t : List AuditTerm) (o : List AuditOpen) : Dev :=
  let d := later 1500000 (run.setFlag Reg.DEV_AUDIT_STATUS.RUNNING true)
  { d with audit := { d.audit with terms := t, checkAt := 1000000, comparing := true, opens := o } }

theorem witness_audits :
    (let d := later 1000000 (run.setFlag Reg.DEV_AUDIT_STATUS.RUNNING true)
     run.flag Reg.DEV_AUDIT_STATUS.RUNNING = false ∧ d.flag Reg.DEV_AUDIT_STATUS.RUNNING = true ∧ d.audit.comparing = false ∧
       (d.audit.checkAt - d.fab.relAt) / 10 ^ 6 < (d.now - d.fab.relAt) / 10 ^ 6 ∧
       ((later 999999 d).now - d.fab.relAt) / 10 ^ 6 ≤ (d.audit.checkAt - d.fab.relAt) / 10 ^ 6) ∧
    (let t : AuditTerm := { check := 1, loc := 255, expected := 5, found := 7 }
     let s : AuditTerm := { check := 1, loc := 255, expected := 5, found := 5 }
     let o : AuditOpen := ⟨1, 255, 2, 0⟩
     let d := auditing [t] []
     d.hold.live = true ∧ d.audit.comparing = true ∧ d.audit.checkAt + 500000 ≤ d.now ∧ (later 1499999 d).now < d.audit.checkAt + 500000 ∧
       d.audit.terms = [t] ∧ t.expected ≠ t.found ∧ d.audit.opens = [] ∧ (auditing [s] []).audit.opens = [] ∧ s.expected = s.found ∧
       (auditing [s] [o]).audit.opens = [o] ∧ o.check = s.check ∧ o.loc = s.loc ∧ (auditing [t] [o]).audit.opens = [o] ∧
       o.diff = (t.found : Int) - t.expected ∧ d.flag Reg.DEV_AUDIT_ERR.VALID = false ∧
       (d.setFlag Reg.DEV_AUDIT_ERR.VALID true).flag Reg.DEV_AUDIT_ERR.VALID = true) := by decide +kernel

/-- The premises of the invariants hold after a step that changes the state, and of a device in which frames and copies stand. -/
theorem witness_invariants :
    (∃ t, step ⟨run, [.sensorSample 23 (some 5)]⟩ = .next t ∧ run.tidy = true ∧ t.dev ≠ run) ∧
    (queues [queuedCopy 4 7 run] run).fresh := by
  refine ⟨⟨_, rfl, by decide +kernel, by decide +kernel⟩, ?_⟩
  unfold Dev.fresh
  decide +kernel

/-- The bases and pairs that statements about time ask for are there, and a device may be held in reset with a command waiting. -/
theorem witness_step : run.time.tb.length = 8 ∧ run.time.pair.length = 4 ∧ run.hold.live = true ∧ Dev.zero.hold.live = false := by decide

/-! ### Single steps and operations, their results taken from the worked examples of spec/ and from published test vectors -/

/-- R32 as the model reads it: an idle step is one nanosecond. -/
theorem test_idle : step ⟨up, []⟩ = .next ⟨Dev.tick up, []⟩ ∧ (Dev.tick up).now = 1 := ⟨rfl, by decide +kernel⟩

/-- Time zero (R44): the straps are sampled and the start is counted. -/
theorem test_power_good :
    (match step ⟨Dev.zero, [.pwrGoodRise 2 1]⟩ with
      | .next t => t.pending.isEmpty && t.dev.hold.pwrGood && t.dev.rd Reg.DEV_STRAP.BOOT_SEL == 2 && t.dev.rd Reg.DEV_STRAP.NVM_MODE == 1 &&
          t.dev.boot.bootCount == 1 && t.dev.phase == 0
      | _ => false) = true := by decide +kernel

/-- The registers of port 150 (the example of spec/01_architecture.md). -/
theorem test_addresses :
    groupOf 150 = 37 ∧ pipeOf 150 = 2 ∧ Reg.PORT_CFG.addr 150 = 0x01256000 ∧ Reg.EGRS_PORT_SCHED.addr 150 = 0x09256000 := by decide

/-- The meter of spec/07_streams.md: colours of the five frames and both buckets after them. -/
theorem test_meter :
    (let d := hold1 (streamFrame .identify (some 9300) run) run
     let f := { streamFrame .identify (some 9300) run with bytes := List.replicate 1480 0 }
     let tid (w : Nat) (v : Nat) (d : Dev) : Dev := d.setTabW 0x5031 9300 w (BitVec.ofNat 32 v)
     let d := tid 1 20 (tid 2 10000 (tid 3 5000 (tid 4 3000 (tid 5 2000 d))))
     let r := [0, 100000, 200000, 300000, 1500000].foldl (fun (a : List (Nat × Nat × Nat) × Dev) t =>
       let x := (later t a.2).meterRun f 9300
       let m := tget x.2.strm.meter Meter.full 9300
       (a.1 ++ [(x.1, 3000 * 65536 - m.c, 2000 * 65536 - m.e)], x.2)) (([], d) : List (Nat × Nat × Nat) × Dev)
     r.1 = [(0, 1500 * 65536, 2000 * 65536), (0, 125 * 65536, 2000 * 65536), (1, 250 * 65536, 500 * 65536), (2, 375 * 65536, 36864000),
       (0, 375 * 65536, 86016000)]) := by decide +kernel

/-- The duplicate-discard window of spec/08_redundancy.md: passed, RECOV_SEQ and the history after each copy. -/
theorem test_recovery :
    (([(0, 1000), (3, 1000), (20, 1002), (22, 1001), (23, 1002), (25, 1001), (40, 1300), (700000, 0), (700100, 1)].foldl
      (fun (a : List (Bool × Nat × Nat) × Dev) x =>
        let r := (later (1000 * x.1) a.2).vectorRecover 20500 400 x.2
        (a.1 ++ [(r.1, (r.2.rcv 20500).recov, (r.2.rcv 20500).hist)], r.2)) (([], run) : List (Bool × Nat × Nat) × Dev)).1) =
      [(true, 1000, 1), (false, 1000, 1), (true, 1002, 5), (true, 1002, 7), (false, 1002, 7), (false, 1002, 7), (false, 1002, 7), (true, 0, 1),
        (true, 1, 3)] := by decide +kernel

/-- The pointers of spec/11_fabric.md on plane 3, over three slots. -/
theorem test_matching :
    (let g (i : Nat) : Nat := 64 * 3 + i
     let d := { run with fab := { run.fab with gptr := [(g 7, 5)], aptr := [(g 1, 9), (g 5, 8)] } }
     let reqs := [(1, 7), (1, 9), (2, 7), (5, 7), (5, 9)]
     let a := d.matchPlane 3 reqs
     let b := a.1.matchPlane 3 reqs
     let c := b.1.matchPlane 3 reqs
     a.2 = [(5, 7), (1, 9)] ∧ a.1.fab.gptr = [(g 7, 6), (g 9, 2)] ∧ a.1.fab.aptr = [(g 1, 10), (g 5, 8)] ∧
     b.2 = [(1, 7), (5, 9)] ∧ b.1.fab.gptr = [(g 7, 2), (g 9, 6)] ∧ b.1.fab.aptr = [(g 1, 8), (g 5, 10)] ∧
     c.2 = [(2, 7), (1, 9)] ∧ c.1.fab.gptr = [(g 7, 3), (g 9, 2)] ∧ c.1.fab.aptr = [(g 1, 10), (g 2, 8), (g 5, 10)]) := by decide +kernel

/-- The short times of spec/13_time.md: cases A, B and C. -/
theorem test_short_time :
    shortDiff 0x00100000 0xFFF00000 = 2097152 ∧ shortDiff 0x000E0000 0xFFF00000 = 1966080 ∧ shortDiff 0x90000001 0x10000000 = -2147483647 := by
  decide

/-- Temperature in quarter degrees (R342): 105 C is at the reset threshold, 104.75 C is not. -/
theorem test_thermal_warning :
    (match step ⟨run, [.sensorSample 23 (some 420)]⟩ with
      | .next t => t.dev.flag Reg.SUPV_THERM_STATUS.WARN && t.dev.rd Reg.SUPV_THERM_STATUS.MAX_SENSOR == 23
      | _ => false) = true ∧
    (match step ⟨run, [.sensorSample 23 (some 419)]⟩ with
      | .next t => !t.dev.flag Reg.SUPV_THERM_STATUS.WARN
      | _ => false) = true := by decide +kernel

/-- The check value of the CRC over "123456789" without reflection (CRC-32/BZIP2 before its final inversion). -/
theorem test_crc : crc32 0xFFFFFFFF ([0x31, 0x32, 0x33, 0x34, 0x35, 0x36, 0x37, 0x38, 0x39] : List Byte) = 0xFC891918 ^^^ 0xFFFFFFFF := by
  decide +kernel

/-- SHA-256 and SHA-512 of "abc" (FIPS 180-4). -/
theorem test_sha :
    sha256 [0x61, 0x62, 0x63] = be 32 0xba7816bf8f01cfea414140de5dae2223b00361a396177a9cb410ff61f20015ad ∧
    sha512 [0x61, 0x62, 0x63] = be 64 0xddaf35a193617abacc417349ae20413112e6fa4e89a97ea20a9eeee64b55d39a2192992a274fc1a836ba3c23a3feebbd454d4423643ce80e2a9ac94fa54ca49f := by
  decide +kernel

/-- Test 2 of RFC 8032. -/
theorem test_ed25519 :
    ed25519Verify (be 32 0x3d4017c3e843895a92b70aa74d1b7ebc9c982ccf2ec4968cc0cd55f12af4660c) [0x72]
      (be 64 0x92a009a9f0d4cab8720e820b5f642540a2b27b5416503f8fb3762223ebdb69da085ac1e43e15996e458f3613d0f11d8c387b2eaeb4302aeeb00d291612bb0c00) =
      true ∧
    ed25519Verify (be 32 0x3d4017c3e843895a92b70aa74d1b7ebc9c982ccf2ec4968cc0cd55f12af4660c) [0x73]
      (be 64 0x92a009a9f0d4cab8720e820b5f642540a2b27b5416503f8fb3762223ebdb69da085ac1e43e15996e458f3613d0f11d8c387b2eaeb4302aeeb00d291612bb0c00) =
      false := by decide +kernel

/-- Test case 2 of RFC 4231. -/
theorem test_hmac :
    hmacSha256 [0x4a, 0x65, 0x66, 0x65] ("what do ya want for nothing?".toUTF8.toList.map fun b => BitVec.ofNat 8 b.toNat) =
      be 32 0x5bdcc146bf60754e6a042426089575c75a003f089d2739839dec58b964ec3843 := by decide +kernel

/-- Test case 14 of the GCM specification: a zero key of 256 bits, a zero nonce and a block of zeros. -/
theorem test_gcm :
    gcmOpen (le 32 0) (le 12 0) [] (be 16 0xcea7403d4d606b6e074ec5d3baf39d18) (be 16 0xd0d1c8a799996bf0265b98b5d48ab919) = some (le 16 0) := by
  decide +kernel

end Sys2Proof.Tests
end

/-! PROOFS about resets, clock losses and register accesses (R399, R411; R15 to R17, R363, R377 to R379). First the shared rules, then the
two developments with the statements they settle. -/

namespace Sys2Proof.Machine

/-! ### Fields of registers that are the same -/

theorem Dev.rd_congr_reg {d e : Dev} {r : FRef} (h : e.reg r.addr = d.reg r.addr) : e.rd r = d.rd r := by rw [Dev.rd, h, Dev.rd]

theorem Dev.flag_congr_reg {d e : Dev} {r : FRef} (h : e.reg r.addr = d.reg r.addr) : e.flag r = d.flag r := by
  rw [Dev.flag, Dev.rd_congr_reg h, Dev.flag]

theorem Dev.bitOf_congr_reg {d e : Dev} {r : FRef} (h : e.reg r.addr = d.reg r.addr) (k : Nat) : e.bitOf r k = d.bitOf r k := by
  rw [Dev.bitOf, Dev.rd_congr_reg h, Dev.bitOf]

theorem Dev.ctr_congr {d e : Dev} (h : e.ctrs = d.ctrs) (c : Ctr) (i : Nat) : e.ctr c i = d.ctr c i := by
  rw [Dev.ctr, h, Dev.ctr]

theorem Dev.regData_congr {d e : Dev} {a : Nat} (h : e.reg a = d.reg a) : e.regData a = d.regData a := by
  rw [Dev.regData, h, Dev.regData]

theorem Dev.queued_congr {d e : Dev} (h : e.supv = d.supv) (r : LogRec) : e.queued r = d.queued r := by
  rw [Dev.queued, h, Dev.queued]

/-! ### What an operation leaves, and its frame -/

theorem Dev.reg_setFlag_ne (d : Dev) (r : FRef) (b : Bool) (a : Nat) (h : a ≠ r.addr) : (d.setFlag r b).reg a = d.reg a :=
  d.reg_wr_ne _ _ _ h

theorem Dev.reg_setBitOf_ne (d : Dev) (r : FRef) (k : Nat) (b : Bool) (a : Nat) (h : a ≠ r.addr) :
    (d.setBitOf r k b).reg a = d.reg a :=
  d.reg_wr_ne _ _ _ h

theorem Dev.wr_frame_eq (d : Dev) (r : FRef) (v : Nat) : d.wr r v = { d with regs := (d.wr r v).regs } := rfl

theorem Dev.setFlag_frame_eq (d : Dev) (r : FRef) (b : Bool) : d.setFlag r b = { d with regs := (d.setFlag r b).regs } := rfl

theorem Dev.setBitOf_frame_eq (d : Dev) (r : FRef) (k : Nat) (b : Bool) :
    d.setBitOf r k b = { d with regs := (d.setBitOf r k b).regs } := rfl

theorem Dev.cnt_frame_eq (d : Dev) (c : Ctr) (i : Nat) :
    d.cnt c i = { d with ctrs := (d.cnt c i).ctrs, ctrOvf := (d.cnt c i).ctrOvf } := rfl

theorem Dev.irq_frame_eq (d : Dev) (v : Nat) : d.irq v = { d with regs := (d.irq v).regs, wire := (d.irq v).wire } := by
  unfold Dev.irq
  split
  · rfl
  · dsimp only
    rw [Dev.setBitOf_frame_eq]
    split
    · rfl
    · rfl

theorem Dev.submit_frame_eq (d : Dev) (r : LogRec) :
    d.submit r = { d with ctrs := (d.submit r).ctrs, ctrOvf := (d.submit r).ctrOvf, supv := (d.submit r).supv } := by
  unfold Dev.submit
  split
  · rfl
  · rfl

/-- A record joins the log's queue or is counted as an overrun (R348). -/
theorem Dev.logQ_submit (d : Dev) (r : LogRec) : (d.submit r).supv.logQ = d.queued r := by
  unfold Dev.submit Dev.queued
  split
  · rfl
  · rfl

theorem Ctr.key_ne {c e : Ctr} (h : c.code ≠ e.code) (i j : Nat) : c.key i ≠ e.key j := by
  simp only [Ctr.key]
  omega

theorem Dev.ctr_submit (d : Dev) (r : LogRec) {c : Ctr} (hc : c.code ≠ Ctr.logOverrun.code) (i : Nat) :
    (d.submit r).ctr c i = d.ctr c i := by
  unfold Dev.submit
  split
  · rfl
  · exact d.ctr_cntBy_ne _ _ _ _ _ (Ctr.key_ne hc _ _)

/-! ### Commands on a live device -/

theorem State.on_live {d : Dev} (hl : d.hold.live = true) (q : List Instr) (f : Dev → Dev) :
    State.on ⟨d, q⟩ f = .next ⟨f d, q⟩ := by
  simp [State.on, State.always, hl]

/-! ### What the fall of a link leaves alone (R90, R411) -/

/-- An address that holds neither the clock status, nor a front group's status, nor a front port's status. -/
def offClocks (a : Nat) : Prop :=
  a ≠ Reg.PWCK_CLK_STATUS.addr ∧ (∀ g, g < 64 → a ≠ Reg.PORT_GRP_STATUS.addr g) ∧ ∀ n, n < 256 → a ≠ Reg.PORT_STATUS.addr n

theorem offClocks_of_zone {a : Nat} (h : a < 0x01000000 ∨ (0x02000000 ≤ a ∧ a < 0x0E000000)) : offClocks a := by
  refine ⟨?_, fun g hg => ?_, fun n hn => ?_⟩
  · simp only [Reg.PWCK_CLK_STATUS.addr]
    omega
  · simp only [Reg.PORT_GRP_STATUS.addr]
    omega
  · simp only [Reg.PORT_STATUS.addr, portBlock, hn, if_true]
    omega

theorem offClocks_pauseStat (n : Nat) : offClocks (Reg.PORT_PAUSE_STAT.addr n) := by
  refine ⟨?_, fun g hg => ?_, fun m hm => ?_⟩
  · simp only [Reg.PORT_PAUSE_STAT.addr, Reg.PWCK_CLK_STATUS.addr, portBlock]
    split <;> omega
  · simp only [Reg.PORT_PAUSE_STAT.addr, Reg.PORT_GRP_STATUS.addr, portBlock]
    split <;> omega
  · simp only [Reg.PORT_PAUSE_STAT.addr, Reg.PORT_STATUS.addr, portBlock, hm, if_true]
    split <;> omega

theorem offClocks_bankPend (p : Nat) : offClocks (Reg.BUFF_BANK_PEND.addr p) := by
  refine ⟨?_, fun g hg => ?_, fun m hm => ?_⟩
  · simp only [Reg.BUFF_BANK_PEND.addr, Reg.PWCK_CLK_STATUS.addr]
    omega
  · simp only [Reg.BUFF_BANK_PEND.addr, Reg.PORT_GRP_STATUS.addr]
    omega
  · simp only [Reg.BUFF_BANK_PEND.addr, Reg.PORT_STATUS.addr, portBlock, hm, if_true]
    omega

theorem portStatus_ne_clkStatus (n : Nat) : Reg.PORT_STATUS.addr n ≠ Reg.PWCK_CLK_STATUS.addr := by
  simp only [Reg.PORT_STATUS.addr, Reg.PWCK_CLK_STATUS.addr, portBlock]
  split <;> omega

theorem portStatus_ne_grpStatus (n g : Nat) : Reg.PORT_STATUS.addr n ≠ Reg.PORT_GRP_STATUS.addr g := by
  simp only [Reg.PORT_STATUS.addr, Reg.PORT_GRP_STATUS.addr, portBlock]
  split <;> omega

theorem dstGroup_lt (n : Nat) : dstGroup n < 64 := by
  unfold dstGroup
  split <;> omega

theorem offClocks_grpCredit (n : Nat) : offClocks (Reg.FABR_GRP_CREDIT.addr (dstGroup n)) :=
  offClocks_of_zone (by
    have := dstGroup_lt n
    simp only [Reg.FABR_GRP_CREDIT.addr]
    omega)

/-- `e` has of `d` the instant, the reset and clock conditions, the clock status, the status of the front groups and the losses
counted, and no front link that was down in `d` is up. -/
structure Dev.SameClocks (d e : Dev) : Prop where
  now : e.now = d.now
  hold : e.hold = d.hold
  clk : e.reg Reg.PWCK_CLK_STATUS.addr = d.reg Reg.PWCK_CLK_STATUS.addr
  grp : ∀ g, g < 64 → e.reg (Reg.PORT_GRP_STATUS.addr g) = d.reg (Reg.PORT_GRP_STATUS.addr g)
  lost : ∀ k, e.ctr .srefLossEvents k = d.ctr .srefLossEvents k
  down : ∀ n, n < 256 → d.flag (Reg.PORT_STATUS.LINK_UP n) = false → e.flag (Reg.PORT_STATUS.LINK_UP n) = false

/-- The first thing a fall does: LINK_UP clears and the fall counts (`Dev.linkFalls`). -/
def Dev.linkLost (d : Dev) (n : Nat) : Dev :=
  if d.flag (Reg.PORT_STATUS.LINK_UP n) then (d.cnt .linkDownEvents n).setFlag (Reg.PORT_STATUS.LINK_UP n) false else d

theorem Dev.flag_linkLost (d : Dev) (n : Nat) : (d.linkLost n).flag (Reg.PORT_STATUS.LINK_UP n) = false := by
  unfold Dev.linkLost
  split
  · exact Dev.flag_setFlag_same _ _ _ (Nat.le_refl 32) rfl
  · rename_i hf
    simpa using hf

namespace Dev.SameClocks

theorem refl (d : Dev) : d.SameClocks d := ⟨rfl, rfl, rfl, fun _ _ => rfl, fun _ => rfl, fun _ _ h => h⟩

section
variable {b d : Dev} (h : b.SameClocks d)
include h

theorem of_parts {e : Dev} (hn : e.now = d.now) (hh : e.hold = d.hold) (hr : ∀ a, ¬ offClocks a → e.reg a = d.reg a)
    (hc : ∀ k, e.ctr .srefLossEvents k = d.ctr .srefLossEvents k) : b.SameClocks e where
  now := hn.trans h.now
  hold := hh.trans h.hold
  clk := (hr _ fun x => x.1 rfl).trans h.clk
  grp g hg := (hr _ fun x => x.2.1 g hg rfl).trans (h.grp g hg)
  lost k := (hc k).trans (h.lost k)
  down n hn hd := (Dev.flag_congr_reg (hr _ fun x => x.2.2 n hn rfl)).trans (h.down n hn hd)

theorem of_eq {e : Dev} (hn : e.now = d.now) (hh : e.hold = d.hold) (hr : e.regs = d.regs) (hc : e.ctrs = d.ctrs) :
    b.SameClocks e :=
  h.of_parts hn hh (fun a _ => Dev.reg_congr hr a) (fun k => by rw [Dev.ctr, Dev.ctr, hc])

theorem setReg {a : Nat} (ha : offClocks a) (w : Word) : b.SameClocks (d.setReg a w) :=
  h.of_parts rfl rfl (fun _ hx => d.reg_setReg_ne _ _ _ fun e => hx (e ▸ ha)) (fun _ => rfl)

theorem wr {r : FRef} (ha : offClocks r.addr) (v : Nat) : b.SameClocks (d.wr r v) := h.setReg ha _
theorem setFlag {r : FRef} (ha : offClocks r.addr) (v : Bool) : b.SameClocks (d.setFlag r v) := h.wr ha _
theorem setBitOf {r : FRef} (ha : offClocks r.addr) (k : Nat) (v : Bool) : b.SameClocks (d.setBitOf r k v) := h.wr ha _

/-- A field of a port's status that is not LINK_UP, or LINK_UP cleared. -/
theorem wrPortStatus {r : FRef} {n v : Nat} (ha : r.addr = Reg.PORT_STATUS.addr n)
    (hr : r.lo + r.width ≤ 31 ∨ (r.lo = 31 ∧ r.width = 1 ∧ v = 0)) : b.SameClocks (d.wr r v) where
  now := h.now
  hold := h.hold
  clk := (d.reg_wr_ne _ _ _ (ha ▸ (portStatus_ne_clkStatus n).symm)).trans h.clk
  grp g hg := (d.reg_wr_ne _ _ _ (ha ▸ (portStatus_ne_grpStatus n g).symm)).trans (h.grp g hg)
  lost := h.lost
  down m hm hd := by
    have hdown := h.down m hm hd
    by_cases hx : (Reg.PORT_STATUS.LINK_UP m).addr = r.addr
    · rcases hr with hr | ⟨hlo, hwd, rfl⟩
      · rwa [Dev.flag, d.rd_wr_disjoint _ _ _ (by omega) hx (.inr hr)]
      · have he : Reg.PORT_STATUS.LINK_UP m = r := by
          cases r
          simp_all [Reg.PORT_STATUS.LINK_UP]
        rw [he, Dev.flag, d.rd_wr_same _ _ (by omega), Nat.zero_mod]
        rfl
    · rwa [Dev.flag, d.rd_wr_ne _ _ _ hx]

theorem setPortFlag {r : FRef} {n : Nat} (ha : r.addr = Reg.PORT_STATUS.addr n) (hr : r.lo + r.width ≤ 31) (v : Bool) :
    b.SameClocks (d.setFlag r v) := h.wrPortStatus ha (.inl hr)

theorem clearLinkUp (n : Nat) : b.SameClocks (d.setFlag (Reg.PORT_STATUS.LINK_UP n) false) :=
  h.wrPortStatus (n := n) rfl (.inr ⟨rfl, rfl, rfl⟩)

theorem cntBy {c : Ctr} (hc : c.code ≠ Ctr.srefLossEvents.code) (i n : Nat) : b.SameClocks (d.cntBy c i n) :=
  h.of_parts rfl rfl (fun _ _ => rfl) (fun _ => d.ctr_cntBy_ne _ _ _ _ _ (Ctr.key_ne (Ne.symm hc) _ _))

theorem cnt {c : Ctr} (hc : c.code ≠ Ctr.srefLossEvents.code) (i : Nat) : b.SameClocks (d.cnt c i) := h.cntBy hc _ _
theorem dropCount (r : Nat) : b.SameClocks (d.dropCount r) := h.cnt (by decide) _
theorem out (o : Out) : b.SameClocks (d.out o) := h.of_eq rfl rfl rfl rfl

theorem foldl {α : Type} {f : Dev → α → Dev} {l : List α} (hf : ∀ d x, x ∈ l → b.SameClocks d → b.SameClocks (f d x)) :
    b.SameClocks (l.foldl f d) :=
  List.foldlRecOn l f h fun d hd x hx => hf d x hx hd

/-! Interrupts, alarms and the log. -/

theorem irq (v : Nat) : b.SameClocks (d.irq v) :=
  h.of_parts (by simp) (by simp)
    (fun a ha => d.reg_irq_ne v a fun e => ha (e ▸ offClocks_of_zone (by decide))) (by simp)

theorem alarm (g k : Nat) : b.SameClocks (d.alarm g k) :=
  h.of_parts (by simp) (by simp)
    (fun a ha => d.reg_alarm_ne g k a (fun e => ha (e ▸ offClocks_of_zone (by decide)))
      fun e => ha (e ▸ offClocks_of_zone (by decide))) (by simp)

theorem submit (r : LogRec) : b.SameClocks (d.submit r) := by
  unfold Dev.submit
  split
  · exact h.of_eq rfl rfl rfl rfl
  · exact (h.cnt (c := .logOverrun) (by decide) 0).of_eq rfl rfl rfl rfl

theorem log (typ unit : Nat) (data : List Byte) : b.SameClocks (d.log typ unit data) := h.submit _

/-! Frames, copies, banks. -/

theorem setPath (x : PathSt) : b.SameClocks { d with path := x } := h.of_eq rfl rfl rfl rfl
theorem setLook (x : LookupSt) : b.SameClocks { d with look := x } := h.of_eq rfl rfl rfl rfl
theorem setRed (x : RedundSt) : b.SameClocks { d with red := x } := h.of_eq rfl rfl rfl rfl
theorem setDeck (x : DeckleSt) : b.SameClocks { d with deck := x } := h.of_eq rfl rfl rfl rfl
theorem setVat (x : VatSt) : b.SameClocks { d with vat := x } := h.of_eq rfl rfl rfl rfl
theorem setFab (x : FabricSt) : b.SameClocks { d with fab := x } := h.of_eq rfl rfl rfl rfl
theorem setPower (x : PowerSt) : b.SameClocks { d with power := x } := h.of_eq rfl rfl rfl rfl
theorem setFrame (f : Frame) : b.SameClocks (d.setFrame f) := h.of_eq rfl rfl rfl rfl
theorem delFrame (i : Nat) : b.SameClocks (d.delFrame i) := h.of_eq rfl rfl rfl rfl
theorem setCopy (c : Copy) : b.SameClocks (d.setCopy c) := h.of_eq rfl rfl rfl rfl
theorem delCopy (i : Nat) : b.SameClocks (d.delCopy i) := h.of_eq rfl rfl rfl rfl
theorem deliver (n m : Nat) : b.SameClocks (d.deliver n m) := h.of_eq rfl rfl rfl rfl
theorem clearTx (i : Nat) : b.SameClocks (d.clearTx i) := h.of_eq rfl rfl rfl rfl
theorem setBank (p : Nat) (x : Bank) : b.SameClocks (d.setBank p x) := h.of_eq rfl rfl rfl rfl
theorem setPortSt (n : Nat) (s : PortSt) : b.SameClocks (d.setPortSt n s) := h.of_eq rfl rfl rfl rfl
theorem setPauseSt (n c : Nat) (s : PauseSt) : b.SameClocks (d.setPauseSt n c s) := h.of_eq rfl rfl rfl rfl
theorem addEc (p m c k : Nat) : b.SameClocks (d.addEc p m c k) := h.of_eq rfl rfl rfl rfl
theorem subEc (p m c k : Nat) : b.SameClocks (d.subEc p m c k) := h.of_eq rfl rfl rfl rfl
theorem setVatHalf (v s : Nat) (f : FreeList) : b.SameClocks (d.setVatHalf v s f) := h.of_eq rfl rfl rfl rfl

theorem reap (i : Nat) : b.SameClocks (d.reap i) := by
  unfold Dev.reap
  split
  · split
    · exact h.delFrame _
    · exact h
  · exact h

theorem auditLost (loc n : Nat) : b.SameClocks (d.auditLost loc n) := by
  unfold Dev.auditLost
  split
  · exact h.wr (offClocks_of_zone (by simp only [Reg.DEV_AUDIT_LOST.LOST, Reg.DEV_AUDIT_LOST.addr]; omega)) _
  · exact h

theorem ptrFail (store value : Nat) : b.SameClocks (d.ptrFail store value) := by
  have ho : offClocks Reg.BUFF_PTR_ERR.addr := offClocks_of_zone (by decide)
  have hc := h.cnt (c := .pointerCheckEvents) (by decide) store
  unfold Dev.ptrFail
  refine (SameClocks.alarm ?_ _ _).log _ _ _
  split
  · exact hc
  · exact ((hc.setFlag ho _).wr ho _).wr ho _

theorem returnCell (p k flip : Nat) : b.SameClocks (d.returnCell p k flip) := by
  unfold Dev.returnCell
  dsimp only
  split
  · exact h.setBank _ _
  · exact ((h.setBank _ _).ptrFail _ _).auditLost _ _

theorem unref (p k flip : Nat) : b.SameClocks (d.unref p k flip).1 := by
  have hc := h.cnt (c := .refcntError) (by decide) p
  unfold Dev.unref
  dsimp only
  split
  · split
    · exact hc
    · exact (hc.setBank _ _).auditLost _ _
  · split
    · exact (h.setBank _ _).returnCell _ _ _
    · exact h.setBank _ _

/-! Pause toward the peer. -/

theorem sendPause (n mode : Nat) (cs : List Nat) (xoff : Bool) : b.SameClocks (d.sendPause n mode cs xoff) := by
  unfold Dev.sendPause
  dsimp only
  split
  · refine (h.foldl fun _ c _ hd => ?_).out _
    have hc : (txPfcCtr c).code ≠ Ctr.srefLossEvents.code := by
      unfold txPfcCtr
      split <;> decide
    exact ((hd.cnt hc n).setBitOf (offClocks_pauseStat n) _ _).setPauseSt _ _ _
  · exact (((h.cnt (c := .txPause) (by decide) n).wr (offClocks_pauseStat n) _).setPauseSt _ _ _).out _

theorem evalPause (n : Nat) : b.SameClocks (d.evalPause n) := by
  unfold Dev.evalPause
  split
  · exact h
  · dsimp only
    split
    · split
      · split
        · exact h.sendPause _ _ _ _
        · exact h
      · split
        · exact h
        · exact h.sendPause _ _ _ _
    · have hx : ∀ l : List Nat, b.SameClocks (if l.isEmpty then d else d.sendPause n 2 l true) := fun l => by
        split
        · exact h
        · exact h.sendPause _ _ _ _
      split
      · exact hx _
      · exact (hx _).sendPause _ _ _ _
    · exact h

theorem addIc (n c k : Nat) : b.SameClocks (d.addIc n c k) := by
  unfold Dev.addIc
  split
  · exact h
  · exact (h.setVat _).evalPause _

theorem subIc (n c k : Nat) : b.SameClocks (d.subIc n c k) := by
  unfold Dev.subIc
  split
  · exact h
  · exact (h.setVat _).evalPause _

/-! A copy leaves. -/

theorem releaseRefs (c : Copy) (flip : Nat) : b.SameClocks (d.releaseRefs c flip) := by
  unfold Dev.releaseRefs
  split
  · exact h
  · rename_i f _
    split
    · exact h
    · dsimp only
      refine SameClocks.setCopy ?_ _
      have hr : b.SameClocks (f.cells.foldl (fun (a : Dev × Nat × Nat) k =>
          let u := a.1.unref f.pipe k a.2.2
          (u.1, (if u.2 then a.2.1 + 1 else a.2.1), 0)) (d, 0, flip)).1 :=
        List.foldlRecOn (motive := fun a : Dev × Nat × Nat => b.SameClocks a.1) _ _ h fun a ha _ _ => ha.unref _ _ _
      split
      · exact hr.subEc _ _ _ _
      · exact (hr.subEc _ _ _ _).subIc _ _ _

theorem returnCredit (m n : Nat) : b.SameClocks (d.returnCredit (dstGroup m) n) := by
  unfold Dev.returnCredit
  split
  · exact h
  · exact (h.wr (r := Reg.FABR_GRP_CREDIT.OUTSTANDING (dstGroup m)) (offClocks_grpCredit m) _).setFab _

theorem unstage (m n : Nat) : b.SameClocks (d.unstage (dstGroup m) n) := by
  unfold Dev.unstage
  split
  · exact h
  · exact (h.wr (offClocks_grpCredit m) _).returnCredit _ _

theorem returnBlock (x : Nat × Nat × Nat) (flip : Nat) : b.SameClocks (d.returnBlock x flip) := by
  obtain ⟨v, s, i⟩ := x
  unfold Dev.returnBlock
  dsimp only
  split
  · exact h
  · split
    · rename_i hb
      have hv : v < 3 ∧ s < 2 := by
        simp only [Dev.blockOk, Bool.and_eq_true, decide_eq_true_eq] at hb
        omega
      exact (h.setVatHalf _ _ _).wr
        (offClocks_of_zone (by simp only [Reg.BUFF_VAT_FREE.FREE, Reg.BUFF_VAT_FREE.addr]; omega)) _
    · exact (h.ptrFail _ _).auditLost _ _

theorem askRefills (p : Nat) : b.SameClocks (d.askRefills p) := by
  unfold Dev.askRefills
  split
  · exact h
  · refine h.foldl fun d c _ hd => ?_
    dsimp only
    split
    · split
      · exact hd
      · split
        · exact hd.setVat _
        · exact hd
    · exact hd

theorem removeCopy (c : Copy) : b.SameClocks (d.removeCopy c) := by
  have hr := h.releaseRefs c 0
  have hb : b.SameClocks (match c.block with
      | some x => (d.releaseRefs c 0).returnBlock x 0
      | none => d.releaseRefs c 0) := by
    split
    · exact hr.returnBlock _ _
    · exact hr
  exact ((((((hb.setVat _).returnCredit _ _).unstage _ _).clearTx _).delCopy _).reap _).askRefills _

theorem cutCopies (reason : Nat) (p : Copy → Bool) : b.SameClocks (d.cutCopies reason p) := by
  unfold Dev.cutCopies
  refine h.foldl fun _ _ _ hd => ?_
  split
  · exact (hd.dropCount _).removeCopy _
  · exact hd

/-! A frame leaves. -/

theorem returnChain (f : Frame) : b.SameClocks (d.returnChain f) := by
  unfold Dev.returnChain
  split
  · exact h.foldl fun _ _ _ hd => hd.returnCell _ _ _
  · exact h

theorem returnStaging (f : Frame) : b.SameClocks (d.returnStaging f) := by
  have hp : offClocks Reg.BUFF_PRIV_FREE.addr := offClocks_of_zone (by decide)
  have hs : offClocks Reg.SEAL_STATUS.addr := offClocks_of_zone (by decide)
  unfold Dev.returnStaging
  split
  · exact h
  · exact (((h.setVat _).setDeck _).wr (r := Reg.BUFF_PRIV_FREE.SEAL_FREE) hp _).wr (r := Reg.SEAL_STATUS.BLOCKS_USED) hs _

theorem endFrame (f : Frame) : b.SameClocks (d.endFrame f) :=
  ((((h.returnChain f).returnStaging f).setFrame _).reap _).deliver _ _

theorem dropFrame (f : Frame) (reason : Nat) : b.SameClocks (d.dropFrame f reason) := (h.dropCount _).endFrame _

/-! Cells written at the end of a reception. -/

theorem startRebuild (p s : Nat) : b.SameClocks (d.startRebuild p s) := by
  unfold Dev.startRebuild
  dsimp only
  split
  · exact h
  · exact ((h.setBank _ _).cnt (c := .listRebuild) (by decide) p).setFlag (offClocks_bankPend p) _

theorem bankEmpty (f : Frame) : b.SameClocks (d.bankEmpty f) := by
  unfold Dev.bankEmpty
  split
  · exact h.setFrame _
  · exact h.dropFrame _ _

end

theorem allocCell {b d : Dev} (h : b.SameClocks d) (p fuel : Nat) : b.SameClocks (d.allocCell p fuel).2 := by
  induction fuel generalizing d with
  | zero => exact h
  | succ k ih =>
    unfold Dev.allocCell
    dsimp only
    split
    · exact h
    · split
      · exact h
      · split
        · exact h.setBank _ _
        · exact ih (h.startRebuild _ _)

theorem writeCell {b d : Dev} (h : b.SameClocks d) (f : Frame) (last : Bool) : b.SameClocks (d.writeCell f last) := by
  unfold Dev.writeCell
  dsimp only
  split
  · exact h.setFrame _
  · have ha := h.allocCell f.pipe 33
    split
    · rename_i d' he
      rw [he] at ha
      exact ha.bankEmpty _
    · rename_i k d' he
      rw [he] at ha
      have hs := fun x y => (SameClocks.setBank ha f.pipe x).setFrame y
      split
      · split
        · exact (hs _ _).foldl fun _ _ _ hd => hd.addEc _ _ _ _
        · exact ((hs _ _).foldl fun _ _ _ hd => hd.addEc _ _ _ _).addIc _ _ _
      · exact hs _ _

theorem fillCells {b d : Dev} (h : b.SameClocks d) (i fuel : Nat) : b.SameClocks (d.fillCells i fuel) := by
  induction fuel generalizing d with
  | zero => exact h
  | succ k ih =>
    unfold Dev.fillCells
    split
    · exact h
    · split
      · exact h
      · exact ih (h.writeCell _ _)

section
variable {b d : Dev} (h : b.SameClocks d)
include h

theorem storeCells (i : Nat) : b.SameClocks (d.storeCells i) := by
  unfold Dev.storeCells
  split
  · exact h
  · refine SameClocks.fillCells ?_ _ _
    split
    · exact h.cnt (by decide) _
    · exact h

theorem requestTokens (x level : Nat) : b.SameClocks (d.requestTokens x level) := by
  unfold Dev.requestTokens
  split
  · exact h
  · exact h.of_eq rfl rfl rfl rfl

theorem offerSpill (i : Nat) : b.SameClocks (d.offerSpill i) := by
  unfold Dev.offerSpill
  split
  · dsimp only
    split
    · split
      · exact ((h.setVat _).returnCredit _ _).setCopy _
      · exact (h.cnt (c := .spillDeferred) (by decide) _).requestTokens _ _
    · exact h
  · exact h

/-! The end of a reception. -/

theorem issueLearn (p : Nat) (e : LearnEv) : b.SameClocks (d.issueLearn p e) := by
  unfold Dev.issueLearn
  dsimp only
  split
  · have hl := (h.cnt (c := .learnEvents) (by decide) p).setLook
    split
    · exact hl _
    · exact (hl _).cnt (c := .learnDrop) (by decide) _
  · exact (h.setLook _).cnt (c := .learnRateDrop) (by decide) _

theorem issueHeld (f : Frame) : b.SameClocks (d.issueHeld f) := by
  have hl : b.SameClocks (match f.learn with
      | some (fid, mac) => d.issueLearn f.pipe ⟨fid, mac, f.port⟩
      | none => d) := by
    split
    · exact h.issueLearn _ _
    · exact h
  unfold Dev.issueHeld
  dsimp only
  split
  · exact hl.setRed _
  · exact hl

theorem countRxErr (n reason : Nat) : b.SameClocks (d.countRxErr n reason) := by
  unfold Dev.countRxErr
  split
  · exact h.cnt (by decide) _
  · exact h.cnt (by decide) _
  · exact h.cnt (by decide) _
  · exact h.cnt (by decide) _
  · exact h

theorem finishRx (f : Frame) (err : Nat) : b.SameClocks (d.finishRx f err) := by
  unfold Dev.finishRx
  extract_lets n d₁ d₂ hv p px g q d₃ d₄ d₅
  have h₁ : b.SameClocks d₁ := (h.cnt (c := .rxFrames) (by decide) _).cntBy (c := .rxOctets) (by decide) _ _
  have h₂ : b.SameClocks d₂ := by
    simp only [d₂]
    split
    · exact (h₁.cnt (c := .rxFramesOk) (by decide) _).cntBy (c := .rxOctetsOk) (by decide) _ _
    · exact h₁.countRxErr _ _
  have h₄ : b.SameClocks d₄ := (h₂.setPath _).setFrame _
  have h₅ : b.SameClocks d₅ := by
    simp only [d₅]
    split
    · exact (h₄.issueHeld _).storeCells _
    · exact h₄.storeCells _
  split
  · exact (h₅.offerSpill _).reap _
  · split
    · exact h₅
    · split
      · exact h₅.reap _
      · exact h₅.reap _
      · exact h₅
      · exact h₅
      · exact h₅.dropFrame _ _

theorem cutRx (n mac : Nat) : b.SameClocks (d.cutRx n mac) := by
  unfold Dev.cutRx
  split
  · exact h
  · split
    · exact h.delFrame _
    · exact h.finishRx _ _

theorem clearPause (n : Nat) : b.SameClocks (d.clearPause n) :=
  SameClocks.foldl (h.setReg (offClocks_pauseStat n) _) fun _ _ _ hd => hd.setPauseSt _ _ _

theorem startRemoval (n : Nat) : b.SameClocks (d.startRemoval n) := by
  refine h.foldl fun d p hp hd => ?_
  refine (hd.setLook _).setFlag (r := Reg.LKUP_TBL_STATUS.FLUSHING p) (offClocks_of_zone ?_) _
  simp only [Reg.LKUP_TBL_STATUS.FLUSHING, Reg.LKUP_TBL_STATUS.addr]
  simp only [List.mem_cons, List.not_mem_nil, or_false] at hp
  omega

theorem setHold (n : Nat) (v : Bool) : b.SameClocks (d.setFlag (Reg.PORT_STATUS.HOLD n) v) :=
  h.setPortFlag (n := n) rfl (show 30 + 1 ≤ 31 by omega) _

theorem setFlushing (n : Nat) (v : Bool) : b.SameClocks (d.setFlag (Reg.PORT_STATUS.FLUSHING n) v) :=
  h.setPortFlag (n := n) rfl (show 29 + 1 ≤ 31 by omega) _

theorem flushPort (n : Nat) : b.SameClocks (d.flushPort n) :=
  (((h.setHold n _).setFlushing n _).setPortSt _ _).cutCopies _ _

theorem linkLost (n : Nat) : b.SameClocks (d.linkLost n) := by
  unfold Dev.linkLost
  split
  · exact (h.cnt (c := .linkDownEvents) (by decide) n).clearLinkUp n
  · exact h

omit h in
theorem linkFalls {n : Nat} (h : b.SameClocks (d.linkLost n)) : b.SameClocks (d.linkFalls n) := by
  unfold Dev.linkFalls
  extract_lets d₁ d₂ d₃ d₄ d₅ s d₆
  have h₂ : b.SameClocks d₂ := h.clearPause n
  have h₃ : b.SameClocks d₃ := (h₂.setPortFlag (n := n) rfl (show 22 + 1 ≤ 31 by omega) false).wrPortStatus (n := n) rfl
    (.inl (show 20 + 2 ≤ 31 by omega))
  have h₄ : b.SameClocks d₄ := (h₃.setPortFlag (n := n) rfl (show 28 + 1 ≤ 31 by omega) false).setPortFlag (n := n) rfl
    (show 27 + 1 ≤ 31 by omega) false
  have h₆ : b.SameClocks d₆ := ((h₄.cutRx n 0).cutRx n 1).setPortSt n _
  split
  · exact h₆
  · exact h₆.startRemoval n

omit h in
theorem enterHold {n : Nat} (h : b.SameClocks (d.linkLost n)) : b.SameClocks (d.enterHold n) := by
  have hc := fun p q => ((linkFalls h).cutCopies 0x41 p).cutCopies 0x41 q
  unfold Dev.enterHold
  dsimp only
  split
  · exact (hc _ _).flushPort n
  · exact ((hc _ _).setHold n _).setPortSt _ _

end
end Dev.SameClocks

/-! ### Reset (R399) -/

theorem reg_foldl_setReg_of_notMem (l : List (Nat × Nat)) (d : Dev) (a : Nat) (h : a ∉ l.map (·.1)) :
    (l.foldl (fun (n : Dev) e => n.setReg e.1 (BitVec.ofNat 32 e.2)) d).reg a = d.reg a := by
  induction l generalizing d with
  | nil => rfl
  | cons x l ih =>
    simp only [List.map_cons, List.mem_cons, not_or] at h
    rw [List.foldl_cons, ih _ h.2, d.reg_setReg_ne _ _ _ h.1]

theorem reg_foldl_setReg_of_mem (l : List (Nat × Nat)) (d : Dev) (x : Nat × Nat) (hl : (l.map (·.1)).Nodup) (hx : x ∈ l) :
    (l.foldl (fun (n : Dev) e => n.setReg e.1 (BitVec.ofNat 32 e.2)) d).reg x.1 = BitVec.ofNat 32 x.2 := by
  induction l generalizing d with
  | nil => cases hx
  | cons y l ih =>
    rw [List.map_cons, List.nodup_cons] at hl
    rw [List.foldl_cons]
    rcases List.mem_cons.mp hx with rfl | hx
    · rw [reg_foldl_setReg_of_notMem _ _ _ hl.1, Dev.reg_setReg_same]
    · exact ih _ hl.2 hx

theorem foldl_setReg_frame (l : List (Nat × Nat)) (d : Dev) :
    l.foldl (fun (n : Dev) e => n.setReg e.1 (BitVec.ofNat 32 e.2)) d =
      { d with regs := (l.foldl (fun (n : Dev) e => n.setReg e.1 (BitVec.ofNat 32 e.2)) d).regs } := by
  induction l generalizing d with
  | nil => rfl
  | cons x l ih => exact ih _

theorem fuseRegs_addrs (f : Fuses) :
    (fuseRegs f).map (·.1) = [0x0, 0x10000, 0x10004, 0x10008, 0x1000C, 0x10010, 0x0E000200] := rfl

/-- `e` is `d` after a reset that leaves the conditions `h` and the root PLL's lock at `lock` (R399): what a reset keeps, what it
clears, and the straps and boot status left open, which time zero may set. -/
structure Dev.ResetFrom (d e : Dev) (h : HoldSt) (lock : Bool) : Prop where
  hold : e.hold = h
  pll : e.flag Reg.PWCK_CLK_STATUS.PLL_LOCK = lock
  refclk : e.flag Reg.PWCK_CLK_STATUS.REFCLK_LOST = false
  sref : e.rd Reg.PWCK_CLK_STATUS.SREF_LOST = 0
  shutdown : e.reg Reg.SUPV_SHUTDOWN.addr = d.reg Reg.SUPV_SHUTDOWN.addr
  fuses : ∀ x ∈ fuseRegs d.boot.fuses, e.reg x.1 = BitVec.ofNat 32 x.2
  other : ∀ a, a ∉ [Reg.PWCK_CLK_STATUS.addr, Reg.SUPV_SHUTDOWN.addr, Reg.DEV_STRAP.addr, Reg.DEV_BOOT_STATUS.addr] ++
    (fuseRegs d.boot.fuses).map (·.1) → e.reg a = resetOf a
  boot : e.boot = { BootSt.zero with
    fuses := d.boot.fuses, tb0Sec := d.boot.tb0Sec, t0 := e.boot.t0, bootCount := e.boot.bootCount,
    nvm := d.boot.nvm.map fun x => { x with ok := false } }
  frame : e = { Dev.zero with now := d.now, free := d.free, wire := d.wire, hold := e.hold, regs := e.regs, boot := e.boot }

/-- What a full reset leaves before the registers that it shows or keeps are put back (`Dev.fullReset`). -/
def Dev.cleared (d : Dev) (h : HoldSt) : Dev :=
  { Dev.zero with
    now := d.now, free := d.free, wire := d.wire, hold := h,
    boot := { BootSt.zero with
      fuses := d.boot.fuses, bootCount := d.boot.bootCount, tb0Sec := d.boot.tb0Sec,
      nvm := d.boot.nvm.map fun (x : Nvm) => { x with ok := false } } }

section
variable (d : Dev) (pll : Bool) (h : HoldSt)

theorem Dev.fullReset_eq : d.fullReset pll h =
    (((fuseRegs d.boot.fuses).foldl (fun (n : Dev) e => n.setReg e.1 (BitVec.ofNat 32 e.2)) (d.cleared h)).setReg
      Reg.SUPV_SHUTDOWN.addr (d.reg Reg.SUPV_SHUTDOWN.addr)).setFlag Reg.PWCK_CLK_STATUS.PLL_LOCK
        (pll && d.flag Reg.PWCK_CLK_STATUS.PLL_LOCK) := rfl

theorem Dev.fullReset_frame : d.fullReset pll h = { d.cleared h with regs := (d.fullReset pll h).regs } := by
  rw [Dev.fullReset_eq, foldl_setReg_frame]
  rfl

theorem Dev.reg_cleared (a : Nat) (ha : a ≠ 0x0E000200) : (d.cleared h).reg a = resetOf a := by
  simp [Dev.reg, Dev.cleared, Dev.zero, tget, ha]

theorem resetOf_clkStatus : resetOf Reg.PWCK_CLK_STATUS.addr = 0 := by decide

/-- A register of a reset device that no fuse shows reads its reset value. -/
theorem Dev.reg_fullReset (a : Nat) (hc : a ≠ Reg.PWCK_CLK_STATUS.addr) (hs : a ≠ Reg.SUPV_SHUTDOWN.addr)
    (hf : a ∉ (fuseRegs d.boot.fuses).map (·.1)) : (d.fullReset pll h).reg a = resetOf a := by
  rw [Dev.fullReset_eq, Dev.setFlag, Dev.reg_wr_ne _ _ _ _ hc, Dev.reg_setReg_ne _ _ _ _ hs,
    reg_foldl_setReg_of_notMem _ _ _ hf]
  exact d.reg_cleared h a fun e => hf (by simp [fuseRegs_addrs, e])

theorem Dev.rd_fullReset_clk (r : FRef) (ha : r.addr = Reg.PWCK_CLK_STATUS.addr) (hr : r.lo + r.width ≤ 31) :
    (d.fullReset pll h).rd r = 0 := by
  rw [Dev.fullReset_eq, Dev.setFlag, Dev.rd_wr_disjoint _ _ _ _ (Nat.le_of_ble_eq_true rfl) ha (.inl hr), Dev.rd, ha,
    Dev.reg_setReg_ne _ _ _ _ (by decide), reg_foldl_setReg_of_notMem _ _ _ (by rw [fuseRegs_addrs]; decide),
    d.reg_cleared h _ (by decide), resetOf_clkStatus]
  simp [fget]

theorem Dev.fullReset_resetFrom : d.ResetFrom (d.fullReset pll h) h (pll && d.flag Reg.PWCK_CLK_STATUS.PLL_LOCK) where
  hold := by rw [Dev.fullReset_frame]; rfl
  pll := Dev.flag_setFlag_same _ _ _ (Nat.le_refl 32) rfl
  refclk := by rw [Dev.flag, d.rd_fullReset_clk _ _ _ rfl (show 30 + 1 ≤ 31 by omega)]; rfl
  sref := d.rd_fullReset_clk _ _ _ rfl (show 16 + 8 ≤ 31 by omega)
  shutdown := by
    rw [Dev.fullReset_eq, Dev.setFlag, Dev.reg_wr_ne _ _ _ _ (by decide), Dev.reg_setReg_same]
  fuses x hx := by
    have hm := List.mem_map_of_mem (f := (·.1)) hx
    rw [fuseRegs_addrs] at hm
    have hs : x.1 ≠ Reg.SUPV_SHUTDOWN.addr := ne_of_mem_of_not_mem hm (by decide)
    have hc : x.1 ≠ Reg.PWCK_CLK_STATUS.addr := ne_of_mem_of_not_mem hm (by decide)
    rw [Dev.fullReset_eq, Dev.setFlag, Dev.reg_wr_ne _ _ _ _ hc, Dev.reg_setReg_ne _ _ _ _ hs]
    exact reg_foldl_setReg_of_mem _ _ x (by rw [fuseRegs_addrs]; decide) hx
  other a ha := by
    simp only [List.mem_append, List.mem_cons, List.not_mem_nil, or_false, not_or] at ha
    obtain ⟨⟨hshutdown, hclk, -, -⟩, hfuse⟩ := ha
    exact d.reg_fullReset pll h a hshutdown hclk hfuse
  boot := by rw [Dev.fullReset_frame]; rfl
  frame := by rw [Dev.fullReset_frame]; rfl

theorem Dev.fullReset_boot : (d.fullReset pll h).boot = { BootSt.zero with
    fuses := d.boot.fuses, tb0Sec := d.boot.tb0Sec, bootCount := d.boot.bootCount,
    nvm := d.boot.nvm.map fun x => { x with ok := false } } := by
  rw [Dev.fullReset_frame]
  rfl

theorem Dev.reg_fullReset_strap : (d.fullReset pll h).reg Reg.DEV_STRAP.addr = resetOf Reg.DEV_STRAP.addr :=
  d.reg_fullReset pll h _ (by decide) (by decide) (by rw [fuseRegs_addrs]; decide)

theorem Dev.phase_fullReset : (d.fullReset pll h).phase = 0 := by
  rw [Dev.phase, Dev.rd, show Reg.DEV_BOOT_STATUS.PHASE.addr = Reg.DEV_BOOT_STATUS.addr from rfl,
    d.reg_fullReset pll h _ (by decide) (by decide) (by rw [fuseRegs_addrs]; decide)]
  decide

theorem Dev.reg_timeZero (sel mode a : Nat) (hs : a ≠ Reg.DEV_STRAP.addr) (hb : a ≠ Reg.DEV_BOOT_STATUS.addr) :
    (d.timeZero sel mode).reg a = d.reg a := by
  unfold Dev.timeZero
  rw [Dev.setFlag, Dev.reg_wr_ne _ _ _ _ hb, Dev.reg_wr_ne _ _ _ _ hs, Dev.reg_wr_ne _ _ _ _ hs]
  rfl

theorem Dev.timeZero_frame (sel mode : Nat) : d.timeZero sel mode =
    { d with regs := (d.timeZero sel mode).regs, boot := (d.timeZero sel mode).boot } := by
  unfold Dev.timeZero
  simp only [Dev.setFlag]
  rw [Dev.wr_frame_eq, Dev.wr_frame_eq, Dev.wr_frame_eq]

theorem Dev.timeZero_boot (sel mode : Nat) :
    (d.timeZero sel mode).boot = { d.boot with t0 := d.now, bootCount := (d.boot.bootCount + 1) % 2 ^ 16 } := rfl

theorem Dev.rd_timeZero_sel (sel mode : Nat) : (d.timeZero sel mode).rd Reg.DEV_STRAP.BOOT_SEL = sel % 4 := by
  unfold Dev.timeZero
  rw [Dev.setFlag, Dev.rd_wr_ne _ _ _ _ (by decide), Dev.rd_wr_disjoint _ _ _ _ (by decide) (by rfl) (by decide),
    Dev.rd_wr_same _ _ _ (by decide)]
  rfl

theorem Dev.rd_timeZero_mode (sel mode : Nat) : (d.timeZero sel mode).rd Reg.DEV_STRAP.NVM_MODE = mode % 2 := by
  unfold Dev.timeZero
  rw [Dev.setFlag, Dev.rd_wr_ne _ _ _ _ (by decide), Dev.rd_wr_same _ _ _ (by decide)]
  rfl

theorem Dev.flag_timeZero_unprov (sel mode : Nat) :
    (d.timeZero sel mode).flag Reg.DEV_BOOT_STATUS.UNPROV = d.unprovisioned := by
  unfold Dev.timeZero
  exact Dev.flag_setFlag_same _ _ _ (by decide) rfl

theorem Dev.phase_timeZero (sel mode : Nat) : (d.timeZero sel mode).phase = d.phase := by
  unfold Dev.timeZero Dev.phase
  rw [Dev.setFlag, Dev.rd_wr_disjoint _ _ _ _ (by decide) (by rfl) (by decide), Dev.rd_wr_ne _ _ _ _ (by decide),
    Dev.rd_wr_ne _ _ _ _ (by decide)]
  rfl

end

/-- Time zero touches the straps, the boot status, the start count and its own instant alone. -/
theorem Dev.ResetFrom.timeZero {d e : Dev} {h : HoldSt} {lock : Bool} (hr : d.ResetFrom e h lock) (sel mode : Nat) :
    d.ResetFrom (e.timeZero sel mode) h lock where
  hold := by
    rw [Dev.timeZero_frame]
    exact hr.hold
  pll := (Dev.flag_congr_reg (e.reg_timeZero _ _ _ (by decide) (by decide))).trans hr.pll
  refclk := (Dev.flag_congr_reg (e.reg_timeZero _ _ _ (by decide) (by decide))).trans hr.refclk
  sref := (Dev.rd_congr_reg (e.reg_timeZero _ _ _ (by decide) (by decide))).trans hr.sref
  shutdown := (e.reg_timeZero _ _ _ (by decide) (by decide)).trans hr.shutdown
  fuses x hx := by
    have hm := List.mem_map_of_mem (f := (·.1)) hx
    rw [fuseRegs_addrs] at hm
    rw [e.reg_timeZero _ _ _ (ne_of_mem_of_not_mem hm (by decide)) (ne_of_mem_of_not_mem hm (by decide))]
    exact hr.fuses x hx
  other a ha := by
    have hx := ha
    simp only [List.mem_append, List.mem_cons, List.not_mem_nil, or_false, not_or] at hx
    obtain ⟨⟨-, -, hstrap, hboot⟩, -⟩ := hx
    rw [e.reg_timeZero _ _ _ hstrap hboot]
    exact hr.other a ha
  boot := congrArg (fun x : BootSt => { x with t0 := e.now, bootCount := (e.boot.bootCount + 1) % 2 ^ 16 }) hr.boot
  frame := by
    rw [Dev.timeZero_frame]
    generalize (e.timeZero sel mode).regs = r, (e.timeZero sel mode).boot = x
    exact congrArg (fun y : Dev => { y with regs := r, boot := x }) hr.frame

/-! ### The transmit PLLs of a group of eight (R411) -/

/-- What a pass over groups `8k + i` does that sets their TX_PLL_LOCK to `b` where `c` holds: one condition, that the pass itself
does not move, decides each flag, and no other register is touched. -/
theorem foldl_setPllLock (k : Nat) (b : Bool) (c : Dev → Nat → Prop) [∀ d, DecidablePred (c d)]
    (l : List Nat) (hl : l.Nodup)
    (hc : ∀ (d : Dev), ∀ j ∈ l, ∀ (v : Bool) (i : Nat), c (d.setFlag (Reg.PORT_GRP_STATUS.TX_PLL_LOCK (8 * k + j)) v) i ↔ c d i)
    (d : Dev) :
    let e := l.foldl (fun (d : Dev) i => if c d i then d.setFlag (Reg.PORT_GRP_STATUS.TX_PLL_LOCK (8 * k + i)) b else d) d
    e = { d with regs := e.regs } ∧
    (∀ a, a ∉ l.map (fun i => Reg.PORT_GRP_STATUS.addr (8 * k + i)) → e.reg a = d.reg a) ∧
    ∀ i ∈ l, e.flag (Reg.PORT_GRP_STATUS.TX_PLL_LOCK (8 * k + i)) =
      if c d i then b else d.flag (Reg.PORT_GRP_STATUS.TX_PLL_LOCK (8 * k + i)) := by
  induction l generalizing d with
  | nil => exact ⟨rfl, fun _ _ => rfl, fun _ h => absurd h List.not_mem_nil⟩
  | cons x l ih =>
    rw [List.nodup_cons] at hl
    have hx : ∀ i ∈ l, Reg.PORT_GRP_STATUS.addr (8 * k + i) ≠ Reg.PORT_GRP_STATUS.addr (8 * k + x) := fun i hi he => by
      have : i = x := by
        simp only [Reg.PORT_GRP_STATUS.addr] at he
        omega
      exact hl.1 (this ▸ hi)
    have hxl : Reg.PORT_GRP_STATUS.addr (8 * k + x) ∉ l.map (fun i => Reg.PORT_GRP_STATUS.addr (8 * k + i)) := fun hm => by
      obtain ⟨i, hi, he⟩ := List.mem_map.mp hm
      exact hx i hi he
    replace ih := ih hl.2 fun d j hj => hc d j (List.mem_cons_of_mem _ hj)
    dsimp only [List.foldl_cons]
    split
    · rename_i hcx
      obtain ⟨hf, hr, hg⟩ := ih (d.setFlag (Reg.PORT_GRP_STATUS.TX_PLL_LOCK (8 * k + x)) b)
      refine ⟨hf, fun a ha => ?_, fun i hi => ?_⟩
      · rw [List.map_cons, List.mem_cons, not_or] at ha
        rw [hr a ha.2]
        exact d.reg_wr_ne _ _ _ ha.1
      · rcases List.mem_cons.mp hi with rfl | hi
        · rw [if_pos hcx]
          exact (Dev.flag_congr_reg (hr _ hxl)).trans (d.flag_setFlag_same _ _ (Nat.le_of_ble_eq_true rfl) rfl)
        · rw [hg i hi, if_congr (hc _ _ List.mem_cons_self _ _) rfl rfl]
          congr 1
          exact d.flag_wr_ne _ _ _ (hx i hi)
    · rename_i hcx
      obtain ⟨hf, hr, hg⟩ := ih d
      refine ⟨hf, fun a ha => ?_, fun i hi => ?_⟩
      · rw [List.map_cons, List.mem_cons, not_or] at ha
        exact hr a ha.2
      · rcases List.mem_cons.mp hi with rfl | hi
        · rw [if_neg hcx]
          exact Dev.flag_congr_reg (hr _ hxl)
        · exact hg i hi

/-! ### Links that fall one after another -/

/-- The links of the ports listed that are up go down (`srefLoss`). -/
def Dev.dropLinks (d : Dev) (l : List Nat) : Dev :=
  l.foldl (fun d n => if d.flag (Reg.PORT_STATUS.LINK_UP n) then d.enterHold n else d) d

theorem Dev.SameClocks.dropLink {b d : Dev} (h : b.SameClocks d) (n : Nat) :
    b.SameClocks (if d.flag (Reg.PORT_STATUS.LINK_UP n) then d.enterHold n else d) := by
  split
  · exact (h.linkLost n).enterHold
  · exact h

theorem Dev.flag_dropLink (d : Dev) (n : Nat) (hn : n < 256) :
    (if d.flag (Reg.PORT_STATUS.LINK_UP n) then d.enterHold n else d).flag (Reg.PORT_STATUS.LINK_UP n) = false := by
  split
  · exact (SameClocks.refl (d.linkLost n)).enterHold.down n hn (d.flag_linkLost n)
  · rename_i hf
    simpa using hf

theorem Dev.SameClocks.dropLinks {b d : Dev} (h : b.SameClocks d) (l : List Nat) : b.SameClocks (d.dropLinks l) :=
  h.foldl fun _ n _ hd => hd.dropLink n

theorem Dev.flag_dropLinks (d : Dev) (l : List Nat) (hl : ∀ n ∈ l, n < 256) :
    ∀ n ∈ l, (d.dropLinks l).flag (Reg.PORT_STATUS.LINK_UP n) = false := by
  induction l generalizing d with
  | nil => exact fun _ h => absurd h List.not_mem_nil
  | cons x l ih =>
    intro n hn
    rcases List.mem_cons.mp hn with rfl | hn
    · exact ((SameClocks.refl _).dropLinks l).down n (hl n List.mem_cons_self) (d.flag_dropLink n (hl n List.mem_cons_self))
    · exact ih _ (fun m hm => hl m (List.mem_cons_of_mem _ hm)) n hn

theorem Dev.dropLinks_of_down (d : Dev) (l : List Nat) (h : ∀ n ∈ l, d.flag (Reg.PORT_STATUS.LINK_UP n) = false) :
    d.dropLinks l = d := by
  induction l with
  | nil => rfl
  | cons x l ih =>
    rw [Dev.dropLinks, List.foldl_cons, if_neg (by simp [h x List.mem_cons_self])]
    exact ih fun n hn => h n (List.mem_cons_of_mem _ hn)

theorem srefPorts_lt {k n : Nat} (hk : k < 8) (hn : n ∈ srefPorts k) : n < 256 := by
  simp only [srefPorts, List.mem_map, List.mem_range] at hn
  omega

/-! ### The commands -/

/-- The record of a lost reference clock: TYPE 0xE002 of unit 0x10, with the clock status (R346, R411). -/
def Dev.refclkRec (d : Dev) : LogRec := ⟨0xE002, 3, 0, 0x10, false, d.regData Reg.PWCK_CLK_STATUS.addr⟩

theorem refclkLoss_of_set {d : Dev} (hf : d.flag Reg.PWCK_CLK_STATUS.REFCLK_LOST = true) : refclkLoss d = d := by
  rw [refclkLoss, if_pos hf]

theorem refclkLoss_of_clear {d : Dev} (hf : d.flag Reg.PWCK_CLK_STATUS.REFCLK_LOST = false) : refclkLoss d =
    ((d.setFlag Reg.PWCK_CLK_STATUS.REFCLK_LOST true).cnt .refclkLossEvents 0).submit
      ((d.setFlag Reg.PWCK_CLK_STATUS.REFCLK_LOST true).cnt .refclkLossEvents 0).refclkRec := by
  rw [refclkLoss, if_neg (by simp [hf])]
  rfl

theorem srefLoss_of_lost {d : Dev} {k : Nat} (h : 8 ≤ k ∨ d.bitOf Reg.PWCK_CLK_STATUS.SREF_LOST k = true) : srefLoss k d = d := by
  rw [srefLoss, if_pos (by simpa using h)]

/-- What an input's loss does before the links fall: the mark, the count, and the eight groups' transmit PLLs (R411). -/
def Dev.srefMarked (d : Dev) (k : Nat) : Dev :=
  (List.range 8).foldl (fun d i => d.setFlag (Reg.PORT_GRP_STATUS.TX_PLL_LOCK (8 * k + i)) false)
    ((d.setBitOf Reg.PWCK_CLK_STATUS.SREF_LOST k true).cnt .srefLossEvents k)

theorem srefLoss_of_present {d : Dev} {k : Nat} (hk : k < 8) (h : d.bitOf Reg.PWCK_CLK_STATUS.SREF_LOST k = false) :
    srefLoss k d = (d.srefMarked k).dropLinks (srefPorts k) := by
  rw [srefLoss, if_neg (by simp [h, hk])]
  rfl

theorem srefReturn_of_lt {k : Nat} (hk : k < 8) (d : Dev) : srefReturn k d =
    (List.range 8).foldl (fun (d : Dev) i => if d.rd (Reg.PWCK_DOM_STATUS.STATE (8 * k + i)) = 2 then
      d.setFlag (Reg.PORT_GRP_STATUS.TX_PLL_LOCK (8 * k + i)) true else d) (d.setBitOf Reg.PWCK_CLK_STATUS.SREF_LOST k false) := by
  rw [srefReturn, if_neg (by omega)]

theorem exec_refclkLoss {d : Dev} (hl : d.hold.live = true) (q : List Instr) :
    exec .refclkLoss ⟨d, q⟩ = .next ⟨refclkLoss d, q⟩ := State.on_live hl q _

theorem exec_refclkReturn {d : Dev} (hl : d.hold.live = true) (q : List Instr) :
    exec .refclkReturn ⟨d, q⟩ = .next ⟨d.setFlag Reg.PWCK_CLK_STATUS.REFCLK_LOST false, q⟩ :=
  State.on_live hl q fun d => d.setFlag Reg.PWCK_CLK_STATUS.REFCLK_LOST false

theorem exec_srefLoss {d : Dev} (hl : d.hold.live = true) (q : List Instr) (k : Nat) :
    exec (.srefLoss k) ⟨d, q⟩ = .next ⟨srefLoss k d, q⟩ := State.on_live hl q _

theorem exec_srefReturn {d : Dev} (hl : d.hold.live = true) (q : List Instr) (k : Nat) :
    exec (.srefReturn k) ⟨d, q⟩ = .next ⟨srefReturn k d, q⟩ := State.on_live hl q _

/-- A pulse of POR_N or PWR_GOOD, or of SYS_RST_N without time zero. -/
theorem Dev.fullReset_still (d : Dev) (pll : Bool) (h : HoldSt) :
    (d.fullReset pll h).reg Reg.DEV_STRAP.addr = resetOf Reg.DEV_STRAP.addr ∧ (d.fullReset pll h).phase = 0 ∧
      (d.fullReset pll h).boot.t0 = 0 ∧ (d.fullReset pll h).boot.bootCount = d.boot.bootCount := by
  rw [Dev.fullReset_boot]
  exact ⟨d.reg_fullReset_strap pll h, d.phase_fullReset pll h, rfl, rfl⟩

theorem Dev.fullReset_timeZero (d : Dev) (pll : Bool) (h : HoldSt) {b n : Nat} (hb : b < 4) (hn : n < 2) :
    let e := (d.fullReset pll h).timeZero b n
    e.rd Reg.DEV_STRAP.BOOT_SEL = b ∧ e.rd Reg.DEV_STRAP.NVM_MODE = n ∧ e.phase = 0 ∧ e.boot.t0 = d.now ∧
      e.boot.bootCount = (d.boot.bootCount + 1) % 2 ^ 16 ∧ e.flag Reg.DEV_BOOT_STATUS.UNPROV = d.unprovisioned := by
  dsimp only
  rw [Dev.rd_timeZero_sel, Dev.rd_timeZero_mode, Dev.phase_timeZero, Dev.phase_fullReset, Dev.timeZero_boot,
    Dev.flag_timeZero_unprov, Dev.unprovisioned, Dev.fullReset_frame]
  exact ⟨Nat.mod_eq_of_lt hb, Nat.mod_eq_of_lt hn, rfl, rfl, rfl, rfl⟩

/-- What every reset leaves (R399): `zero` says whether time zero came with it. -/
structure Dev.ResetTo (d e : Dev) (b n : Nat) (h : HoldSt) (lock zero : Bool) : Prop extends d.ResetFrom e h lock where
  still : zero = false → e.reg Reg.DEV_STRAP.addr = resetOf Reg.DEV_STRAP.addr ∧ e.phase = 0 ∧ e.boot.t0 = 0 ∧
    e.boot.bootCount = d.boot.bootCount
  begun : zero = true → e.rd Reg.DEV_STRAP.BOOT_SEL = b ∧ e.rd Reg.DEV_STRAP.NVM_MODE = n ∧ e.phase = 0 ∧ e.boot.t0 = d.now ∧
    e.boot.bootCount = (d.boot.bootCount + 1) % 2 ^ 16 ∧ e.flag Reg.DEV_BOOT_STATUS.UNPROV = d.unprovisioned

theorem porAssert_resetTo (d : Dev) (b n : Nat) :
    d.ResetTo (porAssert d) b n { d.hold with por := true, shutdown := false, clocks := false } false false where
  toResetFrom := d.fullReset_resetFrom false _
  still _ := d.fullReset_still _ _
  begun := nofun

theorem pwrGoodFall_resetTo {d : Dev} (hp : d.hold.pwrGood = true) (b n : Nat) :
    d.ResetTo (pwrGoodFall d) b n { d.hold with pwrGood := false, shutdown := false, clocks := false } false false := by
  rw [pwrGoodFall, if_pos hp]
  exact { toResetFrom := d.fullReset_resetFrom false _, still := fun _ => d.fullReset_still _ _, begun := nofun }

theorem sysRst_resetTo (d : Dev) {b n : Nat} (hb : b < 4) (hn : n < 2) :
    d.ResetTo (sysRst b n d) b n { d.hold with clocks := false } (d.flag Reg.PWCK_CLK_STATUS.PLL_LOCK)
      (d.hold.pwrGood && !d.hold.por) := by
  have hr := d.fullReset_resetFrom true { d.hold with clocks := false }
  unfold sysRst
  dsimp only
  rw [hr.hold]
  cases hz : d.hold.pwrGood && !d.hold.por
  · exact { toResetFrom := hr, still := fun _ => d.fullReset_still _ _, begun := nofun }
  · exact { toResetFrom := hr.timeZero b n, still := nofun, begun := fun _ => d.fullReset_timeZero true _ hb hn }

theorem pwrGoodFall_of_low {d : Dev} (hp : d.hold.pwrGood = false) : pwrGoodFall d = d := by
  rw [pwrGoodFall, if_neg (by simp [hp])]

theorem Dev.refclkRec_congr {d e : Dev} (h : e.reg Reg.PWCK_CLK_STATUS.addr = d.reg Reg.PWCK_CLK_STATUS.addr) :
    e.refclkRec = d.refclkRec := by
  rw [Dev.refclkRec, Dev.regData_congr h, Dev.refclkRec]

/-- The first loss of the reference clock (R411). -/
theorem refclkLoss_effect {d : Dev} (hf : d.flag Reg.PWCK_CLK_STATUS.REFCLK_LOST = false) :
    let e := refclkLoss d
    e.flag Reg.PWCK_CLK_STATUS.REFCLK_LOST = true ∧
      e.flag Reg.PWCK_CLK_STATUS.PLL_LOCK = d.flag Reg.PWCK_CLK_STATUS.PLL_LOCK ∧ d.counted e .refclkLossEvents 0 1 ∧
      e.supv.logQ = d.queued e.refclkRec ∧ d.regsBut e [Reg.PWCK_CLK_STATUS.addr] ∧
      e = { d with regs := e.regs, ctrs := e.ctrs, ctrOvf := e.ctrOvf, supv := e.supv } := by
  have hset := d.flag_setFlag_same Reg.PWCK_CLK_STATUS.REFCLK_LOST true (by decide) rfl
  have hpll : (d.setFlag Reg.PWCK_CLK_STATUS.REFCLK_LOST true).flag Reg.PWCK_CLK_STATUS.PLL_LOCK =
      d.flag Reg.PWCK_CLK_STATUS.PLL_LOCK := by
    rw [Dev.flag, Dev.setFlag_eq, d.rd_wr_disjoint _ _ _ (by decide) (by rfl) (by decide), Dev.flag]
  have hne : ∀ a, a ≠ Reg.PWCK_CLK_STATUS.addr → (d.setFlag Reg.PWCK_CLK_STATUS.REFCLK_LOST true).reg a = d.reg a :=
    d.reg_setFlag_ne Reg.PWCK_CLK_STATUS.REFCLK_LOST true
  have hctr := d.ctr_setFlag Reg.PWCK_CLK_STATUS.REFCLK_LOST true
  rw [refclkLoss_of_clear hf]
  rw [Dev.setFlag_frame_eq] at hset hpll hne hctr ⊢
  generalize (d.setFlag Reg.PWCK_CLK_STATUS.REFCLK_LOST true).regs = r at *
  generalize hs : ({ d with regs := r } : Dev) = s at *
  refine ⟨?_, ?_, ?_, ?_, fun a ha => ?_, ?_⟩
  · rw [← hset]
    exact Dev.flag_congr_reg (by simp)
  · rw [← hpll]
    exact Dev.flag_congr_reg (by simp)
  · rw [Dev.counted, if_neg (by decide), Dev.ctr_submit _ _ (by decide), Dev.cnt, Dev.ctr_cntBy_same, hctr]
  · rw [Dev.logQ_submit, Dev.refclkRec_congr (Dev.reg_submit _ _ _)]
    exact Dev.queued_congr (by simp [← hs]) _
  · rw [Dev.reg_submit, Dev.reg_cnt]
    exact hne a (by simpa using ha)
  · rw [Dev.submit_frame_eq, Dev.cnt_frame_eq, ← hs]

/-- The return of the reference clock (R411). -/
theorem refclkReturn_effect (d : Dev) :
    let e := d.setFlag Reg.PWCK_CLK_STATUS.REFCLK_LOST false
    e.flag Reg.PWCK_CLK_STATUS.REFCLK_LOST = false ∧
      e.flag Reg.PWCK_CLK_STATUS.PLL_LOCK = d.flag Reg.PWCK_CLK_STATUS.PLL_LOCK ∧
      e.rd Reg.PWCK_CLK_STATUS.SREF_LOST = d.rd Reg.PWCK_CLK_STATUS.SREF_LOST ∧ d.regsBut e [Reg.PWCK_CLK_STATUS.addr] ∧
      e = { d with regs := e.regs } := by
  refine ⟨d.flag_setFlag_same _ _ (by decide) rfl, ?_, ?_, fun a ha => ?_, d.setFlag_frame_eq _ _⟩
  · rw [Dev.flag, Dev.setFlag_eq, d.rd_wr_disjoint _ _ _ (by decide) (by rfl) (by decide), Dev.flag]
  · rw [Dev.setFlag_eq, d.rd_wr_disjoint _ _ _ (by decide) (by rfl) (by decide)]
  · exact d.reg_setFlag_ne _ _ _ (List.ne_of_not_mem_cons ha)

theorem clkStatus_notMem_grpStatus (k : Nat) :
    Reg.PWCK_CLK_STATUS.addr ∉ (List.range 8).map fun i => Reg.PORT_GRP_STATUS.addr (8 * k + i) := by
  intro h
  obtain ⟨i, -, hi⟩ := List.mem_map.mp h
  simp only [Reg.PWCK_CLK_STATUS.addr, Reg.PORT_GRP_STATUS.addr] at hi
  omega

theorem portStatus_notMem_clocks (n k : Nat) : Reg.PORT_STATUS.addr n ∉
    Reg.PWCK_CLK_STATUS.addr :: (List.range 8).map fun i => Reg.PORT_GRP_STATUS.addr (8 * k + i) := by
  intro h
  rcases List.mem_cons.mp h with h | h
  · exact portStatus_ne_clkStatus n h
  · obtain ⟨i, -, hi⟩ := List.mem_map.mp h
    exact portStatus_ne_grpStatus n _ hi.symm

theorem domStatus_ne_grpStatus (g : Nat) {i : Nat} (hi : i < 64) : Reg.PWCK_DOM_STATUS.addr g ≠ Reg.PORT_GRP_STATUS.addr i := by
  simp only [Reg.PWCK_DOM_STATUS.addr, Reg.PORT_GRP_STATUS.addr]
  omega

/-- A mark of SREF_LOST that moves, as seen in a state that has kept the clock status since. -/
theorem Dev.maskBit_of_setBitOf {d e : Dev} {k : Nat} {b : Bool} (hk : k < 8)
    (h : e.reg Reg.PWCK_CLK_STATUS.addr = (d.setBitOf Reg.PWCK_CLK_STATUS.SREF_LOST k b).reg Reg.PWCK_CLK_STATUS.addr) :
    d.maskBit e Reg.PWCK_CLK_STATUS.SREF_LOST k b := by
  have hbit : ∀ j, e.bitOf Reg.PWCK_CLK_STATUS.SREF_LOST j = if j = k then b else d.bitOf Reg.PWCK_CLK_STATUS.SREF_LOST j :=
    fun j => (Dev.bitOf_congr_reg h j).trans (d.bitOf_setBitOf _ _ _ _ (by decide) hk)
  exact ⟨(hbit k).trans (if_pos rfl), fun j hj => (hbit j).trans (if_neg hj)⟩

/-- The loss of a serial clock that was present, before the links fall (R411). -/
theorem srefMarked_effect (d : Dev) {k : Nat} (hk : k < 8) :
    d.maskBit (d.srefMarked k) Reg.PWCK_CLK_STATUS.SREF_LOST k true ∧ d.counted (d.srefMarked k) .srefLossEvents k 1 ∧
      (∀ i, i < 8 → (d.srefMarked k).flag (Reg.PORT_GRP_STATUS.TX_PLL_LOCK (8 * k + i)) = false) ∧
      d.regsBut (d.srefMarked k)
        (Reg.PWCK_CLK_STATUS.addr :: (List.range 8).map fun i => Reg.PORT_GRP_STATUS.addr (8 * k + i)) ∧
      d.srefMarked k = { d with
        regs := (d.srefMarked k).regs, ctrs := (d.srefMarked k).ctrs, ctrOvf := (d.srefMarked k).ctrOvf } := by
  obtain ⟨hf, hr, hg⟩ := foldl_setPllLock k false (fun _ _ => True) (List.range 8) List.nodup_range
    (fun _ _ _ _ _ => Iff.rfl) ((d.setBitOf Reg.PWCK_CLK_STATUS.SREF_LOST k true).cnt .srefLossEvents k)
  simp only [if_true] at hf hr hg
  rw [← Dev.srefMarked] at hf hr hg
  have hclk := hr _ (clkStatus_notMem_grpStatus k)
  rw [Dev.reg_cnt] at hclk
  refine ⟨Dev.maskBit_of_setBitOf hk hclk, ?_, fun i hi => hg i (List.mem_range.mpr hi), fun a ha => ?_, ?_⟩
  · have hc := congrArg Dev.ctrs hf
    dsimp only at hc
    rw [Dev.counted, if_neg (by decide), Dev.ctr_congr hc, Dev.cnt, Dev.ctr_cntBy_same, Dev.ctr_setBitOf]
  · rw [List.mem_cons, not_or] at ha
    rw [hr a ha.2, Dev.reg_cnt]
    exact d.reg_setBitOf_ne _ _ _ _ ha.1
  · rw [Dev.setBitOf_frame_eq, Dev.cnt_frame_eq] at hf
    rw [hf]

/-- The return of a serial clock (R411): the quads whose domain is on lock again. -/
theorem srefReturn_effect (d : Dev) {k : Nat} (hk : k < 8) :
    d.maskBit (srefReturn k d) Reg.PWCK_CLK_STATUS.SREF_LOST k false ∧
      (∀ i, i < 8 → (srefReturn k d).flag (Reg.PORT_GRP_STATUS.TX_PLL_LOCK (8 * k + i)) =
        (d.flag (Reg.PORT_GRP_STATUS.TX_PLL_LOCK (8 * k + i)) || d.rd (Reg.PWCK_DOM_STATUS.STATE (8 * k + i)) == 2)) ∧
      d.regsBut (srefReturn k d)
        (Reg.PWCK_CLK_STATUS.addr :: (List.range 8).map fun i => Reg.PORT_GRP_STATUS.addr (8 * k + i)) ∧
      srefReturn k d = { d with regs := (srefReturn k d).regs } := by
  obtain ⟨hf, hr, hg⟩ := foldl_setPllLock k true (fun d i => d.rd (Reg.PWCK_DOM_STATUS.STATE (8 * k + i)) = 2)
    (List.range 8) List.nodup_range (fun d j hj v i => by
      have hj8 := List.mem_range.mp hj
      rw [Dev.rd_congr_reg (d.reg_setFlag_ne _ _ _ (domStatus_ne_grpStatus _ (by omega)))])
    (d.setBitOf Reg.PWCK_CLK_STATUS.SREF_LOST k false)
  rw [← srefReturn_of_lt hk] at hf hr hg
  refine ⟨Dev.maskBit_of_setBitOf hk (hr _ (clkStatus_notMem_grpStatus k)), fun i hi => ?_, fun a ha => ?_, ?_⟩
  · have hg' : Reg.PORT_GRP_STATUS.addr (8 * k + i) ≠ Reg.PWCK_CLK_STATUS.addr := by
      simp only [Reg.PORT_GRP_STATUS.addr, Reg.PWCK_CLK_STATUS.addr]
      omega
    have hs : Reg.PWCK_DOM_STATUS.addr (8 * k + i) ≠ Reg.PWCK_CLK_STATUS.addr := by
      simp only [Reg.PWCK_DOM_STATUS.addr, Reg.PWCK_CLK_STATUS.addr]
      omega
    rw [hg i (List.mem_range.mpr hi), Dev.rd_congr_reg (d.reg_setBitOf_ne _ _ _ _ hs),
      Dev.flag_congr_reg (d.reg_setBitOf_ne _ _ _ _ hg')]
    generalize d.rd (Reg.PWCK_DOM_STATUS.STATE (8 * k + i)) = x
    by_cases hx : x = 2 <;> simp [hx]
  · rw [List.mem_cons, not_or] at ha
    rw [hr a ha.2]
    exact d.reg_setBitOf_ne _ _ _ _ ha.1
  · rw [Dev.setBitOf_frame_eq] at hf
    rw [hf]

/-- The loss of a serial clock with the fall of its links (R90, R411): what the links' fall moves is not what the loss has set. -/
theorem srefLoss_effect (d : Dev) {k : Nat} (hk : k < 8) :
    let e := (d.srefMarked k).dropLinks (srefPorts k)
    d.maskBit e Reg.PWCK_CLK_STATUS.SREF_LOST k true ∧ d.counted e .srefLossEvents k 1 ∧
      (∀ i, i < 8 → e.flag (Reg.PORT_GRP_STATUS.TX_PLL_LOCK (8 * k + i)) = false) ∧
      (∀ p ∈ srefPorts k, e.flag (Reg.PORT_STATUS.LINK_UP p) = false) ∧ e.hold = d.hold ∧ e.now = d.now ∧
      ((∀ p ∈ srefPorts k, d.flag (Reg.PORT_STATUS.LINK_UP p) = false) →
        d.regsBut e (Reg.PWCK_CLK_STATUS.addr :: (List.range 8).map fun i => Reg.PORT_GRP_STATUS.addr (8 * k + i)) ∧
        e = { d with regs := e.regs, ctrs := e.ctrs, ctrOvf := e.ctrOvf }) := by
  intro e
  obtain ⟨⟨hset, hother⟩, hcount, hpll, hregs, hframe⟩ := srefMarked_effect d hk
  have hlinks : (d.srefMarked k).SameClocks e := (Dev.SameClocks.refl _).dropLinks _
  have hbit : ∀ j, e.bitOf Reg.PWCK_CLK_STATUS.SREF_LOST j = (d.srefMarked k).bitOf Reg.PWCK_CLK_STATUS.SREF_LOST j :=
    Dev.bitOf_congr_reg hlinks.clk
  have hhold := hlinks.hold
  have hnow := hlinks.now
  rw [hframe] at hhold hnow
  refine ⟨⟨(hbit k).trans hset, fun j hj => (hbit j).trans (hother j hj)⟩, (hlinks.lost k).trans hcount, fun i hi => ?_,
    Dev.flag_dropLinks _ _ fun p hp => srefPorts_lt hk hp, hhold, hnow, fun hdown => ?_⟩
  · exact (Dev.flag_congr_reg (hlinks.grp _ (by omega))).trans (hpll i hi)
  · have hstill : e = d.srefMarked k := Dev.dropLinks_of_down _ _ fun p hp =>
      (Dev.flag_congr_reg (hregs _ (portStatus_notMem_clocks p k))).trans (hdown p hp)
    rw [hstill]
    exact ⟨hregs, hframe⟩

end Sys2Proof.Machine

section
open Sys2Proof Sys2Proof.Machine

/-- Settles O58: every reset is `ResetTo` of its conditions, the losses and returns of clocks act once on their mark, and a link that
falls touches nothing that the loss of its clock has set (`Dev.SameClocks`). -/
theorem resetsAndClockLosses : Obligations.ResetsAndClockLosses := by
  unfold Obligations.ResetsAndClockLosses
  refine ⟨fun d q i b n h lock zero hb hn hi => ?_, fun d q hp => ?_, fun d q hl => ⟨fun hf => ?_, fun hf => ?_, ?_⟩,
    fun d q k hl => ⟨fun hk => ?_, fun hk => ?_, fun hk hs => ?_, fun hk => ?_⟩⟩
  · have hr : ∃ e, exec i ⟨d, q⟩ = .next ⟨e, q⟩ ∧ d.ResetTo e b n h lock zero := by
      rcases hi with ⟨rfl, rfl, rfl, rfl⟩ | ⟨rfl, hp, rfl, rfl, rfl⟩ | ⟨rfl, rfl, rfl, rfl⟩
      · exact ⟨_, rfl, porAssert_resetTo d b n⟩
      · exact ⟨_, rfl, pwrGoodFall_resetTo hp b n⟩
      · exact ⟨_, rfl, sysRst_resetTo d hb hn⟩
    obtain ⟨e, he, hr⟩ := hr
    exact ⟨e, he, hr.hold, hr.pll, hr.refclk, hr.sref, hr.shutdown, hr.fuses, hr.other, hr.still, hr.begun, hr.boot, hr.frame⟩
  · exact congrArg (fun e => Host.Outcome.next (State.mk e q)) (pwrGoodFall_of_low hp)
  · rw [exec_refclkLoss hl, refclkLoss_of_set hf]
  · exact ⟨_, exec_refclkLoss hl q, refclkLoss_effect hf⟩
  · exact ⟨_, exec_refclkReturn hl q, refclkReturn_effect d⟩
  · rw [exec_srefLoss hl, exec_srefReturn hl, srefLoss_of_lost (.inl hk), srefReturn, if_pos hk]
    exact ⟨rfl, rfl⟩
  · rw [exec_srefLoss hl, srefLoss_of_lost (.inr hk)]
  · rw [exec_srefLoss hl, srefLoss_of_present hk hs]
    exact ⟨_, rfl, srefLoss_effect d hk⟩
  · exact ⟨_, exec_srefReturn hl q k, srefReturn_effect d hk⟩

end

namespace Sys2Proof.Machine

/-! ### Where registers stand (R26, R27) -/

theorem matchDims_aligned {dims : List (Nat × Nat)} {off : Nat} {ix : List Nat} (hs : ∀ s ∈ dims, s.2 % 4 = 0)
    (h : matchDims dims off = some ix) : off % 4 = 0 := by
  induction dims generalizing off ix with
  | nil =>
    simp only [matchDims] at h
    split at h
    · simp_all
    · cases h
  | cons s r ih =>
    simp only [matchDims] at h
    split at h
    · obtain ⟨jx, hj, -⟩ := Option.map_eq_some_iff.mp h
      have hr := ih (fun t ht => hs t (List.mem_cons_of_mem _ ht)) hj
      have hs4 := Nat.dvd_of_mod_eq_zero (hs s List.mem_cons_self)
      rwa [Nat.mod_mod_of_dvd _ hs4] at hr
    · cases h

/-- Every block of the register map starts at a word, and its strides are words. -/
theorem regTable_aligned (z : Nat) :
    ((regTable z).all fun r => r.blocks.all fun b => b.1 % 4 == 0 && b.2.all fun s => s.2 % 4 == 0) = true := by
  unfold regTable
  split <;> decide

theorem findReg_aligned {a : Nat} {x : RDecl × List Nat} (h : findReg a = some x) : a % 4 = 0 := by
  obtain ⟨r, hr, h⟩ := List.exists_of_findSome?_eq_some h
  obtain ⟨b, hb, h⟩ := List.exists_of_findSome?_eq_some h
  have hal := List.all_eq_true.mp (List.all_eq_true.mp (regTable_aligned _) r hr) b hb
  simp only [Bool.and_eq_true, beq_iff_eq, List.all_eq_true] at hal
  split at h
  · cases h
  · obtain ⟨jx, hj, -⟩ := Option.map_eq_some_iff.mp h
    have := matchDims_aligned hal.2 hj
    omega

/-! ### What counting accesses moves (R378) -/

/-- The registers that the bus event counters move: the interrupt status and the high words. -/
def becRegs : List Nat := Reg.HOST_INT_STATUS.addr :: (List.range 16).map Reg.HOST_BEC_HI.addr

theorem notMem_becRegs {a : Nat} (h : a < 0x0C000000 ∨ 0x0C201000 ≤ a) : a ∉ becRegs := by
  simp only [becRegs, List.mem_cons, List.mem_map, List.mem_range, Reg.HOST_INT_STATUS.addr, Reg.HOST_BEC_HI.addr]
  rintro (rfl | ⟨i, hi, rfl⟩) <;> omega

theorem becCfg_notMem_becRegs (k : Nat) : Reg.HOST_BEC_CFG.addr k ∉ becRegs := by
  simp only [becRegs, List.mem_cons, List.mem_map, List.mem_range, Reg.HOST_INT_STATUS.addr, Reg.HOST_BEC_HI.addr,
    Reg.HOST_BEC_CFG.addr]
  rintro (h | ⟨i, hi, h⟩) <;> omega

theorem dbgCtrl_notMem_becRegs : Reg.HOST_DBG_CTRL.addr ∉ becRegs := by decide

theorem becHi_mem_becRegs {k : Nat} (hk : k < 16) : Reg.HOST_BEC_HI.addr k ∈ becRegs :=
  List.mem_cons_of_mem _ (List.mem_map_of_mem (List.mem_range.mpr hk))

theorem becRegs_names : (becRegs.all fun a => (findReg a).any fun x => ["HOST_INT_STATUS", "HOST_BEC_HI"].contains x.1.name) = true := by
  decide

theorem notMem_becRegs_of_name {a : Nat} {r : RDecl} {ix : List Nat} (hf : findReg a = some (r, ix))
    (hn : r.name ∉ ["HOST_INT_STATUS", "HOST_BEC_HI"]) : a ∉ becRegs := fun hm => by
  have := List.all_eq_true.mp becRegs_names a hm
  rw [hf] at this
  exact hn (List.contains_iff_mem.mp this)

/-- `e` differs from `d` by bus event counts, what their wraps raise, and what has left the device, if at all. -/
structure Dev.BecOnly (d e : Dev) : Prop where
  regs : d.regsBut e becRegs
  host : e.host = { d.host with bec := e.host.bec }
  frame : e = { d with regs := e.regs, host := e.host, wire := e.wire }

/-- A frame over the registers, the host interface and the outside record goes through a further such step. -/
theorem Dev.frame_trans {b d e : Dev} (h : d = { b with regs := d.regs, host := d.host, wire := d.wire })
    (h' : e = { d with regs := e.regs, host := e.host, wire := e.wire }) :
    e = { b with regs := e.regs, host := e.host, wire := e.wire } :=
  h'.trans (congrArg (fun x : Dev => { x with regs := e.regs, host := e.host, wire := e.wire }) h)

namespace Dev.BecOnly

theorem refl (d : Dev) : d.BecOnly d := ⟨fun _ _ => rfl, rfl, rfl⟩

section
variable {b d : Dev} (h : b.BecOnly d)
include h

theorem of_parts {e : Dev} (hr : d.regsBut e becRegs) (hh : e.host = d.host)
    (hf : e = { d with regs := e.regs, host := e.host, wire := e.wire }) : b.BecOnly e where
  regs a ha := (hr a ha).trans (h.regs a ha)
  host := by rw [hh, h.host]
  frame := Dev.frame_trans h.frame hf

theorem setReg {a : Nat} (ha : a ∈ becRegs) (w : Word) : b.BecOnly (d.setReg a w) :=
  h.of_parts (fun _ hx => d.reg_setReg_ne _ _ _ fun e => hx (e ▸ ha)) rfl rfl

theorem setReg_self (a : Nat) : b.BecOnly (d.setReg a (d.reg a)) := by
  refine h.of_parts (fun x _ => ?_) rfl rfl
  by_cases hx : x = a
  · rw [hx, Dev.reg_setReg_same]
  · exact d.reg_setReg_ne _ _ _ hx

theorem setFlag {r : FRef} (ha : r.addr ∈ becRegs) (v : Bool) : b.BecOnly (d.setFlag r v) := h.setReg ha _
theorem wr {r : FRef} (ha : r.addr ∈ becRegs) (v : Nat) : b.BecOnly (d.wr r v) := h.setReg ha _

theorem out (o : Out) : b.BecOnly (d.out o) := h.of_parts (fun _ _ => rfl) rfl rfl

theorem irq (v : Nat) : b.BecOnly (d.irq v) :=
  h.of_parts (fun a ha => d.reg_irq_ne v a (List.ne_of_not_mem_cons ha)) (by simp) (by rw [Dev.irq_frame_eq])

theorem setBec (t : Tab Nat) : b.BecOnly { d with host := { d.host with bec := t } } where
  regs := h.regs
  host := by rw [h.host]
  frame := Dev.frame_trans h.frame rfl

theorem becOne (m a : Nat) (c : AccessClass) {k : Nat} (hk : k < 16) : b.BecOnly (d.becOne m a c k) := by
  unfold Dev.becOne
  split
  · dsimp only
    split
    · exact h.setBec _
    · exact ((h.setBec _).setFlag (becHi_mem_becRegs hk) _).irq 6
  · exact h

theorem becCount (m a : Nat) (c : AccessClass) : b.BecOnly (d.becCount m a c) :=
  List.foldlRecOn _ _ h fun _ hd _ hk => hd.becOne m a c (List.mem_range.mp hk)

theorem busWrite (m a v k : Nat) : b.BecOnly (d.busWrite m a v k).1 := by
  unfold Dev.busWrite
  dsimp only
  split
  · exact h.becCount _ _ _
  · exact h

theorem fullError (m a v : Nat) : b.BecOnly (d.fullError m a v) := by
  unfold Dev.fullError
  split
  · exact h.out _
  · exact h

theorem busReadW (m a : Nat) (w : Word) : b.BecOnly (d.busReadW m a w) := by
  unfold Dev.busReadW
  split
  · exact (h.becCount _ _ _).out _
  · exact h

theorem privileged (m : Nat) : d.privileged m = b.privileged m := by
  rw [Dev.privileged, Dev.flag_congr_reg (h.regs _ dbgCtrl_notMem_becRegs), Dev.privileged]

theorem counterOf (i : Nat) : d.counterOf i = b.counterOf i := by
  rw [Dev.counterOf, h.host, Dev.counterOf]

end
end Dev.BecOnly

/-- Counter `k` stands in `e` as in `d`, with its high word, and does not count (R378). -/
structure Dev.BecStill (d e : Dev) (k : Nat) : Prop where
  off : e.flag (Reg.HOST_BEC_CFG.EN k) = false
  count : tget e.host.bec 0 k = tget d.host.bec 0 k
  high : e.reg (Reg.HOST_BEC_HI.addr k) = d.reg (Reg.HOST_BEC_HI.addr k)

theorem Dev.BecStill.becOne {b d : Dev} {k j : Nat} (h : b.BecStill d k) (hj : j < 16) (m a : Nat) (c : AccessClass) :
    b.BecStill (d.becOne m a c j) k := by
  have hoff : (d.becOne m a c j).flag (Reg.HOST_BEC_CFG.EN k) = false :=
    (Dev.flag_congr_reg (((Dev.BecOnly.refl d).becOne m a c hj).regs _ (becCfg_notMem_becRegs k))).trans h.off
  by_cases hjk : j = k
  · rw [Dev.becOne, if_neg (by simp [hjk, h.off])]
    exact h
  · refine ⟨hoff, ?_, ?_⟩
    · refine Eq.trans ?_ h.count
      unfold Dev.becOne
      split
      · dsimp only
        split
        · exact tget_tput_ne _ _ _ _ _ _ (Ne.symm hjk)
        · rw [(Dev.irq_frame_eq _ _), Dev.setFlag_frame_eq]
          exact tget_tput_ne _ _ _ _ _ _ (Ne.symm hjk)
      · rfl
    · refine Eq.trans ?_ h.high
      have hi : Reg.HOST_BEC_HI.addr k ≠ Reg.HOST_INT_STATUS.addr := by
        simp only [Reg.HOST_BEC_HI.addr, Reg.HOST_INT_STATUS.addr]
        omega
      have hh : Reg.HOST_BEC_HI.addr k ≠ Reg.HOST_BEC_HI.addr j := by
        simp only [Reg.HOST_BEC_HI.addr]
        omega
      unfold Dev.becOne
      split
      · dsimp only
        split
        · rfl
        · rw [Dev.reg_irq_ne _ _ _ hi]
          exact Dev.reg_setFlag_ne _ _ _ _ hh
      · rfl

theorem Dev.becCount_still {d : Dev} {k : Nat} (h : d.flag (Reg.HOST_BEC_CFG.EN k) = false) (m a : Nat) (c : AccessClass) :
    d.BecStill (d.becCount m a c) k :=
  List.foldlRecOn (motive := fun e => d.BecStill e k) _ _ ⟨h, rfl, rfl⟩ fun _ he _ hj => he.becOne (List.mem_range.mp hj) m a c

/-! ### A write that reaches its register (R15, R16, R363, R377) -/

theorem hwWord_zero (r : RDecl) : hwWord r 0 = 0 := by
  unfold hwWord
  refine List.foldlRecOn (motive := fun w : Word => w = 0) _ _ rfl fun w hw f _ => ?_
  subst hw
  split
  · simp [fget, fput]
  · rfl

theorem Dev.hwSetActs_zero (d : Dev) (a : Nat) (old : Word) : d.hwSetActs a old 0 = d := by
  unfold Dev.hwSetActs
  split
  · simp
  · split
    · simp
    · rfl

/-- The registers at which a command, a unit or a mailbox hangs, so that a write of them does more than to write their fields. -/
def unitNames : List String :=
  ["PARS_STORE_SEL", "FABR_ROT", "SUPV_PAIR_CTRL", "SUPV_LOG_CFG", "SUPV_LOG_PUT", "SUPV_HB", "SUPV_PMC_LO", "HOST_DBG_CTRL",
    "HOST_MB_CTRL", "HOST_MB_BUF", "HOST_BEC_CMD", "HOST_INT_EN", "REAM_WIN_CMD", "PORT_GRP_MODE", "PORT_LANE_TXEQ", "TIME_INST_CFG",
    "TIME_INST_PORTS", "TIME_INST_INTV", "TIME_PAIR_CFG", "SEAL_Q_BLOCKS", "SEAL_Q_RES", "MODL_CAGE_CFG", "MODL_BUS_CFG"]

section
variable {d : Dev} {m a v : Nat} {r : RDecl} {ix : List Nat} (hf : findReg a = some (r, ix))
include hf

theorem Dev.commandBits_plain (hn : r.name ∉ unitNames) : d.commandBits m a v = d := by
  unfold Dev.commandBits
  rw [hf]
  dsimp only
  split <;> simp_all [unitNames]

theorem Dev.regWritten_plain (hn : r.name ∉ unitNames) (hp : portOfAddr a = none) (old : Word) : d.regWritten a old = d := by
  unfold Dev.regWritten
  rw [hf, hp]
  dsimp only
  split <;> simp_all [unitNames]

theorem Dev.fullMailbox_plain (hn : r.name ∉ ["HOST_MB_BUF", "HOST_MB_CTRL"]) : d.fullMailbox m a v = false := by
  unfold Dev.fullMailbox
  rw [hf]
  simp_all

theorem Dev.fullError_plain (hn : r.name ∉ ["HOST_MB_BUF", "HOST_MB_CTRL"]) : d.fullError m a v = d := by
  rw [Dev.fullError, Dev.fullMailbox_plain hf hn]
  rfl

/-- An aligned write of a whole register that breaks no path rule acts, whoever sends it. -/
theorem Dev.writeActs_plain (hn : r.name ∉ ["HOST_MB_BUF", "HOST_MB_CTRL"]) (hr : d.reaches m = true)
    (hb : d.pathBroken m a true v = false) : d.writeActs m a v 15 = true := by
  rw [Dev.writeActs, Dev.classify, Dev.fullMailbox_plain hf hn, hf, findReg_aligned hf, hr, hb]
  dsimp only
  split
  · simp_all
  · split <;> decide

theorem Dev.writeReg_plain (hp : portOfAddr a = none) (p : Bool) (w hw : Word) :
    d.writeReg p a w hw = d.setReg a (writeWord p r (d.reg a) w hw) := by
  rw [Dev.writeReg, hf, hp]

/-- A write of a register that no command or unit hangs on, which acts: the access counts, and each field is written by its type. -/
theorem registerWrite_plain (hn : r.name ∉ unitNames) (hp : portOfAddr a = none) (hr : d.reaches m = true)
    (hb : d.pathBroken m a true v = false) (h : Nat) : ∃ s, d.BecOnly s ∧ registerWrite m a v 15 h d =
      (s.setReg a (writeWord (d.privileged m) r (s.reg a) (BitVec.ofNat 32 v) (hwWord r h))).hwSetActs a (s.reg a) (hwWord r h) := by
  have hmb : r.name ∉ ["HOST_MB_BUF", "HOST_MB_CTRL"] := fun hm =>
    hn ((show ["HOST_MB_BUF", "HOST_MB_CTRL"] ⊆ unitNames by decide) hm)
  have hcmd : r.name ≠ "HOST_BEC_CMD" := fun he => hn (he ▸ by decide)
  have hs := (Dev.BecOnly.refl d).busWrite m a v 15
  refine ⟨(d.busWrite m a v 15).1, hs, ?_⟩
  have hok : (d.busWrite m a v 15).2 = true := Dev.writeActs_plain hf hmb hr hb
  unfold registerWrite
  rw [hf]
  dsimp only
  rw [if_neg (by simp [hcmd]), Dev.fullError_plain hf hmb, hok, if_pos rfl, Dev.putReg, Dev.writeReg_plain hf hp,
    Dev.commandBits_plain hf hn, Dev.regWritten_plain hf hn hp, hs.privileged]

end

/-- A write that has no effect, in a cycle in which hardware sets nothing, is counted at most. -/
theorem registerWrite_idle {d : Dev} {m a v b : Nat} (hn : ∀ r ix, findReg a = some (r, ix) → b = 15 → r.name ≠ "HOST_BEC_CMD")
    (hact : (d.fullError m a v).writeActs m a v b = false) : d.BecOnly (registerWrite m a v b 0 d) := by
  have h := Dev.BecOnly.refl d
  unfold registerWrite
  split
  · exact h.busWrite m a v b
  · rename_i r ix hf
    dsimp only
    have hs := (h.fullError m a v).busWrite m a v b
    have hok : ((d.fullError m a v).busWrite m a v b).2 = false := hact
    split
    · rename_i hc
      simp only [Bool.and_eq_true, decide_eq_true_eq] at hc
      exact absurd hc.1 (hn r ix hf hc.2)
    · rw [hok, if_neg (by simp), hwWord_zero, Dev.hwSetActs_zero, show ∀ w : Word, w ||| 0 = w from fun _ => BitVec.or_zero]
      exact hs.setReg_self a

/-- A write that is unaligned, not whole, or not to a register, is counted at most (R17, R26). -/
theorem registerWrite_refused {d : Dev} {m a v b : Nat} (h : a % 4 ≠ 0 ∨ b ≠ 15 ∨ findReg a = none) :
    d.BecOnly (registerWrite m a v b 0 d) := by
  refine registerWrite_idle (fun r ix hf hb => ?_) ?_
  · rcases h with h | h | h
    · exact absurd (findReg_aligned hf) h
    · exact absurd hb h
    · exact absurd hf (by simp [h])
  · unfold Dev.writeActs Dev.classify
    dsimp only
    split
    · simp
    · rename_i hc
      have hnone : findReg a = none := by
        simp only [Bool.or_eq_true, decide_eq_true_eq, not_or, Bool.true_and, not_not] at hc
        rcases h with h | h | h
        · exact absurd hc.1.1 h
        · exact absurd hc.1.2 h
        · exact h
      rw [hnone]
      simp

theorem registerWrite_unreached {d : Dev} {m a v : Nat} {r : RDecl} {ix : List Nat} (hf : findReg a = some (r, ix))
    (hn : r.name ≠ "HOST_BEC_CMD") (hr : d.reaches m = false) : d.BecOnly (registerWrite m a v 15 0 d) :=
  registerWrite_idle (fun r' ix' hf' _ => by
      rw [hf, Option.some.injEq, Prod.mk.injEq] at hf'
      exact hf'.1 ▸ hn) (by
    have hr' : (d.fullError m a v).reaches m = false := by
      unfold Dev.fullError
      split
      · exact hr
      · exact hr
    rw [Dev.writeActs, hr']
    rfl)

theorem exec_registerWrite {d : Dev} (hl : d.hold.live = true) (q : List Instr) (m a v b h : Nat) :
    exec (.registerWrite m a v b h) ⟨d, q⟩ = .next ⟨registerWrite m a v b h d, q⟩ := State.on_live hl q _

/-! ### Fields under their access types (R15, R16, R424) -/

theorem fput_fget_self (w : Word) (lo wd : Nat) (h : lo + wd ≤ 32) : fput w lo wd (fget w lo wd) = w := by
  apply BitVec.eq_of_toNat_eq
  apply Nat.eq_of_testBit_eq
  intro i
  rw [fput_testBit _ _ _ _ _ h, fget_testBit]
  split
  · rfl
  · split
    · have hi : i - lo < wd := by omega
      have hb : lo + (i - lo) = i := by omega
      simp [hi, hb]
    · rfl

/-- A master without privilege leaves a register whose fields are privileged or read-only. -/
theorem writeWord_unprivileged {r : RDecl} (hr : ∀ f ∈ r.fields, f.lo + f.width ≤ 32 ∧ (f.priv = true ∨ f.acc = .ro)) (old v : Word) :
    writeWord false r old v 0 = old := by
  unfold writeWord
  refine List.foldlRecOn (motive := fun w : Word => w = old) _ _ rfl fun w hw f hf => ?_
  subst hw
  obtain ⟨hwd, hp⟩ := hr f hf
  have hz : fget (0 : Word) f.lo f.width = 0 := by simp [fget]
  unfold writeField
  dsimp only
  rw [hz]
  split
  · split
    · rw [Nat.or_zero, fput_fget_self _ _ _ hwd]
    · exact fput_fget_self _ _ _ hwd
  · rcases hp with hp | hp
    · simp_all
    · rw [hp]

/-- The register SUPV_THERM_CFG. -/
def thermCfgDecl : RDecl := ⟨"SUPV_THERM_CFG", [(0x0B100000, [])], [0x00550569],
  [⟨16, 7, .rw, true, .within 60 105⟩, ⟨8, 5, .rw, true, .within 1 20⟩, ⟨0, 7, .rw, true, .within 60 115⟩]⟩

theorem findReg_thermCfg : findReg Reg.SUPV_THERM_CFG.addr = some (thermCfgDecl, []) := by decide

/-- The register SUPV_ALM. -/
def almDecl : RDecl := ⟨"SUPV_ALM", [(0x0B000108, [])], [0x00000000],
  [⟨24, 8, .w1c, true, .any⟩, ⟨16, 8, .w1c, true, .any⟩, ⟨8, 8, .w1c, true, .any⟩, ⟨0, 8, .ro, false, .any⟩]⟩

theorem findReg_alm : findReg Reg.SUPV_ALM.addr = some (almDecl, []) := by decide

/-! ### The clauses of register writes -/

/-- A frame written out, as the statement has it. -/
theorem Dev.BecOnly.setReg_frame {d s : Dev} (h : d.BecOnly s) (a : Nat) (w : Word) :
    s.setReg a w = { d with regs := (s.setReg a w).regs, host := (s.setReg a w).host, wire := (s.setReg a w).wire } :=
  Dev.frame_trans h.frame rfl

theorem Dev.wr_frame_bus (d : Dev) (r : FRef) (v : Nat) :
    d.wr r v = { d with regs := (d.wr r v).regs, host := (d.wr r v).host, wire := (d.wr r v).wire } := rfl

theorem Dev.BecOnly.wr_frame {d s : Dev} (h : d.BecOnly s) (r : FRef) (v : Nat) :
    s.wr r v = { d with regs := (s.wr r v).regs, host := (s.wr r v).host, wire := (s.wr r v).wire } :=
  Dev.frame_trans h.frame (s.wr_frame_bus r v)

/-- A plain write in a cycle in which hardware sets nothing (R15, R16, R424). -/
theorem registerWrite_fields {d : Dev} {m a v : Nat} {r : RDecl} {ix : List Nat} (hf : findReg a = some (r, ix))
    (hn : r.name ∉ unitNames) (hi : r.name ∉ ["HOST_INT_STATUS", "HOST_BEC_HI"]) (hp : portOfAddr a = none)
    (hr : d.reaches m = true) (hb : d.pathBroken m a true v = false) :
    let e := registerWrite m a v 15 0 d
    e.reg a = writeWord (d.privileged m) r (d.reg a) (BitVec.ofNat 32 v) 0 ∧ d.regsBut e (a :: becRegs) ∧
      e = { d with regs := e.regs, host := e.host, wire := e.wire } := by
  intro e
  obtain ⟨s, hs, he⟩ := registerWrite_plain hf hn hp hr hb 0
  rw [hwWord_zero, Dev.hwSetActs_zero, hs.regs a (notMem_becRegs_of_name hf hi)] at he
  replace he : e = _ := he
  rw [he]
  refine ⟨Dev.reg_setReg_same _ _ _, fun x hx => ?_, hs.setReg_frame a _⟩
  rw [List.mem_cons, not_or] at hx
  rw [Dev.reg_setReg_ne _ _ _ _ hx.1, hs.regs x hx.2]

theorem supv_reaches {d : Dev} {m : Nat} (hm : m = 0x10 ∨ m = 0x11) : d.reaches m = true := by
  rcases hm with rfl | rfl <;> rfl

theorem supv_privileged {d : Dev} {m : Nat} (hm : m = 0x10 ∨ m = 0x11) : d.privileged m = true := by
  rcases hm with rfl | rfl <;> rfl

theorem pathBroken_thermCfg (d : Dev) (m v : Nat) : d.pathBroken m Reg.SUPV_THERM_CFG.addr true v = false := by
  rw [Dev.pathBroken, findReg_thermCfg]
  rfl

theorem pathBroken_alm (d : Dev) (m v : Nat) : d.pathBroken m Reg.SUPV_ALM.addr true v = false := by
  rw [Dev.pathBroken, findReg_alm]
  rfl

theorem hwWord_thermCfg (h : Nat) : hwWord thermCfgDecl h = 0 := rfl

theorem fget_ofNat (v lo wd : Nat) (h : lo + wd ≤ 32) : fget (BitVec.ofNat 32 v) lo wd = v / 2 ^ lo % 2 ^ wd := by
  apply Nat.eq_of_testBit_eq
  intro i
  rw [fget_testBit, BitVec.toNat_ofNat, Nat.testBit_mod_two_pow, Nat.testBit_mod_two_pow, Nat.testBit_div_two_pow]
  by_cases hi : i < wd
  · have hl : lo + i < 32 := by omega
    simp [hi, hl, Nat.add_comm]
  · simp [hi]

theorem clampRng_within {lo hi : Nat} (h : lo ≤ hi) (v : Nat) : clampRng (.within lo hi) v = min hi (max lo v) := by
  simp only [clampRng]
  split
  · omega
  · split <;> omega

/-- What a field with a range shows of a value written to it. -/
theorem clampRng_mod {lo hi wd : Nat} (h : lo ≤ hi) (hw : hi < 2 ^ wd) (v : Nat) :
    clampRng (.within lo hi) v % 2 ^ wd = min hi (max lo v) := by
  rw [clampRng_within h, Nat.mod_eq_of_lt]
  omega

theorem writeWord_thermCfg (o : Word) (v : Nat) : writeWord true thermCfgDecl o (BitVec.ofNat 32 v) 0 =
    fput (fput (fput o 16 7 (clampRng (.within 60 105) (fget (BitVec.ofNat 32 v) 16 7))) 8 5
      (clampRng (.within 1 20) (fget (BitVec.ofNat 32 v) 8 5))) 0 7 (clampRng (.within 60 115) (fget (BitVec.ofNat 32 v) 0 7)) := rfl

/-- The limits that SUPV_THERM_CFG shows after a privileged write (R424). -/
theorem registerWrite_thermCfg {d : Dev} {m : Nat} (hm : m = 0x10 ∨ m = 0x11) (v h : Nat) :
    let e := registerWrite m Reg.SUPV_THERM_CFG.addr v 15 h d
    e.rd Reg.SUPV_THERM_CFG.THERM_WARN = min 115 (max 60 (v % 2 ^ 7)) ∧
      e.rd Reg.SUPV_THERM_CFG.HYST = min 20 (max 1 (v / 2 ^ 8 % 2 ^ 5)) ∧
      e.rd Reg.SUPV_THERM_CFG.HBM_WARN = min 105 (max 60 (v / 2 ^ 16 % 2 ^ 7)) ∧
      e = { d with regs := e.regs, host := e.host, wire := e.wire } := by
  obtain ⟨s, hs, he⟩ := registerWrite_plain (d := d) (v := v) findReg_thermCfg (by decide) (by decide) (supv_reaches hm)
    (pathBroken_thermCfg d m v) h
  rw [hwWord_thermCfg, Dev.hwSetActs_zero, supv_privileged hm, writeWord_thermCfg] at he
  have hreg := congrArg (Dev.reg · Reg.SUPV_THERM_CFG.addr) he
  rw [Dev.reg_setReg_same] at hreg
  refine ⟨?_, ?_, ?_, he ▸ hs.setReg_frame _ _⟩
  · rw [Dev.rd, show Reg.SUPV_THERM_CFG.THERM_WARN = ⟨Reg.SUPV_THERM_CFG.addr, 0, 7⟩ from rfl, hreg,
      fget_fput_same _ _ _ _ (by decide), clampRng_mod (by decide) (by decide), fget_ofNat _ _ _ (by decide), pow_zero, Nat.div_one]
  · rw [Dev.rd, show Reg.SUPV_THERM_CFG.HYST = ⟨Reg.SUPV_THERM_CFG.addr, 8, 5⟩ from rfl, hreg,
      fget_fput_disjoint _ _ _ _ _ _ (by decide) (by decide), fget_fput_same _ _ _ _ (by decide),
      clampRng_mod (by decide) (by decide), fget_ofNat _ _ _ (by decide)]
  · rw [Dev.rd, show Reg.SUPV_THERM_CFG.HBM_WARN = ⟨Reg.SUPV_THERM_CFG.addr, 16, 7⟩ from rfl, hreg,
      fget_fput_disjoint _ _ _ _ _ _ (by decide) (by decide), fget_fput_disjoint _ _ _ _ _ _ (by decide) (by decide),
      fget_fput_same _ _ _ _ (by decide), clampRng_mod (by decide) (by decide), fget_ofNat _ _ _ (by decide)]

/-- One bit of a W1C field of eight bits: a written 1 clears it, unless hardware sets it in the same cycle (R363). -/
theorem testBit_w1c (o x h k : Nat) (hk : k < 8) :
    ((o &&& (x ^^^ (2 ^ 8 - 1)) ||| h) % 2 ^ 8).testBit k = (h.testBit k || (o.testBit k && !x.testBit k)) := by
  rw [Nat.testBit_mod_two_pow, Nat.testBit_or, Nat.testBit_and, Nat.testBit_xor, Nat.testBit_two_pow_sub_one]
  simp [hk, Bool.or_comm]

theorem testBit_fget_ofNat (v lo k : Nat) (hl : lo + 8 ≤ 32) (hk : k < 8) :
    (fget (BitVec.ofNat 32 v) lo 8).testBit k = v.testBit (lo + k) := by
  rw [fget_ofNat _ _ _ hl, Nat.testBit_mod_two_pow, Nat.testBit_div_two_pow]
  simp [hk, Nat.add_comm]

/-- The alarm bits that hardware sets with a word. -/
theorem hwWord_alm (h : Nat) : hwWord almDecl h =
    fput (fput (fput 0 24 8 (fget (BitVec.ofNat 32 h) 24 8)) 16 8 (fget (BitVec.ofNat 32 h) 16 8)) 8 8
      (fget (BitVec.ofNat 32 h) 8 8) := rfl

/-- A W1C field of a privileged write. -/
def w1cValue (o v hw : Word) (lo : Nat) : Nat := fget o lo 8 &&& (fget v lo 8 ^^^ (2 ^ 8 - 1)) ||| fget hw lo 8

theorem writeWord_alm (o v hw : Word) : writeWord true almDecl o v hw =
    fput (fput (fput o 24 8 (w1cValue o v hw 24)) 16 8 (w1cValue o v hw 16)) 8 8 (w1cValue o v hw 8) := rfl

theorem Dev.reg_hwSetActs_alm (d : Dev) (old hw : Word) :
    (d.hwSetActs Reg.SUPV_ALM.addr old hw).reg Reg.SUPV_ALM.addr = d.reg Reg.SUPV_ALM.addr := by
  rw [Dev.hwSetActs, if_pos rfl]
  split
  · rfl
  · exact d.reg_irq_ne _ _ (by decide)

theorem Dev.hwSetActs_frame_alm (d : Dev) (old hw : Word) :
    let e := d.hwSetActs Reg.SUPV_ALM.addr old hw
    e = { d with regs := e.regs, host := e.host, wire := e.wire } := by
  dsimp only
  rw [Dev.hwSetActs, if_pos rfl]
  split
  · rfl
  · rw [Dev.irq_frame_eq]

/-- A privileged write of SUPV_ALM, with what hardware sets in its cycle (R341, R363). -/
theorem registerWrite_alm {d : Dev} {m : Nat} (hm : m = 0x10 ∨ m = 0x11) (v h : Nat) :
    let e := registerWrite m Reg.SUPV_ALM.addr v 15 h d
    e.rd Reg.SUPV_ALM.ALM0_SRC = d.rd Reg.SUPV_ALM.ALM0_SRC ∧
      (∀ k, k < 8 → e.bitOf Reg.SUPV_ALM.ALM1_SRC k = (h.testBit (8 + k) || (d.bitOf Reg.SUPV_ALM.ALM1_SRC k && !v.testBit (8 + k))) ∧
        e.bitOf Reg.SUPV_ALM.ALM3_SRC k = (h.testBit (24 + k) || (d.bitOf Reg.SUPV_ALM.ALM3_SRC k && !v.testBit (24 + k)))) ∧
      e = { d with regs := e.regs, host := e.host, wire := e.wire } := by
  obtain ⟨s, hs, he⟩ := registerWrite_plain (d := d) (v := v) findReg_alm (by decide) (by decide) (supv_reaches hm)
    (pathBroken_alm d m v) h
  rw [supv_privileged hm, writeWord_alm] at he
  have hold : s.reg Reg.SUPV_ALM.addr = d.reg Reg.SUPV_ALM.addr := hs.regs _ (notMem_becRegs (by decide))
  have hreg := congrArg (Dev.reg · Reg.SUPV_ALM.addr) he
  rw [Dev.reg_hwSetActs_alm, Dev.reg_setReg_same, hold] at hreg
  have hbit : ∀ lo k, lo + 8 ≤ 32 → k < 8 → fget (hwWord almDecl h) lo 8 = fget (BitVec.ofNat 32 h) lo 8 →
      (w1cValue (d.reg Reg.SUPV_ALM.addr) (BitVec.ofNat 32 v) (hwWord almDecl h) lo % 2 ^ 8).testBit k =
        (h.testBit (lo + k) || ((fget (d.reg Reg.SUPV_ALM.addr) lo 8).testBit k && !v.testBit (lo + k))) := fun lo k hl hk hh => by
    rw [w1cValue, hh, testBit_w1c _ _ _ _ hk, testBit_fget_ofNat _ _ _ hl hk, testBit_fget_ofNat _ _ _ hl hk]
  refine ⟨?_, fun k hk => ⟨?_, ?_⟩, ?_⟩
  · rw [Dev.rd, show Reg.SUPV_ALM.ALM0_SRC = ⟨Reg.SUPV_ALM.addr, 0, 8⟩ from rfl, hreg,
      fget_fput_disjoint _ _ _ _ _ _ (by decide) (by decide), fget_fput_disjoint _ _ _ _ _ _ (by decide) (by decide),
      fget_fput_disjoint _ _ _ _ _ _ (by decide) (by decide), Dev.rd]
  · rw [Dev.bitOf, Dev.rd, show Reg.SUPV_ALM.ALM1_SRC = ⟨Reg.SUPV_ALM.addr, 8, 8⟩ from rfl, hreg,
      fget_fput_same _ _ _ _ (by decide), hbit 8 k (by decide) hk ?_]
    · rfl
    · rw [hwWord_alm, fget_fput_same _ _ _ _ (by decide), Nat.mod_eq_of_lt (fget_lt _ _ _)]
  · rw [Dev.bitOf, Dev.rd, show Reg.SUPV_ALM.ALM3_SRC = ⟨Reg.SUPV_ALM.addr, 24, 8⟩ from rfl, hreg,
      fget_fput_disjoint _ _ _ _ _ _ (by decide) (by decide), fget_fput_disjoint _ _ _ _ _ _ (by decide) (by decide),
      fget_fput_same _ _ _ _ (by decide), hbit 24 k (by decide) hk ?_]
    · rfl
    · rw [hwWord_alm, fget_fput_disjoint _ _ _ _ _ _ (by decide) (by decide),
        fget_fput_disjoint _ _ _ _ _ _ (by decide) (by decide), fget_fput_same _ _ _ _ (by decide),
        Nat.mod_eq_of_lt (fget_lt _ _ _)]
  · exact he ▸ Dev.frame_trans (hs.setReg_frame _ _) (Dev.hwSetActs_frame_alm _ _ _)

/-- A write without privilege leaves a register whose fields are privileged or read-only, and only counts (R16). -/
theorem registerWrite_unprivileged {d : Dev} {m a v : Nat} {r : RDecl} {ix : List Nat} (hf : findReg a = some (r, ix))
    (hn : r.name ∉ unitNames) (hi : r.name ∉ ["HOST_INT_STATUS", "HOST_BEC_HI"]) (hp : portOfAddr a = none)
    (hb : d.pathBroken m a true v = false)
    (hr : ∀ f ∈ r.fields, f.lo + f.width ≤ 32 ∧ (f.priv = true ∨ f.acc = .ro)) (hm : d.privileged m = false) :
    let e := registerWrite m a v 15 0 d
    e.reg a = d.reg a ∧ e = { d with regs := e.regs, host := e.host, wire := e.wire } := by
  intro e
  cases hx : d.reaches m
  · have hs := registerWrite_unreached (v := v) hf (fun h => hn (h ▸ by decide)) hx
    exact ⟨hs.regs a (notMem_becRegs_of_name hf hi), hs.frame⟩
  · obtain ⟨hreg, -, hframe⟩ := registerWrite_fields (v := v) hf hn hi hp hx hb
    rw [hm, writeWord_unprivileged hr] at hreg
    exact ⟨hreg, hframe⟩

/-! ### Bus event counters (R378) -/

theorem findReg_becCmd : ∀ k, k < 16 → findReg (Reg.HOST_BEC_CMD.addr k) = some
    (⟨"HOST_BEC_CMD", [(0x0C200014, [(16, 0x20)])], [0x00000000], [⟨1, 1, .w1s, true, .any⟩, ⟨0, 1, .w1s, true, .any⟩]⟩, [k]) := by
  decide

theorem findReg_becLo : ∀ k, k < 16 → findReg (Reg.HOST_BEC_LO.addr k) = some
    (⟨"HOST_BEC_LO", [(0x0C20000C, [(16, 0x20)])], [0x00000000], [⟨0, 32, .ro, false, .any⟩]⟩, [k]) := by
  decide

theorem exec_becClr {d : Dev} (hl : d.hold.live = true) (q : List Instr) (m k : Nat) :
    exec (.becClr m k) ⟨d, q⟩ = .next ⟨d.becWrite m k 1, q⟩ := State.on_live hl q fun d => d.becWrite m k 1

theorem exec_becClrOvf {d : Dev} (hl : d.hold.live = true) (q : List Instr) (m k : Nat) :
    exec (.becClrOvf m k) ⟨d, q⟩ = .next ⟨d.becWrite m k 2, q⟩ := State.on_live hl q fun d => d.becWrite m k 2

theorem exec_becRead {d : Dev} (hl : d.hold.live = true) (q : List Instr) (m k : Nat) :
    exec (.becRead m k) ⟨d, q⟩ = .next ⟨becRead m k d, q⟩ := State.on_live hl q _

/-- A privileged command to a counter acts first, and the access counts then. -/
theorem becWrite_privileged {d : Dev} {m k : Nat} (hk : k < 16) (hr : d.reaches m = true) (hp : d.privileged m = true) (v : Nat) :
    d.becWrite m k v = (d.becCmd k v).becCount m (Reg.HOST_BEC_CMD.addr k) (d.classify m (Reg.HOST_BEC_CMD.addr k) true v 15) := by
  have hb : d.pathBroken m (Reg.HOST_BEC_CMD.addr k) true v = false := by
    rw [Dev.pathBroken, findReg_becCmd k hk]
    rfl
  rw [Dev.becWrite, Dev.writeActs_plain (findReg_becCmd k hk) (by decide) hr hb, hp, hr]
  rfl

theorem Dev.BecOnly.becCmd {b d : Dev} (h : b.BecOnly d) {k : Nat} (hk : k < 16) (v : Nat) : b.BecOnly (d.becCmd k v) := by
  unfold Dev.becCmd
  dsimp only
  split
  · split
    · exact (h.setBec _).setFlag (becHi_mem_becRegs hk) _
    · exact h.setFlag (becHi_mem_becRegs hk) _
  · split
    · exact h.setBec _
    · exact h

theorem becWrite_becOnly {d : Dev} {m k : Nat} (hk : k < 16) (hr : d.reaches m = true) (hp : d.privileged m = true) (v : Nat) :
    d.BecOnly (d.becWrite m k v) := by
  rw [becWrite_privileged hk hr hp]
  exact ((Dev.BecOnly.refl d).becCmd hk v).becCount _ _ _

theorem Dev.becCmd_clr (d : Dev) (k : Nat) :
    d.becCmd k 1 = { d with host := { d.host with bec := tput d.host.bec 0 k 0 } } := rfl

theorem Dev.becCmd_clrOvf (d : Dev) (k : Nat) : d.becCmd k 2 = d.setFlag (Reg.HOST_BEC_HI.OVF k) false := rfl

theorem becWrite_clr {d : Dev} {m k : Nat} (hk : k < 16) (hr : d.reaches m = true) (hp : d.privileged m = true)
    (hoff : d.flag (Reg.HOST_BEC_CFG.EN k) = false) : tget (d.becWrite m k 1).host.bec 0 k = 0 ∧
      (d.becWrite m k 1).reg (Reg.HOST_BEC_HI.addr k) = d.reg (Reg.HOST_BEC_HI.addr k) := by
  have hs := Dev.becCount_still (d := d.becCmd k 1) hoff m (Reg.HOST_BEC_CMD.addr k)
    (d.classify m (Reg.HOST_BEC_CMD.addr k) true 1 15)
  rw [← becWrite_privileged hk hr hp] at hs
  rw [Dev.becCmd_clr] at hs
  exact ⟨hs.count.trans (tget_tput_same d.host.bec 0 k 0), hs.high⟩

theorem becWrite_clrOvf {d : Dev} {m k : Nat} (hk : k < 16) (hr : d.reaches m = true) (hp : d.privileged m = true)
    (hoff : d.flag (Reg.HOST_BEC_CFG.EN k) = false) : tget (d.becWrite m k 2).host.bec 0 k = tget d.host.bec 0 k ∧
      (d.becWrite m k 2).flag (Reg.HOST_BEC_HI.OVF k) = false := by
  have hcfg : Reg.HOST_BEC_CFG.addr k ≠ Reg.HOST_BEC_HI.addr k := by
    simp only [Reg.HOST_BEC_CFG.addr, Reg.HOST_BEC_HI.addr]
    omega
  have hoff' : (d.becCmd k 2).flag (Reg.HOST_BEC_CFG.EN k) = false := by
    rw [Dev.becCmd_clrOvf, Dev.flag_congr_reg (d.reg_setFlag_ne _ _ _ hcfg), hoff]
  have hs := Dev.becCount_still hoff' m (Reg.HOST_BEC_CMD.addr k) (d.classify m (Reg.HOST_BEC_CMD.addr k) true 2 15)
  rw [← becWrite_privileged hk hr hp, Dev.becCmd_clrOvf] at hs
  exact ⟨hs.count.trans (by simp), (Dev.flag_congr_reg hs.high).trans (d.flag_setFlag_same _ _ (Nat.le_refl 32) rfl)⟩

/-! ### Reads that latch (R63, R378, R379) -/

/-- A read of a register of one read-only field of 32 bits, on a path open to all, gives the word shown. -/
theorem Dev.readWord_plain {d : Dev} {m a : Nat} {r : RDecl} {ix : List Nat} (hf : findReg a = some (r, ix))
    (hr : r.fields = [⟨0, 32, .ro, false, .any⟩]) (hb : d.pathBroken m a false 0 = false) (w : Word) :
    d.readWord m a w = w.toNat := by
  have hw : fput 0#32 0 32 (fget w 0 32) = w := by
    apply BitVec.eq_of_toNat_eq
    rw [fput_toNat _ _ _ _ (by decide), fget]
    have := w.isLt
    simp
    omega
  rw [Dev.readWord, if_neg (by simp [findReg_aligned hf, hb]), hf]
  dsimp only
  rw [hr]
  simp [hw]

theorem Dev.busReadW_wire {d : Dev} {m a : Nat} (hr : d.reaches m = true) (w : Word) :
    .completion m a (d.readWord m a w) ∈ (d.busReadW m a w).wire := by
  rw [Dev.busReadW, if_pos hr]
  exact List.mem_append_right _ List.mem_cons_self

/-- BEC_READ: the count before the access, its high bits latched (R378). -/
theorem becRead_effect {d : Dev} {m k : Nat} (hk : k < 16) (hr : d.reaches m = true) :
    .completion m (Reg.HOST_BEC_LO.addr k) (tget d.host.bec 0 k % 2 ^ 32) ∈ (becRead m k d).wire ∧
      (becRead m k d).rd (Reg.HOST_BEC_HI.COUNT k) = tget d.host.bec 0 k / 2 ^ 32 % 2 ^ 16 ∧ d.BecOnly (becRead m k d) := by
  have hf := findReg_becLo k hk
  have hb : d.pathBroken m (Reg.HOST_BEC_LO.addr k) false 0 = false := by
    rw [Dev.pathBroken, hf]
    rfl
  have hview : d.view (Reg.HOST_BEC_LO.addr k) = BitVec.ofNat 32 (tget d.host.bec 0 k) := by
    rw [Dev.view, hf]
    rfl
  have hwire := Dev.busReadW_wire (a := Reg.HOST_BEC_LO.addr k) hr (d.view (Reg.HOST_BEC_LO.addr k))
  rw [Dev.readWord_plain hf rfl hb, hview, BitVec.toNat_ofNat] at hwire
  have he : becRead m k d = (d.busReadW m (Reg.HOST_BEC_LO.addr k) (BitVec.ofNat 32 (tget d.host.bec 0 k))).wr
      (Reg.HOST_BEC_HI.COUNT k) (tget d.host.bec 0 k / 2 ^ 32) := by
    rw [becRead, Dev.busRead, hview, if_pos (by simp [hk, hr])]
  rw [he]
  exact ⟨by simpa using hwire, Dev.rd_wr_same _ _ _ (show 0 + 16 ≤ 32 by decide), ((Dev.BecOnly.refl d).busReadW _ _ _).wr (becHi_mem_becRegs hk) _⟩

/-! ### Ream windows (R379) -/

theorem findReg_winCmd : ∀ w, w < 8 → findReg (Reg.REAM_WIN_CMD.addr w) = some
    (⟨"REAM_WIN_CMD", [(0x0D10000C, [(8, 0x10)])], [0x00000000], [⟨1, 1, .w1s, true, .any⟩, ⟨0, 1, .w1s, true, .any⟩]⟩, [w]) := by
  decide

theorem findReg_winLo : ∀ w, w < 8 → findReg (Reg.REAM_WIN_LO.addr w) = some
    (⟨"REAM_WIN_LO", [(0x0D100004, [(8, 0x10)])], [0x00000000], [⟨0, 32, .ro, false, .any⟩]⟩, [w]) := by
  decide

theorem exec_reamWinClr {d : Dev} (hl : d.hold.live = true) (q : List Instr) (m w : Nat) :
    exec (.reamWinClr m w) ⟨d, q⟩ = .next ⟨d.reamWrite m w 1, q⟩ := State.on_live hl q fun d => d.reamWrite m w 1

theorem exec_reamWinClrOvf {d : Dev} (hl : d.hold.live = true) (q : List Instr) (m w : Nat) :
    exec (.reamWinClrOvf m w) ⟨d, q⟩ = .next ⟨d.reamWrite m w 2, q⟩ := State.on_live hl q fun d => d.reamWrite m w 2

theorem exec_reamWinRead {d : Dev} (hl : d.hold.live = true) (q : List Instr) (m w : Nat) :
    exec (.reamWinRead m w) ⟨d, q⟩ = .next ⟨reamRead m w d, q⟩ := State.on_live hl q _

theorem exec_amdSeqRead {d : Dev} (hl : d.hold.live = true) (q : List Instr) (m : Nat) :
    exec (.amdSeqRead m) ⟨d, q⟩ = .next ⟨amdSeqRead m d, q⟩ := State.on_live hl q _

/-- The access part of a window command. -/
def Dev.winAccess (d : Dev) (m w v : Nat) : Dev := (d.busWrite m (Reg.REAM_WIN_CMD.addr w) v 15).1

theorem Dev.winAccess_becOnly (d : Dev) (m w v : Nat) : d.BecOnly (d.winAccess m w v) := (Dev.BecOnly.refl d).busWrite _ _ _ _

theorem reamWrite_unprivileged {d : Dev} {m : Nat} (hp : d.privileged m = false) (w v : Nat) :
    d.reamWrite m w v = d.winAccess m w v := by
  unfold Dev.reamWrite
  dsimp only
  rw [hp, if_neg (by simp)]
  rfl

theorem reamWrite_privileged {d : Dev} {m w : Nat} (hw : w < 8) (hr : d.reaches m = true) (hp : d.privileged m = true) (v : Nat) :
    d.reamWrite m w v = (d.winAccess m w v).reamCmd w v := by
  have hb : d.pathBroken m (Reg.REAM_WIN_CMD.addr w) true v = false := by
    rw [Dev.pathBroken, findReg_winCmd w hw]
    rfl
  have hok : (d.busWrite m (Reg.REAM_WIN_CMD.addr w) v 15).2 = true := Dev.writeActs_plain (findReg_winCmd w hw) (by decide) hr hb
  unfold Dev.reamWrite
  dsimp only
  rw [hp, hok, if_pos (by simp [hw])]
  rfl

theorem winSel_notMem_becRegs (w : Nat) : Reg.REAM_WIN_SEL.addr w ∉ becRegs :=
  notMem_becRegs (by simp only [Reg.REAM_WIN_SEL.addr]; omega)

/-- A window still selects, once an access has been counted, the counter that it selected before. -/
theorem Dev.BecOnly.selects {d s : Dev} (h : d.BecOnly s) {w : Nat} {x : Option (Ctr × Nat)}
    (hc : d.counterOf (d.rd (Reg.REAM_WIN_SEL.ID w)) = x) : s.counterOf (s.rd (Reg.REAM_WIN_SEL.ID w)) = x := by
  rw [h.counterOf, Dev.rd_congr_reg (h.regs _ (winSel_notMem_becRegs w)), hc]

theorem Dev.reamCmd_clr {d : Dev} {w i : Nat} {c : Ctr} (hc : d.counterOf (d.rd (Reg.REAM_WIN_SEL.ID w)) = some (c, i)) :
    d.reamCmd w 1 = { d with ctrs := tput d.ctrs 0 (c.key i) 0 } := by
  rw [Dev.reamCmd, hc]
  rfl

theorem Dev.reamCmd_clrOvf {d : Dev} {w i : Nat} {c : Ctr} (hc : d.counterOf (d.rd (Reg.REAM_WIN_SEL.ID w)) = some (c, i)) :
    d.reamCmd w 2 = { d with ctrOvf := tput d.ctrOvf false (c.key i) false } := by
  rw [Dev.reamCmd, hc]
  rfl

theorem Dev.BecOnly.ctrs {d s : Dev} (h : d.BecOnly s) : s.ctrs = d.ctrs ∧ s.ctrOvf = d.ctrOvf :=
  ⟨(congrArg Dev.ctrs h.frame :), (congrArg Dev.ctrOvf h.frame :)⟩

/-- REAM_WIN_CLR of a privileged master: the selected counter alone, and not its OVF. -/
theorem reamWrite_clr {d : Dev} {m w i : Nat} {c : Ctr} (hw : w < 8) (hr : d.reaches m = true) (hp : d.privileged m = true)
    (hc : d.counterOf (d.rd (Reg.REAM_WIN_SEL.ID w)) = some (c, i)) :
    let e := d.reamWrite m w 1
    e.ctr c i = 0 ∧ d.ctrFlag c i = e.ctrFlag c i ∧ d.ctrsBut e [c.key i] ∧
      e = { d with regs := e.regs, host := e.host, wire := e.wire, ctrs := e.ctrs } := by
  have hs := d.winAccess_becOnly m w 1
  obtain ⟨hctrs, hovf⟩ := hs.ctrs
  rw [reamWrite_privileged hw hr hp, Dev.reamCmd_clr (hs.selects hc)]
  refine ⟨tget_tput_same (d.winAccess m w 1).ctrs 0 (c.key i) 0, ?_, fun k hk => ⟨?_, ?_⟩, ?_⟩
  · rw [Dev.ctrFlag, Dev.ctrFlag, hovf]
  · rw [← hctrs]
    exact tget_tput_ne (d.winAccess m w 1).ctrs 0 0 _ _ 0 (List.ne_of_not_mem_cons hk)
  · rw [hovf]
  · exact congrArg (fun x : Dev => { x with ctrs := tput (d.winAccess m w 1).ctrs 0 (c.key i) 0 }) hs.frame

theorem reamWrite_clrOvf {d : Dev} {m w i : Nat} {c : Ctr} (hw : w < 8) (hr : d.reaches m = true) (hp : d.privileged m = true)
    (hc : d.counterOf (d.rd (Reg.REAM_WIN_SEL.ID w)) = some (c, i)) :
    let f := d.reamWrite m w 2
    f.ctrFlag c i = false ∧ f.ctr c i = d.ctr c i ∧ d.ctrsBut f [c.key i] ∧
      f = { d with regs := f.regs, host := f.host, wire := f.wire, ctrOvf := f.ctrOvf } := by
  have hs := d.winAccess_becOnly m w 2
  obtain ⟨hctrs, hovf⟩ := hs.ctrs
  rw [reamWrite_privileged hw hr hp, Dev.reamCmd_clrOvf (hs.selects hc)]
  refine ⟨tget_tput_same (d.winAccess m w 2).ctrOvf false (c.key i) false, Dev.ctr_congr hctrs c i, fun k hk => ⟨?_, ?_⟩, ?_⟩
  · rw [hctrs]
  · rw [← hovf]
    exact tget_tput_ne (d.winAccess m w 2).ctrOvf false false _ _ false (List.ne_of_not_mem_cons hk)
  · exact congrArg (fun x : Dev => { x with ctrOvf := tput (d.winAccess m w 2).ctrOvf false (c.key i) false }) hs.frame

/-- REAM_WIN_READ: the value shown, and what it latches (R379). -/
theorem reamRead_effect {d : Dev} {m w lo hi : Nat} {ovf none_ : Bool} (hw : w < 8) (hr : d.reaches m = true)
    (hx : d.window w = (lo, hi, ovf, none_)) (hlo : lo < 2 ^ 32) :
    let e := reamRead m w d
    .completion m (Reg.REAM_WIN_LO.addr w) lo ∈ e.wire ∧ e.rd (Reg.REAM_WIN_HI.COUNT w) = hi % 2 ^ 32 ∧
      e.flag (Reg.REAM_WIN_FLAG.OVF w) = ovf ∧ e.flag (Reg.REAM_WIN_FLAG.NONE w) = none_ ∧
      e = { d with regs := e.regs, host := e.host, wire := e.wire } := by
  have hf := findReg_winLo w hw
  have hb : d.pathBroken m (Reg.REAM_WIN_LO.addr w) false 0 = false := by
    rw [Dev.pathBroken, hf]
    rfl
  have hwire := Dev.busReadW_wire (a := Reg.REAM_WIN_LO.addr w) hr (BitVec.ofNat 32 lo)
  rw [Dev.readWord_plain hf rfl hb, BitVec.toNat_ofNat, Nat.mod_eq_of_lt hlo] at hwire
  have hs := (Dev.BecOnly.refl d).busReadW m (Reg.REAM_WIN_LO.addr w) (BitVec.ofNat 32 lo)
  generalize hg : d.busReadW m (Reg.REAM_WIN_LO.addr w) (BitVec.ofNat 32 lo) = s at hwire hs
  have he : reamRead m w d = ((s.wr (Reg.REAM_WIN_HI.COUNT w) hi).setFlag (Reg.REAM_WIN_FLAG.OVF w) ovf).setFlag
      (Reg.REAM_WIN_FLAG.NONE w) none_ := by
    rw [reamRead, hx]
    dsimp only
    rw [hg, if_pos (by simp [hw, hr])]
  have hne : Reg.REAM_WIN_HI.addr w ≠ Reg.REAM_WIN_FLAG.addr w := by
    simp only [Reg.REAM_WIN_HI.addr, Reg.REAM_WIN_FLAG.addr]
    omega
  rw [he]
  refine ⟨by simpa using hwire, ?_, ?_, Dev.flag_setFlag_same _ _ _ (show 30 + 1 ≤ 32 by decide) rfl,
    Dev.frame_trans (Dev.frame_trans (hs.wr_frame _ _) (Dev.wr_frame_bus _ _ _)) (Dev.wr_frame_bus _ _ _)⟩
  · rw [Dev.setFlag_eq, Dev.rd_wr_ne _ _ _ _ hne, Dev.setFlag_eq, Dev.rd_wr_ne _ _ _ _ hne,
      Dev.rd_wr_same _ _ _ (show 0 + 32 ≤ 32 by decide)]
    rfl
  · rw [Dev.flag, Dev.setFlag_eq _ (Reg.REAM_WIN_FLAG.NONE w), Dev.rd_wr_disjoint _ _ _ _ (show 30 + 1 ≤ 32 by decide) (by rfl)
      (.inr (show 30 + 1 ≤ 31 by decide)), ← Dev.flag]
    exact Dev.flag_setFlag_same _ _ _ (show 31 + 1 ≤ 32 by decide) rfl

theorem Dev.window_of_some {d : Dev} {w i : Nat} {c : Ctr} (hc : d.counterOf (d.rd (Reg.REAM_WIN_SEL.ID w)) = some (c, i)) :
    d.window w = (d.ctrValue c i % 2 ^ 32, d.ctrValue c i / 2 ^ 32, d.ctrFlag c i, false) := by
  rw [Dev.window, hc]

theorem Dev.window_of_none {d : Dev} {w : Nat} (hc : d.counterOf (d.rd (Reg.REAM_WIN_SEL.ID w)) = none) :
    d.window w = (0, 0, false, true) := by
  rw [Dev.window, hc]

/-! ### The amendment sequence (R63) -/

theorem findReg_amdSeqLo : findReg Reg.DEV_AMD_SEQ_LO.addr =
    some (⟨"DEV_AMD_SEQ_LO", [(0x00000104, [])], [0x00000000], [⟨0, 32, .ro, false, .any⟩]⟩, []) := by
  decide

theorem amdSeqRead_effect {d : Dev} {m : Nat} (hr : d.reaches m = true) :
    let e := amdSeqRead m d
    .completion m Reg.DEV_AMD_SEQ_LO.addr (d.boot.amdSeq % 2 ^ 32) ∈ e.wire ∧
      e.rd Reg.DEV_AMD_SEQ_HI.SEQ = d.boot.amdSeq / 2 ^ 32 % 2 ^ 32 ∧ d.regsBut e (Reg.DEV_AMD_SEQ_HI.addr :: becRegs) ∧
      e = { d with regs := e.regs, host := e.host, wire := e.wire } := by
  have hb : d.pathBroken m Reg.DEV_AMD_SEQ_LO.addr false 0 = false := by
    rw [Dev.pathBroken, findReg_amdSeqLo]
    rfl
  have hview : d.view Reg.DEV_AMD_SEQ_LO.addr = BitVec.ofNat 32 d.boot.amdSeq := by
    rw [Dev.view, findReg_amdSeqLo]
    rfl
  have hwire := Dev.busReadW_wire (a := Reg.DEV_AMD_SEQ_LO.addr) hr (d.view Reg.DEV_AMD_SEQ_LO.addr)
  rw [Dev.readWord_plain findReg_amdSeqLo rfl hb] at hwire
  have hs := (Dev.BecOnly.refl d).busReadW m Reg.DEV_AMD_SEQ_LO.addr (d.view Reg.DEV_AMD_SEQ_LO.addr)
  have he : amdSeqRead m d = (d.busReadW m Reg.DEV_AMD_SEQ_LO.addr (d.view Reg.DEV_AMD_SEQ_LO.addr)).wr
      Reg.DEV_AMD_SEQ_HI.SEQ (d.boot.amdSeq / 2 ^ 32) := by
    rw [amdSeqRead, if_pos hr, Dev.busRead]
  rw [hview] at hwire hs he
  rw [BitVec.toNat_ofNat] at hwire
  rw [he]
  refine ⟨by simpa using hwire, Dev.rd_wr_same _ _ _ (by decide), fun a ha => ?_, hs.wr_frame _ _⟩
  rw [List.mem_cons, not_or] at ha
  rw [Dev.reg_wr_ne _ _ _ _ ha.1, hs.regs a ha.2]

end Sys2Proof.Machine

section
open Sys2Proof Sys2Proof.Machine

/-- Settles O56: an access is counted (`Dev.BecOnly`) and then acts on what it names alone; each field follows its access type. -/
theorem registerAccessesAreRuled : Obligations.RegisterAccessesAreRuled := by
  unfold Obligations.RegisterAccessesAreRuled
  refine ⟨fun d q m a v b hl => ⟨fun h => ?_, fun r ix hf _ hp hr hb hn => ?_⟩,
    fun d q m v h hl => ⟨fun hm => ?_, fun hm => ?_, fun hm a ha => ?_⟩,
    fun d q m k hl hk hr => ⟨fun hp hoff => ?_, ?_⟩,
    fun d q m w i c hl hw hr hc => ⟨fun hp => ?_, fun hp => ?_, ?_⟩,
    fun d q m w hl hr => ⟨fun hw hc => ?_, ?_⟩⟩
  · have hs := registerWrite_refused (d := d) (m := m) (v := v) h
    exact ⟨_, exec_registerWrite hl q _ _ _ _ _, hs.regs, hs.frame⟩
  · have hu : r.name ∉ unitNames := fun hm => hn ((show unitNames ⊆ _ by decide) hm)
    have hi : r.name ∉ ["HOST_INT_STATUS", "HOST_BEC_HI"] := fun hm => hn ((show ["HOST_INT_STATUS", "HOST_BEC_HI"] ⊆ _ by decide) hm)
    exact ⟨_, exec_registerWrite hl q _ _ _ _ _, registerWrite_fields hf hu hi hp hr hb⟩
  · exact ⟨_, exec_registerWrite hl q _ _ _ _ _, registerWrite_thermCfg hm v h⟩
  · exact ⟨_, exec_registerWrite hl q _ _ _ _ _, registerWrite_alm hm v h⟩
  · refine ⟨_, exec_registerWrite hl q _ _ _ _ _, ?_⟩
    rcases ha with rfl | rfl
    · exact registerWrite_unprivileged findReg_alm (by decide) (by decide) (by decide) (pathBroken_alm d m v) (by decide) hm
    · exact registerWrite_unprivileged findReg_thermCfg (by decide) (by decide) (by decide) (pathBroken_thermCfg d m v) (by decide) hm
  · obtain ⟨hzero, hhigh⟩ := becWrite_clr hk hr hp hoff
    obtain ⟨hcount, hovf⟩ := becWrite_clrOvf hk hr hp hoff
    have he := becWrite_becOnly hk hr hp 1
    have hf := becWrite_becOnly hk hr hp 2
    exact ⟨_, _, exec_becClr hl q m k, exec_becClrOvf hl q m k, hzero, hhigh, hcount, hovf, he.regs, hf.regs, he.frame, hf.frame⟩
  · obtain ⟨hwire, hcount, hs⟩ := becRead_effect hk hr
    exact ⟨_, exec_becRead hl q m k, hwire, hcount, hs.regs, hs.frame⟩
  · obtain ⟨hzero, hkeep, hbut, hframe⟩ := reamWrite_clr hw hr hp hc
    obtain ⟨hovf, hval, hbut', hframe'⟩ := reamWrite_clrOvf hw hr hp hc
    exact ⟨_, _, exec_reamWinClr hl q m w, exec_reamWinClrOvf hl q m w, hzero, hkeep, hovf, hval, hbut, hbut', hframe, hframe'⟩
  · refine ⟨_, _, exec_reamWinClr hl q m w, exec_reamWinClrOvf hl q m w, ?_, ?_⟩
    · rw [reamWrite_unprivileged hp]
      exact (d.winAccess_becOnly m w 1).frame
    · rw [reamWrite_unprivileged hp]
      exact (d.winAccess_becOnly m w 2).frame
  · obtain ⟨hwire, hhi, hovf, hnone, hframe⟩ := reamRead_effect hw hr (Dev.window_of_some hc) (Nat.mod_lt _ (by decide))
    exact ⟨_, exec_reamWinRead hl q m w, hwire, hhi, hovf, hnone, hframe⟩
  · obtain ⟨hwire, -, -, hnone, hframe⟩ := reamRead_effect hw hr (Dev.window_of_none hc) (by decide)
    exact ⟨_, exec_reamWinRead hl q m w, hwire, hnone, hframe⟩
  · exact ⟨_, exec_amdSeqRead hl q m, amdSeqRead_effect hr⟩

end

/-! PROOFS about the order of commands (R32, R44, R399) and the time that passes on an empty queue (R307). -/

namespace Sys2Proof.Machine

open Sys2Proof

/-! ### Time: what one cycle of CLK_TIME does (R307) -/

theorem Dev.tb_setTb (d : Dev) (t u : Nat) (b : TbSt) (ht : t < d.time.tb.length) :
    (d.setTb t b).tb u = if t = u then b else d.tb u := by
  unfold Dev.tb Dev.setTb
  rw [List.getElem?_set]
  split
  · simp [*]
  · rfl

@[simp] theorem Dev.tb_length_advanceTb (d : Dev) (t : Nat) : (d.advanceTb t).time.tb.length = d.time.tb.length :=
  List.length_set

/-- A base as one cycle leaves it: 1 ns and its FREQ later. -/
def Dev.ownNext (d : Dev) (t : Nat) : Nat :=
  (((d.own t : Int) + 2 ^ 32 + d.rdS (Reg.TIME_TB_FREQ.VALUE t)) % (2 ^ 48 * 10 ^ 9 * 2 ^ 32)).toNat

theorem Dev.ownNext_congr {d e : Dev} (htime : e.time = d.time) (hregs : e.regs = d.regs) (t : Nat) : e.ownNext t = d.ownNext t := by
  simp only [Dev.ownNext, Dev.own, Dev.tb, Dev.rdS, Dev.rd, Dev.reg, htime, hregs]

theorem Dev.own_advanceTb_same (d : Dev) (t : Nat) (ht : t < d.time.tb.length) : (d.advanceTb t).own t = d.ownNext t := by
  rw [Dev.own, Dev.advanceTb, Dev.tb_setTb d t t _ ht, if_pos rfl, Dev.ownNext]
  simp [nsUnit, tbModulus, Dev.own]

theorem Dev.own_advanceTb_ne (d : Dev) (t u : Nat) (ht : t < d.time.tb.length) (h : t ≠ u) :
    (d.advanceTb t).own u = d.own u := by
  rw [Dev.own, Dev.advanceTb, Dev.tb_setTb d t u _ ht, if_neg h, Dev.own]

theorem Dev.ownNext_advanceTb_ne (d : Dev) (t u : Nat) (ht : t < d.time.tb.length) (h : t ≠ u) :
    (d.advanceTb t).ownNext u = d.ownNext u := by
  rw [Dev.ownNext, Dev.own_advanceTb_ne d t u ht h]
  rfl

theorem Dev.foldl_advanceTb_frame (ts : List Nat) (d : Dev) :
    ts.foldl Dev.advanceTb d = { d with time := { d.time with tb := (ts.foldl Dev.advanceTb d).time.tb } } := by
  induction ts generalizing d with
  | nil => rfl
  | cons t ts ih => exact (ih (d.advanceTb t)).trans rfl

/-- After a cycle for each base of a list without repetition, a base listed has advanced and every other stands. -/
theorem Dev.own_foldl_advanceTb (ts : List Nat) (d : Dev) (hd : ts.Nodup) (hl : ∀ t ∈ ts, t < d.time.tb.length) (u : Nat) :
    (ts.foldl Dev.advanceTb d).own u = if u ∈ ts then d.ownNext u else d.own u := by
  induction ts generalizing d with
  | nil => rfl
  | cons t ts ih =>
    obtain ⟨ht, hts⟩ := List.nodup_cons.mp hd
    have hlen : t < d.time.tb.length := hl t (by simp)
    rw [List.foldl_cons, ih (d.advanceTb t) hts fun v hv => by simpa using hl v (by simp [hv])]
    by_cases hu : t = u
    · subst hu
      rw [if_neg ht, if_pos (by simp), Dev.own_advanceTb_same d t hlen]
    · simp only [List.mem_cons, Ne.symm hu, false_or, Dev.ownNext_advanceTb_ne d t u hlen hu, Dev.own_advanceTb_ne d t u hlen hu]

/-- The bases after one cycle, each advanced in its turn. -/
def Dev.advanced (d : Dev) : Dev := [0, 1, 2, 3, 4, 5, 6, 7].foldl Dev.advanceTb { d with now := d.now + 1 }

theorem Dev.tick_live (d : Dev) (h : d.hold.live = true) :
    d.tick = { d.advanced with boot := { d.advanced.boot with tb0Sec := tSec (d.advanced.own 0) } } := if_pos h

theorem Dev.tick_held (d : Dev) (h : d.hold.live = false) : d.tick = { d with now := d.now + 1 } :=
  if_neg (ne_true_of_eq_false h)

theorem Dev.tick_frame (d : Dev) : d.tick = { d with
    now := d.now + 1, time := { d.time with tb := d.tick.time.tb }, boot := { d.boot with tb0Sec := d.tick.boot.tb0Sec } } := by
  cases h : d.hold.live with
  | false => rw [d.tick_held h]
  | true =>
    obtain ⟨tb, htb⟩ : ∃ tb, d.advanced = { d with now := d.now + 1, time := { d.time with tb := tb } } :=
      ⟨_, Dev.foldl_advanceTb_frame _ _⟩
    rw [d.tick_live h, htb]

@[simp] theorem Dev.now_tick (d : Dev) : d.tick.now = d.now + 1 := congrArg Dev.now d.tick_frame

theorem Dev.own_advanced (d : Dev) (hl : d.time.tb.length = 8) (t : Nat) (ht : t < 8) : d.advanced.own t = d.ownNext t := by
  have hmem : t ∈ [0, 1, 2, 3, 4, 5, 6, 7] := by simp; omega
  have hlen : ∀ u ∈ [0, 1, 2, 3, 4, 5, 6, 7], u < ({ d with now := d.now + 1 } : Dev).time.tb.length := by simp [hl]
  rw [Dev.advanced, Dev.own_foldl_advanceTb _ _ (by decide) hlen, if_pos hmem]
  exact Dev.ownNext_congr rfl (by rfl) t

theorem Dev.own_boot (d : Dev) (b : BootSt) (t : Nat) : Dev.own { d with boot := b } t = d.own t := rfl

theorem Dev.own_tick (d : Dev) (h : d.hold.live = true) (hl : d.time.tb.length = 8) (t : Nat) (ht : t < 8) :
    d.tick.own t = d.ownNext t := by
  rw [← d.own_advanced hl t ht, d.tick_live h]
  exact Dev.own_boot _ _ t

/-! ### Commands: every command completes (R32) -/

/-- The device as command `c` leaves it. -/
def Dev.after (d : Dev) (c : Instr) : Dev :=
  match exec c ⟨d, []⟩ with
  | .next s => s.dev
  | _ => d

theorem exec_eq_next (c : Instr) (d : Dev) (q : List Instr) : exec c ⟨d, q⟩ = .next ⟨d.after c, q⟩ := by
  cases c <;> rfl

/-- The commands of power, reset and PLL_LOCK_DONE, which act on a held core too (R44, R399, log entry 7). -/
def actsHeld : Instr → Bool
  | .pwrGoodRise .. | .porAssert | .porRelease .. | .pwrGoodFall | .sysRstAssert .. | .pllLockDone => true
  | _ => false

theorem State.on_held {d : Dev} (h : d.hold.live = false) (q : List Instr) (f : Dev → Dev) :
    State.on ⟨d, q⟩ f = .next ⟨d, q⟩ := by
  simp [State.on, State.always, h]

theorem exec_held {d : Dev} (h : d.hold.live = false) (c : Instr) (hc : actsHeld c = false) (q : List Instr) :
    exec c ⟨d, q⟩ = .next ⟨d, q⟩ := by
  cases c
  case pwrGoodRise | porAssert | porRelease | pwrGoodFall | sysRstAssert | pllLockDone => simp [actsHeld] at hc
  all_goals
    delta exec
    exact State.on_held h q _

theorem Dev.after_held {d : Dev} (h : d.hold.live = false) (c : Instr) (hc : actsHeld c = false) : d.after c = d := by
  rw [Dev.after, exec_held h c hc]

/-! ### Runs: a queue is worked off first in, first out -/

theorem run_succ_of_next {M : Host.Core} {s t : M.State} (h : M.step s = .next t) (k : Nat) : M.run (k + 1) s = M.run k t := by
  rw [Host.Core.run, h]

theorem run_succ_cons (k : Nat) (d : Dev) (c : Instr) (q : List Instr) :
    Sys2Proof.core.run (k + 1) (⟨d, c :: q⟩ : State) = Sys2Proof.core.run k (⟨d.after c, q⟩ : State) :=
  run_succ_of_next (exec_eq_next c d q) k

/-- As many steps as commands, and more: the commands have acted in order, and the other steps meet what stood behind them. -/
theorem run_append (cs q : List Instr) (d : Dev) (k : Nat) :
    Sys2Proof.core.run (cs.length + k) (⟨d, cs ++ q⟩ : State) = Sys2Proof.core.run k (⟨cs.foldl Dev.after d, q⟩ : State) := by
  induction cs generalizing d with
  | nil => rw [List.length_nil, Nat.zero_add]; rfl
  | cons c cs ih =>
    rw [List.length_cons, Nat.add_right_comm]
    exact (run_succ_cons _ d c (cs ++ q)).trans (ih (d.after c))

theorem run_idle (k : Nat) (d : Dev) : Sys2Proof.core.run k (⟨d, []⟩ : State) = .next (⟨Dev.tick^[k] d, []⟩ : State) := by
  induction k generalizing d with
  | zero => rfl
  | succ k ih => exact ih d.tick

end Sys2Proof.Machine

section
open Sys2Proof Sys2Proof.Machine

/-- Settles O1: the command's arm by definition, and the bases advance one after another, each by its own FREQ. -/
theorem stepRunsTheFrontCommand : Obligations.StepRunsTheFrontCommand := by
  unfold Obligations.StepRunsTheFrontCommand
  exact ⟨fun _ _ _ => rfl,
    fun d => ⟨d.tick, rfl, d.now_tick, d.tick_held, fun hl hlen t ht => d.own_tick hl hlen t ht,
      d.now_tick ▸ d.tick_frame⟩⟩

/-- Settles O2, by induction on the commands at the front: each answers a device and leaves the queue behind it (`exec_eq_next`). -/
theorem commandsRunInOrder : Obligations.CommandsRunInOrder := by
  unfold Obligations.CommandsRunInOrder
  refine ⟨fun c d q => ⟨d.after c, exec_eq_next c d q, fun hl hbn hpor hfall hpll => d.after_held hl c ?_⟩,
    fun cs d => ⟨cs.foldl Dev.after d, fun q => run_append cs q d 0, fun c q => ?_, fun k => ?_⟩⟩
  · cases c <;> simp_all [actsHeld]
  · rw [exec_eq_next]
    exact (run_append cs (c :: q) d 1).trans (run_succ_cons 0 _ c q)
  · rw [← run_idle, ← run_append, List.append_nil]

end

/-! PROOFS about the numbers of frames and copies (R30, R31, R237, R238, R243). `PathSt.fresh` speaks of the frames, the copies and
the next numbers alone. For each function of the model that a command calls there is one lemma: `path_f` where `f` leaves the
frames and copies as they are, `fresh_f` where it changes them and keeps their numbers distinct and below the next ones. Each is
proved from the lemmas of the functions it calls, in the order of the model's text. -/

namespace Sys2Proof.Machine

open Sys2Proof

/-! ### What leaves the frames and copies as they are -/

@[simp] theorem Dev.path_ite (c : Prop) [Decidable c] (d e : Dev) : (if c then d else e).path = if c then d.path else e.path :=
  apply_ite Dev.path c d e

/-- A fold keeps what each of its steps keeps. -/
theorem foldl_keeps {α β γ : Type} {g : α → γ} {f : α → β → α} (hf : ∀ a x, g (f a x) = g a) (l : List β) (a : α) :
    g (l.foldl f a) = g a := by
  induction l generalizing a with
  | nil => rfl
  | cons x l ih => rw [List.foldl_cons, ih, hf]

@[simp] theorem path_foldl {β : Type} {f : Dev → β → Dev} (hf : ∀ d x, (f d x).path = d.path) (l : List β) (d : Dev) :
    (l.foldl f d).path = d.path :=
  foldl_keeps (g := Dev.path) hf l d

@[simp] theorem path_foldl_fst {β γ : Type} {f : Dev × γ → β → Dev × γ} (hf : ∀ a x, (f a x).1.path = a.1.path) (l : List β)
    (a : Dev × γ) : (l.foldl f a).1.path = a.1.path :=
  foldl_keeps (g := fun a : Dev × γ => a.1.path) hf l a

theorem foldl_bind_none {α β : Type} (f : α → β → Option α) (l : List β) :
    l.foldl (fun a x => a.bind fun d => f d x) none = none := by
  induction l with
  | nil => rfl
  | cons x l ih => exact ih

theorem path_foldl_bind {β : Type} {f : Dev → β → Option Dev} (hf : ∀ d x e, f d x = some e → e.path = d.path) (l : List β)
    (d e : Dev) (h : l.foldl (fun a x => a.bind fun d => f d x) (some d) = some e) : e.path = d.path := by
  induction l generalizing d with
  | nil => rw [Option.some.inj h]
  | cons x l ih =>
    rw [List.foldl_cons, Option.bind_some] at h
    cases hx : f d x with
    | none =>
      rw [hx, foldl_bind_none] at h
      cases h
    | some d' =>
      rw [hx] at h
      rw [ih d' h, hf d x d' hx]

/-! #### Time -/

@[simp] theorem Dev.path_setTb (d : Dev) (t : Nat) (b : TbSt) : (d.setTb t b).path = d.path := by simp [Dev.setTb]
@[simp] theorem Dev.path_advanceTb (d : Dev) (t : Nat) : (d.advanceTb t).path = d.path := by simp [Dev.advanceTb]
@[simp] theorem Dev.path_tick (d : Dev) : (d.tick).path = d.path := by simp [Dev.tick]

/-! #### Operands, reads and writes -/

@[simp] theorem Dev.path_becOne (d : Dev) (m a : Nat) (c : AccessClass) (k : Nat) : (d.becOne m a c k).path = d.path := by
  simp [Dev.becOne]
@[simp] theorem Dev.path_becCount (d : Dev) (m a : Nat) (c : AccessClass) : (d.becCount m a c).path = d.path := by
  simp [Dev.becCount]
@[simp] theorem Dev.path_busReadW (d : Dev) (m a : Nat) (w : Word) : (d.busReadW m a w).path = d.path := by simp [Dev.busReadW]
@[simp] theorem Dev.path_busRead (d : Dev) (m a : Nat) : (d.busRead m a).path = d.path := by simp [Dev.busRead]
@[simp] theorem Dev.path_writeReg (d : Dev) (p : Bool) (a : Nat) (v hw : Word) : (d.writeReg p a v hw).path = d.path := by
  unfold Dev.writeReg
  (repeat' split) <;> simp
@[simp] theorem Dev.path_busWrite (d : Dev) (m a v byteEn : Nat) : (d.busWrite m a v byteEn).1.path = d.path := by
  simp [Dev.busWrite]

/-! #### The log -/

@[simp] theorem Dev.path_acceptLog (d : Dev) (r : LogRec) : (d.acceptLog r).path = d.path := by
  unfold Dev.acceptLog
  dsimp only
  split
  · simp
  · simp

@[simp] theorem path_acceptNext (d : Dev) : (acceptNext d).path = d.path := by
  unfold acceptNext
  split <;> simp
@[simp] theorem path_putSubmit (master sup value : Nat) (d : Dev) : (putSubmit master sup value d).path = d.path := by
  simp [putSubmit]
@[simp] theorem path_overrunSummary (d : Dev) : (overrunSummary d).path = d.path := by simp [overrunSummary]
@[simp] theorem Dev.path_setNvm (d : Dev) (nv : Nat) (n : Nvm) : (d.setNvm nv n).path = d.path := by simp [Dev.setNvm]
@[simp] theorem path_persistOne (nv : Nat) (d : Dev) : (persistOne nv d).path = d.path := by
  unfold persistOne
  (repeat' split) <;> simp
@[simp] theorem Dev.path_clearLog (d : Dev) (requester : Nat) : (d.clearLog requester).path = d.path := by simp [Dev.clearLog]
@[simp] theorem path_clearCmd (master : Nat) (d : Dev) : (clearCmd master d).path = d.path := by simp [clearCmd]

/-! #### Power tokens -/

@[simp] theorem Dev.path_requestTokens (d : Dev) (h level : Nat) : (d.requestTokens h level).path = d.path := by
  simp [Dev.requestTokens]
@[simp] theorem Dev.path_releaseTokens (d : Dev) (h : Nat) : (d.releaseTokens h).path = d.path := by simp [Dev.releaseTokens]

/-! #### Frames, copies and cells -/

@[simp] theorem Dev.path_setBank (d : Dev) (p : Nat) (b : Bank) : (d.setBank p b).path = d.path := by simp [Dev.setBank]
@[simp] theorem Dev.path_auditLost (d : Dev) (loc n : Nat) : (d.auditLost loc n).path = d.path := by simp [Dev.auditLost]
@[simp] theorem Dev.path_ptrFail (d : Dev) (store value : Nat) : (d.ptrFail store value).path = d.path := by simp [Dev.ptrFail]
@[simp] theorem Dev.path_returnCell (d : Dev) (p k flip : Nat) : (d.returnCell p k flip).path = d.path := by simp [Dev.returnCell]
@[simp] theorem Dev.path_setPauseSt (d : Dev) (n c : Nat) (s : PauseSt) : (d.setPauseSt n c s).path = d.path := by
  simp [Dev.setPauseSt]
@[simp] theorem Dev.path_addEc (d : Dev) (p m c k : Nat) : (d.addEc p m c k).path = d.path := by simp [Dev.addEc]
@[simp] theorem Dev.path_subEc (d : Dev) (p m c k : Nat) : (d.subEc p m c k).path = d.path := by simp [Dev.subEc]
@[simp] theorem Dev.path_sendPause (d : Dev) (n mode : Nat) (cs : List Nat) (xoff : Bool) :
    (d.sendPause n mode cs xoff).path = d.path := by
  simp [Dev.sendPause]
@[simp] theorem Dev.path_evalPause (d : Dev) (n : Nat) : (d.evalPause n).path = d.path := by
  unfold Dev.evalPause
  (repeat' split) <;> simp
@[simp] theorem Dev.path_addIc (d : Dev) (n c k : Nat) : (d.addIc n c k).path = d.path := by simp [Dev.addIc]
@[simp] theorem Dev.path_subIc (d : Dev) (n c k : Nat) : (d.subIc n c k).path = d.path := by simp [Dev.subIc]

@[simp] theorem Dev.path_unref (d : Dev) (p k flip : Nat) : (d.unref p k flip).1.path = d.path := by
  unfold Dev.unref
  dsimp only
  (repeat' split) <;> simp

@[simp] theorem Dev.path_returnCredit (d : Dev) (g n : Nat) : (d.returnCredit g n).path = d.path := by simp [Dev.returnCredit]
@[simp] theorem Dev.path_unstage (d : Dev) (g n : Nat) : (d.unstage g n).path = d.path := by simp [Dev.unstage]
@[simp] theorem Dev.path_setVatHalf (d : Dev) (v s : Nat) (f : FreeList) : (d.setVatHalf v s f).path = d.path := by
  simp [Dev.setVatHalf]
@[simp] theorem Dev.path_returnBlock (d : Dev) (b : Nat × Nat × Nat) (flip : Nat) : (d.returnBlock b flip).path = d.path := by
  simp [Dev.returnBlock]
@[simp] theorem Dev.path_clearTx (d : Dev) (i : Nat) : (d.clearTx i).path = d.path := by simp [Dev.clearTx]
@[simp] theorem Dev.path_askRefills (d : Dev) (p : Nat) : (d.askRefills p).path = d.path := by simp [Dev.askRefills]
@[simp] theorem Dev.path_returnChain (d : Dev) (f : Frame) : (d.returnChain f).path = d.path := by simp [Dev.returnChain]
@[simp] theorem Dev.path_returnStaging (d : Dev) (f : Frame) : (d.returnStaging f).path = d.path := by simp [Dev.returnStaging]
@[simp] theorem Dev.path_startRebuild (d : Dev) (p s : Nat) : (d.startRebuild p s).path = d.path := by simp [Dev.startRebuild]

@[simp] theorem Dev.path_allocCell (d : Dev) (p fuel : Nat) : (d.allocCell p fuel).2.path = d.path := by
  induction fuel generalizing d with
  | zero => rfl
  | succ fuel ih =>
    unfold Dev.allocCell
    dsimp only
    split
    · rfl
    · split
      · rfl
      · split
        · simp
        · rw [ih, Dev.path_startRebuild]

/-! #### Ports -/

@[simp] theorem Dev.path_setPortSt (d : Dev) (n : Nat) (s : PortSt) : (d.setPortSt n s).path = d.path := by simp [Dev.setPortSt]
@[simp] theorem Dev.path_startRemoval (d : Dev) (n : Nat) : (d.startRemoval n).path = d.path := by simp [Dev.startRemoval]
@[simp] theorem Dev.path_issueLearn (d : Dev) (p : Nat) (e : LearnEv) : (d.issueLearn p e).path = d.path := by
  simp [Dev.issueLearn]
@[simp] theorem Dev.path_issueHeld (d : Dev) (f : Frame) : (d.issueHeld f).path = d.path := by
  unfold Dev.issueHeld
  (repeat' split) <;> simp
@[simp] theorem Dev.path_countRxErr (d : Dev) (n reason : Nat) : (d.countRxErr n reason).path = d.path := by
  unfold Dev.countRxErr
  split <;> simp
@[simp] theorem Dev.path_clearPause (d : Dev) (n : Nat) : (d.clearPause n).path = d.path := by simp [Dev.clearPause]
@[simp] theorem Dev.path_startVerify (d : Dev) (n : Nat) : (d.startVerify n).path = d.path := by simp [Dev.startVerify]
@[simp] theorem Dev.path_linkRises (d : Dev) (n : Nat) : (d.linkRises n).path = d.path := by simp [Dev.linkRises]
@[simp] theorem path_linkUpDecl (port clearFor : Nat) (d : Dev) : (linkUpDecl port clearFor d).path = d.path := by
  simp [linkUpDecl]
@[simp] theorem path_flushDone (port : Nat) (d : Dev) : (flushDone port d).path = d.path := by simp [flushDone]
@[simp] theorem Dev.path_applyTxeq (d : Dev) (g l : Nat) : (d.applyTxeq g l).path = d.path := by simp [Dev.applyTxeq]
@[simp] theorem Dev.path_pauseChanged (d : Dev) (n : Nat) (old : Word) : (d.pauseChanged n old).path = d.path := by
  simp [Dev.pauseChanged]
@[simp] theorem Dev.path_pauseClass (d : Dev) (n c q : Nat) : (d.pauseClass n c q).path = d.path := by simp [Dev.pauseClass]
@[simp] theorem Dev.path_control (d : Dev) (n : Nat) (b : List Byte) : (d.control n b).path = d.path := by
  unfold Dev.control
  split <;> simp
@[simp] theorem path_pauseExpiry (port cls : Nat) (d : Dev) : (pauseExpiry port cls d).path = d.path := by
  unfold pauseExpiry
  split <;> simp
@[simp] theorem path_xoffRepeat (port cls : Nat) (d : Dev) : (xoffRepeat port cls d).path = d.path := by simp [xoffRepeat]
@[simp] theorem path_pauseWdTrip (port cls : Nat) (d : Dev) : (pauseWdTrip port cls d).path = d.path := by simp [pauseWdTrip]
@[simp] theorem path_pauseWdHoldEnd (port cls : Nat) (d : Dev) : (pauseWdHoldEnd port cls d).path = d.path := by
  simp [pauseWdHoldEnd]
@[simp] theorem path_verifyTimeout (port : Nat) (d : Dev) : (verifyTimeout port d).path = d.path := by simp [verifyTimeout]
@[simp] theorem path_verifyRx (port : Nat) (respond : Bool) (d : Dev) : (verifyRx port respond d).path = d.path := by
  simp [verifyRx]
@[simp] theorem path_rxAdaptUpdate (_port : Nat) (d : Dev) : (rxAdaptUpdate _port d).path = d.path := by simp [rxAdaptUpdate]
@[simp] theorem path_autonegComplete (port fec : Nat) (d : Dev) : (autonegComplete port fec d).path = d.path := by
  simp [autonegComplete]
@[simp] theorem path_trainingComplete (port : Nat) (coefs : List Nat) (d : Dev) :
    (trainingComplete port coefs d).path = d.path := by
  simp [trainingComplete]

/-! #### Beaters -/

@[simp] theorem Dev.path_flipWord (d : Dev) (p k half word mask : Nat) : (d.flipWord p k half word mask).path = d.path := by
  simp [Dev.flipWord]
@[simp] theorem Dev.path_writeStore (d : Dev) (p half word v : Nat) : (d.writeStore p half word v).path = d.path := by
  simp [Dev.writeStore]
@[simp] theorem Dev.path_copiesFollow (d : Dev) (p : Nat) : (d.copiesFollow p).path = d.path := by simp [Dev.copiesFollow]

theorem Dev.path_rehome {d e : Dev} {p n k : Nat} (h : d.rehome p n = some (k, e)) : e.path = d.path := by
  unfold Dev.rehome at h
  dsimp only at h
  split at h
  · cases h; rfl
  · split at h
    · cases h; rfl
    · split at h
      · cases h
      · cases h; rfl

@[simp] theorem Dev.path_copyOut (d : Dev) (p k : Nat) : (d.copyOut p k).path = d.path := by simp [Dev.copyOut]
@[simp] theorem Dev.path_machineCheck (d : Dev) (p e k word t : Nat) : (d.machineCheck p e k word t).path = d.path := by
  simp [Dev.machineCheck]

@[simp] theorem Dev.path_handoffWait (d : Dev) (f : Frame) : (d.handoffWait f).1.path = d.path := by
  unfold Dev.handoffWait
  dsimp only
  (repeat' split) <;> simp

@[simp] theorem Dev.path_sideFail (d : Dev) (p i : Nat) : (d.sideFail p i).path = d.path := by simp [Dev.sideFail]
@[simp] theorem path_sideRewrite (pipe index : Nat) (d : Dev) : (sideRewrite pipe index d).path = d.path := by simp [sideRewrite]
@[simp] theorem path_reloadDone (pipe copy : Nat) (ok : Bool) (d : Dev) : (reloadDone pipe copy ok d).path = d.path := by
  simp [reloadDone]
@[simp] theorem path_storeScrub (pipe : Nat) (upsets : List (Nat × Nat × Nat × Nat)) (d : Dev) :
    (storeScrub pipe upsets d).path = d.path := by
  simp [storeScrub]
@[simp] theorem Dev.path_readStore (d : Dev) (pipe : Nat) : (d.readStore pipe).path = d.path := by simp [Dev.readStore]
@[simp] theorem path_storeRead (master pipe value : Nat) (d : Dev) : (storeRead master pipe value d).path = d.path := by
  simp [storeRead]

/-! #### Redundancy -/

@[simp] theorem Dev.path_checkPairs (d : Dev) : d.checkPairs.path = d.path :=
  path_foldl (fun e r => by split <;> simp) _ d
@[simp] theorem Dev.path_setNode (d : Dev) (slot : Nat) (n : Node) : (d.setNode slot n).path = d.path := by simp [Dev.setNode]
@[simp] theorem Dev.path_touchNode (d : Dev) (slot r n : Nat) : (d.touchNode slot r n).path = d.path := by simp [Dev.touchNode]
@[simp] theorem Dev.path_nextSeq (d : Dev) (r mac : Nat) : (d.nextSeq r mac).2.path = d.path := by
  unfold Dev.nextSeq
  (repeat' split) <;> simp
@[simp] theorem Dev.path_setRcv (d : Dev) (c : Nat) (r : Rcv) : (d.setRcv c r).path = d.path := by simp [Dev.setRcv]
@[simp] theorem Dev.path_allocRcv (d : Dev) (c seq port reset : Nat) (portB : Option Nat) :
    (d.allocRcv c seq port reset portB).path = d.path := by
  simp [Dev.allocRcv]

@[simp] theorem path_nodeInsert (d : Dev) : (nodeInsert d).path = d.path := by
  unfold nodeInsert
  dsimp only
  (repeat' split) <;> simp

@[simp] theorem Dev.path_freeRcv (d : Dev) (c : Nat) : (d.freeRcv c).path = d.path := by simp [Dev.freeRcv]
@[simp] theorem path_nodeSweep (d : Dev) : (nodeSweep d).path = d.path := by simp [nodeSweep]

@[simp] theorem path_takeAnySweep (d : Dev) : (takeAnySweep d).path = d.path := by
  unfold takeAnySweep
  split
  · exact path_foldl (fun e c => by dsimp only; split <;> simp) _ _
  · rfl

@[simp] theorem Dev.path_vectorRecover (d : Dev) (c reset seq : Nat) : (d.vectorRecover c reset seq).2.path = d.path := by
  unfold Dev.vectorRecover
  dsimp only
  (repeat' split) <;> simp

@[simp] theorem Dev.path_countPairRx (d : Dev) (f : Frame) (r : Nat) : (d.countPairRx f r).path = d.path := by
  simp [Dev.countPairRx]

@[simp] theorem Dev.path_nodeLookup (d : Dev) (f : Frame) (r : Nat) : (d.nodeLookup f r).2.path = d.path := by
  unfold Dev.nodeLookup
  dsimp only
  (repeat' split) <;> simp

theorem Dev.path_pairRules {d e : Dev} {f g : Frame} {set member set' : Nat}
    (h : d.pairRules f set member = some (set', g, e)) : e.path = d.path := by
  unfold Dev.pairRules at h
  split at h
  · dsimp only at h
    split at h
    · cases h
    · split at h <;> cases h <;> simp
  · have hfold := Option.some.inj h
    refine (congrArg (fun x : Nat × Frame × Dev => x.2.2.path) hfold.symm).trans
      (foldl_keeps (g := fun x : Nat × Frame × Dev => x.2.2.path) (fun a q => ?_) _ _)
    dsimp only
    split
    · split
      · dsimp only
        split <;> simp
      · rfl
    · rfl

@[simp] theorem Dev.path_frameSeq (d : Dev) (f : Frame) : (d.frameSeq f).2.path = d.path := by
  unfold Dev.frameSeq
  dsimp only
  (repeat' split) <;> simp

/-! #### The time protocol engine -/

@[simp] theorem Dev.path_ptpCheck (d : Dev) (k : Nat) : (d.ptpCheck k).path = d.path := by simp [Dev.ptpCheck]
@[simp] theorem Dev.path_setBmca (d : Dev) (k : Nat) (b : Bmca) : (d.setBmca k b).path = d.path := by simp [Dev.setBmca]
@[simp] theorem Dev.path_tc2Done (d : Dev) (h : Tc2Held) (port : Nat) : (d.tc2Done h port).path = d.path := by simp [Dev.tc2Done]
@[simp] theorem path_tc2Abandon (inst src seqId port : Nat) (d : Dev) : (tc2Abandon inst src seqId port d).path = d.path := by
  unfold tc2Abandon
  split <;> simp

/-! #### Streams -/

@[simp] theorem Dev.path_setSgate (d : Dev) (h : Nat) (g : SGate) : (d.setSgate h g).path = d.path := by simp [Dev.setSgate]
@[simp] theorem Dev.path_installStream (d : Dev) (p h : Nat) : (d.installStream p h).path = d.path := by simp [Dev.installStream]
@[simp] theorem path_sgateTakeover (handle : Nat) (d : Dev) : (sgateTakeover handle d).path = d.path := by
  unfold sgateTakeover
  split <;> simp
@[simp] theorem path_sgateEntryStart (handle : Nat) (d : Dev) : (sgateEntryStart handle d).path = d.path := by
  unfold sgateEntryStart
  (repeat' split) <;> simp

@[simp] theorem Dev.path_meterRun (d : Dev) (f : Frame) (h : Nat) : (d.meterRun f h).2.path = d.path := by
  unfold Dev.meterRun
  dsimp only
  (repeat' split) <;> simp

@[simp] theorem Dev.path_blockHandle (d : Dev) (p h cause : Nat) : (d.blockHandle p h cause).path = d.path := by
  simp [Dev.blockHandle]

/-! #### Forwarding and learning -/

@[simp] theorem Dev.path_setAslot (d : Dev) (p s : Nat) (e : AEnt) : (d.setAslot p s e).path = d.path := by simp [Dev.setAslot]
@[simp] theorem Dev.path_upsetSlot (d : Dev) (p : Nat) (u : Nat × Nat) : (d.upsetSlot p u).path = d.path := by
  simp [Dev.upsetSlot]
@[simp] theorem Dev.path_parityCheck (d : Dev) (p s : Nat) : (d.parityCheck p s).path = d.path := by simp [Dev.parityCheck]
@[simp] theorem Dev.path_readSlots (d : Dev) (p : Nat) (ss : List Nat) : (d.readSlots p ss).path = d.path := by
  simp [Dev.readSlots]
@[simp] theorem Dev.path_alookup (d : Dev) (p fid mac : Nat) : (d.alookup p fid mac).2.path = d.path := by simp [Dev.alookup]
@[simp] theorem Dev.path_learnOf (d : Dev) (f : Frame) (fid : Nat) (sa : Option AEnt) : (d.learnOf f fid sa).2.path = d.path := by
  unfold Dev.learnOf
  (repeat' split) <;> simp

@[simp] theorem Dev.path_pathSearch (p fuel h b vp : Nat) (path : List Nat) (d : Dev) :
    (Dev.pathSearch p fuel h b vp path d).1.path = d.path := by
  induction fuel generalizing h b vp path d with
  | zero => rfl
  | succ fuel ih =>
    unfold Dev.pathSearch
    dsimp only
    split
    · rfl
    · split
      · simp
      · rw [ih, Dev.path_readSlots]

theorem Dev.path_ainsert (d : Dev) (p : Nat) (e : AEnt) :
    (d.ainsert p e).2.path = d.path ∧ ∀ d', (d.ainsert p e).1 = some d' → d'.path = d.path := by
  unfold Dev.ainsert
  dsimp only
  split
  · simp
  · split
    · simp
    · refine ⟨by simp, fun d' h => ?_⟩
      rw [← Option.some.inj h, Dev.path_setAslot, foldl_keeps (g := fun a : Dev × Nat => a.1.path) (fun a s => by simp)]
      simp

theorem Dev.path_of_ainsert_none {d e : Dev} {p : Nat} {x : AEnt} (h : d.ainsert p x = (none, e)) : e.path = d.path :=
  (congrArg (fun r : Option Dev × Dev => r.2.path) h).symm.trans (d.path_ainsert p x).1

theorem Dev.path_of_ainsert_some {d e o : Dev} {p : Nat} {x : AEnt} (h : d.ainsert p x = (some e, o)) : e.path = d.path :=
  (d.path_ainsert p x).2 e (congrArg Prod.fst h)

@[simp] theorem Dev.path_insertStatic (d : Dev) (p : Nat) (e : AEnt) : (d.insertStatic p e).1.path = d.path := by
  unfold Dev.insertStatic
  split
  · rename_i h
    exact Dev.path_of_ainsert_some h
  · rename_i h
    dsimp only
    split <;> simpa using Dev.path_of_ainsert_none h

@[simp] theorem path_ringDeliver (d : Dev) : (ringDeliver d).path = d.path := by
  unfold ringDeliver
  split <;> simp
@[simp] theorem Dev.path_moveEntry (d : Dev) (p s port : Nat) : (d.moveEntry p s port).path = d.path := by simp [Dev.moveEntry]

@[simp] theorem Dev.path_applyLearn (d : Dev) (p : Nat) (ev : LearnEv) : (d.applyLearn p ev).path = d.path := by
  unfold Dev.applyLearn
  dsimp only
  split
  · simp
  · split
    · simp
    · split
      · simp
      · split
        · rename_i h
          simpa using Dev.path_of_ainsert_some h
        · rename_i h
          simpa using Dev.path_of_ainsert_none h

@[simp] theorem path_learnWrite (pipe : Nat) (d : Dev) : (learnWrite pipe d).path = d.path := by
  unfold learnWrite
  split <;> simp
@[simp] theorem Dev.path_ageSlot (d : Dev) (p fid s : Nat) : (d.ageSlot p fid s).path = d.path := by simp [Dev.ageSlot]
@[simp] theorem path_agingTick (pipe fid : Nat) (bad : List (Nat × Nat)) (d : Dev) :
    (agingTick pipe fid bad d).path = d.path := by
  simp [agingTick]
@[simp] theorem path_moveWindowEnd (pipe : Nat) (d : Dev) : (moveWindowEnd pipe d).path = d.path := by simp [moveWindowEnd]
@[simp] theorem path_removalPassDone (pipe : Nat) (d : Dev) : (removalPassDone pipe d).path = d.path := by simp [removalPassDone]
@[simp] theorem Dev.path_staticFixed (d : Dev) (p action key : Nat) : (d.staticFixed p action key).path = d.path := by
  simp [Dev.staticFixed]

@[simp] theorem Dev.path_compareStatic (d : Dev) (p key v : Nat) : (d.compareStatic p key v).path = d.path := by
  unfold Dev.compareStatic
  dsimp only
  (repeat' split) <;> simp

@[simp] theorem path_staticCompare (upsets : List (Nat × Nat × Nat)) (d : Dev) : (staticCompare upsets d).path = d.path := by
  simp [staticCompare]
@[simp] theorem path_staticReinsert (d : Dev) : (staticReinsert d).path = d.path := by simp [staticReinsert]

theorem Dev.path_placed {d e : Dev} {p : Nat} {x : AEnt} (h : d.placed p x = some e) : e.path = d.path := by
  unfold Dev.placed at h
  dsimp only at h
  split at h
  · obtain rfl := Option.some.inj h
    simp
  · cases h

theorem Dev.path_loadStatic {d e : Dev} {p key v : Nat} (h : d.loadStatic p key v = some e) : e.path = d.path := by
  unfold Dev.loadStatic at h
  dsimp only at h
  split at h
  · cases h
    simp
  · split at h
    · exact Dev.path_placed h
    · cases h

theorem Dev.path_stageStatic {d e : Dev} {p key v : Nat} (h : d.stageStatic p key v = some e) : e.path = d.path := by
  unfold Dev.stageStatic at h
  dsimp only at h
  split at h
  · cases h
    simp
  · split at h
    · simpa using Dev.path_placed h
    · cases h

@[simp] theorem Dev.path_deleteStatic (d : Dev) (p fid mac : Nat) (stage : Bool) :
    (d.deleteStatic p fid mac stage).1.path = d.path := by
  simp [Dev.deleteStatic]
@[simp] theorem Dev.path_commitStatic (d : Dev) : (d.commitStatic).path = d.path := by simp [Dev.commitStatic]

@[simp] theorem Dev.path_cleanStatic (d : Dev) : d.cleanStatic.path = d.path := by
  refine path_foldl (fun d p => ?_) _ d
  dsimp only
  simp only [Dev.setFlag_frame]
  refine path_foldl (fun e s => ?_) _ _
  split
  · simp
  · split
    · split <;> simp
    · rfl

@[simp] theorem Dev.path_unstageStatic (d : Dev) : (d.unstageStatic).path = d.path := by simp [Dev.unstageStatic]
@[simp] theorem Dev.path_checkMirrors (d : Dev) : (d.checkMirrors).path = d.path := by simp [Dev.checkMirrors]

/-! #### Seals -/

@[simp] theorem Dev.path_setSctx (d : Dev) (slot : Nat) (c : SCtx) : (d.setSctx slot c).path = d.path := by simp [Dev.setSctx]
@[simp] theorem Dev.path_sealReport (d : Dev) (f : Frame) (reason q : Nat) : (d.sealReport f reason q).path = d.path := by
  simp [Dev.sealReport]
@[simp] theorem path_sealLogSummary (port : Nat) (d : Dev) : (sealLogSummary port d).path = d.path := by simp [sealLogSummary]
@[simp] theorem Dev.path_checkSeal (d : Dev) : (d.checkSeal).path = d.path := by simp [Dev.checkSeal]
@[simp] theorem Dev.path_clusterRise (d : Dev) (c : Nat) : (d.clusterRise c).path = d.path := by simp [Dev.clusterRise]
@[simp] theorem path_clusterReset (cluster : Nat) (d : Dev) : (clusterReset cluster d).path = d.path := by simp [clusterReset]
@[simp] theorem Dev.path_writeKey (d : Dev) (slot kind : Nat) (key : List Byte) : (d.writeKey slot kind key).path = d.path := by
  simp [Dev.writeKey]

theorem Dev.path_loadCtx {d e : Dev} {key minSeq : Nat} (h : d.loadCtx key minSeq = some e) : e.path = d.path := by
  unfold Dev.loadCtx at h
  split at h
  · cases h
    simp
  · obtain ⟨s, -, rfl⟩ := Option.map_eq_some_iff.mp h
    simp

theorem Dev.path_stageCtx {d e : Dev} {key minSeq : Nat} (h : d.stageCtx key minSeq = some e) : e.path = d.path := by
  unfold Dev.stageCtx at h
  dsimp only at h
  split at h
  · cases h
    simp
  · obtain ⟨s, -, rfl⟩ := Option.map_eq_some_iff.mp h
    simp

@[simp] theorem Dev.path_deleteCtx (d : Dev) (key : Nat) (stage : Bool) : (d.deleteCtx key stage).path = d.path := by
  simp [Dev.deleteCtx]
@[simp] theorem Dev.path_commitCtxs (d : Dev) : (d.commitCtxs).path = d.path := by simp [Dev.commitCtxs]
@[simp] theorem Dev.path_unstageCtxs (d : Dev) : (d.unstageCtxs).path = d.path := by simp [Dev.unstageCtxs]

/-! #### Vats -/

@[simp] theorem Dev.path_bankErr (d : Dev) (p : Nat) (link : Bool) (cell : Nat) : (d.bankErr p link cell).path = d.path := by
  simp [Dev.bankErr]

theorem Dev.path_supTake {d e : Dev} {b : Nat} {bs : List Nat} (h : d.supTake b = some (bs, e)) : e.path = d.path := by
  unfold Dev.supTake at h
  split at h
  · obtain ⟨x, -, hx⟩ := Option.map_eq_some_iff.mp h
    cases hx
    simp
  · cases h

@[simp] theorem Dev.path_supGive (d : Dev) (bs : List Nat) : (d.supGive bs).path = d.path := by simp [Dev.supGive]
@[simp] theorem Dev.path_sweepOne (d : Dev) (p : Nat) (x : Nat × Nat) : (d.sweepOne p x).path = d.path := by
  unfold Dev.sweepOne
  (repeat' split) <;> simp
@[simp] theorem path_bankSweep (pipe : Nat) (found : List (Nat × Nat)) (d : Dev) : (bankSweep pipe found d).path = d.path := by
  simp [bankSweep]
@[simp] theorem path_listRebuildDone (pipe sub : Nat) (d : Dev) : (listRebuildDone pipe sub d).path = d.path := by
  simp [listRebuildDone]

theorem Dev.path_takeBlock {d e : Dev} {v : Nat} {b : Nat × Nat × Nat} (h : d.takeBlock v = some (b, e)) : e.path = d.path := by
  unfold Dev.takeBlock at h
  dsimp only at h
  generalize (if d.vatFree v 0 < d.vatFree v 1 then 1 else 0) = s at h
  split at h
  · cases h
  · split at h
    · cases h
    · cases h
      simp

@[simp] theorem Dev.path_popSpill (d : Dev) (p : Nat) : (d.popSpill p).path = d.path := by simp [Dev.popSpill]

@[simp] theorem path_spillBurstReturn (pipe : Nat) (d : Dev) : (spillBurstReturn pipe d).path = d.path := by
  unfold spillBurstReturn
  dsimp only
  (repeat' split) <;> simp

@[simp] theorem Dev.path_popRefill (d : Dev) (p : Nat) : (d.popRefill p).path = d.path := by simp [Dev.popRefill]

@[simp] theorem path_privCacheRefill (vat : Nat) (bad : List Nat) (d : Dev) : (privCacheRefill vat bad d).path = d.path := by
  unfold privCacheRefill
  dsimp only
  rw [Dev.path_ite, ite_eq_right_iff]
  intro _
  rw [Dev.path_ite, ite_self]
  refine path_foldl (fun e x => ?_) _ d
  split <;> simp

/-! #### Egress gates and queues -/

@[simp] theorem Dev.path_setEgate (d : Dev) (n : Nat) (g : EGate) : (d.setEgate n g).path = d.path := by simp [Dev.setEgate]
@[simp] theorem Dev.path_showGates (d : Dev) (n : Nat) : (d.showGates n).path = d.path := by simp [Dev.showGates]
@[simp] theorem Dev.path_cbsRun (d : Dev) (n : Nat) : (d.cbsRun n).path = d.path := by simp [Dev.cbsRun]
@[simp] theorem Dev.path_tbsCharge (d : Dev) (n c bytes : Nat) : (d.tbsCharge n c bytes).path = d.path := by simp [Dev.tbsCharge]
@[simp] theorem Dev.path_setWfq (d : Dev) (n c : Nat) (w : Wfq) : (d.setWfq n c w).path = d.path := by simp [Dev.setWfq]
@[simp] theorem Dev.path_wfqRefresh (d : Dev) (n : Nat) : (d.wfqRefresh n).path = d.path := by simp [Dev.wfqRefresh]
@[simp] theorem Dev.path_portEvent (d : Dev) (n : Nat) : (d.portEvent n).path = d.path := by simp [Dev.portEvent]

/-! #### The fabric -/

@[simp] theorem Dev.path_showPlanes (d : Dev) : (d.showPlanes).path = d.path := by simp [Dev.showPlanes]
@[simp] theorem Dev.path_planeLevel (d : Dev) (n level : Nat) : (d.planeLevel n level).path = d.path := by simp [Dev.planeLevel]
@[simp] theorem Dev.path_planeJoin (d : Dev) (n : Nat) : (d.planeJoin n).path = d.path := by simp [Dev.planeJoin]
@[simp] theorem Dev.path_fabricRelease (d : Dev) : (d.fabricRelease).path = d.path := by simp [Dev.fabricRelease]
@[simp] theorem Dev.path_matchIter (d : Dev) (plane : Nat) (reqs done : List (Nat × Nat)) (first : Bool) :
    (d.matchIter plane reqs done first).1.path = d.path := by
  simp [Dev.matchIter]
@[simp] theorem Dev.path_matchPlane (d : Dev) (plane : Nat) (reqs : List (Nat × Nat)) :
    (d.matchPlane plane reqs).1.path = d.path := by
  simp [Dev.matchPlane]
@[simp] theorem Dev.path_setGap (d : Dev) (i j : Nat) (g : Gap) : (d.setGap i j g).path = d.path := by simp [Dev.setGap]
@[simp] theorem Dev.path_updGap (d : Dev) (i j : Nat) : (d.updGap i j).path = d.path := by simp [Dev.updGap]
@[simp] theorem Dev.path_crcWindow (d : Dev) (n : Nat) : (d.crcWindow n).1.path = d.path := by simp [Dev.crcWindow]
@[simp] theorem Dev.path_startJoin (d : Dev) (n : Nat) : (d.startJoin n).path = d.path := by simp [Dev.startJoin]
@[simp] theorem Dev.path_endRotation (d : Dev) (result out added : Nat) : (d.endRotation result out added).path = d.path := by
  simp [Dev.endRotation]
@[simp] theorem Dev.path_markFailed (d : Dev) (n cause : Nat) : (d.markFailed n cause).path = d.path := by simp [Dev.markFailed]

@[simp] theorem Dev.path_failPlane (d : Dev) (n cause : Nat) : (d.failPlane n cause).path = d.path := by
  unfold Dev.failPlane
  dsimp only
  (repeat' split) <;> simp

@[simp] theorem path_seqReport (src dst : Nat) (d : Dev) : (seqReport src dst d).path = d.path := by simp [seqReport]
@[simp] theorem path_planeHeartbeatMiss (plane group : Nat) (d : Dev) : (planeHeartbeatMiss plane group d).path = d.path := by
  simp [planeHeartbeatMiss]
@[simp] theorem path_planeAuditMarker (d : Dev) : (planeAuditMarker d).path = d.path := by simp [planeAuditMarker]

@[simp] theorem path_spareSyncDone (d : Dev) : (spareSyncDone d).path = d.path := by
  unfold spareSyncDone
  dsimp only
  split
  · rfl
  · split
    · split <;> simp
    · rfl

@[simp] theorem path_spareBringupTimeout (d : Dev) : (spareBringupTimeout d).path = d.path := by
  unfold spareBringupTimeout
  dsimp only
  (repeat' split) <;> simp

@[simp] theorem path_planeSelftest (plane : Nat) (pass : Bool) (d : Dev) : (planeSelftest plane pass d).path = d.path := by
  simp [planeSelftest]
@[simp] theorem Dev.path_startRotation (d : Dev) (plane : Nat) : (d.startRotation plane).path = d.path := by
  simp [Dev.startRotation]
@[simp] theorem path_rotationStart (master plane : Nat) (d : Dev) : (rotationStart master plane d).path = d.path := by
  simp [rotationStart]
@[simp] theorem path_rotationSchedule (d : Dev) : (rotationSchedule d).path = d.path := by simp [rotationSchedule]
@[simp] theorem path_rotationChangeover (d : Dev) : (rotationChangeover d).path = d.path := by
  unfold rotationChangeover
  (repeat' split) <;> simp
@[simp] theorem path_rotationComplete (d : Dev) : (rotationComplete d).path = d.path := by
  unfold rotationComplete
  split <;> simp

/-! #### Egress -/

@[simp] theorem Dev.path_recoverCopy (d : Dev) (f : Frame) (c : Copy) : (d.recoverCopy f c).2.path = d.path := by
  unfold Dev.recoverCopy
  (repeat' split) <;> simp
@[simp] theorem Dev.path_step17 (d : Dev) (f : Frame) (c : Copy) : (d.step17 f c).2.path = d.path := by
  unfold Dev.step17
  (repeat' split) <;> simp
@[simp] theorem Dev.path_wfqStart (d : Dev) (n c : Nat) : (d.wfqStart n c).path = d.path := by simp [Dev.wfqStart]
@[simp] theorem Dev.path_tsEntry (d : Dev) (n : Nat) (f : Frame) (k po ago : Nat) : (d.tsEntry n f k po ago).path = d.path := by
  simp [Dev.tsEntry]

@[simp] theorem Dev.path_countTx (d : Dev) (n : Nat) (f : Frame) (c : Copy) (len : Nat) :
    (d.countTx n f c len).path = d.path := by
  unfold Dev.countTx
  dsimp only
  (repeat' split) <;> simp

@[simp] theorem Dev.path_installGates (d : Dev) (n : Nat) : (d.installGates n).path = d.path := by simp [Dev.installGates]

@[simp] theorem Dev.path_applyOp (d : Dev) (n : Nat) : (d.applyOp n).path = d.path := by
  unfold Dev.applyOp
  dsimp only
  (repeat' split) <;> simp

@[simp] theorem path_gateStateChange (port : Nat) (d : Dev) : (gateStateChange port d).path = d.path := by simp [gateStateChange]
@[simp] theorem path_gateTakeover (port : Nat) (d : Dev) : (gateTakeover port d).path = d.path := by
  unfold gateTakeover
  split <;> simp
@[simp] theorem path_cbsReachesZero (port cls : Nat) (d : Dev) : (cbsReachesZero port cls d).path = d.path := by
  simp [cbsReachesZero]
@[simp] theorem path_bucketReachesZero (port cls : Nat) (d : Dev) : (bucketReachesZero port cls d).path = d.path := by
  simp [bucketReachesZero]
@[simp] theorem Dev.path_cbsReset (d : Dev) (n c : Nat) : (d.cbsReset n c).path = d.path := by simp [Dev.cbsReset]
@[simp] theorem Dev.path_tbsReset (d : Dev) (n c : Nat) : (d.tbsReset n c).path = d.path := by simp [Dev.tbsReset]

/-! #### Modules -/

@[simp] theorem Dev.path_setCage (d : Dev) (c : Nat) (s : CageSt) : (d.setCage c s).path = d.path := by simp [Dev.setCage]
@[simp] theorem Dev.path_checkCages (d : Dev) : (d.checkCages).path = d.path := by simp [Dev.checkCages]
@[simp] theorem Dev.path_stepCage (d : Dev) (c st : Nat) : (d.stepCage c st).path = d.path := by simp [Dev.stepCage]
@[simp] theorem Dev.path_resetPin (d : Dev) (c : Nat) (high : Bool) : (d.resetPin c high).path = d.path := by simp [Dev.resetPin]
@[simp] theorem Dev.path_resetModule (d : Dev) (c : Nat) : (d.resetModule c).path = d.path := by simp [Dev.resetModule]
@[simp] theorem Dev.path_awaitReady (d : Dev) (c start : Nat) : (d.awaitReady c start).path = d.path := by simp [Dev.awaitReady]
@[simp] theorem Dev.path_clearOver (d : Dev) (c : Nat) : (d.clearOver c).path = d.path := by simp [Dev.clearOver]
@[simp] theorem Dev.path_returnGrant (d : Dev) (c : Nat) : (d.returnGrant c).path = d.path := by simp [Dev.returnGrant]
@[simp] theorem Dev.path_setPresent (d : Dev) (c : Nat) (b : Bool) : (d.setPresent c b).path = d.path := by simp [Dev.setPresent]
@[simp] theorem path_moduleInsert (cage : Nat) (d : Dev) : (moduleInsert cage d).path = d.path := by simp [moduleInsert]
@[simp] theorem Dev.path_moduleStart (d : Dev) : (d.moduleStart).path = d.path := by simp [Dev.moduleStart]
@[simp] theorem Dev.path_readFail (d : Dev) (c : Nat) : (d.readFail c).path = d.path := by simp [Dev.readFail]

@[simp] theorem Dev.path_highPower (d : Dev) (c : Nat) : (d.highPower c).path = d.path := by
  unfold Dev.highPower
  dsimp only
  (repeat' split) <;> simp

@[simp] theorem Dev.path_setMbus (d : Dev) (b : Nat) (s : MBus) : (d.setMbus b s).path = d.path := by simp [Dev.setMbus]

@[simp] theorem Dev.path_muxSelect (d : Dev) (c : Nat) (ok : Bool) : (d.muxSelect c ok).1.path = d.path := by
  unfold Dev.muxSelect
  dsimp only
  (repeat' split) <;> simp

@[simp] theorem Dev.path_busFail (d : Dev) (c n : Nat) : (d.busFail c n).path = d.path := by simp [Dev.busFail]
@[simp] theorem path_i2cTransaction (bus : Nat) (ok muxOk : Bool) (d : Dev) : (i2cTransaction bus ok muxOk d).path = d.path := by
  unfold i2cTransaction
  (repeat' split) <;> simp
@[simp] theorem Dev.path_busClear (d : Dev) (c : Nat) (muxFail sdaLow : Bool) : (d.busClear c muxFail sdaLow).path = d.path := by
  simp [Dev.busClear]
@[simp] theorem path_i2cRetry (bus : Nat) (ok muxOk sdaLow : Bool) (d : Dev) :
    (i2cRetry bus ok muxOk sdaLow d).path = d.path := by
  unfold i2cRetry
  split <;> simp
@[simp] theorem path_telemetryRead (cage : Nat) (d : Dev) : (telemetryRead cage d).path = d.path := by simp [telemetryRead]

/-! #### Tables -/

@[simp] theorem Dev.path_putEntry (d : Dev) (tid i : Nat) (e : List Nat) : (d.putEntry tid i e).path = d.path := by
  simp [Dev.putEntry]
@[simp] theorem Dev.path_unblock (d : Dev) (p h : Nat) : (d.unblock p h).path = d.path := by simp [Dev.unblock]
@[simp] theorem Dev.path_writeSctx (d : Dev) (p h : Nat) (e : List Nat) : (d.writeSctx p h e).path = d.path := by
  simp [Dev.writeSctx]
@[simp] theorem Dev.path_writeEntry (d : Dev) (tid i : Nat) (e : List Nat) : (d.writeEntry tid i e).path = d.path := by
  simp [Dev.writeEntry]
@[simp] theorem Dev.path_removeStatic (d : Dev) (fid mac : Nat) (stage : Bool) :
    (d.removeStatic fid mac stage).path = d.path := by
  simp [Dev.removeStatic]

theorem Dev.path_placeStatic {d e : Dev} {key v : Nat} {stage : Bool} (h : d.placeStatic key v stage = some e) :
    e.path = d.path := by
  refine path_foldl_bind (fun d p e h => ?_) _ d e h
  split at h
  · exact Dev.path_stageStatic h
  · exact Dev.path_loadStatic h

@[simp] theorem Dev.path_refStatic (d : Dev) (key v : Nat) (stage : Bool) : (d.refStatic key v stage).path = d.path := by
  simp [Dev.refStatic]

theorem Dev.path_recStatic {d e : Dev} {w : List Nat} {del stage : Bool} (h : d.recStatic w del stage = some e) :
    e.path = d.path := by
  unfold Dev.recStatic at h
  dsimp only at h
  split at h
  · cases h
    simp
  · split at h
    · cases h
    · obtain ⟨x, hx, rfl⟩ := Option.map_eq_some_iff.mp h
      simpa using Dev.path_placeStatic hx

@[simp] theorem Dev.path_setId (d : Dev) (p s : Nat) (e : KEnt) : (d.setId p s e).path = d.path := by simp [Dev.setId]

theorem Dev.path_recId {d e : Dev} {p : Nat} {w : List Nat} {del stage : Bool} (h : d.recId p w del stage = some e) :
    e.path = d.path := by
  unfold Dev.recId at h
  dsimp only at h
  split at h
  · cases h
    simp
  · split at h
    · cases h
    · split at h
      · cases h
        simp
      · obtain ⟨s, -, rfl⟩ := Option.map_eq_some_iff.mp h
        simp

theorem Dev.path_recSeal {d e : Dev} {w : List Nat} {del stage : Bool} (h : d.recSeal w del stage = some e) :
    e.path = d.path := by
  unfold Dev.recSeal at h
  dsimp only at h
  split at h
  · cases h
    simp
  · split at h
    · cases h
    · split at h
      · exact Dev.path_stageCtx h
      · exact Dev.path_loadCtx h

@[simp] theorem Dev.path_commitIds (d : Dev) : (d.commitIds).path = d.path := by simp [Dev.commitIds]
@[simp] theorem Dev.path_unstageIds (d : Dev) : (d.unstageIds).path = d.path := by simp [Dev.unstageIds]
@[simp] theorem Dev.path_latch (d : Dev) (l : List Nat) : (d.latch l).path = d.path := by simp [Dev.latch]

theorem Dev.path_recKeyed {d e : Dev} {tid : Nat} {w : List Nat} {del stage : Bool} (h : d.recKeyed tid w del stage = some e) :
    e.path = d.path := by
  unfold Dev.recKeyed at h
  split at h
  · exact Dev.path_recStatic h
  · split at h
    · exact Dev.path_recSeal h
    · exact Dev.path_recId h

theorem Dev.path_keyedRecord {d e : Dev} {tid flags : Nat} {entries : List (List Nat)} {stage : Bool}
    (h : d.keyedRecord tid flags entries stage = some e) : e.path = d.path := by
  simpa using path_foldl_bind (fun _ _ _ hx => Dev.path_recKeyed hx) _ _ e h

theorem Dev.path_loadBulk {d e : Dev} {tid flags entryWords res first : Nat} {entries : List (List Nat)}
    (h : d.loadBulk tid flags entryWords res first entries = some e) : e.path = d.path := by
  unfold Dev.loadBulk at h
  split at h
  · cases h
  · split at h
    · exact Dev.path_keyedRecord h
    · refine path_foldl_bind (fun d x e hx => ?_) _ d e h
      split at hx <;> cases hx
      simp

/-! #### The audit -/

@[simp] theorem path_auditCheck (d : Dev) : (auditCheck d).path = d.path := by simp [auditCheck]
@[simp] theorem Dev.path_auditLog (d : Dev) (t : AuditTerm) : (d.auditLog t).path = d.path := by simp [Dev.auditLog]

@[simp] theorem Dev.path_discrepancy (d : Dev) (t : AuditTerm) : (d.discrepancy t).path = d.path := by
  unfold Dev.discrepancy
  dsimp only
  (repeat' split) <;> simp

@[simp] theorem Dev.path_agrees (d : Dev) (t : AuditTerm) : (d.agrees t).path = d.path := by simp [Dev.agrees]
@[simp] theorem path_auditCompareDone (d : Dev) : (auditCompareDone d).path = d.path := by simp [auditCompareDone]

/-! #### Power, clocks and resets -/

@[simp] theorem Dev.path_grant (d : Dev) (q : TokReq) : (d.grant q).path = d.path := by simp [Dev.grant]
@[simp] theorem Dev.path_passOver (d : Dev) (q : TokReq) : (d.passOver q).path = d.path := by simp [Dev.passOver]
@[simp] theorem Dev.path_endFall (d : Dev) (h : Nat) : (d.endFall h).path = d.path := by simp [Dev.endFall]
@[simp] theorem path_tokenGrant (d : Dev) : (tokenGrant d).path = d.path := by simp [tokenGrant]
@[simp] theorem path_rampSlotEnd (holder : Nat) (d : Dev) : (rampSlotEnd holder d).path = d.path := by
  unfold rampSlotEnd
  split <;> simp
@[simp] theorem path_domainGood (h : Nat) (d : Dev) : (domainGood h d).path = d.path := by simp [domainGood]
@[simp] theorem path_avsApplied (readVout : Nat) (d : Dev) : (avsApplied readVout d).path = d.path := by simp [avsApplied]
@[simp] theorem path_refclkLoss (d : Dev) : (refclkLoss d).path = d.path := by simp [refclkLoss]
@[simp] theorem path_srefReturn (k : Nat) (d : Dev) : (srefReturn k d).path = d.path := by simp [srefReturn]
@[simp] theorem Dev.path_timeZero (d : Dev) (sel mode : Nat) : (d.timeZero sel mode).path = d.path := by simp [Dev.timeZero]
@[simp] theorem path_pwrGoodRise (sel mode : Nat) (d : Dev) : (pwrGoodRise sel mode d).path = d.path := by simp [pwrGoodRise]
@[simp] theorem path_porRelease (sel mode : Nat) (d : Dev) : (porRelease sel mode d).path = d.path := by simp [porRelease]
@[simp] theorem path_pllLockDone (d : Dev) : (pllLockDone d).path = d.path := by simp [pllLockDone]

/-! #### Time bases and pins -/

@[simp] theorem Dev.path_setPairD (d : Dev) (q : Nat) (v : Int) : (d.setPairD q v).path = d.path := by simp [Dev.setPairD]
@[simp] theorem Dev.path_pairSwitch (d : Dev) (q : Nat) : (d.pairSwitch q).path = d.path := by simp [Dev.pairSwitch]
@[simp] theorem Dev.path_pairEvent (d : Dev) (t old new : Nat) : (d.pairEvent t old new).path = d.path := by
  unfold Dev.pairEvent
  split <;> simp
@[simp] theorem Dev.path_markStarts (d : Dev) : (d.markStarts).path = d.path := by simp [Dev.markStarts]
@[simp] theorem Dev.path_enterState (d : Dev) (t new : Nat) : (d.enterState t new).path = d.path := by simp [Dev.enterState]
@[simp] theorem Dev.path_tioStep (d : Dev) (t p0 p1 : Nat) : (d.tioStep t p0 p1).path = d.path := by simp [Dev.tioStep]

/-- The equation of `stepTb` is read off from its definition at the level of functions: checked below a projection, the kernel
would evaluate what the function matches on. -/
@[simp] theorem Dev.path_stepTb (d : Dev) (t : Nat) (delta : Int) : (d.stepTb t delta).path = d.path := by
  have hdef : @Dev.stepTb = @Dev.stepTb := rfl
  conv_rhs at hdef => delta Dev.stepTb
  have h := congrFun (congrFun (congrFun hdef d) t) delta
  dsimp only at h
  rw [h]
  generalize hx : Dev.cnt _ _ _ = e
  have he : e.path = d.path := by simp [← hx]
  split <;> simp [he]

@[simp] theorem Dev.path_servoUpdate (d : Dev) (t : Nat) (off tclk : Int) : (d.servoUpdate t off tclk).path = d.path := by
  simp [Dev.servoUpdate]
@[simp] theorem Dev.path_advanceState (d : Dev) (t : Nat) (off : Int) : (d.advanceState t off).path = d.path := by
  simp [Dev.advanceState]
@[simp] theorem Dev.path_onSample (d : Dev) (t : Nat) (off tclk : Int) : (d.onSample t off tclk).path = d.path := by
  simp [Dev.onSample]
@[simp] theorem path_offsetSample (t : Nat) (off tclk : Int) (d : Dev) : (offsetSample t off tclk d).path = d.path := by
  simp [offsetSample]
@[simp] theorem path_sourceLoss (t : Nat) (d : Dev) : (sourceLoss t d).path = d.path := by simp [sourceLoss]
@[simp] theorem path_holdoverExpiry (t : Nat) (d : Dev) : (holdoverExpiry t d).path = d.path := by simp [holdoverExpiry]
@[simp] theorem path_pairRevert (q : Nat) (d : Dev) : (pairRevert q d).path = d.path := by simp [pairRevert]
@[simp] theorem path_pairSlew (q : Nat) (d : Dev) : (pairSlew q d).path = d.path := by simp [pairSlew]

@[simp] theorem path_tioEdge (i : Nat) (d : Dev) : (tioEdge i d).path = d.path := by
  unfold tioEdge
  dsimp only
  split
  · split <;> simp
  · rfl

@[simp] theorem Dev.path_tioLate (d : Dev) : (d.tioLate).path = d.path := by simp [Dev.tioLate]
@[simp] theorem path_tioCapture (i : Nat) (rising : Bool) (d : Dev) : (tioCapture i rising d).path = d.path := by
  simp [tioCapture]

@[simp] theorem path_tioCapRead (master i : Nat) (d : Dev) : (tioCapRead master i d).path = d.path := by
  unfold tioCapRead
  dsimp only
  (repeat' split) <;> simp

@[simp] theorem path_ppsEdge (rising : Bool) (tclk : Int) (d : Dev) : (ppsEdge rising tclk d).path = d.path := by simp [ppsEdge]
@[simp] theorem path_tclkLost (d : Dev) : (tclkLost d).path = d.path := by simp [tclkLost]
@[simp] theorem path_tclkReturn (d : Dev) : (tclkReturn d).path = d.path := by simp [tclkReturn]
@[simp] theorem path_tbTimeRead (master t : Nat) (pres : Bool) (d : Dev) : (tbTimeRead master t pres d).path = d.path := by
  simp [tbTimeRead]
@[simp] theorem Dev.path_pairsCheck (d : Dev) : (d.pairsCheck).path = d.path := by simp [Dev.pairsCheck]

/-! #### Effects of register writes -/

@[simp] theorem Dev.path_groupPower (d : Dev) (g : Nat) : (d.groupPower g).path = d.path := by simp [Dev.groupPower]
@[simp] theorem Dev.path_showEnables (d : Dev) : (d.showEnables).path = d.path := by simp [Dev.showEnables]

/-! #### Supervisors and monitoring -/

@[simp] theorem Dev.path_peersFollow (d : Dev) : (d.peersFollow).path = d.path := by simp [Dev.peersFollow]
@[simp] theorem Dev.path_setRole (d : Dev) (s r : Nat) : (d.setRole s r).path = d.path := by simp [Dev.setRole]
@[simp] theorem Dev.path_heartbeat (d : Dev) (s : Nat) : (d.heartbeat s).path = d.path := by simp [Dev.heartbeat]
@[simp] theorem path_heartbeatWrite (master sup value : Nat) (d : Dev) : (heartbeatWrite master sup value d).path = d.path := by
  simp [heartbeatWrite]
@[simp] theorem Dev.path_beginTakeover (d : Dev) (cause : Nat) : (d.beginTakeover cause).path = d.path := by
  unfold Dev.beginTakeover
  split <;> simp
@[simp] theorem Dev.path_abandonTakeover (d : Dev) (s : Nat) : (d.abandonTakeover s).path = d.path := by
  unfold Dev.abandonTakeover
  split <;> simp
@[simp] theorem Dev.path_failSup (d : Dev) (s cause : Nat) : (d.failSup s cause).path = d.path := by simp [Dev.failSup]
@[simp] theorem path_heartbeatMiss (s : Nat) (d : Dev) : (heartbeatMiss s d).path = d.path := by simp [heartbeatMiss]
@[simp] theorem Dev.path_finishTakeover (d : Dev) (t : Takeover) : (d.finishTakeover t).path = d.path := by
  simp [Dev.finishTakeover]
@[simp] theorem Dev.path_checkpoint (d : Dev) : (d.checkpoint).path = d.path := by simp [Dev.checkpoint]
@[simp] theorem path_checkpointWrite (ok : Bool) (d : Dev) : (checkpointWrite ok d).path = d.path := by simp [checkpointWrite]
@[simp] theorem Dev.path_loadCkpt (d : Dev) (b : Nat) (c : Ckpt) : (d.loadCkpt b c).path = d.path := by simp [Dev.loadCkpt]
@[simp] theorem path_checkpointLoad (slot : Nat) (d : Dev) : (checkpointLoad slot d).path = d.path := by
  unfold checkpointLoad
  split <;> simp
@[simp] theorem path_readyLapse (d : Dev) : (readyLapse d).path = d.path := by
  unfold readyLapse
  split <;> simp
@[simp] theorem path_supervisorRestart (s : Nat) (copyOk : Bool) (d : Dev) : (supervisorRestart s copyOk d).path = d.path := by
  simp [supervisorRestart]
@[simp] theorem path_resyncDone (d : Dev) : (resyncDone d).path = d.path := by
  unfold resyncDone
  split <;> simp

@[simp] theorem Dev.path_forcedSwitch (d : Dev) : (d.forcedSwitch).path = d.path := by
  unfold Dev.forcedSwitch
  dsimp only
  (repeat' split) <;> simp

@[simp] theorem path_switchWrite (master : Nat) (d : Dev) : (switchWrite master d).path = d.path := by simp [switchWrite]
@[simp] theorem path_watchdogExpiry (d : Dev) : (watchdogExpiry d).path = d.path := by simp [watchdogExpiry]
@[simp] theorem Dev.path_warnSet (d : Dev) (bit sensor : Nat) (v : Int) : (d.warnSet bit sensor v).path = d.path := by
  simp [Dev.warnSet]
@[simp] theorem Dev.path_warnFollow (d : Dev) (f : FRef) (bit warn : Nat) (l : List (Nat × Int)) :
    (d.warnFollow f bit warn l).path = d.path := by
  unfold Dev.warnFollow
  split <;> simp

@[simp] theorem Dev.path_thermStatus (d : Dev) : (d.thermStatus).path = d.path := by
  unfold Dev.thermStatus
  dsimp only
  (repeat' split) <;> simp

@[simp] theorem Dev.path_hbmStatus (d : Dev) : (d.hbmStatus).path = d.path := by simp [Dev.hbmStatus]
@[simp] theorem Dev.path_dieSample (d : Dev) (i : Nat) (r : Option Int) : (d.dieSample i r).path = d.path := by
  unfold Dev.dieSample
  split <;> simp

@[simp] theorem Dev.path_hbmSample (d : Dev) (i : Nat) (r : Option Int) : (d.hbmSample i r).path = d.path := by
  cases r with
  | none => simp [Dev.hbmSample]
  | some v => simp [Dev.hbmSample]

@[simp] theorem Dev.path_vmonSample (d : Dev) (i : Nat) (r : Option Int) : (d.vmonSample i r).path = d.path := by
  unfold Dev.vmonSample
  split <;> simp
@[simp] theorem path_sensorSample (sensor : Nat) (r : Option Int) (d : Dev) : (sensorSample sensor r d).path = d.path := by
  simp [sensorSample]
@[simp] theorem path_thermalShutdown (d : Dev) : (thermalShutdown d).path = d.path := by
  unfold thermalShutdown
  split <;> simp
@[simp] theorem path_vmonOut (i : Nat) (d : Dev) : (vmonOut i d).path = d.path := by simp [vmonOut]
@[simp] theorem Dev.path_pmbusFail (d : Dev) (rail : Nat) : (d.pmbusFail rail).path = d.path := by simp [Dev.pmbusFail]

@[simp] theorem path_railRead (rail : Nat) (r : Option Nat) (d : Dev) : (railRead rail r d).path = d.path := by
  cases r with
  | none => simp [railRead]
  | some c => simp [railRead]

@[simp] theorem path_regulatorAlert (status : List (Nat × Nat)) (d : Dev) : (regulatorAlert status d).path = d.path := by
  simp [regulatorAlert]
@[simp] theorem Dev.path_pmcAdd (d : Dev) (s k n : Nat) : (d.pmcAdd s k n).path = d.path := by simp [Dev.pmcAdd]
@[simp] theorem path_pmcEvent (sup event count : Nat) (d : Dev) : (pmcEvent sup event count d).path = d.path := by simp [pmcEvent]
@[simp] theorem path_pmcClear (master sup k : Nat) (d : Dev) : (pmcClear master sup k d).path = d.path := by simp [pmcClear]
@[simp] theorem path_pmcRead (master sup k : Nat) (d : Dev) : (pmcRead master sup k d).path = d.path := by simp [pmcRead]

/-! #### The host bus -/

@[simp] theorem Dev.path_setMbBytes (d : Dev) (m : Nat) (b : List Byte) : (d.setMbBytes m b).path = d.path := by
  simp [Dev.setMbBytes]
@[simp] theorem Dev.path_postMb (d : Dev) (m master : Nat) : (d.postMb m master).path = d.path := by simp [Dev.postMb]
@[simp] theorem Dev.path_writeStage (d : Dev) (m : Nat) (ws : List (Nat × Byte)) : (d.writeStage m ws).path = d.path := by
  simp [Dev.writeStage]
@[simp] theorem path_mbSubmit (master mb : Nat) (writes : List (Nat × Byte)) (d : Dev) :
    (mbSubmit master mb writes d).path = d.path := by
  simp [mbSubmit]
@[simp] theorem Dev.path_fullError (d : Dev) (m a v : Nat) : (d.fullError m a v).path = d.path := by simp [Dev.fullError]
@[simp] theorem path_mbPost (master mb : Nat) (d : Dev) : (mbPost master mb d).path = d.path := by simp [mbPost]
@[simp] theorem Dev.path_setChan (d : Dev) (ch : Nat) (c : Chan) : (d.setChan ch c).path = d.path := by simp [Dev.setChan]

@[simp] theorem Dev.path_releaseMb (d : Dev) (m : Nat) : (d.releaseMb m).path = d.path := by
  unfold Dev.releaseMb
  extract_lets e
  have he : e.path = d.path := by simp [e]
  clear_value e
  split
  · simp [he]
  · exact he

@[simp] theorem path_mbRelease (master mb : Nat) (d : Dev) : (mbRelease master mb d).path = d.path := by simp [mbRelease]
@[simp] theorem Dev.path_setChallenge (d : Dev) (b : List Byte) : (d.setChallenge b).path = d.path := by simp [Dev.setChallenge]
@[simp] theorem path_challengeRead (master word : Nat) (d : Dev) : (challengeRead master word d).path = d.path := by
  simp [challengeRead]
@[simp] theorem Dev.path_checkDebug (d : Dev) : (d.checkDebug).path = d.path := by simp [Dev.checkDebug]
@[simp] theorem path_debugCheck (master : Nat) (d : Dev) : (debugCheck master d).path = d.path := by simp [debugCheck]
@[simp] theorem Dev.path_lockDebug (d : Dev) : (d.lockDebug).path = d.path := by simp [Dev.lockDebug]
@[simp] theorem path_debugLock (master : Nat) (d : Dev) : (debugLock master d).path = d.path := by simp [debugLock]
@[simp] theorem path_blockExpiry (d : Dev) : (blockExpiry d).path = d.path := by
  unfold blockExpiry
  split <;> simp
@[simp] theorem Dev.path_becCmd (d : Dev) (k v : Nat) : (d.becCmd k v).path = d.path := by simp [Dev.becCmd]
@[simp] theorem Dev.path_becWrite (d : Dev) (master k v : Nat) : (d.becWrite master k v).path = d.path := by simp [Dev.becWrite]
@[simp] theorem path_becRead (master k : Nat) (d : Dev) : (becRead master k d).path = d.path := by simp [becRead]
@[simp] theorem Dev.path_reamCmd (d : Dev) (w v : Nat) : (d.reamCmd w v).path = d.path := by
  unfold Dev.reamCmd
  split <;> simp
@[simp] theorem Dev.path_reamWrite (d : Dev) (master w v : Nat) : (d.reamWrite master w v).path = d.path := by
  simp [Dev.reamWrite]
@[simp] theorem path_reamRead (master w : Nat) (d : Dev) : (reamRead master w d).path = d.path := by simp [reamRead]
@[simp] theorem path_amdSeqRead (master : Nat) (d : Dev) : (amdSeqRead master d).path = d.path := by simp [amdSeqRead]

/-! #### Register writes -/

@[simp] theorem Dev.path_commandBits (d : Dev) (m a v : Nat) : (d.commandBits m a v).path = d.path := by
  unfold Dev.commandBits
  split
  · rfl
  · dsimp only
    split <;> simp

@[simp] theorem Dev.path_hwSetActs (d : Dev) (a : Nat) (old : Word) (hw : Word) : (d.hwSetActs a old hw).path = d.path := by
  simp [Dev.hwSetActs]
@[simp] theorem Dev.path_auditReport (d : Dev) (a ref found : Nat) (repaired : Bool) :
    (d.auditReport a ref found repaired).path = d.path := by
  simp [Dev.auditReport]
@[simp] theorem Dev.path_auditTab (d : Dev) (k : Nat) (dflt : Word) : (d.auditTab k dflt).path = d.path := by simp [Dev.auditTab]

/-! #### The live switch -/

@[simp] theorem Dev.path_readActs (d : Dev) (m a : Nat) : (d.readActs m a).path = d.path := by
  unfold Dev.readActs
  split
  · simp
  · dsimp only
    split <;> simp

/-! #### Requests -/

@[simp] theorem Dev.path_takeRequest (d : Dev) (ch : Nat) : (d.takeRequest ch).path = d.path := by
  unfold Dev.takeRequest
  split <;> simp
@[simp] theorem Dev.path_postReply (d : Dev) (ch m : Nat) (msg : List Byte) : (d.postReply ch m msg).path = d.path := by
  unfold Dev.postReply
  split <;> simp
@[simp] theorem Dev.path_openExchange (d : Dev) (ch : Nat) (q : Request) : (d.openExchange ch q).path = d.path := by
  simp [Dev.openExchange]
@[simp] theorem Dev.path_flushReplies (d : Dev) : (d.flushReplies).path = d.path := by simp [Dev.flushReplies]
@[simp] theorem Dev.path_abandonExchange (d : Dev) (ch : Nat) : (d.abandonExchange ch).path = d.path := by
  simp [Dev.abandonExchange]

@[simp] theorem Dev.path_infoBytes (d : Dev) : d.infoBytes.2.path = d.path := by
  unfold Dev.infoBytes
  dsimp only
  split <;> simp

@[simp] theorem Dev.path_readAll (d : Dev) (m : Nat) (as_ : List Nat) : (d.readAll m as_).2.path = d.path :=
  foldl_keeps (g := fun x : List Nat × Dev => x.2.path) (fun x a => x.2.path_readActs m a) as_ ([], d)
@[simp] theorem path_nonceExpiry (chan : Nat) (d : Dev) : (nonceExpiry chan d).path = d.path := by
  unfold nonceExpiry
  split <;> simp
@[simp] theorem Dev.path_blowFuses (d : Dev) (b : List Byte) : (d.blowFuses b).path = d.path := by simp [Dev.blowFuses]
@[simp] theorem Dev.path_dropSupFrame (d : Dev) (i : Nat) (f : SupFrame) : (d.dropSupFrame i f).path = d.path := by
  simp [Dev.dropSupFrame]
@[simp] theorem Dev.path_hostUp (d : Dev) : (d.hostUp).path = d.path := by simp [Dev.hostUp]
@[simp] theorem path_pcieDown (d : Dev) : (pcieDown d).path = d.path := by simp [pcieDown]
@[simp] theorem path_pcieUp (d : Dev) : (pcieUp d).path = d.path := by simp [pcieUp]

/-! #### Start-up -/

@[simp] theorem Dev.path_setResult (d : Dev) (nv code : Nat) : (d.setResult nv code).path = d.path := by simp [Dev.setResult]
@[simp] theorem Dev.path_shutdownRecord (d : Dev) : (d.shutdownRecord).path = d.path := by simp [Dev.shutdownRecord]
@[simp] theorem Dev.path_startSups (d : Dev) : (d.startSups).path = d.path := by simp [Dev.startSups]
@[simp] theorem Dev.path_powerHbm (d : Dev) : (d.powerHbm).path = d.path := by simp [Dev.powerHbm]
@[simp] theorem Dev.path_enterRecovery (d : Dev) : (d.enterRecovery).path = d.path := by simp [Dev.enterRecovery]
@[simp] theorem Dev.path_showJournal (d : Dev) : (d.showJournal).path = d.path := by simp [Dev.showJournal]
@[simp] theorem path_nvmDiscovery (d : Dev) : (nvmDiscovery d).path = d.path := by simp [nvmDiscovery]
@[simp] theorem Dev.path_resetReg (d : Dev) (a : Nat) : (d.resetReg a).path = d.path := by
  unfold Dev.resetReg
  split <;> simp
@[simp] theorem Dev.path_restartSup (d : Dev) (s : Nat) : (d.restartSup s).path = d.path := by simp [Dev.restartSup]
@[simp] theorem Dev.path_configReset (d : Dev) : (d.configReset).path = d.path := by simp [Dev.configReset]
@[simp] theorem Dev.path_failCandidate (d : Dev) (nv code : Nat) : (d.failCandidate nv code).path = d.path := by
  simp [Dev.failCandidate]

@[simp] theorem path_headerCheck (d : Dev) : (headerCheck d).path = d.path := by
  unfold headerCheck
  split
  · split <;> simp
  · rfl

@[simp] theorem Dev.path_setCand (d : Dev) (l : Load) : (d.setCand l).path = d.path := by simp [Dev.setCand]
@[simp] theorem Dev.path_finishLoad (d : Dev) (l : Load) : (d.finishLoad l).path = d.path := by simp [Dev.finishLoad]
@[simp] theorem Dev.path_nextSection (d : Dev) (l : Load) : (d.nextSection l).path = d.path := by simp [Dev.nextSection]
@[simp] theorem path_firmwareLoad (d : Dev) : (firmwareLoad d).path = d.path := by
  unfold firmwareLoad
  split <;> simp
@[simp] theorem path_sectionCheck (d : Dev) : (sectionCheck d).path = d.path := by
  unfold sectionCheck
  split <;> simp
@[simp] theorem Dev.path_applyKey (d : Dev) (slot kind res : Nat) (nonce key tag : List Byte) :
    (d.applyKey slot kind res nonce key tag).path = d.path := by
  simp [Dev.applyKey]
@[simp] theorem Dev.path_writeWords (d : Dev) (p : Nat) (halves : List Nat) (first : Nat) (words : List Nat) :
    (d.writeWords p halves first words).path = d.path := by
  simp [Dev.writeWords]
@[simp] theorem Dev.path_loadStore (d : Dev) (pipes first : Nat) (words : List Nat) :
    (d.loadStore pipes first words).path = d.path := by
  simp [Dev.loadStore]
@[simp] theorem Dev.path_stackUp (d : Dev) (s : Nat) : (d.stackUp s).path = d.path := by simp [Dev.stackUp]
@[simp] theorem Dev.path_releaseTime (d : Dev) : (d.releaseTime).path = d.path := by simp [Dev.releaseTime]
@[simp] theorem Dev.path_releaseStores (d : Dev) : (d.releaseStores).path = d.path := by simp [Dev.releaseStores]
@[simp] theorem Dev.path_releaseGates (d : Dev) : (d.releaseGates).path = d.path := by simp [Dev.releaseGates]
@[simp] theorem Dev.path_releasePower (d : Dev) : (d.releasePower).path = d.path := by simp [Dev.releasePower]
@[simp] theorem path_fuseAdvance (d : Dev) : (fuseAdvance d).path = d.path := by
  unfold fuseAdvance
  split <;> simp
@[simp] theorem path_supMachineCheck (s : Nat) (d : Dev) : (supMachineCheck s d).path = d.path := by simp [supMachineCheck]

/-! #### Amendments -/

@[simp] theorem Dev.path_rejectAmd (d : Dev) (code origin seq : Nat) : (d.rejectAmd code origin seq).path = d.path := by
  simp [Dev.rejectAmd]
@[simp] theorem Dev.path_appendEntry (d : Dev) (seq : Nat) (bytes : List Byte) : (d.appendEntry seq bytes).path = d.path := by
  simp [Dev.appendEntry]
@[simp] theorem Dev.path_markEntry (d : Dev) (nv seq : Nat) (f : JEntry → JEntry) : (d.markEntry nv seq f).path = d.path := by
  simp [Dev.markEntry]
@[simp] theorem Dev.path_dropAmd (d : Dev) (seq : Nat) : (d.dropAmd seq).path = d.path := by simp [Dev.dropAmd]
@[simp] theorem Dev.path_setPhase (d : Dev) (f : Amd → Bool) (p : AmdPhase) : (d.setPhase f p).path = d.path := by
  simp [Dev.setPhase]
@[simp] theorem Dev.path_showDegraded (d : Dev) (good : List Nat) : (d.showDegraded good).path = d.path := by
  simp [Dev.showDegraded]

@[simp] theorem Dev.path_overlay (d : Dev) (r : CfgRec) : (d.overlay r).path = d.path := by
  cases r with
  | reg a m v =>
    unfold Dev.overlay
    dsimp only
    split <;> simp
  | bulk => simp [Dev.overlay]
  | key => rfl
  | store => rfl

@[simp] theorem Dev.path_next (d : Dev) : (d.next).path = d.path := by simp [Dev.next]
@[simp] theorem Dev.path_addShadow (d : Dev) (r : CfgRec) : (d.addShadow r).path = d.path := by simp [Dev.addShadow]
@[simp] theorem Dev.path_copyHalf (d : Dev) (p : Nat) : (d.copyHalf p).path = d.path := by simp [Dev.copyHalf]
@[simp] theorem Dev.path_stageWords (d : Dev) (p first : Nat) (words : List Nat) :
    (d.stageWords p first words).path = d.path := by
  simp [Dev.stageWords]

theorem Dev.path_stageReg {d e : Dev} {a m v : Nat} (h : d.stageReg a m v = some e) : e.path = d.path := by
  unfold Dev.stageReg at h
  dsimp only at h
  split at h
  · cases h
  · split at h
    · cases h
    · split at h <;> cases h
      simp

theorem Dev.path_stageKeyed {d e : Dev} {tid flags : Nat} {es : List (List Nat)} (h : d.stageKeyed tid flags es = some e) :
    e.path = d.path := by
  obtain ⟨x, hx, rfl⟩ := Option.map_eq_some_iff.mp h
  simpa using Dev.path_keyedRecord hx

theorem Dev.path_stageBulk {d e : Dev} {tid flags entryWords res first : Nat} {es : List (List Nat)}
    (h : d.stageBulk tid flags entryWords res first es = some e) : e.path = d.path := by
  unfold Dev.stageBulk at h
  dsimp only at h
  split at h
  · cases h
  · split at h
    · exact Dev.path_stageKeyed h
    · split at h <;> cases h
      rfl

@[simp] theorem Dev.path_stageStore (d : Dev) (pipes first : Nat) (words : List Nat) :
    (d.stageStore pipes first words).path = d.path := by
  simp [Dev.stageStore]

theorem Dev.path_stageRec {d e : Dev} {r : CfgRec} (h : d.stageRec r = some e) : e.path = d.path := by
  obtain ⟨x, hx, rfl⟩ := Option.map_eq_some_iff.mp h
  rw [Dev.path_addShadow]
  cases r with
  | reg => exact Dev.path_stageReg hx
  | bulk => exact Dev.path_stageBulk hx
  | key =>
    dsimp only at hx
    split at hx <;> cases hx
    rfl
  | store =>
    dsimp only at hx
    split at hx <;> cases hx
    simp

theorem Dev.path_stageAll {d e : Dev} {rs : List CfgRec} (h : d.stageAll rs = some e) : e.path = d.path :=
  path_foldl_bind (fun _ _ _ hx => Dev.path_stageRec hx) rs d e h
@[simp] theorem Dev.path_abandonAmd (d : Dev) (seq : Nat) : (d.abandonAmd seq).path = d.path := by simp [Dev.abandonAmd]

@[simp] theorem path_amendmentStage (d : Dev) : (amendmentStage d).path = d.path := by
  unfold amendmentStage
  split
  · split
    · rfl
    · split
      · simp
      · rename_i h
        simpa using Dev.path_stageAll h
  · rfl

@[simp] theorem path_stagingComplete (d : Dev) : (stagingComplete d).path = d.path := by
  unfold stagingComplete
  split <;> simp
@[simp] theorem Dev.path_policerFull (d : Dev) (ix : List Nat) : (d.policerFull ix).path = d.path := by simp [Dev.policerFull]

@[simp] theorem Dev.path_shaperChanged (d : Dev) (a : Nat) (old : Word) : (d.shaperChanged a old).path = d.path := by
  unfold Dev.shaperChanged
  dsimp only
  split
  · rfl
  · split <;> simp

@[simp] theorem Dev.path_commitReg (d : Dev) (r : CfgRec) : (d.commitReg r).path = d.path := by
  cases r with
  | reg a m v =>
    unfold Dev.commitReg
    dsimp only
    split
    · rfl
    · split <;> simp
  | bulk => rfl
  | key => rfl
  | store => rfl

@[simp] theorem Dev.path_commitKey (d : Dev) (r : CfgRec) : (d.commitKey r).path = d.path := by
  unfold Dev.commitKey
  split <;> simp
@[simp] theorem Dev.path_flipHalf (d : Dev) (p : Nat) : (d.flipHalf p).path = d.path := by simp [Dev.flipHalf]
@[simp] theorem Dev.path_refNext (d : Dev) : (d.refNext).path = d.path := by simp [Dev.refNext]
@[simp] theorem Dev.path_cleanUp (d : Dev) : (d.cleanUp).path = d.path := by simp [Dev.cleanUp]
@[simp] theorem path_cleanupDone (d : Dev) : (cleanupDone d).path = d.path := by simp [cleanupDone]
@[simp] theorem Dev.path_skipEntry (d : Dev) (seq cause mask : Nat) : (d.skipEntry seq cause mask).path = d.path := by
  simp [Dev.skipEntry]
@[simp] theorem Dev.path_eraseNvm (d : Dev) (nv : Nat) : (d.eraseNvm nv).path = d.path := by simp [Dev.eraseNvm]
@[simp] theorem Dev.path_discardShadow (d : Dev) : (d.discardShadow).path = d.path := by simp [Dev.discardShadow]
@[simp] theorem Dev.path_dropOpen (d : Dev) : (d.dropOpen).path = d.path := by simp [Dev.dropOpen]
@[simp] theorem path_takeoverComplete (d : Dev) : (takeoverComplete d).path = d.path := by
  unfold takeoverComplete
  split <;> simp

/-! ### Numbers that stay distinct and below the next -/

/-- The numbers of the frames and of the copies are distinct and below the next to be given. -/
def PathSt.fresh (p : PathSt) : Prop :=
  ((p.frames.map fun f => f.id).Nodup ∧ ∀ f ∈ p.frames, f.id < p.nextFrame) ∧
    (p.copies.map fun c => c.id).Nodup ∧ ∀ c ∈ p.copies, c.id < p.nextCopy

theorem Dev.fresh_iff (d : Dev) : d.fresh ↔ d.path.fresh := and_assoc.symm

/-- Only the numbers count. -/
theorem PathSt.fresh_congr {p q : PathSt} (hf : q.frames.map (·.id) = p.frames.map (·.id)) (hn : q.nextFrame = p.nextFrame)
    (hc : q.copies.map (·.id) = p.copies.map (·.id)) (hm : q.nextCopy = p.nextCopy) : q.fresh ↔ p.fresh := by
  have hlt : ∀ (l : List Frame) (n : Nat), (∀ f ∈ l, f.id < n) ↔ ∀ i ∈ l.map (·.id), i < n := fun l n => by simp
  have hltc : ∀ (l : List Copy) (n : Nat), (∀ c ∈ l, c.id < n) ↔ ∀ i ∈ l.map (·.id), i < n := fun l n => by simp
  simp only [PathSt.fresh, hlt, hltc, hf, hn, hc, hm]

@[simp] theorem PathSt.fresh_ite (c : Prop) [Decidable c] (p q : PathSt) :
    (if c then p else q).fresh ↔ if c then p.fresh else q.fresh := by
  split <;> rfl

theorem fresh_foldl {β : Type} {f : Dev → β → Dev} (hf : ∀ d x, d.path.fresh → (f d x).path.fresh) (l : List β) {d : Dev}
    (h : d.path.fresh) : (l.foldl f d).path.fresh := by
  induction l generalizing d with
  | nil => exact h
  | cons x l ih => exact ih (hf d x h)

@[simp] theorem fresh_foldl_iff {β : Type} {f : Dev → β → Dev} (hf : ∀ d x, (f d x).path.fresh ↔ d.path.fresh) (l : List β)
    (d : Dev) : (l.foldl f d).path.fresh ↔ d.path.fresh := by
  induction l generalizing d with
  | nil => rfl
  | cons x l ih => rw [List.foldl_cons, ih, hf]

/-- Where each frame is replaced by one of the same number, the numbers are as they were. -/
theorem PathSt.fresh_mapFrames {p : PathSt} {g : Frame → Frame} (hg : ∀ f, (g f).id = f.id) :
    { p with frames := p.frames.map g }.fresh ↔ p.fresh :=
  PathSt.fresh_congr (by simp [hg]) rfl rfl rfl

theorem PathSt.fresh_mapCopies {p : PathSt} {g : Copy → Copy} (hg : ∀ c, (g c).id = c.id) :
    { p with copies := p.copies.map g }.fresh ↔ p.fresh :=
  PathSt.fresh_congr rfl rfl (by simp [hg]) rfl

theorem PathSt.fresh.addFrame {p : PathSt} (h : p.fresh) {f : Frame} (hf : f.id = p.nextFrame) :
    { p with frames := p.frames ++ [f], nextFrame := p.nextFrame + 1 }.fresh := by
  obtain ⟨⟨hnodup, hlt⟩, hcopies⟩ := h
  refine ⟨⟨?_, fun g hg => ?_⟩, hcopies⟩
  · rw [List.map_append, List.nodup_append]
    refine ⟨hnodup, by simp, fun a ha b hb => ?_⟩
    obtain ⟨g, hg, rfl⟩ := List.mem_map.mp ha
    have := hlt g hg
    simp only [List.map_cons, List.map_nil, List.mem_singleton] at hb
    omega
  · rcases List.mem_append.mp hg with hg | hg
    · exact Nat.lt_succ_of_lt (hlt g hg)
    · rw [List.mem_singleton.mp hg, hf]
      exact Nat.lt_succ_self _

theorem PathSt.fresh.addCopies {p : PathSt} (h : p.fresh) {cs : List Copy}
    (hcs : cs.map (·.id) = List.range' p.nextCopy cs.length) :
    { p with copies := p.copies ++ cs, nextCopy := p.nextCopy + cs.length }.fresh := by
  obtain ⟨hframes, hnodup, hlt⟩ := h
  have hnew : ∀ c ∈ cs, p.nextCopy ≤ c.id ∧ c.id < p.nextCopy + cs.length := fun c hc => by
    have hmem := List.mem_map_of_mem (f := (·.id)) hc
    rwa [hcs, List.mem_range'_1] at hmem
  refine ⟨hframes, ?_, fun c hc => ?_⟩
  · rw [List.map_append, List.nodup_append]
    refine ⟨hnodup, hcs ▸ List.nodup_range', fun a ha b hb => ?_⟩
    obtain ⟨c, hc, rfl⟩ := List.mem_map.mp ha
    obtain ⟨e, he, rfl⟩ := List.mem_map.mp hb
    exact Nat.ne_of_lt (Nat.lt_of_lt_of_le (hlt c hc) (hnew e he).1)
  · rcases List.mem_append.mp hc with hc | hc
    · exact Nat.lt_add_right _ (hlt c hc)
    · exact (hnew c hc).2

theorem PathSt.fresh.filterFrames {p : PathSt} (h : p.fresh) (k : Frame → Bool) :
    { p with frames := p.frames.filter k }.fresh := by
  obtain ⟨⟨hnodup, hlt⟩, hcopies⟩ := h
  exact ⟨⟨hnodup.sublist (List.filter_sublist.map _), fun f hf => hlt f (List.mem_filter.mp hf).1⟩, hcopies⟩

theorem PathSt.fresh.filterCopies {p : PathSt} (h : p.fresh) (k : Copy → Bool) :
    { p with copies := p.copies.filter k }.fresh := by
  obtain ⟨hframes, hnodup, hlt⟩ := h
  exact ⟨hframes, hnodup.sublist (List.filter_sublist.map _), fun c hc => hlt c (List.mem_filter.mp hc).1⟩

/-- The places in the orders of readiness, of step 9, of frame end and of the queues are not numbers of frames or copies. -/
@[simp] theorem PathSt.fresh_mk (p : PathSt) (a b c q : Nat) :
    PathSt.fresh ⟨p.frames, p.copies, p.nextFrame, p.nextCopy, a, b, c, q⟩ ↔ p.fresh := Iff.rfl

theorem fresh_foldl_fst {β γ : Type} {f : Dev × γ → β → Dev × γ} (hf : ∀ a x, a.1.path.fresh → (f a x).1.path.fresh)
    (l : List β) {a : Dev × γ} (h : a.1.path.fresh) : (l.foldl f a).1.path.fresh := by
  induction l generalizing a with
  | nil => exact h
  | cons x l ih => exact ih (hf a x h)

/-! #### Frames, copies and cells -/

@[simp] theorem Dev.fresh_setFrame (d : Dev) (f : Frame) : (d.setFrame f).path.fresh ↔ d.path.fresh :=
  PathSt.fresh_mapFrames fun g => by split <;> simp [*]
@[simp] theorem Dev.fresh_delFrame {d : Dev} (h : d.path.fresh) (i : Nat) : (d.delFrame i).path.fresh := h.filterFrames _
@[simp] theorem Dev.fresh_setCopy (d : Dev) (c : Copy) : (d.setCopy c).path.fresh ↔ d.path.fresh :=
  PathSt.fresh_mapCopies fun g => by split <;> simp [*]
@[simp] theorem Dev.fresh_delCopy {d : Dev} (h : d.path.fresh) (i : Nat) : (d.delCopy i).path.fresh := h.filterCopies _

@[simp] theorem Dev.fresh_rxFrame {d : Dev} (h : d.path.fresh) (port mac ago : Nat) : (d.rxFrame port mac ago).2.path.fresh := by
  unfold Dev.rxFrame
  split
  · exact h
  · exact h.addFrame rfl

@[simp] theorem Dev.fresh_reap {d : Dev} (hd : d.path.fresh) (i : Nat) : (d.reap i).path.fresh := by
  unfold Dev.reap
  split <;> simp [hd]
@[simp] theorem Dev.fresh_deliver (d : Dev) (port mac : Nat) : (d.deliver port mac).path.fresh ↔ d.path.fresh :=
  PathSt.fresh_mapFrames fun g => by split <;> rfl

@[simp] theorem Dev.fresh_releaseRefs (d : Dev) (c : Copy) (flip : Nat) : (d.releaseRefs c flip).path.fresh ↔ d.path.fresh := by
  unfold Dev.releaseRefs
  split
  · rfl
  · split
    · rfl
    · simp

@[simp] theorem Dev.fresh_removeCopy {d : Dev} (hd : d.path.fresh) (c : Copy) : (d.removeCopy c).path.fresh := by
  unfold Dev.removeCopy
  split <;> simp [hd]
@[simp] theorem Dev.fresh_dropCopy {d : Dev} (hd : d.path.fresh) (c : Copy) (reason : Nat) :
    (d.dropCopy c reason).path.fresh := by
  unfold Dev.dropCopy
  split <;> simp [hd]
@[simp] theorem Dev.fresh_dropCopies {d : Dev} (h : d.path.fresh) (reason : Nat) (p : Copy → Bool) :
    (d.dropCopies reason p).path.fresh :=
  fresh_foldl (fun d c h => by split <;> simp [h]) _ h
@[simp] theorem Dev.fresh_endFrame {d : Dev} (hd : d.path.fresh) (f : Frame) : (d.endFrame f).path.fresh := by
  simp [Dev.endFrame, hd]
@[simp] theorem Dev.fresh_dropFrame {d : Dev} (hd : d.path.fresh) (f : Frame) (reason : Nat) :
    (d.dropFrame f reason).path.fresh := by
  simp [Dev.dropFrame, hd]
@[simp] theorem Dev.fresh_consumeFrame {d : Dev} (hd : d.path.fresh) (f : Frame) : (d.consumeFrame f).path.fresh := by
  simp [Dev.consumeFrame, hd]
@[simp] theorem Dev.fresh_bankEmpty {d : Dev} (hd : d.path.fresh) (f : Frame) : (d.bankEmpty f).path.fresh := by
  simp [Dev.bankEmpty, hd]

theorem Dev.path_of_allocCell {d e : Dev} {p n : Nat} {o : Option Nat} (h : d.allocCell p n = (o, e)) : e.path = d.path :=
  (congrArg (fun r : Option Nat × Dev => r.2.path) h).symm.trans (d.path_allocCell p n)

@[simp] theorem Dev.fresh_writeCell {d : Dev} (h : d.path.fresh) (f : Frame) (last : Bool) : (d.writeCell f last).path.fresh := by
  unfold Dev.writeCell
  dsimp only
  split
  · simp [h]
  · split
    · rename_i hx
      rw [← Dev.path_of_allocCell hx] at h
      simp [h]
    · rename_i hx
      rw [← Dev.path_of_allocCell hx] at h
      simp [h]

@[simp] theorem Dev.fresh_fillCells {d : Dev} (h : d.path.fresh) (i n : Nat) : (d.fillCells i n).path.fresh := by
  induction n generalizing d with
  | zero => exact h
  | succ n ih =>
    unfold Dev.fillCells
    split
    · exact h
    · split
      · exact h
      · exact ih (Dev.fresh_writeCell h _ _)

@[simp] theorem Dev.fresh_storeCells {d : Dev} (hd : d.path.fresh) (i : Nat) : (d.storeCells i).path.fresh := by
  unfold Dev.storeCells
  split <;> simp [hd]
@[simp] theorem Dev.fresh_offerSpill (d : Dev) (i : Nat) : (d.offerSpill i).path.fresh ↔ d.path.fresh := by
  unfold Dev.offerSpill
  split <;> simp

/-! #### Ports -/

@[simp] theorem Dev.fresh_finishRx {d : Dev} (hd : d.path.fresh) (f : Frame) (err : Nat) : (d.finishRx f err).path.fresh := by
  unfold Dev.finishRx
  dsimp only
  (repeat' split) <;> simp [hd]

@[simp] theorem Dev.fresh_cutRx {d : Dev} (hd : d.path.fresh) (n mac : Nat) : (d.cutRx n mac).path.fresh := by
  unfold Dev.cutRx
  split <;> simp [hd]
@[simp] theorem Dev.fresh_cutCopies {d : Dev} (h : d.path.fresh) (reason : Nat) (p : Copy → Bool) :
    (d.cutCopies reason p).path.fresh :=
  fresh_foldl (fun d c h => by split <;> simp [h]) _ h
@[simp] theorem Dev.fresh_linkFalls {d : Dev} (hd : d.path.fresh) (n : Nat) : (d.linkFalls n).path.fresh := by
  simp [Dev.linkFalls, hd]
@[simp] theorem Dev.fresh_flushPort {d : Dev} (hd : d.path.fresh) (n : Nat) : (d.flushPort n).path.fresh := by
  simp [Dev.flushPort, hd]

@[simp] theorem Dev.fresh_enterHold {d : Dev} (hd : d.path.fresh) (n : Nat) : (d.enterHold n).path.fresh := by
  have hfall := Dev.fresh_linkFalls hd n
  unfold Dev.enterHold
  dsimp only
  split
  · exact Dev.fresh_flushPort (Dev.fresh_cutCopies (Dev.fresh_cutCopies hfall _ _) _ _) n
  · simp only [Dev.path_setPortSt, Dev.setFlag_frame]
    exact Dev.fresh_cutCopies (Dev.fresh_cutCopies hfall _ _) _ _

@[simp] theorem fresh_linkDown (port cause : Nat) {d : Dev} (hd : d.path.fresh) : (linkDown port cause d).path.fresh := by
  unfold linkDown
  extract_lets e
  have he : e.path.fresh := by
    unfold e
    split <;> simp [hd]
  clear_value e
  split
  · exact Dev.fresh_enterHold he port
  · exact he

@[simp] theorem fresh_holdExpiry (port : Nat) {d : Dev} (hd : d.path.fresh) : (holdExpiry port d).path.fresh := by
  unfold holdExpiry
  split <;> simp [hd]
@[simp] theorem Dev.fresh_adminFalls {d : Dev} (hd : d.path.fresh) (n : Nat) : (d.adminFalls n).path.fresh := by
  simp [Dev.adminFalls, hd]
@[simp] theorem fresh_adminEnClear (port : Nat) {d : Dev} (hd : d.path.fresh) : (adminEnClear port d).path.fresh := by
  simp [adminEnClear, hd]
@[simp] theorem Dev.fresh_portCheck {d : Dev} (hd : d.path.fresh) (n : Nat) : (d.portCheck n).path.fresh := by
  simp [Dev.portCheck, hd]
@[simp] theorem fresh_pauseCfgChange (port value : Nat) {d : Dev} (hd : d.path.fresh) :
    (pauseCfgChange port value d).path.fresh := by
  simp [pauseCfgChange, hd]

@[simp] theorem Dev.fresh_recoveryRx {d : Dev} (hd : d.path.fresh) (f : Frame) : (d.recoveryRx f).path.fresh := by
  unfold Dev.recoveryRx
  dsimp only
  split <;> simp [hd]

@[simp] theorem Dev.fresh_endRx {d : Dev} (hd : d.path.fresh) (f : Frame) : (d.endRx f).path.fresh := by
  unfold Dev.endRx
  dsimp only
  (repeat' split) <;> simp [hd]

@[simp] theorem Dev.fresh_takeBytes {d : Dev} (hd : d.path.fresh) (f : Frame) (b : List Byte) :
    (d.takeBytes f b).2.path.fresh := by
  simp [Dev.takeBytes, hd]

@[simp] theorem fresh_macFrameEnd (port mac ago : Nat) (bytes : List Byte) {d : Dev} (hd : d.path.fresh) :
    (macFrameEnd port mac ago bytes d).path.fresh := by
  unfold macFrameEnd
  split
  · exact Dev.fresh_endRx (Dev.fresh_takeBytes (Dev.fresh_rxFrame hd _ _ _) _ _) _
  · exact hd

@[simp] theorem Dev.fresh_rxControl {d : Dev} (hd : d.path.fresh) (n : Nat) (b : List Byte) (kind : Nat) :
    (d.rxControl n b kind).path.fresh := by
  unfold Dev.rxControl
  split
  · exact Dev.fresh_endRx (Dev.fresh_takeBytes (Dev.fresh_rxFrame hd _ _ _) _ _) _
  · exact hd

@[simp] theorem Dev.fresh_rejectAssy {d : Dev} (hd : d.path.fresh) (n : Nat) : (d.rejectAssy n).path.fresh := by
  unfold Dev.rejectAssy
  dsimp only
  split <;> simp [hd]

@[simp] theorem fresh_fragmentRx (port ago : Nat) (start : Bool) (count : Nat) (last : Bool) (bytes : List Byte) {d : Dev}
    (hd : d.path.fresh) : (fragmentRx port ago start count last bytes d).path.fresh := by
  unfold fragmentRx
  split
  · extract_lets d1 opened e
    have he : e.path.fresh := by simp [e, d1, hd]
    clear_value e
    have htake := fun b => Dev.fresh_takeBytes (Dev.fresh_rxFrame he port 1 ago) (e.rxFrame port 1 ago).1 b
    split
    · dsimp only
      split <;> simp [htake]
    · split
      · exact Dev.fresh_rejectAssy he port
      · exact Dev.fresh_rejectAssy (htake bytes) port
  · exact hd

/-! #### Beaters -/

@[simp] theorem Dev.fresh_joinIntake {d : Dev} (hd : d.path.fresh) (f : Frame) : (d.joinIntake f).path.fresh := by
  simp [Dev.joinIntake, hd]

@[simp] theorem fresh_parseReady (port mac ago : Nat) (bytes : List Byte) {d : Dev} (hd : d.path.fresh) :
    (parseReady port mac ago bytes d).path.fresh := by
  have hrx := Dev.fresh_rxFrame hd port (mac % 2) ago
  unfold parseReady
  split
  · exact Dev.fresh_joinIntake hd _
  · split
    · dsimp only
      split
      · have htake := Dev.fresh_takeBytes hrx (d.rxFrame port (mac % 2) ago).1 bytes
        split
        · exact Dev.fresh_joinIntake htake _
        · exact htake
      · exact hrx
    · exact hd

@[simp] theorem Dev.fresh_fallbackParse (d : Dev) (f : Frame) : (d.fallbackParse f).path.fresh ↔ d.path.fresh := by
  simp [Dev.fallbackParse]

@[simp] theorem fresh_engineStart (pipe engine : Nat) {d : Dev} (hd : d.path.fresh) : (engineStart pipe engine d).path.fresh := by
  unfold engineStart
  split
  · split
    · exact hd
    · dsimp only
      split
      · simp [hd]
      · rename_i hr
        simpa [Dev.path_rehome hr] using hd
  · exact hd

@[simp] theorem Dev.fresh_parityFault {d : Dev} (hd : d.path.fresh) (f : Frame) (p e k : Nat) :
    (d.parityFault f p e k).path.fresh := by
  unfold Dev.parityFault
  dsimp only
  split
  · simp [hd]
  · split
    · simp [hd]
    · rename_i hr
      simpa [Dev.path_rehome hr] using hd

@[simp] theorem Dev.fresh_runWord {d : Dev} (hd : d.path.fresh) (f : Frame) (p e k w : Nat) :
    (d.runWord f p e k w).path.fresh := by
  unfold Dev.runWord
  split <;> simp [hd]

@[simp] theorem fresh_stepWord (op pipe engine flips : Nat) {d : Dev} (hd : d.path.fresh) :
    (stepWord op pipe engine flips d).path.fresh := by
  unfold stepWord
  dsimp only
  (repeat' split) <;> simp [hd]

@[simp] theorem fresh_sideResult (pipe engine : Nat) (bad : List Nat) (d : Dev) :
    (sideResult pipe engine bad d).path.fresh ↔ d.path.fresh := by
  unfold sideResult
  (repeat' split) <;> simp

@[simp] theorem fresh_resume (pipe engine : Nat) (d : Dev) : (resume pipe engine d).path.fresh ↔ d.path.fresh := by
  unfold resume
  split
  · split
    · rfl
    · split
      · rename_i hr
        simp [Dev.path_rehome hr]
      · simp
  · rfl

@[simp] theorem fresh_handoffExpiry (pipe engine : Nat) (d : Dev) : (handoffExpiry pipe engine d).path.fresh ↔ d.path.fresh := by
  unfold handoffExpiry
  (repeat' split) <;> simp
@[simp] theorem fresh_stopRequest (pipe engine : Nat) (d : Dev) : (stopRequest pipe engine d).path.fresh ↔ d.path.fresh := by
  unfold stopRequest
  split <;> simp

/-! #### Redundancy -/

@[simp] theorem Dev.fresh_originate {d : Dev} (h : d.path.fresh) (port cls seqSrc seq : Nat) (inst : Option Nat)
    (bytes : List Byte) :
    (d.originate port cls seqSrc seq inst bytes).path.fresh := by
  unfold Dev.originate
  simp only [Dev.cnt_frame]
  exact (h.addFrame (by rfl)).addCopies (cs := [_]) rfl

@[simp] theorem fresh_supervisionTx (pair slot : Nat) {d : Dev} (hd : d.path.fresh) : (supervisionTx pair slot d).path.fresh := by
  simp [supervisionTx, hd]

/-! #### The time protocol engine -/

@[simp] theorem fresh_ptpRx (frame : Nat) (bmca : Option Bmca) {d : Dev} (hd : d.path.fresh) :
    (ptpRx frame bmca d).path.fresh := by
  unfold ptpRx
  (repeat' split) <;> simp [hd]
@[simp] theorem fresh_ptpTx (inst port : Nat) (bytes : List Byte) {d : Dev} (hd : d.path.fresh) :
    (ptpTx inst port bytes d).path.fresh := by
  simp [ptpTx, hd]
@[simp] theorem fresh_tc2Forward (inst src seqId port : Nat) {d : Dev} (hd : d.path.fresh) :
    (tc2Forward inst src seqId port d).path.fresh := by
  unfold tc2Forward
  (repeat' split) <;> simp [hd]

/-! #### Streams -/

@[simp] theorem fresh_streamIdentify (frame : Nat) (d : Dev) : (streamIdentify frame d).path.fresh ↔ d.path.fresh := by
  unfold streamIdentify
  dsimp only
  (repeat' split) <;> simp

@[simp] theorem Dev.fresh_gateDrop {d : Dev} (hd : d.path.fresh) (f : Frame) (h : Nat) : (d.gateDrop f h).path.fresh := by
  simp [Dev.gateDrop, hd]
@[simp] theorem Dev.fresh_sduDrop {d : Dev} (hd : d.path.fresh) (f : Frame) (h : Nat) : (d.sduDrop f h).path.fresh := by
  simp [Dev.sduDrop, hd]

@[simp] theorem Dev.fresh_filterMeter {d : Dev} (hd : d.path.fresh) (f : Frame) (h : Nat) : (d.filterMeter f h).path.fresh := by
  unfold Dev.filterMeter
  dsimp only
  (repeat' split) <;> simp [hd]

@[simp] theorem Dev.fresh_filterChecks {d : Dev} (hd : d.path.fresh) (f : Frame) (h : Nat) : (d.filterChecks f h).path.fresh := by
  unfold Dev.filterChecks
  dsimp only
  split <;> simp [hd]

@[simp] theorem fresh_streamFilter (frame : Nat) {d : Dev} (hd : d.path.fresh) : (streamFilter frame d).path.fresh := by
  unfold streamFilter
  (repeat' split) <;> simp [hd]
@[simp] theorem fresh_portPolicer (frame : Nat) {d : Dev} (hd : d.path.fresh) : (portPolicer frame d).path.fresh := by
  unfold portPolicer
  split <;> simp [hd]

/-! #### Forwarding and learning -/

@[simp] theorem Dev.fresh_forwardTo (d : Dev) (f : Frame) (set fid : Nat) (sa : Option AEnt) :
    (d.forwardTo f set fid sa).path.fresh ↔ d.path.fresh := by
  simp [Dev.forwardTo]

@[simp] theorem fresh_forwardingDecision (frame : Nat) (bad : List (Nat × Nat)) {d : Dev} (hd : d.path.fresh) :
    (forwardingDecision frame bad d).path.fresh := by
  unfold forwardingDecision
  split
  · exact hd
  · split
    · dsimp only
      split
      · simp [hd]
      · split
        · simp [hd]
        · split
          · split <;> simp [hd]
          · rename_i hr
            have he := Dev.path_pairRules hr
            simp only [Dev.cnt_frame, Dev.path_alookup] at he
            split <;> simp [he, hd]
    · exact hd

/-! #### Seals -/

@[simp] theorem Dev.fresh_sealDrop {d : Dev} (hd : d.path.fresh) (f : Frame) (reason : Nat) :
    (d.sealDrop f reason).path.fresh := by
  simp [Dev.sealDrop, hd]
@[simp] theorem Dev.fresh_backlog {d : Dev} (hd : d.path.fresh) (f : Frame) : (d.backlog f).path.fresh := by
  simp [Dev.backlog, hd]

@[simp] theorem Dev.fresh_stageFrame {d : Dev} (hd : d.path.fresh) (f : Frame) : (d.stageFrame f).1.path.fresh := by
  unfold Dev.stageFrame
  dsimp only
  (repeat' split) <;> simp [hd]

@[simp] theorem Dev.fresh_decideCommand {d : Dev} (hd : d.path.fresh) (f : Frame) (ue : Bool) :
    (d.decideCommand f ue).1.path.fresh := by
  unfold Dev.decideCommand
  dsimp only
  (repeat' split) <;> simp [hd]

@[simp] theorem fresh_commandDecision (frames ue : List Nat) {d : Dev} (hd : d.path.fresh) :
    (commandDecision frames ue d).path.fresh := by
  refine fresh_foldl (fun e f he => ?_) _ (fresh_foldl_fst (fun a i ha => ?_) _ hd)
  · dsimp only
    split
    · exact Dev.fresh_stageFrame he f
    · exact Dev.fresh_stageFrame he f
  · split
    · exact ha
    · split
      · dsimp only
        split
        · exact Dev.fresh_decideCommand ha _ _
        · exact Dev.fresh_decideCommand ha _ _
      · exact ha

@[simp] theorem fresh_engineGrant (ed : Bool) (engine : Nat) (d : Dev) : (engineGrant ed engine d).path.fresh ↔ d.path.fresh := by
  unfold engineGrant
  (repeat' split) <;> simp

@[simp] theorem fresh_sealVerifyDone (ed : Bool) (engine : Nat) {d : Dev} (hd : d.path.fresh) :
    (sealVerifyDone ed engine d).path.fresh := by
  unfold sealVerifyDone
  dsimp only
  (repeat' split) <;> simp [hd]

@[simp] theorem Dev.fresh_writeBack {d : Dev} (hd : d.path.fresh) (f : Frame) : (d.writeBack f).path.fresh := by
  simp [Dev.writeBack, hd]
@[simp] theorem fresh_releaseToAdmission (frame : Nat) {d : Dev} (hd : d.path.fresh) :
    (releaseToAdmission frame d).path.fresh := by
  unfold releaseToAdmission
  split <;> simp [hd]

@[simp] theorem fresh_clusterFault (cluster cause : Nat) {d : Dev} (hd : d.path.fresh) :
    (clusterFault cluster cause d).path.fresh := by
  unfold clusterFault
  split
  · extract_lets d1 d2 deck path d3 d4
    have h4 : d4.path.fresh := by
      simp only [d4, d3, Dev.log_frame, Dev.alarm_frame, Dev.cnt_frame]
      refine (PathSt.fresh_mapFrames fun f => ?_).mpr (by simpa [path, d2, d1] using hd)
      split
      · split <;> rfl
      · rfl
    clear_value d4
    split
    · exact h4
    · exact fresh_foldl (fun e f he => by split <;> simp [he]) _ h4
  · exact hd

/-! #### Vats -/

@[simp] theorem Dev.fresh_loseFrame {d : Dev} (hd : d.path.fresh) (i : Nat) : (d.loseFrame i).path.fresh := by
  simp [Dev.loseFrame, hd]

@[simp] theorem Dev.fresh_failStack {d : Dev} (hd : d.path.fresh) (s cause : Nat) : (d.failStack s cause).path.fresh := by
  unfold Dev.failStack
  split
  · exact hd
  · extract_lets d1 d2 d3 d4 d5 d6 vat d7
    have h4 : d4.path.fresh := by simpa [d4, d3, d2, d1] using hd
    split
    · have h5 : d5.path.fresh := fresh_foldl (fun e f he => by split <;> simp [he]) _ h4
      clear_value d5
      simpa [d7, d6] using h5
    · exact h4

@[simp] theorem Dev.fresh_hbmUe {d : Dev} (hd : d.path.fresh) (s : Nat) : (d.hbmUe s).path.fresh := by simp [Dev.hbmUe, hd]

@[simp] theorem Dev.fresh_storeCycle {d : Dev} (hd : d.path.fresh) (p : Nat) (ids : List Nat) :
    (d.storeCycle p ids).path.fresh := by
  unfold Dev.storeCycle
  dsimp only
  split
  · exact fresh_foldl (fun e f he => Dev.fresh_fillCells he _ _) _ hd
  · refine fresh_foldl_fst (fun a f ha => ?_) _ (by simpa using hd)
    split
    · exact Dev.fresh_fillCells ha _ _
    · exact Dev.fresh_bankEmpty ha f

@[simp] theorem Dev.fresh_supSend {d : Dev} (h : d.path.fresh) (bytes : List Byte) : (d.supSend bytes).path.fresh := by
  unfold Dev.supSend
  split
  · split
    · exact h
    · rename_i hx
      rw [← Dev.path_supTake hx] at h
      simp only [Dev.path_supGive]
      exact Dev.fresh_finishRx (h.addFrame (by rfl)) _ _
  · exact h

@[simp] theorem fresh_cellWrite (writes : List (Nat × Nat × Nat × List Byte)) {d : Dev} (hd : d.path.fresh) :
    (cellWrite writes d).path.fresh := by
  refine fresh_foldl (fun e w he => ?_) _ (fresh_foldl (fun e p he => Dev.fresh_storeCycle he p _) _
    (fresh_foldl_fst (fun a w ha => ?_) _ hd))
  · split
    · exact Dev.fresh_supSend he _
    · exact he
  · dsimp only
    split
    · exact (Dev.fresh_setFrame _ _).mpr (Dev.fresh_rxFrame ha _ _ _)
    · exact ha

theorem zipIdx_numbered {β : Type} {n : Nat} {g : β × Nat → Copy} (hg : ∀ w i, (g (w, i)).id = n + i) (l : List β) :
    (l.zipIdx.map g).map (·.id) = List.range' n (l.zipIdx.map g).length := by
  apply List.ext_getElem
  · simp
  · intro i hi hj
    simp [hg]

@[simp] theorem Dev.fresh_linkFrame {d : Dev} (hd : d.path.fresh) (f : Frame) (kept : List (Nat × Nat × Option Nat)) :
    (d.linkFrame f kept).path.fresh := by
  unfold Dev.linkFrame
  extract_lets p n never d0 cs b d1 path d2 d3 d4
  have hcs : cs.map (·.id) = List.range' d.path.nextCopy cs.length := by
    refine zipIdx_numbered (fun w i => ?_) kept
    dsimp only
    split <;> rfl
  have hlen : n = cs.length := by simp [cs, n]
  have h1 : d1.path.fresh := by simpa [d1] using hd
  have h2 : d2.path.fresh := by
    simp only [d2, hlen]
    exact h1.addCopies hcs
  have h4 : d4.path.fresh := by simpa [d4, d3] using h2
  clear_value d4
  split
  · simpa using h4
  · exact h4

@[simp] theorem fresh_admission (frame : Nat) {d : Dev} (hd : d.path.fresh) : (admission frame d).path.fresh := by
  unfold admission
  split <;> simp [hd]
@[simp] theorem fresh_copyRelease (copy flip : Nat) (d : Dev) : (copyRelease copy flip d).path.fresh ↔ d.path.fresh := by
  unfold copyRelease
  split <;> simp
@[simp] theorem Dev.fresh_cutHalf {d : Dev} (hd : d.path.fresh) (v s : Nat) (ue : Bool) : (d.cutHalf v s ue).path.fresh := by
  simp [Dev.cutHalf, hd]

@[simp] theorem Dev.fresh_spillInto (d : Dev) (c : Copy) (v : Nat) : (d.spillInto c v).path.fresh ↔ d.path.fresh := by
  unfold Dev.spillInto
  split
  · rename_i hb
    simp [Dev.path_takeBlock hb]
  · rfl

@[simp] theorem Dev.fresh_spillRound (d : Dev) (v : Nat) (reqs : List (Nat × Copy)) :
    (d.spillRound v reqs).1.path.fresh ↔ d.path.fresh := by
  unfold Dev.spillRound
  dsimp only
  (repeat' split) <;> simp

theorem Dev.fresh_of_spillRound {d e : Dev} {v : Nat} {reqs l : List (Nat × Copy)} (h : d.spillRound v reqs = (e, l))
    (hd : d.path.fresh) : e.path.fresh := by
  rw [← Dev.fresh_spillRound d v reqs, h] at hd
  exact hd

@[simp] theorem fresh_spill (pipes : List Nat) (cuts : List (Nat × Nat × Bool)) {d : Dev} (hd : d.path.fresh) :
    (spill pipes cuts d).path.fresh := by
  unfold spill
  extract_lets d1 r r0
  have h1 : d1.path.fresh := fresh_foldl (fun e x he => Dev.fresh_cutHalf he _ _ _) _ hd
  have hr : r.1.path.fresh := by
    refine fresh_foldl_fst (fun a p ha => ?_) _ h1
    dsimp only
    split
    · exact ha
    · split
      · exact ha
      · split
        · simpa using ha
        · split
          · simpa using ha
          · split <;> simp [ha]
  clear_value r0 r
  have hcounted : ∀ {e : Dev} (l : List (Nat × Copy)), e.path.fresh →
      (l.foldl (fun d x => d.cnt .spillFallback x.1) e).path.fresh := fun l he => by simpa using he
  split
  next e0 l0 hl0 =>
  extract_lets d2
  have h2 : d2.path.fresh := hcounted l0 (Dev.fresh_of_spillRound hl0 hr)
  clear_value d2
  split
  next e1 l1 hl1 =>
  extract_lets d3
  have h3 : d3.path.fresh := hcounted l1 (Dev.fresh_of_spillRound hl1 h2)
  clear_value d3
  split
  next e2 l2 hl2 =>
  split
  next e3 m1 hm1 =>
  extract_lets d4
  have h4 : d4.path.fresh := hcounted m1 (Dev.fresh_of_spillRound hm1 (Dev.fresh_of_spillRound hl2 h3))
  clear_value d4
  split
  next e4 m2 hm2 =>
  split
  next e5 n2 hn2 =>
  exact fresh_foldl (fun e x he => by split <;> simp [he]) _
    (Dev.fresh_of_spillRound hn2 (Dev.fresh_of_spillRound hm2 h4))

@[simp] theorem fresh_spillComplete (copy : Nat) (d : Dev) : (spillComplete copy d).path.fresh ↔ d.path.fresh := by
  unfold spillComplete
  split <;> simp
@[simp] theorem Dev.fresh_lostInStack {d : Dev} (hd : d.path.fresh) (c : Copy) (s : Nat) : (d.lostInStack c s).path.fresh := by
  simp [Dev.lostInStack, hd]

@[simp] theorem fresh_refill (pipe : Nat) {d : Dev} (hd : d.path.fresh) : (refill pipe d).path.fresh := by
  unfold refill
  dsimp only
  (repeat' split) <;> simp [hd]

@[simp] theorem fresh_refillDone (copy corr : Nat) (ue : Bool) (flip : Nat) {d : Dev} (hd : d.path.fresh) :
    (refillDone copy corr ue flip d).path.fresh := by
  unfold refillDone
  dsimp only
  (repeat' split) <;> simp [hd]

/-! #### The fabric -/

@[simp] theorem fresh_creditRequest (copy : Nat) {d : Dev} (hd : d.path.fresh) : (creditRequest copy d).path.fresh := by
  unfold creditRequest
  (repeat' split) <;> simp [hd]
@[simp] theorem fresh_creditGrant (group : Nat) (d : Dev) : (creditGrant group d).path.fresh ↔ d.path.fresh := by
  unfold creditGrant
  (repeat' split) <;> simp
@[simp] theorem fresh_creditRevoke (port cls : Nat) (d : Dev) : (creditRevoke port cls d).path.fresh ↔ d.path.fresh := by
  simp [creditRevoke]
@[simp] theorem Dev.fresh_sendCell (d : Dev) (plane slot i j : Nat) (c : Copy) :
    (d.sendCell plane slot i j c).path.fresh ↔ d.path.fresh := by
  unfold Dev.sendCell
  split <;> simp

@[simp] theorem Dev.fresh_spray {d : Dev} (hd : d.path.fresh) (slot : Nat) (mgmt : Bool) (ue : List Nat) (m : Nat × Nat × Nat) :
    (d.spray slot mgmt ue m).path.fresh := by
  unfold Dev.spray
  dsimp only
  split <;> simp [hd]

@[simp] theorem fresh_slotMatch (ue : List Nat) {d : Dev} (hd : d.path.fresh) : (slotMatch ue d).path.fresh := by
  unfold slotMatch
  split
  · exact hd
  · extract_lets slot fab d1 fabJoined d2 act live mgmt pairs r reqs q
    have h2 : d2.path = d.path := by
      unfold d2
      split
      · split
        · simp [d1]
        · rfl
      · rfl
    have hr : r.1.path = d2.path := by
      refine path_foldl_fst (fun a m => ?_) _ _
      dsimp only
      split <;> rfl
    have hq : q.1.path = r.1.path := path_foldl_fst (fun a p => by simp) _ _
    refine fresh_foldl (fun e m he => Dev.fresh_spray he _ _ _ _) _ ?_
    rw [hq, hr, h2]
    exact hd

@[simp] theorem Dev.fresh_supHand {d : Dev} (hd : d.path.fresh) (c : Copy) (f : Frame) : (d.supHand c f).path.fresh := by
  unfold Dev.supHand
  split
  · simp [hd]
  · split
    · simp [hd]
    · split
      · simp [hd]
      · rename_i hs
        simp [Dev.path_supTake hs, hd]

@[simp] theorem Dev.fresh_joinQueue (d : Dev) (c : Copy) : (d.joinQueue c).path.fresh ↔ d.path.fresh := by simp [Dev.joinQueue]
@[simp] theorem Dev.fresh_releaseCell {d : Dev} (hd : d.path.fresh) (x : FCell) : (d.releaseCell x).path.fresh := by
  unfold Dev.releaseCell
  (repeat' split) <;> simp [hd]

@[simp] theorem Dev.fresh_drain {d : Dev} (hd : d.path.fresh) (i j n : Nat) : (d.drain i j n).path.fresh := by
  induction n generalizing d with
  | zero => exact hd
  | succ n ih =>
    unfold Dev.drain
    dsimp only
    split
    · exact hd
    · exact ih (Dev.fresh_releaseCell (by exact hd) _)

@[simp] theorem fresh_cellArrive (src dst seq : Nat) (crcOk : Bool) {d : Dev} (hd : d.path.fresh) :
    (cellArrive src dst seq crcOk d).path.fresh := by
  unfold cellArrive
  dsimp only
  (repeat' split) <;> simp [hd]

@[simp] theorem fresh_couchGapTimeout (src dst : Nat) {d : Dev} (hd : d.path.fresh) : (couchGapTimeout src dst d).path.fresh := by
  unfold couchGapTimeout
  extract_lets g e limit gone d1 fab d2 d3 d4 d5
  split
  · have h3 : d3.path.fresh := by simpa [d3, d2, d1] using hd
    have h4 : d4.path.fresh := fresh_foldl (fun e i he => by split <;> simp [he]) _ h3
    clear_value d4
    simp [d5, h4]
  · exact hd

/-! #### Egress -/

@[simp] theorem Dev.fresh_startTx (d : Dev) (n mac : Nat) (c : Copy) (wire : List Byte) (len : Nat) :
    (d.startTx n mac c wire len).path.fresh ↔ d.path.fresh := by
  simp [Dev.startTx]

@[simp] theorem Dev.fresh_selectFrame {d : Dev} (hd : d.path.fresh) (n mac fuel : Nat) :
    (d.selectFrame n mac fuel).path.fresh := by
  induction fuel generalizing d with
  | zero => exact hd
  | succ fuel ih =>
    unfold Dev.selectFrame
    dsimp only
    split
    · exact ih (Dev.fresh_dropCopy (by simpa using hd) _ _)
    · split
      · simpa using hd
      · split
        · simpa using hd
        · split
          · simpa using hd
          · split
            · exact ih (Dev.fresh_dropCopy (by simpa using hd) _ _)
            · split
              · exact ih (Dev.fresh_dropCopy (by simpa using hd) _ _)
              · simpa using hd

@[simp] theorem Dev.fresh_refuseCt (d : Dev) (n mac : Nat) : (d.refuseCt n mac).path.fresh ↔ d.path.fresh := by
  simp [Dev.refuseCt]
@[simp] theorem Dev.fresh_resumeTx (d : Dev) (n : Nat) (c : Copy) : (d.resumeTx n c).path.fresh ↔ d.path.fresh := by
  simp [Dev.resumeTx]
@[simp] theorem Dev.fresh_dropDisabled {d : Dev} (hd : d.path.fresh) (n : Nat) : (d.dropDisabled n).path.fresh := by
  simp [Dev.dropDisabled, hd]

@[simp] theorem fresh_schedulerSelect (port mac : Nat) {d : Dev} (hd : d.path.fresh) :
    (schedulerSelect port mac d).path.fresh := by
  unfold schedulerSelect
  split
  · exact hd
  · split
    · exact Dev.fresh_dropDisabled hd port
    · extract_lets d1 d2
      have h2 : d2.path.fresh := by
        unfold d2
        split <;> simp [d1, hd]
      clear_value d2
      simpa using h2

@[simp] theorem fresh_transmitEnd (port mac : Nat) {d : Dev} (hd : d.path.fresh) : (transmitEnd port mac d).path.fresh := by
  unfold transmitEnd
  dsimp only
  (repeat' split) <;> simp [hd]

@[simp] theorem fresh_preempt (port : Nat) (d : Dev) : (preempt port d).path.fresh ↔ d.path.fresh := by
  unfold preempt
  split <;> simp

/-! #### Modules -/

@[simp] theorem Dev.fresh_checkCagePorts {d : Dev} (hd : d.path.fresh) (c : Nat) : (d.checkCagePorts c).path.fresh :=
  fresh_foldl (fun _ n he => Dev.fresh_portCheck he n) _ hd
@[simp] theorem Dev.fresh_cagePortsDown {d : Dev} (hd : d.path.fresh) (c : Nat) : (d.cagePortsDown c).path.fresh :=
  fresh_foldl (fun _ _ he => by split <;> simp [he]) _ hd

@[simp] theorem Dev.fresh_quarantine {d : Dev} (hd : d.path.fresh) (c reason : Nat) : (d.quarantine c reason).path.fresh := by
  unfold Dev.quarantine
  simp only [Dev.log_frame, Dev.alarm_frame, Dev.cnt_frame]
  refine fresh_foldl (fun e n he => ?_) _ (by simpa using hd)
  exact Dev.fresh_cutCopies (by simp [he]) _ _

@[simp] theorem Dev.fresh_moduleFault {d : Dev} (hd : d.path.fresh) (c : Nat) : (d.moduleFault c).path.fresh := by
  simp [Dev.moduleFault, hd]
@[simp] theorem Dev.fresh_takeFlags {d : Dev} (hd : d.path.fresh) (c : Nat) (fs : List (Nat × Nat × Nat × Bool)) :
    (d.takeFlags c fs).path.fresh := by
  simp [Dev.takeFlags, hd]
@[simp] theorem Dev.fresh_stepEnd {d : Dev} (hd : d.path.fresh) (c : Nat) : (d.stepEnd c).path.fresh := by simp [Dev.stepEnd, hd]
@[simp] theorem fresh_resetRelease (cage : Nat) {d : Dev} (hd : d.path.fresh) : (resetRelease cage d).path.fresh := by
  simp [resetRelease, hd]
@[simp] theorem fresh_readyPoll (cage : Nat) (answer : Option (Nat × Bool)) {d : Dev} (hd : d.path.fresh) :
    (readyPoll cage answer d).path.fresh := by
  unfold readyPoll
  split <;> simp [hd]
@[simp] theorem fresh_readyTimeout (cage : Nat) {d : Dev} (hd : d.path.fresh) : (readyTimeout cage d).path.fresh := by
  simp [readyTimeout, hd]

@[simp] theorem Dev.fresh_applyChoice {d : Dev} (hd : d.path.fresh) (c : Nat) (m : ModId) : (d.applyChoice c m).path.fresh := by
  unfold Dev.applyChoice
  dsimp only
  (repeat' split) <;> simp [hd]

@[simp] theorem fresh_moduleIdentify (cage : Nat) (ident : ModId) {d : Dev} (hd : d.path.fresh) :
    (moduleIdentify cage ident d).path.fresh := by
  unfold moduleIdentify
  dsimp only
  (repeat' split) <;> simp [hd]

@[simp] theorem fresh_powerGrant {d : Dev} (hd : d.path.fresh) : (powerGrant d).path.fresh := by
  unfold powerGrant
  split <;> simp [hd]
@[simp] theorem fresh_datapathReady (cage : Nat) {d : Dev} (hd : d.path.fresh) : (datapathReady cage d).path.fresh := by
  simp [datapathReady, hd]
@[simp] theorem fresh_step9Timeout (cage : Nat) {d : Dev} (hd : d.path.fresh) : (step9Timeout cage d).path.fresh := by
  simp [step9Timeout, hd]

@[simp] theorem Dev.fresh_rechoose {d : Dev} (hd : d.path.fresh) (c : Nat) : (d.rechoose c).path.fresh := by
  unfold Dev.rechoose
  dsimp only
  (repeat' split) <;> simp [hd]

/-- The cage and its ports as a removed module leaves them (R105). -/
def Dev.cageCleared (d : Dev) (cage : Nat) : Dev :=
  let d := ((d.setPresent cage false).cnt .modRemove cage).returnGrant cage
  let d := d.cagePortsDown cage
  let d := (d.clearOver cage).setCage cage CageSt.zero
  let d := (d.wr (Reg.MODL_CAGE_STATUS.STATE cage) 0).wr (Reg.MODL_CAGE_STATUS.QREASON cage) 0
  (d.wr (Reg.MODL_CAGE_STATUS.SPEC cage) 0).checkCagePorts cage

/-- The bus without a transaction that waits for a second try to the cage. -/
def Dev.dropRetry (d : Dev) (cage : Nat) : Dev :=
  let b := tget d.mods.bus MBus.zero (busOf cage)
  if (b.retry.map fun r => r.1) = some cage then
    { d with mods := { d.mods with bus := tput d.mods.bus MBus.zero (busOf cage) { b with retry := none } } } else d

theorem moduleRemove_of_present {cage : Nat} {d : Dev}
    (h : ¬(decide (64 ≤ cage) || !d.flag (Reg.MODL_CAGE_STATUS.PRESENT cage)) = true) :
    moduleRemove cage d = (d.cageCleared cage).dropRetry cage := by
  rw [moduleRemove, if_neg h]
  rfl

theorem Dev.path_dropRetry (d : Dev) (cage : Nat) : (d.dropRetry cage).path = d.path := by
  unfold Dev.dropRetry
  dsimp only
  split <;> rfl

theorem Dev.fresh_cageCleared {d : Dev} (hd : d.path.fresh) (cage : Nat) : (d.cageCleared cage).path.fresh :=
  Dev.fresh_checkCagePorts (by simpa using Dev.fresh_cagePortsDown (by simpa using hd) cage) cage

@[simp] theorem fresh_moduleRemove (cage : Nat) {d : Dev} (hd : d.path.fresh) : (moduleRemove cage d).path.fresh := by
  by_cases h : (decide (64 ≤ cage) || !d.flag (Reg.MODL_CAGE_STATUS.PRESENT cage)) = true
  · rwa [moduleRemove, if_pos h]
  · rw [moduleRemove_of_present h, Dev.path_dropRetry]
    exact Dev.fresh_cageCleared hd cage

@[simp] theorem fresh_moduleInt (bus : Nat) (low : Bool) (flags : List (Nat × Nat × Nat × Nat × Bool)) {d : Dev}
    (hd : d.path.fresh) : (moduleInt bus low flags d).path.fresh := by
  unfold moduleInt
  split
  · exact hd
  · extract_lets e
    have he : e.path.fresh := by simpa [e] using hd
    clear_value e
    split
    · exact he
    · refine fresh_foldl (fun e k he => ?_) _ he
      dsimp only
      split
      · exact he
      · split <;> simp [he]

@[simp] theorem fresh_readFailRestart (cage : Nat) {d : Dev} (hd : d.path.fresh) : (readFailRestart cage d).path.fresh := by
  simp [readFailRestart, hd]

/-! #### Power, clocks and resets -/

theorem Dev.fresh_dropLinks {d : Dev} (hd : d.path.fresh) (l : List Nat) : (d.dropLinks l).path.fresh :=
  fresh_foldl (fun e n he => by split <;> simp [he]) l hd

theorem Dev.path_srefMarked (d : Dev) (k : Nat) : (d.srefMarked k).path = d.path := by
  simp [Dev.srefMarked, path_foldl]

@[simp] theorem fresh_srefLoss (k : Nat) {d : Dev} (hd : d.path.fresh) : (srefLoss k d).path.fresh := by
  by_cases h : 8 ≤ k ∨ d.bitOf Reg.PWCK_CLK_STATUS.SREF_LOST k = true
  · rwa [srefLoss_of_lost h]
  · obtain ⟨hk, hbit⟩ := not_or.mp h
    rw [srefLoss_of_present (Nat.lt_of_not_le hk) (eq_false_of_ne_true hbit)]
    exact Dev.fresh_dropLinks (by rwa [Dev.path_srefMarked]) _

theorem Dev.fresh_zero : Dev.zero.path.fresh := by simp [PathSt.fresh, Dev.zero]

@[simp] theorem Dev.fresh_fullReset (d : Dev) (pll : Bool) (hold : HoldSt) : (d.fullReset pll hold).path.fresh := by
  simpa [Dev.fullReset] using Dev.fresh_zero

@[simp] theorem fresh_porAssert (d : Dev) : (porAssert d).path.fresh := by simp [porAssert]
@[simp] theorem fresh_pwrGoodFall {d : Dev} (hd : d.path.fresh) : (pwrGoodFall d).path.fresh := by simp [pwrGoodFall, hd]
@[simp] theorem fresh_sysRst (sel mode : Nat) (d : Dev) : (sysRst sel mode d).path.fresh := by simp [sysRst]

/-! #### Effects of register writes -/

@[simp] theorem Dev.fresh_retrain {d : Dev} (hd : d.path.fresh) (n : Nat) : (d.retrain n).path.fresh := by simp [Dev.retrain, hd]

@[simp] theorem Dev.fresh_modeWritten {d : Dev} (hd : d.path.fresh) (g : Nat) (old : Word) :
    (d.modeWritten g old).path.fresh := by
  unfold Dev.modeWritten
  split
  · exact hd
  · split
    · refine fresh_foldl (fun e n he => Dev.fresh_portCheck he n) _ ?_
      simp only [Dev.path_ite, Dev.path_groupPower, ite_self]
      rw [path_foldl (fun e l => Dev.path_applyTxeq e g l)]
      exact fresh_foldl (fun e c he => Dev.fresh_rechoose he c) _ (fresh_foldl (fun e n he => Dev.fresh_retrain he n) _ hd)
    · exact Dev.fresh_portCheck (Dev.fresh_retrain hd _) _

@[simp] theorem Dev.fresh_portCfgWritten {d : Dev} (hd : d.path.fresh) (n : Nat) (old : Word) :
    (d.portCfgWritten n old).path.fresh := by
  simp [Dev.portCfgWritten, hd]
@[simp] theorem Dev.fresh_portWritten {d : Dev} (hd : d.path.fresh) (n : Nat) (name : String) (old : Word) :
    (d.portWritten n name old).path.fresh := by
  unfold Dev.portWritten
  split <;> simp [hd]

@[simp] theorem Dev.fresh_regWritten {d : Dev} (hd : d.path.fresh) (a : Nat) (old : Word) : (d.regWritten a old).path.fresh := by
  have hcages : (((List.range 64).foldl Dev.checkCagePorts d.checkCages)).path.fresh :=
    fresh_foldl (fun e c he => Dev.fresh_checkCagePorts he c) _ (by simpa using hd)
  unfold Dev.regWritten
  split
  · exact hd
  · dsimp only
    split
    · split
      · exact hd
      · exact Dev.fresh_portWritten hd _ _ _
    · split <;> simp [hd, hcages]

/-! #### Register writes -/

@[simp] theorem Dev.fresh_putReg {d : Dev} (hd : d.path.fresh) (m a v : Nat) (hw : Word) : (d.putReg m a v hw).path.fresh := by
  simp [Dev.putReg, hd]
@[simp] theorem fresh_registerWrite (master addr value byteEn hwSet : Nat) {d : Dev} (hd : d.path.fresh) :
    (registerWrite master addr value byteEn hwSet d).path.fresh := by
  unfold registerWrite
  split <;> simp [hd]
@[simp] theorem Dev.fresh_writeRecord {d : Dev} (hd : d.path.fresh) (a mask value : Nat) :
    (d.writeRecord a mask value).path.fresh := by
  unfold Dev.writeRecord
  (repeat' split) <;> simp [hd]

theorem Dev.fresh_of_loadReg {d e : Dev} (hd : d.path.fresh) {a mask value : Nat} (h : d.loadReg a mask value = some e) :
    e.path.fresh := by
  unfold Dev.loadReg at h
  split at h
  · cases h
  · split at h
    · cases h
    · split at h
      · cases h
      · obtain rfl := Option.some.inj h
        exact Dev.fresh_writeRecord hd _ _ _

@[simp] theorem Dev.fresh_auditReg {d : Dev} (hd : d.path.fresh) (a : Nat) : (d.auditReg a).path.fresh := by
  simp [Dev.auditReg, hd]

@[simp] theorem fresh_firmwareAudit (upsets : List (Nat × Nat)) {d : Dev} (hd : d.path.fresh) :
    (firmwareAudit upsets d).path.fresh := by
  unfold firmwareAudit
  extract_lets e
  have he : e.path.fresh := by simpa [e] using hd
  clear_value e
  split
  · simp only [Dev.cnt_frame]
    rw [path_foldl (fun e k => Dev.path_auditTab e k _)]
    exact fresh_foldl (fun e a he => Dev.fresh_auditReg he a) _ he
  · exact he

/-! #### Requests -/

@[simp] theorem Dev.fresh_supSays {d : Dev} (hd : d.path.fresh) (bytes : List Byte) : (d.supSays bytes).path.fresh := by
  simp [Dev.supSays, hd]

@[simp] theorem Dev.fresh_reply {d : Dev} (hd : d.path.fresh) (ch code tag status detail : Nat) (data : List Byte) :
    (d.reply ch code tag status detail data).path.fresh := by
  unfold Dev.reply
  dsimp only
  split
  · simpa using hd
  · exact fresh_foldl (fun e b he => Dev.fresh_supSays he b) _ (by simpa using hd)

@[simp] theorem Dev.fresh_status {d : Dev} (hd : d.path.fresh) (ch : Nat) (q : Request) (status detail : Nat) :
    (d.status ch q status detail).path.fresh := by
  simp [Dev.status, hd]
@[simp] theorem Dev.fresh_refused {d : Dev} (hd : d.path.fresh) (ch : Nat) (q : Request) : (d.refused ch q).path.fresh := by
  simp [Dev.refused, hd]
@[simp] theorem Dev.fresh_answer {d : Dev} (hd : d.path.fresh) (ch code tag status detail : Nat) (data : List Byte) :
    (d.answer ch code tag status detail data).path.fresh := by
  simp [Dev.answer, hd]
@[simp] theorem Dev.fresh_refuseRecovery {d : Dev} (hd : d.path.fresh) (ch : Nat) (q : Request) :
    (d.refuseRecovery ch q).path.fresh := by
  simp [Dev.refuseRecovery, hd]

theorem Dev.fresh_onRequest {d : Dev} (hd : d.path.fresh) {f : Dev → Request → Dev}
    (hf : ∀ e q, e.path.fresh → (f e q).path.fresh) (ch code : Nat) : (d.onRequest ch code f).path.fresh := by
  unfold Dev.onRequest
  split
  · split
    · exact hf _ _ (by simpa using hd)
    · exact hd
  · exact hd

/-- A request that passes the checks is left to what its CODE does with it. -/
theorem Dev.fresh_request {d : Dev} (hd : d.path.fresh) {f : Dev → Request → Dev}
    (hf : ∀ e q, e.path.fresh → (f e q).path.fresh) (ch code minVer : Nat) (recov : Bool) :
    (d.request ch code minVer recov f).path.fresh := by
  refine Dev.fresh_onRequest hd (fun e q he => ?_) ch code
  split
  · exact Dev.fresh_status he _ _ _ _
  · split
    · exact Dev.fresh_status he _ _ _ _
    · split
      · exact Dev.fresh_status he _ _ _ _
      · split
        · exact Dev.fresh_refuseRecovery he _ _
        · exact hf e q he

@[simp] theorem fresh_unknownCode (chan : Nat) {d : Dev} (hd : d.path.fresh) : (unknownCode chan d).path.fresh := by
  unfold unknownCode
  split <;> simp [hd]

@[simp] theorem fresh_hello (chan : Nat) {d : Dev} (hd : d.path.fresh) : (hello chan d).path.fresh := by
  refine Dev.fresh_onRequest hd (fun e q he => ?_) _ _
  dsimp only
  split
  · simp [he]
  · split <;> simp [he]

@[simp] theorem Dev.fresh_sendOutput {d : Dev} (hd : d.path.fresh) (ch code tag : Nat) (dest : Nat × Nat × Nat) (out : List Byte) :
    (d.sendOutput ch code tag dest out).path.fresh := by
  simp [Dev.sendOutput, hd]
@[simp] theorem Dev.fresh_endJob {d : Dev} (hd : d.path.fresh) (j : DmaJob) (status detail : Nat) :
    (d.endJob j status detail).path.fresh := by
  simp [Dev.endJob, hd]
@[simp] theorem Dev.fresh_abandonDma {d : Dev} (hd : d.path.fresh) : d.abandonDma.path.fresh :=
  fresh_foldl (fun _ j he => Dev.fresh_endJob he j _ _) _ hd
@[simp] theorem fresh_dmaDone (chan result : Nat) {d : Dev} (hd : d.path.fresh) : (dmaDone chan result d).path.fresh := by
  unfold dmaDone
  (repeat' split) <;> simp [hd]

@[simp] theorem fresh_getInfo (chan : Nat) {d : Dev} (hd : d.path.fresh) : (getInfo chan d).path.fresh := by
  refine Dev.fresh_request hd (fun e q he => ?_) _ _ _ _
  split
  · simp [he]
  · simp [he]

@[simp] theorem fresh_readRegs (chan : Nat) {d : Dev} (hd : d.path.fresh) : (readRegs chan d).path.fresh := by
  refine Dev.fresh_request hd (fun e q he => ?_) _ _ _ _
  split
  · simp [he]
  · simp [he]

@[simp] theorem fresh_tableDump (chan : Nat) {d : Dev} (hd : d.path.fresh) : (tableDump chan d).path.fresh := by
  refine Dev.fresh_request hd (fun e q he => ?_) _ _ _ _
  dsimp only
  split
  · split
    · simp [he]
    · split <;> simp [he]
  · simp [he]

@[simp] theorem fresh_logRead (chan : Nat) {d : Dev} (hd : d.path.fresh) : (logRead chan d).path.fresh := by
  refine Dev.fresh_request hd (fun e q he => ?_) _ _ _ _
  dsimp only
  split
  · split <;> simp [he]
  · simp [he]

@[simp] theorem fresh_moduleRead (chan : Nat) (data : Option (List Byte)) {d : Dev} (hd : d.path.fresh) :
    (moduleRead chan data d).path.fresh := by
  unfold moduleRead
  split
  · exact hd
  · refine Dev.fresh_request hd (fun e q he => ?_) _ _ _ _
    dsimp only
    split
    · simp [he]
    · split
      · simp [he]
      · split <;> simp [he]

@[simp] theorem fresh_counterDir (chan : Nat) {d : Dev} (hd : d.path.fresh) : (counterDir chan d).path.fresh := by
  refine Dev.fresh_request hd (fun e q he => ?_) _ _ _ _
  split
  · split <;> simp [he]
  · simp [he]

@[simp] theorem fresh_snapshot (chan : Nat) {d : Dev} (hd : d.path.fresh) : (snapshot chan d).path.fresh := by
  refine Dev.fresh_request hd (fun e q he => ?_) _ _ _ _
  dsimp only
  split
  · split
    · simp [he]
    · split <;> simp [he]
  · simp [he]

@[simp] theorem fresh_snapCapture {d : Dev} (hd : d.path.fresh) : (snapCapture d).path.fresh := by
  unfold snapCapture
  split <;> simp [hd]

@[simp] theorem fresh_getNonce (chan : Nat) {d : Dev} (hd : d.path.fresh) : (getNonce chan d).path.fresh := by
  refine Dev.fresh_request hd (fun e q he => ?_) _ _ _ _
  split
  · simp [he]
  · simp [he]

/-- A signed request that passes its checks is left to what its CODE does with it. -/
theorem Dev.fresh_signed {d : Dev} (hd : d.path.fresh) {f : Dev → Request → Dev}
    (hf : ∀ e q, e.path.fresh → (f e q).path.fresh) (ch code minVer : Nat) (argsOk : Nat → Bool) :
    (d.signed ch code minVer argsOk f).path.fresh := by
  refine Dev.fresh_request hd (fun e q he => ?_) _ _ _ _
  have hs : (e.setChan ch { e.chan ch with nonce := none }).path.fresh := by simpa using he
  dsimp only
  split_ifs
  · exact Dev.fresh_status hs _ _ _ _
  · exact Dev.fresh_status hs _ _ _ _
  · exact Dev.fresh_status hs _ _ _ _
  · exact hf _ q hs

@[simp] theorem fresh_forceSwitch (chan : Nat) {d : Dev} (hd : d.path.fresh) : (forceSwitch chan d).path.fresh := by
  refine Dev.fresh_signed hd (fun e q he => ?_) _ _ _ _
  split
  · split <;> simp [he]
  · simp [he]

@[simp] theorem fresh_planeRotate (chan : Nat) {d : Dev} (hd : d.path.fresh) : (planeRotate chan d).path.fresh := by
  refine Dev.fresh_signed hd (fun e q he => ?_) _ _ _ _
  simp [he]
@[simp] theorem fresh_logClear (chan : Nat) {d : Dev} (hd : d.path.fresh) : (logClear chan d).path.fresh := by
  refine Dev.fresh_signed hd (fun e q he => ?_) _ _ _ _
  simp [he]

@[simp] theorem fresh_provision (chan : Nat) {d : Dev} (hd : d.path.fresh) : (provision chan d).path.fresh := by
  refine Dev.fresh_request hd (fun e q he => ?_) _ _ _ _
  dsimp only
  split
  · simp [he]
  · split
    · simp [he]
    · split
      · simp [he]
      · split <;> simp [he]

@[simp] theorem Dev.fresh_takeSegment {d : Dev} (hd : d.path.fresh) (ch port : Nat) (h p : List Byte) :
    (d.takeSegment ch port h p).path.fresh := by
  unfold Dev.takeSegment
  dsimp only
  split
  · exact fresh_foldl (fun e b he => Dev.fresh_supSays he b) _ hd
  · split
    · simp [hd]
    · split <;> simp [hd]

@[simp] theorem fresh_mgSegment (frame : Nat) {d : Dev} (hd : d.path.fresh) : (mgSegment frame d).path.fresh := by
  unfold mgSegment
  split <;> simp [hd]
@[simp] theorem fresh_pcieReset {d : Dev} (hd : d.path.fresh) : (pcieReset d).path.fresh := by simp [pcieReset, hd]
@[simp] theorem fresh_busMasterChange (on_ : Bool) {d : Dev} (hd : d.path.fresh) : (busMasterChange on_ d).path.fresh := by
  simp [busMasterChange, hd]

/-! #### Start-up -/

@[simp] theorem Dev.fresh_imageRec {d : Dev} (hd : d.path.fresh) (r : CfgRec) : (d.imageRec r).2.path.fresh := by
  unfold Dev.imageRec
  split
  · split
    · rename_i hl
      exact Dev.fresh_of_loadReg hd hl
    · exact hd
  · split
    · rename_i hl
      rw [Dev.path_loadBulk hl]
      exact hd
    · exact hd
  · simpa using hd
  · split <;> simp [hd]

@[simp] theorem Dev.fresh_loadRecord {d : Dev} (hd : d.path.fresh) (r : CfgRec) : (d.loadRecord r).path.fresh := by
  have hrec := Dev.fresh_imageRec hd r
  unfold Dev.loadRecord
  split
  · dsimp only
    split
    · exact hd
    · split
      · split
        · split
          · rename_i he
            rw [he] at hrec
            simpa using hrec
          · simpa using hd
        · exact hd
      · exact hd
  · exact hd

@[simp] theorem fresh_hbmTrained (stack : Nat) (ok : Bool) {d : Dev} (hd : d.path.fresh) :
    (hbmTrained stack ok d).path.fresh := by
  simp [hbmTrained, hd]
@[simp] theorem Dev.fresh_releaseChecks {d : Dev} (hd : d.path.fresh) : d.releaseChecks.path.fresh :=
  fresh_foldl (fun e n he => Dev.fresh_portCheck he n) _ (by simpa using hd)

/-- The end of FORWARDING_RELEASE (R44 step 8): the audit starts, time and phase are recorded, the references are kept. -/
def Dev.releaseEnd (d : Dev) : Dev :=
  let d := { d.setFlag Reg.DEV_AUDIT_STATUS.RUNNING true with
    audit := { d.audit with checkAt := d.now, comparing := false, terms := [] } }
  let d := d.wr Reg.DEV_BOOT_TIME.RELEASE_US ((d.now - d.boot.t0) / 1000)
  let d := d.wr Reg.DEV_BOOT_STATUS.PHASE 5
  { d with supv := { d.supv with refRegs := d.regs, refTabs := d.tabs } }

@[simp] theorem Dev.path_releaseEnd (d : Dev) : d.releaseEnd.path = d.path := by simp [Dev.releaseEnd]

theorem Dev.path_vat (d : Dev) (v : VatSt) : ({ d with vat := v } : Dev).path = d.path := rfl

theorem forwardingRelease_of_ready {d : Dev}
    (h : (d.phase = 4 && d.boot.replay == some [] && d.boot.hbmDone.length == 2 && d.bootRuns) = true) :
    ∃ e : Dev, e.path = ((({ d with boot := { d.boot with released := true } } : Dev).latch
      allSeeds).fabricRelease.releaseTime).releaseStores.releaseChecks.releaseGates.path ∧
    forwardingRelease d = e.releasePower.moduleStart.releaseEnd := by
  rw [forwardingRelease, if_pos h]
  exact ⟨_, Dev.path_vat _ _, rfl⟩

@[simp] theorem fresh_forwardingRelease {d : Dev} (hd : d.path.fresh) : (forwardingRelease d).path.fresh := by
  by_cases h : (d.phase = 4 && d.boot.replay == some [] && d.boot.hbmDone.length == 2 && d.bootRuns) = true
  · obtain ⟨e, hpath, heq⟩ := forwardingRelease_of_ready h
    have he : e.path.fresh := by simp [hpath, hd]
    simp [heq, he]
  · rwa [forwardingRelease, if_neg h]

@[simp] theorem fresh_recoveryRestart {d : Dev} (hd : d.path.fresh) : (recoveryRestart d).path.fresh := by
  unfold recoveryRestart
  split <;> simp [hd]

/-! #### Amendments -/

@[simp] theorem Dev.fresh_takeAmd {d : Dev} (hd : d.path.fresh) (ch : Nat) (q : Request) (src : List Byte) :
    (d.takeAmd ch q src).path.fresh := by
  unfold Dev.takeAmd
  split <;> simp [hd]

@[simp] theorem fresh_amendSubmit (chan : Nat) (bytes : List Byte) {d : Dev} (hd : d.path.fresh) :
    (amendSubmit chan bytes d).path.fresh := by
  unfold amendSubmit
  split
  · refine Dev.fresh_request hd (fun e q he => ?_) _ _ _ _
    split
    · simp [he]
    · split
      · split
        · simp [he]
        · split <;> simp [he]
      · simp [he]
  · exact hd

@[simp] theorem fresh_journalWritten (seq : Nat) (okA okB : Bool) {d : Dev} (hd : d.path.fresh) :
    (journalWritten seq okA okB d).path.fresh := by
  unfold journalWritten
  split <;> simp [hd]

@[simp] theorem Dev.fresh_commitRegs {d : Dev} (hd : d.path.fresh) : d.commitRegs.path.fresh := by
  unfold Dev.commitRegs
  extract_lets as_ olds ports d1 d2 d3 d4
  have h2 : d2.path.fresh := by simpa [d2, d1] using hd
  have h3 : d3.path.fresh := fresh_foldl (fun e x he => by simpa using Dev.fresh_regWritten he _ _) _ h2
  simpa [d4] using h3

@[simp] theorem Dev.fresh_commitShadow {d : Dev} (hd : d.path.fresh) : (d.commitShadow).path.fresh := by
  simp [Dev.commitShadow, hd]
@[simp] theorem fresh_commitEdge {d : Dev} (hd : d.path.fresh) : (commitEdge d).path.fresh := by
  unfold commitEdge
  split <;> simp [hd]
@[simp] theorem fresh_lateCommit {d : Dev} (hd : d.path.fresh) : (lateCommit d).path.fresh := by
  unfold lateCommit
  split <;> simp [hd]

@[simp] theorem Dev.fresh_replayCommitted {d : Dev} (hd : d.path.fresh) (seq mask : Nat) (a : AmdRec) :
    (d.replayCommitted seq mask a).path.fresh := by
  unfold Dev.replayCommitted
  split
  · simpa using hd
  · rename_i hs
    simp [Dev.path_stageAll hs, hd]

@[simp] theorem fresh_journalReplay {d : Dev} (hd : d.path.fresh) : (journalReplay d).path.fresh := by
  unfold journalReplay
  dsimp only
  (repeat' split) <;> simp [hd]

@[simp] theorem fresh_imageStore (chan : Nat) (bytes : List Byte) {d : Dev} (hd : d.path.fresh) :
    (imageStore chan bytes d).path.fresh := by
  refine Dev.fresh_request hd (fun e q he => ?_) _ _ _ _
  dsimp only
  split
  · simp [he]
  · (repeat' split) <;> simp [he]

@[simp] theorem fresh_nvmProgramDone (ok : Bool) {d : Dev} (hd : d.path.fresh) : (nvmProgramDone ok d).path.fresh := by
  unfold nvmProgramDone
  dsimp only
  (repeat' split) <;> simp [hd]

/-! ### Every command, and time -/

theorem State.fresh_always {d : Dev} {f : Dev → Dev} (q : List Instr) (hf : (f d).path.fresh) :
    ∃ e : Dev, State.always ⟨d, q⟩ f = .next ⟨e, q⟩ ∧ e.path.fresh := ⟨f d, rfl, hf⟩

theorem State.fresh_on {d : Dev} {f : Dev → Dev} (q : List Instr) (hf : (f d).path.fresh) (hd : d.path.fresh) :
    ∃ e : Dev, State.on ⟨d, q⟩ f = .next ⟨e, q⟩ ∧ e.path.fresh := by
  refine State.fresh_always q ?_
  split
  · exact hf
  · exact hd

/-- A command keeps the numbers: its meaning does, by the lemma named after it (`fresh_…`, or `path_…` where it leaves the frames
and copies alone). -/
theorem exec_fresh (c : Instr) {d : Dev} (hd : d.path.fresh) (q : List Instr) :
    ∃ e : Dev, exec c ⟨d, q⟩ = .next ⟨e, q⟩ ∧ e.path.fresh := by
  cases c
  case pwrGoodRise | porAssert | porRelease | pwrGoodFall | sysRstAssert | pllLockDone =>
    delta exec
    refine State.fresh_always q ?_
    simp [hd]
  all_goals
    delta exec
    refine State.fresh_on q ?_ hd
    simp [hd]

theorem step_fresh {s t : State} (h : step s = .next t) (hs : s.dev.path.fresh) : t.dev.path.fresh := by
  obtain ⟨d, q⟩ := s
  cases q with
  | nil =>
    cases h
    rwa [Dev.path_tick]
  | cons c q =>
    obtain ⟨e, he, hfresh⟩ := exec_fresh c hs q
    obtain rfl : (⟨e, q⟩ : State) = t := Host.Outcome.next.inj (he.symm.trans h)
    exact hfresh

end Sys2Proof.Machine

section
open Sys2Proof Sys2Proof.Machine

/-- Settles O4 by cases on the command (`exec_fresh`): new frames and copies take the next numbers, and no other number changes. -/
theorem frameNumbersStayFresh : Obligations.FrameNumbersStayFresh := by
  unfold Obligations.FrameNumbersStayFresh
  intro s t h hs
  rw [Dev.fresh_iff] at hs ⊢
  exact step_fresh h hs

end

/-! PROOFS about the canonical form of registers, counters, tables and memories (R52, R113, R144, R193, R197, R236, R307, R317,
R379). `Dev.Tidy` names the parts of `Dev.tidy`. For each function `f` of the model that a command calls there is one lemma
`Dev.Tidy.f`: from a tidy device `f` makes a tidy device. Its proof follows the definition of `f` and chains the lemmas of what
`f` calls, in the order in which `f` calls them; `aside` stands where `f` writes a part of the device that has no such form. -/

namespace Sys2Proof.Machine

open Sys2Proof

/-! ### The parts of the canonical form -/

/-- The link RAM of a bank stands in canonical form (R236). -/
def Bank.Tidy (b : Bank) : Prop := twf (fun _ => Link.zero) b.links = true

/-- `Dev.tidy`, part by part. -/
structure Dev.Tidy (d : Dev) : Prop where
  regFile : twf resetOf d.regs = true
  counts : twf (fun _ => (0 : Nat)) d.ctrs = true
  overflows : twf (fun _ => false) d.ctrOvf = true
  entries : twf tabReset d.tabs = true
  words : twf (fun _ => (0 : Nat)) d.beat.store = true
  addresses : twf (fun _ => AEnt.zero) d.look.slots = true
  nodes : twf (fun _ => Node.zero) d.red.nodes = true
  contexts : twf (fun _ => Rcv.zero) d.red.ctxs = true
  banks : ∀ e ∈ d.vat.bank, e.2.Tidy
  bases : d.time.tb.length = 8
  pairs : d.time.pair.length = 4

theorem Dev.tidy_iff (d : Dev) : d.tidy = true ↔ d.Tidy := by
  simp only [Dev.tidy, Dev.canon, Bool.and_eq_true, List.all_eq_true, beq_iff_eq]
  constructor
  · rintro ⟨⟨⟨⟨⟨⟨⟨⟨⟨⟨hr, hc⟩, ho⟩, ht⟩, hw⟩, ha⟩, hn⟩, hx⟩, hb⟩, htb⟩, hp⟩
    exact ⟨hr, hc, ho, ht, hw, ha, hn, hx, hb, htb, hp⟩
  · rintro ⟨hr, hc, ho, ht, hw, ha, hn, hx, hb, htb, hp⟩
    exact ⟨⟨⟨⟨⟨⟨⟨⟨⟨⟨hr, hc⟩, ho⟩, ht⟩, hw⟩, ha⟩, hn⟩, hx⟩, hb⟩, htb⟩, hp⟩

section
-- With one thread per theorem body in this long file, the threads' stacks exceed the memory limit.
set_option Elab.async false

variable {d : Dev}

/-- What has no canonical form may change at will. -/
theorem Dev.Tidy.aside (h : d.Tidy)
    {now free hold wire time supv host audit boot power ports mods path beat look strm red deck vat fab egr}
    (htb : time.tb = d.time.tb := by rfl) (hpair : time.pair = d.time.pair := by rfl) (hstore : beat.store = d.beat.store := by rfl)
    (hslots : look.slots = d.look.slots := by rfl) (hnodes : red.nodes = d.red.nodes := by rfl)
    (hctxs : red.ctxs = d.red.ctxs := by rfl) (hbank : vat.bank = d.vat.bank := by rfl) :
    Dev.Tidy ⟨now, free, hold, d.regs, d.ctrs, d.ctrOvf, wire, d.tabs, time, supv, host, audit, boot, power, ports, mods, path,
      beat, look, strm, red, deck, vat, fab, egr⟩ where
  regFile := h.regFile
  counts := h.counts
  overflows := h.overflows
  entries := h.entries
  words := hstore ▸ h.words
  addresses := hslots ▸ h.addresses
  nodes := hnodes ▸ h.nodes
  contexts := hctxs ▸ h.contexts
  banks := hbank ▸ h.banks
  bases := htb ▸ h.bases
  pairs := hpair ▸ h.pairs

theorem Dev.Tidy.ite {c : Prop} [Decidable c] {e : Dev} (h : d.Tidy) (he : e.Tidy) : (if c then d else e).Tidy := by
  split
  · exact h
  · exact he

/-- A fold keeps the form where each of its steps does. -/
theorem Dev.Tidy.foldl {β : Type} {f : Dev → β → Dev} {l : List β} (h : d.Tidy) (hf : ∀ e x, e.Tidy → (f e x).Tidy) :
    (l.foldl f d).Tidy :=
  List.foldlRecOn l f h fun e he x _ => hf e x he

theorem Dev.Tidy.foldlFst {β γ : Type} {f : Dev × γ → β → Dev × γ} {l : List β} {a : Dev × γ} (h : a.1.Tidy)
    (hf : ∀ b x, b.1.Tidy → (f b x).1.Tidy) : (l.foldl f a).1.Tidy :=
  List.foldlRecOn (motive := fun b => b.1.Tidy) l f h fun b hb x _ => hf b x hb

theorem Dev.Tidy.foldlSnd {β γ : Type} {f : γ × Dev → β → γ × Dev} {l : List β} {a : γ × Dev} (h : a.2.Tidy)
    (hf : ∀ b x, b.2.Tidy → (f b x).2.Tidy) : (l.foldl f a).2.Tidy :=
  List.foldlRecOn (motive := fun b => b.2.Tidy) l f h fun b hb x _ => hf b x hb

/-- So does a fold that may stop: what it yields is tidy. -/
theorem Dev.Tidy.foldlBind {β : Type} {f : Dev → β → Option Dev} {l : List β} {e : Dev} (h : d.Tidy)
    (hf : ∀ d x e, d.Tidy → f d x = some e → e.Tidy)
    (hl : l.foldl (fun a x => a.bind fun d => f d x) (some d) = some e) : e.Tidy := by
  refine List.foldlRecOn (motive := fun a => ∀ e, a = some e → e.Tidy) l _ (fun e he => Option.some.inj he ▸ h) ?_ e hl
  intro a ha x _ e he
  obtain ⟨d, rfl, hx⟩ := Option.bind_eq_some_iff.mp he
  exact hf d x e (ha d rfl) hx

/-! ### Registers, counters, records and tables -/

theorem twf_filter {β : Type} [DecidableEq β] {f : Nat → β} {t : Tab β} (k : Nat × β → Bool) (h : twf f t = true) :
    twf f (t.filter k) = true := by
  induction t with
  | nil => rfl
  | cons x t ih =>
    obtain ⟨a, v⟩ := x
    simp only [twf, Bool.and_eq_true] at h
    obtain ⟨⟨hv, hlt⟩, ht⟩ := h
    rw [List.filter_cons]
    split
    · simp only [twf, Bool.and_eq_true]
      refine ⟨⟨hv, ?_⟩, ih ht⟩
      rw [List.all_eq_true] at hlt ⊢
      exact fun e he => hlt e (List.mem_filter.mp he).1
    · exact ih ht

theorem mem_tput {β : Type} [DecidableEq β] {t : Tab β} {z : β} {k : Nat} {v : β} {e : Nat × β} (h : e ∈ tput t z k v) :
    e ∈ t ∨ e = (k, v) := by
  unfold tput at h
  split at h
  · exact .inl (List.mem_filter.mp h).1
  · induction t with
    | nil => exact .inr (List.mem_singleton.mp h)
    | cons x t ih =>
      obtain ⟨a, w⟩ := x
      unfold tins at h
      split at h
      · exact (List.mem_cons.mp h).symm
      · split at h
        · exact (List.mem_cons.mp h).symm.imp_left (List.mem_cons_of_mem _)
        · rcases List.mem_cons.mp h with rfl | h
          · exact .inl List.mem_cons_self
          · exact (ih h).imp_left (List.mem_cons_of_mem _)

/-- What a key reads is listed, or it is what an unlisted key reads. -/
theorem tget_eq_or_mem {β : Type} (t : Tab β) (z : β) (k : Nat) : tget t z k = z ∨ (k, tget t z k) ∈ t := by
  induction t with
  | nil => exact .inl rfl
  | cons x t ih =>
    obtain ⟨a, w⟩ := x
    unfold tget
    split
    · next hk => exact .inr (hk ▸ List.mem_cons_self)
    · exact ih.imp_right (List.mem_cons_of_mem _)

theorem Dev.Tidy.setReg {a w} (h : d.Tidy) : (d.setReg a w).Tidy := { h with regFile := twf_tput _ _ _ _ h.regFile }
theorem Dev.Tidy.wr {r v} (h : d.Tidy) : (d.wr r v).Tidy := h.setReg
theorem Dev.Tidy.wrS {r v} (h : d.Tidy) : (d.wrS r v).Tidy := h.wr
@[simp] theorem Dev.Tidy.setFlag {r b} (h : d.Tidy) : (d.setFlag r b).Tidy := h.wr
theorem Dev.Tidy.setBitOf {r k b} (h : d.Tidy) : (d.setBitOf r k b).Tidy := h.wr
theorem Dev.Tidy.out {o} (h : d.Tidy) : (d.out o).Tidy := h.aside
theorem Dev.Tidy.freeNat (h : d.Tidy) : d.freeNat.2.Tidy := h.aside

theorem Dev.Tidy.setTabW {tid i w v} (h : d.Tidy) : (d.setTabW tid i w v).Tidy := { h with entries := twf_tput _ _ _ _ h.entries }

theorem Dev.Tidy.cntBy {c i n} (h : d.Tidy) : (d.cntBy c i n).Tidy :=
  { h with
    counts := twf_tput _ _ _ (fun _ => 0) h.counts
    overflows := by
      dsimp only [Dev.cntBy]
      split
      · exact h.overflows
      · exact twf_tput _ _ _ (fun _ => false) h.overflows }

theorem Dev.Tidy.cnt {c i} (h : d.Tidy) : (d.cnt c i).Tidy := h.cntBy
theorem Dev.Tidy.dropCount {r} (h : d.Tidy) : (d.dropCount r).Tidy := h.cnt

theorem Dev.Tidy.irq {v} (h : d.Tidy) : (d.irq v).Tidy := h.ite (.ite h.setBitOf.out h.setBitOf)
theorem Dev.Tidy.alarm {g b} (h : d.Tidy) : (d.alarm g b).Tidy := h.ite h.setBitOf.irq
theorem Dev.Tidy.setPeer {r b} (h : d.Tidy) : (d.setPeer r b).Tidy := h.ite h.setFlag.irq
theorem Dev.Tidy.submit {r} (h : d.Tidy) : (d.submit r).Tidy := .ite h.aside h.cnt.aside
theorem Dev.Tidy.log {typ unit data} (h : d.Tidy) : (d.log typ unit data).Tidy := h.submit
theorem Dev.Tidy.logFrom {origin typ unit data} (h : d.Tidy) : (d.logFrom origin typ unit data).Tidy := h.submit

/-! ### Banks -/

theorem Bank.Tidy.aside {b c : Bank} (h : b.Tidy) (same : c.links = b.links := by rfl) : c.Tidy := by
  unfold Bank.Tidy
  rw [same]
  exact h

theorem Bank.Tidy.setLink {b : Bank} {k l} (h : b.Tidy) : (b.setLink k l).Tidy := twf_tput _ _ _ _ h
theorem Bank.Tidy.release {b : Bank} {k} (h : b.Tidy) : (b.release k).Tidy := Bank.Tidy.setLink h.aside

theorem Bank.Tidy.foldl {β : Type} {f : Bank → β → Bank} {l : List β} {b : Bank} (h : b.Tidy)
    (hf : ∀ c x, c.Tidy → (f c x).Tidy) : (l.foldl f b).Tidy :=
  List.foldlRecOn l f h fun c hc x _ => hf c x hc

theorem Dev.Tidy.bank {p} (h : d.Tidy) : (d.bank p).Tidy := by
  rcases tget_eq_or_mem d.vat.bank Bank.zero p with hp | hp
  · rw [Dev.bank, hp]
    rfl
  · exact h.banks _ hp

theorem Dev.Tidy.setBank {p b} (h : d.Tidy) (hb : b.Tidy) : (d.setBank p b).Tidy :=
  { h with
    banks := fun e he => by
      rcases mem_tput he with he | rfl
      · exact h.banks e he
      · exact hb }

/-! ### What each function keeps -/

/-! #### Time -/

theorem Dev.Tidy.setTb {t b} (h : d.Tidy) : (d.setTb t b).Tidy :=
  { h with bases := List.length_set.trans h.bases }

theorem Dev.Tidy.advanceTb {t} (h : d.Tidy) : (d.advanceTb t).Tidy := h.setTb

theorem Dev.Tidy.tick (h : d.Tidy) : d.tick.Tidy := by
  unfold Dev.tick
  dsimp only
  split
  · exact .aside (h.aside.foldl fun _ _ h => h.advanceTb)
  · exact h.aside

/-! #### Operands, reads and writes -/

theorem Dev.Tidy.becOne {m a c k} (h : d.Tidy) : (d.becOne m a c k).Tidy := by
  unfold Dev.becOne
  dsimp only
  split
  · split
    · exact h.aside
    · exact h.aside.setFlag.irq
  · exact h

theorem Dev.Tidy.becCount {m a c} (h : d.Tidy) : (d.becCount m a c).Tidy := h.foldl fun _ _ h => h.becOne

theorem Dev.Tidy.busReadW {m a w} (h : d.Tidy) : (d.busReadW m a w).Tidy := by
  unfold Dev.busReadW
  split
  · exact h.becCount.out
  · exact h

theorem Dev.Tidy.busRead {m a} (h : d.Tidy) : (d.busRead m a).Tidy := h.busReadW

theorem Dev.Tidy.writeReg {p a v hw} (h : d.Tidy) : (d.writeReg p a v hw).Tidy := by
  unfold Dev.writeReg
  split
  · exact h
  · split
    · split
      · exact h.setReg.setFlag
      · exact h.setReg
    · exact h.setReg

theorem Dev.Tidy.busWrite {m a v byteEn} (h : d.Tidy) : (d.busWrite m a v byteEn).1.Tidy := by
  unfold Dev.busWrite
  split
  · exact h.becCount
  · exact h

/-! #### The log -/

theorem Dev.Tidy.acceptLog {r} (h : d.Tidy) : (d.acceptLog r).Tidy := by
  unfold Dev.acceptLog
  dsimp only
  split
  · split
    · exact h.wr.cnt.aside.cnt.log
    · exact h.wr.cnt.aside
  · exact h.wr.cnt.aside

@[simp] theorem Dev.Tidy.acceptNext (h : d.Tidy) : (acceptNext d).Tidy := by
  unfold Machine.acceptNext
  split
  · exact h
  · exact h.aside.acceptLog

@[simp] theorem Dev.Tidy.putSubmit {master sup value} (h : d.Tidy) : (putSubmit master sup value d).Tidy := by
  unfold Machine.putSubmit
  dsimp only
  split
  · exact h.busWrite.wr.submit
  · exact h.busWrite

@[simp] theorem Dev.Tidy.overrunSummary (h : d.Tidy) : (overrunSummary d).Tidy := by
  unfold Machine.overrunSummary
  dsimp only
  split
  · split
    · exact h.aside.submit
    · exact h
  · split
    · exact h.aside.submit
    · exact h

theorem Dev.Tidy.setNvm {nv n} (h : d.Tidy) : (d.setNvm nv n).Tidy := h.aside

@[simp] theorem Dev.Tidy.persistOne {nv} (h : d.Tidy) : (persistOne nv d).Tidy := by
  unfold Machine.persistOne
  split
  · split
    · exact h
    · exact h.setNvm.aside
  · exact h

theorem Dev.Tidy.clearLog {requester} (h : d.Tidy) : (d.clearLog requester).Tidy := by
  unfold Dev.clearLog
  exact h.setReg.aside.acceptLog

@[simp] theorem Dev.Tidy.clearCmd {master} (h : d.Tidy) : (clearCmd master d).Tidy := by
  unfold Machine.clearCmd
  dsimp only
  split
  · exact h.busWrite.clearLog
  · exact h.busWrite

/-! #### Power tokens -/

theorem Dev.Tidy.requestTokens {x level} (h : d.Tidy) : (d.requestTokens x level).Tidy := by
  unfold Dev.requestTokens
  split
  · exact h
  · exact h.aside

theorem Dev.Tidy.releaseTokens {x} (h : d.Tidy) : (d.releaseTokens x).Tidy := by
  unfold Dev.releaseTokens
  dsimp only
  split
  · exact h.aside.wr
  · exact h.aside

/-! #### Frames, copies and cells -/

theorem Dev.Tidy.auditLost {loc n} (h : d.Tidy) : (d.auditLost loc n).Tidy := by
  unfold Dev.auditLost
  split
  · exact h.wr
  · exact h

theorem Dev.Tidy.ptrFail {store value} (h : d.Tidy) : (d.ptrFail store value).Tidy :=
  .log (.alarm (.ite h.cnt h.cnt.setFlag.wr.wr))

theorem Dev.Tidy.returnCell {p k flip} (h : d.Tidy) : (d.returnCell p k flip).Tidy := by
  unfold Dev.returnCell
  dsimp only
  split
  · exact (h.setBank h.bank.release)
  · exact (((h.setBank h.bank.aside)).ptrFail).auditLost

theorem Dev.Tidy.setPauseSt {n c s} (h : d.Tidy) : (d.setPauseSt n c s).Tidy := h.aside

theorem Dev.Tidy.addEc {p m c k} (h : d.Tidy) : (d.addEc p m c k).Tidy := h.aside

theorem Dev.Tidy.subEc {p m c k} (h : d.Tidy) : (d.subEc p m c k).Tidy := h.aside

theorem Dev.Tidy.sendPause {n mode cs xoff} (h : d.Tidy) : (d.sendPause n mode cs xoff).Tidy := by
  unfold Dev.sendPause
  dsimp only
  split
  · exact .out (h.foldl fun _ _ h => h.cnt.setBitOf.setPauseSt)
  · exact h.cnt.wr.setPauseSt.out

theorem Dev.Tidy.evalPause {n} (h : d.Tidy) : (d.evalPause n).Tidy := by
  unfold Dev.evalPause
  dsimp only
  split
  · exact h
  · split
    · split
      · split
        · exact h.sendPause
        · exact h
      · split
        · exact h
        · exact h.sendPause
    · split
      · split
        · exact h
        · exact h.sendPause
      · exact .sendPause (.ite h h.sendPause)
    · exact h

theorem Dev.Tidy.addIc {n c k} (h : d.Tidy) : (d.addIc n c k).Tidy := by
  unfold Dev.addIc
  split
  · exact h
  · exact h.aside.evalPause

theorem Dev.Tidy.subIc {n c k} (h : d.Tidy) : (d.subIc n c k).Tidy := by
  unfold Dev.subIc
  split
  · exact h
  · exact h.aside.evalPause

theorem Dev.Tidy.unref {p k flip} (h : d.Tidy) : (d.unref p k flip).1.Tidy := by
  unfold Dev.unref
  dsimp only
  split
  · exact .ite h.cnt (((h.cnt.setBank h.bank.aside)).auditLost)
  · split
    · exact ((h.setBank h.bank.setLink)).returnCell
    · exact (h.setBank h.bank.setLink)

theorem Dev.Tidy.returnCredit {g n} (h : d.Tidy) : (d.returnCredit g n).Tidy := by
  unfold Dev.returnCredit
  split
  · exact h
  · exact h.wr.aside

theorem Dev.Tidy.unstage {g n} (h : d.Tidy) : (d.unstage g n).Tidy := by
  unfold Dev.unstage
  split
  · exact h
  · exact h.wr.returnCredit

theorem Dev.Tidy.setVatHalf {v s f} (h : d.Tidy) : (d.setVatHalf v s f).Tidy := h.aside

theorem Dev.Tidy.returnBlock {b flip} (h : d.Tidy) : (d.returnBlock b flip).Tidy := by
  unfold Dev.returnBlock
  dsimp only
  split
  · exact h
  · split
    · exact h.setVatHalf.wr
    · exact h.ptrFail.auditLost

theorem Dev.Tidy.clearTx {i} (h : d.Tidy) : (d.clearTx i).Tidy := h.aside

theorem Dev.Tidy.askRefills {p} (h : d.Tidy) : (d.askRefills p).Tidy := by
  unfold Dev.askRefills
  split
  · exact h
  · exact h.foldl fun _ _ h => .ite (.ite h (.ite h.aside h)) h

theorem Dev.Tidy.returnChain {f} (h : d.Tidy) : (d.returnChain f).Tidy := by
  unfold Dev.returnChain
  split
  · exact h.foldl fun _ _ h => h.returnCell
  · exact h

theorem Dev.Tidy.returnStaging {f} (h : d.Tidy) : (d.returnStaging f).Tidy := by
  unfold Dev.returnStaging
  split
  · exact h
  · exact h.aside.wr.wr

theorem Dev.Tidy.startRebuild {p s} (h : d.Tidy) : (d.startRebuild p s).Tidy := by
  unfold Dev.startRebuild
  dsimp only
  split
  · exact h
  · exact (((h.setBank h.bank.aside)).cnt).setFlag

theorem Dev.Tidy.allocCell {p fuel} (h : d.Tidy) : (d.allocCell p fuel).2.Tidy := by
  induction fuel generalizing d with
  | zero => exact h
  | succ fuel ih =>
    unfold Dev.allocCell
    dsimp only
    split
    · exact h
    · split
      · exact h
      · split
        · exact h.setBank (.setLink (.aside h.bank))
        · exact ih h.startRebuild

/-! #### Ports -/

theorem Dev.Tidy.setPortSt {n s} (h : d.Tidy) : (d.setPortSt n s).Tidy := h.aside

theorem Dev.Tidy.startRemoval {n} (h : d.Tidy) : (d.startRemoval n).Tidy := h.foldl fun _ _ h => h.aside.setFlag

theorem Dev.Tidy.issueLearn {p e} (h : d.Tidy) : (d.issueLearn p e).Tidy := by
  unfold Dev.issueLearn
  dsimp only
  split
  · split
    · exact h.cnt.aside
    · exact h.cnt.aside.cnt
  · exact h.aside.cnt

theorem Dev.Tidy.issueHeld {f} (h : d.Tidy) : (d.issueHeld f).Tidy := by
  unfold Dev.issueHeld
  dsimp only
  split
  · refine .aside ?_
    split
    · exact h.issueLearn
    · exact h
  · split
    · exact h.issueLearn
    · exact h

theorem Dev.Tidy.countRxErr {n reason} (h : d.Tidy) : (d.countRxErr n reason).Tidy := by
  unfold Dev.countRxErr
  split
  · exact h.cnt
  · exact h.cnt
  · exact h.cnt
  · exact h.cnt
  · exact h

theorem Dev.Tidy.clearPause {n} (h : d.Tidy) : (d.clearPause n).Tidy := h.setReg.foldl fun _ _ h => h.setPauseSt

theorem Dev.Tidy.startVerify {n} (h : d.Tidy) : (d.startVerify n).Tidy := by
  unfold Dev.startVerify
  split
  · split
    · exact h.wr.setFlag
    · exact h.wr.setFlag.setPortSt.out
  · exact h.wr.setFlag

theorem Dev.Tidy.linkRises {n} (h : d.Tidy) : (d.linkRises n).Tidy := h.setFlag.setFlag.setPortSt.startVerify.evalPause

@[simp] theorem Dev.Tidy.linkUpDecl {port clearFor} (h : d.Tidy) : (linkUpDecl port clearFor d).Tidy := by
  unfold Machine.linkUpDecl
  dsimp only
  split
  · split
    · exact .setPortSt (h.setFlag.setFlag.foldl fun _ _ h => h.setBitOf.setBitOf)
    · exact .linkRises (h.setFlag.setFlag.foldl fun _ _ h => h.setBitOf.setBitOf)
  · exact h

@[simp] theorem Dev.Tidy.flushDone {port} (h : d.Tidy) : (flushDone port d).Tidy := by
  unfold Machine.flushDone
  dsimp only
  split
  · split
    · exact h.setFlag.linkRises
    · exact h.setFlag
  · exact h

theorem Dev.Tidy.applyTxeq {g l} (h : d.Tidy) : (d.applyTxeq g l).Tidy := h.setBitOf.setReg

theorem Dev.Tidy.pauseChanged {n old} (h : d.Tidy) : (d.pauseChanged n old).Tidy := by
  unfold Dev.pauseChanged
  dsimp only
  split
  · exact .foldl (.wr (.ite (.evalPause (.wr (.ite h h.sendPause))) h)) fun _ _ h => h.setPauseSt
  · split
    · exact .evalPause (.wr (.ite h h.sendPause))
    · exact h

theorem Dev.Tidy.pauseClass {n c q} (h : d.Tidy) : (d.pauseClass n c q).Tidy := by
  unfold Dev.pauseClass
  split
  · exact h
  · split
    · exact h.setPauseSt.setBitOf
    · exact h.setPauseSt.setBitOf

theorem Dev.Tidy.control {n b} (h : d.Tidy) : (d.control n b).Tidy := by
  unfold Dev.control
  dsimp only
  split
  · split
    · exact h.cnt.foldl fun _ _ h => h.pauseClass
    · exact h.cnt
  · exact h.foldl fun _ _ h => .ite (.ite h.cnt.pauseClass h.cnt) h
  · exact h.cnt

@[simp] theorem Dev.Tidy.pauseExpiry {port cls} (h : d.Tidy) : (pauseExpiry port cls d).Tidy := by
  unfold Machine.pauseExpiry
  split
  · split
    · exact h.pauseClass
    · exact h
  · exact h

@[simp] theorem Dev.Tidy.xoffRepeat {port cls} (h : d.Tidy) : (xoffRepeat port cls d).Tidy := by
  unfold Machine.xoffRepeat
  dsimp only
  split
  · split
    · exact h.sendPause
    · exact h
  · split
    · exact h.sendPause
    · exact h

@[simp] theorem Dev.Tidy.pauseWdTrip {port cls} (h : d.Tidy) : (pauseWdTrip port cls d).Tidy := by
  unfold Machine.pauseWdTrip
  dsimp only
  split
  · exact h.setPauseSt.setBitOf.setBitOf.cnt.alarm.log
  · exact h

@[simp] theorem Dev.Tidy.pauseWdHoldEnd {port cls} (h : d.Tidy) : (pauseWdHoldEnd port cls d).Tidy := by
  unfold Machine.pauseWdHoldEnd
  split
  · exact h.setBitOf
  · exact h

@[simp] theorem Dev.Tidy.verifyTimeout {port} (h : d.Tidy) : (verifyTimeout port d).Tidy := by
  unfold Machine.verifyTimeout
  dsimp only
  split
  · split
    · exact h.setPortSt.out
    · exact h.wr
  · exact h

@[simp] theorem Dev.Tidy.verifyRx {port respond} (h : d.Tidy) : (verifyRx port respond d).Tidy := by
  unfold Machine.verifyRx
  split
  · split
    · split
      · exact h.wr.setFlag
      · exact h
    · exact h.out
  · exact h

@[simp] theorem Dev.Tidy.rxAdaptUpdate {_port} (h : d.Tidy) : (rxAdaptUpdate _port d).Tidy := h

@[simp] theorem Dev.Tidy.autonegComplete {port fec} (h : d.Tidy) : (autonegComplete port fec d).Tidy := by
  unfold Machine.autonegComplete
  dsimp only
  split
  · exact h.setFlag.wr
  · exact h

@[simp] theorem Dev.Tidy.trainingComplete {port coefs} (h : d.Tidy) : (trainingComplete port coefs d).Tidy := by
  unfold Machine.trainingComplete
  split
  · exact h.setFlag.foldl fun _ _ h => h.setReg
  · exact h

/-! #### Beaters -/

theorem Dev.Tidy.flipWord {p k half word mask} (h : d.Tidy) : (d.flipWord p k half word mask).Tidy := h.aside

theorem Dev.Tidy.writeStore {p half word v} (h : d.Tidy) : (d.writeStore p half word v).Tidy :=
  { h with words := twf_tput _ _ _ (fun _ => 0) h.words }

theorem Dev.Tidy.copiesFollow {p} (h : d.Tidy) : (d.copiesFollow p).Tidy := h.wr.setFlag

theorem Dev.Tidy.rehome {p n k e} (h : d.Tidy) (he : d.rehome p n = some (k, e)) : e.Tidy := by
  unfold Dev.rehome at he
  dsimp only at he
  split at he
  · cases he
    exact h.aside
  · split at he
    · cases he
      exact h
    · split at he
      · cases he
      · cases he
        exact h.aside

theorem Dev.Tidy.copyOut {p k} (h : d.Tidy) : (d.copyOut p k).Tidy := by
  unfold Dev.copyOut
  dsimp only
  split
  · split
    · exact .log (.log (.copiesFollow (.alarm (.aside (.ite h.setBitOf.setBitOf h.setBitOf)))))
    · exact .log (.copiesFollow (.alarm (.aside (.ite h.setBitOf.setBitOf h.setBitOf))))
  · exact h

theorem Dev.Tidy.machineCheck {p e k word t} (h : d.Tidy) : (d.machineCheck p e k word t).Tidy :=
  .log (.ite h.cnt h.cnt.setFlag.wr.wr.wr.wr)

theorem Dev.Tidy.handoffWait {f} (h : d.Tidy) : (d.handoffWait f).1.Tidy := by
  unfold Dev.handoffWait
  dsimp only
  split
  · exact h
  · split
    · exact h
    · split
      · exact h.cnt
      · exact h

theorem Dev.Tidy.sideFail {p i} (h : d.Tidy) : (d.sideFail p i).Tidy := h.cnt.setFlag.wr.aside

@[simp] theorem Dev.Tidy.sideRewrite {pipe index} (h : d.Tidy) : (sideRewrite pipe index d).Tidy := by
  unfold Machine.sideRewrite
  split
  · exact h.aside
  · exact h

@[simp] theorem Dev.Tidy.reloadDone {pipe copy ok} (h : d.Tidy) : (reloadDone pipe copy ok d).Tidy := by
  unfold Machine.reloadDone
  split
  · exact .log (.copiesFollow (.ite h.aside.setBitOf.aside.setBitOf h.aside.setBitOf.aside))
  · exact h

@[simp] theorem Dev.Tidy.storeScrub {pipe upsets} (h : d.Tidy) : (storeScrub pipe upsets d).Tidy := by
  unfold Machine.storeScrub
  split
  · exact .foldl (h.foldl fun _ _ h => .ite h.flipWord h) fun _ _ h => .ite h.copyOut h
  · exact h

theorem Dev.Tidy.readStore {pipe} (h : d.Tidy) : (d.readStore pipe).Tidy := h.foldl fun _ _ h => h.setReg

@[simp] theorem Dev.Tidy.storeRead {master pipe value} (h : d.Tidy) : (storeRead master pipe value d).Tidy := by
  unfold Machine.storeRead
  dsimp only
  split
  · split
    · exact h.busWrite.writeReg.readStore
    · exact h.busWrite.writeReg
  · exact h.busWrite

/-! #### Redundancy -/

theorem Dev.Tidy.checkPairs (h : d.Tidy) : d.checkPairs.Tidy := by
  unfold Dev.checkPairs
  refine h.foldl fun d x h => ?_
  split
  · exact h.setFlag.setFlag
  · exact h

theorem Dev.Tidy.setNode {slot n} (h : d.Tidy) : (d.setNode slot n).Tidy :=
  { h with nodes := twf_tput _ _ _ (fun _ => Node.zero) h.nodes }

theorem Dev.Tidy.touchNode {slot r n} (h : d.Tidy) : (d.touchNode slot r n).Tidy := h.setNode

theorem Dev.Tidy.nextSeq {r mac} (h : d.Tidy) : (d.nextSeq r mac).2.Tidy := by
  unfold Dev.nextSeq
  split
  · split
    · exact h.setNode
    · exact h.wr
  · exact h.wr

theorem Dev.Tidy.setRcv {c r} (h : d.Tidy) : (d.setRcv c r).Tidy :=
  { h with contexts := twf_tput _ _ _ (fun _ => Rcv.zero) h.contexts }

theorem Dev.Tidy.allocRcv {c seq port reset portB} (h : d.Tidy) : (d.allocRcv c seq port reset portB).Tidy := h.setRcv

@[simp] theorem Dev.Tidy.nodeInsert (h : d.Tidy) : (nodeInsert d).Tidy := by
  unfold Machine.nodeInsert
  dsimp only
  split
  · exact h
  · split
    · exact h.aside.touchNode
    · split
      · exact h.aside.cnt
      · split
        · exact h.aside.setNode.cnt
        · split
          · exact h.aside.cnt
          · split
            · split
              · exact h.aside.cnt
              · exact h.aside.allocRcv.allocRcv.setNode.cnt
            · exact h.aside.allocRcv.setNode.cnt

theorem Dev.Tidy.freeRcv {c} (h : d.Tidy) : (d.freeRcv c).Tidy := h.setRcv

@[simp] theorem Dev.Tidy.nodeSweep (h : d.Tidy) : (nodeSweep d).Tidy := by
  unfold Machine.nodeSweep
  split
  · exact h.aside.foldl fun _ _ h => .ite (.cnt (.setNode (.ite h (.ite h.freeRcv.freeRcv h.freeRcv)))) h.setNode
  · exact h

@[simp] theorem Dev.Tidy.takeAnySweep (h : d.Tidy) : (takeAnySweep d).Tidy := by
  unfold Machine.takeAnySweep
  dsimp only
  split
  · refine h.aside.foldl fun d x h => ?_
    split
    · split
      · exact h.setRcv
      · exact h
    · exact h
  · exact h

theorem Dev.Tidy.vectorRecover {c reset seq} (h : d.Tidy) : (d.vectorRecover c reset seq).2.Tidy := by
  unfold Dev.vectorRecover
  dsimp only
  split
  · exact .cnt (.setRcv (.ite h h.cnt))
  · split
    · exact h.cnt.cnt
    · split
      · exact h.setRcv.cnt
      · split
        · exact h.cnt
        · exact h.setRcv.cnt.cnt

theorem Dev.Tidy.countPairRx {f r} (h : d.Tidy) : (d.countPairRx f r).Tidy := by
  unfold Dev.countPairRx
  dsimp only
  split
  · split
    · split
      · split
        · exact h.cnt.cnt
        · exact h.cnt
      · split
        · split
          · exact h.cnt.cnt
          · exact h.cnt
        · split
          · exact h.cnt.cnt
          · exact h.cnt
    · split
      · split
        · exact h.cnt.cnt
        · exact h.cnt
      · split
        · split
          · exact h.cnt.cnt
          · exact h.cnt
        · split
          · exact h.cnt.cnt
          · exact h.cnt
  · exact h.cnt

theorem Dev.Tidy.nodeLookup {f r} (h : d.Tidy) : (d.nodeLookup f r).2.Tidy := by
  unfold Dev.nodeLookup
  dsimp only
  split
  · split
    · split
      · exact h.touchNode
      · exact h.touchNode
    · split
      · split
        · exact h
        · exact h
      · split
        · exact h
        · exact h
  · exact h

theorem Dev.Tidy.pairRules {f g set member set' e} (h : d.Tidy) (he : d.pairRules f set member = some (set', g, e)) : e.Tidy := by
  unfold Dev.pairRules at he
  split at he
  · dsimp only at he
    split at he
    · cases he
    · split at he <;> cases he
      · exact h.countPairRx.nodeLookup.cnt
      · exact h.countPairRx.nodeLookup
  · obtain rfl := congrArg (fun x : Nat × Frame × Dev => x.2.2) (Option.some.inj he)
    refine List.foldlRecOn (motive := fun x : Nat × Frame × Dev => x.2.2.Tidy) _ _ h fun a ha q _ => ?_
    dsimp only
    split
    · split
      · dsimp only
        split
        · exact ha.nextSeq.touchNode
        · exact ha.nextSeq
      · exact ha
    · exact ha

theorem Dev.Tidy.frameSeq {f} (h : d.Tidy) : (d.frameSeq f).2.Tidy := by
  unfold Dev.frameSeq
  dsimp only
  split
  · split
    · exact h.aside.cnt
    · exact h
  · exact h

/-! #### The time protocol engine -/

theorem Dev.Tidy.ptpCheck {k} (h : d.Tidy) : (d.ptpCheck k).Tidy := h.setFlag

theorem Dev.Tidy.setBmca {k b} (h : d.Tidy) : (d.setBmca k b).Tidy := by
  unfold Dev.setBmca
  dsimp only
  split
  · exact h.setFlag.setFlag.wr.wr
  · exact h.setFlag.setFlag.wr.wr.cnt

theorem Dev.Tidy.tc2Done {x port} (h : d.Tidy) : (d.tc2Done x port).Tidy := h.aside

@[simp] theorem Dev.Tidy.tc2Abandon {inst src seqId port} (h : d.Tidy) : (tc2Abandon inst src seqId port d).Tidy := by
  unfold Machine.tc2Abandon
  split
  · split
    · exact h.tc2Done.cnt
    · exact h
  · exact h

/-! #### Streams -/

theorem Dev.Tidy.setSgate {x g} (h : d.Tidy) : (d.setSgate x g).Tidy := h.aside

theorem Dev.Tidy.installStream {p x} (h : d.Tidy) : (d.installStream p x).Tidy := h.setSgate

@[simp] theorem Dev.Tidy.sgateTakeover {handle} (h : d.Tidy) : (sgateTakeover handle d).Tidy := by
  unfold Machine.sgateTakeover
  split
  · split
    · exact h.setSgate
    · exact h
  · exact h

@[simp] theorem Dev.Tidy.sgateEntryStart {handle} (h : d.Tidy) : (sgateEntryStart handle d).Tidy := by
  unfold Machine.sgateEntryStart
  split
  · split
    · split
      · exact h.setSgate
      · exact h
    · exact h
  · exact h

theorem Dev.Tidy.meterRun {f x} (h : d.Tidy) : (d.meterRun f x).2.Tidy := by
  unfold Dev.meterRun
  dsimp only
  split
  · exact h.aside
  · split
    · split
      · exact h.aside
      · exact h.aside
    · split
      · exact h.aside
      · exact h.aside

theorem Dev.Tidy.blockHandle {p x cause} (h : d.Tidy) : (d.blockHandle p x cause).Tidy := h.aside.cnt.wr.log

/-! #### Forwarding and learning -/

theorem Dev.Tidy.setAslot {p s e} (h : d.Tidy) : (d.setAslot p s e).Tidy :=
  { h with addresses := twf_tput _ _ _ (fun _ => AEnt.zero) h.addresses }

theorem Dev.Tidy.upsetSlot {p u} (h : d.Tidy) : (d.upsetSlot p u).Tidy := by
  unfold Dev.upsetSlot
  split
  · exact h.setAslot
  · exact h

theorem Dev.Tidy.parityCheck {p s} (h : d.Tidy) : (d.parityCheck p s).Tidy := by
  unfold Dev.parityCheck
  split
  · exact h
  · exact h.cnt.setFlag.wr.setAslot.aside

theorem Dev.Tidy.readSlots {p ss} (h : d.Tidy) : (d.readSlots p ss).Tidy := h.foldl fun _ _ h => h.parityCheck

theorem Dev.Tidy.alookup {p fid mac} (h : d.Tidy) : (d.alookup p fid mac).2.Tidy := by
  unfold Dev.alookup
  dsimp only
  exact h.readSlots

theorem Dev.Tidy.learnOf {f fid sa} (h : d.Tidy) : (d.learnOf f fid sa).2.Tidy := by
  unfold Dev.learnOf
  split
  · exact h
  · split
    · exact .ite h.cnt h
    · exact h

theorem Dev.Tidy.pathSearch {p fuel i b vp path} (h : d.Tidy) : (Dev.pathSearch p fuel i b vp path d).1.Tidy := by
  induction fuel generalizing i b vp path d with
  | zero => exact h
  | succ fuel ih =>
    unfold Dev.pathSearch
    dsimp only
    split
    · exact h
    · split
      · exact h.readSlots
      · exact ih h.readSlots

theorem Dev.Tidy.ainsert {p x} (h : d.Tidy) : (d.ainsert p x).2.Tidy ∧ ∀ e, (d.ainsert p x).1 = some e → e.Tidy := by
  unfold Dev.ainsert
  extract_lets ss d1
  have h1 : d1.Tidy := h.readSlots
  clear_value d1
  split
  · exact ⟨h1, fun e he => Option.some.inj he ▸ h1.setAslot⟩
  · have hsearch := h1.pathSearch (p := p) (fuel := 8) (i := 0) (b := d1.addrBucket p 0 x.fid x.mac)
      (vp := tget d1.look.victim 0 p) (path := [])
    split
    next d2 vp path found hx =>
      have h2 : d2.Tidy := by
        rw [hx] at hsearch
        exact hsearch
      split
      · exact ⟨h2.aside, fun e he => nomatch he⟩
      · refine ⟨h2.aside, fun e he => Option.some.inj he ▸ .setAslot (.foldlFst ?_ fun _ _ h => h.setAslot.setAslot)⟩
        exact h2.aside

theorem Dev.Tidy.ainsertNone {p x e} (h : d.Tidy) (he : d.ainsert p x = (none, e)) : e.Tidy := by
  have hx := h.ainsert (p := p) (x := x)
  rw [he] at hx
  exact hx.1

theorem Dev.Tidy.ainsertSome {p x e o} (h : d.Tidy) (he : d.ainsert p x = (some e, o)) : e.Tidy :=
  h.ainsert.2 e (congrArg Prod.fst he)

theorem Dev.Tidy.insertStatic {p e} (h : d.Tidy) : (d.insertStatic p e).1.Tidy := by
  unfold Dev.insertStatic
  split
  next he => exact h.ainsertSome he
  next he =>
    dsimp only
    split
    · exact (h.ainsertNone he).setAslot.cnt
    · exact h.ainsertNone he

@[simp] theorem Dev.Tidy.ringDeliver (h : d.Tidy) : (ringDeliver d).Tidy := by
  unfold Machine.ringDeliver
  split
  · exact h
  · exact h.aside.foldl fun _ _ h => .ite h (.ite h.aside h.cnt)

theorem Dev.Tidy.moveEntry {p s port} (h : d.Tidy) : (d.moveEntry p s port).Tidy := by
  unfold Dev.moveEntry
  dsimp only
  split
  · exact h
  · split
    · exact h.setAslot.cnt
    · exact h.setAslot.cnt.log

theorem Dev.Tidy.applyLearn {p ev} (h : d.Tidy) : (d.applyLearn p ev).Tidy := by
  unfold Dev.applyLearn
  dsimp only
  split
  · exact h.readSlots
  · split
    · exact h.readSlots
    · split
      · exact .ite h.readSlots.setAslot.cnt h.readSlots.moveEntry
      · split
        next he => exact (h.readSlots.ainsertSome he).cnt
        next he => exact (h.readSlots.ainsertNone he).cnt

@[simp] theorem Dev.Tidy.learnWrite {pipe} (h : d.Tidy) : (learnWrite pipe d).Tidy := by
  unfold Machine.learnWrite
  split
  · exact h
  · exact h.aside.applyLearn

theorem Dev.Tidy.ageSlot {p fid s} (h : d.Tidy) : (d.ageSlot p fid s).Tidy := by
  unfold Dev.ageSlot
  dsimp only
  split
  · split
    · exact h.setAslot.cnt
    · exact h.setAslot
  · exact h

@[simp] theorem Dev.Tidy.agingTick {pipe fid bad} (h : d.Tidy) : (Machine.agingTick pipe fid bad d).Tidy := by
  have hread : ((bad.foldl (fun d u => d.upsetSlot pipe u) d).readSlots pipe
      ((bad.foldl (fun d u => d.upsetSlot pipe u) d).slotsIn pipe)).Tidy := .readSlots (h.foldl fun _ _ h => h.upsetSlot)
  exact .ite (.foldl hread.aside fun _ _ h => h.ageSlot) hread

@[simp] theorem Dev.Tidy.moveWindowEnd {pipe} (h : d.Tidy) : (moveWindowEnd pipe d).Tidy := by
  unfold Machine.moveWindowEnd
  split
  · exact h.aside.foldl fun _ _ h => h.setAslot
  · exact h

@[simp] theorem Dev.Tidy.removalPassDone {pipe} (h : d.Tidy) : (removalPassDone pipe d).Tidy := by
  unfold Machine.removalPassDone
  dsimp only
  split
  · exact h
  · split
    · exact .setFlag (.aside (h.foldl fun _ _ h => .ite h.setAslot.cnt h))
    · exact .aside (h.foldl fun _ _ h => .ite h.setAslot.cnt h)

theorem Dev.Tidy.staticFixed {p action key} (h : d.Tidy) : (d.staticFixed p action key).Tidy := h.cnt.logFrom

theorem Dev.Tidy.compareStatic {p key v} (h : d.Tidy) : (d.compareStatic p key v).Tidy := by
  unfold Dev.compareStatic
  dsimp only
  split
  · split
    · exact h.insertStatic.staticFixed
    · exact h.insertStatic
  · split
    · exact h
    · exact h.setAslot.staticFixed

@[simp] theorem Dev.Tidy.staticCompare {upsets} (h : d.Tidy) : (staticCompare upsets d).Tidy := by
  unfold Machine.staticCompare
  dsimp only
  split
  · exact .foldl (h.foldl fun _ _ h => .ite h.upsetSlot h) fun _ _ h => .foldl (h.readSlots.foldl
    fun _ _ h => h.compareStatic) fun _ _ h => .ite h.setAslot.staticFixed h
  · exact h.foldl fun _ _ h => .ite h.upsetSlot h

@[simp] theorem Dev.Tidy.staticReinsert (h : d.Tidy) : (staticReinsert d).Tidy := by
  unfold Machine.staticReinsert
  split
  · exact h.aside.foldl fun _ _ h => h.foldl fun _ _ h => .ite h.insertStatic h
  · exact h

theorem Dev.Tidy.placed {p x e} (h : d.Tidy) (he : d.placed p x = some e) : e.Tidy := by
  unfold Dev.placed at he
  dsimp only at he
  split at he
  · exact Option.some.inj he ▸ h.insertStatic
  · cases he

theorem Dev.Tidy.loadStatic {p key v e} (h : d.Tidy) (he : d.loadStatic p key v = some e) : e.Tidy := by
  unfold Dev.loadStatic at he
  dsimp only at he
  split at he
  · exact Option.some.inj he ▸ h.setAslot
  · split at he
    · exact h.placed he
    · cases he

theorem Dev.Tidy.stageStatic {p key v e} (h : d.Tidy) (he : d.stageStatic p key v = some e) : e.Tidy := by
  unfold Dev.stageStatic at he
  dsimp only at he
  split at he
  · exact Option.some.inj he ▸ h.setAslot
  · split at he
    · exact Dev.Tidy.placed (h.foldl fun _ _ h => h.setAslot) he
    · cases he

theorem Dev.Tidy.deleteStatic {p fid mac stage} (h : d.Tidy) : (d.deleteStatic p fid mac stage).1.Tidy :=
  h.foldl fun _ _ h => .ite h.setAslot h.setAslot

theorem Dev.Tidy.commitStatic (h : d.Tidy) : d.commitStatic.Tidy := .aside (.ite (h.foldl fun _ _ h => h.setFlag) h)

theorem Dev.Tidy.cleanStatic (h : d.Tidy) : d.cleanStatic.Tidy := by
  refine h.foldl fun d p h => .setFlag (h.foldl fun d s h => ?_)
  dsimp only
  split
  · exact h.setAslot
  · split
    · split
      · exact h.setAslot.setAslot
      · exact h.setAslot
    · exact h

theorem Dev.Tidy.unstageStatic (h : d.Tidy) : d.unstageStatic.Tidy :=
  h.aside.foldl fun _ _ h => h.foldl fun _ _ h => .ite h.setAslot (.ite h.setAslot h)

theorem Dev.Tidy.checkMirrors (h : d.Tidy) : d.checkMirrors.Tidy := h.foldl fun _ _ h => h.setFlag

/-! #### Seals -/

theorem Dev.Tidy.setSctx {slot c} (h : d.Tidy) : (d.setSctx slot c).Tidy := h.aside

theorem Dev.Tidy.sealReport {f reason q} (h : d.Tidy) : (d.sealReport f reason q).Tidy := by
  unfold Dev.sealReport
  dsimp only
  split
  · exact h.aside.log
  · exact h.aside.cnt

@[simp] theorem Dev.Tidy.sealLogSummary {port} (h : d.Tidy) : (sealLogSummary port d).Tidy := by
  unfold Machine.sealLogSummary
  dsimp only
  split
  · exact h.aside.submit
  · exact h

theorem Dev.Tidy.checkSeal (h : d.Tidy) : d.checkSeal.Tidy := h.setFlag

theorem Dev.Tidy.clusterRise {c} (h : d.Tidy) : (d.clusterRise c).Tidy := h.setFlag.setBitOf

@[simp] theorem Dev.Tidy.clusterReset {cluster} (h : d.Tidy) : (clusterReset cluster d).Tidy := by
  unfold Machine.clusterReset
  dsimp only
  split
  · split
    · exact h.aside.clusterRise
    · exact h.aside.requestTokens
  · exact h

theorem Dev.Tidy.writeKey {slot kind key} (h : d.Tidy) : (d.writeKey slot kind key).Tidy := h.aside.setFlag.wr.wr.wr

theorem Dev.Tidy.loadCtx {key minSeq e} (h : d.Tidy) (he : d.loadCtx key minSeq = some e) : e.Tidy := by
  unfold Dev.loadCtx at he
  split at he
  · exact Option.some.inj he ▸ h.setSctx
  · obtain ⟨s, -, rfl⟩ := Option.map_eq_some_iff.mp he
    exact h.setSctx

theorem Dev.Tidy.stageCtx {key minSeq e} (h : d.Tidy) (he : d.stageCtx key minSeq = some e) : e.Tidy := by
  unfold Dev.stageCtx at he
  dsimp only at he
  split at he
  · exact Option.some.inj he ▸ h.setSctx
  · obtain ⟨s, -, rfl⟩ := Option.map_eq_some_iff.mp he
    exact .setSctx (h.foldl fun _ _ h => h.setSctx)

theorem Dev.Tidy.deleteCtx {key stage} (h : d.Tidy) : (d.deleteCtx key stage).Tidy :=
  h.foldl fun _ _ h => .ite h.setSctx h.setSctx

theorem Dev.Tidy.commitCtxs (h : d.Tidy) : d.commitCtxs.Tidy := h.aside

theorem Dev.Tidy.unstageCtxs (h : d.Tidy) : d.unstageCtxs.Tidy := h.aside

/-! #### Vats -/

theorem Dev.Tidy.bankErr {p link cell} (h : d.Tidy) : (d.bankErr p link cell).Tidy :=
  .log (.alarm (.ite h.cnt h.cnt.setFlag.setFlag.wr))

theorem Dev.Tidy.supTake {b bs e} (h : d.Tidy) (he : d.supTake b = some (bs, e)) : e.Tidy := by
  unfold Dev.supTake at he
  split at he
  · obtain ⟨x, -, hx⟩ := Option.map_eq_some_iff.mp he
    cases hx
    exact h.aside.wr
  · cases he

theorem Dev.Tidy.supGive {bs} (h : d.Tidy) : (d.supGive bs).Tidy := h.aside.wr

theorem Dev.Tidy.sweepOne {p x} (h : d.Tidy) : (d.sweepOne p x).Tidy := by
  unfold Dev.sweepOne
  dsimp only
  split
  · exact h
  · split
    · exact h.cnt
    · split
      · exact h.bankErr.startRebuild
      · exact h
    · exact (h.bankErr.freeNat.setBank h.bankErr.freeNat.bank.setLink)
    · split
      · exact h
      · exact h.startRebuild
    · exact h.ptrFail.startRebuild

@[simp] theorem Dev.Tidy.bankSweep {pipe found} (h : d.Tidy) : (bankSweep pipe found d).Tidy := by
  unfold Machine.bankSweep
  split
  · exact h.foldl fun _ _ h => h.sweepOne
  · exact h

@[simp] theorem Dev.Tidy.listRebuildDone {pipe sub} (h : d.Tidy) : (listRebuildDone pipe sub d).Tidy := by
  unfold Machine.listRebuildDone
  dsimp only
  split
  · exact .setFlag (.ite ((h.setBank h.bank.aside)) (((h.setBank h.bank.aside)).auditLost))
  · exact h

theorem Dev.Tidy.takeBlock {v b e} (h : d.Tidy) (he : d.takeBlock v = some (b, e)) : e.Tidy := by
  unfold Dev.takeBlock at he
  dsimp only at he
  generalize (if d.vatFree v 0 < d.vatFree v 1 then 1 else 0) = s at he
  split at he
  · cases he
  · split at he
    · cases he
    · cases he
      exact h.setVatHalf.wr

theorem Dev.Tidy.popSpill {p} (h : d.Tidy) : (d.popSpill p).Tidy := by
  unfold Dev.popSpill
  dsimp only
  split
  · exact h.aside
  · exact h.aside

@[simp] theorem Dev.Tidy.spillBurstReturn {pipe} (h : d.Tidy) : (spillBurstReturn pipe d).Tidy := by
  unfold Machine.spillBurstReturn
  dsimp only
  split
  · split
    · exact h.releaseTokens
    · exact h
  · exact h

theorem Dev.Tidy.popRefill {p} (h : d.Tidy) : (d.popRefill p).Tidy := h.aside

@[simp] theorem Dev.Tidy.privCacheRefill {vat bad} (h : d.Tidy) : (privCacheRefill vat bad d).Tidy := by
  unfold Machine.privCacheRefill
  dsimp only
  split
  · split
    · refine .aside (h.foldl fun d x h => ?_)
      split
      · split
        · exact h.aside.wr.ptrFail.auditLost
        · exact h
      · exact h
    · exact h
  · split
    · refine .aside (h.foldl fun d x h => ?_)
      split
      · split
        · exact h.aside.wr.ptrFail.auditLost
        · exact h
      · exact h
    · exact h

/-! #### Egress gates and queues -/

theorem Dev.Tidy.setEgate {n g} (h : d.Tidy) : (d.setEgate n g).Tidy := h.aside

theorem Dev.Tidy.showGates {n} (h : d.Tidy) : (d.showGates n).Tidy := h.wr.setFlag.setFlag.wr

theorem Dev.Tidy.cbsRun {n} (h : d.Tidy) : (d.cbsRun n).Tidy := h.foldl fun _ _ h => .ite h.aside h

theorem Dev.Tidy.tbsCharge {n c bytes} (h : d.Tidy) : (d.tbsCharge n c bytes).Tidy := h.aside

theorem Dev.Tidy.setWfq {n c w} (h : d.Tidy) : (d.setWfq n c w).Tidy := h.aside

theorem Dev.Tidy.wfqRefresh {n} (h : d.Tidy) : (d.wfqRefresh n).Tidy :=
  h.foldl fun _ _ h => .ite h (.ite h.setWfq (.ite h.setWfq h))

theorem Dev.Tidy.portEvent {n} (h : d.Tidy) : (d.portEvent n).Tidy := by
  unfold Dev.portEvent
  split
  · exact h.cbsRun
  · exact h

/-! #### The fabric -/

theorem Dev.Tidy.showPlanes (h : d.Tidy) : d.showPlanes.Tidy := h.setFlag

theorem Dev.Tidy.planeLevel {n level} (h : d.Tidy) : (d.planeLevel n level).Tidy := h.aside

theorem Dev.Tidy.planeJoin {n} (h : d.Tidy) : (d.planeJoin n).Tidy :=
  h.setBitOf.wr.setFlag.wr.setFlag.aside.planeLevel.showPlanes

theorem Dev.Tidy.fabricRelease (h : d.Tidy) : d.fabricRelease.Tidy :=
  .showPlanes (.aside (.setFlag (.wr (.wr (.wr (h.foldl fun _ _ h => h.wr.setFlag))))))

theorem Dev.Tidy.matchIter {plane reqs done first} (h : d.Tidy) : (d.matchIter plane reqs done first).1.Tidy := by
  unfold Dev.matchIter
  split
  · exact h.foldl fun _ _ h => h.aside
  · exact h

theorem Dev.Tidy.matchPlane {plane reqs} (h : d.Tidy) : (d.matchPlane plane reqs).1.Tidy := by
  unfold Dev.matchPlane
  dsimp only
  exact h.matchIter.matchIter.matchIter

theorem Dev.Tidy.setGap {i j g} (h : d.Tidy) : (d.setGap i j g).Tidy := h.aside

theorem Dev.Tidy.updGap {i j} (h : d.Tidy) : (d.updGap i j).Tidy := by
  unfold Dev.updGap
  dsimp only
  split
  · split
    · exact h.setGap
    · exact h.setGap
  · exact h.setGap

theorem Dev.Tidy.crcWindow {n} (h : d.Tidy) : (d.crcWindow n).1.Tidy := .wr (.ite h.aside.wr h)

theorem Dev.Tidy.startJoin {n} (h : d.Tidy) : (d.startJoin n).Tidy := h.aside.requestTokens

theorem Dev.Tidy.endRotation {result out added} (h : d.Tidy) : (d.endRotation result out added).Tidy := h.aside.setFlag.wr.log

theorem Dev.Tidy.markFailed {n cause} (h : d.Tidy) : (d.markFailed n cause).Tidy :=
  .showPlanes (.releaseTokens (.log (.alarm (.cnt
    (.ite h.wr.wr.setFlag.setBitOf.setBitOf.wr.setFlag h.wr.wr.setFlag.setBitOf.setBitOf)))))

theorem Dev.Tidy.failPlane {n cause} (h : d.Tidy) : (d.failPlane n cause).Tidy := by
  unfold Dev.failPlane
  dsimp only
  split
  · exact h
  · split
    · split
      · split
        · exact h.markFailed.aside.endRotation
        · exact h.markFailed.aside.wr.wr.setFlag.endRotation.startJoin
      · split
        · exact h.markFailed.aside.endRotation.aside
        · exact h.markFailed.aside.endRotation.aside
    · split
      · exact h.markFailed.aside.startJoin
      · exact h.markFailed.aside

@[simp] theorem Dev.Tidy.seqReport {src dst} (h : d.Tidy) : (seqReport src dst d).Tidy := by
  unfold Machine.seqReport
  split
  · exact h.aside.updGap
  · exact h

@[simp] theorem Dev.Tidy.planeHeartbeatMiss {plane group} (h : d.Tidy) : (planeHeartbeatMiss plane group d).Tidy := by
  unfold Machine.planeHeartbeatMiss
  split
  · exact h.cnt.wr.failPlane
  · exact h

@[simp] theorem Dev.Tidy.planeAuditMarker (h : d.Tidy) : (planeAuditMarker d).Tidy := h.foldl fun _ _ h => .ite h.failPlane h

@[simp] theorem Dev.Tidy.spareSyncDone (h : d.Tidy) : (spareSyncDone d).Tidy := by
  unfold Machine.spareSyncDone
  dsimp only
  split
  · exact h
  · split
    · split
      · exact h.setFlag.aside
      · exact h.setFlag.aside
      · exact h.setFlag
    · exact h

@[simp] theorem Dev.Tidy.spareBringupTimeout (h : d.Tidy) : (spareBringupTimeout d).Tidy := by
  unfold Machine.spareBringupTimeout
  dsimp only
  split
  · exact h
  · split
    · split
      · exact h.markFailed.aside.endRotation
      · exact h.markFailed.aside
    · exact h

@[simp] theorem Dev.Tidy.planeSelftest {plane pass} (h : d.Tidy) : (planeSelftest plane pass d).Tidy := by
  unfold Machine.planeSelftest
  dsimp only
  split
  · split
    · split
      · exact h.setBitOf.wr
      · exact h.setBitOf.wr.wr.setFlag
    · exact h.aside
  · exact h

theorem Dev.Tidy.startRotation {plane} (h : d.Tidy) : (d.startRotation plane).Tidy := by
  unfold Dev.startRotation
  dsimp only
  split
  · exact h.wr.log
  · exact h.wr.setFlag.aside.requestTokens

@[simp] theorem Dev.Tidy.rotationStart {master plane} (h : d.Tidy) : (rotationStart master plane d).Tidy := by
  unfold Machine.rotationStart
  dsimp only
  split
  · exact h.busWrite.wr.startRotation
  · exact h.busWrite

@[simp] theorem Dev.Tidy.rotationSchedule (h : d.Tidy) : (rotationSchedule d).Tidy := by
  unfold Machine.rotationSchedule
  dsimp only
  split
  · exact h.aside.startRotation
  · exact h

@[simp] theorem Dev.Tidy.rotationChangeover (h : d.Tidy) : (rotationChangeover d).Tidy := by
  unfold Machine.rotationChangeover
  split
  · split
    · split
      · exact h.setBitOf.planeJoin.aside
      · exact h
    · exact h
  · exact h

@[simp] theorem Dev.Tidy.rotationComplete (h : d.Tidy) : (rotationComplete d).Tidy := by
  unfold Machine.rotationComplete
  split
  · split
    · exact h.wr.setFlag.wr.setFlag.cnt.releaseTokens.endRotation
    · exact h
  · exact h

/-! #### Egress -/

theorem Dev.Tidy.recoverCopy {f c} (h : d.Tidy) : (d.recoverCopy f c).2.Tidy := by
  unfold Dev.recoverCopy
  dsimp only
  split
  · exact .ite h.cnt h
  · split
    · exact .ite h.cnt h
    · split
      · exact h.cnt
      · split
        · exact h.cnt
        · exact h.vectorRecover

theorem Dev.Tidy.step17 {f c} (h : d.Tidy) : (d.step17 f c).2.Tidy := by
  unfold Dev.step17
  split
  · exact h
  · split
    · exact h.sealReport
    · split
      · exact h.cnt
      · split
        · exact h
        · exact h.recoverCopy

theorem Dev.Tidy.wfqStart {n c} (h : d.Tidy) : (d.wfqStart n c).Tidy := by
  unfold Dev.wfqStart
  split
  · exact h
  · exact h.aside.setWfq

theorem Dev.Tidy.tsEntry {n f k po ago} (h : d.Tidy) : (d.tsEntry n f k po ago).Tidy := by
  unfold Dev.tsEntry
  dsimp only
  split
  · exact h.cnt
  · exact h.aside

theorem Dev.Tidy.countTx {n f c len} (h : d.Tidy) : (d.countTx n f c len).Tidy := by
  unfold Dev.countTx
  dsimp only
  split
  · split
    · split
      · exact h.cnt.cntBy.cnt.cntBy.cnt.cnt
      · exact h.cnt.cntBy.cnt.cntBy.cnt
    · split
      · exact h.cnt.cntBy.cnt.cntBy.cnt.cnt.cnt
      · exact h.cnt.cntBy.cnt.cntBy.cnt.cnt
  · split
    · split
      · exact h.cnt.cntBy.cnt.cntBy.cnt.cnt
      · exact h.cnt.cntBy.cnt.cntBy.cnt
    · split
      · exact h.cnt.cntBy.cnt.cntBy.cnt.cnt.cnt
      · exact h.cnt.cntBy.cnt.cntBy.cnt.cnt
  · split
    · split
      · exact h.cnt.cntBy.cnt.cntBy.cnt
      · exact h.cnt.cntBy.cnt.cntBy
    · split
      · exact h.cnt.cntBy.cnt.cntBy.cnt.cnt
      · exact h.cnt.cntBy.cnt.cntBy.cnt

theorem Dev.Tidy.installGates {n} (h : d.Tidy) : (d.installGates n).Tidy := .showGates (.ite h.setEgate h.setEgate)

theorem Dev.Tidy.applyOp {n} (h : d.Tidy) : (d.applyOp n).Tidy := by
  unfold Dev.applyOp
  dsimp only
  split
  · exact h
  · split
    · exact h
    · split
      · exact h
      · exact h.setEgate

@[simp] theorem Dev.Tidy.gateStateChange {port} (h : d.Tidy) : (gateStateChange port d).Tidy := by
  unfold Machine.gateStateChange
  split
  · exact h.portEvent.applyOp.showGates.wfqRefresh
  · exact h

@[simp] theorem Dev.Tidy.gateTakeover {port} (h : d.Tidy) : (gateTakeover port d).Tidy := by
  unfold Machine.gateTakeover
  split
  · split
    · exact h.portEvent.setEgate.cnt.applyOp.showGates.wfqRefresh
    · exact h
  · exact h

@[simp] theorem Dev.Tidy.cbsReachesZero {port cls} (h : d.Tidy) : (cbsReachesZero port cls d).Tidy := by
  unfold Machine.cbsReachesZero
  split
  · exact h.portEvent.wfqRefresh
  · exact h

@[simp] theorem Dev.Tidy.bucketReachesZero {port cls} (h : d.Tidy) : (bucketReachesZero port cls d).Tidy := by
  unfold Machine.bucketReachesZero
  split
  · exact h.portEvent.tbsCharge.wfqRefresh
  · exact h

theorem Dev.Tidy.cbsReset {n c} (h : d.Tidy) : (d.cbsReset n c).Tidy := h.aside

theorem Dev.Tidy.tbsReset {n c} (h : d.Tidy) : (d.tbsReset n c).Tidy := h.aside

/-! #### Modules -/

theorem Dev.Tidy.setCage {c s} (h : d.Tidy) : (d.setCage c s).Tidy := h.aside

theorem Dev.Tidy.checkCages (h : d.Tidy) : d.checkCages.Tidy := h.foldl fun _ _ h => .ite h.setFlag h

theorem Dev.Tidy.stepCage {c st} (h : d.Tidy) : (d.stepCage c st).Tidy := h.wr.setCage

theorem Dev.Tidy.resetPin {c high} (h : d.Tidy) : (d.resetPin c high).Tidy := h.out

theorem Dev.Tidy.resetModule {c} (h : d.Tidy) : (d.resetModule c).Tidy := h.stepCage.setCage.wr.resetPin

theorem Dev.Tidy.awaitReady {c start} (h : d.Tidy) : (d.awaitReady c start).Tidy := h.stepCage.setCage

theorem Dev.Tidy.clearOver {c} (h : d.Tidy) : (d.clearOver c).Tidy := h.aside

theorem Dev.Tidy.returnGrant {c} (h : d.Tidy) : (d.returnGrant c).Tidy := by
  unfold Dev.returnGrant
  split
  · exact h.wr.setFlag.wr
  · exact h

theorem Dev.Tidy.setPresent {c b} (h : d.Tidy) : (d.setPresent c b).Tidy := by
  unfold Dev.setPresent
  split
  · exact h.setFlag.setBitOf
  · exact h.setFlag.setBitOf

@[simp] theorem Dev.Tidy.moduleInsert {cage} (h : d.Tidy) : (moduleInsert cage d).Tidy := by
  unfold Machine.moduleInsert
  dsimp only
  split
  · exact h
  · split
    · exact h.setPresent.cnt.resetModule
    · exact h.setPresent.cnt

theorem Dev.Tidy.moduleStart (h : d.Tidy) : d.moduleStart.Tidy :=
  h.checkCages.foldl fun _ _ h => .ite (.ite h.resetModule h.awaitReady) h

theorem Dev.Tidy.readFail {c} (h : d.Tidy) : (d.readFail c).Tidy := h.stepCage

theorem Dev.Tidy.highPower {c} (h : d.Tidy) : (d.highPower c).Tidy := by
  unfold Dev.highPower
  dsimp only
  split
  · split
    · exact h.stepCage.out.out
    · exact h.stepCage.out
  · exact h.stepCage.out

theorem Dev.Tidy.setMbus {b s} (h : d.Tidy) : (d.setMbus b s).Tidy := h.aside

theorem Dev.Tidy.muxSelect {c ok} (h : d.Tidy) : (d.muxSelect c ok).1.Tidy := by
  unfold Dev.muxSelect
  dsimp only
  split
  · exact h
  · split
    · exact h.setMbus.out
    · exact h

theorem Dev.Tidy.busFail {c n} (h : d.Tidy) : (d.busFail c n).Tidy := .setMbus (.ite h.cnt.setMbus.out h.cnt)

@[simp] theorem Dev.Tidy.i2cTransaction {bus ok muxOk} (h : d.Tidy) : (i2cTransaction bus ok muxOk d).Tidy := by
  unfold Machine.i2cTransaction
  dsimp only
  split
  · exact h
  · split
    · exact h
    · split
      · exact h.setMbus.muxSelect
      · exact h.setMbus.muxSelect.busFail

theorem Dev.Tidy.busClear {c muxFail sdaLow} (h : d.Tidy) : (d.busClear c muxFail sdaLow).Tidy := by
  unfold Dev.busClear
  dsimp only
  split
  · exact h.setMbus.setFlag.setFlag.foldl fun _ _ h => .ite h.readFail h
  · split
    · exact h.setMbus.setFlag
    · exact h.setMbus.setFlag.readFail

@[simp] theorem Dev.Tidy.i2cRetry {bus ok muxOk sdaLow} (h : d.Tidy) : (i2cRetry bus ok muxOk sdaLow d).Tidy := by
  unfold Machine.i2cRetry
  dsimp only
  split
  · exact h
  · split
    · exact h
    · split
      · exact h.muxSelect.setMbus
      · split
        · exact h.muxSelect.busFail.busClear
        · exact h.muxSelect.busFail

@[simp] theorem Dev.Tidy.telemetryRead {cage} (h : d.Tidy) : (telemetryRead cage d).Tidy := by
  unfold Machine.telemetryRead
  split
  · exact h.setCage
  · exact h

/-! #### Tables -/

theorem Dev.Tidy.putEntry {tid i e} (h : d.Tidy) : (d.putEntry tid i e).Tidy := h.foldl fun _ _ h => h.setTabW

theorem Dev.Tidy.unblock {p x} (h : d.Tidy) : (d.unblock p x).Tidy := by
  unfold Dev.unblock
  split
  · exact h
  · exact h.aside.wr

theorem Dev.Tidy.writeSctx {p x e} (h : d.Tidy) : (d.writeSctx p x e).Tidy := by
  unfold Dev.writeSctx
  dsimp only
  split
  · exact .setSgate (.ite h.putEntry.unblock.aside h.putEntry.unblock)
  · split
    · split
      · exact h.putEntry.unblock.aside.installStream
      · exact h.putEntry.unblock.aside
    · split
      · exact h.putEntry.unblock.installStream
      · exact h.putEntry.unblock

theorem Dev.Tidy.writeEntry {tid i e} (h : d.Tidy) : (d.writeEntry tid i e).Tidy := by
  unfold Dev.writeEntry
  split
  · exact h.writeSctx
  · split
    · exact h.putEntry.aside
    · exact h.putEntry

theorem Dev.Tidy.removeStatic {fid mac stage} (h : d.Tidy) : (d.removeStatic fid mac stage).Tidy := by
  unfold Dev.removeStatic
  exact .ite (h.foldlFst fun _ _ h => h.deleteStatic) (.log (h.foldlFst fun _ _ h => h.deleteStatic))

theorem Dev.Tidy.placeStatic {key v stage e} (h : d.Tidy) (he : d.placeStatic key v stage = some e) : e.Tidy := by
  refine h.foldlBind (fun d p e h he => ?_) he
  split at he
  · exact h.stageStatic he
  · exact h.loadStatic he

theorem Dev.Tidy.refStatic {key v stage} (h : d.Tidy) : (d.refStatic key v stage).Tidy := by
  unfold Dev.refStatic
  split
  · exact h.aside
  · exact h.aside

theorem Dev.Tidy.recStatic {w del stage e} (h : d.Tidy) (he : d.recStatic w del stage = some e) : e.Tidy := by
  unfold Dev.recStatic at he
  dsimp only at he
  split at he
  · exact Option.some.inj he ▸ h.removeStatic.refStatic
  · split at he
    · cases he
    · obtain ⟨x, hx, rfl⟩ := Option.map_eq_some_iff.mp he
      exact (h.placeStatic hx).refStatic

theorem Dev.Tidy.setId {p s e} (h : d.Tidy) : (d.setId p s e).Tidy := h.aside

theorem Dev.Tidy.recId {p w del stage e} (h : d.Tidy) (he : d.recId p w del stage = some e) : e.Tidy := by
  unfold Dev.recId at he
  dsimp only at he
  split at he
  · exact Option.some.inj he ▸ h.foldl fun _ _ h => .ite h.setId h.setId
  · split at he
    · cases he
    · split at he
      · exact Option.some.inj he ▸ .setId (h.foldl fun _ _ h => .ite h.setId h.setId)
      · obtain ⟨s, -, rfl⟩ := Option.map_eq_some_iff.mp he
        exact .setId (h.foldl fun _ _ h => .ite h.setId h.setId)

theorem Dev.Tidy.recSeal {w del stage e} (h : d.Tidy) (he : d.recSeal w del stage = some e) : e.Tidy := by
  unfold Dev.recSeal at he
  dsimp only at he
  split at he
  · exact Option.some.inj he ▸ h.deleteCtx
  · split at he
    · cases he
    · split at he
      · exact h.stageCtx he
      · exact h.loadCtx he

theorem Dev.Tidy.commitIds (h : d.Tidy) : d.commitIds.Tidy := h.aside

theorem Dev.Tidy.unstageIds (h : d.Tidy) : d.unstageIds.Tidy := h.aside

theorem Dev.Tidy.latch {l} (h : d.Tidy) : (d.latch l).Tidy := h.aside

theorem Dev.Tidy.recKeyed {tid w del stage e} (h : d.Tidy) (he : d.recKeyed tid w del stage = some e) : e.Tidy := by
  unfold Dev.recKeyed at he
  split at he
  · exact h.recStatic he
  · split at he
    · exact h.recSeal he
    · exact h.recId he

theorem Dev.Tidy.keyedRecord {tid flags entries stage e} (h : d.Tidy) (he : d.keyedRecord tid flags entries stage = some e) :
    e.Tidy :=
  h.latch.foldlBind (fun _ _ _ h he => h.recKeyed he) he

theorem Dev.Tidy.loadBulk {tid flags entryWords res first entries e} (h : d.Tidy)
    (he : d.loadBulk tid flags entryWords res first entries = some e) : e.Tidy := by
  unfold Dev.loadBulk at he
  split at he
  · cases he
  · split at he
    · exact h.keyedRecord he
    · refine h.foldlBind (fun d x e h hx => ?_) he
      split at hx <;> cases hx
      exact h.writeEntry

/-! #### The audit -/

@[simp] theorem Dev.Tidy.auditCheck (h : d.Tidy) : (auditCheck d).Tidy := by
  unfold Machine.auditCheck
  split
  · exact h.aside.cnt
  · exact h

theorem Dev.Tidy.auditLog {t} (h : d.Tidy) : (d.auditLog t).Tidy := h.log

theorem Dev.Tidy.discrepancy {t} (h : d.Tidy) : (d.discrepancy t).Tidy := by
  unfold Dev.discrepancy
  dsimp only
  split
  · exact .auditLog (.aside (.alarm (.ite h.cnt h.cnt.setFlag.wr.wr.wr.wr)))
  · split
    · split
      · exact h.cnt.alarm.aside.auditLog
      · exact h.cnt.alarm
    · split
      · exact h.cnt.setFlag.wr.wr.wr.wr.alarm.aside.auditLog
      · exact h.cnt.setFlag.wr.wr.wr.wr.alarm

theorem Dev.Tidy.agrees {t} (h : d.Tidy) : (d.agrees t).Tidy := by
  unfold Dev.agrees
  split
  · exact h.aside.auditLog
  · exact h

@[simp] theorem Dev.Tidy.auditCompareDone (h : d.Tidy) : (auditCompareDone d).Tidy := by
  unfold Machine.auditCompareDone
  split
  · exact .setFlag (.wr (.aside (h.foldl fun _ _ h => .ite h.agrees h.discrepancy)))
  · exact h

/-! #### Power, clocks and resets -/

theorem Dev.Tidy.grant {q} (h : d.Tidy) : (d.grant q).Tidy := by
  unfold Dev.grant
  split
  · exact .wr (.foldl (.aside (h.foldl fun _ _ h => h.aside)) fun _ _ h => h.cnt)
  · exact .foldl (.aside (h.foldl fun _ _ h => h.aside)) fun _ _ h => h.cnt

theorem Dev.Tidy.passOver {q} (h : d.Tidy) : (d.passOver q).Tidy := .aside (h.foldl fun _ _ h => h.cnt)

@[simp] theorem Dev.Tidy.endFall {x} (h : d.Tidy) : (d.endFall x).Tidy := by
  unfold Dev.endFall
  dsimp only
  split
  · split
    · split
      · exact h.aside.wr.setFlag
      · exact h.aside.wr
    · exact h.aside
  · exact h

@[simp] theorem Dev.Tidy.tokenGrant (h : d.Tidy) : (tokenGrant d).Tidy := by
  unfold Machine.tokenGrant
  dsimp only
  split
  · exact .foldl (h.foldl fun _ _ h => h.endFall) fun _ _ h => .ite h.grant h.passOver
  · exact h.foldl fun _ _ h => h.endFall

@[simp] theorem Dev.Tidy.rampSlotEnd {holder} (h : d.Tidy) : (rampSlotEnd holder d).Tidy := by
  unfold Machine.rampSlotEnd
  split
  · split
    · split
      · exact h.aside
      · exact h.aside
    · exact h
  · exact h

@[simp] theorem Dev.Tidy.domainGood {x} (h : d.Tidy) : (domainGood x d).Tidy := by
  unfold Machine.domainGood
  dsimp only
  split
  · split
    · split
      · exact h.wr
      · exact h.wr.setFlag
    · split
      · exact h.wr.clusterRise
      · exact h.wr
  · exact h

@[simp] theorem Dev.Tidy.avsApplied {readVout} (h : d.Tidy) : (avsApplied readVout d).Tidy := by
  unfold Machine.avsApplied
  dsimp only
  split
  · exact h.setFlag
  · exact h

@[simp] theorem Dev.Tidy.refclkLoss (h : d.Tidy) : (refclkLoss d).Tidy := by
  unfold Machine.refclkLoss
  split
  · exact h
  · exact h.setFlag.cnt.log

@[simp] theorem Dev.Tidy.srefReturn {k} (h : d.Tidy) : (srefReturn k d).Tidy := by
  unfold Machine.srefReturn
  split
  · exact h
  · exact h.setBitOf.foldl fun _ _ h => .ite h.setFlag h

theorem Dev.Tidy.timeZero {sel mode} (h : d.Tidy) : (d.timeZero sel mode).Tidy := h.aside.wr.wr.setFlag

@[simp] theorem Dev.Tidy.pwrGoodRise {sel mode} (h : d.Tidy) : (pwrGoodRise sel mode d).Tidy := by
  unfold Machine.pwrGoodRise
  dsimp only
  split
  · exact h
  · split
    · exact h.aside
    · exact h.aside.timeZero

@[simp] theorem Dev.Tidy.porRelease {sel mode} (h : d.Tidy) : (porRelease sel mode d).Tidy := by
  unfold Machine.porRelease
  dsimp only
  split
  · split
    · exact h.aside.timeZero
    · exact h.aside
  · exact h

@[simp] theorem Dev.Tidy.pllLockDone (h : d.Tidy) : (pllLockDone d).Tidy := by
  unfold Machine.pllLockDone
  split
  · exact .wr (.out (.wr (h.aside.setFlag.setFlag.setFlag.setTb.foldl fun _ _ h => h.requestTokens)))
  · exact h

/-! #### Time bases and pins -/

theorem Dev.Tidy.setPair {q p} (h : d.Tidy) : Dev.Tidy { d with time := { d.time with pair := d.time.pair.set q p } } :=
  { h with pairs := List.length_set.trans h.pairs }

theorem Dev.Tidy.setPairD {q v} (h : d.Tidy) : (d.setPairD q v).Tidy := h.setPair.wrS.setFlag

theorem Dev.Tidy.pairSwitch {q} (h : d.Tidy) : (d.pairSwitch q).Tidy := h.setFlag.setPairD.cnt.alarm

theorem Dev.Tidy.pairEvent {t old new} (h : d.Tidy) : (d.pairEvent t old new).Tidy := by
  unfold Dev.pairEvent
  split
  · exact h
  · split
    · split
      · exact h.pairSwitch
      · exact h
    · split
      · exact h.pairSwitch
      · exact h

theorem Dev.Tidy.markStarts (h : d.Tidy) : d.markStarts.Tidy := h.foldl fun _ _ h => .ite h.aside h

theorem Dev.Tidy.enterState {t new} (h : d.Tidy) : (d.enterState t new).Tidy :=
  .markStarts (.pairEvent (.ite (.alarm (.ite h.wr.setFlag.setTb.wrS (.ite h.wr.setFlag.setTb.wrS.cnt
    (.ite h.wr.setFlag.setTb.setFlag h.wr.setFlag)))) (.ite h.wr.setFlag.setTb.wrS (.ite h.wr.setFlag.setTb.wrS.cnt
      (.ite h.wr.setFlag.setTb.setFlag h.wr.setFlag)))))

theorem Dev.Tidy.tioStep {t p0 p1} (h : d.Tidy) : (d.tioStep t p0 p1).Tidy := h.foldl fun _ _ h => .ite h.setFlag.cnt.aside h

/-- The equation of `stepTb` is read off from its definition at the level of functions, as for `Dev.path_stepTb`. -/
theorem Dev.Tidy.stepTb {t delta} (h : d.Tidy) : (d.stepTb t delta).Tidy := by
  have hdef : @Dev.stepTb = @Dev.stepTb := rfl
  conv_rhs at hdef => delta Dev.stepTb
  have heq := congrFun (congrFun (congrFun hdef d) t) delta
  dsimp only at heq
  rw [heq]
  generalize hx : Dev.cnt _ _ _ = e
  have he : e.Tidy := hx ▸ h.setTb.setFlag.cnt
  split
  · exact .ite he.setPairD he
  · exact he.tioStep

theorem Dev.Tidy.servoUpdate {t off tclk} (h : d.Tidy) : (d.servoUpdate t off tclk).Tidy := by
  unfold Dev.servoUpdate
  dsimp only
  split
  · split
    · exact h.setTb.wrS.setFlag.wrS
    · exact h.setTb.wrS.setFlag
  · split
    · exact h.setTb.wrS.setFlag.wrS
    · exact h.setTb.wrS.setFlag

theorem Dev.Tidy.advanceState {t off} (h : d.Tidy) : (d.advanceState t off).Tidy := by
  unfold Dev.advanceState
  dsimp only
  split
  · split
    · split
      · exact h.setTb.enterState
      · exact h.setTb
    · split
      · exact h.setTb.enterState
      · exact h.setTb
  · split
    · split
      · split
        · exact h.setTb.cnt.enterState
        · exact h.setTb
      · split
        · exact h.setTb.cnt.enterState
        · exact h.setTb
    · exact h

theorem Dev.Tidy.onSample {t off tclk} (h : d.Tidy) : (d.onSample t off tclk).Tidy := by
  unfold Dev.onSample
  dsimp only
  split
  · split
    · split
      · exact h.cnt.setTb.wrS.setTb.setTb.enterState.stepTb
      · exact h.cnt.setTb.wrS.setTb.setTb.enterState.servoUpdate.advanceState
    · split
      · exact h.cnt.setTb.wrS.setTb.enterState.stepTb
      · exact h.cnt.setTb.wrS.setTb.enterState.servoUpdate.advanceState
  · split
    · split
      · exact h.cnt.setTb.wrS.setTb.stepTb
      · exact h.cnt.setTb.wrS.setTb.servoUpdate.advanceState
    · split
      · exact h.cnt.setTb.wrS.stepTb
      · exact h.cnt.setTb.wrS.servoUpdate.advanceState

@[simp] theorem Dev.Tidy.offsetSample {t off tclk} (h : d.Tidy) : (offsetSample t off tclk d).Tidy := by
  unfold Machine.offsetSample
  split
  · exact h.onSample
  · exact h

@[simp] theorem Dev.Tidy.sourceLoss {t} (h : d.Tidy) : (sourceLoss t d).Tidy := by
  unfold Machine.sourceLoss
  dsimp only
  split
  · split
    · split
      · split
        · exact h.aside.enterState
        · split
          · exact h.aside.enterState
          · exact h.aside
      · split
        · exact h.enterState
        · split
          · exact h.enterState
          · exact h
    · exact h
  · split
    · split
      · split
        · split
          · exact h.aside.enterState
          · split
            · exact h.aside.enterState
            · exact h.aside
        · exact h
      · split
        · split
          · exact h.aside.enterState
          · split
            · exact h.aside.enterState
            · exact h.aside
        · exact h
    · split
      · split
        · exact h.enterState
        · split
          · exact h.enterState
          · exact h
      · exact h

@[simp] theorem Dev.Tidy.holdoverExpiry {t} (h : d.Tidy) : (holdoverExpiry t d).Tidy := by
  unfold Machine.holdoverExpiry
  split
  · exact h.enterState
  · exact h

@[simp] theorem Dev.Tidy.pairRevert {q} (h : d.Tidy) : (pairRevert q d).Tidy := by
  unfold Machine.pairRevert
  dsimp only
  split
  · exact h.pairSwitch
  · exact h

@[simp] theorem Dev.Tidy.pairSlew {q} (h : d.Tidy) : (pairSlew q d).Tidy := by
  unfold Machine.pairSlew
  exact .ite h.setPairD.setPair h

@[simp] theorem Dev.Tidy.tioEdge {i} (h : d.Tidy) : (tioEdge i d).Tidy := by
  unfold Machine.tioEdge
  dsimp only
  split
  · split
    · exact h.aside.out
    · exact h.aside
  · exact h

theorem Dev.Tidy.tioLate (h : d.Tidy) : d.tioLate.Tidy := h.foldl fun _ _ h => .ite h.setFlag.cnt.aside h

@[simp] theorem Dev.Tidy.tioCapture {i rising} (h : d.Tidy) : (tioCapture i rising d).Tidy := by
  unfold Machine.tioCapture
  dsimp only
  split
  · split
    · exact h.cnt.aside
    · exact h.setFlag.cnt
  · exact h

@[simp] theorem Dev.Tidy.tioCapRead {master i} (h : d.Tidy) : (tioCapRead master i d).Tidy := by
  unfold Machine.tioCapRead
  dsimp only
  split
  · split
    · exact h.busRead
    · exact h.busRead.aside.wr.wr.wr
  · exact h.busRead

@[simp] theorem Dev.Tidy.ppsEdge {rising tclk} (h : d.Tidy) : (ppsEdge rising tclk d).Tidy := by
  unfold Machine.ppsEdge
  split
  · exact h.aside.foldl fun _ _ h => .ite h.onSample h
  · exact h

@[simp] theorem Dev.Tidy.tclkLost (h : d.Tidy) : (tclkLost d).Tidy := h.aside.foldl fun _ _ h => h.setFlag

@[simp] theorem Dev.Tidy.tclkReturn (h : d.Tidy) : (tclkReturn d).Tidy := h.aside.foldl fun _ _ h => h.setFlag

@[simp] theorem Dev.Tidy.tbTimeRead {master t pres} (h : d.Tidy) : (tbTimeRead master t pres d).Tidy := by
  unfold Machine.tbTimeRead
  split
  · split
    · exact h.busRead.wr.wr
    · exact h.busRead.wr.wr
  · exact h

theorem Dev.Tidy.pairsCheck (h : d.Tidy) : d.pairsCheck.Tidy := h.foldl fun _ _ h => h.setFlag

/-! #### Effects of register writes -/

theorem Dev.Tidy.groupPower {g} (h : d.Tidy) : (d.groupPower g).Tidy := by
  unfold Dev.groupPower
  split
  · exact h.releaseTokens
  · exact h.requestTokens

theorem Dev.Tidy.showEnables (h : d.Tidy) : d.showEnables.Tidy := h.wr.wr

/-! #### Supervisors and monitoring -/

theorem Dev.Tidy.peersFollow (h : d.Tidy) : d.peersFollow.Tidy := h.setPeer.setPeer.setPeer

theorem Dev.Tidy.setRole {s r} (h : d.Tidy) : (d.setRole s r).Tidy :=
  .peersFollow (.ite (.wr (.ite h.wr h.wr.setFlag)) (.ite h.wr h.wr.setFlag))

theorem Dev.Tidy.heartbeat {s} (h : d.Tidy) : (d.heartbeat s).Tidy := by
  unfold Dev.heartbeat
  dsimp only
  split
  · exact h.aside.setFlag.out
  · exact h.aside

@[simp] theorem Dev.Tidy.heartbeatWrite {master sup value} (h : d.Tidy) : (heartbeatWrite master sup value d).Tidy := by
  unfold Machine.heartbeatWrite
  dsimp only
  split
  · exact h.busWrite.heartbeat
  · exact h.busWrite

theorem Dev.Tidy.beginTakeover {cause} (h : d.Tidy) : (d.beginTakeover cause).Tidy := by
  unfold Dev.beginTakeover
  split
  · split
    · exact h.aside.setFlag
    · exact h
  · exact h

theorem Dev.Tidy.abandonTakeover {s} (h : d.Tidy) : (d.abandonTakeover s).Tidy := by
  unfold Dev.abandonTakeover
  split
  · split
    · exact h.aside.setFlag
    · exact h
  · exact h

theorem Dev.Tidy.failSup {s cause} (h : d.Tidy) : (d.failSup s cause).Tidy := by
  unfold Dev.failSup
  dsimp only
  split
  · exact .beginTakeover (.log (.alarm (.ite h.aside.wr.wr.cnt.setRole h.aside.wr.wr.cnt.setFlag.setRole.releaseTokens)))
  · exact .abandonTakeover (.log (.alarm (.ite h.aside.wr.wr.cnt.setRole h.aside.wr.wr.cnt.setFlag.setRole.releaseTokens)))

@[simp] theorem Dev.Tidy.heartbeatMiss {s} (h : d.Tidy) : (heartbeatMiss s d).Tidy := by
  unfold Machine.heartbeatMiss
  split
  · exact h.failSup
  · exact h

theorem Dev.Tidy.finishTakeover {t} (h : d.Tidy) : (d.finishTakeover t).Tidy := h.aside.setFlag.setRole.heartbeat.cnt.logFrom

theorem Dev.Tidy.checkpoint (h : d.Tidy) : d.checkpoint.Tidy := h.aside.cnt

@[simp] theorem Dev.Tidy.checkpointWrite {ok} (h : d.Tidy) : (checkpointWrite ok d).Tidy := by
  unfold Machine.checkpointWrite
  split
  · split
    · exact h.checkpoint
    · exact h.aside
  · exact h

theorem Dev.Tidy.loadCkpt {b c} (h : d.Tidy) : (d.loadCkpt b c).Tidy := h.aside.setFlag

@[simp] theorem Dev.Tidy.checkpointLoad {slot} (h : d.Tidy) : (checkpointLoad slot d).Tidy := by
  unfold Machine.checkpointLoad
  split
  · split
    · exact h.loadCkpt
    · exact h
  · exact h

@[simp] theorem Dev.Tidy.readyLapse (h : d.Tidy) : (readyLapse d).Tidy := by
  unfold Machine.readyLapse
  split
  · split
    · exact h.setFlag
    · exact h
  · exact h

@[simp] theorem Dev.Tidy.supervisorRestart {s copyOk} (h : d.Tidy) : (supervisorRestart s copyOk d).Tidy := by
  unfold Machine.supervisorRestart
  split
  · exact h.aside.setRole
  · exact h

@[simp] theorem Dev.Tidy.resyncDone (h : d.Tidy) : (resyncDone d).Tidy := by
  unfold Machine.resyncDone
  split
  · exact h.setRole.loadCkpt
  · exact h

theorem Dev.Tidy.forcedSwitch (h : d.Tidy) : d.forcedSwitch.Tidy := by
  unfold Dev.forcedSwitch
  split
  · split
    · refine .beginTakeover (.cnt (.setRole (.wr ?_)))
      split
      · exact h.checkpoint.loadCkpt
      · exact h.checkpoint
    · exact h
  · exact h

@[simp] theorem Dev.Tidy.switchWrite {master} (h : d.Tidy) : (switchWrite master d).Tidy := by
  unfold Machine.switchWrite
  dsimp only
  split
  · exact h.busWrite.forcedSwitch
  · exact h.busWrite

@[simp] theorem Dev.Tidy.watchdogExpiry (h : d.Tidy) : (watchdogExpiry d).Tidy := by
  unfold Machine.watchdogExpiry
  split
  · exact h.setFlag.out
  · exact h

theorem Dev.Tidy.warnSet {bit sensor v} (h : d.Tidy) : (d.warnSet bit sensor v).Tidy := h.alarm.cnt.log

theorem Dev.Tidy.warnFollow {f bit warn l} (h : d.Tidy) : (d.warnFollow f bit warn l).Tidy := by
  unfold Dev.warnFollow
  split
  · exact h.setFlag
  · split
    · split
      · exact h
      · exact h.setFlag.warnSet
    · split
      · exact h.setFlag
      · exact h

theorem Dev.Tidy.thermStatus (h : d.Tidy) : d.thermStatus.Tidy := by
  unfold Dev.thermStatus
  refine .warnFollow ?_
  split
  · exact h.wr.wrS
  · exact h

theorem Dev.Tidy.hbmStatus (h : d.Tidy) : d.hbmStatus.Tidy := h.warnFollow

theorem Dev.Tidy.dieSample {i r} (h : d.Tidy) : (d.dieSample i r).Tidy := by
  unfold Dev.dieSample
  split
  · exact h.setFlag.setFlag.aside.alarm.thermStatus
  · exact h.setFlag.setFlag.wrS.aside.thermStatus

theorem Dev.Tidy.hbmSample {i r} (h : d.Tidy) : (d.hbmSample i r).Tidy := by
  unfold Dev.hbmSample
  split
  · exact h.setFlag.setFlag.alarm.hbmStatus
  · exact h.setFlag.setFlag.wrS.hbmStatus

theorem Dev.Tidy.vmonSample {i r} (h : d.Tidy) : (d.vmonSample i r).Tidy := by
  unfold Dev.vmonSample
  dsimp only
  split
  · exact h
  · split
    · exact h.wr.aside
    · split
      · exact h.wr.aside.setFlag
      · exact h.wr.aside

@[simp] theorem Dev.Tidy.sensorSample {sensor r} (h : d.Tidy) : (sensorSample sensor r d).Tidy := by
  unfold Machine.sensorSample
  split
  · exact h.dieSample
  · split
    · exact h.hbmSample
    · split
      · exact h.vmonSample
      · exact h

@[simp] theorem Dev.Tidy.thermalShutdown (h : d.Tidy) : (thermalShutdown d).Tidy := by
  unfold Machine.thermalShutdown
  split
  · exact h
  · exact h.setFlag.wr.wr.aside

@[simp] theorem Dev.Tidy.vmonOut {i} (h : d.Tidy) : (vmonOut i d).Tidy := by
  unfold Machine.vmonOut
  split
  · exact h.setFlag.alarm.cnt.log
  · exact h

theorem Dev.Tidy.pmbusFail {rail} (h : d.Tidy) : (d.pmbusFail rail).Tidy := by
  unfold Dev.pmbusFail
  dsimp only
  split
  · exact h.aside
  · exact h.aside.setFlag.log

@[simp] theorem Dev.Tidy.railRead {rail r} (h : d.Tidy) : (railRead rail r d).Tidy := by
  unfold Machine.railRead
  dsimp only
  split
  · exact h
  · split
    · exact h.wr.setFlag.aside
    · split
      · exact h.pmbusFail.setFlag
      · exact h.pmbusFail

@[simp] theorem Dev.Tidy.regulatorAlert {status} (h : d.Tidy) : (regulatorAlert status d).Tidy := by
  unfold Machine.regulatorAlert
  split
  · exact h.foldl fun _ _ h => .ite h h.logFrom
  · exact h

theorem Dev.Tidy.pmcAdd {s k n} (h : d.Tidy) : (d.pmcAdd s k n).Tidy := by
  unfold Dev.pmcAdd
  dsimp only
  split
  · exact h.aside
  · exact h.aside.setFlag

@[simp] theorem Dev.Tidy.pmcEvent {sup event count} (h : d.Tidy) : (pmcEvent sup event count d).Tidy := by
  unfold Machine.pmcEvent
  split
  · exact h.foldl fun _ _ h => .ite h.pmcAdd h
  · exact h

@[simp] theorem Dev.Tidy.pmcClear {master sup k} (h : d.Tidy) : (pmcClear master sup k d).Tidy := by
  unfold Machine.pmcClear
  dsimp only
  split
  · exact h.busWrite.aside
  · exact h.busWrite

@[simp] theorem Dev.Tidy.pmcRead {master sup k} (h : d.Tidy) : (pmcRead master sup k d).Tidy := by
  unfold Machine.pmcRead
  dsimp only
  split
  · exact h.busRead.wr
  · exact h.busRead

/-! #### The host bus -/

theorem Dev.Tidy.setMbBytes {m b} (h : d.Tidy) : (d.setMbBytes m b).Tidy := h.foldl fun _ _ h => h.wr

theorem Dev.Tidy.postMb {m master} (h : d.Tidy) : (d.postMb m master).Tidy := by
  unfold Dev.postMb
  split
  · exact h.wr.wr.setFlag.irq
  · exact h.wr.wr.setFlag

theorem Dev.Tidy.writeStage {m ws} (h : d.Tidy) : (d.writeStage m ws).Tidy := h.foldl fun _ _ h => .ite h.aside h

@[simp] theorem Dev.Tidy.mbSubmit {master mb writes} (h : d.Tidy) : (mbSubmit master mb writes d).Tidy := by
  unfold Machine.mbSubmit
  dsimp only
  split
  · split
    · split
      · exact h.writeStage.becCount.out
      · exact h.writeStage.setMbBytes.postMb.setFlag.wr.busRead
    · exact h
  · exact h.busRead

theorem Dev.Tidy.fullError {m a v} (h : d.Tidy) : (d.fullError m a v).Tidy := by
  unfold Dev.fullError
  split
  · exact h.out
  · exact h

@[simp] theorem Dev.Tidy.mbPost {master mb} (h : d.Tidy) : (mbPost master mb d).Tidy := by
  unfold Machine.mbPost
  dsimp only
  split
  · exact h.fullError.busWrite.postMb
  · exact h.fullError.busWrite

theorem Dev.Tidy.setChan {ch c} (h : d.Tidy) : (d.setChan ch c).Tidy := h.aside

theorem Dev.Tidy.releaseMb {m} (h : d.Tidy) : (d.releaseMb m).Tidy := by
  unfold Dev.releaseMb
  extract_lets e
  have he : e.Tidy := h.setFlag
  clear_value e
  split
  · exact .ite he he.setChan.setMbBytes.postMb
  · exact he

@[simp] theorem Dev.Tidy.mbRelease {master mb} (h : d.Tidy) : (mbRelease master mb d).Tidy := by
  unfold Machine.mbRelease
  dsimp only
  split
  · exact h.busWrite.releaseMb
  · exact h.busWrite

theorem Dev.Tidy.setChallenge {b} (h : d.Tidy) : (d.setChallenge b).Tidy := h.foldl fun _ _ h => h.wr

@[simp] theorem Dev.Tidy.challengeRead {master word} (h : d.Tidy) : (challengeRead master word d).Tidy :=
  .busRead (.ite h.freeNat.aside.setChallenge h)

theorem Dev.Tidy.checkDebug (h : d.Tidy) : d.checkDebug.Tidy := by
  unfold Dev.checkDebug
  split
  · exact h.setFlag.setPeer.log
  · exact h.aside.setChallenge.log

@[simp] theorem Dev.Tidy.debugCheck {master} (h : d.Tidy) : (debugCheck master d).Tidy := by
  unfold Machine.debugCheck
  dsimp only
  split
  · exact h.busWrite.checkDebug
  · exact h.busWrite

theorem Dev.Tidy.lockDebug (h : d.Tidy) : d.lockDebug.Tidy := h.setFlag.setPeer

@[simp] theorem Dev.Tidy.debugLock {master} (h : d.Tidy) : (debugLock master d).Tidy := by
  unfold Machine.debugLock
  dsimp only
  split
  · exact h.busWrite.lockDebug
  · exact h.busWrite

@[simp] theorem Dev.Tidy.blockExpiry (h : d.Tidy) : (blockExpiry d).Tidy := by
  unfold Machine.blockExpiry
  split
  · split
    · exact h.aside
    · exact h
  · exact h

theorem Dev.Tidy.becCmd {k v} (h : d.Tidy) : (d.becCmd k v).Tidy := by
  unfold Dev.becCmd
  dsimp only
  split
  · exact .setFlag (.ite h.aside h)
  · split
    · exact h.aside
    · exact h

@[simp] theorem Dev.Tidy.becWrite {master k v} (h : d.Tidy) : (d.becWrite master k v).Tidy := by
  unfold Dev.becWrite
  split
  · exact .becCount (.ite h.becCmd h)
  · exact h

@[simp] theorem Dev.Tidy.becRead {master k} (h : d.Tidy) : (becRead master k d).Tidy := by
  unfold Machine.becRead
  split
  · exact h.busRead.wr
  · exact h.busRead

theorem Dev.Tidy.putCtr {k v} (h : d.Tidy) : Dev.Tidy { d with ctrs := tput d.ctrs 0 k v } :=
  { h with counts := twf_tput d.ctrs k v (fun _ => 0) h.counts }

theorem Dev.Tidy.putOvf {k v} (h : d.Tidy) : Dev.Tidy { d with ctrOvf := tput d.ctrOvf false k v } :=
  { h with overflows := twf_tput d.ctrOvf k v (fun _ => false) h.overflows }

theorem Dev.Tidy.reamCmd {w v} (h : d.Tidy) : (d.reamCmd w v).Tidy := by
  unfold Dev.reamCmd
  split
  · exact h
  · exact .ite (.putOvf (.ite h.putCtr h)) (.ite h.putCtr h)

@[simp] theorem Dev.Tidy.reamWrite {master w v} (h : d.Tidy) : (d.reamWrite master w v).Tidy := by
  unfold Dev.reamWrite
  dsimp only
  split
  · exact h.busWrite.reamCmd
  · exact h.busWrite

@[simp] theorem Dev.Tidy.reamRead {master w} (h : d.Tidy) : (reamRead master w d).Tidy := by
  unfold Machine.reamRead
  dsimp only
  split
  · exact h.busReadW.wr.setFlag.setFlag
  · exact h.busReadW

@[simp] theorem Dev.Tidy.amdSeqRead {master} (h : d.Tidy) : (amdSeqRead master d).Tidy := by
  unfold Machine.amdSeqRead
  split
  · exact h.busRead.wr
  · exact h.busRead

/-! #### Register writes -/

theorem Dev.Tidy.commandBits {m a v} (h : d.Tidy) : (d.commandBits m a v).Tidy := by
  unfold Dev.commandBits
  dsimp only
  split
  · exact h
  · split
    · split
      · exact h.readStore
      · exact h
    · split
      · exact h.startRotation
      · exact h
    · split
      · exact h.forcedSwitch
      · exact h
    · split
      · exact h.clearLog
      · exact h
    · split
      · exact h.submit
      · exact h
    · split
      · exact h.heartbeat
      · exact h
    · exact h.aside
    · split
      · exact .lockDebug (.ite h.checkDebug h)
      · split
        · exact h.checkDebug
        · exact h
    · split
      · exact .releaseMb (.ite h.postMb h)
      · split
        · exact h.postMb
        · exact h
    · split
      · exact h.reamCmd
      · exact h
    · exact h

theorem Dev.Tidy.hwSetActs {a old hw} (h : d.Tidy) : (d.hwSetActs a old hw).Tidy := by
  unfold Dev.hwSetActs
  split
  · split
    · exact h
    · exact h.irq
  · split
    · exact h.foldl fun _ _ h => .ite h.out h
    · exact h

theorem Dev.Tidy.auditReport {a ref found repaired} (h : d.Tidy) : (d.auditReport a ref found repaired).Tidy :=
  h.logFrom.cnt.alarm

theorem Dev.Tidy.auditTab {k} (h : d.Tidy) : (d.auditTab k (tabReset k)).Tidy := by
  have hput : ∀ w, Dev.Tidy { d with tabs := tput d.tabs (tabReset k) k w } := fun w =>
    { h with entries := twf_tput _ _ _ _ h.entries }
  unfold Dev.auditTab
  exact .ite h (.ite (hput _).cnt.auditReport h.auditReport)

/-! #### The live switch -/

theorem Dev.Tidy.readActs {m a} (h : d.Tidy) : (d.readActs m a).Tidy := by
  unfold Dev.readActs
  split
  · exact h.busReadW
  · split
    · exact h.tioCapRead
    · exact h.tbTimeRead
    · exact h.tbTimeRead
    · exact h.pmcRead
    · exact h.becRead
    · exact h.reamRead
    · exact h.amdSeqRead
    · exact h.busReadW

/-! #### Requests -/

theorem Dev.Tidy.takeRequest {ch} (h : d.Tidy) : (d.takeRequest ch).Tidy := by
  unfold Dev.takeRequest
  dsimp only
  split
  · split
    · exact h.setFlag.setChan.aside
    · exact h.setFlag.setChan
  · split
    · exact h.setChan.aside
    · exact h.setChan

theorem Dev.Tidy.postReply {ch m msg} (h : d.Tidy) : (d.postReply ch m msg).Tidy := by
  unfold Dev.postReply
  split
  · split
    · exact h.setChan
    · exact h.setMbBytes.postMb
  · exact h.setChan

theorem Dev.Tidy.openExchange {ch q} (h : d.Tidy) : (d.openExchange ch q).Tidy := h.setChan

theorem Dev.Tidy.flushReplies (h : d.Tidy) : d.flushReplies.Tidy := h.foldl fun _ _ h => .ite h h.setChan.postReply

theorem Dev.Tidy.abandonExchange {ch} (h : d.Tidy) : (d.abandonExchange ch).Tidy := by
  unfold Dev.abandonExchange
  dsimp only
  split
  · exact h.aside.setChan.setFlag
  · exact h.aside.setChan

theorem Dev.Tidy.infoBytes (h : d.Tidy) : d.infoBytes.2.Tidy := by
  unfold Dev.infoBytes
  dsimp only
  split
  · exact h
  · exact h.freeNat

theorem Dev.Tidy.readAll {m as_} (h : d.Tidy) : (d.readAll m as_).2.Tidy :=
  .foldlSnd (a := ([], d)) h fun _ _ h => h.readActs

@[simp] theorem Dev.Tidy.nonceExpiry {chan} (h : d.Tidy) : (nonceExpiry chan d).Tidy := by
  unfold Machine.nonceExpiry
  split
  · split
    · exact h
    · exact h.setChan
  · exact h

theorem Dev.Tidy.blowFuses {b} (h : d.Tidy) : (d.blowFuses b).Tidy := h.aside.wr.wr.setFlag

theorem Dev.Tidy.dropSupFrame {i f} (h : d.Tidy) : (d.dropSupFrame i f).Tidy := h.aside.supGive

theorem Dev.Tidy.hostUp (h : d.Tidy) : d.hostUp.Tidy := h.setPeer

@[simp] theorem Dev.Tidy.pcieDown (h : d.Tidy) : (pcieDown d).Tidy := h.aside.hostUp

@[simp] theorem Dev.Tidy.pcieUp (h : d.Tidy) : (pcieUp d).Tidy := h.aside.hostUp

/-! #### Start-up -/

theorem Dev.Tidy.setResult {nv code} (h : d.Tidy) : (d.setResult nv code).Tidy := h.wr

theorem Dev.Tidy.shutdownRecord (h : d.Tidy) : d.shutdownRecord.Tidy := by
  unfold Dev.shutdownRecord
  split
  · exact h.logFrom.setFlag
  · exact h

theorem Dev.Tidy.startSups (h : d.Tidy) : d.startSups.Tidy := .shutdownRecord (.setRole (.ite h.aside h.aside.setRole))

theorem Dev.Tidy.powerHbm (h : d.Tidy) : d.powerHbm.Tidy := h.requestTokens.requestTokens

theorem Dev.Tidy.enterRecovery (h : d.Tidy) : d.enterRecovery.Tidy := h.aside.wr.wr.startSups.powerHbm

theorem Dev.Tidy.showJournal (h : d.Tidy) : d.showJournal.Tidy := h.wr

@[simp] theorem Dev.Tidy.nvmDiscovery (h : d.Tidy) : (nvmDiscovery d).Tidy := by
  unfold Machine.nvmDiscovery
  dsimp only
  split
  · split
    · exact h.aside.showJournal.wr.enterRecovery
    · exact h.aside.showJournal.wr
  · exact h

theorem Dev.Tidy.resetReg {a} (h : d.Tidy) : (d.resetReg a).Tidy := by
  unfold Dev.resetReg
  split
  · exact h
  · split
    · exact h
    · split
      · exact h.setReg
      · exact h.setReg

theorem Dev.Tidy.restartSup {s} (h : d.Tidy) : (d.restartSup s).Tidy := by
  unfold Dev.restartSup
  split
  · exact h
  · exact h.setRole

theorem Dev.Tidy.clearTables {supv host boot strm deck beat look} (h : d.Tidy) (hstore : beat.store = [] := by rfl)
    (hslots : look.slots = [] := by rfl) :
    Dev.Tidy { d with
      tabs := [], supv := supv, host := host, boot := boot, strm := strm, deck := deck, beat := beat, look := look } :=
  { h with entries := rfl, words := hstore ▸ rfl, addresses := hslots ▸ rfl }

theorem Dev.Tidy.configReset (h : d.Tidy) : d.configReset.Tidy :=
  .checkSeal (.foldl (.pairsCheck (.checkCages (.showEnables (.setFlag (.restartSup (.restartSup (.clearTables
    (h.foldl fun _ _ h => h.resetReg)))))))) fun _ _ h => h.ptpCheck)

theorem Dev.Tidy.failCandidate {nv code} (h : d.Tidy) : (d.failCandidate nv code).Tidy := h.configReset.setResult.aside.wr

@[simp] theorem Dev.Tidy.headerCheck (h : d.Tidy) : (headerCheck d).Tidy := by
  unfold Machine.headerCheck
  dsimp only
  split
  · split
    · exact h.enterRecovery
    · split
      · split
        · exact h.failCandidate
        · exact h.aside.wr
      · split
        · exact h.failCandidate
        · exact h.aside.wr
  · exact h

theorem Dev.Tidy.setCand {l} (h : d.Tidy) : (d.setCand l).Tidy := h.aside

theorem Dev.Tidy.finishLoad {l} (h : d.Tidy) : (d.finishLoad l).Tidy := by
  unfold Dev.finishLoad
  split
  · exact h.failCandidate
  · exact h.setResult.wr.aside.wr.powerHbm

theorem Dev.Tidy.nextSection {l} (h : d.Tidy) : (d.nextSection l).Tidy := by
  unfold Dev.nextSection
  split
  · exact h.setCand
  · exact h.finishLoad

@[simp] theorem Dev.Tidy.firmwareLoad (h : d.Tidy) : (firmwareLoad d).Tidy := by
  unfold Machine.firmwareLoad
  dsimp only
  split
  · split
    · exact h
    · split
      · exact h.failCandidate
      · split
        · exact h.failCandidate
        · exact .nextSection (.ite h h.startSups)
  · exact h

@[simp] theorem Dev.Tidy.sectionCheck (h : d.Tidy) : (sectionCheck d).Tidy := by
  unfold Machine.sectionCheck
  dsimp only
  split
  · split
    · exact h
    · split
      · exact h.failCandidate
      · split
        · exact h.nextSection
        · split
          · exact h.failCandidate
          · exact h
  · exact h

theorem Dev.Tidy.applyKey {slot kind res nonce key tag} (h : d.Tidy) : (d.applyKey slot kind res nonce key tag).Tidy := by
  unfold Dev.applyKey
  split
  · exact h.aside
  · exact h.writeKey

theorem Dev.Tidy.writeWords {p halves first words} (h : d.Tidy) : (d.writeWords p halves first words).Tidy :=
  h.foldl fun _ _ h => h.foldl fun _ _ h => h.writeStore

theorem Dev.Tidy.loadStore {pipes first words} (h : d.Tidy) : (d.loadStore pipes first words).Tidy :=
  .aside (h.foldl fun _ _ h => h.writeWords)

theorem Dev.Tidy.stackUp {s} (h : d.Tidy) : (d.stackUp s).Tidy := by
  unfold Dev.stackUp
  dsimp only
  split
  · exact .wr (.wr (.aside (h.setFlag.foldl fun _ _ h => h.setVatHalf.wr)))
  · exact h.setFlag.foldl fun _ _ h => h.setVatHalf.wr

theorem Dev.Tidy.releaseTime (h : d.Tidy) : d.releaseTime.Tidy :=
  .tioLate (.aside (h.foldl fun _ _ h => h.setTb.wr.setFlag.setFlag.wr.wr))

theorem Dev.Tidy.releaseStores (h : d.Tidy) : d.releaseStores.Tidy :=
  .foldl (h.foldl fun _ _ h => h.wr) fun _ _ h => h.copiesFollow

theorem Dev.Tidy.releaseGates (h : d.Tidy) : d.releaseGates.Tidy :=
  .foldl (h.foldl fun _ _ h => .ite h.installGates h) fun _ _ h => h.foldl fun _ _ h => .ite h.installStream h

theorem Dev.Tidy.releasePower (h : d.Tidy) : d.releasePower.Tidy :=
  .foldl (h.foldl fun _ _ h => .ite h h.groupPower) fun _ _ h => .ite h.requestTokens h

@[simp] theorem Dev.Tidy.fuseAdvance (h : d.Tidy) : (fuseAdvance d).Tidy := by
  unfold Machine.fuseAdvance
  split
  · split
    · exact h.aside.wr
    · exact h
  · exact h

@[simp] theorem Dev.Tidy.supMachineCheck {s} (h : d.Tidy) : (supMachineCheck s d).Tidy := by
  unfold Machine.supMachineCheck
  split
  · exact h.failSup
  · split
    · split
      · exact h.failSup.aside
      · exact h.failSup
    · exact h

/-! #### Amendments -/

theorem Dev.Tidy.rejectAmd {code origin seq} (h : d.Tidy) : (d.rejectAmd code origin seq).Tidy := h.wr.logFrom

theorem Dev.Tidy.appendEntry {seq bytes} (h : d.Tidy) : (d.appendEntry seq bytes).Tidy := h.foldl fun _ _ h => h.setNvm

theorem Dev.Tidy.markEntry {nv seq f} (h : d.Tidy) : (d.markEntry nv seq f).Tidy := by
  unfold Dev.markEntry
  split
  · exact h.setNvm
  · exact h

theorem Dev.Tidy.dropAmd {seq} (h : d.Tidy) : (d.dropAmd seq).Tidy := h.aside

theorem Dev.Tidy.setPhase {f p} (h : d.Tidy) : (d.setPhase f p).Tidy := h.aside

theorem Dev.Tidy.showDegraded {good} (h : d.Tidy) : (d.showDegraded good).Tidy := by
  unfold Dev.showDegraded
  dsimp only
  split
  · exact h.setFlag.logFrom
  · exact h.setFlag

theorem Dev.Tidy.overlay {r} (h : d.Tidy) : (d.overlay r).Tidy := by
  unfold Dev.overlay
  split
  · split
    · exact h.setReg
    · exact h
  · split
    · exact h
    · exact h.foldl fun _ _ h => h.putEntry
  · exact h

theorem Dev.Tidy.next (h : d.Tidy) : d.next.Tidy := h.foldl fun _ _ h => h.overlay

theorem Dev.Tidy.addShadow {r} (h : d.Tidy) : (d.addShadow r).Tidy := h.aside

theorem Dev.Tidy.filterStore {beat} {k : Nat × Nat → Bool} (h : d.Tidy)
    (hstore : beat.store = d.beat.store.filter k := by rfl) : Dev.Tidy { d with beat := beat } :=
  { h with words := hstore ▸ twf_filter k h.words }

theorem Dev.Tidy.copyHalf {p} (h : d.Tidy) : (d.copyHalf p).Tidy :=
  .foldl (.foldl h.filterStore fun _ _ h => h.writeStore) fun _ _ h => h.flipWord

theorem Dev.Tidy.stageWords {p first words} (h : d.Tidy) : (d.stageWords p first words).Tidy := h.writeWords

theorem Dev.Tidy.stageReg {a m v e} (h : d.Tidy) (he : d.stageReg a m v = some e) : e.Tidy := by
  unfold Dev.stageReg at he
  dsimp only at he
  split at he
  · cases he
  · split at he
    · cases he
    · split at he <;> cases he
      exact h.becCount

theorem Dev.Tidy.stageKeyed {tid flags es e} (h : d.Tidy) (he : d.stageKeyed tid flags es = some e) : e.Tidy := by
  obtain ⟨x, hx, rfl⟩ := Option.map_eq_some_iff.mp he
  exact Dev.Tidy.foldl { h.next.keyedRecord hx with entries := h.entries } fun _ _ h => h.setReg

theorem Dev.Tidy.stageBulk {tid flags entryWords res first es e} (h : d.Tidy)
    (he : d.stageBulk tid flags entryWords res first es = some e) : e.Tidy := by
  unfold Dev.stageBulk at he
  dsimp only at he
  split at he
  · cases he
  · split at he
    · exact h.stageKeyed he
    · split at he <;> cases he
      exact h

theorem Dev.Tidy.stageStore {pipes first words} (h : d.Tidy) : (d.stageStore pipes first words).Tidy :=
  h.foldl fun _ _ h => .stageWords (.ite h h.copyHalf)

theorem Dev.Tidy.stageRec {r e} (h : d.Tidy) (he : d.stageRec r = some e) : e.Tidy := by
  obtain ⟨x, hx, rfl⟩ := Option.map_eq_some_iff.mp he
  refine Dev.Tidy.addShadow ?_
  cases r with
  | reg => exact h.stageReg hx
  | bulk => exact h.stageBulk hx
  | key =>
    dsimp only at hx
    split at hx <;> cases hx
    exact h
  | store =>
    dsimp only at hx
    split at hx <;> cases hx
    exact h.stageStore

theorem Dev.Tidy.stageAll {rs e} (h : d.Tidy) (he : d.stageAll rs = some e) : e.Tidy :=
  h.foldlBind (fun _ _ _ h he => h.stageRec he) he

theorem Dev.Tidy.abandonAmd {seq} (h : d.Tidy) : (d.abandonAmd seq).Tidy :=
  .logFrom (.wr (.dropAmd (h.foldl fun _ _ h => h.markEntry)))

@[simp] theorem Dev.Tidy.amendmentStage (h : d.Tidy) : (amendmentStage d).Tidy := by
  unfold Machine.amendmentStage
  split
  · split
    · exact h
    · split
      · exact h.abandonAmd
      next he => exact (h.stageAll he).setPhase.setFlag.aside
  · exact h

@[simp] theorem Dev.Tidy.stagingComplete (h : d.Tidy) : (stagingComplete d).Tidy := by
  unfold Machine.stagingComplete
  split
  · exact h
  · split
    · exact h
    · exact h.aside

theorem Dev.Tidy.policerFull {ix} (h : d.Tidy) : (d.policerFull ix).Tidy := h.aside

theorem Dev.Tidy.shaperChanged {a old} (h : d.Tidy) : (d.shaperChanged a old).Tidy := by
  unfold Dev.shaperChanged
  dsimp only
  split
  · exact h
  · split
    · exact h.cbsReset
    · exact h.cbsReset
    · exact h.tbsReset
    · exact h.tbsReset
    · exact h.policerFull
    · split
      · exact h
      · exact h.policerFull
    · exact h

theorem Dev.Tidy.commitReg {r} (h : d.Tidy) : (d.commitReg r).Tidy := by
  unfold Dev.commitReg
  split
  · split
    · exact h
    · split
      · split
        · exact h.setReg.setFlag
        · exact h.setReg
      · exact h.setReg
  · exact h

theorem Dev.Tidy.commitKey {r} (h : d.Tidy) : (d.commitKey r).Tidy := by
  unfold Dev.commitKey
  split
  · exact h.applyKey
  · exact h

theorem Dev.Tidy.flipHalf {p} (h : d.Tidy) : (d.flipHalf p).Tidy := h.aside

theorem Dev.Tidy.refNext (h : d.Tidy) : d.refNext.Tidy := h.aside

theorem Dev.Tidy.cleanUp (h : d.Tidy) : d.cleanUp.Tidy :=
  .wr (.aside (h.cleanStatic.foldl fun _ _ h => h.foldl fun _ _ h => h.markEntry))

@[simp] theorem Dev.Tidy.cleanupDone (h : d.Tidy) : (cleanupDone d).Tidy := by
  unfold Machine.cleanupDone
  split
  · exact h.cleanUp
  · exact h

theorem Dev.Tidy.skipEntry {seq cause mask} (h : d.Tidy) : (d.skipEntry seq cause mask).Tidy := h.logFrom

theorem Dev.Tidy.eraseNvm {nv} (h : d.Tidy) : (d.eraseNvm nv).Tidy := by
  unfold Dev.eraseNvm
  dsimp only
  split
  · exact h.setNvm.showJournal
  · exact h

theorem Dev.Tidy.discardShadow (h : d.Tidy) : d.discardShadow.Tidy :=
  h.unstageStatic.unstageIds.unstageCtxs.aside.setPhase.setFlag

theorem Dev.Tidy.dropOpen (h : d.Tidy) : d.dropOpen.Tidy := by
  unfold Dev.dropOpen
  dsimp only
  split
  · exact h.aside.setFlag.discardShadow
  · exact h.aside.setFlag

@[simp] theorem Dev.Tidy.takeoverComplete (h : d.Tidy) : (takeoverComplete d).Tidy := by
  unfold Machine.takeoverComplete
  split
  · exact .flushReplies (.ite h.finishTakeover h.finishTakeover.dropOpen)
  · exact h

/-! #### Frames, copies and cells -/

theorem Dev.Tidy.setFrame {f} (h : d.Tidy) : (d.setFrame f).Tidy := h.aside

theorem Dev.Tidy.delFrame {i} (h : d.Tidy) : (d.delFrame i).Tidy := h.aside

theorem Dev.Tidy.setCopy {c} (h : d.Tidy) : (d.setCopy c).Tidy := h.aside

theorem Dev.Tidy.delCopy {i} (h : d.Tidy) : (d.delCopy i).Tidy := h.aside

theorem Dev.Tidy.rxFrame {port mac ago} (h : d.Tidy) : (d.rxFrame port mac ago).2.Tidy := by
  unfold Dev.rxFrame
  split
  · exact h
  · exact h.aside

theorem Dev.Tidy.reap {i} (h : d.Tidy) : (d.reap i).Tidy := by
  unfold Dev.reap
  split
  · split
    · exact h.delFrame
    · exact h
  · exact h

theorem Dev.Tidy.deliver {port mac} (h : d.Tidy) : (d.deliver port mac).Tidy := h.aside

theorem Dev.Tidy.releaseRefs {c flip} (h : d.Tidy) : (d.releaseRefs c flip).Tidy := by
  unfold Dev.releaseRefs
  split
  · exact h
  next f _ =>
    split
    · exact h
    · extract_lets p r e
      have he : e.Tidy := .subEc (h.foldlFst fun _ _ h => h.unref)
      clear_value e
      exact .setCopy (.ite he he.subIc)

theorem Dev.Tidy.removeCopy {c} (h : d.Tidy) : (d.removeCopy c).Tidy := by
  unfold Dev.removeCopy
  refine .askRefills (.reap (.delCopy (.clearTx (.unstage (.returnCredit (.aside ?_))))))
  split
  · exact h.releaseRefs.returnBlock
  · exact h.releaseRefs

theorem Dev.Tidy.dropCopy {c reason} (h : d.Tidy) : (d.dropCopy c reason).Tidy := by
  unfold Dev.dropCopy
  refine .removeCopy ?_
  split
  · exact h.dropCount.cnt.out
  · exact h.dropCount

theorem Dev.Tidy.dropCopies {reason p} (h : d.Tidy) : (d.dropCopies reason p).Tidy := by
  unfold Dev.dropCopies
  refine h.foldl fun d x h => ?_
  split
  · exact h.dropCopy
  · exact h

theorem Dev.Tidy.endFrame {f} (h : d.Tidy) : (d.endFrame f).Tidy := h.returnChain.returnStaging.setFrame.reap.deliver

theorem Dev.Tidy.dropFrame {f reason} (h : d.Tidy) : (d.dropFrame f reason).Tidy := h.dropCount.endFrame

theorem Dev.Tidy.consumeFrame {f} (h : d.Tidy) : (d.consumeFrame f).Tidy := h.cnt.endFrame

theorem Dev.Tidy.bankEmpty {f} (h : d.Tidy) : (d.bankEmpty f).Tidy := by
  unfold Dev.bankEmpty
  split
  · exact h.setFrame
  · exact h.dropFrame

theorem Dev.Tidy.ofAllocCell {p fuel o e} (h : d.Tidy) (he : d.allocCell p fuel = (o, e)) : e.Tidy := by
  have hx := h.allocCell (p := p) (fuel := fuel)
  rw [he] at hx
  exact hx

theorem Dev.Tidy.writeCell {f last} (h : d.Tidy) : (d.writeCell f last).Tidy := by
  unfold Dev.writeCell
  extract_lets p hs
  split
  · exact h.setFrame
  · split
    next he => exact (h.ofAllocCell he).bankEmpty
    next k e he =>
      extract_lets b b1 b2 d1 d2
      have h1 : b1.Tidy := (h.ofAllocCell he).bank.setLink
      have h2 : b2.Tidy := by
        unfold b2
        split
        · exact h1.setLink
        · exact h1
      have hd : d1.Tidy := ((h.ofAllocCell he).setBank h2).setFrame
      clear_value b2 d1
      have hd2 : d2.Tidy := hd.foldl fun _ _ h => h.addEc
      exact .ite (.ite hd2 hd2.addIc) hd

theorem Dev.Tidy.fillCells {i fuel} (h : d.Tidy) : (d.fillCells i fuel).Tidy := by
  induction fuel generalizing d with
  | zero => exact h
  | succ fuel ih =>
    unfold Dev.fillCells
    split
    · exact h
    · split
      · exact h
      · exact ih h.writeCell

theorem Dev.Tidy.storeCells {i} (h : d.Tidy) : (d.storeCells i).Tidy := by
  unfold Dev.storeCells
  split
  · exact h
  · exact .fillCells (.ite h.cnt h)

theorem Dev.Tidy.offerSpill {i} (h : d.Tidy) : (d.offerSpill i).Tidy := by
  unfold Dev.offerSpill
  dsimp only
  split
  · split
    · split
      · exact h.aside.returnCredit.setCopy
      · exact h.cnt.requestTokens
    · exact h
  · exact h

/-! #### Ports -/

theorem Dev.Tidy.finishRx {f err} (h : d.Tidy) : (d.finishRx f err).Tidy := by
  unfold Dev.finishRx
  dsimp only
  split
  · exact h.cnt.cntBy.cnt.cntBy.aside.setFrame.issueHeld.storeCells.offerSpill.reap
  · split
    · exact h.cnt.cntBy.countRxErr.aside.setFrame.storeCells
    · split
      · exact h.cnt.cntBy.countRxErr.aside.setFrame.storeCells.reap
      · exact h.cnt.cntBy.countRxErr.aside.setFrame.storeCells.reap
      · exact h.cnt.cntBy.countRxErr.aside.setFrame.storeCells
      · exact h.cnt.cntBy.countRxErr.aside.setFrame.storeCells
      · exact h.cnt.cntBy.countRxErr.aside.setFrame.storeCells.dropFrame

theorem Dev.Tidy.cutRx {n mac} (h : d.Tidy) : (d.cutRx n mac).Tidy := by
  unfold Dev.cutRx
  split
  · exact h
  · split
    · exact h.delFrame
    · exact h.finishRx

theorem Dev.Tidy.cutCopies {reason p} (h : d.Tidy) : (d.cutCopies reason p).Tidy := by
  unfold Dev.cutCopies
  refine h.foldl fun d x h => ?_
  split
  · exact h.dropCount.removeCopy
  · exact h

theorem Dev.Tidy.linkFalls {n} (h : d.Tidy) : (d.linkFalls n).Tidy := by
  unfold Dev.linkFalls
  dsimp only
  split
  · split
    · exact h.cnt.setFlag.clearPause.setFlag.wr.setFlag.setFlag.cutRx.cutRx.setPortSt
    · exact h.cnt.setFlag.clearPause.setFlag.wr.setFlag.setFlag.cutRx.cutRx.setPortSt.startRemoval
  · split
    · exact h.clearPause.setFlag.wr.setFlag.setFlag.cutRx.cutRx.setPortSt
    · exact h.clearPause.setFlag.wr.setFlag.setFlag.cutRx.cutRx.setPortSt.startRemoval

theorem Dev.Tidy.flushPort {n} (h : d.Tidy) : (d.flushPort n).Tidy := h.setFlag.setFlag.setPortSt.cutCopies

theorem Dev.Tidy.enterHold {n} (h : d.Tidy) : (d.enterHold n).Tidy := by
  unfold Dev.enterHold
  dsimp only
  split
  · exact h.linkFalls.cutCopies.cutCopies.flushPort
  · exact h.linkFalls.cutCopies.cutCopies.setFlag.setPortSt

@[simp] theorem Dev.Tidy.linkDown {port cause} (h : d.Tidy) : (linkDown port cause d).Tidy := by
  unfold Machine.linkDown
  dsimp only
  split
  · split
    · exact .enterHold (h.foldl fun _ _ h => h.setBitOf)
    · exact h.foldl fun _ _ h => h.setBitOf
  · split
    · exact h.setFlag.enterHold
    · exact h.setFlag
  · split
    · exact h.setFlag.enterHold
    · exact h.setFlag
  · split
    · exact h.enterHold
    · exact h

@[simp] theorem Dev.Tidy.holdExpiry {port} (h : d.Tidy) : (holdExpiry port d).Tidy := by
  unfold Machine.holdExpiry
  split
  · split
    · exact h.flushPort
    · exact h
  · exact h

theorem Dev.Tidy.adminFalls {n} (h : d.Tidy) : (d.adminFalls n).Tidy := h.linkFalls.setFlag.setFlag.setPortSt.cutCopies

@[simp] theorem Dev.Tidy.adminEnClear {port} (h : d.Tidy) : (adminEnClear port d).Tidy := by
  unfold Machine.adminEnClear
  split
  · exact h.setFlag.adminFalls
  · exact h

theorem Dev.Tidy.portCheck {n} (h : d.Tidy) : (d.portCheck n).Tidy := by
  unfold Dev.portCheck
  dsimp only
  split
  · exact h.setFlag.enterHold
  · exact h.setFlag

@[simp] theorem Dev.Tidy.pauseCfgChange {port value} (h : d.Tidy) : (pauseCfgChange port value d).Tidy := by
  unfold Machine.pauseCfgChange
  split
  · exact h.writeReg.pauseChanged.portCheck
  · exact h

theorem Dev.Tidy.recoveryRx {f} (h : d.Tidy) : (d.recoveryRx f).Tidy := by
  unfold Dev.recoveryRx
  dsimp only
  split
  · split
    · exact h.finishRx.consumeFrame.aside
    · exact h.finishRx.consumeFrame
  · exact h.finishRx

theorem Dev.Tidy.endRx {f} (h : d.Tidy) : (d.endRx f).Tidy := by
  unfold Dev.endRx
  dsimp only
  split
  · exact h.delFrame
  · split
    · exact h.finishRx
    · split
      · exact h.finishRx
      · split
        · exact h.finishRx
        · split
          · split
            · exact h.finishRx.control.consumeFrame
            · exact h.finishRx
          · split
            · exact h.recoveryRx
            · exact h.finishRx

theorem Dev.Tidy.takeBytes {f b} (h : d.Tidy) : (d.takeBytes f b).2.Tidy := h.setFrame.storeCells

@[simp] theorem Dev.Tidy.macFrameEnd {port mac ago bytes} (h : d.Tidy) : (macFrameEnd port mac ago bytes d).Tidy := by
  unfold Machine.macFrameEnd
  split
  · exact h.rxFrame.takeBytes.endRx
  · exact h

@[simp] theorem Dev.Tidy.rxControl {n b kind} (h : d.Tidy) : (d.rxControl n b kind).Tidy := by
  unfold Dev.rxControl
  split
  · exact h.rxFrame.takeBytes.endRx
  · exact h

theorem Dev.Tidy.rejectAssy {n} (h : d.Tidy) : (d.rejectAssy n).Tidy := by
  unfold Dev.rejectAssy
  dsimp only
  split
  · exact h.setPortSt.finishRx
  · exact h.setPortSt

@[simp] theorem Dev.Tidy.fragmentRx {port ago start count last bytes} (h : d.Tidy) :
    (fragmentRx port ago start count last bytes d).Tidy := by
  unfold Machine.fragmentRx
  dsimp only
  split
  · split
    · split
      · exact .endRx (.setPortSt (.takeBytes (.rxFrame (.ite h.cnt.rejectAssy h.cnt))))
      · exact .setPortSt (.takeBytes (.rxFrame (.ite h.cnt.rejectAssy h.cnt)))
    · split
      · exact .rejectAssy (.ite h.cnt.rejectAssy h.cnt)
      · exact .rejectAssy (.takeBytes (.rxFrame (.ite h.cnt.rejectAssy h.cnt)))
  · exact h

/-! #### Beaters -/

theorem Dev.Tidy.joinIntake {f} (h : d.Tidy) : (d.joinIntake f).Tidy := by
  unfold Dev.joinIntake
  dsimp only
  split
  · exact h.setFrame.aside
  · exact h.cnt.dropFrame

@[simp] theorem Dev.Tidy.parseReady {port mac ago bytes} (h : d.Tidy) : (parseReady port mac ago bytes d).Tidy := by
  unfold Machine.parseReady
  dsimp only
  split
  · exact h.joinIntake
  · split
    · split
      · split
        · exact h.rxFrame.takeBytes.joinIntake
        · exact h.rxFrame.takeBytes
      · exact h.rxFrame
    · exact h

theorem Dev.Tidy.fallbackParse {f} (h : d.Tidy) : (d.fallbackParse f).Tidy := h.cnt.setFlag.setFrame.deliver

@[simp] theorem Dev.Tidy.engineStart {pipe engine} (h : d.Tidy) : (engineStart pipe engine d).Tidy := by
  unfold Machine.engineStart
  split
  · split
    · exact h
    · dsimp only
      split
      · exact .ite h.cnt.fallbackParse h.cnt.dropFrame
      next he => exact (h.cnt.rehome he).setFrame
  · exact h

theorem Dev.Tidy.parityFault {f p e k} (h : d.Tidy) : (d.parityFault f p e k).Tidy := by
  have hout : ((d.machineCheck p e k f.px.addr 1).copyOut p k).Tidy := h.machineCheck.copyOut
  unfold Dev.parityFault
  dsimp only
  split
  · exact hout.dropFrame
  · split
    · exact .ite hout.cnt.fallbackParse hout.cnt.dropFrame
    next he => exact (hout.cnt.rehome he).setFrame

theorem Dev.Tidy.runWord {f p e k w} (h : d.Tidy) : (d.runWord f p e k w).Tidy := by
  unfold Dev.runWord
  split
  · exact h.machineCheck.dropFrame
  · split
    · exact h.setFrame.deliver
    · exact h.setFrame

@[simp] theorem Dev.Tidy.stepWord {op pipe engine flips} (h : d.Tidy) : (stepWord op pipe engine flips d).Tidy := by
  unfold Machine.stepWord
  dsimp only
  split
  · exact h
  · split
    · exact h.flipWord.parityFault
    · split
      · exact h.flipWord
      · split
        · exact h.flipWord.dropFrame
        · split
          · exact h.flipWord.cnt.dropFrame
          · split
            · exact h.flipWord.machineCheck.dropFrame
            · split
              · exact h.flipWord
              · split
                · split
                  · exact h.flipWord.runWord
                  · exact h.flipWord.setFrame
                · split
                  · exact h.flipWord
                  · exact h.flipWord.runWord
                · split
                  · exact h.flipWord.handoffWait.runWord
                  · exact h.flipWord.handoffWait.setFrame
                · exact h.flipWord.runWord

@[simp] theorem Dev.Tidy.sideResult {pipe engine bad} (h : d.Tidy) : (sideResult pipe engine bad d).Tidy := by
  unfold Machine.sideResult
  split
  · exact h
  · split
    · exact h
    · exact .setFrame (h.foldl fun _ _ h => h.sideFail)

@[simp] theorem Dev.Tidy.resume {pipe engine} (h : d.Tidy) : (resume pipe engine d).Tidy := by
  unfold Machine.resume
  split
  · split
    · exact h
    · split
      next he => exact (h.rehome he).setFrame
      · exact h.fallbackParse
  · exact h

@[simp] theorem Dev.Tidy.handoffExpiry {pipe engine} (h : d.Tidy) : (handoffExpiry pipe engine d).Tidy := by
  unfold Machine.handoffExpiry
  split
  · exact h
  · split
    · exact h
    · split
      · exact h.cnt.setFrame
      · exact h

@[simp] theorem Dev.Tidy.stopRequest {pipe engine} (h : d.Tidy) : (stopRequest pipe engine d).Tidy := by
  unfold Machine.stopRequest
  split
  · split
    · exact h.setFrame
    · exact h
  · exact h

/-! #### Redundancy -/

theorem Dev.Tidy.originate {port cls seqSrc seq inst bytes} (h : d.Tidy) : (d.originate port cls seqSrc seq inst bytes).Tidy :=
  h.aside.cnt.cnt

@[simp] theorem Dev.Tidy.supervisionTx {pair slot} (h : d.Tidy) : (supervisionTx pair slot d).Tidy := by
  unfold Machine.supervisionTx
  dsimp only
  split
  · split
    · split
      · exact h.nextSeq.originate.originate.aside.cntBy
      · exact h
    · split
      · exact h.nextSeq.originate.originate.aside.cntBy
      · exact h
  · split
    · exact h.nextSeq.originate.originate.aside.cntBy
    · exact h

/-! #### The time protocol engine -/

@[simp] theorem Dev.Tidy.ptpRx {frame bmca} (h : d.Tidy) : (ptpRx frame bmca d).Tidy := by
  unfold Machine.ptpRx
  dsimp only
  split
  · exact h
  · split
    · split
      · exact h
      · split
        · exact h.aside.cnt.consumeFrame
        · refine .consumeFrame ?_
          split
          · split
            · exact .setBmca (.ite (.aside (.ite h.aside.cnt.cnt h.aside.cnt)) (.ite h.aside.cnt.cnt h.aside.cnt))
            · split
              · exact .aside (.ite h.aside.cnt.cnt h.aside.cnt)
              · split
                · exact h.aside.cnt.cnt
                · exact h.aside.cnt
          · split
            · exact .aside (.ite h.aside.cnt.cnt h.aside.cnt)
            · split
              · exact h.aside.cnt.cnt
              · exact h.aside.cnt
    · exact h

@[simp] theorem Dev.Tidy.ptpTx {inst port bytes} (h : d.Tidy) : (ptpTx inst port bytes d).Tidy := by
  unfold Machine.ptpTx
  split
  · exact h.originate.cnt
  · exact h

@[simp] theorem Dev.Tidy.tc2Forward {inst src seqId port} (h : d.Tidy) : (tc2Forward inst src seqId port d).Tidy := by
  unfold Machine.tc2Forward
  split
  · exact h
  · split
    · exact h
    · split
      · exact h.tc2Done.aside.originate.cnt
      · exact h

/-! #### Streams -/

@[simp] theorem Dev.Tidy.streamIdentify {frame} (h : d.Tidy) : (streamIdentify frame d).Tidy := by
  unfold Machine.streamIdentify
  dsimp only
  split
  · exact h
  · split
    · split
      · exact h.cnt.cnt.setFrame
      · exact h.cnt.setFrame
    · exact h

theorem Dev.Tidy.gateDrop {f x} (h : d.Tidy) : (d.gateDrop f x).Tidy := h.cnt.dropFrame

theorem Dev.Tidy.sduDrop {f x} (h : d.Tidy) : (d.sduDrop f x).Tidy := h.cnt.dropFrame

theorem Dev.Tidy.filterMeter {f x} (h : d.Tidy) : (d.filterMeter f x).Tidy := by
  unfold Dev.filterMeter
  dsimp only
  split
  · split
    · exact h.meterRun.cnt.setFrame
    · exact h.meterRun.cnt.setFrame
    · exact h.meterRun.cnt.dropFrame
  · exact h.setFrame

theorem Dev.Tidy.filterChecks {f x} (h : d.Tidy) : (d.filterChecks f x).Tidy := by
  unfold Dev.filterChecks
  dsimp only
  split
  · exact h.sduDrop
  · exact h.gateDrop
  · split
    · split
      · split
        · exact .sduDrop (.ite h.blockHandle h)
        · split
          · split
            · exact .gateDrop (.ite h.blockHandle h)
            · split
              · split
                · exact h.cnt.gateDrop
                · exact .filterMeter (.ite h.setSgate h)
              · split
                · exact h.cnt.gateDrop
                · exact .filterMeter (.ite h.setSgate h)
          · exact h.filterMeter
      · split
        · exact .sduDrop (.ite h.blockHandle h)
        · split
          · split
            · exact .gateDrop (.ite h.blockHandle h)
            · split
              · split
                · exact h.cnt.gateDrop
                · exact .filterMeter (.ite h.setSgate h)
              · split
                · exact h.cnt.gateDrop
                · exact .filterMeter (.ite h.setSgate h)
          · exact h.filterMeter
    · split
      · split
        · exact .sduDrop (.ite h.blockHandle h)
        · split
          · split
            · exact .gateDrop (.ite h.blockHandle h)
            · split
              · split
                · exact h.cnt.gateDrop
                · exact .filterMeter (.ite h.setSgate h)
              · split
                · exact h.cnt.gateDrop
                · exact .filterMeter (.ite h.setSgate h)
          · exact h.filterMeter
      · split
        · exact .sduDrop (.ite h.blockHandle h)
        · split
          · split
            · exact .gateDrop (.ite h.blockHandle h)
            · split
              · split
                · exact h.cnt.gateDrop
                · exact .filterMeter (.ite h.setSgate h)
              · split
                · exact h.cnt.gateDrop
                · exact .filterMeter (.ite h.setSgate h)
          · exact h.filterMeter

@[simp] theorem Dev.Tidy.streamFilter {frame} (h : d.Tidy) : (streamFilter frame d).Tidy := by
  unfold Machine.streamFilter
  split
  · exact h
  · split
    · split
      · exact h.setFrame
      · split
        · split
          · exact h.filterChecks
          · exact h.setFrame
        · exact h.setFrame
    · exact h

@[simp] theorem Dev.Tidy.portPolicer {frame} (h : d.Tidy) : (portPolicer frame d).Tidy := by
  unfold Machine.portPolicer
  dsimp only
  split
  · exact h
  · split
    · split
      · split
        · exact h.aside.cnt.cntBy.setFrame
        · exact h.aside.cnt.dropFrame
      · exact h.setFrame
    · exact h

/-! #### Forwarding and learning -/

theorem Dev.Tidy.forwardTo {f set fid sa} (h : d.Tidy) : (d.forwardTo f set fid sa).Tidy := by
  unfold Dev.forwardTo
  dsimp only
  split
  · exact .setFrame (.issueHeld (.frameSeq (.learnOf (h.foldl fun _ _ h => h.cnt))))
  · exact .setFrame (.frameSeq (.learnOf (h.foldl fun _ _ h => h.cnt)))

@[simp] theorem Dev.Tidy.forwardingDecision {frame bad} (h : d.Tidy) : (forwardingDecision frame bad d).Tidy := by
  unfold Machine.forwardingDecision
  split
  · exact h
  next f _ =>
    split
    · extract_lets p e member
      have he : e.Tidy := h.foldl fun _ _ h => h.upsetSlot
      clear_value e
      split
      · exact he.dropFrame
      · dsimp only
        split
        · exact he.alookup.alookup.cnt.dropFrame
        · split
          · refine .dropFrame ?_
            split
            · exact he.alookup.alookup.cnt.countPairRx.cnt
            · exact he.alookup.alookup.cnt
          next hr =>
            have hpair := he.alookup.alookup.cnt.pairRules hr
            split
            · exact .dropFrame (.ite hpair.issueHeld hpair)
            · exact hpair.forwardTo
    · exact h

/-! #### Seals -/

theorem Dev.Tidy.sealDrop {f reason} (h : d.Tidy) : (d.sealDrop f reason).Tidy := h.dropFrame.sealReport

theorem Dev.Tidy.backlog {f} (h : d.Tidy) : (d.backlog f).Tidy := h.cnt.sealDrop

theorem Dev.Tidy.stageFrame {f} (h : d.Tidy) : (d.stageFrame f).1.Tidy := by
  unfold Dev.stageFrame
  dsimp only
  split
  · exact h.backlog
  · split
    · exact h.backlog
    · exact h.returnChain.aside.wr.wr.cnt.setFrame

theorem Dev.Tidy.decideCommand {f ue} (h : d.Tidy) : (d.decideCommand f ue).1.Tidy := by
  unfold Dev.decideCommand
  dsimp only
  split
  · split
    · exact .sealDrop (.ite h.setFrame.cnt h.setFrame)
    · split
      · exact .dropFrame (.ite h.setFrame.cnt h.setFrame)
      · exact .ite h.setFrame.cnt h.setFrame
  · exact h.setFrame.setFrame

@[simp] theorem Dev.Tidy.commandDecision {frames ue} (h : d.Tidy) : (commandDecision frames ue d).Tidy := by
  refine .foldl (.foldlFst h fun a i h => ?_) fun _ _ h => .ite h.stageFrame.aside h.stageFrame
  split
  · exact h
  · split
    · dsimp only
      split
      · exact h.decideCommand
      · exact h.decideCommand
    · exact h

@[simp] theorem Dev.Tidy.engineGrant {ed engine} (h : d.Tidy) : (engineGrant ed engine d).Tidy := by
  unfold Machine.engineGrant
  dsimp only
  split
  · split
    · split
      · exact h
      · split
        · exact h
        · split
          · exact h.setFrame.aside
          · exact h.setFrame.aside
    · exact h
  · split
    · split
      · exact h
      · split
        · exact h
        · split
          · exact h.setFrame.aside
          · exact h.setFrame.aside
    · exact h

@[simp] theorem Dev.Tidy.sealVerifyDone {ed engine} (h : d.Tidy) : (sealVerifyDone ed engine d).Tidy := by
  unfold Machine.sealVerifyDone
  dsimp only
  split
  · exact h
  · split
    · exact h.aside.cnt.sealDrop
    · split
      · exact h.aside.sealDrop
      · split
        · exact h.aside.setSctx.cnt.setFrame
        · exact h.aside.sealDrop

theorem Dev.Tidy.writeBack {f} (h : d.Tidy) : (d.writeBack f).Tidy := h.setFrame.fillCells

@[simp] theorem Dev.Tidy.releaseToAdmission {frame} (h : d.Tidy) : (releaseToAdmission frame d).Tidy := by
  unfold Machine.releaseToAdmission
  split
  · exact h
  · split
    · split
      · exact h.cnt.dropFrame
      · exact h.returnStaging.writeBack
    · exact h

@[simp] theorem Dev.Tidy.clusterFault {cluster cause} (h : d.Tidy) : (clusterFault cluster cause d).Tidy := by
  unfold Machine.clusterFault
  dsimp only
  split
  · split
    · exact h.setFlag.setFlag.setBitOf.releaseTokens.aside.cnt.alarm.log
    · refine h.setFlag.setFlag.setBitOf.releaseTokens.aside.cnt.alarm.log.foldl fun d x h => ?_
      split
      · exact h.backlog
      · exact h
  · exact h

/-! #### Vats -/

theorem Dev.Tidy.loseFrame {i} (h : d.Tidy) : (d.loseFrame i).Tidy := h.dropCopies

@[simp] theorem Dev.Tidy.failStack {s cause} (h : d.Tidy) : (d.failStack s cause).Tidy := by
  unfold Dev.failStack
  split
  · exact h
  · extract_lets d1 d2 d3 d4 d5 d6 vat d7
    have h4 : d4.Tidy := .log (.releaseTokens (.alarm (h.setFlag.wr.foldl fun _ _ h => h.auditLost.setVatHalf.wr)))
    clear_value d4
    split
    · have h5 : d5.Tidy := h4.foldl fun d f h => by
        split
        · exact h.dropFrame
        · exact h
      clear_value d5
      have h6 : d6.Tidy := .ite h5.auditLost.auditLost h5
      clear_value d6
      exact h6.aside.setReg
    · exact h4

theorem Dev.Tidy.hbmUe {s} (h : d.Tidy) : (d.hbmUe s).Tidy := by
  unfold Dev.hbmUe
  dsimp only
  split
  · split
    · exact h.aside.wr.wr.cnt.alarm.log.failStack
    · exact h.aside.wr.wr.cnt.alarm.log
  · split
    · exact h.wr.cnt.alarm.log.failStack
    · exact h.wr.cnt.alarm.log

theorem Dev.Tidy.storeCycle {p ids} (h : d.Tidy) : (d.storeCycle p ids).Tidy := by
  unfold Dev.storeCycle
  dsimp only
  split
  · exact h.foldl fun _ _ h => h.fillCells
  · refine .foldlFst h.cnt fun a f ha => ?_
    split
    · exact ha.fillCells.aside
    · exact ha.bankEmpty

theorem Dev.Tidy.supSend {bytes} (h : d.Tidy) : (d.supSend bytes).Tidy := by
  unfold Dev.supSend
  split
  · split
    · exact h
    next he => exact (h.supTake he).aside.finishRx.supGive
  · exact h

@[simp] theorem Dev.Tidy.cellWrite {writes} (h : d.Tidy) : (cellWrite writes d).Tidy := by
  refine .foldl (.foldl (.foldlFst h fun a w ha => ?_) fun _ _ h => h.storeCycle) fun _ _ h => .ite h.supSend h
  dsimp only
  split
  · exact ha.rxFrame.setFrame
  · exact ha

theorem Dev.Tidy.linkFrame {f kept} (h : d.Tidy) : (d.linkFrame f kept).Tidy := by
  unfold Dev.linkFrame
  extract_lets p n never d0 cs b d1 path d2 d3 d4
  have hb : b.Tidy := h.bank.foldl fun _ _ h => h.setLink
  have h1 : d1.Tidy := (h.setBank hb).setFrame
  clear_value b d1
  have h4 : d4.Tidy := .cntBy (.addIc (.foldl h1.aside fun _ _ h => h.addEc))
  clear_value d4
  exact .ite h4.offerSpill h4

@[simp] theorem Dev.Tidy.admission {frame} (h : d.Tidy) : (admission frame d).Tidy := by
  unfold Machine.admission
  dsimp only
  split
  · exact h
  · split
    · split
      · exact h.dropFrame
      · split
        · split
          · exact h.dropFrame
          · split
            · exact h.dropFrame
            · exact h.linkFrame
        · split
          · exact h.dropFrame
          · split
            · exact h.dropFrame
            · exact h.linkFrame
    · exact h

@[simp] theorem Dev.Tidy.copyRelease {copy flip} (h : d.Tidy) : (copyRelease copy flip d).Tidy := by
  unfold Machine.copyRelease
  split
  · split
    · exact h.releaseRefs.askRefills
    · exact h
  · exact h

theorem Dev.Tidy.cutHalf {v s ue} (h : d.Tidy) : (d.cutHalf v s ue).Tidy := by
  unfold Dev.cutHalf
  dsimp only
  split
  · split
    · split
      · exact h.setVatHalf.wr.hbmUe
      · exact h.setVatHalf.wr.hbmUe.ptrFail.auditLost
    · split
      · exact h.setVatHalf.wr
      · exact h.setVatHalf.wr.ptrFail.auditLost
  · exact h

theorem Dev.Tidy.spillInto {c v} (h : d.Tidy) : (d.spillInto c v).Tidy := by
  unfold Dev.spillInto
  split
  next he => exact (h.takeBlock he).setCopy
  · exact h

theorem Dev.Tidy.spillRound {v reqs} (h : d.Tidy) : (d.spillRound v reqs).1.Tidy := by
  unfold Dev.spillRound
  dsimp only
  split
  · exact h.foldl fun _ _ h => h.spillInto
  · split
    · exact .aside (h.foldl fun _ _ h => h.spillInto)
    · exact h.foldl fun _ _ h => h.spillInto

theorem Dev.Tidy.ofSpillRound {v reqs e l} (h : d.Tidy) (he : d.spillRound v reqs = (e, l)) : e.Tidy := by
  have hx := h.spillRound (v := v) (reqs := reqs)
  rw [he] at hx
  exact hx

@[simp] theorem Dev.Tidy.spill {pipes cuts} (h : d.Tidy) : (spill pipes cuts d).Tidy := by
  unfold Machine.spill
  extract_lets d1 r r0
  have h1 : d1.Tidy := h.foldl fun _ _ h => h.cutHalf
  have hr : r.1.Tidy := by
    refine .foldlFst h1 fun a p ha => ?_
    dsimp only
    split
    · exact ha
    · split
      · exact ha
      · split
        · exact ha.popSpill
        · split
          · exact ha.popSpill
          · split
            · exact ha.popSpill.dropCopy
            · exact ha.popSpill
  clear_value r0 r
  have hcounted {e : Dev} {l : List (Nat × Copy)} (he : e.Tidy) : (l.foldl (fun d x => d.cnt .spillFallback x.1) e).Tidy :=
    he.foldl fun _ _ h => h.cnt
  split
  next hl0 =>
  extract_lets d2
  have h2 : d2.Tidy := hcounted (hr.ofSpillRound hl0)
  clear_value d2
  split
  next hl1 =>
  extract_lets d3
  have h3 : d3.Tidy := hcounted (h2.ofSpillRound hl1)
  clear_value d3
  split
  next hl2 =>
  split
  next hm1 =>
  extract_lets d4
  have h4 : d4.Tidy := hcounted ((h3.ofSpillRound hl2).ofSpillRound hm1)
  clear_value d4
  split
  next hm2 =>
  split
  next hn2 =>
  refine ((h4.ofSpillRound hm2).ofSpillRound hn2).foldl fun e x he => ?_
  split
  · exact he.dropCopy
  · exact he

@[simp] theorem Dev.Tidy.spillComplete {copy} (h : d.Tidy) : (spillComplete copy d).Tidy := by
  unfold Machine.spillComplete
  split
  · split
    · exact h.setCopy.cnt.releaseRefs.askRefills
    · exact h
  · exact h

theorem Dev.Tidy.lostInStack {c s} (h : d.Tidy) : (d.lostInStack c s).Tidy := h.cnt.dropCopy

@[simp] theorem Dev.Tidy.refill {pipe} (h : d.Tidy) : (refill pipe d).Tidy := by
  unfold Machine.refill
  dsimp only
  split
  · exact h.askRefills
  · split
    · exact h.askRefills.popRefill
    · split
      · split
        · exact h.askRefills.popRefill.lostInStack
        · split
          · exact h.askRefills.popRefill.cnt.dropCopy
          · split
            · exact h.askRefills.cnt
            · exact h.askRefills.popRefill.setCopy.setFrame.fillCells
      · exact h.askRefills.popRefill

@[simp] theorem Dev.Tidy.refillDone {copy corr ue flip} (h : d.Tidy) : (refillDone copy corr ue flip d).Tidy := by
  unfold Machine.refillDone
  dsimp only
  split
  · split
    · split
      · exact h.cntBy.lostInStack
      · split
        · split
          · exact h.cntBy.hbmUe.dropCopy
          · exact h.cntBy.hbmUe
        · exact h.cntBy.returnBlock.setCopy.cnt.askRefills
    · exact h
  · exact h

/-! #### The fabric -/

@[simp] theorem Dev.Tidy.creditRequest {copy} (h : d.Tidy) : (creditRequest copy d).Tidy := by
  unfold Machine.creditRequest
  split
  · exact h
  · split
    · exact h
    · split
      · split
        · exact h.dropCopy
        · exact h.setCopy.aside
      · exact h

@[simp] theorem Dev.Tidy.creditGrant {group} (h : d.Tidy) : (creditGrant group d).Tidy := by
  unfold Machine.creditGrant
  split
  · exact h
  · split
    · exact h
    · exact h.setCopy.wr.aside

@[simp] theorem Dev.Tidy.creditRevoke {port cls} (h : d.Tidy) : (creditRevoke port cls d).Tidy := by
  unfold Machine.creditRevoke
  dsimp only
  split
  · split
    · exact h.foldl fun _ _ h => h.returnCredit.setCopy.cnt
    · exact h
  · split
    · exact h.foldl fun _ _ h => h.returnCredit.setCopy.cnt
    · exact h

theorem Dev.Tidy.sendCell {plane slot i j c} (h : d.Tidy) : (d.sendCell plane slot i j c).Tidy := by
  unfold Dev.sendCell
  dsimp only
  split
  · exact h
  · split
    · exact .askRefills (.cnt (.cnt (.aside (.setCopy (.ite h.aside h)))))
    · exact .cnt (.cnt (.aside (.setCopy (.ite h.aside h))))

theorem Dev.Tidy.spray {slot mgmt ue m} (h : d.Tidy) : (d.spray slot mgmt ue m).Tidy := by
  unfold Dev.spray
  dsimp only
  split
  · exact h
  · split
    · exact h.loseFrame
    · exact h.sendCell

@[simp] theorem Dev.Tidy.slotMatch {ue} (h : d.Tidy) : (slotMatch ue d).Tidy := by
  unfold Machine.slotMatch
  split
  · exact h
  · extract_lets slot fab d1 fabJoined d2 act live mgmt pairs r reqs q
    have h1 : d1.Tidy := h.aside
    have h2 : d2.Tidy := by
      unfold d2
      split
      · exact .ite (.planeJoin h1.aside) h1
      · exact h1
    clear_value d1 d2
    have hr : r.1.Tidy := by
      refine .foldlFst h2 fun a m ha => ?_
      dsimp only
      split
      · exact ha.aside
      · exact ha
    clear_value r
    have hq : q.1.Tidy := .foldlFst hr fun _ _ h => h.matchPlane
    exact hq.foldl fun _ _ h => h.spray

theorem Dev.Tidy.supHand {c f} (h : d.Tidy) : (d.supHand c f).Tidy := by
  unfold Dev.supHand
  split
  · exact h.dropCopy.sealReport
  · split
    · exact h.dropCopy
    · split
      · exact h.dropCopy
      next he => exact (h.supTake he).aside.cnt.removeCopy

theorem Dev.Tidy.joinQueue {c} (h : d.Tidy) : (d.joinQueue c).Tidy := h.portEvent.setCopy.aside.cnt.wfqRefresh

theorem Dev.Tidy.releaseCell {x} (h : d.Tidy) : (d.releaseCell x).Tidy := by
  unfold Dev.releaseCell
  dsimp only
  split
  · exact h
  · split
    · exact h
    · split
      · exact h.setCopy.dropCopy
      · split
        · split
          · exact h.setCopy.supHand
          · exact h.setCopy
        · split
          · exact h.setCopy
          · split
            · split
              · exact h.setCopy.joinQueue
              · split
                · exact h.setCopy.cnt.joinQueue
                · exact h.setCopy.cnt.setCopy
            · split
              · exact h.setCopy.joinQueue
              · exact h.setCopy

theorem Dev.Tidy.drain {i j fuel} (h : d.Tidy) : (d.drain i j fuel).Tidy := by
  induction fuel generalizing d with
  | zero => exact h
  | succ fuel ih =>
    unfold Dev.drain
    dsimp only
    split
    · exact h
    · exact ih (.releaseCell h.aside)

@[simp] theorem Dev.Tidy.cellArrive {src dst seq crcOk} (h : d.Tidy) : (cellArrive src dst seq crcOk d).Tidy := by
  unfold Machine.cellArrive
  dsimp only
  split
  · exact h
  · split
    · split
      · exact h.aside.cnt.crcWindow.failPlane
      · exact h.aside.cnt.crcWindow
    · refine .updGap (.ite (.drain (.releaseCell (.aside ?_))) (.cnt (.aside ?_)))
      · split
        · exact .returnCredit (.ite h.aside.cnt.cnt h.aside.cnt)
        · split
          · exact .returnCredit (.wr (.setCopy (.ite h.aside.cnt.cnt h.aside.cnt)))
          · exact .wr (.setCopy (.ite h.aside.cnt.cnt h.aside.cnt))
      · split
        · exact .returnCredit (.ite h.aside.cnt.cnt h.aside.cnt)
        · split
          · exact .returnCredit (.wr (.setCopy (.ite h.aside.cnt.cnt h.aside.cnt)))
          · exact .wr (.setCopy (.ite h.aside.cnt.cnt h.aside.cnt))

@[simp] theorem Dev.Tidy.couchGapTimeout {src dst} (h : d.Tidy) : (couchGapTimeout src dst d).Tidy := by
  unfold Machine.couchGapTimeout
  extract_lets g e limit gone d1 fab d2 d3 d4 d5
  split
  · have h3 : d3.Tidy := h.cntBy.aside.returnCredit
    have h4 : d4.Tidy := h3.foldl fun e i he => by
      split
      · exact he.dropCopy
      · exact he
    exact h4.setGap.drain.updGap
  · exact h

/-! #### Egress -/

theorem Dev.Tidy.startTx {n mac c wire len} (h : d.Tidy) : (d.startTx n mac c wire len).Tidy :=
  .wfqStart (.ite h.setCopy.tbsCharge.tbsCharge.aside.cnt h.setCopy.tbsCharge.tbsCharge.aside)

theorem Dev.Tidy.selectFrame {n mac fuel} (h : d.Tidy) : (d.selectFrame n mac fuel).Tidy := by
  induction fuel generalizing d with
  | zero => exact h
  | succ fuel ih =>
    unfold Dev.selectFrame
    dsimp only
    split
    · exact ih h.cnt.dropCopy
    · split
      · exact h.wfqRefresh
      · split
        · exact h.wfqRefresh
        · split
          · exact h.wfqRefresh
          · split
            · exact ih h.wfqRefresh.step17.dropCopy
            · split
              · exact ih h.wfqRefresh.step17.dropCopy
              · exact h.wfqRefresh.step17.startTx

theorem Dev.Tidy.refuseCt {n mac} (h : d.Tidy) : (d.refuseCt n mac).Tidy := h.foldl fun _ _ h => h.cnt.setCopy

theorem Dev.Tidy.resumeTx {n c} (h : d.Tidy) : (d.resumeTx n c).Tidy := by
  unfold Dev.resumeTx
  split
  · exact h.setCopy.aside
  · exact h

theorem Dev.Tidy.dropDisabled {n} (h : d.Tidy) : (d.dropDisabled n).Tidy := h.dropCopies

@[simp] theorem Dev.Tidy.schedulerSelect {port mac} (h : d.Tidy) : (schedulerSelect port mac d).Tidy := by
  unfold Machine.schedulerSelect
  split
  · exact h
  · split
    · exact h.dropDisabled
    · refine .wfqRefresh (.refuseCt ?_)
      split
      · exact h.portEvent.resumeTx
      · split
        · exact h.portEvent.selectFrame
        · exact h.portEvent

@[simp] theorem Dev.Tidy.transmitEnd {port mac} (h : d.Tidy) : (transmitEnd port mac d).Tidy := by
  unfold Machine.transmitEnd
  dsimp only
  split
  · exact h
  · split
    · split
      · exact h
      · split
        · exact h.portEvent.dropCopy.wfqRefresh
        · refine .wfqRefresh (.removeCopy ?_)
          split
          · exact h.portEvent.countTx.out.tsEntry
          · exact h.portEvent.countTx.out
    · exact h

@[simp] theorem Dev.Tidy.preempt {port} (h : d.Tidy) : (preempt port d).Tidy := by
  unfold Machine.preempt
  dsimp only
  split
  · exact h
  · split
    · exact .wfqRefresh (.setCopy (.out (.cnt (.ite h.portEvent.cnt h.portEvent))))
    · exact h

/-! #### Modules -/

theorem Dev.Tidy.checkCagePorts {c} (h : d.Tidy) : (d.checkCagePorts c).Tidy := h.foldl fun _ _ h => h.portCheck

theorem Dev.Tidy.cagePortsDown {c} (h : d.Tidy) : (d.cagePortsDown c).Tidy := h.foldl fun _ _ h => .ite h.enterHold h

theorem Dev.Tidy.quarantine {c reason} (h : d.Tidy) : (d.quarantine c reason).Tidy :=
  .log (.alarm (.cnt (h.stepCage.wr.returnGrant.out.foldl fun _ _ h => .cutCopies (.ite h.linkFalls.setFlag.setPortSt h))))

theorem Dev.Tidy.moduleFault {c} (h : d.Tidy) : (d.moduleFault c).Tidy := by
  unfold Dev.moduleFault
  dsimp only
  split
  · exact h.setCage.cnt.alarm.log.cagePortsDown.returnGrant.quarantine
  · exact h.setCage.cnt.alarm.log.cagePortsDown.returnGrant.resetModule

theorem Dev.Tidy.takeFlags {c fs} (h : d.Tidy) : (d.takeFlags c fs).Tidy := by
  unfold Dev.takeFlags
  dsimp only
  split
  · exact .moduleFault (h.foldl fun _ _ h => h.log)
  · exact h.foldl fun _ _ h => h.log

theorem Dev.Tidy.stepEnd {c} (h : d.Tidy) : (d.stepEnd c).Tidy := by
  unfold Dev.stepEnd
  dsimp only
  split
  · exact h
  · exact h.setCage.takeFlags

@[simp] theorem Dev.Tidy.resetRelease {cage} (h : d.Tidy) : (resetRelease cage d).Tidy := by
  unfold Machine.resetRelease
  dsimp only
  split
  · exact h.resetPin.awaitReady.stepEnd
  · exact h

@[simp] theorem Dev.Tidy.readyPoll {cage answer} (h : d.Tidy) : (readyPoll cage answer d).Tidy := by
  unfold Machine.readyPoll
  dsimp only
  split
  · split
    · exact h.setCage
    · split
      · split
        · exact h.setCage.stepCage.stepEnd
        · exact h.setCage
      · split
        · exact h.setCage.stepCage.stepEnd
        · exact h.setCage
  · exact h

@[simp] theorem Dev.Tidy.readyTimeout {cage} (h : d.Tidy) : (readyTimeout cage d).Tidy := by
  unfold Machine.readyTimeout
  split
  · exact h.readFail.cnt.stepEnd
  · exact h

theorem Dev.Tidy.applyChoice {c m} (h : d.Tidy) : (d.applyChoice c m).Tidy := by
  unfold Dev.applyChoice
  split
  · exact h
  · refine .checkCagePorts ?_
    split
    · split
      · exact h.setCage.aside
      · exact h.setCage.clearOver
    · exact h.setCage.clearOver

@[simp] theorem Dev.Tidy.moduleIdentify {cage ident} (h : d.Tidy) : (moduleIdentify cage ident d).Tidy := by
  unfold Machine.moduleIdentify
  dsimp only
  split
  · split
    · exact h.setCage.quarantine.stepEnd
    · split
      · exact h.setCage.wr.stepCage.quarantine.stepEnd
      · split
        · exact h.setCage.wr.stepCage.quarantine.stepEnd
        · split
          · exact h.setCage.wr.stepCage.quarantine.stepEnd
          · exact .stepEnd (.ite h.setCage.wr.stepCage.applyChoice.stepCage h.setCage.wr.stepCage.applyChoice.stepCage.setCage)
  · exact h

@[simp] theorem Dev.Tidy.powerGrant (h : d.Tidy) : (powerGrant d).Tidy := by
  unfold Machine.powerGrant
  split
  · exact h
  · exact .stepEnd (.highPower (.ite h h.wr.setFlag.wr))

@[simp] theorem Dev.Tidy.datapathReady {cage} (h : d.Tidy) : (datapathReady cage d).Tidy := by
  unfold Machine.datapathReady
  split
  · exact h.stepCage.stepEnd
  · exact h

@[simp] theorem Dev.Tidy.step9Timeout {cage} (h : d.Tidy) : (step9Timeout cage d).Tidy := by
  unfold Machine.step9Timeout
  split
  · exact h.cnt.moduleFault
  · exact h

theorem Dev.Tidy.rechoose {c} (h : d.Tidy) : (d.rechoose c).Tidy := by
  unfold Dev.rechoose
  dsimp only
  split
  · exact h
  · split
    · split
      · split
        · exact h.applyChoice.out
        · exact h.applyChoice
      · exact h.applyChoice
    · exact h

@[simp] theorem Dev.Tidy.moduleRemove {cage} (h : d.Tidy) : (moduleRemove cage d).Tidy := by
  unfold Machine.moduleRemove
  dsimp only
  split
  · exact h
  · split
    · exact h.setPresent.cnt.returnGrant.cagePortsDown.clearOver.setCage.wr.wr.wr.checkCagePorts.aside
    · exact h.setPresent.cnt.returnGrant.cagePortsDown.clearOver.setCage.wr.wr.wr.checkCagePorts

@[simp] theorem Dev.Tidy.moduleInt {bus low flags} (h : d.Tidy) : (moduleInt bus low flags d).Tidy := by
  unfold Machine.moduleInt
  dsimp only
  split
  · exact h
  · split
    · exact h.setFlag
    · exact h.setFlag.foldl fun _ _ h => .ite h (.ite h.setCage h.takeFlags)

@[simp] theorem Dev.Tidy.readFailRestart {cage} (h : d.Tidy) : (readFailRestart cage d).Tidy := by
  unfold Machine.readFailRestart
  split
  · exact h.awaitReady.stepEnd
  · exact h

/-! #### Power, clocks and resets -/

@[simp] theorem Dev.Tidy.srefLoss {k} (h : d.Tidy) : (srefLoss k d).Tidy := by
  unfold Machine.srefLoss
  split
  · exact h
  · exact .foldl (h.setBitOf.cnt.foldl fun _ _ h => h.setFlag) fun _ _ h => .ite h.enterHold h

theorem Dev.Tidy.zero : Dev.zero.Tidy where
  regFile := by decide
  counts := rfl
  overflows := rfl
  entries := rfl
  words := rfl
  addresses := rfl
  nodes := rfl
  contexts := rfl
  banks := fun _ he => nomatch he
  bases := rfl
  pairs := rfl

theorem Dev.Tidy.fullReset {pll hold} : (d.fullReset pll hold).Tidy :=
  .setFlag (.setReg (Dev.Tidy.zero.aside.foldl fun _ _ h => h.setReg))

@[simp] theorem Dev.Tidy.porAssert : (porAssert d).Tidy := .fullReset

@[simp] theorem Dev.Tidy.pwrGoodFall (h : d.Tidy) : (pwrGoodFall d).Tidy := .ite .fullReset h

@[simp] theorem Dev.Tidy.sysRst {sel mode} : (sysRst sel mode d).Tidy := .ite (.timeZero .fullReset) .fullReset

/-! #### Effects of register writes -/

theorem Dev.Tidy.retrain {n} (h : d.Tidy) : (d.retrain n).Tidy := by
  unfold Dev.retrain
  split
  · exact h.enterHold
  · exact h

theorem Dev.Tidy.modeWritten {g old} (h : d.Tidy) : (d.modeWritten g old).Tidy := by
  unfold Dev.modeWritten
  split
  · exact h
  · split
    · exact .foldl (.ite (.groupPower (.foldl (.foldl (h.foldl fun _ _ h => h.retrain) fun _ _ h => h.rechoose)
      fun _ _ h => h.applyTxeq)) (.foldl (.foldl (h.foldl fun _ _ h => h.retrain) fun _ _ h => h.rechoose)
        fun _ _ h => h.applyTxeq)) fun _ _ h => h.portCheck
    · exact h.retrain.portCheck

theorem Dev.Tidy.portCfgWritten {n old} (h : d.Tidy) : (d.portCfgWritten n old).Tidy :=
  .portCheck (.ite h.adminFalls (.ite h.retrain h))

theorem Dev.Tidy.portWritten {n name old} (h : d.Tidy) : (d.portWritten n name old).Tidy := by
  unfold Dev.portWritten
  split
  · exact h.portCfgWritten
  · exact h.pauseChanged.portCheck
  · exact h.portCheck.evalPause
  · exact h.portCheck.evalPause
  · exact h.startVerify
  · exact h

theorem Dev.Tidy.regWritten {a old} (h : d.Tidy) : (d.regWritten a old).Tidy := by
  unfold Dev.regWritten
  split
  · exact h
  · split
    · split
      · exact h
      · exact h.portWritten
    · split
      · exact h.modeWritten
      · exact h.applyTxeq
      · exact h.ptpCheck
      · exact h.ptpCheck
      · exact h.ptpCheck
      · exact h.pairsCheck
      · exact h.checkSeal
      · exact h.checkSeal
      · exact h.checkCages.foldl fun _ _ h => h.checkCagePorts
      · exact h.checkCages.foldl fun _ _ h => h.checkCagePorts
      · exact h.showEnables
      · exact h

/-! #### Register writes -/

theorem Dev.Tidy.putReg {m a v hw} (h : d.Tidy) : (d.putReg m a v hw).Tidy := h.writeReg.commandBits.hwSetActs.regWritten

@[simp] theorem Dev.Tidy.registerWrite {master addr value byteEn hwSet} (h : d.Tidy) :
    (registerWrite master addr value byteEn hwSet d).Tidy := by
  unfold Machine.registerWrite
  dsimp only
  split
  · exact h.busWrite
  · split
    · exact h.becWrite
    · split
      · exact h.fullError.busWrite.putReg
      · exact h.fullError.busWrite.setReg.hwSetActs

theorem Dev.Tidy.writeRecord {a mask value} (h : d.Tidy) : (d.writeRecord a mask value).Tidy := by
  unfold Dev.writeRecord
  split
  · exact h
  · split
    · exact h.becWrite
    · refine .regWritten (.ite ?_ (.commandBits ?_))
      · split
        · split
          · exact .setFlag (.setReg (.ite h.becCount.commandBits h.becCount))
          · exact .setReg (.ite h.becCount.commandBits h.becCount)
        · exact .setReg (.ite h.becCount.commandBits h.becCount)
      · split
        · split
          · exact .setFlag (.setReg (.ite h.becCount.commandBits h.becCount))
          · exact .setReg (.ite h.becCount.commandBits h.becCount)
        · exact .setReg (.ite h.becCount.commandBits h.becCount)

theorem Dev.Tidy.loadReg {a mask value e} (h : d.Tidy) (he : d.loadReg a mask value = some e) : e.Tidy := by
  unfold Dev.loadReg at he
  split at he
  · cases he
  · split at he
    · cases he
    · split at he
      · cases he
      · exact Option.some.inj he ▸ h.writeRecord

theorem Dev.Tidy.auditReg {a} (h : d.Tidy) : (d.auditReg a).Tidy := by
  unfold Dev.auditReg
  dsimp only
  split
  · exact h
  · split
    · exact h.becCount.setReg.regWritten.cnt.auditReport
    · exact h.auditReport

@[simp] theorem Dev.Tidy.firmwareAudit {upsets} (h : d.Tidy) : (firmwareAudit upsets d).Tidy := by
  unfold Machine.firmwareAudit
  dsimp only
  split
  · exact .cnt (.aside (.foldl (.foldl (h.foldl fun _ _ h => h.setReg) fun _ _ h => h.auditReg) fun _ _ h => h.auditTab))
  · exact h.foldl fun _ _ h => h.setReg

/-! #### Requests -/

theorem Dev.Tidy.supSays {bytes} (h : d.Tidy) : (d.supSays bytes).Tidy := by
  unfold Dev.supSays
  split
  · split
    · exact h.cnt.cntBy.cnt.cntBy.cnt.cntBy.out
    · exact h
  · exact h.supSend

theorem Dev.Tidy.reply {ch code tag status detail data} (h : d.Tidy) : (d.reply ch code tag status detail data).Tidy := by
  unfold Dev.reply
  split
  · exact h.postReply
  · exact h.setChan.foldl fun _ _ h => h.supSays

theorem Dev.Tidy.status {ch q status detail} (h : d.Tidy) : (d.status ch q status detail).Tidy := h.reply

theorem Dev.Tidy.refused {ch q} (h : d.Tidy) : (d.refused ch q).Tidy := h.freeNat.status

theorem Dev.Tidy.answer {ch code tag status detail data} (h : d.Tidy) : (d.answer ch code tag status detail data).Tidy := by
  unfold Dev.answer
  dsimp only
  split
  · exact h.setChan.reply
  · exact h

theorem Dev.Tidy.refuseRecovery {ch q} (h : d.Tidy) : (d.refuseRecovery ch q).Tidy := h.logFrom.status

theorem Dev.Tidy.onRequest {ch code f} (h : d.Tidy) (hf : ∀ e q, e.Tidy → (f e q).Tidy) : (d.onRequest ch code f).Tidy := by
  unfold Dev.onRequest
  split
  · exact .ite (hf _ _ h.takeRequest) h
  · exact h

/-- A request that passes the checks is left to what its CODE does with it. -/
theorem Dev.Tidy.request {ch code minVer recov f} (h : d.Tidy) (hf : ∀ e q, e.Tidy → (f e q).Tidy) :
    (d.request ch code minVer recov f).Tidy :=
  h.onRequest fun e q he => .ite he.status (.ite he.status (.ite he.status (.ite he.refuseRecovery (hf e q he))))

@[simp] theorem Dev.Tidy.unknownCode {chan} (h : d.Tidy) : (unknownCode chan d).Tidy := by
  unfold Machine.unknownCode
  split
  · split
    · exact h
    · exact h.takeRequest.status
  · exact h

@[simp] theorem Dev.Tidy.hello {chan} (h : d.Tidy) : (hello chan d).Tidy := by
  unfold Machine.hello
  dsimp only
  refine h.onRequest fun d q h => ?_
  split
  · exact h.abandonExchange.status
  · split
    · exact h.abandonExchange.setChan.reply
    · exact h.abandonExchange.status

theorem Dev.Tidy.sendOutput {ch code tag dest out} (h : d.Tidy) : (d.sendOutput ch code tag dest out).Tidy := by
  unfold Dev.sendOutput
  dsimp only
  split
  · exact h.reply
  · split
    · split
      · exact h.setChan.aside
      · exact h.reply
    · split
      · exact h.aside.wr.reply
      · exact h.reply

theorem Dev.Tidy.endJob {j status detail} (h : d.Tidy) : (d.endJob j status detail).Tidy :=
  .answer (.ite h.aside.setFlag h.aside)

theorem Dev.Tidy.abandonDma (h : d.Tidy) : d.abandonDma.Tidy := h.foldl fun _ _ h => h.endJob

@[simp] theorem Dev.Tidy.dmaDone {chan result} (h : d.Tidy) : (dmaDone chan result d).Tidy := by
  unfold Machine.dmaDone
  split
  · exact h
  · split
    · split
      · exact h.out.endJob
      · exact h.endJob
    · split
      · split
        · exact h.takeRequest.status
        · exact h
      · exact h

@[simp] theorem Dev.Tidy.getInfo {chan} (h : d.Tidy) : (getInfo chan d).Tidy :=
  h.request fun _ _ h => .ite h.infoBytes.reply h.status

@[simp] theorem Dev.Tidy.readRegs {chan} (h : d.Tidy) : (readRegs chan d).Tidy :=
  h.request fun _ _ h => .ite h.status h.readAll.reply

@[simp] theorem Dev.Tidy.tableDump {chan} (h : d.Tidy) : (tableDump chan d).Tidy := by
  unfold Machine.tableDump
  dsimp only
  refine h.request fun d q h => ?_
  split
  · split
    · exact h.status
    · split
      · exact h.status
      · exact h.sendOutput
  · exact h.status

@[simp] theorem Dev.Tidy.logRead {chan} (h : d.Tidy) : (logRead chan d).Tidy := by
  unfold Machine.logRead
  dsimp only
  refine h.request fun d q h => ?_
  split
  · split
    · exact h.status
    · exact h.sendOutput
  · exact h.status

@[simp] theorem Dev.Tidy.moduleRead {chan data} (h : d.Tidy) : (moduleRead chan data d).Tidy := by
  unfold Machine.moduleRead
  dsimp only
  split
  · exact h
  · refine h.request fun d q h => ?_
    split
    · exact h.status
    · split
      · exact h.refused
      · split
        · exact h.muxSelect.reply
        · exact h.muxSelect.busFail.refused

@[simp] theorem Dev.Tidy.counterDir {chan} (h : d.Tidy) : (counterDir chan d).Tidy := by
  unfold Machine.counterDir
  refine h.request fun d q h => ?_
  split
  · split
    · exact h.status
    · exact h.sendOutput
  · exact h.status

@[simp] theorem Dev.Tidy.snapshot {chan} (h : d.Tidy) : (snapshot chan d).Tidy := by
  unfold Machine.snapshot
  refine h.request fun d q h => ?_
  split
  · split
    · exact h.status
    · split
      · exact h.status
      · exact h.openExchange.setFlag.aside
  · exact h.status

@[simp] theorem Dev.Tidy.snapCapture (h : d.Tidy) : (snapCapture d).Tidy := by
  unfold Machine.snapCapture
  dsimp only
  split
  · exact h
  · split
    · exact h.aside.wr.setChan.sendOutput
    · exact h.aside.wr.setChan.sendOutput.setFlag

@[simp] theorem Dev.Tidy.getNonce {chan} (h : d.Tidy) : (getNonce chan d).Tidy :=
  h.request fun _ _ h => .ite h.freeNat.setChan.reply h.status

/-- A signed request that passes its checks is left to what its CODE does with it. -/
theorem Dev.Tidy.signed {ch code minVer argsOk f} (h : d.Tidy) (hf : ∀ e q, e.Tidy → (f e q).Tidy) :
    (d.signed ch code minVer argsOk f).Tidy :=
  h.request fun _ q he => .ite he.setChan.status (.ite he.setChan.status (.ite he.setChan.status (hf _ q he.setChan)))

@[simp] theorem Dev.Tidy.forceSwitch {chan} (h : d.Tidy) : (forceSwitch chan d).Tidy := by
  unfold Machine.forceSwitch
  refine h.signed fun d q h => ?_
  split
  · split
    · exact h.status.forcedSwitch
    · exact h.refused
  · exact h.refused

@[simp] theorem Dev.Tidy.planeRotate {chan} (h : d.Tidy) : (planeRotate chan d).Tidy :=
  h.signed fun _ _ h => h.wr.startRotation.status

@[simp] theorem Dev.Tidy.logClear {chan} (h : d.Tidy) : (logClear chan d).Tidy :=
  h.signed fun _ _ h => .status (.clearLog (h.foldl fun _ _ h => h.setNvm))

@[simp] theorem Dev.Tidy.provision {chan} (h : d.Tidy) : (provision chan d).Tidy :=
  h.request fun _ _ h => .ite h.status (.ite h.refuseRecovery (.ite h.status (.ite h.status h.blowFuses.status)))

theorem Dev.Tidy.takeSegment {ch port x p} (h : d.Tidy) : (d.takeSegment ch port x p).Tidy := by
  unfold Dev.takeSegment
  dsimp only
  split
  · exact h.foldl fun _ _ h => h.supSays
  · split
    · exact h.setChan.reply
    · split
      · exact h.setChan.reply
      · exact h.setChan

@[simp] theorem Dev.Tidy.mgSegment {frame} (h : d.Tidy) : (mgSegment frame d).Tidy := by
  unfold Machine.mgSegment
  dsimp only
  split
  · split
    · split
      · exact h
      · exact h.dropSupFrame.takeSegment
    · exact h.dropSupFrame
  · exact h

@[simp] theorem Dev.Tidy.pcieReset (h : d.Tidy) : (pcieReset d).Tidy := h.aside.setReg.showEnables.abandonDma.hostUp

@[simp] theorem Dev.Tidy.busMasterChange {on_} (h : d.Tidy) : (busMasterChange on_ d).Tidy := by
  unfold Machine.busMasterChange
  split
  · exact h.aside.hostUp
  · exact h.aside.hostUp.abandonDma

/-! #### Start-up -/

theorem Dev.Tidy.imageRec {r} (h : d.Tidy) : (d.imageRec r).2.Tidy := by
  unfold Dev.imageRec
  split
  · split
    next he => exact h.loadReg he
    · exact h
  · split
    next he => exact h.loadBulk he
    · exact h
  · exact .ite h.applyKey h
  · split
    · exact h
    · exact h.loadStore

@[simp] theorem Dev.Tidy.loadRecord {r} (h : d.Tidy) : (d.loadRecord r).Tidy := by
  have hrec := h.imageRec (r := r)
  unfold Dev.loadRecord
  split
  · dsimp only
    split
    · exact h
    · split
      · split
        · split
          next he =>
            rw [he] at hrec
            exact hrec.setCand
          · exact h.failCandidate
        · exact h
      · exact h
  · exact h

@[simp] theorem Dev.Tidy.hbmTrained {stack ok} (h : d.Tidy) : (hbmTrained stack ok d).Tidy := by
  unfold Machine.hbmTrained
  dsimp only
  split
  · split
    · exact h.aside
    · split
      · exact h.aside.stackUp
      · exact h.aside.failStack
  · exact h

theorem Dev.Tidy.releaseChecks (h : d.Tidy) : d.releaseChecks.Tidy :=
  .foldl (.foldl (.pairsCheck (h.checkPairs.checkMirrors.checkSeal.foldl fun _ _ h => h.ptpCheck))
    fun _ _ h => h.applyTxeq) fun _ _ h => h.portCheck

theorem Dev.Tidy.releaseEnd (h : d.Tidy) : d.releaseEnd.Tidy := h.setFlag.aside.wr.wr.aside

theorem Dev.Tidy.rot {r} (h : d.Tidy) : Dev.Tidy { d with vat := { d.vat with rot := r } } := h.aside

@[simp] theorem Dev.Tidy.forwardingRelease (h : d.Tidy) : (forwardingRelease d).Tidy := by
  unfold Machine.forwardingRelease
  split
  · extract_lets boot d1 d2 d3 vat d4 d5
    have h3 : d3.Tidy := h.aside.latch.fabricRelease.releaseTime.releaseStores.releaseChecks.releaseGates
    clear_value d3
    have h4 : d4.Tidy := h3.rot
    clear_value d4
    have h5 : d5.Tidy := h4.releasePower.moduleStart
    clear_value d5
    exact h5.releaseEnd
  · exact h

@[simp] theorem Dev.Tidy.recoveryRestart (h : d.Tidy) : (recoveryRestart d).Tidy := by
  unfold Machine.recoveryRestart
  split
  · exact .ite (.timeZero .fullReset) h
  · exact h

/-! #### Amendments -/

theorem Dev.Tidy.takeAmd {ch q src} (h : d.Tidy) : (d.takeAmd ch q src).Tidy := by
  unfold Dev.takeAmd
  dsimp only
  split
  · exact h.rejectAmd.status
  · split
    · exact h.status
    · split
      · exact h.rejectAmd.status
      · exact h.appendEntry.openExchange.aside.showJournal

@[simp] theorem Dev.Tidy.amendSubmit {chan bytes} (h : d.Tidy) : (amendSubmit chan bytes d).Tidy := by
  unfold Machine.amendSubmit
  split
  · refine h.request fun d q h => ?_
    split
    · exact h.status
    · split
      · split
        · exact h.status
        · split
          · exact h.status
          · exact h.takeAmd
      · exact h.takeAmd
  · exact h

@[simp] theorem Dev.Tidy.journalWritten {seq okA okB} (h : d.Tidy) : (journalWritten seq okA okB d).Tidy := by
  unfold Machine.journalWritten
  dsimp only
  split
  · exact h
  · split
    · exact h
    · split
      · exact h.dropAmd.rejectAmd.answer
      · exact .answer (.showDegraded (.setPhase (h.foldl fun _ _ h => h.markEntry)))

theorem Dev.Tidy.commitRegs (h : d.Tidy) : d.commitRegs.Tidy :=
  .foldl (.ite (.foldl (.foldl (.foldl (h.foldl fun _ _ h => h.portEvent) fun _ _ h => h.commitReg)
    fun _ _ h => h.regWritten.shaperChanged) fun _ _ h => h.installGates) (.foldl (.foldl (h.foldl
      fun _ _ h => h.portEvent) fun _ _ h => h.commitReg) fun _ _ h => h.regWritten.shaperChanged)) fun _ _ h => h.wfqRefresh

theorem Dev.Tidy.commitShadow (h : d.Tidy) : d.commitShadow.Tidy :=
  .setFlag (.aside (.checkSeal (.checkMirrors (.commitCtxs (.commitIds (.commitStatic (.foldl (.foldl
    (h.refNext.commitRegs.foldl fun _ _ h => h.writeEntry) fun _ _ h => h.commitKey) fun _ _ h => h.flipHalf)))))))

@[simp] theorem Dev.Tidy.commitEdge (h : d.Tidy) : (commitEdge d).Tidy := by
  unfold Machine.commitEdge
  split
  · split
    · split
      · exact h.commitShadow
      · exact h.aside
    · exact h
  · exact h

@[simp] theorem Dev.Tidy.lateCommit (h : d.Tidy) : (lateCommit d).Tidy := by
  unfold Machine.lateCommit
  split
  · split
    · split
      · exact h.commitShadow.setFlag.foldl fun _ _ h => h.logFrom
      · exact h.aside
    · exact h
  · exact h

theorem Dev.Tidy.replayCommitted {seq mask a} (h : d.Tidy) : (d.replayCommitted seq mask a).Tidy := by
  unfold Dev.replayCommitted
  split
  · exact h.wr.skipEntry
  next he => exact (h.stageAll he).commitShadow.aside.cleanUp

@[simp] theorem Dev.Tidy.journalReplay (h : d.Tidy) : (journalReplay d).Tidy := by
  unfold Machine.journalReplay
  dsimp only
  split
  · split
    · split
      · split
        · exact h.aside.replayCommitted
        · split
          · exact h.aside
          · exact h.aside
      · exact h.aside.skipEntry
    · exact h
  · exact h

@[simp] theorem Dev.Tidy.imageStore {chan bytes} (h : d.Tidy) : (imageStore chan bytes d).Tidy := by
  unfold Machine.imageStore
  dsimp only
  refine h.request fun d q h => ?_
  split
  · exact h.status
  · split
    · exact h.status
    · split
      · exact h.status
      · split
        · exact h.status
        · split
          · exact h.status
          · split
            · exact h.status
            · split
              · exact h.status
              · split
                · split
                  · exact h.status
                  · exact h.openExchange.eraseNvm.aside
                · split
                  · exact h.status
                  · exact h.openExchange.eraseNvm.aside

@[simp] theorem Dev.Tidy.nvmProgramDone {ok} (h : d.Tidy) : (nvmProgramDone ok d).Tidy := by
  unfold Machine.nvmProgramDone
  dsimp only
  split
  · split
    · exact h
    · split
      · split
        · exact h.setNvm.aside.answer
        · exact h.setNvm.aside.eraseNvm
      · exact h.freeNat.aside.answer
  · exact h

/-! ### Every command, and time -/

theorem State.tidy_always {f : Dev → Dev} (q : List Instr) (hf : (f d).Tidy) :
    ∃ e : Dev, State.always ⟨d, q⟩ f = .next ⟨e, q⟩ ∧ e.Tidy := ⟨f d, rfl, hf⟩

theorem State.tidy_on {f : Dev → Dev} (q : List Instr) (h : d.Tidy) (hf : (f d).Tidy) :
    ∃ e : Dev, State.on ⟨d, q⟩ f = .next ⟨e, q⟩ ∧ e.Tidy :=
  State.tidy_always q (.ite hf h)

/-- A command keeps the form: its meaning does, by the lemma named after it. -/
theorem exec_tidy (c : Instr) (h : d.Tidy) (q : List Instr) : ∃ e : Dev, exec c ⟨d, q⟩ = .next ⟨e, q⟩ ∧ e.Tidy := by
  cases c
  case pwrGoodRise | porAssert | porRelease | pwrGoodFall | sysRstAssert | pllLockDone =>
    delta exec
    refine State.tidy_always q ?_
    simp [h]
  all_goals
    delta exec
    refine State.tidy_on q h ?_
    simp [h]

end

theorem step_tidy {s t : State} (h : step s = .next t) (hs : s.dev.Tidy) : t.dev.Tidy := by
  obtain ⟨d, q⟩ := s
  cases q with
  | nil =>
    cases h
    exact hs.tick
  | cons c q =>
    obtain ⟨e, he, htidy⟩ := exec_tidy c hs q
    obtain rfl : (⟨e, q⟩ : State) = t := Host.Outcome.next.inj (he.symm.trans h)
    exact htidy

end Sys2Proof.Machine

section
open Sys2Proof Sys2Proof.Machine

/-- Settles O3 by cases on the command (`exec_tidy`): every write of a table goes through `tput`, which keeps the canonical
form. -/
theorem tablesStayCanonical : Obligations.TablesStayCanonical := by
  unfold Obligations.TablesStayCanonical
  intro s t h hs
  rw [Dev.tidy_iff] at hs ⊢
  exact step_tidy h hs

end

/-! PROOFS about start-up, images and the control store (R37 to R55, R67, R68, R113, R129, R137,
R138, R242). First the shared rules:
which components of the device, and which registers, an operation may change. -/

namespace Sys2Proof.Machine

open Sys2Proof

/-! ### Components an operation may change -/

/-- A component of the device. -/
inductive Part
  | now | free | hold | regs | ctrs | ctrOvf | wire | tabs | time | supv | host | audit | boot | power | ports | mods | path
  | beat
  | look | strm | red | deck | vat | fab | egr
  deriving DecidableEq

/-- The component holds in `e` what it holds in `d`. -/
def Part.same (d e : Dev) : Part → Prop
  | .now => e.now = d.now
  | .free => e.free = d.free
  | .hold => e.hold = d.hold
  | .regs => e.regs = d.regs
  | .ctrs => e.ctrs = d.ctrs
  | .ctrOvf => e.ctrOvf = d.ctrOvf
  | .wire => e.wire = d.wire
  | .tabs => e.tabs = d.tabs
  | .time => e.time = d.time
  | .supv => e.supv = d.supv
  | .host => e.host = d.host
  | .audit => e.audit = d.audit
  | .boot => e.boot = d.boot
  | .power => e.power = d.power
  | .ports => e.ports = d.ports
  | .mods => e.mods = d.mods
  | .path => e.path = d.path
  | .beat => e.beat = d.beat
  | .look => e.look = d.look
  | .strm => e.strm = d.strm
  | .red => e.red = d.red
  | .deck => e.deck = d.deck
  | .vat => e.vat = d.vat
  | .fab => e.fab = d.fab
  | .egr => e.egr = d.egr

/-- Only the components listed differ in `e` from `d`, if any. -/
def Dev.Within (d e : Dev) (l : List Part) : Prop := ∀ p, p ∉ l → p.same d e

namespace Dev.Within

/-- What a component holds in `e` where it is listed, else what it holds in `d`. -/
def pick {α : Type} (l : List Part) (p : Part) (x y : α) : α := if p ∈ l then x else y

theorem eq_pick {α : Type} {l : List Part} {p : Part} {x y : α} (h : p ∉ l → x = y) : x = pick l p x y := by
  unfold pick
  split
  · rfl
  · next hp => exact h hp

/-- The frame, written out. -/
theorem eq {d e : Dev} {l : List Part} (h : d.Within e l) : e =
    ⟨pick l .now e.now d.now, pick l .free e.free d.free, pick l .hold e.hold d.hold, pick l .regs e.regs d.regs,
    pick l .ctrs e.ctrs d.ctrs,
      pick l .ctrOvf e.ctrOvf d.ctrOvf, pick l .wire e.wire d.wire, pick l .tabs e.tabs d.tabs, pick l .time e.time d.time,
      pick l .supv e.supv d.supv, pick l .host e.host d.host, pick l .audit e.audit d.audit, pick l .boot e.boot d.boot,
      pick l .power e.power d.power, pick l .ports e.ports d.ports, pick l .mods e.mods d.mods, pick l .path e.path d.path,
      pick l .beat e.beat d.beat, pick l .look e.look d.look, pick l .strm e.strm d.strm, pick l .red e.red d.red,
      pick l .deck e.deck d.deck, pick l .vat e.vat d.vat, pick l .fab e.fab d.fab, pick l .egr e.egr d.egr⟩ := by
  rw [← eq_pick (h .now), ← eq_pick (h .free), ← eq_pick (h .hold), ← eq_pick (h .regs), ← eq_pick (h .ctrs),
    ← eq_pick (h .ctrOvf),
    ← eq_pick (h .wire), ← eq_pick (h .tabs), ← eq_pick (h .time), ← eq_pick (h .supv), ← eq_pick (h .host), ← eq_pick (h .audit),
    ← eq_pick (h .boot), ← eq_pick (h .power), ← eq_pick (h .ports), ← eq_pick (h .mods), ← eq_pick (h .path),
    ← eq_pick (h .beat),
    ← eq_pick (h .look), ← eq_pick (h .strm), ← eq_pick (h .red), ← eq_pick (h .deck), ← eq_pick (h .vat), ← eq_pick (h .fab),
    ← eq_pick (h .egr)]

theorem refl (d : Dev) (l : List Part) : d.Within d l := fun p _ => by cases p <;> rfl

theorem same_trans {b d e : Dev} {p : Part} (h : p.same b d) (h' : p.same d e) : p.same b e := by
  cases p <;> exact Eq.trans h' h

theorem trans {b d e : Dev} {l : List Part} (h : b.Within d l) (h' : d.Within e l) : b.Within e l :=
  fun p hp => same_trans (h p hp) (h' p hp)

theorem mono {d e : Dev} {l m : List Part} (h : d.Within e l) (hl : l ⊆ m := by decide) : d.Within e m :=
  fun p hp => h p fun hx => hp (hl hx)

section
variable {b d : Dev} {l : List Part} (h : b.Within d l)
include h

theorem ite {c : Prop} [Decidable c] {e : Dev} (he : b.Within e l) : b.Within (if c then d else e) l := by
  split
  · exact h
  · exact he

theorem foldl {β : Type} {f : Dev → β → Dev} {t : List β} (hf : ∀ e x, b.Within e l → b.Within (f e x) l) :
    b.Within (t.foldl f d) l :=
  List.foldlRecOn t f h fun e he x _ => hf e x he

theorem setReg {a w} (hr : .regs ∈ l := by decide) : b.Within (d.setReg a w) l :=
  h.trans fun p hp => by
    cases p with
    | regs => exact absurd hr hp
    | _ => rfl

theorem wr {r v} (hr : .regs ∈ l := by decide) : b.Within (d.wr r v) l := h.setReg hr
theorem setFlag {r v} (hr : .regs ∈ l := by decide) : b.Within (d.setFlag r v) l := h.setReg hr
theorem setBitOf {r k v} (hr : .regs ∈ l := by decide) : b.Within (d.setBitOf r k v) l := h.setReg hr

theorem out {o} (hw : .wire ∈ l := by decide) : b.Within (d.out o) l :=
  h.trans fun p hp => by
    cases p with
    | wire => exact absurd hw hp
    | _ => rfl

theorem irq {v} (hr : .regs ∈ l := by decide) (hw : .wire ∈ l := by decide) : b.Within (d.irq v) l :=
  h.ite (.ite ((h.setBitOf hr).out hw) (h.setBitOf hr))

theorem alarm {g k} (hr : .regs ∈ l := by decide) (hw : .wire ∈ l := by decide) : b.Within (d.alarm g k) l :=
  h.ite ((h.setBitOf hr).irq hr hw)

theorem cntBy {c i n} (hc : .ctrs ∈ l := by decide) (ho : .ctrOvf ∈ l := by decide) : b.Within (d.cntBy c i n) l :=
  h.trans fun p hp => by
    cases p with
    | ctrs => exact absurd hc hp
    | ctrOvf => exact absurd ho hp
    | _ => rfl

theorem setFree {x : Nat} (hf : .free ∈ l := by decide) : b.Within { d with free := x } l :=
  h.trans fun p hp => by
    cases p with
    | free => exact absurd hf hp
    | _ => rfl

theorem setTabs {x : Tab Word} (ht : .tabs ∈ l := by decide) : b.Within { d with tabs := x } l :=
  h.trans fun p hp => by
    cases p with
    | tabs => exact absurd ht hp
    | _ => rfl

theorem setTabW {t i w v} (ht : .tabs ∈ l := by decide) : b.Within (d.setTabW t i w v) l := h.setTabs ht

theorem setDeck {x : DeckleSt} (ht : .deck ∈ l := by decide) : b.Within { d with deck := x } l :=
  h.trans fun p hp => by
    cases p with
    | deck => exact absurd ht hp
    | _ => rfl

theorem setSupv {x : SupvSt} (hs : .supv ∈ l := by decide) : b.Within { d with supv := x } l :=
  h.trans fun p hp => by
    cases p with
    | supv => exact absurd hs hp
    | _ => rfl

theorem setBoot {x : BootSt} (hs : .boot ∈ l := by decide) : b.Within { d with boot := x } l :=
  h.trans fun p hp => by
    cases p with
    | boot => exact absurd hs hp
    | _ => rfl

theorem setBeat {x : BeaterSt} (hs : .beat ∈ l := by decide) : b.Within { d with beat := x } l :=
  h.trans fun p hp => by
    cases p with
    | beat => exact absurd hs hp
    | _ => rfl

theorem submit {r} (hc : .ctrs ∈ l := by decide) (ho : .ctrOvf ∈ l := by decide) (hs : .supv ∈ l := by decide) :
    b.Within (d.submit r) l := .ite (h.setSupv hs) ((h.cntBy hc ho).setSupv hs)

theorem log {t u x} (hc : .ctrs ∈ l := by decide) (ho : .ctrOvf ∈ l := by decide) (hs : .supv ∈ l := by decide) :
    b.Within (d.log t u x) l := h.submit hc ho hs

theorem logFrom {o t u x} (hc : .ctrs ∈ l := by decide) (ho : .ctrOvf ∈ l := by decide) (hs : .supv ∈ l := by decide) :
    b.Within (d.logFrom o t u x) l := h.submit hc ho hs

end
end Dev.Within

theorem Dev.BecOnly.within {d e : Dev} (h : d.BecOnly e) {l : List Part} (hr : .regs ∈ l := by decide)
    (hh : .host ∈ l := by decide)
    (hw : .wire ∈ l := by decide) : d.Within e l := fun p hp => by
  rw [h.frame]
  cases p with
  | regs => exact absurd hr hp
  | host => exact absurd hh hp
  | wire => exact absurd hw hp
  | _ => rfl

/-! ### Registers an operation may write -/

namespace Dev.regsBut

theorem refl (d : Dev) (l : List Nat) : d.regsBut d l := fun _ _ => rfl

section
variable {b d : Dev} {l : List Nat} (h : b.regsBut d l)
include h

theorem trans {e : Dev} (h' : d.regsBut e l) : b.regsBut e l := fun a ha => (h' a ha).trans (h a ha)

theorem mono {m : List Nat} (hl : l ⊆ m) : b.regsBut d m := fun a ha => h a fun hx => ha (hl hx)

theorem of_regs {e : Dev} (he : e.regs = d.regs) : b.regsBut e l := h.trans fun _ _ => Dev.reg_congr he _

theorem ite {c : Prop} [Decidable c] {e : Dev} (he : b.regsBut e l) : b.regsBut (if c then d else e) l := by
  split
  · exact h
  · exact he

theorem foldl {β : Type} {f : Dev → β → Dev} {t : List β} (hf : ∀ e x, b.regsBut e l → b.regsBut (f e x) l) :
    b.regsBut (t.foldl f d) l :=
  List.foldlRecOn t f h fun e he x _ => hf e x he

theorem setReg {a w} (ha : a ∈ l) : b.regsBut (d.setReg a w) l := h.trans fun _ hx => d.reg_setReg_ne _ _ _ fun he => hx (he ▸ ha)
theorem wr {r v} (ha : r.addr ∈ l) : b.regsBut (d.wr r v) l := h.setReg ha
theorem setFlag {r v} (ha : r.addr ∈ l) : b.regsBut (d.setFlag r v) l := h.setReg ha
theorem setBitOf {r k v} (ha : r.addr ∈ l) : b.regsBut (d.setBitOf r k v) l := h.setReg ha
theorem submit {r} : b.regsBut (d.submit r) l := h.of_regs (by simp)
theorem log {t u x} : b.regsBut (d.log t u x) l := h.submit
theorem logFrom {o t u x} : b.regsBut (d.logFrom o t u x) l := h.submit
theorem irq {v} (hi : Reg.HOST_INT_STATUS.addr ∈ l) : b.regsBut (d.irq v) l :=
  h.trans fun _ hx => d.reg_irq_ne _ _ fun he => hx (he ▸ hi)
theorem alarm {g k} (ha : Reg.SUPV_ALM.addr ∈ l) (hi : Reg.HOST_INT_STATUS.addr ∈ l) : b.regsBut (d.alarm g k) l :=
  h.trans fun _ hx => d.reg_alarm_ne _ _ _ (fun he => hx (he ▸ ha)) fun he => hx (he ▸ hi)

end
end Dev.regsBut

end Sys2Proof.Machine

/-! PROOFS about the repair of the control store (R113, R129, R137, R138, R51). -/

namespace Sys2Proof.Machine

open Sys2Proof

/-! ### Flipped bits and the copies that hold them (R113, R138) -/

theorem tget_of_notMem {β : Type} (t : Tab β) (z : β) (k : Nat) (h : ∀ e ∈ t, e.1 ≠ k) : tget t z k = z := by
  induction t with
  | nil => rfl
  | cons x t ih =>
    obtain ⟨a, v⟩ := x
    have ⟨hx, ht⟩ := List.forall_mem_cons.mp h
    rw [tget, if_neg (Ne.symm hx), ih ht]

/-- The words of a bank copy take the keys of its own block. -/
theorem copyKey_div {p k half word : Nat} (hh : half < 2) (hw : word < 2 ^ 14) : copyKey p k half word / 2 ^ 15 = 16 * p + k := by
  unfold copyKey
  split <;> omega

/-- Bank copy `k` of pipeline `p` holds no flipped bit. -/
def Dev.sound (d : Dev) (p k : Nat) : Prop := ∀ e ∈ d.beat.bad, e.1 / 2 ^ 15 ≠ 16 * p + k

theorem Dev.sound.congr {d e : Dev} {p k : Nat} (h : d.sound p k) (he : e.beat.bad = d.beat.bad) : e.sound p k := by
  unfold Dev.sound
  rwa [he]

/-- A sound copy holds the words as the reference has them. -/
theorem Dev.storeWord_of_sound {d : Dev} {p k half word : Nat} (h : d.sound p k) (hh : half < 2) (hw : word < 2 ^ 14) :
    d.storeWord p k half word = d.storeRef p half word := by
  have hz : tget d.beat.bad 0 (copyKey p k half word) = 0 := tget_of_notMem _ _ _ fun e he hk => h e he (hk ▸ copyKey_div hh hw)
  rw [Dev.storeWord, hz, Nat.xor_zero]

theorem Dev.storeRef_congr {d e : Dev} (h : e.beat.store = d.beat.store) (p half word : Nat) :
    e.storeRef p half word = d.storeRef p half word := by
  rw [Dev.storeRef, h, Dev.storeRef]

theorem Dev.copyIn_congr {d e : Dev} {p : Nat} (h : e.reg (Reg.PARS_COPY_STATUS.addr p) = d.reg (Reg.PARS_COPY_STATUS.addr p))
    (k : Nat) :
    e.copyIn p k = d.copyIn p k := by
  rw [Dev.copyIn, Dev.bitOf_congr_reg h, Dev.copyIn]

theorem Dev.copiesIn_congr {d e : Dev} {p : Nat} (h : e.reg (Reg.PARS_COPY_STATUS.addr p) = d.reg (Reg.PARS_COPY_STATUS.addr p)) :
    e.copiesIn p = d.copiesIn p := by
  rw [Dev.copiesIn, funext (Dev.copyIn_congr h), Dev.copiesIn]

theorem Dev.length_copiesIn_le (d : Dev) (p : Nat) : (d.copiesIn p).length ≤ 16 :=
  (List.length_filter_le _ _).trans (by simp)

/-! ### IN_SERVICE and FALLBACK (R137, R140) -/

theorem copyStatus_ne_status (p : Nat) : Reg.PARS_COPY_STATUS.addr p ≠ Reg.PARS_STATUS.addr p := by
  simp only [Reg.PARS_COPY_STATUS.addr, Reg.PARS_STATUS.addr]
  omega

theorem Dev.reg_copiesFollow_ne (d : Dev) (p a : Nat) (h : a ≠ Reg.PARS_STATUS.addr p) : (d.copiesFollow p).reg a = d.reg a := by
  rw [Dev.copiesFollow, Dev.reg_setFlag_ne _ _ _ _ h, Dev.reg_wr_ne _ _ _ _ h]

theorem Dev.copyIn_copiesFollow (d : Dev) (p k : Nat) : (d.copiesFollow p).copyIn p k = d.copyIn p k :=
  Dev.copyIn_congr (d.reg_copiesFollow_ne _ _ (copyStatus_ne_status p)) k

theorem Dev.rd_inService_copiesFollow (d : Dev) (p : Nat) :
    (d.copiesFollow p).rd (Reg.PARS_STATUS.IN_SERVICE p) = (d.copiesIn p).length := by
  have hl := d.length_copiesIn_le p
  rw [Dev.copiesFollow, Dev.setFlag_eq, Dev.rd_wr_disjoint _ (Reg.PARS_STATUS.FALLBACK p) (Reg.PARS_STATUS.IN_SERVICE p) _
    (by simp [Reg.PARS_STATUS.FALLBACK]) rfl (by simp [Reg.PARS_STATUS.FALLBACK, Reg.PARS_STATUS.IN_SERVICE]),
    Dev.rd_wr_same _ _ _ (by simp [Reg.PARS_STATUS.IN_SERVICE])]
  exact Nat.mod_eq_of_lt (Nat.lt_of_le_of_lt hl (show 16 < 2 ^ 5 by decide))

theorem Dev.Within.copiesFollow {b d : Dev} {l : List Part} (h : b.Within d l) {p : Nat} (hr : .regs ∈ l := by decide) :
    b.Within (d.copiesFollow p) l := (h.wr hr).setFlag hr

theorem Dev.regsBut.copiesFollow {b d : Dev} {l : List Nat} (h : b.regsBut d l) {p : Nat} (ha : Reg.PARS_STATUS.addr p ∈ l) :
    b.regsBut (d.copiesFollow p) l := .setFlag (.wr h ha) ha

/-! ### The masks of PARS_COPY_STATUS -/

theorem Dev.bitOf_setBitOf_disjoint (d : Dev) (r s : FRef) (k j : Nat) (b : Bool) (h : r.lo + r.width ≤ 32) (ha : s.addr = r.addr)
    (hd : s.lo + s.width ≤ r.lo ∨ r.lo + r.width ≤ s.lo) : (d.setBitOf r k b).bitOf s j = d.bitOf s j := by
  rw [Dev.bitOf, Dev.setBitOf, Dev.rd_wr_disjoint _ r s _ h ha hd, Dev.bitOf]

theorem Dev.copyIn_reloading (d : Dev) (p k j : Nat) (b : Bool) :
    (d.setBitOf (Reg.PARS_COPY_STATUS.RELOADING p) k b).copyIn p j = d.copyIn p j := by
  rw [Dev.copyIn, Dev.bitOf_setBitOf_disjoint _ (Reg.PARS_COPY_STATUS.RELOADING p) (Reg.PARS_COPY_STATUS.OUT p) _ _ _
    (by simp [Reg.PARS_COPY_STATUS.RELOADING]) rfl
    (by simp [Reg.PARS_COPY_STATUS.RELOADING, Reg.PARS_COPY_STATUS.OUT]), Dev.copyIn]

theorem Dev.copyIn_out (d : Dev) {p k : Nat} (hk : k < 16) (j : Nat) (b : Bool) :
    (d.setBitOf (Reg.PARS_COPY_STATUS.OUT p) k b).copyIn p j = if j = k then !b else d.copyIn p j := by
  rw [Dev.copyIn, Dev.bitOf_setBitOf _ _ _ _ _ (by simp [Reg.PARS_COPY_STATUS.OUT]) hk, Dev.copyIn]
  split
  · next h => simp [h, hk]
  · rfl

theorem Dev.bitOf_reloading_same (d : Dev) {p k : Nat} (hk : k < 16) (b : Bool) :
    (d.setBitOf (Reg.PARS_COPY_STATUS.RELOADING p) k b).bitOf (Reg.PARS_COPY_STATUS.RELOADING p) k = b := by
  rw [Dev.bitOf_setBitOf _ _ _ _ _ (by simp [Reg.PARS_COPY_STATUS.RELOADING]) hk, if_pos rfl]

theorem Dev.bitOf_reloading_out (d : Dev) (p k j : Nat) (b : Bool) :
    (d.setBitOf (Reg.PARS_COPY_STATUS.OUT p) k b).bitOf (Reg.PARS_COPY_STATUS.RELOADING p) j =
      d.bitOf (Reg.PARS_COPY_STATUS.RELOADING p) j :=
  d.bitOf_setBitOf_disjoint _ _ _ _ _ (by simp [Reg.PARS_COPY_STATUS.OUT]) rfl
    (by simp [Reg.PARS_COPY_STATUS.RELOADING, Reg.PARS_COPY_STATUS.OUT])

/-! ### COPY_RELOAD_DONE (R137) -/

/-- Every other counter than the log's overrun stands after a submission as before. -/
theorem Dev.ctrsBut_submit (d : Dev) (r : LogRec) : d.ctrsBut (d.submit r) [Ctr.logOverrun.key 0] := by
  intro k hk
  rw [List.mem_singleton] at hk
  unfold Dev.submit
  split
  · exact ⟨rfl, rfl⟩
  · refine ⟨tget_tput_ne _ _ _ _ _ _ hk, ?_⟩
    dsimp only [Dev.cnt, Dev.cntBy]
    split
    · rfl
    · exact tget_tput_ne _ _ _ _ _ _ hk

theorem Dev.ctrsBut.of_eq {b d e : Dev} {l : List Nat} (h : d.ctrsBut e l) (hc : d.ctrs = b.ctrs) (ho : d.ctrOvf = b.ctrOvf) :
    b.ctrsBut e l := by
  unfold Dev.ctrsBut at h ⊢
  rwa [← hc, ← ho]

/-- The flipped bits outside a copy's block of keys. -/
def unflipped (t : Tab Nat) (p k : Nat) : Tab Nat :=
  t.filter fun e => decide (e.1 < (16 * p + k) * 2 ^ 15) || decide ((16 * p + k) * 2 ^ 15 + 2 ^ 15 ≤ e.1)

/-- A copy whose words have been rewritten from the reference, before it is judged. -/
def Dev.rewritten (d : Dev) (p k : Nat) : Dev :=
  ({ d with beat := { d.beat with bad := unflipped d.beat.bad p k } } : Dev).setBitOf
    (Reg.PARS_COPY_STATUS.RELOADING p) k false

/-- A rewritten copy that read back right returns to service. -/
def Dev.returned (d : Dev) (p k : Nat) : Dev :=
  ({ d with beat := { d.beat with backAt := tput d.beat.backAt 0 (16 * p + k) (d.now + 1) } } : Dev).setBitOf
    (Reg.PARS_COPY_STATUS.OUT p) k false

/-- One that did not is held out until restart. -/
def Dev.heldOff (d : Dev) (p k : Nat) : Dev := { d with beat := { d.beat with heldOut := d.beat.heldOut ++ [16 * p + k] } }

section
variable {d : Dev} {p k : Nat}

theorem reloadDone_of_out (hs : d.supRunning = true) (hk : k < 16) (hin : d.copyIn p k = false)
    (hout : tget d.beat.outAt 0 (16 * p + k) ≠ 0) (hheld : d.beat.heldOut.contains (16 * p + k) = false) :
    (∃ r, reloadDone p k true d = (((d.rewritten p k).returned p k).copiesFollow p).submit r) ∧
      ∃ r, reloadDone p k false d = (((d.rewritten p k).heldOff p k).copiesFollow p).submit r := by
  have hc : (d.supRunning && decide (k < 16) && !d.copyIn p k && decide (tget d.beat.outAt 0 (16 * p + k) ≠ 0) &&
      !d.beat.heldOut.contains (16 * p + k)) = true := by
    rw [hs, hin, hheld, decide_eq_true hk, decide_eq_true hout]
    rfl
  constructor
  · rw [reloadDone, if_pos hc]
    exact ⟨_, rfl⟩
  · rw [reloadDone, if_pos hc]
    exact ⟨_, rfl⟩

theorem Dev.sound_rewritten : (d.rewritten p k).sound p k := by
  intro e he
  have := (List.mem_filter.mp he).2
  simp only [Bool.or_eq_true, decide_eq_true_eq] at this
  omega

theorem Dev.copyIn_rewritten (j : Nat) : (d.rewritten p k).copyIn p j = d.copyIn p j := Dev.copyIn_reloading _ _ _ _ _

theorem Dev.reloading_rewritten (hk : k < 16) : (d.rewritten p k).bitOf (Reg.PARS_COPY_STATUS.RELOADING p) k = false := by
  unfold Dev.rewritten
  exact Dev.bitOf_reloading_same _ hk _

theorem Dev.copyIn_returned (hk : k < 16) : (d.returned p k).copyIn p k = true := by
  rw [Dev.returned, Dev.copyIn_out _ hk, if_pos rfl]
  rfl

theorem Dev.reloading_returned (j : Nat) :
    (d.returned p k).bitOf (Reg.PARS_COPY_STATUS.RELOADING p) j = d.bitOf (Reg.PARS_COPY_STATUS.RELOADING p) j :=
  Dev.bitOf_reloading_out _ _ _ _ _

theorem Dev.reg_heldOff (a : Nat) : (d.heldOff p k).reg a = d.reg a := rfl

/-- What a reload's end leaves as it was. -/
theorem Dev.reload_frame {x : Dev} (hw : d.Within x [.regs, .beat])
    (hx : d.regsBut x [Reg.PARS_COPY_STATUS.addr p, Reg.PARS_STATUS.addr p]) (r : LogRec) :
    let e := (x.copiesFollow p).submit r
    d.regsBut e [Reg.PARS_COPY_STATUS.addr p, Reg.PARS_STATUS.addr p] ∧ d.ctrsBut e [Ctr.logOverrun.key 0] ∧
      e = { d with regs := e.regs, ctrs := e.ctrs, ctrOvf := e.ctrOvf, supv := e.supv, beat := e.beat } := by
  intro e
  have hf : d.Within (x.copiesFollow p) [.regs, .beat] := hw.copiesFollow
  refine ⟨(hx.copiesFollow (by simp)).submit, (Dev.ctrsBut_submit _ r).of_eq (hf .ctrs (by decide)) (hf .ctrOvf (by decide)), ?_⟩
  have h : d.Within e [.regs, .ctrs, .ctrOvf, .supv, .beat] := hf.mono.submit
  clear_value e
  exact h.eq

theorem Dev.within_rewritten : d.Within (d.rewritten p k) [.regs, .beat] := (Dev.Within.refl d _).setBeat.setBitOf

theorem Dev.regsBut_rewritten : d.regsBut (d.rewritten p k) [Reg.PARS_COPY_STATUS.addr p, Reg.PARS_STATUS.addr p] :=
  .setBitOf (.of_regs (.refl d _) rfl) List.mem_cons_self

theorem Dev.Within.returned {b : Dev} {l : List Part} (h : b.Within d l) (hr : .regs ∈ l := by decide)
    (hb : .beat ∈ l := by decide) :
    b.Within (d.returned p k) l := (h.setBeat hb).setBitOf hr

theorem Dev.Within.heldOff {b : Dev} {l : List Part} (h : b.Within d l) (hb : .beat ∈ l := by decide) :
    b.Within (d.heldOff p k) l :=
  h.setBeat hb

theorem Dev.regsBut.returned {b : Dev} {l : List Nat} (h : b.regsBut d l) (ha : Reg.PARS_COPY_STATUS.addr p ∈ l) :
    b.regsBut (d.returned p k) l := .setBitOf (h.of_regs rfl) ha

theorem Dev.regsBut.heldOff {b : Dev} {l : List Nat} (h : b.regsBut d l) : b.regsBut (d.heldOff p k) l := h.of_regs rfl

theorem copyReload_returns (hk : k < 16) (r : LogRec) :
    let e := (((d.rewritten p k).returned p k).copiesFollow p).submit r
    e.copyIn p k = true ∧ e.bitOf (Reg.PARS_COPY_STATUS.RELOADING p) k = false ∧
      (∀ half word, half < 2 → word < 2 ^ 14 → e.storeWord p k half word = d.storeRef p half word) ∧
      e.rd (Reg.PARS_STATUS.IN_SERVICE p) = (e.copiesIn p).length := by
  intro e
  have hreg (a : Nat) : e.reg a = (((d.rewritten p k).returned p k).copiesFollow p).reg a := Dev.reg_submit _ _ _
  have hst := copyStatus_ne_status p
  have hcopy : e.reg (Reg.PARS_COPY_STATUS.addr p) = ((d.rewritten p k).returned p k).reg (Reg.PARS_COPY_STATUS.addr p) :=
    (hreg _).trans (Dev.reg_copiesFollow_ne _ _ _ hst)
  have hbeat : e.beat = ((d.rewritten p k).returned p k).beat := by simp [e, Dev.copiesFollow]
  refine ⟨?_, ?_, fun half word hh hw => ?_, ?_⟩
  · rw [Dev.copyIn_congr hcopy, Dev.copyIn_returned hk]
  · rw [Dev.bitOf_congr_reg hcopy, Dev.reloading_returned, Dev.reloading_rewritten hk]
  · have hs : e.sound p k := (Dev.sound_rewritten (d := d)).congr (by simp [hbeat, Dev.returned])
    rw [Dev.storeWord_of_sound hs hh hw]
    exact Dev.storeRef_congr (by simp [hbeat, Dev.returned, Dev.rewritten]) _ _ _
  · rw [Dev.rd_congr_reg (hreg _), Dev.rd_inService_copiesFollow, Dev.copiesIn_congr hcopy]

theorem copyReload_holds (hin : d.copyIn p k = false) (r : LogRec) :
    let e := (((d.rewritten p k).heldOff p k).copiesFollow p).submit r
    e.copyIn p k = false ∧ e.beat.heldOut.contains (16 * p + k) = true := by
  intro e
  have hreg : e.reg (Reg.PARS_COPY_STATUS.addr p) = (d.rewritten p k).reg (Reg.PARS_COPY_STATUS.addr p) :=
    ((Dev.reg_submit _ _ _).trans (Dev.reg_copiesFollow_ne _ _ _ (copyStatus_ne_status p))).trans (Dev.reg_heldOff _)
  have hbeat : e.beat = ((d.rewritten p k).heldOff p k).beat := by simp [e, Dev.copiesFollow]
  refine ⟨?_, ?_⟩
  · rw [Dev.copyIn_congr hreg, Dev.copyIn_rewritten, hin]
  · rw [hbeat]
    simp [Dev.heldOff]

end

/-! ### STORE_SCRUB (R138) -/

/-- Registers that a copy's leaving touches. -/
def scrubRegs (p : Nat) : List Nat := [Reg.PARS_COPY_STATUS.addr p, Reg.PARS_STATUS.addr p, Reg.SUPV_ALM.addr,
    Reg.HOST_INT_STATUS.addr]

/-- From `d` to `e` copies of pipeline `p` left service, and none came; the store and its flipped bits are the same. -/
structure Dev.Fewer (d e : Dev) (p : Nat) : Prop where
  copies : ∀ k, e.copyIn p k = true → d.copyIn p k = true
  store : e.beat.store = d.beat.store
  bad : e.beat.bad = d.beat.bad
  regs : d.regsBut e (scrubRegs p)
  frame : d.Within e [.regs, .ctrs, .ctrOvf, .wire, .supv, .beat]

theorem Dev.Fewer.refl (d : Dev) (p : Nat) : d.Fewer d p := ⟨fun _ h => h, rfl, rfl, .refl d _, .refl d _⟩

theorem Dev.Fewer.trans {b d e : Dev} {p : Nat} (h : b.Fewer d p) (h' : d.Fewer e p) : b.Fewer e p :=
  ⟨fun k hk => h.copies k (h'.copies k hk), h'.store.trans h.store, h'.bad.trans h.bad, h.regs.trans h'.regs,
    h.frame.trans h'.frame⟩

theorem copyStatus_ne_alarm (p : Nat) : Reg.PARS_COPY_STATUS.addr p ≠ Reg.SUPV_ALM.addr ∧
    Reg.PARS_COPY_STATUS.addr p ≠ Reg.HOST_INT_STATUS.addr := by
  simp only [Reg.PARS_COPY_STATUS.addr, Reg.SUPV_ALM.addr, Reg.HOST_INT_STATUS.addr]
  omega

namespace Dev.Fewer

section
variable {b d : Dev} {p : Nat} (h : b.Fewer d p)
include h

theorem ite {c : Prop} [Decidable c] {e : Dev} (he : b.Fewer e p) : b.Fewer (if c then d else e) p := by
  split
  · exact h
  · exact he

theorem setOut {k : Nat} (hk : k < 16) : b.Fewer (d.setBitOf (Reg.PARS_COPY_STATUS.OUT p) k true) p where
  copies j hj := by
    rw [Dev.copyIn_out _ hk] at hj
    split at hj
    · cases hj
    · exact h.copies j hj
  store := by simpa using h.store
  bad := by simpa using h.bad
  regs := h.regs.setBitOf List.mem_cons_self
  frame := h.frame.setBitOf

theorem setReloading {k : Nat} : b.Fewer (d.setBitOf (Reg.PARS_COPY_STATUS.RELOADING p) k true) p where
  copies j hj := h.copies j (by rwa [Dev.copyIn_reloading] at hj)
  store := by simpa using h.store
  bad := by simpa using h.bad
  regs := h.regs.setBitOf List.mem_cons_self
  frame := h.frame.setBitOf

theorem setOutAt {o : Tab Nat} {l : List Nat} : b.Fewer { d with beat := { d.beat with outAt := o, heldOut := l } } p where
  copies := h.copies
  store := h.store
  bad := h.bad
  regs := h.regs
  frame := h.frame.setBeat

theorem alarm {g k : Nat} : b.Fewer (d.alarm g k) p where
  copies j hj := h.copies j
    ((Dev.copyIn_congr (d.reg_alarm_ne g k _ (copyStatus_ne_alarm p).1 (copyStatus_ne_alarm p).2) j).symm.trans hj)
  store := by simpa using h.store
  bad := by simpa using h.bad
  regs := h.regs.alarm (by simp [scrubRegs]) (by simp [scrubRegs])
  frame := h.frame.alarm

theorem copiesFollow : b.Fewer (d.copiesFollow p) p where
  copies j hj := h.copies j (by rwa [Dev.copyIn_copiesFollow] at hj)
  store := by simpa [Dev.copiesFollow] using h.store
  bad := by simpa [Dev.copiesFollow] using h.bad
  regs := h.regs.copiesFollow (by simp [scrubRegs])
  frame := h.frame.copiesFollow

theorem log {t u : Nat} {x : List Byte} : b.Fewer (d.log t u x) p where
  copies j hj := h.copies j ((Dev.copyIn_congr (Dev.reg_log _ _ _ _ _) j).symm.trans hj)
  store := by simpa using h.store
  bad := by simpa using h.bad
  regs := h.regs.log
  frame := h.frame.log

end
end Dev.Fewer

/-- A copy in service leaves it, and nothing but the records, the alarm and the marks of its leaving follow. -/
theorem Dev.copyOut_fewer {d : Dev} {p k : Nat} (hin : d.copyIn p k = true) :
    (d.setBitOf (Reg.PARS_COPY_STATUS.OUT p) k true).Fewer (d.copyOut p k) p := by
  have h := Dev.Fewer.refl (d.setBitOf (Reg.PARS_COPY_STATUS.OUT p) k true) p
  unfold Dev.copyOut
  rw [if_pos hin]
  exact .ite (.log (.log (.copiesFollow (.alarm (.setOutAt (.ite h.setReloading h))))))
    (.log (.copiesFollow (.alarm (.setOutAt (.ite h.setReloading h)))))

theorem Dev.copyIn_copyOut (d : Dev) {p k : Nat} (hk : k < 16) : (d.copyOut p k).copyIn p k = false := by
  by_cases hin : d.copyIn p k = true
  · by_contra hc
    have := (Dev.copyOut_fewer hin).copies k (Bool.eq_true_of_not_eq_false hc)
    rw [Dev.copyIn_out _ hk, if_pos rfl] at this
    cases this
  · rw [Dev.copyOut, if_neg hin]
    exact Bool.eq_false_of_not_eq_true hin

theorem Dev.Fewer.copyOut {b d : Dev} {p k : Nat} (h : b.Fewer d p) (hk : k < 16) : b.Fewer (d.copyOut p k) p := by
  by_cases hin : d.copyIn p k = true
  · exact (h.setOut hk).trans (Dev.copyOut_fewer hin)
  · rwa [Dev.copyOut, if_neg hin]

/-- One copy compared with the reference (R138). -/
def Dev.compareCopy (p : Nat) (d : Dev) (k : Nat) : Dev :=
  if d.copyIn p k && d.beat.bad.any (fun e => e.1 / 2 ^ 15 == 16 * p + k) then d.copyOut p k else d

theorem Dev.Fewer.compareCopy {b d : Dev} {p k : Nat} (h : b.Fewer d p) (hk : k < 16) : b.Fewer (d.compareCopy p k) p :=
  .ite (h.copyOut hk) h

theorem Dev.sound_compareCopy {d : Dev} {p k : Nat} (hk : k < 16) (hin : (d.compareCopy p k).copyIn p k = true) :
    d.sound p k := by
  unfold Dev.compareCopy at hin
  split at hin
  · rw [Dev.copyIn_copyOut _ hk] at hin
    cases hin
  · next hc =>
    rw [hin] at hc
    intro e he hek
    exact hc (Bool.and_eq_true_iff.mpr ⟨rfl, List.any_eq_true.mpr ⟨e, he, beq_iff_eq.mpr hek⟩⟩)

theorem Dev.Fewer.compareCopies {b d : Dev} {p : Nat} {l : List Nat} (h : b.Fewer d p) (hl : ∀ k ∈ l, k < 16) :
    b.Fewer (l.foldl (Dev.compareCopy p) d) p :=
  List.foldlRecOn (motive := fun e => b.Fewer e p) l _ h fun _ he k hk => he.compareCopy (hl k hk)

/-- Every copy compared that is still in service is sound. -/
theorem Dev.sound_compareCopies {p : Nat} (l : List Nat) (d : Dev) (hl : ∀ k ∈ l, k < 16) :
    ∀ k ∈ l, (l.foldl (Dev.compareCopy p) d).copyIn p k = true → (l.foldl (Dev.compareCopy p) d).sound p k := by
  induction l generalizing d with
  | nil => exact fun k hk => absurd hk List.not_mem_nil
  | cons j l ih =>
    have ⟨hj, hl'⟩ := List.forall_mem_cons.mp hl
    rintro k hk hin
    rcases List.mem_cons.mp hk with rfl | hk
    · have h1 := (Dev.Fewer.refl d p).compareCopy hj
      have h2 := (Dev.Fewer.refl (d.compareCopy p k) p).compareCopies hl'
      exact (Dev.sound_compareCopy hj (h2.copies k hin)).congr (h1.trans h2).bad
    · exact ih _ hl' k hk hin

/-- Bits found flipped go into the words that hold them. -/
def Dev.flipFound (p : Nat) (d : Dev) (u : Nat × Nat × Nat × Nat) : Dev :=
  if u.1 < 16 && u.2.1 < 2 && u.2.2.1 < 2 ^ 14 then d.flipWord p u.1 u.2.1 u.2.2.1 u.2.2.2 else d

/-- `e` differs from `d` by flipped bits at most. -/
structure Dev.Flipped (d e : Dev) : Prop where
  regs : e.regs = d.regs
  store : e.beat.store = d.beat.store
  frame : d.Within e [.beat]

theorem Dev.Flipped.flipWord {b d : Dev} (h : b.Flipped d) {p k half word mask : Nat} :
    b.Flipped (d.flipWord p k half word mask) :=
  ⟨h.regs, h.store, h.frame.setBeat⟩

theorem Dev.flipped_flips (d : Dev) (p : Nat) (u : List (Nat × Nat × Nat × Nat)) : d.Flipped (u.foldl (Dev.flipFound p) d) :=
  List.foldlRecOn u _ ⟨rfl, rfl, .refl d _⟩ fun e he x _ => by
    unfold Dev.flipFound
    split
    · exact he.flipWord
    · exact he

theorem storeScrub_effect {d : Dev} {p : Nat} (hp : p < 4) (hs : d.supRunning = true) (u : List (Nat × Nat × Nat × Nat)) :
    let e := storeScrub p u d
    (∀ k half word, e.copyIn p k = true → half < 2 → word < 2 ^ 14 → e.storeWord p k half word = d.storeRef p half word) ∧
      (∀ k, e.copyIn p k = true → d.copyIn p k = true) ∧ d.regsBut e (scrubRegs p) ∧
      d.Within e [.regs, .ctrs, .ctrOvf, .wire, .supv, .beat] := by
  intro e
  have he : e = (List.range 16).foldl (Dev.compareCopy p) (u.foldl (Dev.flipFound p) d) := by
    show storeScrub p u d = _
    rw [storeScrub, if_pos (by simp [hs, hp])]
    rfl
  have hf := d.flipped_flips p u
  have h16 : ∀ k ∈ List.range 16, k < 16 := fun k hk => List.mem_range.mp hk
  have hc := (Dev.Fewer.refl (u.foldl (Dev.flipFound p) d) p).compareCopies h16
  have hsound := Dev.sound_compareCopies (p := p) _ (u.foldl (Dev.flipFound p) d) h16
  rw [← he] at hc hsound
  refine ⟨fun k half word hk hh hw => ?_, fun k hk => ?_, (Dev.regsBut.of_regs (.refl d _) hf.regs).trans hc.regs,
    hf.frame.mono.trans hc.frame⟩
  · have hk16 : k ∈ List.range 16 := by
      simp only [Dev.copyIn, Bool.and_eq_true, decide_eq_true_eq] at hk
      exact List.mem_range.mpr hk.1
    rw [Dev.storeWord_of_sound (hsound k hk16 hk) hh hw]
    exact Dev.storeRef_congr (hc.store.trans hf.store) _ _ _
  · rw [← Dev.copyIn_congr (Dev.reg_congr hf.regs _)]
    exact hc.copies k hk

/-! ### SIDE_ENTRY_REWRITE and STORE_WORD_READ (R129, R51) -/

theorem sideRewrite_effect {d : Dev} (hs : d.supRunning = true) (p i : Nat) :
    let e := sideRewrite p i d
    tget e.beat.sideBad 0 (4096 * p + i) = 0 ∧
      (∀ k, k ≠ 4096 * p + i → tget e.beat.sideBad 0 k = tget d.beat.sideBad 0 k) ∧
      e = { d with beat := e.beat } ∧ e.beat = { d.beat with sideBad := e.beat.sideBad } := by
  dsimp only
  rw [sideRewrite, if_pos hs]
  exact ⟨tget_tput_same d.beat.sideBad 0 _ 0, fun k hk => tget_tput_ne d.beat.sideBad 0 0 _ k 0 hk, rfl, rfl⟩

/-- The register PARS_STORE_SEL. -/
def storeSelDecl : RDecl := ⟨"PARS_STORE_SEL", [(0x03000020, [(4, 0x10000)])], [0x00000000],
  [⟨31, 1, .w1s, true, .any⟩, ⟨16, 4, .rw, true, .any⟩, ⟨15, 1, .rw, true, .any⟩, ⟨0, 14, .rw, true, .any⟩]⟩

theorem findReg_storeSel : ∀ p, p < 4 → findReg (Reg.PARS_STORE_SEL.addr p) = some (storeSelDecl, [p]) := by decide

theorem portOfAddr_storeSel (p : Nat) (hp : p < 4) : portOfAddr (Reg.PARS_STORE_SEL.addr p) = none := by
  rw [portOfAddr, if_neg]
  simp only [Reg.PARS_STORE_SEL.addr]
  omega

theorem writeWord_storeSel (o : Word) (v : Nat) : writeWord true storeSelDecl o (BitVec.ofNat 32 v) 0 =
    fput (fput (fput o 16 4 (fget (BitVec.ofNat 32 v) 16 4)) 15 1 (fget (BitVec.ofNat 32 v) 15 1)) 0 14
      (fget (BitVec.ofNat 32 v) 0 14) := rfl

/-- The data registers of a pipeline with the parts of a word that they show. -/
def storeData (p w : Nat) : List (Nat × Nat) := (List.range 8).map fun i => (Reg.PARS_STORE_DATA.addr p i, w / 2 ^ (32 * i))

theorem storeData_addrs (p w : Nat) : (storeData p w).map (·.1) = (List.range 8).map (Reg.PARS_STORE_DATA.addr p) := by
  rw [storeData, List.map_map]
  rfl

theorem storeData_nodup (p w : Nat) : ((storeData p w).map (·.1)).Nodup := by
  rw [storeData_addrs]
  refine List.Nodup.map (fun i j hij => ?_) List.nodup_range
  simp only [Reg.PARS_STORE_DATA.addr] at hij
  omega

theorem storeSel_notMem_storeData (p w : Nat) : Reg.PARS_STORE_SEL.addr p ∉ (storeData p w).map (·.1) := by
  rw [storeData_addrs]
  simp only [List.mem_map, List.mem_range, Reg.PARS_STORE_DATA.addr, Reg.PARS_STORE_SEL.addr]
  rintro ⟨i, hi, h⟩
  omega

theorem Dev.readStore_eq (d : Dev) (p : Nat) : d.readStore p =
    (storeData p (d.storeWord p (d.rd (Reg.PARS_STORE_SEL.COPY p)) (d.rd (Reg.PARS_STORE_SEL.HALF p))
      (d.rd (Reg.PARS_STORE_SEL.WORD p)))).foldl (fun (n : Dev) e => n.setReg e.1 (BitVec.ofNat 32 e.2)) d := by
  rw [storeData, List.foldl_map]
  rfl

/-- A privileged read of the store selects the word and shows it. -/
theorem storeRead_privileged {d : Dev} {m p v : Nat} (hp : p < 4) (hm : m ∈ [0x10, 0x11, 0x1F]) (hv : v.testBit 31 = true) :
    ∃ s, d.BecOnly s ∧ storeRead m p v d = (s.setReg (Reg.PARS_STORE_SEL.addr p)
      (writeWord true storeSelDecl (s.reg (Reg.PARS_STORE_SEL.addr p)) (BitVec.ofNat 32 v) 0)).readStore p := by
  have hf := findReg_storeSel p hp
  have hs := (Dev.BecOnly.refl d).busWrite m (Reg.PARS_STORE_SEL.addr p) v 15
  have hr : d.reaches m = true := by fin_cases hm <;> rfl
  have hpriv : d.privileged m = true := by fin_cases hm <;> rfl
  have hb : d.pathBroken m (Reg.PARS_STORE_SEL.addr p) true v = false := by
    rw [Dev.pathBroken, hf]
    rfl
  have hok : (d.busWrite m (Reg.PARS_STORE_SEL.addr p) v 15).2 = true := Dev.writeActs_plain hf (by decide) hr hb
  refine ⟨(d.busWrite m (Reg.PARS_STORE_SEL.addr p) v 15).1, hs, ?_⟩
  unfold storeRead
  dsimp only
  rw [hok, if_pos (by simp [hp]), hs.privileged, hpriv, if_pos (by simp [hv]), Dev.writeReg_plain hf (portOfAddr_storeSel p hp)]

theorem storeRead_effect {d : Dev} {m p v : Nat} (hp : p < 4) (hm : m ∈ [0x10, 0x11, 0x1F]) (hv : v.testBit 31 = true) :
    let e := storeRead m p v d
    (∀ i, i < 8 → (e.reg (Reg.PARS_STORE_DATA.addr p i)).toNat =
      d.storeWord p (v / 2 ^ 16 % 16) (v / 2 ^ 15 % 2) (v % 2 ^ 14) / 2 ^ (32 * i) % 2 ^ 32) ∧
      e.rd (Reg.PARS_STORE_SEL.COPY p) = v / 2 ^ 16 % 16 ∧ e.rd (Reg.PARS_STORE_SEL.HALF p) = v / 2 ^ 15 % 2 ∧
      e.rd (Reg.PARS_STORE_SEL.WORD p) = v % 2 ^ 14 ∧ e = { d with regs := e.regs, wire := e.wire, host := e.host } := by
  obtain ⟨s, hs, he⟩ := storeRead_privileged (d := d) (m := m) hp hm hv
  intro e
  replace he : e = _ := he
  clear_value e
  obtain ⟨x, hx⟩ : ∃ x, x = s.setReg (Reg.PARS_STORE_SEL.addr p)
    (writeWord true storeSelDecl (s.reg (Reg.PARS_STORE_SEL.addr p)) (BitVec.ofNat 32 v) 0) := ⟨_, rfl⟩
  rw [← hx, Dev.readStore_eq] at he
  have hsel := congrArg (Dev.reg · (Reg.PARS_STORE_SEL.addr p)) hx
  rw [Dev.reg_setReg_same, writeWord_storeSel] at hsel
  have hcopy : x.rd (Reg.PARS_STORE_SEL.COPY p) = v / 2 ^ 16 % 16 := by
    show fget (x.reg (Reg.PARS_STORE_SEL.addr p)) 16 4 = _
    rw [hsel, fget_fput_disjoint _ _ _ _ _ _ (by decide) (by decide), fget_fput_disjoint _ _ _ _ _ _ (by decide) (by decide),
      fget_fput_same _ _ _ _ (by decide), fget_ofNat _ _ _ (by decide)]
    omega
  have hhalf : x.rd (Reg.PARS_STORE_SEL.HALF p) = v / 2 ^ 15 % 2 := by
    show fget (x.reg (Reg.PARS_STORE_SEL.addr p)) 15 1 = _
    rw [hsel, fget_fput_disjoint _ _ _ _ _ _ (by decide) (by decide), fget_fput_same _ _ _ _ (by decide),
      fget_ofNat _ _ _ (by decide)]
    omega
  have hword : x.rd (Reg.PARS_STORE_SEL.WORD p) = v % 2 ^ 14 := by
    show fget (x.reg (Reg.PARS_STORE_SEL.addr p)) 0 14 = _
    rw [hsel, fget_fput_same _ _ _ _ (by decide), fget_ofNat _ _ _ (by decide)]
    omega
  have hstore (k half word : Nat) : x.storeWord p k half word = d.storeWord p k half word := by
    have hb : x.beat = d.beat := by rw [hx, hs.frame]; simp
    rw [Dev.storeWord, Dev.storeRef, hb, Dev.storeWord, Dev.storeRef]
  rw [hcopy, hhalf, hword, hstore] at he
  have hkeep : e.reg (Reg.PARS_STORE_SEL.addr p) = x.reg (Reg.PARS_STORE_SEL.addr p) := by
    rw [he, reg_foldl_setReg_of_notMem _ _ _ (storeSel_notMem_storeData p _)]
  refine ⟨fun i hi => ?_, (Dev.rd_congr_reg hkeep).trans hcopy, (Dev.rd_congr_reg hkeep).trans hhalf,
    (Dev.rd_congr_reg hkeep).trans hword, ?_⟩
  · rw [he]
    have hmem := List.mem_map_of_mem (f := fun i => (Reg.PARS_STORE_DATA.addr p i,
      d.storeWord p (v / 2 ^ 16 % 16) (v / 2 ^ 15 % 2) (v % 2 ^ 14) / 2 ^ (32 * i))) (List.mem_range.mpr hi)
    rw [reg_foldl_setReg_of_mem _ x _ (storeData_nodup p _) hmem, BitVec.toNat_ofNat]
  · have hw : d.Within e [.regs, .wire, .host] := he ▸ .foldl (hx ▸ hs.within.setReg) fun _ _ h => h.setReg
    exact hw.eq

theorem exec_copyReloadDone {d : Dev} (hl : d.hold.live = true) (q : List Instr) (p k : Nat) (ok : Bool) :
    exec (.copyReloadDone p k ok) ⟨d, q⟩ = .next ⟨reloadDone p k ok d, q⟩ := State.on_live hl q _

theorem exec_storeScrub {d : Dev} (hl : d.hold.live = true) (q : List Instr) (p : Nat) (u : List (Nat × Nat × Nat × Nat)) :
    exec (.storeScrub p u) ⟨d, q⟩ = .next ⟨storeScrub p u d, q⟩ := State.on_live hl q _

theorem exec_sideEntryRewrite {d : Dev} (hl : d.hold.live = true) (q : List Instr) (p i : Nat) :
    exec (.sideEntryRewrite p i) ⟨d, q⟩ = .next ⟨sideRewrite p i d, q⟩ := State.on_live hl q _

theorem exec_storeWordRead {d : Dev} (hl : d.hold.live = true) (q : List Instr) (m p v : Nat) :
    exec (.storeWordRead m p v) ⟨d, q⟩ = .next ⟨storeRead m p v d, q⟩ := State.on_live hl q _

end Sys2Proof.Machine

section
open Sys2Proof Sys2Proof.Machine

/-- Settles O22: a reload rewrites the copy's words (`copyReload_returns`, `copyReload_holds`), a scrub compares the copies one
after the other (`storeScrub_effect`), and a store read shows what it selects (`storeRead_effect`). -/
theorem controlStoreIsRepaired : Obligations.ControlStoreIsRepaired := by
  unfold Obligations.ControlStoreIsRepaired
  refine ⟨fun d q p k hl _ hk hs hin hout hheld => ?_, fun d q p u hl hp hs => ?_, fun d q p i hl hs => ?_,
    fun d q p m v hl hp hm _ hv => ?_⟩
  · obtain ⟨⟨r, hret⟩, r', hheldOff⟩ := reloadDone_of_out hs hk hin hout hheld
    constructor
    · obtain ⟨hcopy, hmark, hwords, hcount⟩ := copyReload_returns (d := d) (p := p) hk r
      obtain ⟨hregs, hctrs, hframe⟩ := Dev.reload_frame (p := p) (x := (d.rewritten p k).returned p k)
        Dev.within_rewritten.returned (Dev.regsBut_rewritten.returned List.mem_cons_self) r
      exact ⟨_, (exec_copyReloadDone hl q p k true).trans (by rw [hret]), hcopy, hmark, hwords, hcount, hregs, hctrs, hframe⟩
    · obtain ⟨hcopy, hout⟩ := copyReload_holds hin r'
      obtain ⟨hregs, -, hframe⟩ := Dev.reload_frame (p := p) (x := (d.rewritten p k).heldOff p k)
        Dev.within_rewritten.heldOff Dev.regsBut_rewritten.heldOff r'
      exact ⟨_, (exec_copyReloadDone hl q p k false).trans (by rw [hheldOff]), hcopy, hout, hregs, hframe⟩
  · obtain ⟨hwords, hfewer, hregs, hframe⟩ := storeScrub_effect hp hs u
    exact ⟨_, exec_storeScrub hl q p u, hwords, hfewer, hregs, hframe.eq⟩
  · exact ⟨_, exec_sideEntryRewrite hl q p i, sideRewrite_effect hs p i⟩
  · exact ⟨_, exec_storeWordRead hl q m p v, storeRead_effect hp hm hv⟩

end

/-! PROOFS about requests and replies on the host's mailboxes (R364 to R375) and the image store (R68). -/

namespace Sys2Proof.Machine

open Sys2Proof

/-! ### Bytes of words (R47) -/

theorem le_fromLe (l : List Byte) : le l.length (fromLe l) = l := by
  induction l with
  | nil => rfl
  | cons b l ih =>
    have hb := b.isLt
    have hmod : BitVec.ofNat 8 (b.toNat + 256 * fromLe l) = b := by
      apply BitVec.eq_of_toNat_eq
      rw [BitVec.toNat_ofNat]
      omega
    have hdiv : (b.toNat + 256 * fromLe l) / 256 = fromLe l := by omega
    rw [List.length_cons, fromLe, le, hmod, hdiv, ih]

theorem fromLe_lt (l : List Byte) : fromLe l < 2 ^ (8 * l.length) := by
  induction l with
  | nil => decide
  | cons b l ih =>
    have hb := b.isLt
    rw [fromLe, List.length_cons, Nat.mul_succ, Nat.pow_add]
    omega

theorem length_slice (l : List Byte) (off n : Nat) : (slice l off n).length = n := by
  simp [slice]

/-- Four bytes as a word, and back. -/
theorem le_fromLe_slice (b : List Byte) (off : Nat) : le 4 (fromLe (slice b off 4)) = slice b off 4 := by
  have h := le_fromLe (slice b off 4)
  rwa [length_slice] at h

theorem getElem?_slice {l : List Byte} {off n i : Nat} (hi : i < n) : (slice l off n)[i]? = some ((l[off + i]?).getD 0) := by
  unfold slice
  dsimp only
  rw [List.getElem?_append]
  split
  · next h =>
    rw [List.getElem?_take_of_lt hi, List.getElem?_drop]
    simp only [List.length_take, List.length_drop] at h
    rw [List.getElem?_eq_getElem (by omega)]
    rfl
  · next h =>
    simp only [List.length_take, List.length_drop, Nat.lt_min, not_and, not_lt] at h
    rw [List.getElem?_replicate_of_lt (by simp only [List.length_take, List.length_drop]; omega),
      List.getElem?_eq_none (by have := h hi; omega)]
    rfl

theorem slice_append (l : List Byte) (off m n : Nat) : slice l off m ++ slice l (off + m) n = slice l off (m + n) := by
  apply List.ext_getElem?
  intro i
  rw [List.getElem?_append, length_slice]
  by_cases hi : i < m + n
  · rw [getElem?_slice hi]
    split
    · next h => rw [getElem?_slice h]
    · next h => rw [getElem?_slice (by omega), show off + m + (i - m) = off + i by omega]
  · have : ¬ i < m := by omega
    rw [if_neg this, List.getElem?_eq_none (by rw [length_slice]; omega), List.getElem?_eq_none (by rw [length_slice]; omega)]

/-- A buffer's words, laid out as bytes. -/
theorem flatMap_slice (b : List Byte) (n : Nat) : (List.range n).flatMap (fun i => slice b (4 * i) 4) = slice b 0 (4 * n) := by
  induction n with
  | zero => simp [slice]
  | succ n ih =>
    rw [List.range_succ, List.flatMap_append, ih, List.flatMap_singleton, Nat.mul_succ]
    simpa using slice_append b 0 (4 * n) 4

theorem slice_drop (b : List Byte) (k off n : Nat) : slice (b.drop k) off n = slice b (k + off) n := by
  rw [slice, List.drop_drop, slice]

/-! ### The buffer and control of a mailbox (R364, R365) -/

theorem mbBuf_ne {m i j : Nat} (h : i ≠ j) : (Reg.HOST_MB_BUF.DATA m i).addr ≠ (Reg.HOST_MB_BUF.DATA m j).addr := by
  simp only [Reg.HOST_MB_BUF.DATA, Reg.HOST_MB_BUF.addr]
  omega

theorem mbBuf_ne_ctrl (m i : Nat) {k : Nat} (hk : k < 16) : (Reg.HOST_MB_BUF.DATA m i).addr ≠ Reg.HOST_MB_CTRL.addr k := by
  simp only [Reg.HOST_MB_BUF.DATA, Reg.HOST_MB_BUF.addr, Reg.HOST_MB_CTRL.addr]
  omega

theorem mbBuf_ne_int (m i : Nat) : (Reg.HOST_MB_BUF.DATA m i).addr ≠ Reg.HOST_INT_STATUS.addr := by
  simp only [Reg.HOST_MB_BUF.DATA, Reg.HOST_MB_BUF.addr, Reg.HOST_INT_STATUS.addr]
  omega

theorem mbCtrl_ne_int (m : Nat) : Reg.HOST_MB_CTRL.addr m ≠ Reg.HOST_INT_STATUS.addr := by
  simp only [Reg.HOST_MB_CTRL.addr, Reg.HOST_INT_STATUS.addr]
  omega

theorem mbCtrl_ne {m k : Nat} (h : m ≠ k) : Reg.HOST_MB_CTRL.addr m ≠ Reg.HOST_MB_CTRL.addr k := by
  simp only [Reg.HOST_MB_CTRL.addr]
  omega

/-- Words written into the first `n` places of a buffer. -/
theorem rd_foldl_wr_data (m : Nat) (f : Nat → Nat) (n : Nat) (d : Dev) (i : Nat) (hi : i < n) :
    ((List.range n).foldl (fun (d : Dev) i => d.wr (Reg.HOST_MB_BUF.DATA m i) (f i)) d).rd (Reg.HOST_MB_BUF.DATA m i) =
      f i % 2 ^ 32 := by
  induction n with
  | zero => omega
  | succ n ih =>
    rw [List.range_succ, List.foldl_append, List.foldl_cons, List.foldl_nil]
    by_cases h : i = n
    · rw [h, Dev.rd_wr_same _ _ _ (by simp [Reg.HOST_MB_BUF.DATA])]
      rfl
    · rw [Dev.rd_wr_ne _ _ _ _ (mbBuf_ne h), ih (by omega)]

theorem Dev.rd_setMbBytes (d : Dev) (m : Nat) (b : List Byte) {i : Nat} (hi : i < 64) :
    (d.setMbBytes m b).rd (Reg.HOST_MB_BUF.DATA m i) = fromLe (slice b (4 * i) 4) := by
  have hlt := fromLe_lt (slice b (4 * i) 4)
  rw [length_slice] at hlt
  rw [Dev.setMbBytes, rd_foldl_wr_data _ _ _ _ _ hi, Nat.mod_eq_of_lt hlt]

theorem Dev.reg_setMbBytes_ne (d : Dev) (m : Nat) (b : List Byte) (a : Nat) (h : ∀ i, a ≠ (Reg.HOST_MB_BUF.DATA m i).addr) :
    (d.setMbBytes m b).reg a = d.reg a :=
  List.foldlRecOn (motive := fun e : Dev => e.reg a = d.reg a) _ _ rfl fun e he i _ => (e.reg_wr_ne _ _ _ (h i)).trans he


theorem Dev.reg_postMb_ne (d : Dev) (m k a : Nat) (hb : a ≠ (Reg.HOST_MB_BUF.DATA m 0).addr) (hc : a ≠ Reg.HOST_MB_CTRL.addr m)
    (hi : a ≠ Reg.HOST_INT_STATUS.addr) : (d.postMb m k).reg a = d.reg a := by
  have h (d : Dev) (v w : Nat) (b : Bool) :
      (((d.wr (Reg.HOST_MB_BUF.DATA m 0) v).wr (Reg.HOST_MB_CTRL.SEQ m) w).setFlag (Reg.HOST_MB_CTRL.FULL m) b).reg a =
        d.reg a := by
    rw [Dev.reg_setFlag_ne _ _ _ _ hc, Dev.reg_wr_ne _ _ _ _ hc, Dev.reg_wr_ne _ _ _ _ hb]
  unfold Dev.postMb
  dsimp only
  split
  · rw [Dev.reg_irq_ne _ _ _ hi, h]
  · exact h _ _ _ _

/-- The message that a buffer holds after POST: byte 3 names the sender (R365). -/
def stamped (b : List Byte) (k : Nat) : List Byte := b.take 3 ++ BitVec.ofNat 8 k :: b.drop 4

theorem slice_stamped_zero (x y z w : Byte) (b : List Byte) (k : Nat) :
    slice (stamped (x :: y :: z :: w :: b) k) 0 4 = [x, y, z, BitVec.ofNat 8 k] := rfl

theorem fromLe_stamp (x y z w : Byte) (k : Nat) :
    fromLe [x, y, z, w] % 2 ^ 24 + k % 256 * 2 ^ 24 = fromLe [x, y, z, BitVec.ofNat 8 k] := by
  have hx := x.isLt
  have hy := y.isLt
  have hz := z.isLt
  simp only [fromLe, BitVec.toNat_ofNat]
  omega

theorem slice_stamped_succ (x y z w : Byte) (b : List Byte) (k i : Nat) :
    slice (stamped (x :: y :: z :: w :: b) k) (4 * (i + 1)) 4 = slice (x :: y :: z :: w :: b) (4 * (i + 1)) 4 := by
  rw [show 4 * (i + 1) = 4 + 4 * i by omega, ← slice_drop, ← slice_drop]
  rfl

/-- Setting a buffer and posting it leaves the message there, stamped. -/
theorem Dev.mbBytes_posted (d : Dev) {m : Nat} (hm : m < 16) (x y z w : Byte) (b : List Byte) (k : Nat) :
    ((d.setMbBytes m (x :: y :: z :: w :: b)).postMb m k).mbBytes m = slice (stamped (x :: y :: z :: w :: b) k) 0 256 := by
  obtain ⟨e, he⟩ : ∃ e, e = d.setMbBytes m (x :: y :: z :: w :: b) := ⟨_, rfl⟩
  have hword (i : Nat) (hi : i < 64) : e.rd (Reg.HOST_MB_BUF.DATA m i) = fromLe (slice (x :: y :: z :: w :: b) (4 * i) 4) := by
    rw [he, Dev.rd_setMbBytes _ _ _ hi]
  have hpost (i : Nat) (hi : i < 64) : le 4 ((e.postMb m k).rd (Reg.HOST_MB_BUF.DATA m i)) =
    slice (stamped (x :: y :: z :: w :: b) k) (4 * i) 4 := by
    cases i with
    | zero =>
      have hrd : (e.postMb m k).rd (Reg.HOST_MB_BUF.DATA m 0) = fromLe [x, y, z, BitVec.ofNat 8 k] := by
        have hlt := fromLe_lt [x, y, z, BitVec.ofNat 8 k]
        have hc := mbBuf_ne_ctrl m 0 hm
        have h (d : Dev) (v : Nat) (b : Bool) :
            ((d.wr (Reg.HOST_MB_CTRL.SEQ m) v).setFlag (Reg.HOST_MB_CTRL.FULL m) b).rd (Reg.HOST_MB_BUF.DATA m 0) =
              d.rd (Reg.HOST_MB_BUF.DATA m 0) := by
          rw [Dev.setFlag_eq, Dev.rd_wr_ne _ (Reg.HOST_MB_CTRL.FULL m) _ _ hc, Dev.rd_wr_ne _ (Reg.HOST_MB_CTRL.SEQ m) _ _ hc]
        have hv : (e.wr (Reg.HOST_MB_BUF.DATA m 0) (e.rd (Reg.HOST_MB_BUF.DATA m 0) % 2 ^ 24 + k % 256 * 2 ^ 24)).rd
            (Reg.HOST_MB_BUF.DATA m 0) = fromLe [x, y, z, BitVec.ofNat 8 k] := by
          have hw : e.rd (Reg.HOST_MB_BUF.DATA m 0) = fromLe [x, y, z, w] := hword 0 (by omega)
          rw [Dev.rd_wr_same _ _ _ (by simp [Reg.HOST_MB_BUF.DATA]), hw, fromLe_stamp]
          exact Nat.mod_eq_of_lt hlt
        unfold Dev.postMb
        dsimp only
        split
        · rw [Dev.rd_congr_reg (Dev.reg_irq_ne _ _ _ (mbBuf_ne_int m 0)), h, hv]
        · rw [h, hv]
      rw [hrd, Nat.mul_zero, slice_stamped_zero]
      exact le_fromLe [x, y, z, BitVec.ofNat 8 k]
    | succ i =>
      have hb : (Reg.HOST_MB_BUF.DATA m (i + 1)).addr ≠ (Reg.HOST_MB_BUF.DATA m 0).addr := mbBuf_ne (by omega)
      rw [Dev.rd_congr_reg (Dev.reg_postMb_ne e m k _ hb (mbBuf_ne_ctrl m _ hm) (mbBuf_ne_int m _)), hword _ hi, le_fromLe_slice,
        slice_stamped_succ]
  have hmap : (List.range 64).map (fun i => le 4 ((e.postMb m k).rd (Reg.HOST_MB_BUF.DATA m i))) =
      (List.range 64).map fun i => slice (stamped (x :: y :: z :: w :: b) k) (4 * i) 4 :=
    List.map_congr_left fun i hi => hpost i (List.mem_range.mp hi)
  rw [← he, Dev.mbBytes, List.flatMap, hmap, ← List.flatMap, flatMap_slice]

theorem length_le (n v : Nat) : (le n v).length = n := by
  induction n generalizing v with
  | zero => rfl
  | succ n ih => rw [le, List.length_cons, ih]

theorem Dev.mbBytes_posted_of_length (d : Dev) {m : Nat} (hm : m < 16) (b : List Byte) (hb : 4 ≤ b.length) (k : Nat) :
    ((d.setMbBytes m b).postMb m k).mbBytes m = slice (stamped b k) 0 256 := by
  match b, hb with
  | x :: y :: z :: w :: b, _ => exact d.mbBytes_posted hm x y z w b k

theorem Dev.flag_setFlag_full (d : Dev) (m : Nat) (b : Bool) : (d.setFlag (Reg.HOST_MB_CTRL.FULL m) b).mbFull m = b :=
  d.flag_setFlag_same _ _ (by simp [Reg.HOST_MB_CTRL.FULL]) rfl

theorem Dev.mbFull_postMb (d : Dev) (m k : Nat) : (d.postMb m k).mbFull m = true := by
  unfold Dev.postMb
  dsimp only
  split
  · exact (Dev.flag_congr_reg (Dev.reg_irq_ne _ _ _ (mbCtrl_ne_int m))).trans (Dev.flag_setFlag_full _ _ _)
  · exact Dev.flag_setFlag_full _ _ _

theorem Dev.rd_seq_postMb (d : Dev) {m : Nat} (hm : m < 16) (k : Nat) :
    (d.postMb m k).rd (Reg.HOST_MB_CTRL.SEQ m) = (d.rd (Reg.HOST_MB_CTRL.SEQ m) + 1) % 65536 := by
  have h (d : Dev) : (d.setFlag (Reg.HOST_MB_CTRL.FULL m) true).rd (Reg.HOST_MB_CTRL.SEQ m) = d.rd (Reg.HOST_MB_CTRL.SEQ m) := by
    rw [Dev.setFlag_eq, Dev.rd_wr_disjoint _ (Reg.HOST_MB_CTRL.FULL m) (Reg.HOST_MB_CTRL.SEQ m) _
      (by simp [Reg.HOST_MB_CTRL.FULL]) rfl
      (by simp [Reg.HOST_MB_CTRL.FULL, Reg.HOST_MB_CTRL.SEQ])]
  have hs (d : Dev) (v : Nat) : ((d.wr (Reg.HOST_MB_BUF.DATA m 0) v).wr (Reg.HOST_MB_CTRL.SEQ m)
      ((d.wr (Reg.HOST_MB_BUF.DATA m 0) v).rd (Reg.HOST_MB_CTRL.SEQ m) + 1)).rd (Reg.HOST_MB_CTRL.SEQ m) =
        (d.rd (Reg.HOST_MB_CTRL.SEQ m) + 1) % 65536 := by
    rw [Dev.rd_wr_same _ _ _ (by simp [Reg.HOST_MB_CTRL.SEQ]), Dev.rd_wr_ne _ _ _ _ (mbBuf_ne_ctrl m 0 hm).symm]
    rfl
  unfold Dev.postMb
  dsimp only
  split
  · rw [Dev.rd_congr_reg (Dev.reg_irq_ne _ _ _ (mbCtrl_ne_int m)), h, hs]
  · rw [h, hs]

theorem Dev.bitOf_irq_same (d : Dev) {v : Nat} (hv : v < 7) : (d.irq v).bitOf Reg.HOST_INT_STATUS.SRC v = true := by
  have h : (d.setBitOf Reg.HOST_INT_STATUS.SRC v true).bitOf Reg.HOST_INT_STATUS.SRC v = true := by
    rw [Dev.bitOf_setBitOf _ _ _ _ _ (by decide) hv, if_pos rfl]
  unfold Dev.irq
  split
  · assumption
  · dsimp only
    split
    · exact (Dev.bitOf_congr_reg (Dev.reg_out _ _ _) _).trans h
    · exact h

theorem Dev.bitOf_src_postMb (d : Dev) {c : Nat} (hc : c < 4) (k : Nat) :
    (d.postMb (c + 4) k).bitOf Reg.HOST_INT_STATUS.SRC c = true := by
  have hm : (decide (4 ≤ c + 4) && decide (c + 4 < 8)) = true := by
    simp only [Bool.and_eq_true, decide_eq_true_eq]
    omega
  unfold Dev.postMb
  dsimp only
  rw [if_pos hm, Nat.add_sub_cancel]
  exact Dev.bitOf_irq_same _ (by omega)

/-! ### What a reply is, and what it leaves (R368, R372) -/

theorem Dev.reg_setMbBytes_ctrl (d : Dev) {m k : Nat} (hk : k < 16) (b : List Byte) :
    (d.setMbBytes m b).reg (Reg.HOST_MB_CTRL.addr k) = d.reg (Reg.HOST_MB_CTRL.addr k) :=
  d.reg_setMbBytes_ne _ _ _ fun i => (mbBuf_ne_ctrl m i hk).symm

/-- A reply posted at once: the mailbox was EMPTY and a supervisor is ACTIVE. -/
theorem Dev.reply_posted {d : Dev} {c s : Nat} (hc : c < 4) (hs : d.activeSup = some s) (hf : d.mbFull (c + 4) = false)
    (code tag status detail : Nat) (data : List Byte) : d.reply c code tag status detail data =
      (d.setMbBytes (c + 4) (msgHead code 1 (d.chan c).ver 0 tag 0 data.length status detail ++ data)).postMb (c + 4)
        (supMaster s) := by
  have hm : (c : Nat) < 0x100 := by omega
  unfold Dev.reply
  dsimp only
  rw [if_pos hm, Dev.replyBox, if_pos hc, Dev.postReply, hs]
  dsimp only
  rw [hf, if_neg Bool.false_ne_true]

theorem stamped_msgHead (code flags ver tag seg len status detail k : Nat) (data : List Byte) :
    stamped (msgHead code flags ver 0 tag seg len status detail ++ data) k =
      msgHead code flags ver k tag seg len status detail ++ data := rfl

theorem le_length_msgHead (code flags ver origin tag seg len status detail : Nat) (data : List Byte) :
    4 ≤ (msgHead code flags ver origin tag seg len status detail ++ data).length := by
  simp only [msgHead, List.length_append, length_le]
  omega

theorem Dev.reply_replied {d : Dev} {c s : Nat} (hc : c < 4) (hs : d.activeSup = some s) (hf : d.mbFull (c + 4) = false)
    (code tag status detail : Nat) (data : List Byte) :
    d.replied (d.reply c code tag status detail data) c code tag (d.chan c).ver status detail data := by
  have hm : c + 4 < 16 := by omega
  have hbytes := d.mbBytes_posted_of_length hm (msgHead code 1 (d.chan c).ver 0 tag 0 data.length status detail ++ data)
    (le_length_msgHead _ _ _ _ _ _ _ _ _ _) (supMaster s)
  rw [stamped_msgHead] at hbytes
  rw [Dev.reply_posted hc hs hf]
  refine ⟨s, hs, hbytes, Dev.mbFull_postMb _ _ _, ?_, Dev.bitOf_src_postMb _ hc _⟩
  rw [Dev.rd_seq_postMb _ hm]
  exact congrArg (fun x => (x + 1) % 65536) (Dev.rd_congr_reg (Dev.reg_setMbBytes_ctrl d hm _))

namespace Dev.regsBut
section
variable {b d : Dev} {l : List Nat} (h : b.regsBut d l)
include h

theorem setMbBytes {m : Nat} {x : List Byte} (hl : ∀ i, i < 64 → (Reg.HOST_MB_BUF.DATA m i).addr ∈ l) :
    b.regsBut (d.setMbBytes m x) l :=
  List.foldlRecOn (motive := fun e : Dev => b.regsBut e l) _ _ h fun _ he i hi => he.wr (hl i (List.mem_range.mp hi))

theorem postMb {m k : Nat} (hb : (Reg.HOST_MB_BUF.DATA m 0).addr ∈ l) (hc : Reg.HOST_MB_CTRL.addr m ∈ l)
    (hi : Reg.HOST_INT_STATUS.addr ∈ l) : b.regsBut (d.postMb m k) l :=
  .ite (.irq (.setFlag (.wr (h.wr hb) hc) hc) hi) (.setFlag (.wr (h.wr hb) hc) hc)

end
end Dev.regsBut

namespace Dev.Within
section
variable {b d : Dev} {l : List Part} (h : b.Within d l)
include h

theorem setMbBytes {m : Nat} {x : List Byte} (hr : .regs ∈ l := by decide) : b.Within (d.setMbBytes m x) l :=
  h.foldl fun _ _ h => h.wr hr

theorem postMb {m k : Nat} (hr : .regs ∈ l := by decide) (hw : .wire ∈ l := by decide) : b.Within (d.postMb m k) l :=
  .ite ((((h.wr hr).wr hr).setFlag hr).irq hr hw) (((h.wr hr).wr hr).setFlag hr)

theorem setHost {x : HostSt} (hs : .host ∈ l := by decide) : b.Within { d with host := x } l :=
  h.trans fun p hp => by
    cases p with
    | host => exact absurd hs hp
    | _ => rfl

theorem setChan {c : Nat} {x : Chan} (hh : .host ∈ l := by decide) : b.Within (d.setChan c x) l := h.setHost hh

theorem setNvm {nv : Nat} {n : Nvm} (hb : .boot ∈ l := by decide) : b.Within (d.setNvm nv n) l := h.setBoot hb

theorem showJournal (hr : .regs ∈ l := by decide) : b.Within d.showJournal l := h.wr hr

theorem eraseNvm {nv : Nat} (hr : .regs ∈ l := by decide) (hb : .boot ∈ l := by decide) : b.Within (d.eraseNvm nv) l :=
  .ite ((h.setNvm hb).showJournal hr) h

end
end Dev.Within

/-- Registers that a reply on channel `c` touches. -/
def replyRegs (c : Nat) : List Nat :=
  [Reg.HOST_MB_CTRL.addr (c + 4), Reg.HOST_INT_STATUS.addr] ++ (List.range 64).map (Reg.HOST_MB_BUF.addr (c + 4))

theorem replyRegs_subset_mailRegs (c : Nat) : replyRegs c ⊆ mailRegs c := fun _ ha => List.mem_cons_of_mem _ ha

theorem mbCtrl_notMem_replyRegs {c : Nat} (hc : c < 4) : Reg.HOST_MB_CTRL.addr c ∉ replyRegs c := by
  simp only [replyRegs, List.mem_append, List.mem_cons, List.not_mem_nil, or_false, List.mem_map, List.mem_range, not_or,
    not_exists]
  refine ⟨⟨mbCtrl_ne (by omega), mbCtrl_ne_int c⟩, ?_⟩
  rintro i ⟨hi, he⟩
  exact mbBuf_ne_ctrl (c + 4) i (k := c) (by omega) he

theorem Dev.reply_frame {d : Dev} {c s : Nat} (hc : c < 4) (hs : d.activeSup = some s) (hf : d.mbFull (c + 4) = false)
    (code tag status detail : Nat) (data : List Byte) : let e := d.reply c code tag status detail data
    d.regsBut e (replyRegs c) ∧ d.Within e [.regs, .wire] := by
  have hb (i : Nat) (hi : i < 64) : (Reg.HOST_MB_BUF.DATA (c + 4) i).addr ∈ replyRegs c :=
    List.mem_append_right _ (List.mem_map_of_mem (f := Reg.HOST_MB_BUF.addr (c + 4)) (List.mem_range.mpr hi))
  dsimp only
  rw [Dev.reply_posted hc hs hf]
  exact ⟨.postMb (.setMbBytes (.refl d _) hb) (hb 0 (by omega)) (by simp [replyRegs]) (by simp [replyRegs]),
    (Dev.Within.refl d _).setMbBytes.postMb⟩

/-! ### Taking a request (R330, R370 to R372) -/

section
variable {d : Dev} {k code minVer : Nat} {r : Request}

theorem Dev.chan_setChan_same (d : Dev) (c : Nat) (x : Chan) : (d.setChan c x).chan c = x := tget_tput_same _ _ _ _

theorem Dev.mbFull_setChan (d : Dev) (c m : Nat) (x : Chan) : (d.setChan c x).mbFull m = d.mbFull m := rfl

theorem Dev.dmaReady_cleared (d : Dev) (r : FRef) (b : Bool) (c : Nat) (x : Chan) :
    ((d.setFlag r b).setChan c x).dmaReady = d.dmaReady := rfl

theorem Dev.reg_setChan (d : Dev) (c a : Nat) (x : Chan) : (d.setChan c x).reg a = d.reg a := rfl

theorem Dev.regsBut.setChan {b d : Dev} {l : List Nat} (h : b.regsBut d l) {c : Nat} {x : Chan} : b.regsBut (d.setChan c x) l :=
  h.of_regs rfl

/-- What the taking of a request leaves. -/
structure Dev.Took (d e : Dev) (k : Nat) : Prop where
  empty : e.mbFull k = false
  regs : d.regsBut e [Reg.HOST_MB_CTRL.addr k]
  ver : (e.chan k).ver = (d.chan k).ver
  dma : e.dmaReady = d.dmaReady
  frame : d.Within e [.regs, .host]

theorem Dev.takeRequest_took (hk : k < 4) (hf : d.mbFull k = true) : d.Took (d.takeRequest k) k := by
  have hb : d.requestBoxes k = some (k, k + 4) := by rw [Dev.requestBoxes, if_pos hk, if_pos hf]
  obtain ⟨e, he⟩ : ∃ e, e = (d.setFlag (Reg.HOST_MB_CTRL.FULL k) false).setChan k { d.chan k with port := k + 4 } := ⟨_, rfl⟩
  have h : d.Took e k := by
    rw [he]
    refine ⟨?_, .setChan (.setFlag (.refl d _) List.mem_cons_self), ?_, d.dmaReady_cleared _ _ _ _,
      (Dev.Within.refl d _).setFlag.setChan⟩
    · rw [Dev.mbFull_setChan, Dev.flag_setFlag_full]
    · rw [Dev.chan_setChan_same]
  have ht : d.takeRequest k =
      if e.host.snapChan = k && !e.host.snapArea.isEmpty then { e with host := { e.host with snapArea := [] } }
      else e := by
    rw [he, Dev.takeRequest, hb]
  rw [ht]
  split
  · exact ⟨h.empty, h.regs, h.ver, h.dma, h.frame.setHost⟩
  · exact h

theorem Dev.request_of_asksFor (h : d.asksFor k code minVer r) (recov : Bool) (f : Dev → Request → Dev) :
    d.Took (d.takeRequest k) k ∧ d.request k code minVer recov f = f (d.takeRequest k) r := by
  obtain ⟨⟨hk, hs, hfull, hrep, hout, hreq⟩, hcode, hopen, hbad, hmin, hver, hrec⟩ := h
  have ht := Dev.takeRequest_took hk hfull
  refine ⟨ht, ?_⟩
  have hst : d.standing k = some r := by
    rw [Dev.standing, hs, Dev.requestBoxes, if_pos hk, if_pos hfull]
    simp [hrep, hout, hreq]
  have hv : (d.takeRequest k).boot = d.boot := ht.frame .boot (by decide)
  rw [Dev.request, Dev.onRequest, hst]
  dsimp only
  rw [if_pos (by simp [hcode, hopen]), if_neg (by simp [hbad]), ht.ver, if_neg (by omega), if_neg (by omega), hv, hrec]
  rfl

theorem Dev.activeSup_congr {d e : Dev}
    (h : ∀ s, s < 2 → e.reg (Reg.SUPV_CORE_STATUS.addr s) = d.reg (Reg.SUPV_CORE_STATUS.addr s)) :
    e.activeSup = d.activeSup := by
  have hr (s : Nat) (hs : s < 2) : e.role s = d.role s := Dev.rd_congr_reg (h s hs)
  rw [Dev.activeSup, hr 0 (by omega), hr 1 (by omega), Dev.activeSup]

end

/-! ### A reply to a request that has been taken -/

theorem coreStatus_ne_ctrl (s m : Nat) : Reg.SUPV_CORE_STATUS.addr s ≠ Reg.HOST_MB_CTRL.addr m ∨ 2 ≤ s := by
  simp only [Reg.SUPV_CORE_STATUS.addr, Reg.HOST_MB_CTRL.addr]
  omega

theorem Dev.replied.congr {b d e : Dev} {c code tag ver status detail : Nat} {data : List Byte}
    (h : d.replied e c code tag ver status detail data)
    (hs : d.activeSup = b.activeSup) (hq : d.reg (Reg.HOST_MB_CTRL.addr (c + 4)) = b.reg (Reg.HOST_MB_CTRL.addr (c + 4))) :
    b.replied e c code tag ver status detail data := by
  obtain ⟨s, hact, hbytes, hfull, hseq, hbit⟩ := h
  exact ⟨s, hs ▸ hact, hbytes, hfull, by rw [hseq, Dev.rd_congr_reg hq], hbit⟩

section
variable {d t : Dev} {k : Nat}

theorem Dev.Took.reg (h : d.Took t k) {a : Nat} (ha : a ≠ Reg.HOST_MB_CTRL.addr k) : t.reg a = d.reg a :=
  h.regs a (by simpa using ha)

theorem Dev.Took.activeSup (h : d.Took t k) : t.activeSup = d.activeSup :=
  Dev.activeSup_congr fun s hs => h.reg ((coreStatus_ne_ctrl s k).resolve_right (by omega))

theorem Dev.asksFor.reply {code minVer : Nat} {r : Request} (h : d.asksFor k code minVer r) (ht : d.Took t k)
    (status detail : Nat) :
    d.answered (t.status k r status detail) k r (d.chan k).ver status detail [] ∧
      d.regsBut (t.status k r status detail) (mailRegs k) ∧
      d.Within (t.status k r status detail) [.regs, .wire, .host] := by
  obtain ⟨⟨hk, hs, -, hrep, -⟩, -⟩ := h
  obtain ⟨s, hact⟩ := Option.isSome_iff_exists.mp hs
  have hact' : t.activeSup = some s := ht.activeSup.trans hact
  have hrep' : t.mbFull (k + 4) = false := (Dev.flag_congr_reg (ht.reg (mbCtrl_ne (by omega)))).trans hrep
  have hr := Dev.reply_replied hk hact' hrep' r.code r.tag status detail []
  obtain ⟨hregs, hframe⟩ := Dev.reply_frame hk hact' hrep' r.code r.tag status detail []
  rw [ht.ver] at hr
  refine ⟨⟨?_, hr.congr ht.activeSup (ht.reg (mbCtrl_ne (by omega)))⟩, ?_, ht.frame.mono.trans hframe.mono⟩
  · exact (Dev.flag_congr_reg (hregs _ (mbCtrl_notMem_replyRegs hk))).trans ht.empty
  · exact (ht.regs.mono (by simp [mailRegs])).trans (hregs.mono (replyRegs_subset_mailRegs k))

end

/-! ### IMAGE_STORE (R68) -/

theorem exec_imageStore {d : Dev} (hl : d.hold.live = true) (q : List Instr) (k : Nat) (b : List Byte) :
    exec (.imageStore k b) ⟨d, q⟩ = .next ⟨imageStore k b d, q⟩ := State.on_live hl q _

theorem exec_nvmProgramDone {d : Dev} (hl : d.hold.live = true) (q : List Instr) (ok : Bool) :
    exec (.nvmProgramDone ok) ⟨d, q⟩ = .next ⟨nvmProgramDone ok d, q⟩ := State.on_live hl q _

/-- The devices that a store of mask `m` programs, in order. -/
def Dev.storeTodo (d : Dev) (m : Nat) : List Nat := storeOrder (d.rd Reg.DEV_STRAP.BOOT_SEL) m

/-- The smallest image region among some devices. -/
def Dev.storeRegion (d : Dev) (todo : List Nat) : Nat :=
  todo.foldl (fun n nv => min n (imageRegion (d.nvm nv).capacity)) (imageRegion 128)

/-- The supervisor opens the exchange and begins with the first device. -/
def Dev.storeBegun (t : Dev) (k : Nat) (r : Request) (todo : List Nat) (img : List Byte) : Dev :=
  let e := (t.openExchange k r).eraseNvm (todo.headD 0)
  { e with boot := { e.boot with
    imgStore := some { bytes := img.take (imgHeader img).imageLen, todo := todo, chan := k, tag := r.tag } } }

/-- What the supervisor does with a well-formed store request it has taken, by the checks in their order (log entry 17). -/
def Dev.storeTaken (d t : Dev) (k m : Nat) (r : Request) (img : List Byte) : Dev :=
  let todo := d.storeTodo m
  if (d.runningNvm.map fun nv => m.testBit nv).getD false then t.status k r 6 0
  else if !d.hbmUp 0 && !d.hbmUp 1 then t.status k r 6 0
  else if d.boot.imgStore.isSome then t.status k r 7 0
  else if !d.dmaReady then t.status k r 9 5
  else if todo.any fun nv => !(d.nvm nv).ok then t.status k r 8 0x10
  else if d.storeCode (d.storeRegion todo) img ≠ 0x01 then t.status k r 8 (d.storeCode (d.storeRegion todo) img)
  else t.storeBegun k r todo img

section
variable {d t : Dev} {k : Nat}

theorem Dev.Took.rd (h : d.Took t k) {r : FRef} (ha : r.addr < 0x0C000000) : t.rd r = d.rd r :=
  Dev.rd_congr_reg (h.reg (by simp only [Reg.HOST_MB_CTRL.addr]; omega))

theorem Dev.Took.boot (h : d.Took t k) : t.boot = d.boot := h.frame .boot (by decide)

theorem Dev.Took.hbmUp (h : d.Took t k) {s : Nat} (hs : s < 2) : t.hbmUp s = d.hbmUp s := by
  have ha : (Reg.BUFF_HBM_STATUS.TRAINED s).addr < 0x0C000000 ∧ (Reg.BUFF_HBM_STATUS.FAILED s).addr < 0x0C000000 := by
    simp only [Reg.BUFF_HBM_STATUS.TRAINED, Reg.BUFF_HBM_STATUS.FAILED, Reg.BUFF_HBM_STATUS.addr]
    omega
  rw [Dev.hbmUp, Dev.flag, Dev.flag, h.rd ha.1, h.rd ha.2, Dev.hbmUp, Dev.flag, Dev.flag]

theorem Dev.Took.nvm (h : d.Took t k) (nv : Nat) : t.nvm nv = d.nvm nv := by rw [Dev.nvm, h.boot, Dev.nvm]

theorem Dev.Took.skips (h : d.Took t k) (s : Section) : t.skips s = d.skips s := by
  rw [Dev.skips, h.rd (by decide), Dev.skips]

theorem Dev.Took.storeCode (h : d.Took t k) (region : Nat) (img : List Byte) :
    t.storeCode region img = d.storeCode region img := by
  simp only [Dev.storeCode, h.boot, h.skips]

end

theorem imageStore_eq {d : Dev} {k m len adr : Nat} {r : Request} (b : List Byte) (h : d.asksFor k 0x24 1 r)
    (hlen : r.body.length = 20)
    (hm : fromLe (slice r.body 0 1) = m) (h1 : 1 ≤ m) (h3 : m ≤ 3) (hz : fromLe (slice r.body 1 3) = 0)
    (hd : descriptor (slice r.body 4 16) true false = some (0, len, adr)) :
    d.Took (d.takeRequest k) k ∧ imageStore k b d = d.storeTaken (d.takeRequest k) k m r (slice b 0 len) := by
  have ht := (Dev.request_of_asksFor h true fun d _ => d).1
  refine ⟨ht, ?_⟩
  have hk : decide (0x100 ≤ k) = false := decide_eq_false (by have := h.1.1; omega)
  have hrec : d.boot.recovery = false := h.2.2.2.2.2.2
  unfold imageStore
  rw [(Dev.request_of_asksFor h true _).2]
  generalize d.takeRequest k = t at ht ⊢
  have hbad : ¬(m = 0 ∨ 3 < m) := by omega
  have hrun : t.runningNvm = d.runningNvm := by rw [Dev.runningNvm, ht.boot, Dev.runningNvm]
  have hup : (!t.hbmUp 0 && !t.hbmUp 1) = (!d.hbmUp 0 && !d.hbmUp 1) := by rw [ht.hbmUp (by decide), ht.hbmUp (by decide)]
  dsimp only
  rw [hk, hd]
  dsimp only
  rw [if_neg (by simp [hm, hz, hlen]; omega), hm, hrun, hup, ht.boot, hrec, ht.dma,
    ht.rd (r := Reg.DEV_STRAP.BOOT_SEL) (by decide)]
  simp only [ht.nvm, ht.storeCode]
  rfl

theorem Dev.nvm_setNvm_same (d : Dev) {nv : Nat} (n : Nvm) (h : nv < d.boot.nvm.length) : (d.setNvm nv n).nvm nv = n := by
  simp [Dev.nvm, Dev.setNvm, h]

theorem Dev.nvm_setNvm_ne (d : Dev) {nv j : Nat} (n : Nvm) (h : j ≠ nv) : (d.setNvm nv n).nvm j = d.nvm j := by
  rw [Dev.nvm, Dev.setNvm, List.getElem?_set_ne (Ne.symm h), Dev.nvm]

theorem Dev.lt_of_writable {d : Dev} {nv : Nat} (h : (d.nvm nv).writable = true) : nv < d.boot.nvm.length := by
  by_contra hn
  rw [Dev.nvm, List.getElem?_eq_none (by omega)] at h
  cases h

theorem Dev.nvm_congr {d e : Dev} (h : e.boot.nvm = d.boot.nvm) (nv : Nat) : e.nvm nv = d.nvm nv := by rw [Dev.nvm, h, Dev.nvm]

theorem Dev.boot_showJournal (d : Dev) : d.showJournal.boot = d.boot := by simp [Dev.showJournal]

theorem Dev.image_eraseNvm {d : Dev} {nv : Nat} (h : (d.nvm nv).writable = true) : ((d.eraseNvm nv).nvm nv).image = [] := by
  unfold Dev.eraseNvm
  dsimp only
  rw [if_pos h, Dev.nvm_congr (congrArg BootSt.nvm (Dev.boot_showJournal _)), Dev.nvm_setNvm_same _ _ (Dev.lt_of_writable h)]

theorem Dev.nvm_eraseNvm_ne (d : Dev) {nv j : Nat} (h : j ≠ nv) : (d.eraseNvm nv).nvm j = d.nvm j := by
  unfold Dev.eraseNvm
  dsimp only
  split
  · rw [Dev.nvm_congr (congrArg BootSt.nvm (Dev.boot_showJournal _)), Dev.nvm_setNvm_ne _ _ h]
  · rfl

theorem Dev.regsBut.showJournal {b d : Dev} {l : List Nat} (h : b.regsBut d l) (ha : Reg.DEV_AMD_STATUS.addr ∈ l) :
    b.regsBut d.showJournal l := by
  unfold Dev.showJournal
  exact h.wr ha

theorem Dev.regsBut.eraseNvm {b d : Dev} {l : List Nat} (h : b.regsBut d l) {nv : Nat} (ha : Reg.DEV_AMD_STATUS.addr ∈ l) :
    b.regsBut (d.eraseNvm nv) l := by
  unfold Dev.eraseNvm
  dsimp only
  split
  · exact .showJournal (h.of_regs rfl) ha
  · exact h

theorem Dev.chan_congr {d e : Dev} (h : e.host = d.host) (c : Nat) : e.chan c = d.chan c := by rw [Dev.chan, h, Dev.chan]

theorem ctrl_ne_amdStatus (k : Nat) : Reg.HOST_MB_CTRL.addr k ≠ Reg.DEV_AMD_STATUS.addr := by
  simp only [Reg.HOST_MB_CTRL.addr, Reg.DEV_AMD_STATUS.addr]
  omega

/-- The exchange stays open, the request's mailbox is EMPTY, and the first device is erased (R68). -/
theorem Dev.storeBegun_effect {d t : Dev} {k : Nat} (ht : d.Took t k) (r : Request) (todo : List Nat) (img : List Byte) :
    let e := t.storeBegun k r todo img
    (e.chan k).opened = some ⟨r.code, r.tag⟩ ∧ e.mbFull k = false ∧
      ((d.nvm (todo.headD 0)).writable = true → (e.nvm (todo.headD 0)).image = []) ∧
      d.regsBut e [Reg.HOST_MB_CTRL.addr k, Reg.DEV_AMD_STATUS.addr] ∧ d.Within e [.regs, .host, .boot] := by
  obtain ⟨x, hx⟩ : ∃ x, x = t.openExchange k r := ⟨_, rfl⟩
  obtain ⟨y, hy⟩ : ∃ y, y = x.eraseNvm (todo.headD 0) := ⟨_, rfl⟩
  have hxw : t.Within x [.host] := hx ▸ (Dev.Within.refl t _).setChan
  have hxr : t.regsBut x [] := hx ▸ Dev.regsBut.setChan (.refl t _)
  have hchan : (x.chan k).opened = some ⟨r.code, r.tag⟩ := by rw [hx, Dev.openExchange, Dev.chan_setChan_same]
  have hyw : x.Within y [.regs, .boot] := hy ▸ (Dev.Within.refl x _).eraseNvm
  have hyr : x.regsBut y [Reg.DEV_AMD_STATUS.addr] := hy ▸ Dev.regsBut.eraseNvm (.refl x _) List.mem_cons_self
  have hnvm : (d.nvm (todo.headD 0)).writable = true → (y.nvm (todo.headD 0)).image = [] := fun hw => by
    rw [hy]
    refine Dev.image_eraseNvm ?_
    rwa [Dev.nvm_congr (congrArg BootSt.nvm (hxw .boot (by decide))), ht.nvm]
  unfold Dev.storeBegun
  rw [← hx]
  dsimp only
  rw [← hy]
  refine ⟨?_, ?_, hnvm, ?_, ((ht.frame.mono.trans hxw.mono).trans hyw.mono).setBoot⟩
  · exact (congrArg Chan.opened (Dev.chan_congr (hyw .host (by decide)) k)).trans hchan
  · refine (Dev.flag_congr_reg ?_).trans ht.empty
    exact (hyr _ (List.not_mem_cons_of_ne_of_not_mem (ctrl_ne_amdStatus k) List.not_mem_nil)).trans (hxr _ List.not_mem_nil)
  · exact .of_regs ((ht.regs.mono (by simp)).trans ((hxr.mono (by simp)).trans (hyr.mono (by simp)))) rfl

section
variable {d : Dev} {k m len adr : Nat} {b : List Byte} {r : Request} (h : d.asksFor k 0x24 1 r) (hlen : r.body.length = 20)
  (hm : fromLe (slice r.body 0 1) = m) (h1 : 1 ≤ m) (h3 : m ≤ 3) (hz : fromLe (slice r.body 1 3) = 0)
  (hd : descriptor (slice r.body 4 16) true false = some (0, len, adr))
include h hlen hm h1 h3 hz hd

/-- The refusals of a store request, each by the check that it fails first. -/
theorem imageStore_refused {status detail : Nat}
    (ht : d.storeTaken (d.takeRequest k) k m r (slice b 0 len) = (d.takeRequest k).status k r status detail) :
    let e := imageStore k b d
    d.answered e k r (d.chan k).ver status detail [] ∧ d.regsBut e (mailRegs k) ∧ e = { d with
      regs := e.regs, wire := e.wire, host := e.host } := by
  obtain ⟨htook, heq⟩ := imageStore_eq b h hlen hm h1 h3 hz hd
  obtain ⟨hans, hregs, hframe⟩ := h.reply htook status detail
  dsimp only
  rw [heq, ht]
  exact ⟨hans, hregs, hframe.eq⟩

end

theorem Dev.storeTaken_running {d : Dev} (t : Dev) (k : Nat) {m : Nat} (r : Request) (img : List Byte)
    (h : (∃ nv, d.runningNvm = some nv ∧ m.testBit nv = true) ∨ d.hbmUp 0 = false ∧ d.hbmUp 1 = false) :
    d.storeTaken t k m r img = t.status k r 6 0 := by
  unfold Dev.storeTaken
  dsimp only
  rcases h with ⟨nv, hn, hm⟩ | ⟨h0, h1⟩
  · rw [hn, if_pos (by simpa using hm)]
  · rw [h0, h1]
    split <;> rfl

section
variable {d : Dev} (t : Dev) (k : Nat) {m : Nat} (r : Request) (img : List Byte)
  (hn : ∀ nv, d.runningNvm = some nv → m.testBit nv = false)
  (hup : d.hbmUp 0 = true ∨ d.hbmUp 1 = true)
include hn hup

/-- What is left to check once the device may be stored to. -/
theorem Dev.storeTaken_other : d.storeTaken t k m r img =
    if d.boot.imgStore.isSome then t.status k r 7 0
    else if !d.dmaReady then t.status k r 9 5
    else if (d.storeTodo m).any fun nv => !(d.nvm nv).ok then t.status k r 8 0x10
    else if d.storeCode (d.storeRegion (d.storeTodo m)) img ≠ 0x01 then
      t.status k r 8 (d.storeCode (d.storeRegion (d.storeTodo m)) img)
    else t.storeBegun k r (d.storeTodo m) img := by
  have hrun : (d.runningNvm.map fun nv => m.testBit nv).getD false = false := by
    cases hr : d.runningNvm with
    | none => rfl
    | some nv => exact hn nv hr
  have hnone : (!d.hbmUp 0 && !d.hbmUp 1) = false := by
    rcases hup with h | h <;> simp [h]
  unfold Dev.storeTaken
  dsimp only
  rw [hrun, hnone]
  rfl

theorem Dev.storeTaken_second (hs : d.boot.imgStore ≠ none) : d.storeTaken t k m r img = t.status k r 7 0 := by
  rw [Dev.storeTaken_other t k r img hn hup, if_pos (Option.isSome_iff_ne_none.mpr hs)]

theorem Dev.storeTaken_noDma (hs : d.boot.imgStore = none) (hd : d.dmaReady = false) :
    d.storeTaken t k m r img = t.status k r 9 5 := by
  rw [Dev.storeTaken_other t k r img hn hup, hs, hd]
  rfl

theorem Dev.storeTaken_judged (hs : d.boot.imgStore = none) (hd : d.dmaReady = true)
    (hok : ∀ nv ∈ d.storeTodo m, (d.nvm nv).ok = true) :
    d.storeTaken t k m r img =
      if d.storeCode (d.storeRegion (d.storeTodo m)) img ≠ 0x01 then
        t.status k r 8 (d.storeCode (d.storeRegion (d.storeTodo m)) img)
      else t.storeBegun k r (d.storeTodo m) img := by
  have hany : ((d.storeTodo m).any fun nv => !(d.nvm nv).ok) = false := by
    rw [List.any_eq_false]
    exact fun nv hnv => by simp [hok nv hnv]
  rw [Dev.storeTaken_other t k r img hn hup, hs, hd, hany]
  rfl

end

/-! ### NVM_PROGRAM_DONE (R68) -/

/-- The reply that ends the store's exchange. -/
theorem Dev.answer_replied {d : Dev} {c code tag s : Nat} (hc : c < 4) (hs : d.activeSup = some s) (hf : d.mbFull (c + 4) = false)
    (ho : (d.chan c).opened = some ⟨code, tag⟩) (status detail : Nat) (data : List Byte) :
    let e := d.answer c code tag status detail data
    d.replied e c code tag (d.chan c).ver status detail data ∧ d.Within e [.regs, .wire, .host] := by
  obtain ⟨x, hx⟩ : ∃ x, x = d.setChan c { d.chan c with opened := none } := ⟨_, rfl⟩
  have hreg (a : Nat) : x.reg a = d.reg a := by rw [hx, Dev.reg_setChan]
  have hact : x.activeSup = d.activeSup := Dev.activeSup_congr fun s _ => hreg _
  have hfull : x.mbFull (c + 4) = false := (Dev.flag_congr_reg (hreg _)).trans hf
  have hver : (x.chan c).ver = (d.chan c).ver := by rw [hx, Dev.chan_setChan_same]
  have hr := Dev.reply_replied hc (hact.trans hs) hfull code tag status detail data
  obtain ⟨-, hframe⟩ := Dev.reply_frame hc (hact.trans hs) hfull code tag status detail data
  have hxw : d.Within x [.regs, .wire, .host] := hx ▸ (Dev.Within.refl d _).setChan
  unfold Dev.answer
  dsimp only
  rw [if_pos ho, ← hx]
  exact ⟨hver ▸ hr.congr hact (hreg _), hxw.trans hframe.mono⟩

section
variable {d : Dev} {st : ImgStore} {nv : Nat} (hst : d.boot.imgStore = some st) (hs : d.supRunning = true)
include hst hs

/-- A device programmed with an image. -/
def Dev.programmed (d : Dev) (nv : Nat) (img : List Byte) : Dev := d.setNvm nv { d.nvm nv with image := img }

/-- The device as the image store leaves it before it answers. -/
def Dev.storeEnded (d : Dev) (st : ImgStore) (nv : Nat) : Dev :=
  let e := d.programmed nv st.bytes
  { e with boot := { e.boot with imgStore := none, restartAt := if e.boot.recovery then some e.now else e.boot.restartAt } }

/-- The device as it goes on to the next one. -/
def Dev.storeGoesOn (d : Dev) (st : ImgStore) (nv : Nat) (l : List Nat) : Dev :=
  let e := d.programmed nv st.bytes
  { e with boot := { e.boot with imgStore := some { st with todo := l } } }

theorem nvmProgramDone_last (htodo : st.todo = [nv]) (hw : (d.nvm nv).writable = true) :
    nvmProgramDone true d = (d.storeEnded st nv).answer st.chan 0x24 st.tag 0 1 [] := by
  unfold nvmProgramDone
  rw [hst]
  dsimp only
  rw [htodo, hs]
  rw [List.headD_cons, if_neg (by decide), if_pos (Bool.and_eq_true_iff.mpr ⟨rfl, hw⟩)]
  rfl

theorem nvmProgramDone_next {n : Nat} {l : List Nat} (htodo : st.todo = nv :: n :: l) (hw : (d.nvm nv).writable = true) :
    nvmProgramDone true d = (d.storeGoesOn st nv (n :: l)).eraseNvm n := by
  unfold nvmProgramDone
  rw [hst]
  dsimp only
  rw [htodo, hs]
  rw [List.headD_cons, if_neg (by decide), if_pos (Bool.and_eq_true_iff.mpr ⟨rfl, hw⟩)]
  rfl

theorem nvmProgramDone_failed {ok : Bool} {l : List Nat} (htodo : st.todo = nv :: l)
    (hf : ok = false ∨ (d.nvm nv).writable = false) :
    nvmProgramDone ok d =
      ({ d with free := d.free + 1, boot := { d.boot with imgStore := none } } : Dev).answer st.chan 0x24 st.tag 8
      (Config.freeValue d.free % 256) [] := by
  have hc : (ok && (d.nvm nv).writable) = false := by
    rcases hf with h | h <;> simp [h]
  unfold nvmProgramDone
  rw [hst]
  dsimp only
  rw [htodo, hs]
  simp only [List.headD_cons, hc]
  rfl

end

theorem nvmProgramDone_idle {d : Dev} (ok : Bool) (h : d.boot.imgStore = none ∨ d.supRunning = false) :
    nvmProgramDone ok d = d := by
  unfold nvmProgramDone
  split
  · next st hst =>
    rcases h with h | h
    · rw [hst] at h
      cases h
    · rw [h]
      rfl
  · rfl

/-- A change that touches neither registers nor the host interface leaves the exchange's end as it is. -/
theorem Dev.answer_ends {d x : Dev} (hw : d.Within x [.free, .boot]) {c code tag : Nat} (hc : c < 4) (hs : d.supRunning = true)
    (hf : d.mbFull (c + 4) = false) (ho : (d.chan c).opened = some ⟨code, tag⟩) (status detail : Nat) (data : List Byte) :
    let e := x.answer c code tag status detail data
    d.replied e c code tag (d.chan c).ver status detail data ∧ x.Within e [.regs, .wire, .host] := by
  obtain ⟨s, hact⟩ := Option.isSome_iff_exists.mp hs
  have hreg (a : Nat) : x.reg a = d.reg a := Dev.reg_congr (hw .regs (by decide)) a
  have hchan : x.chan c = d.chan c := Dev.chan_congr (hw .host (by decide)) c
  have hsup : x.activeSup = d.activeSup := Dev.activeSup_congr fun s _ => hreg _
  obtain ⟨hr, hframe⟩ := Dev.answer_replied (d := x) hc (hsup.trans hact) ((Dev.flag_congr_reg (hreg _)).trans hf)
    (hchan ▸ ho) status detail data
  exact ⟨hchan ▸ hr.congr hsup (hreg _), hframe⟩

section
variable {d : Dev} {st : ImgStore} {nv : Nat}

theorem Dev.within_storeEnded : d.Within (d.storeEnded st nv) [.free, .boot] := (Dev.Within.refl d _).setNvm.setBoot

theorem Dev.within_storeGoesOn (l : List Nat) : d.Within (d.storeGoesOn st nv l) [.boot] := (Dev.Within.refl d _).setNvm.setBoot

theorem Dev.nvm_storeEnded (hn : nv < d.boot.nvm.length) : ((d.storeEnded st nv).nvm nv).image = st.bytes :=
  (congrArg Nvm.image (Dev.nvm_congr (d := d.programmed nv st.bytes) (e := d.storeEnded st nv) rfl nv)).trans
    (congrArg Nvm.image (d.nvm_setNvm_same _ hn))

theorem Dev.nvm_storeGoesOn (hn : nv < d.boot.nvm.length) (l : List Nat) : ((d.storeGoesOn st nv l).nvm nv).image = st.bytes :=
  (congrArg Nvm.image (Dev.nvm_congr (d := d.programmed nv st.bytes) (e := d.storeGoesOn st nv l) rfl nv)).trans
    (congrArg Nvm.image (d.nvm_setNvm_same _ hn))

theorem Dev.imgStore_eraseNvm (d : Dev) (n : Nat) : (d.eraseNvm n).boot.imgStore = d.boot.imgStore := by
  unfold Dev.eraseNvm
  dsimp only
  split
  · rw [Dev.boot_showJournal]
    rfl
  · rfl

end

end Sys2Proof.Machine

section
open Sys2Proof Sys2Proof.Machine

/-- Settles O9 by the checks of a store request in their order (`imageStore_eq`) and the cases of NVM_PROGRAM_DONE: the last
device, one more to do, and a failure. -/
theorem imagesAreStored : Obligations.ImagesAreStored := by
  unfold Obligations.ImagesAreStored
  refine ⟨?_, fun d q x hl => ⟨fun h => ?_, ?_⟩⟩
  · rintro d q k m len adr c ver b r hl rfl h hlen hm h1 h3 hz hd
    have refused {status detail : Nat}
        (ht : d.storeTaken (d.takeRequest k) k m r (slice b 0 len) = (d.takeRequest k).status k r status detail) :=
      (⟨_, exec_imageStore hl q k b, imageStore_refused h hlen hm h1 h3 hz hd ht⟩ : ∃ e : Dev,
        exec (.imageStore k b) ⟨d, q⟩ = .next ⟨e, q⟩ ∧ d.answered e k r (d.chan k).ver status detail [] ∧
          d.regsBut e (mailRegs k) ∧
          e = { d with regs := e.regs, wire := e.wire, host := e.host })
    refine ⟨fun hrun => refused (Dev.storeTaken_running _ k r _ hrun), fun hn hup =>
      ⟨fun hs => refused (Dev.storeTaken_second _ k r _ hn hup hs), fun hs hdma =>
        refused (Dev.storeTaken_noDma _ k r _ hn hup hs hdma), ?_⟩⟩
    rintro todo region hs hdma rfl rfl hok rfl
    have hjudge := Dev.storeTaken_judged (d.takeRequest k) k r (slice b 0 len) hn hup hs hdma hok
    refine ⟨fun hc => refused (hjudge.trans (if_pos hc)), fun hc => ?_⟩
    obtain ⟨htook, heq⟩ := imageStore_eq b h hlen hm h1 h3 hz hd
    obtain ⟨hopen, hempty, herase, hregs, hframe⟩ := Dev.storeBegun_effect htook r (d.storeTodo m) (slice b 0 len)
    have hcode : r.code = 0x24 := h.2.1
    refine ⟨_, _, (exec_imageStore hl q k b).trans (by rw [heq.trans (hjudge.trans (if_neg (not_not_intro hc)))]), rfl, rfl, rfl,
      rfl, rfl, hcode ▸ hopen,
      hempty, herase, hregs, hframe.eq⟩
  · rw [exec_nvmProgramDone hl, nvmProgramDone_idle x h]
  · intro st nv l hst hs htodo hopen hchan hfull
    refine ⟨fun hw hn => ⟨?_, ?_⟩, fun hf => ?_⟩
    · rintro rfl
      obtain ⟨hr, hframe⟩ := Dev.answer_ends (Dev.within_storeEnded (st := st) (nv := nv)) hchan hs hfull hopen 0 1 []
      have hboot := hframe .boot (by decide)
      refine ⟨_, (exec_nvmProgramDone hl q true).trans (by rw [nvmProgramDone_last hst hs htodo hw]), ?_, ?_, fun hrec => ?_, hr,
        ?_⟩
      · rw [Dev.nvm_congr (congrArg BootSt.nvm hboot), Dev.nvm_storeEnded hn]
      · exact congrArg BootSt.imgStore hboot
      · refine (congrArg BootSt.restartAt hboot).trans ?_
        exact if_pos hrec
      · exact ((Dev.Within.refl d [.regs, .wire, .host, .boot]).setNvm.setBoot.trans hframe.mono).eq
    · rintro n t rfl hne
      refine ⟨_, (exec_nvmProgramDone hl q true).trans (by rw [nvmProgramDone_next hst hs htodo hw]), ?_, ?_, ?_⟩
      · rw [Dev.nvm_eraseNvm_ne _ (Ne.symm hne), Dev.nvm_storeGoesOn hn]
      · rw [Dev.imgStore_eraseNvm]
        rfl
      · exact ((Dev.within_storeGoesOn _).mono.eraseNvm (l := [.regs, .boot])).eq
    · have hw : d.Within ({ d with free := d.free + 1, boot := { d.boot with imgStore := none } } : Dev) [.free, .boot] :=
        .setBoot (d := { d with free := d.free + 1 }) (.setFree (.refl d _))
      obtain ⟨hr, hframe⟩ := Dev.answer_ends hw hchan hs hfull hopen 8 (Config.freeValue d.free % 256) []
      refine ⟨_, (exec_nvmProgramDone hl q x).trans (by rw [nvmProgramDone_failed hst hs htodo hf]), ?_, hr, ?_, ?_⟩
      · exact congrArg BootSt.imgStore (hframe .boot (by decide))
      · exact hframe .free (by decide)
      · exact (hw.mono.trans hframe.mono (l := [.free, .regs, .wire, .host, .boot])).eq

end

/-! PROOFS about the loader's shared steps: roles of supervisors, the configuration reset,
and a candidate that fails (R46, R55). -/

namespace Sys2Proof.Machine

open Sys2Proof

namespace Dev.Within
section
variable {b d : Dev} {l : List Part} (h : b.Within d l)
include h

theorem setPeer {r : FRef} {v : Bool} (hr : .regs ∈ l := by decide) (hw : .wire ∈ l := by decide) : b.Within (d.setPeer r v) l :=
  h.ite ((h.setFlag hr).irq hr hw)

theorem peersFollow (hr : .regs ∈ l := by decide) (hw : .wire ∈ l := by decide) : b.Within d.peersFollow l :=
  ((h.setPeer hr hw).setPeer hr hw).setPeer hr hw

theorem setRole {s r : Nat} (hr : .regs ∈ l := by decide) (hw : .wire ∈ l := by decide) : b.Within (d.setRole s r) l :=
  .peersFollow (.ite (.wr (.ite (h.wr hr) ((h.wr hr).setFlag hr) ) hr) (.ite (h.wr hr) ((h.wr hr).setFlag hr))) hr hw

theorem restartSup {s : Nat} (hr : .regs ∈ l := by decide) (hw : .wire ∈ l := by decide) : b.Within (d.restartSup s) l :=
  h.ite (h.setRole hr hw)

theorem showEnables (hr : .regs ∈ l := by decide) : b.Within d.showEnables l := (h.wr hr).wr hr

theorem checkCages (hr : .regs ∈ l := by decide) : b.Within d.checkCages l := h.foldl fun _ _ he => .ite (he.setFlag hr) he

theorem pairsCheck (hr : .regs ∈ l := by decide) : b.Within d.pairsCheck l := h.foldl fun _ _ he => he.setFlag hr

theorem ptpCheck {k : Nat} (hr : .regs ∈ l := by decide) : b.Within (d.ptpCheck k) l := h.setFlag hr

theorem checkSeal (hr : .regs ∈ l := by decide) : b.Within d.checkSeal l := h.setFlag hr

theorem resetReg {a : Nat} (hr : .regs ∈ l := by decide) : b.Within (d.resetReg a) l := by
  unfold Dev.resetReg
  split
  · exact h
  · exact h.ite (.ite (h.setReg hr) (h.setReg hr))

end
end Dev.Within

/-! ### Configuration reset (R46) -/

/-- The components that a configuration reset clears beside the registers. -/
def Dev.configCleared (d : Dev) : Dev :=
  { d with
    tabs := [],
    beat := { d.beat with store := [], bad := [], half := [], sideBad := [] },
    look := { d.look with slots := [], refStatic := [], refNext := [], failed := [] },
    strm := { ids := [], gate := [], meter := [], blocked := [], pol := [] },
    deck := { d.deck with keys := [], ctxs := [] },
    host := { d.host with chans := [], jobs := [], snapReq := none, snapArea := [] },
    supv := { d.supv with ckpts := [], loaded := none, takeover := none, mgmt := Mgmt.zero },
    boot := { d.boot with latched := [], delegates := [], storePipes := [] } }

/-- The supervisors restarted and the checks of the reset registers made. -/
def Dev.configChecked (d : Dev) : Dev :=
  let d := ((d.restartSup 0).restartSup 1).setFlag Reg.SUPV_PAIR_STATUS.TAKING_OVER false
  let d := (d.showEnables.checkCages).pairsCheck
  ((List.range 8).foldl Dev.ptpCheck d).checkSeal

theorem Dev.configReset_eq (d : Dev) :
    d.configReset = (((d.regs.map (·.1)).foldl Dev.resetReg d).configCleared).configChecked := rfl

theorem Dev.within_configChecked (d : Dev) : d.Within d.configChecked [.regs, .wire] :=
  .checkSeal (.foldl (.pairsCheck (.checkCages (.showEnables (.setFlag (.restartSup (.restartSup (.refl d _))))))) fun _ _ h =>
    h.ptpCheck)

theorem Dev.tabs_configReset (d : Dev) : d.configReset.tabs = [] := by
  rw [Dev.configReset_eq]
  exact Dev.within_configChecked _ .tabs (by decide)

theorem Dev.boot_configReset (d : Dev) : d.configReset.boot =
    { d.boot with latched := [], delegates := [], storePipes := [] } := by
  have hr : d.Within ((d.regs.map (·.1)).foldl Dev.resetReg d) [.regs] := (Dev.Within.refl d _).foldl fun _ _ h => h.resetReg
  have hb : ((d.regs.map (·.1)).foldl Dev.resetReg d).boot = d.boot := hr .boot (by decide)
  rw [Dev.configReset_eq]
  refine (Dev.within_configChecked _ .boot (by decide)).trans ?_
  rw [← hb]
  rfl

/-! ### A candidate fails (R55) -/

/-- The field of DEV_BOOT_STATUS that shows an NVM's result. -/
def resultField (nv : Nat) : FRef := if nv = 0 then Reg.DEV_BOOT_STATUS.NVA_RESULT else Reg.DEV_BOOT_STATUS.NVB_RESULT

theorem resultField_cases (nv : Nat) : resultField nv = Reg.DEV_BOOT_STATUS.NVA_RESULT ∨
    resultField nv = Reg.DEV_BOOT_STATUS.NVB_RESULT :=
  ite_eq_or_eq _ _ _

/-- The loader goes back to the choice of a candidate. -/
def Dev.chooseAgain (d : Dev) (nv : Nat) : Dev :=
  ({ d with boot := { d.boot with cand := none, tried := d.boot.tried ++ [nv] } } : Dev).wr Reg.DEV_BOOT_STATUS.PHASE 2

theorem Dev.failCandidate_eq (d : Dev) (nv c : Nat) :
    d.failCandidate nv c = (d.configReset.wr (resultField nv) c).chooseAgain nv := rfl

theorem Dev.boot_chooseAgain (d : Dev) (nv : Nat) :
    (d.chooseAgain nv).boot = { d.boot with cand := none, tried := d.boot.tried ++ [nv] } := by simp [Dev.chooseAgain]

theorem Dev.tabs_chooseAgain (d : Dev) (nv : Nat) : (d.chooseAgain nv).tabs = d.tabs := by simp [Dev.chooseAgain]

theorem Dev.rd_phase_chooseAgain (d : Dev) (nv : Nat) : (d.chooseAgain nv).rd Reg.DEV_BOOT_STATUS.PHASE = 2 := by
  rw [Dev.chooseAgain, Dev.rd_wr_same _ _ _ (by decide)]
  rfl

theorem Dev.rd_result_chooseAgain (d : Dev) (nv k : Nat) : (d.chooseAgain nv).rd (resultField k) = d.rd (resultField k) := by
  rcases resultField_cases k with h | h
  · rw [h]
    exact Dev.rd_wr_disjoint _ Reg.DEV_BOOT_STATUS.PHASE Reg.DEV_BOOT_STATUS.NVA_RESULT _ (by decide) rfl (by decide)
  · rw [h]
    exact Dev.rd_wr_disjoint _ Reg.DEV_BOOT_STATUS.PHASE Reg.DEV_BOOT_STATUS.NVB_RESULT _ (by decide) rfl (by decide)

theorem Dev.rd_wr_result (d : Dev) (nv : Nat) {c : Nat} (hc : c < 256) : (d.wr (resultField nv) c).rd (resultField nv) = c := by
  rcases resultField_cases nv with h | h
  · rw [h, Dev.rd_wr_same _ _ _ (by decide)]
    exact Nat.mod_eq_of_lt hc
  · rw [h, Dev.rd_wr_same _ _ _ (by decide)]
    exact Nat.mod_eq_of_lt hc

/-- The code is shown, nothing is left of the image, and another candidate is to be chosen. -/
theorem Dev.failCandidate_effect (d : Dev) (nv : Nat) {c : Nat} (hc : c < 256) : let e := d.failCandidate nv c
    e.rd (resultField nv) = c ∧ e.rd Reg.DEV_BOOT_STATUS.PHASE = 2 ∧ e.boot.cand = none ∧ e.boot.tried = d.boot.tried ++ [nv] ∧
      e.tabs = [] := by
  have hb : (d.configReset.wr (resultField nv) c).boot = d.configReset.boot := by simp
  have ht : (d.configReset.wr (resultField nv) c).tabs = d.configReset.tabs := by simp
  dsimp only
  rw [Dev.failCandidate_eq, Dev.rd_result_chooseAgain, Dev.rd_wr_result _ _ hc, Dev.rd_phase_chooseAgain, Dev.boot_chooseAgain,
    Dev.tabs_chooseAgain, hb, ht, Dev.tabs_configReset, Dev.boot_configReset]
  exact ⟨rfl, rfl, rfl, rfl, rfl⟩

end Sys2Proof.Machine

/-! PROOFS about the records of an image (R51 to R55). -/

namespace Sys2Proof.Machine

open Sys2Proof

/-! ### The next record of a section (R44 step 5, R55) -/

section
variable {d : Dev} {l : Load} {s : Section} {r : CfgRec} {n : Nat}

theorem Dev.loadRecord_of_none (h : d.loading = none) : d.loadRecord r = d := by
  rw [Dev.loadRecord, h]

/-- The record that stands next in the section being streamed. -/
def Dev.nextRec (d : Dev) (l : Load) (s : Section) : Option (CfgRec × Nat) :=
  recAt s.typ ((sectionBytes (d.nvm l.nv).image s).drop l.pos)

theorem Dev.loadRecord_of_other (h : d.loading = some (l, s))
    (ho : l.cur = 0 ∨ d.skips s = true ∨ ∀ n, d.nextRec l s ≠ some (r, n)) :
    d.loadRecord r = d := by
  rw [Dev.loadRecord, h]
  dsimp only
  split
  · rfl
  · next hc =>
    have hn := (ho.resolve_left fun h0 => hc (by simp [h0])).resolve_left fun hs => hc (by simp [hs])
    cases hr : d.nextRec l s with
    | none =>
      rw [Dev.nextRec] at hr
      rw [hr]
    | some x =>
      obtain ⟨x, k⟩ := x
      have hx : x ≠ r := fun he => hn k (he ▸ hr)
      rw [Dev.nextRec] at hr
      rw [hr]
      exact if_neg hx

section
variable (h : d.loading = some (l, s)) (hcur : l.cur ≠ 0) (hskip : d.skips s = false) (hn : d.nextRec l s = some (r, n))
include h hcur hskip hn

theorem Dev.loadRecord_applied {e : Dev} (hr : d.imageRec r = (0, e)) :
    d.loadRecord r = e.setCand { l with pos := l.pos + n } := by
  rw [Dev.nextRec] at hn
  rw [Dev.loadRecord, h]
  dsimp only
  rw [if_neg (by simp [hcur, hskip]), hn]
  dsimp only
  rw [if_pos rfl, hr]
  rfl

/-- An instruction that gives the loader its next record leaves what the record leaves, past it. -/
theorem exec_applied {i : Instr} {q : List Instr} {x : Dev}
    (hi : exec i ⟨d, q⟩ = .next ⟨d.loadRecord r, q⟩) (hr : d.imageRec r = (0, x)) :
    ∃ e : Dev, e = x.setCand { l with pos := l.pos + n } ∧ exec i ⟨d, q⟩ = .next ⟨e, q⟩ :=
  ⟨_, rfl, by rw [hi, Dev.loadRecord_applied h hcur hskip hn hr]⟩

theorem Dev.loadRecord_refused {c : Nat} (hc : (d.imageRec r).1 = c) (h0 : c ≠ 0) :
    d.loadRecord r = d.failCandidate l.nv (if sectionHashOk (d.nvm l.nv).image s then c else 0x17) := by
  rw [Dev.nextRec] at hn
  obtain ⟨k, e, hk⟩ : ∃ k e, d.imageRec r = (k, e) := ⟨_, _, rfl⟩
  obtain rfl : k = c := by rwa [hk] at hc
  rw [Dev.loadRecord, h]
  dsimp only
  rw [if_neg (by simp [hcur, hskip]), hn]
  dsimp only
  rw [if_pos rfl, hk]
  cases k with
  | zero => exact absurd rfl h0
  | succ k => rfl

end
end

/-! ### Register write records (R51) -/

theorem w1s_of_becCmd_zone (z : Nat) :
    ((regTable z).all fun r => r.name != "HOST_BEC_CMD" || r.fields.any fun f => f.acc = .w1s) = true := by
  unfold regTable
  split <;> decide

theorem w1s_of_becCmd {a : Nat} {r : RDecl} {ix : List Nat} (hf : findReg a = some (r, ix)) (hn : r.name = "HOST_BEC_CMD") :
    ∃ f ∈ r.fields, f.acc = .w1s := by
  obtain ⟨x, hx, hf⟩ := List.exists_of_findSome?_eq_some hf
  obtain ⟨b, -, hf⟩ := List.exists_of_findSome?_eq_some hf
  split at hf
  · cases hf
  · obtain ⟨jx, -, hj⟩ := Option.map_eq_some_iff.mp hf
    obtain rfl : x = r := congrArg Prod.fst hj
    have := List.all_eq_true.mp (w1s_of_becCmd_zone _) x hx
    simpa [hn] using this

theorem recordBits_of_plain {r : RDecl} (h : ∀ f ∈ r.fields, f.acc ≠ .w1s) (m v : Nat) : recordBits r m v = 0 := by
  have hw := List.foldlRecOn (motive := fun w : Word => w = 0) r.fields
    (fun w f => if f.acc = .w1s then fput w f.lo f.width (fget (BitVec.ofNat 32 (m &&& v)) f.lo f.width) else w) rfl
    fun w hw f hf => by rw [if_neg (h f hf), hw]
  rw [recordBits, hw]
  rfl

/-- The registers on which a unit hangs that a record sets going when its value is written. -/
def followed : List String :=
  ["PORT_GRP_MODE", "PORT_LANE_TXEQ", "TIME_INST_CFG", "TIME_INST_PORTS", "TIME_INST_INTV", "TIME_PAIR_CFG", "SEAL_Q_BLOCKS",
    "SEAL_Q_RES", "MODL_CAGE_CFG", "MODL_BUS_CFG", "HOST_INT_EN", "HOST_INT_STATUS", "HOST_BEC_HI"]

theorem Dev.regWritten_of_notFollowed {d : Dev} {a : Nat} {r : RDecl} {ix : List Nat} (hf : findReg a = some (r, ix))
    (hn : r.name ∉ followed)
    (hp : portOfAddr a = none) (old : Word) : d.regWritten a old = d := by
  unfold Dev.regWritten
  rw [hf, hp]
  dsimp only
  split <;> simp_all [followed]

theorem Dev.imageRec_reg {d : Dev} {a m v : Nat} {r : RDecl} {ix : List Nat} (hf : findReg a = some (r, ix))
    (ha : d.recordRefused a m = false)
    (hv : d.valueRefused r ix (recordWord r (d.reg a) m v).toNat = false) :
    d.imageRec (.reg a m v) = (0, d.writeRecord a m v) := by
  unfold Dev.imageRec Dev.loadReg
  dsimp only
  rw [ha, if_neg (by decide), hf]
  dsimp only
  rw [hv, if_neg (by decide)]

/-- A record writes the fields of a register on which nothing hangs; the access counts. -/
theorem Dev.writeRecord_plain {d : Dev} {a m v : Nat} {r : RDecl} {ix : List Nat} (hf : findReg a = some (r, ix))
    (hp : portOfAddr a = none) (hacc : ∀ f ∈ r.fields, f.acc ≠ .cnt ∧ f.acc ≠ .w1s) (hn : r.name ∉ followed) :
    ∃ s, d.BecOnly s ∧ d.writeRecord a m v = s.setReg a (recordWord r (d.reg a) m v) := by
  have hbec : r.name ≠ "HOST_BEC_CMD" := fun he => by
    obtain ⟨f, hm, hw⟩ := w1s_of_becCmd hf he
    exact (hacc f hm).2 hw
  have htouch : (r.fields.any fun f => decide (f.acc = .cnt) && fget (BitVec.ofNat 32 m) f.lo f.width != 0) = false := by
    rw [List.any_eq_false]
    exact fun f hm => by simp [(hacc f hm).1]
  refine ⟨d.becCount 0x1F a .write, (Dev.BecOnly.refl d).becCount _ _ _, ?_⟩
  unfold Dev.writeRecord
  rw [hf]
  dsimp only
  rw [if_neg hbec, recordBits_of_plain fun f hm => (hacc f hm).2, htouch, hp, if_pos rfl]
  exact Dev.regWritten_of_notFollowed hf hn hp _

/-- What a register write record leaves, once the loader is past it. -/
theorem registerRecord_effect {d : Dev} {a m v : Nat} {r : RDecl} {ix : List Nat} (hf : findReg a = some (r, ix))
    (hp : portOfAddr a = none) (hacc : ∀ f ∈ r.fields, f.acc ≠ .cnt ∧ f.acc ≠ .w1s) (hn : r.name ∉ followed) {l : Load} {e : Dev}
    (he : e = (d.writeRecord a m v).setCand l) :
    e.reg a = recordWord r (d.reg a) m v ∧ e.boot.cand = some l ∧ d.regsBut e (a :: becRegs) ∧
      d.Within e [.regs, .host, .wire, .boot] := by
  obtain ⟨s, hs, hw⟩ := Dev.writeRecord_plain (m := m) (v := v) hf hp hacc hn
  rw [he, hw]
  exact ⟨Dev.reg_setReg_same _ _ _, rfl, .of_regs (.setReg (hs.regs.mono (List.subset_cons_self _ _)) List.mem_cons_self) rfl,
    .setBoot (.setReg hs.within)⟩

/-! ### Bulk table records (R52) -/

theorem tabKey_inj {t u i k w j : Nat} (hi : i < 2 ^ 17) (hk : k < 2 ^ 17) (hw : w < 16) (hj : j < 16)
    (h : tabKey t i w = tabKey u k j) :
    t = u ∧ i = k ∧ w = j := by
  unfold tabKey at h
  omega

theorem Dev.tabW_setTabW_same (d : Dev) (t i w : Nat) (v : Word) : (d.setTabW t i w v).tabW t i w = v := tget_tput_same _ _ _ _

theorem Dev.tabW_setTabW_ne (d : Dev) {t u i k w j : Nat} (v : Word) (h : tabKey u k j ≠ tabKey t i w) :
    (d.setTabW t i w v).tabW u k j = d.tabW u k j := tget_tput_ne _ _ _ _ _ _ h

/-- The words of an entry, as far as `n` of them are written. -/
def Dev.putWords (d : Dev) (t i : Nat) (e : List Nat) (n : Nat) : Dev :=
  (List.range n).foldl (fun (d : Dev) k => d.setTabW t i k (BitVec.ofNat 32 (ew e k))) d

theorem Dev.putEntry_eq (d : Dev) (t i : Nat) (e : List Nat) : d.putEntry t i e = d.putWords t i e e.length := rfl

theorem Dev.tabW_putWords (d : Dev) {t u i k j : Nat} (e : List Nat) (n : Nat) (hn : n ≤ 16) (hi : i < 2 ^ 17) (hk : k < 2 ^ 17)
    (hj : j < 16) :
      (d.putWords t i e n).tabW u k j = if u = t ∧ k = i ∧ j < n then BitVec.ofNat 32 (ew e j) else d.tabW u k j := by
  induction n with
  | zero => simp [Dev.putWords]
  | succ n ih =>
    have hstep : d.putWords t i e (n + 1) = (d.putWords t i e n).setTabW t i n (BitVec.ofNat 32 (ew e n)) := by
      rw [Dev.putWords, List.range_succ, List.foldl_append, Dev.putWords]
      rfl
    rw [hstep]
    by_cases hu : u = t ∧ k = i ∧ j = n
    · obtain ⟨rfl, rfl, rfl⟩ := hu
      rw [Dev.tabW_setTabW_same, if_pos ⟨rfl, rfl, by omega⟩]
    · have hne : tabKey u k j ≠ tabKey t i n := fun h => hu (tabKey_inj hk hi hj (by omega) h)
      rw [Dev.tabW_setTabW_ne _ _ hne, ih (by omega)]
      exact if_congr (by omega) rfl rfl

theorem Dev.within_putEntry (d : Dev) (t i : Nat) (e : List Nat) : d.Within (d.putEntry t i e) [.tabs] :=
  (Dev.Within.refl d _).foldl fun _ _ h => h.setTabW

/-- Entries put one after the other. -/
def Dev.putEntries (d : Dev) (l : List (Nat × Nat × List Nat)) : Dev := l.foldl (fun (d : Dev) x => d.putEntry x.1 x.2.1 x.2.2) d

theorem Dev.within_putEntries (d : Dev) (l : List (Nat × Nat × List Nat)) : d.Within (d.putEntries l) [.tabs] :=
  (Dev.Within.refl d _).foldl fun _ _ h => h.trans (Dev.within_putEntry _ _ _ _)

/-- Entries that no other of the list names hold their words after it; the words of no entry stay. -/
theorem Dev.tabW_putEntries (l : List (Nat × Nat × List Nat)) (d : Dev) (hl : ∀ x ∈ l, x.2.1 < 2 ^ 17 ∧ x.2.2.length ≤ 16)
    {u k j : Nat}
    (hk : k < 2 ^ 17) (hj : j < 16) :
    ((∀ x ∈ l, x.1 = u → x.2.1 ≠ k) → (d.putEntries l).tabW u k j = d.tabW u k j) ∧
      ∀ e, (u, k, e) ∈ l → j < e.length → (∀ x ∈ l, x.1 = u → x.2.1 = k → x.2.2 = e) →
        (d.putEntries l).tabW u k j = BitVec.ofNat 32 (ew e j) := by
  induction l generalizing d with
  | nil => exact ⟨fun _ => rfl, fun e he => absurd he List.not_mem_nil⟩
  | cons y l ih =>
    obtain ⟨t, i, f⟩ := y
    obtain ⟨⟨hi, hf⟩, hl⟩ := List.forall_mem_cons.mp hl
    have ⟨hout, hin⟩ := ih (d.putEntry t i f) hl
    have hput := d.tabW_putWords (t := t) (u := u) f f.length hf hi hk hj
    rw [← Dev.putEntry_eq] at hput
    refine ⟨fun hne => ?_, fun e he hje hone => ?_⟩
    · obtain ⟨hy, hne⟩ := List.forall_mem_cons.mp hne
      refine (hout hne).trans (hput.trans (if_neg ?_))
      rintro ⟨hu, hki, -⟩
      exact hy hu.symm hki.symm
    · obtain ⟨-, hrest⟩ := List.forall_mem_cons.mp hone
      by_cases hmem : (u, k, e) ∈ l
      · exact hin e hmem hje hrest
      · obtain ⟨rfl, rfl, rfl⟩ : u = t ∧ k = i ∧ e = f := by simpa [hmem] using he
        by_cases hany : ∀ x ∈ l, x.1 = u → x.2.1 ≠ k
        · exact (hout hany).trans (hput.trans (if_pos ⟨rfl, rfl, hje⟩))
        · simp only [not_forall, not_not] at hany
          obtain ⟨x, hx, hxu, hxk⟩ := hany
          have hxe := hrest x hx hxu hxk
          exact absurd (show (u, k, e) ∈ l by rw [← hxu, ← hxk, ← hxe]; exact hx) hmem

/-- The tables outside zones STRM and PARS that a record of words names have entries of at most 16 words, and at most 2^16 of
them. -/
theorem tableShape_bounds {t n w : Nat} {keyed : Bool} (h : tableShape t = some (n, w, keyed)) : n ≤ 65536 ∧ w ≤ 16 := by
  unfold tableShape at h
  dsimp only at h
  repeat' split at h
  all_goals simp_all
  all_goals omega

theorem recTargets_zone {t u : Nat} (hu : u ∈ recTargets t) : u / 4096 = t / 4096 := by
  unfold recTargets at hu
  split at hu
  · subst t
    fin_cases hu <;> rfl
  · split at hu
    · subst t
      fin_cases hu <;> rfl
    · rw [List.mem_singleton.mp hu]

/-- Outside zone STRM an entry is judged by the table's kind and its words alone. -/
theorem Dev.entryBad_target {d x : Dev} {t u i k : Nat} (h5 : t / 4096 ≠ 5) (h3 : t / 4096 ≠ 3) (hu : u ∈ recTargets t)
    (e : List Nat) :
    x.entryBad u k e = d.entryBad t i e := by
  unfold recTargets at hu
  split at hu
  · subst t
    exact absurd rfl h3
  · split at hu
    · subst t
      fin_cases hu <;> rfl
    · rw [List.mem_singleton.mp hu]
      unfold Dev.entryBad
      dsimp only
      split <;> simp_all

theorem mem_bulkEntries {t f : Nat} {es : List (List Nat)} {x : Nat × Nat × List Nat} (hx : x ∈ bulkEntries t f es) :
    ∃ k, k < es.length ∧ x.1 ∈ recTargets t ∧ x.2.1 = f + k ∧ es[k]? = some x.2.2 := by
  obtain ⟨u, hu, hx⟩ := List.mem_flatMap.mp hx
  obtain ⟨k, hk, rfl⟩ := List.mem_map.mp hx
  rw [List.mem_range] at hk
  exact ⟨k, hk, hu, rfl, by simp [hk]⟩

section
variable {d : Dev} {t w f : Nat} {es : List (List Nat)} (hbad : bulkBad t 0 w 0 f es = false)
include hbad

/-- A record of an indexed table fits it. -/
theorem bulk_fits : (∀ e ∈ es, e.length ≤ 16) ∧ f + es.length ≤ 2 ^ 16 := by
  unfold bulkBad at hbad
  split at hbad
  · cases hbad
  · next n x keyed hs =>
    obtain ⟨hn, hx⟩ := tableShape_bounds hs
    simp only [Bool.or_eq_false_iff, List.any_eq_false] at hbad
    obtain ⟨⟨-, hlen⟩, hk⟩ := hbad
    refine ⟨fun e he => ?_, ?_⟩
    · have := hlen e he
      simp only [bne_iff_ne, ne_eq, not_not] at this
      omega
    · cases keyed
      · simp only [Bool.false_eq_true, if_false, Bool.or_eq_false_iff, decide_eq_false_iff_not, not_lt] at hk
        omega
      · cases hk

theorem bulkEntries_fit : ∀ x ∈ bulkEntries t f es, x.2.1 < 2 ^ 17 ∧ x.2.2.length ≤ 16 := by
  intro x hx
  obtain ⟨hlen, hsum⟩ := bulk_fits hbad
  obtain ⟨k, hk, -, hi, he⟩ := mem_bulkEntries hx
  exact ⟨by omega, hlen _ (List.mem_of_getElem? he)⟩

variable (h5 : t / 4096 ≠ 5) (h3 : t / 4096 ≠ 3) (hes : ∀ y ∈ es, d.entryBad t f y = false)
include h5 h3 hes

/-- A table record outside zones STRM and PARS writes its entries, one after the other. -/
theorem Dev.imageRec_bulk : d.imageRec (.bulk t 0 w 0 f es) = (0, d.putEntries (bulkEntries t f es)) := by
  have hstep (l : List (Nat × Nat × List Nat)) (hl : ∀ x ∈ l, x.1 ∈ recTargets t ∧ x.2.2 ∈ es) (x : Dev) :
      l.foldl (fun (a : Option Dev) y => a.bind fun (d : Dev) =>
        if d.entryBad y.1 y.2.1 y.2.2 then none else some (d.writeEntry y.1 y.2.1 y.2.2)) (some x) = some (x.putEntries l) := by
    induction l generalizing x with
    | nil => rfl
    | cons y l ih =>
      obtain ⟨⟨hu, he⟩, hl⟩ := List.forall_mem_cons.mp hl
      have hz := recTargets_zone hu
      have hgood : x.entryBad y.1 y.2.1 y.2.2 = false := (Dev.entryBad_target h5 h3 hu _).trans (hes _ he)
      have hwrite : x.writeEntry y.1 y.2.1 y.2.2 = x.putEntry y.1 y.2.1 y.2.2 := by
        rw [Dev.writeEntry, if_neg (by omega), if_neg (by omega)]
      rw [List.foldl_cons, Option.bind_some, hgood, if_neg (by decide), hwrite, ih hl]
      rfl
  have hload : d.loadBulk t 0 w 0 f es = some (d.putEntries (bulkEntries t f es)) := by
    rw [Dev.loadBulk, hbad, if_neg (by decide), if_neg (by decide)]
    refine hstep _ (fun x hx => ?_) d
    obtain ⟨k, -, hu, -, he⟩ := mem_bulkEntries hx
    exact ⟨hu, List.mem_of_getElem? he⟩
  rw [Dev.imageRec, hload]

end

section
variable {d : Dev} {t w f : Nat} {es : List (List Nat)} (hbad : bulkBad t 0 w 0 f es = false)
include hbad

theorem bulkRecord_effect {l : Load} {e : Dev} (he : e = (d.putEntries (bulkEntries t f es)).setCand l) :
    (∀ u ∈ recTargets t, ∀ k ws j v, es[k]? = some ws → ws[j]? = some v → e.tabW u (f + k) j = BitVec.ofNat 32 v) ∧
      (∀ u k j, k < 2 ^ 17 → j < 16 → u ∉ recTargets t ∨ k < f ∨ f + es.length ≤ k → e.tabW u k j = d.tabW u k j) ∧
      e.boot.cand = some l ∧ d.Within e [.tabs, .boot] := by
  obtain ⟨hlen, hsum⟩ := bulk_fits hbad
  have hfit := bulkEntries_fit hbad
  subst he
  refine ⟨fun u hu k ws j v hk hv => ?_, fun u k j hk hj hout => ?_, rfl, (Dev.within_putEntries _ _).mono.setBoot⟩
  · obtain ⟨hk', rfl⟩ := List.getElem?_eq_some_iff.mp hk
    obtain ⟨hj', rfl⟩ := List.getElem?_eq_some_iff.mp hv
    have h16 := hlen _ (List.getElem_mem hk')
    have hmem : (u, f + k, es[k]) ∈ bulkEntries t f es :=
      List.mem_flatMap.mpr ⟨u, hu, List.mem_map.mpr ⟨k, List.mem_range.mpr hk', by simp [hk']⟩⟩
    have hone : ∀ x ∈ bulkEntries t f es, x.1 = u → x.2.1 = f + k → x.2.2 = es[k] := by
      intro x hx _ hxk
      obtain ⟨i, _, -, hi, he⟩ := mem_bulkEntries hx
      obtain rfl : i = k := by omega
      rw [hk] at he
      exact (Option.some.inj he).symm
    have := (Dev.tabW_putEntries _ d hfit (u := u) (k := f + k) (j := j) (by omega) (by omega)).2 es[k] hmem hj' hone
    refine this.trans ?_
    simp [ew, hj']
  · refine (Dev.tabW_putEntries _ d hfit hk hj).1 fun x hx hxu hxk => ?_
    obtain ⟨i, hi, hu, hxi, -⟩ := mem_bulkEntries hx
    rcases hout with hn | hlt | hge
    · exact hn (hxu ▸ hu)
    · omega
    · omega

end

/-! ### Key records (R53) -/

theorem keyFpr_ne_status (k : Nat) : Reg.SEAL_KEY_FPR.addr k ≠ Reg.SEAL_KEY_STATUS.addr k := by
  simp only [Reg.SEAL_KEY_FPR.addr, Reg.SEAL_KEY_STATUS.addr]
  omega

/-- The registers of key slot `k` show the key of kind `kind` that it holds. -/
def Dev.showKey (d : Dev) (k kind fpr : Nat) : Dev :=
  let d := (d.setFlag (Reg.SEAL_KEY_STATUS.VALID k) (kind != 0)).wr (Reg.SEAL_KEY_STATUS.KIND k) kind
  let d := d.wr (Reg.SEAL_KEY_STATUS.GEN k) (d.rd (Reg.SEAL_KEY_STATUS.GEN k) + 1)
  d.wr (Reg.SEAL_KEY_FPR.FPR k) fpr

theorem Dev.showKey_effect (d : Dev) (k kind fpr : Nat) : let e := d.showKey k kind fpr
    e.flag (Reg.SEAL_KEY_STATUS.VALID k) = (kind != 0) ∧ e.rd (Reg.SEAL_KEY_STATUS.KIND k) = kind % 2 ^ 2 ∧
      e.rd (Reg.SEAL_KEY_FPR.FPR k) = fpr % 2 ^ 32 ∧ d.regsBut e [Reg.SEAL_KEY_STATUS.addr k, Reg.SEAL_KEY_FPR.addr k] ∧
      d.Within e [.regs] := by
  have hf := keyFpr_ne_status k
  have hkeep (d : Dev) (v : Nat) (r : FRef) (hr : r.addr = Reg.SEAL_KEY_STATUS.addr k) :
      (d.wr (Reg.SEAL_KEY_FPR.FPR k) v).rd r = d.rd r := Dev.rd_wr_ne _ _ _ _ (by rw [hr]; exact hf.symm)
  have hgen (d : Dev) (v : Nat) (r : FRef) (hr : r.addr = Reg.SEAL_KEY_STATUS.addr k) (hl : 16 ≤ r.lo) :
      (d.wr (Reg.SEAL_KEY_STATUS.GEN k) v).rd r = d.rd r :=
    Dev.rd_wr_disjoint _ _ _ _ (by simp [Reg.SEAL_KEY_STATUS.GEN]) hr (.inr (by simpa [Reg.SEAL_KEY_STATUS.GEN] using hl))
  refine ⟨?_, ?_, ?_, ?_, (((Dev.Within.refl d _).setFlag.wr).wr).wr⟩
  · unfold Dev.showKey Dev.flag
    dsimp only
    rw [hkeep _ _ (Reg.SEAL_KEY_STATUS.VALID k) rfl, hgen _ _ (Reg.SEAL_KEY_STATUS.VALID k) rfl
      (by simp [Reg.SEAL_KEY_STATUS.VALID]),
      Dev.rd_wr_disjoint _ (Reg.SEAL_KEY_STATUS.KIND k) (Reg.SEAL_KEY_STATUS.VALID k) _ (by simp [Reg.SEAL_KEY_STATUS.KIND]) rfl
        (by simp [Reg.SEAL_KEY_STATUS.KIND, Reg.SEAL_KEY_STATUS.VALID])]
    exact Dev.flag_setFlag_same _ _ _ (by simp [Reg.SEAL_KEY_STATUS.VALID]) rfl
  · unfold Dev.showKey
    dsimp only
    rw [hkeep _ _ (Reg.SEAL_KEY_STATUS.KIND k) rfl, hgen _ _ (Reg.SEAL_KEY_STATUS.KIND k) rfl
      (by simp [Reg.SEAL_KEY_STATUS.KIND]),
      Dev.rd_wr_same _ _ _ (by simp [Reg.SEAL_KEY_STATUS.KIND])]
    rfl
  · unfold Dev.showKey
    dsimp only
    rw [Dev.rd_wr_same _ _ _ (by simp [Reg.SEAL_KEY_FPR.FPR])]
    rfl
  · have hs : Reg.SEAL_KEY_STATUS.addr k ∈ [Reg.SEAL_KEY_STATUS.addr k, Reg.SEAL_KEY_FPR.addr k] := List.mem_cons_self
    have hp : Reg.SEAL_KEY_FPR.addr k ∈ [Reg.SEAL_KEY_STATUS.addr k, Reg.SEAL_KEY_FPR.addr k] := by simp
    have h0 := Dev.regsBut.setFlag (r := Reg.SEAL_KEY_STATUS.VALID k) (v := kind != 0) (.refl d _) hs
    have h1 := Dev.regsBut.wr (r := Reg.SEAL_KEY_STATUS.KIND k) (v := kind) h0 hs
    exact .wr (r := Reg.SEAL_KEY_FPR.FPR k) (.wr (r := Reg.SEAL_KEY_STATUS.GEN k) h1 hs) hp

/-- The fingerprint a slot shows: of a verification key (R222). -/
def keyFpr (kind : Nat) (key : List Byte) : Nat := if kind = 1 then fromBe ((sha256 (slice key 0 32)).take 4) else 0

theorem keyFpr_public (key : List Byte) : keyFpr 1 key = fromBe ((sha256 (slice key 0 32)).take 4) := if_pos rfl

theorem keyFpr_secret (key : List Byte) : keyFpr 2 key = 0 := if_neg (by decide)

/-- A slot takes a key. -/
def Dev.takeKey (d : Dev) (k : Nat) (key : List Byte) : Dev :=
  { d with deck := { d.deck with keys := tput d.deck.keys [] k (slice key 0 32) } }

theorem Dev.writeKey_eq (d : Dev) (k : Nat) {kind : Nat} (key : List Byte) (h0 : kind ≠ 0) :
    d.writeKey k kind key = (d.takeKey k key).showKey k kind (keyFpr kind key) := by
  unfold Dev.writeKey
  rw [if_neg h0]
  rfl

theorem Dev.writeKey_effect (d : Dev) (k : Nat) {kind : Nat} (key : List Byte) (h0 : kind ≠ 0) {l : Load} {e : Dev}
    (he : e = (d.writeKey k kind key).setCand l) :
    tget e.deck.keys [] k = slice key 0 32 ∧ e.flag (Reg.SEAL_KEY_STATUS.VALID k) = true ∧
      e.rd (Reg.SEAL_KEY_STATUS.KIND k) = kind % 2 ^ 2 ∧ e.rd (Reg.SEAL_KEY_FPR.FPR k) = keyFpr kind key % 2 ^ 32 ∧
      e.boot.cand = some l ∧ d.regsBut e [Reg.SEAL_KEY_STATUS.addr k, Reg.SEAL_KEY_FPR.addr k] ∧
      d.Within e [.regs, .deck, .boot] := by
  obtain ⟨x, hx⟩ : ∃ x, x = d.takeKey k key := ⟨_, rfl⟩
  obtain ⟨y, hy⟩ : ∃ y, y = x.showKey k kind (keyFpr kind key) := ⟨_, rfl⟩
  obtain ⟨hvalid, hkind, hfpr, hregs, hframe⟩ := x.showKey_effect k kind (keyFpr kind key)
  rw [← hy] at hvalid hkind hfpr hregs hframe
  have hxr : x.regs = d.regs := by rw [hx]; rfl
  have hxw : d.Within x [.regs, .deck, .boot] := hx ▸ (Dev.Within.refl d _).setDeck
  have hkey : tget x.deck.keys [] k = slice key 0 32 := by rw [hx]; exact tget_tput_same _ _ _ _
  have hdeck : y.deck = x.deck := hframe .deck (by decide)
  rw [he, Dev.writeKey_eq _ _ _ h0, ← hx, ← hy]
  refine ⟨?_, hvalid.trans (bne_iff_ne.mpr h0), hkind, hfpr, rfl, .of_regs (.trans (.of_regs (.refl d _) hxr) hregs) rfl,
    (hxw.trans hframe.mono).setBoot⟩
  show tget y.deck.keys [] k = _
  rw [hdeck, hkey]

section
variable {f : Fuses} {slot : Nat} {nonce key tag : List Byte}

theorem keyCode_public (h : slot ≤ 511) (hz : (nonce ++ tag).all (· == 0) = true) (hk : edKeyOk key = true) :
    keyCode f slot 1 0 nonce key tag = 0 := by
  have : ¬511 < slot := by omega
  simp only [keyCode, hz, hk]
  simp [this]

theorem keyCode_secret {p : List Byte} (h : slot ≤ 511)
    (hp : gcmOpen f.kek nonce (keyHead slot 2 0 ++ le 4 f.realm) key tag = some p) : keyCode f slot 2 0 nonce key tag = 0 := by
  have : ¬511 < slot := by omega
  simp [keyCode, this, hp]

theorem keyCode_delegate (h1 : 1 ≤ slot) (h8 : slot ≤ 8) (hz : (nonce ++ tag).all (· == 0) = true) (hk : edKeyOk key = true) :
    keyCode f slot 0x10 0 nonce key tag = 0 := by
  have h0 : ¬(slot = 0 ∨ 8 < slot) := by omega
  simp only [keyCode, hz, hk]
  simp [h0]

end

theorem Dev.imageRec_key {d : Dev} {slot kind : Nat} {nonce key tag : List Byte} (h0 : kind ≠ 0)
    (hc : keyCode d.boot.fuses slot kind 0 nonce key tag = 0) :
    d.imageRec (.key slot kind 0 nonce key tag) = (0, d.applyKey slot kind 0 nonce key tag) := by
  simp only [Dev.imageRec, if_neg h0, hc, if_true]

section
variable {d : Dev} {slot : Nat} {nonce key tag : List Byte} {l : Load} {e : Dev}

theorem Dev.applyKey_public : d.applyKey slot 1 0 nonce key tag = d.writeKey slot 1 key := by
  simp [Dev.applyKey, keyPlain]

theorem Dev.applyKey_secret {p : List Byte}
    (hp : gcmOpen d.boot.fuses.kek nonce (keyHead slot 2 0 ++ le 4 d.boot.fuses.realm) key tag = some p) :
    d.applyKey slot 2 0 nonce key tag = d.writeKey slot 2 p := by
  simp [Dev.applyKey, keyPlain, hp]

theorem Dev.applyKey_delegate : d.applyKey slot 0x10 0 nonce key tag =
    { d with boot := { d.boot with delegates := tput d.boot.delegates [] slot key } } := by
  simp [Dev.applyKey, keyPlain]

/-- A public key fills its slot and shows its fingerprint. -/
theorem publicKeyRecord_effect (he : e = (d.applyKey slot 1 0 nonce key tag).setCand l) :
    tget e.deck.keys [] slot = slice key 0 32 ∧ e.flag (Reg.SEAL_KEY_STATUS.VALID slot) = true ∧
      e.rd (Reg.SEAL_KEY_STATUS.KIND slot) = 1 ∧ e.rd (Reg.SEAL_KEY_FPR.FPR slot) =
        fromBe ((sha256 (slice key 0 32)).take 4) % 2 ^ 32 ∧
      e.boot.cand = some l ∧ d.regsBut e [Reg.SEAL_KEY_STATUS.addr slot, Reg.SEAL_KEY_FPR.addr slot] ∧
      d.Within e [.regs, .deck, .boot] := by
  rw [Dev.applyKey_public] at he
  obtain ⟨hkey, hvalid, hkind, hfpr, hcand, hregs, hframe⟩ := d.writeKey_effect slot key (kind := 1) (by decide) he
  rw [keyFpr_public] at hfpr
  exact ⟨hkey, hvalid, hkind, hfpr, hcand, hregs, hframe⟩

/-- A secret key fills its slot in the clear and shows no fingerprint. -/
theorem secretKeyRecord_effect {p : List Byte}
    (hp : gcmOpen d.boot.fuses.kek nonce (keyHead slot 2 0 ++ le 4 d.boot.fuses.realm) key tag = some p)
    (he : e = (d.applyKey slot 2 0 nonce key tag).setCand l) :
    tget e.deck.keys [] slot = slice p 0 32 ∧ e.rd (Reg.SEAL_KEY_STATUS.KIND slot) = 2 ∧ e.rd (Reg.SEAL_KEY_FPR.FPR slot) = 0 ∧
      e.boot.cand = some l ∧ d.Within e [.regs, .deck, .boot] := by
  rw [Dev.applyKey_secret hp] at he
  obtain ⟨hkey, -, hkind, hfpr, hcand, -, hframe⟩ := d.writeKey_effect slot p (kind := 2) (by decide) he
  rw [keyFpr_secret] at hfpr
  exact ⟨hkey, hkind, hfpr, hcand, hframe⟩

/-- The key of a delegate is taken for the records of the image to come. -/
theorem delegateRecord_effect (he : e = (d.applyKey slot 0x10 0 nonce key tag).setCand l) :
    tget e.boot.delegates [] slot = key ∧ e.boot.cand = some l ∧ d.Within e [.boot] := by
  rw [he, Dev.applyKey_delegate]
  exact ⟨tget_tput_same _ _ _ _, rfl, (Dev.Within.refl d _).setBoot.setBoot⟩

end

/-! ### Store records (R54, R113) -/

theorem tget_filter_keep {β : Type} (t : Tab β) (z : β) (k : Nat) (p : Nat × β → Bool) (h : ∀ v, p (k, v) = true) :
    tget (t.filter p) z k = tget t z k := by
  induction t with
  | nil => rfl
  | cons x t ih =>
    obtain ⟨a, v⟩ := x
    by_cases ha : k = a
    · subst ha
      rw [List.filter_cons_of_pos (h v), tget, if_pos rfl, tget, if_pos rfl]
    · rw [List.filter_cons, tget, if_neg ha, ← ih]
      split
      · rw [tget, if_neg ha]
      · rfl

theorem tget_filter_drop {β : Type} (t : Tab β) (z : β) (k : Nat) (p : Nat × β → Bool) (h : ∀ v, p (k, v) = false) :
    tget (t.filter p) z k = z := by
  refine tget_of_notMem _ _ _ fun e he hk => ?_
  obtain ⟨a, v⟩ := e
  obtain rfl : a = k := hk
  rw [List.mem_filter, h v] at he
  exact absurd he.2 (by decide)

theorem copyKey_word {p k half word : Nat} (hw : word < 2 ^ 14) :
    copyKey p k half word % 2 ^ 15 = (if word < custBase then 0 else half % 2) * 2 ^ 14 + word := by
  unfold copyKey
  split <;> omega

theorem copyKey_pipe {p k half word : Nat} (hk : k < 16) (hh : half < 2) (hw : word < 2 ^ 14) :
    copyKey p k half word / 2 ^ 19 = p := by
  have := copyKey_div (p := p) (k := k) hh hw
  omega

section
variable (d : Dev) {p half word u k h j : Nat} (v : Nat) (hh : half < 2) (hw : word < 2 ^ 14) (hk : k < 16) (hh' : h < 2)
  (hj : j < 2 ^ 14)
include hh hw hk hh' hj

/-- A word written stands in every copy of its pipeline, below the customer part in both halves. -/
theorem Dev.storeWord_writeStore : (d.writeStore p half word v).storeWord u k h j =
    if u = p ∧ j = word ∧ (word < custBase ∨ h = half) then v else d.storeWord u k h j := by
  have hkey : storeKey u h j = storeKey p half word ↔ u = p ∧ j = word ∧ (word < custBase ∨ h = half) := by
    unfold storeKey
    split <;> split <;> omega
  have hbad : (!(copyKey u k h j / 2 ^ 19 != p || copyKey u k h j % 2 ^ 15 != copyKey p 0 half word % 2 ^ 15)) =
      decide (u = p ∧ j = word ∧ (word < custBase ∨ h = half)) := by
    rw [copyKey_pipe hk hh' hj, copyKey_word hj, copyKey_word hw, Bool.eq_iff_iff]
    simp only [Bool.not_or, Bool.and_eq_true, Bool.not_eq_true', bne_eq_false_iff_eq, decide_eq_true_eq]
    split <;> split <;> omega
  unfold Dev.storeWord Dev.storeRef Dev.writeStore
  dsimp only
  split
  · next hc =>
    rw [hkey.mpr hc, tget_tput_same, tget_filter_drop _ _ _ _ fun w => ?_, Nat.xor_zero]
    exact (Bool.not_eq_true' _).mp (hbad.trans (decide_eq_true hc))
  · next hc =>
    rw [tget_tput_ne _ _ _ _ _ _ fun he => hc (hkey.mp he), tget_filter_keep _ _ _ _ fun w => ?_]
    exact (Bool.not_eq_false' _).mp (hbad.trans (decide_eq_false hc))

end

/-- A word written into both halves. -/
def Dev.writeBoth (d : Dev) (p word v : Nat) : Dev := [0, 1].foldl (fun (d : Dev) h => d.writeStore p h word v) d

theorem Dev.storeWord_writeBoth (d : Dev) {p word u k h j : Nat} (v : Nat) (hw : word < 2 ^ 14) (hk : k < 16) (hh : h < 2)
    (hj : j < 2 ^ 14) :
    (d.writeBoth p word v).storeWord u k h j = if u = p ∧ j = word then v else d.storeWord u k h j := by
  have h1 := (d.writeStore p 0 word v).storeWord_writeStore (p := p) (half := 1) (u := u) v (by decide) hw hk hh hj
  have h0 := d.storeWord_writeStore (p := p) (half := 0) (u := u) v (by decide) hw hk hh hj
  refine h1.trans ?_
  rw [h0]
  split
  · next hc => rw [if_pos ⟨hc.1, hc.2.1⟩]
  · next h1 => exact if_congr (by omega) rfl rfl

/-- Words written one after the other into both halves. -/
theorem Dev.storeWord_writeWords (d : Dev) {p f u k h j : Nat} (ws : List Nat) (hf : f + ws.length ≤ 2 ^ 14) (hk : k < 16)
    (hh : h < 2)
    (hj : j < 2 ^ 14) : (d.writeWords p [0, 1] f ws).storeWord u k h j =
      if u = p ∧ f ≤ j ∧ j < f + ws.length then (ws[j - f]?).getD 0 else d.storeWord u k h j := by
  have hupto (n : Nat) (hn : n ≤ ws.length) :
      ((List.range n).foldl (fun (d : Dev) i => d.writeBoth p (f + i) ((ws[i]?).getD 0)) d).storeWord u k h j =
        if u = p ∧ f ≤ j ∧ j < f + n then (ws[j - f]?).getD 0 else d.storeWord u k h j := by
    induction n with
    | zero => exact (if_neg (by omega)).symm
    | succ n ih =>
      rw [List.range_succ, List.foldl_append, List.foldl_cons, List.foldl_nil, Dev.storeWord_writeBoth _ _ (by omega) hk hh hj,
        ih (by omega)]
      by_cases hc : u = p ∧ j = f + n
      · rw [if_pos hc, if_pos (by omega), hc.2, Nat.add_sub_cancel_left]
      · rw [if_neg hc]
        exact if_congr (by omega) rfl rfl
  exact hupto _ le_rfl

theorem Dev.within_writeWords (d : Dev) (p f : Nat) (hs ws : List Nat) : d.Within (d.writeWords p hs f ws) [.beat] :=
  (Dev.Within.refl d _).foldl fun _ _ h => h.foldl fun _ _ h => h.setBeat

/-- Words written into both halves of every copy of the pipelines of `ps`. -/
def Dev.writePipes (d : Dev) (ps : List Nat) (f : Nat) (ws : List Nat) : Dev :=
  ps.foldl (fun (d : Dev) p => d.writeWords p [0, 1] f ws) d

theorem Dev.storeWord_writePipes (ps : List Nat) (d : Dev) {f u k h j : Nat} (ws : List Nat) (hf : f + ws.length ≤ 2 ^ 14)
    (hk : k < 16)
    (hh : h < 2) (hj : j < 2 ^ 14) : (d.writePipes ps f ws).storeWord u k h j =
      if u ∈ ps ∧ f ≤ j ∧ j < f + ws.length then (ws[j - f]?).getD 0 else d.storeWord u k h j := by
  induction ps generalizing d with
  | nil => exact (if_neg (by simp)).symm
  | cons p ps ih =>
    refine (ih (d.writeWords p [0, 1] f ws)).trans ?_
    rw [Dev.storeWord_writeWords _ _ hf hk hh hj]
    have hcons : u ∈ p :: ps ↔ u = p ∨ u ∈ ps := List.mem_cons
    by_cases hps : u ∈ ps ∧ f ≤ j ∧ j < f + ws.length
    · rw [if_pos hps, if_pos ⟨hcons.mpr (.inr hps.1), hps.2⟩]
    · rw [if_neg hps]
      exact if_congr (by tauto) rfl rfl

theorem Dev.within_writePipes (d : Dev) (ps : List Nat) (f : Nat) (ws : List Nat) : d.Within (d.writePipes ps f ws) [.beat] :=
  (Dev.Within.refl d _).foldl fun _ _ h => h.trans (Dev.within_writeWords _ _ _ _ _)

theorem mem_pipesOf {m p : Nat} : p ∈ pipesOf m ↔ p < 4 ∧ m.testBit p = true := by
  rw [pipesOf, List.mem_filter]
  exact and_congr_left fun _ => by simp; omega

theorem storeWord_congr {d e : Dev} (h : e.beat = d.beat) (p k half word : Nat) :
    e.storeWord p k half word = d.storeWord p k half word := by
  rw [Dev.storeWord, Dev.storeRef, h, Dev.storeWord, Dev.storeRef]

theorem storeRecord_effect (d : Dev) {m f : Nat} {ws : List Nat} (hbad : storeBad m 0 f 0 ws.length = false) {l : Load} {e : Dev}
    (he : e = (d.loadStore m f ws).setCand l) :
    (∀ p k h j w, m.testBit p = true → p < 4 → k < 16 → h < 2 → ws[j]? = some w → e.storeWord p k h (f + j) = w) ∧
      (∀ p k h j, p < 4 → k < 16 → h < 2 → j < 2 ^ 14 → m.testBit p = false ∨ j < f ∨ f + ws.length ≤ j →
        e.storeWord p k h j = d.storeWord p k h j) ∧
      (∀ p, p < 4 → m.testBit p = true → p ∈ e.boot.storePipes) ∧ e.boot.cand = some l ∧ d.Within e [.beat, .boot] := by
  have hf : f + ws.length ≤ 2 ^ 14 := by
    simp only [storeBad, Bool.or_eq_false_iff, decide_eq_false_iff_not] at hbad
    omega
  obtain ⟨x, hx⟩ : ∃ x, x = d.writePipes (pipesOf m) f ws := ⟨_, rfl⟩
  have hword (p k h j : Nat) (hk : k < 16) (hh : h < 2) (hj : j < 2 ^ 14) : x.storeWord p k h j = _ :=
    hx ▸ Dev.storeWord_writePipes (pipesOf m) d ws hf hk hh hj
  have hxw : d.Within x [.beat] := hx ▸ Dev.within_writePipes _ _ _ _
  have hboot : x.boot = d.boot := hxw .boot (by decide)
  have hl : (d.loadStore m f ws).setCand l = { x with boot := { x.boot with
      storePipes := x.boot.storePipes ++ (pipesOf m).filter fun p => !x.boot.storePipes.contains p, cand := some l } } := by
    rw [hx]
    rfl
  rw [he, hl]
  refine ⟨fun p k h j w hm hp hk hh hw => ?_, fun p k h j hp hk hh hj hout => ?_, fun p hp hm => ?_, rfl, hxw.mono.setBoot⟩
  · obtain ⟨hj, rfl⟩ := List.getElem?_eq_some_iff.mp hw
    refine (storeWord_congr (d := x) rfl _ _ _ _).trans ((hword p k h (f + j) hk hh (by omega)).trans ?_)
    rw [if_pos ⟨mem_pipesOf.mpr ⟨hp, hm⟩, by omega, by omega⟩, Nat.add_sub_cancel_left, hw]
    rfl
  · refine (storeWord_congr (d := x) rfl _ _ _ _).trans ((hword p k h j hk hh hj).trans (if_neg ?_))
    rintro ⟨hmem, hge, hlt⟩
    rcases hout with hm | hjf | hj
    · simp [(mem_pipesOf.mp hmem).2] at hm
    · omega
    · omega
  · by_cases hs : p ∈ x.boot.storePipes
    · exact List.mem_append_left _ hs
    · exact List.mem_append_right _ (List.mem_filter.mpr ⟨mem_pipesOf.mpr ⟨hp, hm⟩, by simp [hs]⟩)

theorem Dev.imageRec_store {d : Dev} {m f : Nat} {ws : List Nat} (hbad : storeBad m 0 f 0 ws.length = false) :
    d.imageRec (.store m 0 f 0 ws) = (0, d.loadStore m f ws) := by
  rw [Dev.imageRec, hbad]
  rfl

/-! ### The record instructions -/

section
variable {d : Dev} (hl : d.hold.live = true) (q : List Instr)
include hl

theorem exec_registerWriteRecord (a m v : Nat) :
    exec (.registerWriteRecord a m v) ⟨d, q⟩ = .next ⟨d.loadRecord (.reg a m v), q⟩ :=
  State.on_live hl q fun d => Dev.loadRecord d (.reg a m v)

theorem exec_bulkTableRecord (t f w z n : Nat) (x : List (List Nat)) :
    exec (.bulkTableRecord t f w z n x) ⟨d, q⟩ = .next ⟨d.loadRecord (.bulk t f w z n x), q⟩ :=
  State.on_live hl q fun d => Dev.loadRecord d (.bulk t f w z n x)

theorem exec_keyRecord (s k z : Nat) (n y g : List Byte) :
    exec (.keyRecord s k z n y g) ⟨d, q⟩ = .next ⟨d.loadRecord (.key s k z n y g), q⟩ :=
  State.on_live hl q fun d => Dev.loadRecord d (.key s k z n y g)

theorem exec_storeRecord (p z n y : Nat) (w : List Nat) :
    exec (.storeRecord p z n y w) ⟨d, q⟩ = .next ⟨d.loadRecord (.store p z n y w), q⟩ :=
  State.on_live hl q fun d => Dev.loadRecord d (.store p z n y w)

/-- Each of the four instructions gives the loader its record. -/
theorem exec_record {r : CfgRec} {i : Instr} (h : (∃ a m v, r = .reg a m v ∧ i = .registerWriteRecord a m v) ∨
    (∃ t f w z n x, r = .bulk t f w z n x ∧ i = .bulkTableRecord t f w z n x) ∨
    (∃ s k z n y g, r = .key s k z n y g ∧ i = .keyRecord s k z n y g) ∨
    ∃ p z n y w, r = .store p z n y w ∧ i = .storeRecord p z n y w) : exec i ⟨d, q⟩ = .next ⟨d.loadRecord r, q⟩ := by
  obtain ⟨a, m, v, rfl, rfl⟩ | ⟨t, f, w, z, n, x, rfl, rfl⟩ | ⟨s, k, z, n, y, g, rfl, rfl⟩ | ⟨p, z, n, y, w, rfl, rfl⟩ := h
  · exact exec_registerWriteRecord hl q a m v
  · exact exec_bulkTableRecord hl q t f w z n x
  · exact exec_keyRecord hl q s k z n y g
  · exact exec_storeRecord hl q p z n y w

end

end Sys2Proof.Machine

section

open Sys2Proof Sys2Proof.Machine

/-- Settles O7: a record that is not next leaves the device, a refused one fails the candidate, each kind writes what it
names. -/
theorem imageRecordsAreApplied : Obligations.ImageRecordsAreApplied := by
  unfold Obligations.ImageRecordsAreApplied
  refine ⟨fun d q r i hl hi => ⟨fun hnone => ?_, fun l s hload => ⟨fun hother => ?_, fun n c hcur hskip hn hc h0 h256 => ?_⟩⟩,
    fun d q l s n x l2 hl hload hcur hskip hn hl2 => ⟨fun a m v r ix hx hf ha hv hp hacc hname => ?_,
      fun t w f es hx hbad h5 h3 hes => ?_,
      fun slot kind nonce key tag hx => ⟨fun hk hs hz hok => ?_, fun p hk hs hp => ?_, fun hk h1 h8 hz hok => ?_⟩,
      fun m f ws hx hbad => ?_⟩⟩
  · rw [exec_record hl q hi, Dev.loadRecord_of_none hnone]
  · rw [exec_record hl q hi, Dev.loadRecord_of_other hload hother]
  · rw [exec_record hl q hi, Dev.loadRecord_refused hload hcur hskip hn hc h0]
    exact ⟨_, rfl, Dev.failCandidate_effect _ _ (by split <;> omega)⟩
  all_goals subst hx hl2
  · obtain ⟨e, he, hexec⟩ := exec_applied hload hcur hskip hn (exec_registerWriteRecord hl q a m v) (Dev.imageRec_reg hf ha hv)
    obtain ⟨hreg, hcand, hregs, hframe⟩ := registerRecord_effect hf hp hacc hname he
    exact ⟨e, hexec, hreg, hcand, hregs, hframe.eq⟩
  · obtain ⟨e, he, hexec⟩ := exec_applied hload hcur hskip hn (exec_bulkTableRecord hl q t 0 w 0 f es)
      (Dev.imageRec_bulk hbad h5 h3 hes)
    obtain ⟨hin, hout, hcand, hframe⟩ := bulkRecord_effect hbad he
    exact ⟨e, hexec, hin, hout, hcand, hframe.eq⟩
  · subst hk
    obtain ⟨e, he, hexec⟩ := exec_applied hload hcur hskip hn (exec_keyRecord hl q slot 1 0 nonce key tag)
      (Dev.imageRec_key (by decide) (keyCode_public hs hz hok))
    obtain ⟨hkey, hvalid, hkind, hfpr, hcand, hregs, hframe⟩ := publicKeyRecord_effect he
    exact ⟨e, hexec, hkey, hvalid, hkind, hfpr, hcand, hregs, hframe.eq⟩
  · subst hk
    obtain ⟨e, he, hexec⟩ := exec_applied hload hcur hskip hn (exec_keyRecord hl q slot 2 0 nonce key tag)
      (Dev.imageRec_key (by decide) (keyCode_secret hs hp))
    obtain ⟨hkey, hkind, hfpr, hcand, hframe⟩ := secretKeyRecord_effect hp he
    exact ⟨e, hexec, hkey, hkind, hfpr, hcand, hframe.eq⟩
  · subst hk
    obtain ⟨e, he, hexec⟩ := exec_applied hload hcur hskip hn (exec_keyRecord hl q slot 0x10 0 nonce key tag)
      (Dev.imageRec_key (by decide) (keyCode_delegate h1 h8 hz hok))
    obtain ⟨hkey, hcand, hframe⟩ := delegateRecord_effect he
    exact ⟨e, hexec, hkey, hcand, hframe.eq⟩
  · obtain ⟨e, he, hexec⟩ := exec_applied hload hcur hskip hn (exec_storeRecord hl q m 0 f 0 ws) (Dev.imageRec_store hbad)
    obtain ⟨hin, hout, hpipes, hcand, hframe⟩ := storeRecord_effect d hbad he
    exact ⟨e, hexec, hin, hout, hpipes, hcand, hframe.eq⟩

end

/-! PROOFS about what forwarding release leaves alone: the instant, the reset conditions and the state of start-up
(R44 step 8). -/

namespace Sys2Proof.Machine

open Sys2Proof

/-- `e` has of `d` the instant, the reset conditions and the state of start-up. -/
structure Dev.Steady (d e : Dev) : Prop where
  now : e.now = d.now
  hold : e.hold = d.hold
  boot : e.boot = d.boot

namespace Dev.Steady

theorem refl (d : Dev) : d.Steady d := ⟨rfl, rfl, rfl⟩

section
variable {z d : Dev} (h : z.Steady d)
include h

/-- Every other component may change. -/
theorem aside {free regs ctrs ctrOvf wire tabs time supv host audit power ports mods path beat look strm red deck vat fab egr} :
    z.Steady ⟨d.now, free, d.hold, regs, ctrs, ctrOvf, wire, tabs, time, supv, host, audit, d.boot, power, ports, mods, path,
      beat, look, strm, red, deck, vat, fab, egr⟩ := ⟨h.now, h.hold, h.boot⟩

theorem ite {c : Prop} [Decidable c] {e : Dev} (he : z.Steady e) : z.Steady (if c then d else e) := by
  split
  · exact h
  · exact he

theorem foldl {β : Type} {f : Dev → β → Dev} {l : List β} (hf : ∀ e x, z.Steady e → z.Steady (f e x)) : z.Steady (l.foldl f d) :=
  List.foldlRecOn l f h fun e he x _ => hf e x he

theorem foldlFst {β γ : Type} {f : Dev × γ → β → Dev × γ} {l : List β} {x : γ} (hf : ∀ b y, z.Steady b.1 → z.Steady (f b y).1) :
    z.Steady (l.foldl f (d, x)).1 :=
  List.foldlRecOn (motive := fun b => z.Steady b.1) l f h fun b hb x _ => hf b x hb

theorem setReg {a w} : z.Steady (d.setReg a w) := h.aside
theorem wr {r v} : z.Steady (d.wr r v) := h.setReg
theorem out {o} : z.Steady (d.out o) := h.aside
theorem cntBy {c i n} : z.Steady (d.cntBy c i n) := h.aside
theorem setBank {p b} : z.Steady (d.setBank p b) := h.aside
theorem setTb {t b} : z.Steady (d.setTb t b) := h.aside
theorem setFlag {r b} : z.Steady (d.setFlag r b) := h.wr
theorem setBitOf {r k b} : z.Steady (d.setBitOf r k b) := h.wr

theorem cnt {c i} : z.Steady (d.cnt c i) := h.cntBy
theorem dropCount {r} : z.Steady (d.dropCount r) := h.cnt

theorem irq {v} : z.Steady (d.irq v) := h.ite (.ite h.setBitOf.out h.setBitOf)
theorem alarm {g b} : z.Steady (d.alarm g b) := h.ite h.setBitOf.irq
theorem submit {r} : z.Steady (d.submit r) := .ite h.aside h.cnt.aside
theorem log {typ unit data} : z.Steady (d.log typ unit data) := h.submit

theorem requestTokens {x level} : z.Steady (d.requestTokens x level) := .ite h h.aside
theorem releaseTokens {x} : z.Steady (d.releaseTokens x) := .ite h.aside.wr h.aside
theorem auditLost {loc n} : z.Steady (d.auditLost loc n) := .ite h.wr h

theorem ptrFail {store value} : z.Steady (d.ptrFail store value) :=
  .log (.alarm (.ite h.cnt h.cnt.setFlag.wr.wr))

theorem returnCell {p k flip} : z.Steady (d.returnCell p k flip) := by
  unfold Dev.returnCell
  dsimp only
  split
  · exact h.setBank
  · exact h.setBank.ptrFail.auditLost

theorem setPauseSt {n c s} : z.Steady (d.setPauseSt n c s) := h.aside
theorem addEc {p m c k} : z.Steady (d.addEc p m c k) := h.aside
theorem subEc {p m c k} : z.Steady (d.subEc p m c k) := h.aside

theorem sendPause {n mode cs xoff} : z.Steady (d.sendPause n mode cs xoff) :=
  .ite (.out (h.foldl fun _ _ h => h.cnt.setBitOf.setPauseSt)) h.cnt.wr.setPauseSt.out

theorem evalPause {n} : z.Steady (d.evalPause n) := by
  unfold Dev.evalPause
  dsimp only
  split
  · exact h
  · split
    · split
      · split
        · exact h.sendPause
        · exact h
      · split
        · exact h
        · exact h.sendPause
    · split
      · split
        · exact h
        · exact h.sendPause
      · exact .sendPause (.ite h h.sendPause)
    · exact h

theorem addIc {n c k} : z.Steady (d.addIc n c k) := .ite h h.aside.evalPause
theorem subIc {n c k} : z.Steady (d.subIc n c k) := .ite h h.aside.evalPause

theorem unref {p k flip} : z.Steady (d.unref p k flip).1 := by
  unfold Dev.unref
  dsimp only
  split
  · exact .ite h.cnt h.cnt.setBank.auditLost
  · split
    · exact h.setBank.returnCell
    · exact h.setBank

theorem returnCredit {g n} : z.Steady (d.returnCredit g n) := .ite h h.wr.aside
theorem unstage {g n} : z.Steady (d.unstage g n) := .ite h h.wr.returnCredit
theorem setVatHalf {v s f} : z.Steady (d.setVatHalf v s f) := h.aside

theorem returnBlock {b flip} : z.Steady (d.returnBlock b flip) := by
  unfold Dev.returnBlock
  dsimp only
  split
  · exact h
  · split
    · exact h.setVatHalf.wr
    · exact h.ptrFail.auditLost

theorem clearTx {i} : z.Steady (d.clearTx i) := h.aside
theorem askRefills {p} : z.Steady (d.askRefills p) := .ite h (h.foldl fun _ _ h => .ite (.ite h (.ite h.aside h)) h)
theorem returnChain {f} : z.Steady (d.returnChain f) := .ite (h.foldl fun _ _ h => h.returnCell) h
theorem returnStaging {f} : z.Steady (d.returnStaging f) := .ite h h.aside.wr.wr
theorem startRebuild {p s} : z.Steady (d.startRebuild p s) := .ite h h.setBank.cnt.setFlag

theorem allocCell {p fuel} : z.Steady (d.allocCell p fuel).2 := by
  induction fuel generalizing d with
  | zero => exact h
  | succ fuel ih =>
    unfold Dev.allocCell
    dsimp only
    split
    · exact h
    · split
      · exact h
      · split
        · exact h.setBank
        · exact ih h.startRebuild

theorem setPortSt {n s} : z.Steady (d.setPortSt n s) := h.aside
theorem startRemoval {n} : z.Steady (d.startRemoval n) := h.foldl fun _ _ h => h.aside.setFlag

theorem issueLearn {p e} : z.Steady (d.issueLearn p e) := by
  unfold Dev.issueLearn
  dsimp only
  split
  · split
    · exact h.cnt.aside
    · exact h.cnt.aside.cnt
  · exact h.aside.cnt

theorem issueHeld {f} : z.Steady (d.issueHeld f) := by
  unfold Dev.issueHeld
  dsimp only
  split
  · refine .aside ?_
    split
    · exact h.issueLearn
    · exact h
  · split
    · exact h.issueLearn
    · exact h

theorem countRxErr {n reason} : z.Steady (d.countRxErr n reason) := by
  unfold Dev.countRxErr
  split
  · exact h.cnt
  · exact h.cnt
  · exact h.cnt
  · exact h.cnt
  · exact h

theorem clearPause {n} : z.Steady (d.clearPause n) := h.setReg.foldl fun _ _ h => h.setPauseSt
theorem applyTxeq {g l} : z.Steady (d.applyTxeq g l) := h.setBitOf.setReg
theorem copiesFollow {p} : z.Steady (d.copiesFollow p) := h.wr.setFlag

theorem checkPairs : z.Steady (d.checkPairs) := by
  unfold Dev.checkPairs
  refine h.foldl fun d x h => ?_
  split
  · exact h.setFlag.setFlag
  · exact h

theorem ptpCheck {k} : z.Steady (d.ptpCheck k) := h.setFlag
theorem setSgate {x g} : z.Steady (d.setSgate x g) := h.aside
theorem installStream {p x} : z.Steady (d.installStream p x) := h.setSgate
theorem checkMirrors : z.Steady (d.checkMirrors) := h.foldl fun _ _ h => h.setFlag
theorem checkSeal : z.Steady (d.checkSeal) := h.setFlag
theorem setEgate {n g} : z.Steady (d.setEgate n g) := h.aside
theorem showGates {n} : z.Steady (d.showGates n) := h.wr.setFlag.setFlag.wr
theorem showPlanes : z.Steady (d.showPlanes) := h.setFlag

theorem fabricRelease : z.Steady (d.fabricRelease) :=
  .showPlanes (.aside (.setFlag (.wr (.wr (.wr (h.foldl fun _ _ h => h.wr.setFlag))))))

theorem installGates {n} : z.Steady (d.installGates n) := .showGates (.ite h.setEgate h.setEgate)
theorem setCage {c s} : z.Steady (d.setCage c s) := h.aside
theorem checkCages : z.Steady (d.checkCages) := h.foldl fun _ _ h => .ite h.setFlag h
theorem stepCage {c st} : z.Steady (d.stepCage c st) := h.wr.setCage
theorem resetPin {c high} : z.Steady (d.resetPin c high) := h.out
theorem resetModule {c} : z.Steady (d.resetModule c) := h.stepCage.setCage.wr.resetPin
theorem awaitReady {c start} : z.Steady (d.awaitReady c start) := h.stepCage.setCage

theorem moduleStart : z.Steady (d.moduleStart) :=
  h.checkCages.foldl fun _ _ h => .ite (.ite h.resetModule h.awaitReady) h

theorem tioLate : z.Steady (d.tioLate) := h.foldl fun _ _ h => .ite h.setFlag.cnt.aside h
theorem pairsCheck : z.Steady (d.pairsCheck) := h.foldl fun _ _ h => h.setFlag
theorem groupPower {g} : z.Steady (d.groupPower g) := .ite h.releaseTokens h.requestTokens

theorem releaseTime : z.Steady (d.releaseTime) :=
  .tioLate (.aside (h.foldl fun _ _ h => h.setTb.wr.setFlag.setFlag.wr.wr))

theorem releaseStores : z.Steady (d.releaseStores) :=
  .foldl (h.foldl fun _ _ h => h.wr) fun _ _ h => h.copiesFollow

theorem releaseGates : z.Steady (d.releaseGates) :=
  .foldl (h.foldl fun _ _ h => .ite h.installGates h) fun _ _ h => h.foldl fun _ _ h => .ite h.installStream h

theorem releasePower : z.Steady (d.releasePower) :=
  .foldl (h.foldl fun _ _ h => .ite h h.groupPower) fun _ _ h => .ite h.requestTokens h

theorem setFrame {f} : z.Steady (d.setFrame f) := h.aside
theorem delFrame {i} : z.Steady (d.delFrame i) := h.aside
theorem setCopy {c} : z.Steady (d.setCopy c) := h.aside
theorem delCopy {i} : z.Steady (d.delCopy i) := h.aside

theorem reap {i} : z.Steady (d.reap i) := by
  unfold Dev.reap
  split
  · split
    · exact h.delFrame
    · exact h
  · exact h

theorem deliver {port mac} : z.Steady (d.deliver port mac) := h.aside

theorem releaseRefs {c flip} : z.Steady (d.releaseRefs c flip) := by
  unfold Dev.releaseRefs
  split
  · exact h
  next f _ =>
    split
    · exact h
    · extract_lets p r e
      have he : z.Steady e := by
        refine .subEc (h.foldlFst fun _ _ h => ?_)
        exact h.unref
      clear_value e
      exact .setCopy (.ite he he.subIc)

theorem removeCopy {c} : z.Steady (d.removeCopy c) := by
  unfold Dev.removeCopy
  refine .askRefills (.reap (.delCopy (.clearTx (.unstage (.returnCredit (.aside ?_))))))
  split
  · exact h.releaseRefs.returnBlock
  · exact h.releaseRefs

theorem endFrame {f} : z.Steady (d.endFrame f) := h.returnChain.returnStaging.setFrame.reap.deliver
theorem dropFrame {f reason} : z.Steady (d.dropFrame f reason) := h.dropCount.endFrame

theorem bankEmpty {f} : z.Steady (d.bankEmpty f) := by
  unfold Dev.bankEmpty
  split
  · exact h.setFrame
  · exact h.dropFrame

theorem ofAllocCell {p fuel o e} (he : d.allocCell p fuel = (o, e)) : z.Steady e := by
  have hx := h.allocCell (p := p) (fuel := fuel)
  rw [he] at hx
  exact hx

theorem writeCell {f last} : z.Steady (d.writeCell f last) := by
  unfold Dev.writeCell
  extract_lets p hs
  split
  · exact h.setFrame
  · split
    next he => exact (h.ofAllocCell he).bankEmpty
    next k e he =>
      extract_lets b b1 b2 d1 d2
      have hd : z.Steady d1 := (h.ofAllocCell he).setBank.setFrame
      clear_value d1
      have hd2 : z.Steady d2 := hd.foldl fun _ _ h => h.addEc
      exact .ite (.ite hd2 hd2.addIc) hd

theorem fillCells {i fuel} : z.Steady (d.fillCells i fuel) := by
  induction fuel generalizing d with
  | zero => exact h
  | succ fuel ih =>
    unfold Dev.fillCells
    split
    · exact h
    · split
      · exact h
      · exact ih h.writeCell

theorem storeCells {i} : z.Steady (d.storeCells i) := by
  unfold Dev.storeCells
  split
  · exact h
  · exact .fillCells (.ite h.cnt h)

theorem offerSpill {i} : z.Steady (d.offerSpill i) := by
  unfold Dev.offerSpill
  dsimp only
  split
  · split
    · split
      · exact h.aside.returnCredit.setCopy
      · exact h.cnt.requestTokens
    · exact h
  · exact h

theorem finishRx {f err} : z.Steady (d.finishRx f err) := by
  unfold Dev.finishRx
  dsimp only
  split
  · exact h.cnt.cntBy.cnt.cntBy.aside.setFrame.issueHeld.storeCells.offerSpill.reap
  · split
    · exact h.cnt.cntBy.countRxErr.aside.setFrame.storeCells
    · split
      · exact h.cnt.cntBy.countRxErr.aside.setFrame.storeCells.reap
      · exact h.cnt.cntBy.countRxErr.aside.setFrame.storeCells.reap
      · exact h.cnt.cntBy.countRxErr.aside.setFrame.storeCells
      · exact h.cnt.cntBy.countRxErr.aside.setFrame.storeCells
      · exact h.cnt.cntBy.countRxErr.aside.setFrame.storeCells.dropFrame

theorem cutRx {n mac} : z.Steady (d.cutRx n mac) := by
  unfold Dev.cutRx
  split
  · exact h
  · split
    · exact h.delFrame
    · exact h.finishRx

theorem cutCopies {reason p} : z.Steady (d.cutCopies reason p) := by
  unfold Dev.cutCopies
  refine h.foldl fun d x h => ?_
  split
  · exact h.dropCount.removeCopy
  · exact h

theorem linkFalls {n} : z.Steady (d.linkFalls n) := by
  unfold Dev.linkFalls
  dsimp only
  split
  · split
    · exact h.cnt.setFlag.clearPause.setFlag.wr.setFlag.setFlag.cutRx.cutRx.setPortSt
    · exact h.cnt.setFlag.clearPause.setFlag.wr.setFlag.setFlag.cutRx.cutRx.setPortSt.startRemoval
  · split
    · exact h.clearPause.setFlag.wr.setFlag.setFlag.cutRx.cutRx.setPortSt
    · exact h.clearPause.setFlag.wr.setFlag.setFlag.cutRx.cutRx.setPortSt.startRemoval

theorem flushPort {n} : z.Steady (d.flushPort n) := h.setFlag.setFlag.setPortSt.cutCopies

theorem enterHold {n} : z.Steady (d.enterHold n) :=
  .ite h.linkFalls.cutCopies.cutCopies.flushPort h.linkFalls.cutCopies.cutCopies.setFlag.setPortSt

theorem portCheck {n} : z.Steady (d.portCheck n) := .ite h.setFlag.enterHold h.setFlag

theorem releaseChecks : z.Steady (d.releaseChecks) :=
  .foldl (.foldl (.pairsCheck (h.checkPairs.checkMirrors.checkSeal.foldl fun _ _ h => h.ptpCheck))
    fun _ _ h => h.applyTxeq) fun _ _ h => h.portCheck

end
end Dev.Steady

end Sys2Proof.Machine

/-! PROOFS about the steps of start-up (R37 to R49, R55, R61, R67, R242). -/

namespace Sys2Proof.Machine

open Sys2Proof

theorem Dev.regsBut.rd {d e : Dev} {l : List Nat} (h : d.regsBut e l) {r : FRef} (hr : r.addr ∉ l) : e.rd r = d.rd r :=
  Dev.rd_congr_reg (h _ hr)

theorem Dev.regsBut.flag {d e : Dev} {l : List Nat} (h : d.regsBut e l) {r : FRef} (hr : r.addr ∉ l) : e.flag r = d.flag r :=
  Dev.flag_congr_reg (h _ hr)

namespace Dev.Within
section
variable {b d : Dev} {l : List Part} (h : b.Within d l)
include h

theorem setHold {x : HoldSt} (ht : .hold ∈ l := by decide) : b.Within { d with hold := x } l :=
  h.trans fun p hp => by
    cases p with
    | hold => exact absurd ht hp
    | _ => rfl

theorem setPower {x : PowerSt} (ht : .power ∈ l := by decide) : b.Within { d with power := x } l :=
  h.trans fun p hp => by
    cases p with
    | power => exact absurd ht hp
    | _ => rfl

theorem setTb {t : Nat} {x : TbSt} (ht : .time ∈ l := by decide) : b.Within (d.setTb t x) l :=
  h.trans fun p hp => by
    cases p with
    | time => exact absurd ht hp
    | _ => rfl

theorem setVat {x : VatSt} (ht : .vat ∈ l := by decide) : b.Within { d with vat := x } l :=
  h.trans fun p hp => by
    cases p with
    | vat => exact absurd ht hp
    | _ => rfl

theorem setVatHalf {v s : Nat} {x : FreeList} (ht : .vat ∈ l := by decide) : b.Within (d.setVatHalf v s x) l := h.setVat ht

theorem releaseTokens {x : Nat} (hr : .regs ∈ l := by decide) (ht : .power ∈ l := by decide) : b.Within (d.releaseTokens x) l :=
  .ite ((h.setPower ht).wr hr) (h.setPower ht)

theorem auditLost {x n : Nat} (hr : .regs ∈ l := by decide) : b.Within (d.auditLost x n) l := .ite (h.wr hr) h

theorem requestTokens {x v : Nat} (ht : .power ∈ l := by decide) : b.Within (d.requestTokens x v) l := h.ite (h.setPower ht)

theorem timeZero {x v : Nat} (hr : .regs ∈ l := by decide) (hb : .boot ∈ l := by decide) : b.Within (d.timeZero x v) l :=
  (((h.setBoot hb).wr hr).wr hr).setFlag hr

end
end Dev.Within

/-! ### Time zero (R40, R43, R44 step 1) -/

theorem Dev.regsBut_timeZero (d : Dev) (b n : Nat) : d.regsBut (d.timeZero b n) [Reg.DEV_STRAP.addr, Reg.DEV_BOOT_STATUS.addr] :=
  fun a ha => d.reg_timeZero b n a (fun h => ha (by simp [h])) fun h => ha (by simp [h])

/-- Time zero of a device whose conditions have just allowed it. -/
theorem timeZero_effect {d e : Dev} {h : HoldSt} {b n : Nat} (hb : b < 4) (hn : n < 2)
    (he : e = ({ d with hold := h } : Dev).timeZero b n) : e.hold = h ∧ e.boot.t0 = d.now ∧
      e.boot.bootCount = (d.boot.bootCount + 1) % 2 ^ 16 ∧ e.rd Reg.DEV_STRAP.BOOT_SEL = b ∧ e.rd Reg.DEV_STRAP.NVM_MODE = n ∧
      e.flag Reg.DEV_BOOT_STATUS.UNPROV = d.unprovisioned ∧ d.regsBut e [Reg.DEV_STRAP.addr, Reg.DEV_BOOT_STATUS.addr] ∧
      d.Within e [.hold, .regs, .boot] := by
  obtain ⟨x, hx⟩ : ∃ x : Dev, x = { d with hold := h } := ⟨_, rfl⟩
  rw [← hx] at he
  have hw : d.Within x [.hold, .regs, .boot] := hx ▸ (Dev.Within.refl d _).setHold
  have hboot : x.boot = d.boot := by rw [hx]
  have hnow : x.now = d.now := by rw [hx]
  have hregs : x.regs = d.regs := by rw [hx]
  have hhold : x.hold = h := by rw [hx]
  have hwz : x.Within (x.timeZero b n) [.regs, .boot] := (Dev.Within.refl x _).timeZero
  have hstay : (x.timeZero b n).hold = x.hold := hwz .hold (by decide)
  rw [he, Dev.rd_timeZero_sel, Dev.rd_timeZero_mode, Dev.flag_timeZero_unprov, Dev.unprovisioned, Dev.timeZero_boot, hboot, hnow,
    hstay, hhold]
  exact ⟨rfl, rfl, rfl, Nat.mod_eq_of_lt hb, Nat.mod_eq_of_lt hn, rfl,
    .trans (.of_regs (.refl d _) hregs) (x.regsBut_timeZero b n), hw.timeZero⟩

/-! ### The clocks start (R44 step 2, R34, R402) -/

/-- The PLLs show their lock. -/
def Dev.pllsLocked (d : Dev) : Dev :=
  ((d.setFlag Reg.PWCK_CLK_STATUS.PLL_LOCK true).setFlag (Reg.PORT_GRP_STATUS.TX_PLL_LOCK 64) true).setFlag
    (Reg.PORT_GRP_STATUS.TX_PLL_LOCK 65) true

/-- TB0 starts at the seconds kept for it. -/
def Dev.baseStarts (d : Dev) : Dev := d.setTb 0 { d.tb 0 with own := d.boot.tb0Sec * 10 ^ 9 * nsUnit }

/-- Domains ask for tokens, one after the other. -/
def Dev.askAll (d : Dev) (l : List Nat) : Dev := l.foldl (fun (d : Dev) h => d.requestTokens h (holderLevel h)) d

/-- The AVS setpoint is commanded, and the boot ROM starts. -/
def Dev.romStarts (d : Dev) : Dev :=
  ((d.wr Reg.PWCK_AVS.VOUT_MV (d.rd Reg.PWCK_AVS.SETPOINT_MV)).out (.pmbus 0 (d.rd Reg.PWCK_AVS.SETPOINT_MV))).wr
    Reg.DEV_BOOT_STATUS.PHASE 1

theorem pllLockDone_of_ready {d : Dev} (hg : d.hold.pwrGood = true) (hp : d.hold.por = false) (hs : d.hold.shutdown = false)
    (hc : d.hold.clocks = false) : pllLockDone d =
      ((({ d with hold := { d.hold with clocks := true } } : Dev).pllsLocked.baseStarts).askAll step2Domains).romStarts := by
  rw [pllLockDone, if_pos (by simp [hg, hp, hs, hc])]
  rfl

theorem pllLockDone_of_not {d : Dev} (h : d.hold.clocks = true ∨ d.hold.pwrGood = false) : pllLockDone d = d := by
  rw [pllLockDone, if_neg (by rcases h with h | h <;> simp [h])]

theorem Dev.within_baseStarts (d : Dev) : d.Within d.baseStarts [.time] := (Dev.Within.refl d _).setTb

theorem grpStatus_ne_clkStatus (g : Nat) : Reg.PWCK_CLK_STATUS.addr ≠ Reg.PORT_GRP_STATUS.addr g := by
  simp only [Reg.PWCK_CLK_STATUS.addr, Reg.PORT_GRP_STATUS.addr]
  omega

theorem grpStatus_ne_avs (g : Nat) : Reg.PWCK_AVS.addr ≠ Reg.PORT_GRP_STATUS.addr g := by
  simp only [Reg.PWCK_AVS.addr, Reg.PORT_GRP_STATUS.addr]
  omega

section
variable {d e : Dev} (he : e = d.pllsLocked)
include he

theorem Dev.within_pllsLocked : d.Within e [.regs] := he ▸ (Dev.Within.refl d _).setFlag.setFlag.setFlag

theorem Dev.flag_pllsLocked : e.flag Reg.PWCK_CLK_STATUS.PLL_LOCK = true := by
  have hne (d : Dev) (g : Nat) : (d.setFlag (Reg.PORT_GRP_STATUS.TX_PLL_LOCK g) true).flag Reg.PWCK_CLK_STATUS.PLL_LOCK =
      d.flag Reg.PWCK_CLK_STATUS.PLL_LOCK := Dev.flag_wr_ne _ _ _ _ (grpStatus_ne_clkStatus g)
  rw [he, Dev.pllsLocked, hne, hne]
  exact Dev.flag_setFlag_same _ _ _ (by decide) rfl

theorem Dev.reg_avs_pllsLocked : e.reg Reg.PWCK_AVS.addr = d.reg Reg.PWCK_AVS.addr := by
  have hne (d : Dev) (g : Nat) : (d.setFlag (Reg.PORT_GRP_STATUS.TX_PLL_LOCK g) true).reg Reg.PWCK_AVS.addr =
      d.reg Reg.PWCK_AVS.addr := Dev.reg_wr_ne _ _ _ _ (grpStatus_ne_avs g)
  rw [he, Dev.pllsLocked, hne, hne]
  exact Dev.reg_wr_ne _ _ _ _ (by decide)

end

theorem Dev.within_askAll (d : Dev) (l : List Nat) : d.Within (d.askAll l) [.power] :=
  (Dev.Within.refl d _).foldl fun _ _ h => h.requestTokens

/-- Requests wait once made. -/
theorem Dev.waiting_requestTokens (d : Dev) (h v : Nat) {x : TokReq} (hx : x ∈ d.power.waiting) :
    x ∈ (d.requestTokens h v).power.waiting := by
  unfold Dev.requestTokens
  split
  · exact hx
  · exact List.mem_append_left _ hx

theorem Dev.holds_requestTokens (d : Dev) (h v : Nat) : (d.requestTokens h v).power.holds = d.power.holds := by
  unfold Dev.requestTokens
  split <;> rfl

/-- A holder that has no tokens waits for them once it has asked. -/
theorem Dev.waits_requestTokens {d : Dev} (hz : d.power.holds = []) (h v : Nat) :
    ∃ x ∈ (d.requestTokens h v).power.waiting, x.holder = h := by
  have hh : (d.hold_ h).isSome = false := by rw [Dev.hold_, hz]; rfl
  unfold Dev.requestTokens
  split
  · next hc =>
    rw [hh, Bool.or_false] at hc
    obtain ⟨x, hx, he⟩ := List.any_eq_true.mp hc
    exact ⟨x, hx, beq_iff_eq.mp he⟩
  · exact ⟨_, List.mem_append_right _ (List.mem_singleton.mpr rfl), rfl⟩

theorem Dev.waiting_askAll (l : List Nat) (d : Dev) {x : TokReq} (hx : x ∈ d.power.waiting) : x ∈ (d.askAll l).power.waiting := by
  induction l generalizing d with
  | nil => exact hx
  | cons y l ih => exact ih _ (Dev.waiting_requestTokens _ _ _ hx)

theorem Dev.waits_askAll (l : List Nat) (d : Dev) (hz : d.power.holds = []) :
    ∀ h ∈ l, ∃ x ∈ (d.askAll l).power.waiting, x.holder = h := by
  induction l generalizing d with
  | nil => exact fun h hh => absurd hh List.not_mem_nil
  | cons y l ih =>
    refine List.forall_mem_cons.mpr ⟨?_, ih _ ((d.holds_requestTokens _ _).trans hz)⟩
    obtain ⟨x, hx, he⟩ := Dev.waits_requestTokens hz y (holderLevel y)
    exact ⟨x, Dev.waiting_askAll l _ hx, he⟩

theorem romStarts_effect {d e : Dev} (he : e = d.romStarts) :
    e.flag Reg.PWCK_CLK_STATUS.PLL_LOCK = d.flag Reg.PWCK_CLK_STATUS.PLL_LOCK ∧ e.rd Reg.DEV_BOOT_STATUS.PHASE = 1 ∧
      e.rd Reg.PWCK_AVS.VOUT_MV = d.rd Reg.PWCK_AVS.SETPOINT_MV ∧ e.wire = d.wire ++ [.pmbus 0 (d.rd Reg.PWCK_AVS.SETPOINT_MV)] ∧
      d.Within e [.regs, .wire] := by
  have hv : d.rd Reg.PWCK_AVS.SETPOINT_MV < 2 ^ 10 := fget_lt _ _ _
  generalize hx : d.rd Reg.PWCK_AVS.SETPOINT_MV = v at *
  rw [Dev.romStarts, hx] at he
  subst he
  refine ⟨?_, Dev.rd_wr_same _ _ _ (by decide), ?_, rfl, (Dev.Within.refl d _).wr.out.wr⟩
  · exact (Dev.flag_wr_ne _ _ _ _ (by decide)).trans (Dev.flag_wr_ne d Reg.PWCK_AVS.VOUT_MV _ _ (by decide))
  · refine (Dev.rd_wr_ne _ _ _ _ (by decide)).trans ((Dev.rd_wr_same d _ _ (by decide)).trans ?_)
    exact Nat.mod_eq_of_lt hv

theorem pllLockDone_effect {d e : Dev} (hg : d.hold.pwrGood = true) (hp : d.hold.por = false) (hs : d.hold.shutdown = false)
    (hc : d.hold.clocks = false) (he : e = pllLockDone d) : e.hold.live = true ∧ e.flag Reg.PWCK_CLK_STATUS.PLL_LOCK = true ∧
      e.rd Reg.DEV_BOOT_STATUS.PHASE = 1 ∧ e.rd Reg.PWCK_AVS.VOUT_MV = d.rd Reg.PWCK_AVS.SETPOINT_MV ∧
      e.wire = d.wire ++ [.pmbus 0 (d.rd Reg.PWCK_AVS.SETPOINT_MV)] ∧
      (d.power = PowerSt.zero → ∀ h ∈ step2Domains, ∃ x ∈ e.power.waiting, x.holder = h) ∧
      d.Within e [.hold, .regs, .wire, .time, .power] := by
  obtain ⟨w, hw⟩ : ∃ w : Dev, w = { d with hold := { d.hold with clocks := true } } := ⟨_, rfl⟩
  obtain ⟨p, hlock⟩ : ∃ p, p = w.pllsLocked := ⟨_, rfl⟩
  obtain ⟨x, hx⟩ : ∃ x, x = p.baseStarts := ⟨_, rfl⟩
  obtain ⟨y, hy⟩ : ∃ y, y = x.askAll step2Domains := ⟨_, rfl⟩
  rw [pllLockDone_of_ready hg hp hs hc, ← hw, ← hlock, ← hx, ← hy] at he
  have hdw : d.Within w [.hold] := hw ▸ (Dev.Within.refl d _).setHold
  have hpx : p.Within x [.time] := hx ▸ p.within_baseStarts
  have hwx : w.Within x [.regs, .time] := (Dev.within_pllsLocked hlock).mono.trans hpx.mono
  have hxy : x.Within y [.power] := hy ▸ x.within_askAll _
  obtain ⟨hpll, hphase, hvout, hwire, hye⟩ := romStarts_effect he
  have hyx : y.regs = x.regs := hxy .regs (by decide)
  have hxp : x.regs = p.regs := hpx .regs (by decide)
  have hwd : w.regs = d.regs := hdw .regs (by decide)
  have hset : y.rd Reg.PWCK_AVS.SETPOINT_MV = d.rd Reg.PWCK_AVS.SETPOINT_MV := by
    exact Dev.rd_congr_reg ((Dev.reg_congr (hyx.trans hxp) _).trans ((Dev.reg_avs_pllsLocked hlock).trans (Dev.reg_congr hwd _)))
  have hold : e.hold = w.hold :=
    (hye .hold (by decide)).trans ((hxy .hold (by decide)).trans (hwx .hold (by decide)))
  have hwired : y.wire = d.wire :=
    (hxy .wire (by decide)).trans ((hwx .wire (by decide)).trans (hdw .wire (by decide)))
  have hpower : e.power = y.power := hye .power (by decide)
  have hzero : x.power = d.power := (hwx .power (by decide)).trans (hdw .power (by decide))
  refine ⟨?_, ?_, hphase, hvout.trans hset, ?_, fun hz h hh => ?_, ((hdw.mono.trans hwx.mono).trans hxy.mono).trans hye.mono⟩
  · rw [hold, hw]
    simp [HoldSt.live, hg, hp, hs]
  · exact hpll.trans ((Dev.flag_congr_reg (Dev.reg_congr (hyx.trans hxp) _)).trans (Dev.flag_pllsLocked hlock))
  · rw [hwire, hset, hwired]
  · rw [hpower, hy]
    exact x.waits_askAll _ (by rw [hzero, hz]; rfl) h hh

/-! ### Roles of supervisors (R44 step 5, R330) -/

theorem Dev.regsBut.setPeer {b d : Dev} {l : List Nat} (h : b.regsBut d l) {r : FRef} {v : Bool} (hr : r.addr ∈ l)
    (hi : Reg.HOST_INT_STATUS.addr ∈ l) : b.regsBut (d.setPeer r v) l := h.ite ((h.setFlag hr).irq hi)

theorem Dev.regsBut.peersFollow {b d : Dev} {l : List Nat} (h : b.regsBut d l) (hp : Reg.HOST_PEER_ALIVE.addr ∈ l)
    (hi : Reg.HOST_INT_STATUS.addr ∈ l) : b.regsBut d.peersFollow l := ((h.setPeer hp hi).setPeer hp hi).setPeer hp hi

theorem Dev.regsBut.setRole {b d : Dev} {l : List Nat} (h : b.regsBut d l) {s r : Nat} (hc : Reg.SUPV_CORE_STATUS.addr s ∈ l)
    (ha : Reg.SUPV_PAIR_STATUS.addr ∈ l) (hp : Reg.HOST_PEER_ALIVE.addr ∈ l) (hi : Reg.HOST_INT_STATUS.addr ∈ l) :
    b.regsBut (d.setRole s r) l := by
  have hw := h.wr (r := Reg.SUPV_CORE_STATUS.ROLE s) (v := r) hc
  have hs := Dev.regsBut.ite (c := r = 2) hw (hw.setFlag (r := Reg.SUPV_CORE_STATUS.STANDBY_READY s) (v := false) hc)
  exact (Dev.regsBut.ite (c := r = 1) (hs.wr (r := Reg.SUPV_PAIR_STATUS.ACTIVE_SUP) (v := s) ha) hs).peersFollow hp hi

theorem coreStatus_notMem {s : Nat} (hs : s < 2) :
    Reg.SUPV_CORE_STATUS.addr s ∉ [Reg.HOST_PEER_ALIVE.addr, Reg.HOST_INT_STATUS.addr] := by
  simp only [Reg.SUPV_CORE_STATUS.addr, Reg.HOST_PEER_ALIVE.addr, Reg.HOST_INT_STATUS.addr, List.mem_cons, List.not_mem_nil,
    or_false, not_or]
  omega

theorem Dev.role_setRole (d : Dev) {s r : Nat} (hs : s < 2) (hr : r < 8) : (d.setRole s r).role s = r := by
  have hpair : Reg.SUPV_CORE_STATUS.addr s ≠ Reg.SUPV_PAIR_STATUS.addr := by
    simp only [Reg.SUPV_CORE_STATUS.addr, Reg.SUPV_PAIR_STATUS.addr]
    omega
  have hrole : (d.wr (Reg.SUPV_CORE_STATUS.ROLE s) r).role s = r :=
    (Dev.rd_wr_same _ _ _ (by simp [Reg.SUPV_CORE_STATUS.ROLE])).trans (Nat.mod_eq_of_lt hr)
  have hready (d : Dev) : (d.setFlag (Reg.SUPV_CORE_STATUS.STANDBY_READY s) false).role s = d.role s :=
    Dev.rd_wr_disjoint _ (Reg.SUPV_CORE_STATUS.STANDBY_READY s) (Reg.SUPV_CORE_STATUS.ROLE s) _
      (by simp [Reg.SUPV_CORE_STATUS.STANDBY_READY]) rfl (by simp [Reg.SUPV_CORE_STATUS.STANDBY_READY, Reg.SUPV_CORE_STATUS.ROLE])
  have hactive (d : Dev) : (d.wr Reg.SUPV_PAIR_STATUS.ACTIVE_SUP s).role s = d.role s := Dev.rd_wr_ne _ _ _ _ hpair
  have hpeers (d : Dev) : d.peersFollow.role s = d.role s :=
    ((Dev.regsBut.refl d _).peersFollow (by decide) (by decide)).rd (coreStatus_notMem hs)
  unfold Dev.setRole
  dsimp only
  rw [hpeers]
  split <;> split <;> simp only [hactive, hready, hrole]

theorem Dev.bootSup_lt (d : Dev) : d.bootSup < 2 := by
  unfold Dev.bootSup
  split <;> decide

theorem Dev.Within.shutdownRecord {b d : Dev} {l : List Part} (h : b.Within d l) (hr : .regs ∈ l := by decide)
    (hc : .ctrs ∈ l := by decide) (ho : .ctrOvf ∈ l := by decide) (hs : .supv ∈ l := by decide) : b.Within d.shutdownRecord l :=
  .ite ((h.logFrom hc ho hs).setFlag hr) h

theorem Dev.regsBut_shutdownRecord (d : Dev) : d.regsBut d.shutdownRecord [Reg.SUPV_SHUTDOWN.addr] :=
  .ite (.setFlag (r := Reg.SUPV_SHUTDOWN.VALID) (.logFrom (.refl d _)) List.mem_cons_self) (.refl d _)

/-- The registers that a change of the roles writes. -/
def roleRegs (s : Nat) : List Nat :=
  [Reg.SUPV_CORE_STATUS.addr s, Reg.SUPV_PAIR_STATUS.addr, Reg.HOST_PEER_ALIVE.addr, Reg.HOST_INT_STATUS.addr]

theorem Dev.regsBut_setRole (d : Dev) (s r : Nat) : d.regsBut (d.setRole s r) (roleRegs s) :=
  (Dev.regsBut.refl d _).setRole (by simp [roleRegs]) (by simp [roleRegs]) (by simp [roleRegs]) (by simp [roleRegs])

/-- Heartbeats of both supervisors count from now (R330). -/
def Dev.heartsNow (d : Dev) : Dev :=
  { d with supv := { d.supv with lastHb := tput (tput d.supv.lastHb 0 0 d.now) 0 1 d.now } }

/-- The supervisor that does not run the boot stands by, unless it failed or is disabled. -/
def Dev.otherStands (d : Dev) (b : Nat) : Dev :=
  if d.role b = 3 || d.flag (Reg.SUPV_CORE_STATUS.DISABLED b) then d else d.setRole b 2

theorem Dev.startSups_eq (d : Dev) :
    d.startSups = (((d.heartsNow).otherStands (1 - d.bootSup)).setRole d.bootSup 1).shutdownRecord := rfl

theorem Dev.regsBut_otherStands (d : Dev) (b : Nat) : d.regsBut (d.otherStands b) (roleRegs b) :=
  .ite (.refl d _) (d.regsBut_setRole b 2)

theorem Dev.role_otherStands (d : Dev) {b : Nat} (hb : b < 2) (h3 : d.role b ≠ 3)
    (hd : d.flag (Reg.SUPV_CORE_STATUS.DISABLED b) = false) : (d.otherStands b).role b = 2 := by
  rw [Dev.otherStands, if_neg (by simp [h3, hd])]
  exact d.role_setRole hb (by decide)

/-- The registers that the start of the supervisors writes (R44 step 5). -/
def startRegs : List Nat :=
  [Reg.SUPV_CORE_STATUS.addr 0, Reg.SUPV_CORE_STATUS.addr 1, Reg.SUPV_PAIR_STATUS.addr, Reg.HOST_PEER_ALIVE.addr,
    Reg.HOST_INT_STATUS.addr, Reg.SUPV_SHUTDOWN.addr]

theorem roleRegs_subset {s : Nat} (hs : s < 2) : roleRegs s ⊆ startRegs := by
  interval_cases s <;> decide

theorem startSups_effect {d e : Dev} (he : e = d.startSups) : e.role d.bootSup = 1 ∧
    (d.role (1 - d.bootSup) ≠ 3 → d.flag (Reg.SUPV_CORE_STATUS.DISABLED (1 - d.bootSup)) = false → e.role (1 - d.bootSup) = 2) ∧
    d.regsBut e startRegs ∧ d.Within e [.regs, .ctrs, .ctrOvf, .wire, .supv] := by
  have ha := d.bootSup_lt
  obtain ⟨a, hsup⟩ : ∃ a, a = d.bootSup := ⟨_, rfl⟩
  obtain ⟨x, hx⟩ : ∃ x, x = d.heartsNow := ⟨_, rfl⟩
  obtain ⟨y, hy⟩ : ∃ y, y = x.otherStands (1 - a) := ⟨_, rfl⟩
  obtain ⟨w, hw⟩ : ∃ w, w = y.setRole a 1 := ⟨_, rfl⟩
  rw [Dev.startSups_eq, ← hsup, ← hx, ← hy, ← hw] at he
  rw [← hsup] at ha ⊢
  have hb : 1 - a < 2 := by omega
  have hdx : d.Within x [.regs, .ctrs, .ctrOvf, .wire, .supv] := hx ▸ (Dev.Within.refl d _).setSupv
  have hxr : x.regs = d.regs := by rw [hx]; rfl
  have hxy : x.Within y [.regs, .wire] := hy ▸ .ite (.refl x _) (.setRole (.refl x _))
  have hyw : y.Within w [.regs, .wire] := hw ▸ .setRole (.refl y _)
  have hwe : w.regsBut e [Reg.SUPV_SHUTDOWN.addr] := he ▸ w.regsBut_shutdownRecord
  have hrole : y.regsBut w (roleRegs a) := hw ▸ y.regsBut_setRole a 1
  have hstand : x.regsBut y (roleRegs (1 - a)) := hy ▸ x.regsBut_otherStands _
  have hkeep (s : Nat) (hs : s < 2) : e.role s = w.role s := hwe.rd (by
    interval_cases s <;> decide)
  have hother : w.role (1 - a) = y.role (1 - a) := hrole.rd (by
    interval_cases a <;> decide)
  refine ⟨?_, fun h3 hd => ?_, ?_, he ▸ ((hdx.trans hxy.mono).trans hyw.mono).shutdownRecord⟩
  · rw [hkeep a ha, hw]
    exact y.role_setRole ha (by decide)
  · rw [hkeep _ hb, hother, hy]
    exact x.role_otherStands hb ((Dev.rd_congr_reg (Dev.reg_congr hxr _)).trans_ne h3)
      ((Dev.flag_congr_reg (Dev.reg_congr hxr _)).trans hd)
  · exact ((((Dev.regsBut.refl d _).of_regs hxr).trans (hstand.mono (roleRegs_subset hb))).trans
      (hrole.mono (roleRegs_subset ha))).trans (hwe.mono (by decide))

/-! ### Recovery (R67) -/

/-- The phase and the source that recovery shows. -/
def Dev.recovering (d : Dev) : Dev :=
  (({ d with boot := { d.boot with recovery := true, cand := none } } : Dev).wr Reg.DEV_BOOT_STATUS.PHASE 6).wr
    Reg.DEV_BOOT_STATUS.SOURCE 3

theorem Dev.enterRecovery_eq (d : Dev) : d.enterRecovery = d.recovering.startSups.powerHbm := rfl

theorem Dev.boot_recovering (d : Dev) : d.recovering.boot = { d.boot with recovery := true, cand := none } := by
  simp [Dev.recovering]

theorem Dev.shows_recovering (d : Dev) : d.recovering.phase = 6 ∧ d.recovering.rd Reg.DEV_BOOT_STATUS.SOURCE = 3 := by
  refine ⟨?_, Dev.rd_wr_same _ Reg.DEV_BOOT_STATUS.SOURCE 3 (by decide)⟩
  refine (Dev.rd_wr_disjoint _ Reg.DEV_BOOT_STATUS.SOURCE Reg.DEV_BOOT_STATUS.PHASE 3 (by decide) rfl (by decide)).trans ?_
  exact Dev.rd_wr_same _ Reg.DEV_BOOT_STATUS.PHASE 6 (by decide)

theorem enterRecovery_effect {d e : Dev} (he : e = d.enterRecovery) : e.phase = 6 ∧
    e.boot = { d.boot with recovery := true, cand := none } ∧ e.rd Reg.DEV_BOOT_STATUS.SOURCE = 3 ∧ e.role d.bootSup = 1 ∧
    d.Within e [.regs, .ctrs, .ctrOvf, .wire, .supv, .boot, .power] := by
  obtain ⟨x, hx⟩ : ∃ x, x = d.recovering := ⟨_, rfl⟩
  obtain ⟨y, hy⟩ : ∃ y, y = x.startSups := ⟨_, rfl⟩
  rw [Dev.enterRecovery_eq, ← hx, ← hy] at he
  obtain ⟨hrole, -, hregs, hframe⟩ := startSups_effect hy
  have hpow : y.Within e [.power] := he ▸ ((Dev.Within.refl y _).requestTokens).requestTokens
  have her : e.regs = y.regs := hpow .regs (by decide)
  have hboot : x.boot = { d.boot with recovery := true, cand := none } := by rw [hx, Dev.boot_recovering]
  have heb : e.boot = x.boot := (hpow .boot (by decide)).trans (hframe .boot (by decide))
  have hsup : x.bootSup = d.bootSup := by rw [Dev.bootSup, hboot, Dev.bootSup]
  have hstat : e.reg Reg.DEV_BOOT_STATUS.addr = x.reg Reg.DEV_BOOT_STATUS.addr :=
    (Dev.reg_congr her _).trans (hregs _ (by decide))
  obtain ⟨hphase, hsource⟩ := d.shows_recovering
  rw [← hx] at hphase hsource
  have hxw : d.Within x [.regs, .boot] := hx ▸ ((Dev.Within.refl d _).setBoot).wr.wr
  refine ⟨(Dev.rd_congr_reg hstat).trans hphase, heb.trans hboot, (Dev.rd_congr_reg hstat).trans hsource, ?_,
    (hxw.mono.trans hframe.mono).trans hpow.mono⟩
  rw [← hsup]
  exact (Dev.rd_congr_reg (Dev.reg_congr her _)).trans hrole

/-! ### Discovery (R37, R38) -/

theorem bootOrder_ne_nil {sel : Nat} (h : sel < 4) (h3 : sel ≠ 3) : (bootOrder sel).isEmpty = false := by
  interval_cases sel
  · rfl
  · rfl
  · rfl
  · exact absurd rfl h3

/-- The flash devices that meet the mode are accepted. -/
def Dev.accepted (d : Dev) : Dev :=
  { d with boot := { d.boot with nvm := d.boot.nvm.map fun (n : Nvm) => { n with ok := n.meets (d.rd Reg.DEV_STRAP.NVM_MODE) } } }

/-- The devices accepted are shown, and step 4 begins. -/
def Dev.discovered (d : Dev) : Dev := (d.accepted.showJournal).wr Reg.DEV_BOOT_STATUS.PHASE 2

section
variable {d : Dev} (hp : d.phase = 1) (hr : d.bootRuns = true)

theorem Dev.boot_discovered : d.discovered.boot =
    { d.boot with nvm := d.boot.nvm.map fun (n : Nvm) => { n with ok := n.meets (d.rd Reg.DEV_STRAP.NVM_MODE) } } := by
  simp [Dev.discovered, Dev.boot_showJournal, Dev.accepted]

theorem Dev.within_discovered : d.Within d.discovered [.regs, .boot] := ((Dev.Within.refl d _).setBoot.showJournal).wr

theorem Dev.regsBut_discovered : d.regsBut d.discovered [Reg.DEV_BOOT_STATUS.addr, Reg.DEV_AMD_STATUS.addr] :=
  .wr (r := Reg.DEV_BOOT_STATUS.PHASE) (.showJournal (d := d.accepted) (.of_regs (.refl d _) rfl) (by decide)) (by decide)

include hp hr

theorem nvmDiscovery_eq : nvmDiscovery d =
    if d.discovered.unprovisioned || (bootOrder (d.discovered.rd Reg.DEV_STRAP.BOOT_SEL)).isEmpty then d.discovered.enterRecovery
    else d.discovered := by
  rw [nvmDiscovery, if_pos (by simp [hp, hr])]
  rfl

end

theorem Dev.unprovisioned_congr {d e : Dev} (h : e.boot.fuses = d.boot.fuses) : e.unprovisioned = d.unprovisioned := by
  rw [Dev.unprovisioned, h, Dev.unprovisioned]

theorem Dev.bootSup_congr {d e : Dev} (h : e.boot.bootOnB = d.boot.bootOnB) : e.bootSup = d.bootSup := by
  rw [Dev.bootSup, h, Dev.bootSup]

theorem nvm_nvmDiscovery {d e : Dev} (hp : d.phase = 1) (hr : d.bootRuns = true) (he : e = nvmDiscovery d) :
    e.boot.nvm = d.boot.nvm.map fun (n : Nvm) => { n with ok := n.meets (d.rd Reg.DEV_STRAP.NVM_MODE) } := by
  rw [nvmDiscovery_eq hp hr] at he
  split at he
  · obtain ⟨-, hboot, -⟩ := enterRecovery_effect he
    rw [hboot, Dev.boot_discovered]
  · rw [he, Dev.boot_discovered]

/-- With an image to try discovery goes on to step 4. -/
theorem nvmDiscovery_goesOn {d e : Dev} (hp : d.phase = 1) (hr : d.bootRuns = true) (hu : d.unprovisioned = false)
    (h3 : d.rd Reg.DEV_STRAP.BOOT_SEL ≠ 3) (he : e = nvmDiscovery d) : e.phase = 2 ∧
      e.boot.recovery = d.boot.recovery ∧ d.regsBut e [Reg.DEV_BOOT_STATUS.addr, Reg.DEV_AMD_STATUS.addr] ∧
        d.Within e [.regs, .boot] := by
  have hsel : d.discovered.rd Reg.DEV_STRAP.BOOT_SEL = d.rd Reg.DEV_STRAP.BOOT_SEL := Dev.regsBut_discovered.rd (by decide)
  have hprov : d.discovered.unprovisioned = d.unprovisioned := Dev.unprovisioned_congr (by rw [Dev.boot_discovered])
  have hlt : d.rd Reg.DEV_STRAP.BOOT_SEL < 4 := fget_lt _ _ _
  rw [nvmDiscovery_eq hp hr, hprov, hu, hsel, bootOrder_ne_nil hlt h3, if_neg (by decide)] at he
  rw [he, Dev.boot_discovered]
  exact ⟨Dev.rd_wr_same _ Reg.DEV_BOOT_STATUS.PHASE 2 (by decide), rfl, Dev.regsBut_discovered, Dev.within_discovered⟩

/-- An unprovisioned device enters recovery. -/
theorem nvmDiscovery_recovers {d e : Dev} (hp : d.phase = 1) (hr : d.bootRuns = true) (hu : d.unprovisioned = true)
    (he : e = nvmDiscovery d) : e.phase = 6 ∧
      e.boot.recovery = true ∧ e.rd Reg.DEV_BOOT_STATUS.SOURCE = 3 ∧ e.role d.bootSup = 1 ∧
      d.Within e [.regs, .ctrs, .ctrOvf, .wire, .supv, .boot, .power] := by
  have hprov : d.discovered.unprovisioned = d.unprovisioned := Dev.unprovisioned_congr (by rw [Dev.boot_discovered])
  have hsup : d.discovered.bootSup = d.bootSup := Dev.bootSup_congr (by rw [Dev.boot_discovered])
  rw [nvmDiscovery_eq hp hr, hprov, hu, Bool.true_or, if_pos rfl] at he
  obtain ⟨hphase, hboot, hsource, hrole, hframe⟩ := enterRecovery_effect he
  rw [hboot]
  exact ⟨hphase, rfl, hsource, hsup ▸ hrole, Dev.within_discovered.mono.trans hframe⟩

/-! ### Header (R44 step 4, R55) -/

section
variable {d e : Dev} (hp : d.phase = 2) (hc : d.boot.cand = none) (hr : d.bootRuns = true)
include hp hc hr

theorem headerCheck_none (hl : ∀ x ∈ bootOrder (d.rd Reg.DEV_STRAP.BOOT_SEL), x ∈ d.boot.tried) :
    headerCheck d = d.enterRecovery := by
  have hf : (bootOrder (d.rd Reg.DEV_STRAP.BOOT_SEL)).find? (fun nv => !d.boot.tried.contains nv) = none :=
    List.find?_eq_none.mpr fun x hx => by simp [hl x hx]
  rw [headerCheck, if_pos (by simp [hp, hc, hr]), hf]

/-- The result code of a candidate's header (R55). -/
def Dev.candCode (d : Dev) (nv : Nat) : Nat :=
  if (d.nvm nv).ok then headerCode d.boot.fuses (imageRegion (d.nvm nv).capacity) (d.nvm nv).image else 0x10

/-- The load of an image begins at its first section. -/
def Dev.newLoad (d : Dev) (nv : Nat) : Load :=
  { nv := nv, hdr := imgHeader (d.nvm nv).image, sects := imgSections (d.nvm nv).image (imgHeader (d.nvm nv).image), cur := 0,
    pos := 0, fwHash := [] }

theorem headerCheck_some {nv : Nat}
    (hf : (bootOrder (d.rd Reg.DEV_STRAP.BOOT_SEL)).find? (fun nv => !d.boot.tried.contains nv) = some nv) :
    headerCheck d = if d.candCode nv ≠ 1 then d.failCandidate nv (d.candCode nv)
      else (d.setCand (d.newLoad nv)).wr Reg.DEV_BOOT_STATUS.PHASE 3 := by
  rw [headerCheck, if_pos (by simp [hp, hc, hr]), hf]
  rfl

end

theorem candTaken_effect {d e : Dev} {l : Load} (he : e = (d.setCand l).wr Reg.DEV_BOOT_STATUS.PHASE 3) :
    e.phase = 3 ∧ e.boot.cand = some l ∧ d.regsBut e [Reg.DEV_BOOT_STATUS.addr] ∧ d.Within e [.regs, .boot] := by
  obtain ⟨x, hx⟩ : ∃ x, x = d.setCand l := ⟨_, rfl⟩
  have hboot : x.boot.cand = some l := by rw [hx]; rfl
  have hxr : x.regs = d.regs := by rw [hx]; rfl
  have hxw : d.Within x [.regs, .boot] := hx ▸ (Dev.Within.refl d _).setBoot
  rw [← hx] at he
  subst he
  exact ⟨Dev.rd_wr_same _ Reg.DEV_BOOT_STATUS.PHASE 3 (by decide), by simpa using hboot,
    .wr (r := Reg.DEV_BOOT_STATUS.PHASE) (.of_regs (.refl d _) hxr) List.mem_cons_self, hxw.wr⟩

/-! ### Sections (R44 step 5, R49, R55) -/

theorem firmwareLoad_none {d : Dev} (h : d.loading = none) : firmwareLoad d = d := by rw [firmwareLoad, h]

theorem sectionCheck_none {d : Dev} (h : d.loading = none) : sectionCheck d = d := by rw [sectionCheck, h]

section
variable {d : Dev} {l : Load} {s : Section} (h : d.loading = some (l, s))
include h

theorem firmwareLoad_other (hc : l.cur ≠ 0) : firmwareLoad d = d := by
  rw [firmwareLoad, h]
  exact if_pos hc

theorem firmwareLoad_badHash (hc : l.cur = 0) (hh : sectionHashOk (d.nvm l.nv).image s = false) :
    firmwareLoad d = d.failCandidate l.nv 0x17 := by
  rw [firmwareLoad, h]
  dsimp only
  rw [if_neg (by simp [hc]), if_pos (by simp [hh])]

theorem firmwareLoad_badSignature (hc : l.cur = 0) (hh : sectionHashOk (d.nvm l.nv).image s = true)
    (hf : firmwareOk (sectionBytes (d.nvm l.nv).image s) = false) : firmwareLoad d = d.failCandidate l.nv 0x18 := by
  rw [firmwareLoad, h]
  dsimp only
  rw [if_neg (by simp [hc]), if_neg (by simp [hh]), if_pos (by simp [hf])]

theorem firmwareLoad_good (hc : l.cur = 0) (hh : sectionHashOk (d.nvm l.nv).image s = true)
    (hf : firmwareOk (sectionBytes (d.nvm l.nv).image s) = true) (hs : d.skips s = false) (hl : 1 < l.sects.length) :
    firmwareLoad d = d.startSups.setCand { l with cur := 1, pos := 0, fwHash := s.hash } := by
  rw [firmwareLoad, h]
  dsimp only
  rw [if_neg (by simp [hc]), if_neg (by simp [hh]), if_neg (by simp [hf]), hs, if_neg (by decide), Dev.nextSection,
    if_pos (by simpa [hc] using hl)]
  simp [hc]

theorem sectionCheck_firmware (hc : l.cur = 0) : sectionCheck d = d := by
  rw [sectionCheck, h]
  exact if_pos hc

theorem sectionCheck_badHash (hc : l.cur ≠ 0) (hh : sectionHashOk (d.nvm l.nv).image s = false) :
    sectionCheck d = d.failCandidate l.nv 0x17 := by
  rw [sectionCheck, h]
  dsimp only
  rw [if_neg hc, if_pos (by simp [hh])]

theorem sectionCheck_done (hc : l.cur ≠ 0) (hh : sectionHashOk (d.nvm l.nv).image s = true)
    (hp : (sectionBytes (d.nvm l.nv).image s).length ≤ l.pos) (hl : l.cur + 1 < l.sects.length) :
    sectionCheck d = d.setCand { l with cur := l.cur + 1, pos := 0 } := by
  rw [sectionCheck, h]
  dsimp only
  rw [if_neg hc, if_neg (by simp [hh]), List.drop_eq_nil_of_le hp, if_pos (by simp), Dev.nextSection, if_pos hl]

end

theorem firmwareStarts_effect {d e : Dev} {l : Load} (he : e = d.startSups.setCand l) : e.role d.bootSup = 1 ∧
    (d.role (1 - d.bootSup) ≠ 3 → d.flag (Reg.SUPV_CORE_STATUS.DISABLED (1 - d.bootSup)) = false → e.role (1 - d.bootSup) = 2) ∧
    e.boot.cand = some l ∧ d.Within e [.regs, .ctrs, .ctrOvf, .wire, .supv, .boot] := by
  obtain ⟨x, hx⟩ : ∃ x, x = d.startSups := ⟨_, rfl⟩
  rw [← hx] at he
  obtain ⟨hrole, hother, -, hframe⟩ := startSups_effect hx
  have her : e.regs = x.regs := by rw [he]; rfl
  have hrd (s : Nat) : e.role s = x.role s := Dev.rd_congr_reg (Dev.reg_congr her _)
  have hcand : e.boot.cand = some l := by rw [he]; rfl
  rw [hrd, hrd]
  exact ⟨hrole, hother, hcand, he ▸ hframe.mono.setBoot⟩

/-! ### HBM training (R44 steps 6 and 7, R242) -/

/-- The free list of a Vat's half is threaded, and its blocks are shown free. -/
def Dev.threadHalf (d : Dev) (v s : Nat) : Dev := (d.setVatHalf v s FreeList.zero).wr (Reg.BUFF_VAT_FREE.FREE v s) (d.vatBlocks v)

/-- With the first stack the privileged Vats have their blocks. -/
def Dev.privThreaded (d : Dev) : Dev :=
  (({ d with vat := { d.vat with sealP := Priv.zero, supP := Priv.zero } } : Dev).wr Reg.BUFF_PRIV_FREE.SEAL_FREE 16384).wr
    Reg.BUFF_PRIV_FREE.SUP_FREE 32768

theorem Dev.stackUp_eq (d : Dev) (s : Nat) : d.stackUp s =
    let e := (((d.setFlag (Reg.BUFF_HBM_STATUS.TRAINED s) true).threadHalf 0 s).threadHalf 1 s).threadHalf 2 s
    if !d.hbmUp 0 && !d.hbmUp 1 then e.privThreaded else e := rfl

theorem Dev.vatBlocks_congr {d e : Dev} (h : e.reg Reg.BUFF_VAT_CFG.addr = d.reg Reg.BUFF_VAT_CFG.addr) (v : Nat) :
    e.vatBlocks v = d.vatBlocks v := by
  unfold Dev.vatBlocks Dev.vatRegion
  rw [Dev.rd_congr_reg (r := Reg.BUFF_VAT_CFG.S_SIZE) h, Dev.rd_congr_reg (r := Reg.BUFF_VAT_CFG.M_SIZE) h]

theorem vatFree_inj {u v s : Nat} (h : Reg.BUFF_VAT_FREE.addr u s = Reg.BUFF_VAT_FREE.addr v s) : u = v := by
  simp only [Reg.BUFF_VAT_FREE.addr] at h
  omega

section
variable (d : Dev) (v s : Nat)

theorem Dev.within_threadHalf : d.Within (d.threadHalf v s) [.regs, .vat] := (Dev.Within.refl d _).setVatHalf.wr

theorem Dev.regsBut_threadHalf : d.regsBut (d.threadHalf v s) [Reg.BUFF_VAT_FREE.addr v s] :=
  .wr (r := Reg.BUFF_VAT_FREE.FREE v s) (d := d.setVatHalf v s FreeList.zero) (.of_regs (.refl d _) rfl) List.mem_cons_self

theorem Dev.free_threadHalf : (d.threadHalf v s).rd (Reg.BUFF_VAT_FREE.FREE v s) =
    d.vatBlocks v % 2 ^ (Reg.BUFF_VAT_FREE.FREE v s).width :=
  Dev.rd_wr_same _ (Reg.BUFF_VAT_FREE.FREE v s) _ (by simp [Reg.BUFF_VAT_FREE.FREE])

theorem Dev.within_privThreaded : d.Within d.privThreaded [.regs, .vat] := ((Dev.Within.refl d _).setVat.wr).wr

theorem Dev.regsBut_privThreaded : d.regsBut d.privThreaded [Reg.BUFF_PRIV_FREE.addr] :=
  .wr (r := Reg.BUFF_PRIV_FREE.SUP_FREE) (.wr (r := Reg.BUFF_PRIV_FREE.SEAL_FREE)
    (d := { d with vat := { d.vat with sealP := Priv.zero, supP := Priv.zero } }) (.of_regs (.refl d _) rfl) List.mem_cons_self)
    List.mem_cons_self

end

theorem vatFree_notMem {v s : Nat} (hs : s < 2) (hv : v < 3) :
    Reg.BUFF_VAT_FREE.addr v s ∉ [Reg.BUFF_HBM_STATUS.addr s, Reg.BUFF_PRIV_FREE.addr, Reg.BUFF_VAT_CFG.addr] := by
  interval_cases s <;> interval_cases v <;> decide

/-- A stack whose training ends well. -/
theorem stackUp_effect {d e : Dev} {s : Nat} (hs : s < 2) (he : e = d.stackUp s) :
    e.flag (Reg.BUFF_HBM_STATUS.TRAINED s) = true ∧
      (∀ v, v < 3 → e.rd (Reg.BUFF_VAT_FREE.FREE v s) = d.vatBlocks v % 2 ^ (Reg.BUFF_VAT_FREE.FREE v s).width) ∧
      d.Within e [.regs, .vat] := by
  obtain ⟨w, hw⟩ : ∃ w, w = d.setFlag (Reg.BUFF_HBM_STATUS.TRAINED s) true := ⟨_, rfl⟩
  obtain ⟨x, hx⟩ : ∃ x, x = w.threadHalf 0 s := ⟨_, rfl⟩
  obtain ⟨y, hy⟩ : ∃ y, y = x.threadHalf 1 s := ⟨_, rfl⟩
  obtain ⟨z, hz⟩ : ∃ z, z = y.threadHalf 2 s := ⟨_, rfl⟩
  rw [Dev.stackUp_eq, ← hw, ← hx, ← hy, ← hz] at he
  have hdw : d.regsBut w [Reg.BUFF_HBM_STATUS.addr s] :=
    hw ▸ .setFlag (r := Reg.BUFF_HBM_STATUS.TRAINED s) (.refl d _) List.mem_cons_self
  have hwx : w.regsBut x [Reg.BUFF_VAT_FREE.addr 0 s] := hx ▸ w.regsBut_threadHalf 0 s
  have hxy : x.regsBut y [Reg.BUFF_VAT_FREE.addr 1 s] := hy ▸ x.regsBut_threadHalf 1 s
  have hyz : y.regsBut z [Reg.BUFF_VAT_FREE.addr 2 s] := hz ▸ y.regsBut_threadHalf 2 s
  have hze : z.regsBut e [Reg.BUFF_PRIV_FREE.addr] := he ▸ .ite z.regsBut_privThreaded (.refl z _)
  have hset : w.flag (Reg.BUFF_HBM_STATUS.TRAINED s) = true :=
    hw ▸ Dev.flag_setFlag_same _ _ _ (by simp [Reg.BUFF_HBM_STATUS.TRAINED]) rfl
  have hstat (v : Nat) (hv : v < 3) : Reg.BUFF_HBM_STATUS.addr s ≠ Reg.BUFF_VAT_FREE.addr v s := fun h =>
    vatFree_notMem hs hv (by simp [h])
  have hcfg (v : Nat) (hv : v < 3) : Reg.BUFF_VAT_CFG.addr ≠ Reg.BUFF_VAT_FREE.addr v s := fun h =>
    vatFree_notMem hs hv (by simp [h])
  have hpriv (v : Nat) (hv : v < 3) : Reg.BUFF_VAT_FREE.addr v s ∉ [Reg.BUFF_PRIV_FREE.addr] := fun h =>
    vatFree_notMem hs hv (by simp_all)
  have hne {u v : Nat} (h : u ≠ v) : Reg.BUFF_VAT_FREE.addr u s ∉ [Reg.BUFF_VAT_FREE.addr v s] := fun hm =>
    h (vatFree_inj (List.mem_singleton.mp hm))
  have hcw : w.reg Reg.BUFF_VAT_CFG.addr = d.reg Reg.BUFF_VAT_CFG.addr := hdw _ (by interval_cases s <;> decide)
  have hcx := (hwx _ (by simpa using hcfg 0 (by decide))).trans hcw
  have hcy := (hxy _ (by simpa using hcfg 1 (by decide))).trans hcx
  have hfree : ∀ v, v < 3 → e.rd (Reg.BUFF_VAT_FREE.FREE v s) = z.rd (Reg.BUFF_VAT_FREE.FREE v s) := fun v hv =>
    hze.rd (hpriv v hv)
  refine ⟨?_, fun v hv => (hfree v hv).trans ?_, ?_⟩
  · refine (hze.flag ?_).trans ((hyz.flag ?_).trans ((hxy.flag ?_).trans ((hwx.flag ?_).trans hset)))
    · interval_cases s <;> decide
    · exact fun h => hstat 2 (by decide) (List.mem_singleton.mp h)
    · exact fun h => hstat 1 (by decide) (List.mem_singleton.mp h)
    · exact fun h => hstat 0 (by decide) (List.mem_singleton.mp h)
  · interval_cases v
    · refine (hyz.rd (hne (by decide))).trans ((hxy.rd (hne (by decide))).trans ?_)
      rw [hx, w.free_threadHalf, Dev.vatBlocks_congr hcw]
    · refine (hyz.rd (hne (by decide))).trans ?_
      rw [hy, x.free_threadHalf, Dev.vatBlocks_congr hcx]
    · rw [hz, y.free_threadHalf, Dev.vatBlocks_congr hcy]
  · have hdw' : d.Within w [.regs, .vat] := hw ▸ .setFlag (.refl d _)
    have hwz := ((hx ▸ w.within_threadHalf 0 s : w.Within x _).trans (hy ▸ x.within_threadHalf 1 s : x.Within y _)).trans
      (hz ▸ y.within_threadHalf 2 s : y.Within z _)
    exact (hdw'.trans hwz).trans (he ▸ .ite z.within_privThreaded (.refl z _))

/-- A half of a Vat is lost with its stack. -/
def Dev.loseHalf (d : Dev) (v s : Nat) : Dev :=
  let x := d.auditLost (4 + 2 * v + s) (if d.flag (Reg.BUFF_HBM_STATUS.TRAINED s) then
    d.vatBlocks v - d.rd (Reg.DEV_AUDIT_LOST.LOST (4 + 2 * v + s)) else 0)
  (x.setVatHalf v s FreeList.zero).wr (Reg.BUFF_VAT_FREE.FREE v s) 0

/-- A stack out of service: the halves of its Vats are lost, the alarm is raised, its tokens go back. -/
def Dev.stackLost (d : Dev) (s cause : Nat) : Dev :=
  let x := (d.setFlag (Reg.BUFF_HBM_STATUS.FAILED s) true).wr (Reg.BUFF_HBM_STATUS.CAUSE s) cause
  let x := [0, 1, 2].foldl (fun (d : Dev) v => d.loseHalf v s) x
  let x := (x.alarm 2 1).releaseTokens (78 + s)
  x.log 0x7003 (0x20 + s) (x.regData (Reg.BUFF_HBM_STATUS.addr s) ++ le 1 s)

theorem Dev.failStack_one {d : Dev} {s : Nat} (cause : Nat) (hs : s < 2) (hf : d.flag (Reg.BUFF_HBM_STATUS.FAILED s) = false)
    (hboth : ((d.stackLost s cause).flag (Reg.BUFF_HBM_STATUS.FAILED 0) &&
      (d.stackLost s cause).flag (Reg.BUFF_HBM_STATUS.FAILED 1)) = false) : d.failStack s cause = d.stackLost s cause := by
  rw [Dev.failStack, if_neg (by simp [hf]; omega)]
  exact if_neg (ne_true_of_eq_false hboth)

theorem Dev.Within.loseHalf {b d : Dev} {l : List Part} (h : b.Within d l) {v s : Nat} (hr : .regs ∈ l := by decide)
    (hv : .vat ∈ l := by decide) : b.Within (d.loseHalf v s) l := ((h.auditLost hr).setVatHalf hv).wr hr

theorem Dev.within_stackLost (d : Dev) (s cause : Nat) :
    d.Within (d.stackLost s cause) [.regs, .ctrs, .ctrOvf, .wire, .supv, .power, .vat] :=
  .log (.releaseTokens (.alarm (.foldl (.wr (.setFlag (.refl d _))) fun _ _ h => h.loseHalf)))

/-- The registers beside its status that the loss of a stack writes. -/
def stackLossRegs (s : Nat) : List Nat :=
  (List.range 12).map Reg.DEV_AUDIT_LOST.addr ++ [0, 1, 2].map (Reg.BUFF_VAT_FREE.addr · s)

theorem Dev.regsBut.auditLost {b d : Dev} {l : List Nat} (h : b.regsBut d l) {x n : Nat}
    (hl : ∀ k, k < 12 → Reg.DEV_AUDIT_LOST.addr k ∈ l) : b.regsBut (d.auditLost x n) l := by
  unfold Dev.auditLost
  split
  · next hx => exact h.wr (hl x hx)
  · exact h

theorem Dev.regsBut_loseHalf (d : Dev) {v : Nat} (hv : v < 3) (s : Nat) : d.regsBut (d.loseHalf v s) (stackLossRegs s) := by
  have hl (k : Nat) (hk : k < 12) : Reg.DEV_AUDIT_LOST.addr k ∈ stackLossRegs s :=
    List.mem_append_left _ (List.mem_map_of_mem (List.mem_range.mpr hk))
  have hm : Reg.BUFF_VAT_FREE.addr v s ∈ stackLossRegs s :=
    List.mem_append_right _ (List.mem_map.mpr ⟨v, by interval_cases v <;> decide, rfl⟩)
  obtain ⟨n, hn⟩ : ∃ n, n = if d.flag (Reg.BUFF_HBM_STATUS.TRAINED s) then
    d.vatBlocks v - d.rd (Reg.DEV_AUDIT_LOST.LOST (4 + 2 * v + s)) else 0 := ⟨_, rfl⟩
  obtain ⟨x, hx⟩ : ∃ x, x = d.auditLost (4 + 2 * v + s) n := ⟨_, rfl⟩
  rw [Dev.loseHalf, ← hn, ← hx]
  have hdx : d.regsBut x (stackLossRegs s) := hx ▸ (Dev.regsBut.refl d _).auditLost hl
  exact .wr (r := Reg.BUFF_VAT_FREE.FREE v s) (hdx.of_regs (e := x.setVatHalf v s FreeList.zero) rfl) hm

/-- The registers that a stack's release of its tokens and its alarm write. -/
theorem Dev.regsBut.releaseTokens {b d : Dev} {l : List Nat} (h : b.regsBut d l) {x : Nat} (hl : Reg.PWCK_DOM_STATUS.addr x ∈ l) :
    b.regsBut (d.releaseTokens x) l := by
  unfold Dev.releaseTokens
  dsimp only
  split
  · exact .wr (r := Reg.PWCK_DOM_STATUS.STATE x) (h.of_regs rfl) hl
  · exact h.of_regs rfl

theorem Dev.bitOf_alarm_same (d : Dev) {g k : Nat} (hg : (almField g).lo + (almField g).width ≤ 32)
    (hk : k < (almField g).width) :
    (d.alarm g k).bitOf (almField g) k = true := by
  have hi : (almField g).addr ≠ Reg.HOST_INT_STATUS.addr := by
    rw [almField_addr]
    decide
  unfold Dev.alarm
  split
  · assumption
  · rw [Dev.bitOf_congr_reg (Dev.reg_irq_ne _ _ _ hi), Dev.bitOf_setBitOf _ _ _ _ _ hg hk, if_pos rfl]

/-- A stack whose training fails, while the other has not failed. -/
theorem failStack_effect {d e : Dev} {s : Nat} (hs : s < 2) (hf : d.flag (Reg.BUFF_HBM_STATUS.FAILED s) = false)
    (ho : d.flag (Reg.BUFF_HBM_STATUS.FAILED (1 - s)) = false) (he : e = d.failStack s 1) :
    e.flag (Reg.BUFF_HBM_STATUS.FAILED s) = true ∧ e.rd (Reg.BUFF_HBM_STATUS.CAUSE s) = 1 ∧
      e.bitOf Reg.SUPV_ALM.ALM2_SRC 1 = true ∧ d.Within e [.regs, .ctrs, .ctrOvf, .wire, .supv, .power, .vat] := by
  obtain ⟨v, hv⟩ : ∃ v, v = d.setFlag (Reg.BUFF_HBM_STATUS.FAILED s) true := ⟨_, rfl⟩
  obtain ⟨w, hw⟩ : ∃ w, w = v.wr (Reg.BUFF_HBM_STATUS.CAUSE s) 1 := ⟨_, rfl⟩
  obtain ⟨x, hx⟩ : ∃ x, x = [0, 1, 2].foldl (fun (d : Dev) v => d.loseHalf v s) w := ⟨_, rfl⟩
  obtain ⟨y, hy⟩ : ∃ y, y = x.alarm 2 1 := ⟨_, rfl⟩
  obtain ⟨z, hz⟩ : ∃ z, z = y.releaseTokens (78 + s) := ⟨_, rfl⟩
  obtain ⟨e', he'⟩ : ∃ e', e' = d.stackLost s 1 := ⟨_, rfl⟩
  have hlog : e' = z.log 0x7003 (0x20 + s) (z.regData (Reg.BUFF_HBM_STATUS.addr s) ++ le 1 s) := by
    rw [he', Dev.stackLost, ← hv, ← hw, ← hx, ← hy, ← hz]
  have hdw : d.regsBut w [Reg.BUFF_HBM_STATUS.addr s] := by
    rw [hw, hv]
    exact .wr (r := Reg.BUFF_HBM_STATUS.CAUSE s) (.setFlag (r := Reg.BUFF_HBM_STATUS.FAILED s) (.refl d _) List.mem_cons_self)
      List.mem_cons_self
  have hwx : w.regsBut x (stackLossRegs s) := by
    rw [hx]
    exact ((w.regsBut_loseHalf (by decide) s).trans (Dev.regsBut_loseHalf _ (by decide) s)).trans
      (Dev.regsBut_loseHalf _ (by decide) s)
  have hxy : x.regsBut y [Reg.SUPV_ALM.addr, Reg.HOST_INT_STATUS.addr] :=
    hy ▸ (Dev.regsBut.refl x _).alarm (by decide) (by decide)
  have hyz : y.regsBut z [Reg.PWCK_DOM_STATUS.addr (78 + s)] := hz ▸ (Dev.regsBut.refl y _).releaseTokens List.mem_cons_self
  have hze : z.regsBut e' [] := hlog ▸ (Dev.regsBut.refl z _).log
  have hkeep (t : Nat) (ht : t < 2) : e'.reg (Reg.BUFF_HBM_STATUS.addr t) = w.reg (Reg.BUFF_HBM_STATUS.addr t) := by
    refine (hze _ List.not_mem_nil).trans ((hyz _ ?_).trans ((hxy _ ?_).trans (hwx _ ?_)))
    all_goals interval_cases t <;> interval_cases s <;> decide
  have hfail : w.flag (Reg.BUFF_HBM_STATUS.FAILED s) = true := by
    have hset : v.flag (Reg.BUFF_HBM_STATUS.FAILED s) = true :=
      hv ▸ Dev.flag_setFlag_same d _ _ (by simp [Reg.BUFF_HBM_STATUS.FAILED]) rfl
    have hkeeps : w.rd (Reg.BUFF_HBM_STATUS.FAILED s) = v.rd (Reg.BUFF_HBM_STATUS.FAILED s) :=
      hw ▸ Dev.rd_wr_disjoint v (Reg.BUFF_HBM_STATUS.CAUSE s) (Reg.BUFF_HBM_STATUS.FAILED s) _
        (by simp [Reg.BUFF_HBM_STATUS.CAUSE]) rfl (by simp [Reg.BUFF_HBM_STATUS.CAUSE, Reg.BUFF_HBM_STATUS.FAILED])
    rwa [Dev.flag, hkeeps, ← Dev.flag]
  have hother : e'.flag (Reg.BUFF_HBM_STATUS.FAILED (1 - s)) = false := by
    refine (Dev.flag_congr_reg (hkeep (1 - s) (by omega))).trans ((hdw.flag ?_).trans ho)
    interval_cases s <;> decide
  have hone : e = e' := by
    rw [he, he']
    refine Dev.failStack_one 1 hs hf ?_
    rw [← he']
    interval_cases s
    · exact Bool.and_eq_false_imp.mpr fun _ => hother
    · rw [hother, Bool.false_and]
  rw [hone]
  refine ⟨(Dev.flag_congr_reg (hkeep s hs)).trans hfail, (Dev.rd_congr_reg (hkeep s hs)).trans ?_, ?_,
    he' ▸ d.within_stackLost s 1⟩
  · rw [hw, Dev.rd_wr_same _ _ _ (by simp [Reg.BUFF_HBM_STATUS.CAUSE])]
    rfl
  · refine (Dev.bitOf_congr_reg ((hze _ List.not_mem_nil).trans (hyz _ ?_)) 1).trans ?_
    · interval_cases s <;> decide
    · rw [hy]
      exact x.bitOf_alarm_same (g := 2) (by decide) (by decide)

section
variable {d : Dev} {s : Nat} (hs : s < 2) (hp : d.phase = 4 ∨ d.phase = 6) (hd : s ∉ d.boot.hbmDone)
  (hf : d.flag (Reg.BUFF_HBM_STATUS.FAILED s) = false)
include hs hp hd hf

theorem hbmTrained_eq (ok : Bool) : hbmTrained s ok d =
    if ok then ({ d with boot := { d.boot with hbmDone := d.boot.hbmDone ++ [s] } } : Dev).stackUp s
    else ({ d with boot := { d.boot with hbmDone := d.boot.hbmDone ++ [s] } } : Dev).failStack s 1 := by
  rw [hbmTrained, if_pos (by rcases hp with hp | hp <;> simp [hs, hp, hd])]
  exact if_neg (ne_true_of_eq_false hf)

theorem hbmTrained_good {e : Dev} (he : e = hbmTrained s true d) : e.boot.hbmDone = d.boot.hbmDone ++ [s] ∧
    e.flag (Reg.BUFF_HBM_STATUS.TRAINED s) = true ∧
    (∀ v, v < 3 → e.rd (Reg.BUFF_VAT_FREE.FREE v s) = d.vatBlocks v % 2 ^ (Reg.BUFF_VAT_FREE.FREE v s).width) ∧
    d.Within e [.regs, .boot, .vat] := by
  obtain ⟨x, hx⟩ : ∃ x : Dev, x = { d with boot := { d.boot with hbmDone := d.boot.hbmDone ++ [s] } } := ⟨_, rfl⟩
  rw [hbmTrained_eq hs hp hd hf, if_pos rfl, ← hx] at he
  obtain ⟨hup, hfree, hframe⟩ := stackUp_effect hs he
  have hboot : x.boot.hbmDone = d.boot.hbmDone ++ [s] := by rw [hx]
  have hxr : x.regs = d.regs := by rw [hx]
  have hxw : d.Within x [.regs, .boot, .vat] := hx ▸ (Dev.Within.refl d _).setBoot
  refine ⟨(congrArg BootSt.hbmDone (hframe .boot (by decide))).trans hboot, hup, fun v hv => ?_, hxw.trans hframe.mono⟩
  rw [hfree v hv, Dev.vatBlocks_congr (Dev.reg_congr hxr _)]

theorem hbmTrained_bad {e : Dev} (ho : d.flag (Reg.BUFF_HBM_STATUS.FAILED (1 - s)) = false) (he : e = hbmTrained s false d) :
    e.boot.hbmDone = d.boot.hbmDone ++ [s] ∧ e.flag (Reg.BUFF_HBM_STATUS.FAILED s) = true ∧
      e.rd (Reg.BUFF_HBM_STATUS.CAUSE s) = 1 ∧ e.bitOf Reg.SUPV_ALM.ALM2_SRC 1 = true ∧
      d.Within e [.regs, .ctrs, .ctrOvf, .wire, .supv, .boot, .power, .vat] := by
  obtain ⟨x, hx⟩ : ∃ x : Dev, x = { d with boot := { d.boot with hbmDone := d.boot.hbmDone ++ [s] } } := ⟨_, rfl⟩
  rw [hbmTrained_eq hs hp hd hf, if_neg (by decide), ← hx] at he
  have hxr (a : Nat) : x.reg a = d.reg a := Dev.reg_congr (by rw [hx]) a
  obtain ⟨hfail, hcause, halarm, hframe⟩ :=
    failStack_effect hs ((Dev.flag_congr_reg (hxr _)).trans hf) ((Dev.flag_congr_reg (hxr _)).trans ho) he
  have hboot : x.boot.hbmDone = d.boot.hbmDone ++ [s] := by rw [hx]
  have hxw : d.Within x [.regs, .ctrs, .ctrOvf, .wire, .supv, .boot, .power, .vat] := hx ▸ (Dev.Within.refl d _).setBoot
  exact ⟨(congrArg BootSt.hbmDone (hframe .boot (by decide))).trans hboot, hfail, hcause, halarm, hxw.trans hframe.mono⟩

end

/-! ### Replay of the journals (R61) -/

theorem journalReplay_idle {d : Dev} (h : d.boot.replay = none ∨ d.boot.replay = some [] ∨ d.phase ≠ 4) :
    journalReplay d = d := by
  unfold journalReplay
  split
  · next q rest hq =>
    rcases h with h | h | h
    · rw [h] at hq
      cases hq
    · rw [h] at hq
      cases hq
    · exact if_neg (by simp [h])
  · rfl

/-- The sequence replayed is taken off the list. -/
def Dev.replayTo (d : Dev) (l : List Nat) : Dev := { d with boot := { d.boot with replay := some l } }

/-- The devices whose entries a record of the replay names. -/
def replayMask (v : List (Nat × JEntry × Nat × Option AmdRec)) : Nat := v.foldl (fun m x => m + 2 ^ x.1) 0

section
variable {d : Dev} {s : Nat} {l : List Nat} (hq : d.boot.replay = some (s :: l)) (hp : d.phase = 4) (hr : d.bootRuns = true)
include hq hp hr

theorem journalReplay_bad (hv : ∀ x ∈ d.verdicts s, x.2.2.1 ≠ 0) : journalReplay d =
    (d.replayTo l).skipEntry s (((d.verdicts s).getLast?.map fun x => x.2.2.1).getD 0x01) (replayMask (d.verdicts s)) := by
  have hf : (d.verdicts s).find? (fun x => x.2.2.1 == 0) = none := List.find?_eq_none.mpr fun x hx => by simpa using hv x hx
  rw [journalReplay, hq]
  dsimp only
  rw [if_pos (by simp [hp, hr]), hf]
  rfl

section
variable {nv : Nat} {x : JEntry} {a : AmdRec} (hf : (d.verdicts s).find? (fun y => y.2.2.1 == 0) = some (nv, x, 0, some a))
include hf

theorem journalReplay_good : journalReplay d =
    if (d.verdicts s).any fun x => x.2.1.committed == 0 then (d.replayTo l).replayCommitted s (replayMask (d.verdicts s)) a
    else if (d.verdicts s).any fun x => x.2.1.abandoned == 0 then d.replayTo l
    else { d.replayTo l with boot := { (d.replayTo l).boot with
      amds := (d.replayTo l).boot.amds ++ [({ seq := s, bytes := x.bytes, chan := 255, tag := 0, phase := .waiting } : Amd)] } } := by
  rw [journalReplay, hq]
  dsimp only
  rw [if_pos (by simp [hp, hr]), hf]
  rfl

theorem journalReplay_abandoned (hc : ∀ y ∈ d.verdicts s, y.2.1.committed ≠ 0) (ha : ∃ y ∈ d.verdicts s, y.2.1.abandoned = 0) :
    journalReplay d = d.replayTo l := by
  obtain ⟨y, hy, hya⟩ := ha
  have hany : ((d.verdicts s).any fun x => x.2.1.abandoned == 0) = true := List.any_eq_true.mpr ⟨y, hy, beq_iff_eq.mpr hya⟩
  rw [journalReplay_good hq hp hr hf, if_neg, if_pos hany]
  simpa using fun u v w z h => hc (u, v, w, z) h

theorem journalReplay_waiting (hc : ∀ y ∈ d.verdicts s, y.2.1.committed ≠ 0) (ha : ∀ y ∈ d.verdicts s, y.2.1.abandoned ≠ 0) :
    journalReplay d = { d with boot := { d.boot with
      replay := some l,
      amds := d.boot.amds ++ [({ seq := s, bytes := x.bytes, chan := 255, tag := 0, phase := .waiting } : Amd)] } } := by
  rw [journalReplay_good hq hp hr hf, if_neg, if_neg]
  · rfl
  · simpa using fun u v w z h => ha (u, v, w, z) h
  · simpa using fun u v w z h => hc (u, v, w, z) h

theorem journalReplay_committed (hc : ∃ y ∈ d.verdicts s, y.2.1.committed = 0) :
    journalReplay d = (d.replayTo l).replayCommitted s (replayMask (d.verdicts s)) a := by
  obtain ⟨y, hy, hyc⟩ := hc
  have hany : ((d.verdicts s).any fun x => x.2.1.committed == 0) = true := List.any_eq_true.mpr ⟨y, hy, beq_iff_eq.mpr hyc⟩
  rw [journalReplay_good hq hp hr hf, if_pos hany]

end
end

/-- A sequence that no journal holds rightly is recorded and passed over. -/
theorem replaySkipped_effect {d e : Dev} {l : List Nat} {s c m : Nat} (he : e = (d.replayTo l).skipEntry s c m) :
    e.boot = { d.boot with replay := some l } ∧
      (d.supv.logQ.length < 64 → e.supv.logQ.length = d.supv.logQ.length + 1) ∧ d.Within e [.ctrs, .ctrOvf, .supv, .boot] := by
  obtain ⟨x, hx⟩ : ∃ x, x = d.replayTo l := ⟨_, rfl⟩
  have hboot : x.boot = { d.boot with replay := some l } := by rw [hx]; rfl
  have hsupv : x.supv = d.supv := by rw [hx]; rfl
  have hxw : d.Within x [.ctrs, .ctrOvf, .supv, .boot] := hx ▸ (Dev.Within.refl d _).setBoot
  rw [← hx] at he
  have hxe : x.Within e [.ctrs, .ctrOvf, .supv] := he ▸ (Dev.Within.refl x _).logFrom
  refine ⟨(hxe .boot (by decide)).trans hboot, fun hlt => ?_, hxw.trans hxe.mono⟩
  rw [he, Dev.skipEntry, Dev.logFrom, Dev.logQ_submit, Dev.queued, hsupv, if_pos hlt, List.length_append]
  rfl

/-! ### The commit of an empty shadow (R61, R63) -/

namespace Dev.Steady
section
variable {z d : Dev} (h : z.Steady d)
include h

theorem setAslot {p s x} : z.Steady (d.setAslot p s x) := h.aside
theorem refNext : z.Steady d.refNext := h.aside
theorem commitStatic : z.Steady d.commitStatic := .aside (.ite (h.foldl fun _ _ h => h.setFlag) h)
theorem setVat {x : VatSt} : z.Steady { d with vat := x } := h.aside
theorem commitIds : z.Steady d.commitIds := h.aside
theorem commitCtxs : z.Steady d.commitCtxs := h.aside

theorem cleanStatic : z.Steady d.cleanStatic := by
  refine h.foldl fun x p h => .setFlag (h.foldl fun e s h => ?_)
  refine .ite h.setAslot (.ite ?_ h)
  dsimp only
  split
  · exact h.setAslot.setAslot
  · exact h.setAslot

end
end Dev.Steady

theorem Dev.commitRegs_empty {d : Dev} (h : d.boot.shadow = []) : d.commitRegs = d := by
  unfold Dev.commitRegs
  simp [shadowRegs, egrsPorts, h]

/-- The tables and checks that every commit moves. -/
def Dev.committed (d : Dev) : Dev := ((d.refNext.commitStatic.commitIds).commitCtxs.checkMirrors).checkSeal

theorem Dev.steady_committed (d : Dev) : d.Steady d.committed :=
  (Dev.Steady.refl d).refNext.commitStatic.commitIds.commitCtxs.checkMirrors.checkSeal

/-- Staged amendments are cleared, and the shadow is empty. -/
def Dev.shadowDone (d : Dev) : Dev :=
  ({ d with boot := { d.boot with
    shadow := [], armed := none, amds := d.boot.amds.filter (fun (a : Amd) => a.phase != AmdPhase.staged),
    cleanup := d.boot.cleanup ++ (d.boot.amds.filter fun (a : Amd) => a.phase == .staged).map fun (a : Amd) => a.seq } } :
      Dev).setFlag Reg.DEV_AMD_STATUS.STAGED false

theorem Dev.commitShadow_empty {d : Dev} (h : d.boot.shadow = []) : d.commitShadow = d.committed.shadowDone := by
  have hn : d.refNext.commitRegs = d.refNext := Dev.commitRegs_empty h
  rw [Dev.commitShadow, h, hn]
  rfl

theorem Dev.boot_markEntry (d : Dev) (nv q : Nat) (f : JEntry → JEntry) :
    ∃ n, (d.markEntry nv q f).boot = { d.boot with nvm := n } := by
  unfold Dev.markEntry
  split
  · exact ⟨_, rfl⟩
  · exact ⟨_, rfl⟩

/-- The entries of a sequence are marked COMMITTED on both devices. -/
def Dev.markCommitted (d : Dev) (q : Nat) : Dev :=
  [0, 1].foldl (fun (d : Dev) nv => d.markEntry nv q fun (e : JEntry) => if e.written = 0 then { e with committed := 0 } else e) d

theorem Dev.boot_foldl_markEntry (q : Nat) (f : JEntry → JEntry) (l : List Nat) (d : Dev) :
    ∃ n, (l.foldl (fun (d : Dev) nv => d.markEntry nv q f) d).boot = { d.boot with nvm := n } := by
  induction l generalizing d with
  | nil => exact ⟨_, rfl⟩
  | cons nv l ih =>
    obtain ⟨m, hm⟩ := d.boot_markEntry nv q f
    obtain ⟨n, hn⟩ := ih (d.markEntry nv q f)
    exact ⟨n, hn.trans (by rw [hm])⟩

theorem Dev.boot_markCommitted (d : Dev) (q : Nat) : ∃ n, (d.markCommitted q).boot = { d.boot with nvm := n } :=
  Dev.boot_foldl_markEntry q _ _ d

/-- The cleanup is done, and `q` is the highest sequence committed if none was higher. -/
def Dev.sequenced (d : Dev) (q : Nat) : Dev :=
  ({ d with boot := { d.boot with cleanup := [], amdSeq := max d.boot.amdSeq q } } : Dev).wr Reg.DEV_AMD_SEQ_LO.SEQ
    (max d.boot.amdSeq q)

theorem Dev.cleanUp_one {d : Dev} {q : Nat} (h : d.boot.cleanup = [q]) :
    d.cleanUp = (d.cleanStatic.markCommitted q).sequenced q := by
  simp only [Dev.cleanUp, h, List.foldl_cons, List.foldl_nil, Dev.sequenced, Dev.markCommitted]

theorem Dev.boot_sequenced (d : Dev) (q : Nat) :
    (d.sequenced q).boot = { d.boot with cleanup := [], amdSeq := max d.boot.amdSeq q } := by simp [Dev.sequenced]

theorem cleanUp_effect {d e : Dev} {q : Nat} (he : e = ({ d with boot := { d.boot with cleanup := [q] } } : Dev).cleanUp) :
    e.boot.replay = d.boot.replay ∧ e.boot.cleanup = [] ∧ e.boot.amdSeq = max d.boot.amdSeq q := by
  obtain ⟨x, hx⟩ : ∃ x : Dev, x = { d with boot := { d.boot with cleanup := [q] } } := ⟨_, rfl⟩
  have hclean : x.cleanStatic.boot = x.boot := (Dev.Steady.refl x).cleanStatic.boot
  obtain ⟨n, hn⟩ := x.cleanStatic.boot_markCommitted q
  rw [← hx, Dev.cleanUp_one (q := q) (by rw [hx])] at he
  rw [he, Dev.boot_sequenced, hn, hclean, hx]
  exact ⟨rfl, rfl, rfl⟩

/-- A committed amendment without records: its sequence is known again. -/
theorem replayCommitted_effect {d e : Dev} {l : List Nat} {s m : Nat} {a : AmdRec} (ha : a.recs = []) (hs : d.boot.shadow = [])
    (he : e = (d.replayTo l).replayCommitted s m a) :
    e.boot.replay = some l ∧ e.boot.cleanup = [] ∧ e.boot.amdSeq = max d.boot.amdSeq s := by
  obtain ⟨x, hx⟩ : ∃ x, x = d.replayTo l := ⟨_, rfl⟩
  have hboot : x.boot = { d.boot with replay := some l } := by rw [hx]; rfl
  have hxs : x.boot.shadow = [] := by rw [hboot]; exact hs
  obtain ⟨y, hy⟩ : ∃ y, y = x.committed.shadowDone := ⟨_, rfl⟩
  have hcom : x.committed.boot = x.boot := x.steady_committed.boot
  have hyr : y.boot.replay = x.boot.replay ∧ y.boot.amdSeq = x.boot.amdSeq := by
    rw [hy, ← hcom]
    exact ⟨by simp [Dev.shadowDone], by simp [Dev.shadowDone]⟩
  have hstage : x.stageAll a.recs = some x := by rw [ha]; rfl
  rw [← hx, Dev.replayCommitted, hstage] at he
  dsimp only at he
  rw [Dev.commitShadow_empty hxs, ← hy] at he
  obtain ⟨hreplay, hclean, hseq⟩ := cleanUp_effect he
  rw [hreplay, hclean, hseq, hyr.1, hyr.2, hboot]
  exact ⟨rfl, rfl, rfl⟩

/-! ### Forwarding release (R44 step 8) -/

theorem forwardingRelease_of_not {d : Dev}
    (h : d.phase ≠ 4 ∨ d.boot.replay ≠ some [] ∨ d.boot.hbmDone.length ≠ 2 ∨ d.bootRuns = false) : forwardingRelease d = d := by
  rw [forwardingRelease, if_neg]
  rcases h with h | h | h | h <;> simp [h]

/-- Release is on record, and every hash seed is latched. -/
def Dev.releasing (d : Dev) : Dev := ({ d with boot := { d.boot with released := true } } : Dev).latch allSeeds

/-- What release does to the fabric, the bases, the stores and the gates, and the checks it makes. -/
theorem Dev.Steady.releaseSteps {z d : Dev} (h : z.Steady d) :
    z.Steady d.fabricRelease.releaseTime.releaseStores.releaseChecks.releaseGates :=
  h.fabricRelease.releaseTime.releaseStores.releaseChecks.releaseGates

theorem forwardingRelease_steady {d : Dev} (hp : d.phase = 4) (hq : d.boot.replay = some []) (hh : d.boot.hbmDone.length = 2)
    (hr : d.bootRuns = true) : ∃ e : Dev, d.releasing.Steady e ∧ forwardingRelease d = e.releasePower.moduleStart.releaseEnd := by
  rw [forwardingRelease, if_pos (by simp [hp, hq, hh, hr])]
  exact ⟨_, (Dev.Steady.refl d.releasing).releaseSteps.setVat, rfl⟩

theorem latched_all (l m : List Nat) : ∀ a ∈ l, a ∈ m ++ l.filter fun a => !m.contains a := by
  intro a ha
  by_cases hm : a ∈ m
  · exact List.mem_append_left _ hm
  · exact List.mem_append_right _ (List.mem_filter.mpr ⟨ha, by simp [hm]⟩)

theorem releaseEnd_effect {z e : Dev} (he : e = z.releaseEnd) : e.phase = 5 ∧ e.flag Reg.DEV_AUDIT_STATUS.RUNNING = true ∧
    e.rd Reg.DEV_BOOT_TIME.RELEASE_US = (z.now - z.boot.t0) / 1000 % 2 ^ 32 ∧ e.supv.refRegs = e.regs ∧ e.supv.refTabs = e.tabs ∧
    e.boot = z.boot ∧ e.hold = z.hold ∧ e.now = z.now := by
  obtain ⟨w, hw⟩ : ∃ w, w = z.setFlag Reg.DEV_AUDIT_STATUS.RUNNING true := ⟨_, rfl⟩
  obtain ⟨x, hx⟩ : ∃ x : Dev, x = { w with audit := { z.audit with checkAt := z.now, comparing := false, terms := [] } } :=
    ⟨_, rfl⟩
  obtain ⟨y, hy⟩ : ∃ y, y = x.wr Reg.DEV_BOOT_TIME.RELEASE_US ((x.now - x.boot.t0) / 1000) := ⟨_, rfl⟩
  obtain ⟨v, hv⟩ : ∃ v, v = y.wr Reg.DEV_BOOT_STATUS.PHASE 5 := ⟨_, rfl⟩
  have hev : e = { v with supv := { v.supv with refRegs := v.regs, refTabs := v.tabs } } := by
    rw [he, hv, hy, hx, hw]
    rfl
  have hzw : z.Within w [.regs] := hw ▸ (Dev.Within.refl z _).setFlag
  have hxy : x.Within y [.regs] := hy ▸ (Dev.Within.refl x _).wr
  have hyv : y.Within v [.regs] := hv ▸ (Dev.Within.refl y _).wr
  have hxw : x.boot = w.boot ∧ x.hold = w.hold ∧ x.now = w.now ∧ x.regs = w.regs := by
    rw [hx]
    exact ⟨rfl, rfl, rfl, rfl⟩
  obtain ⟨hboot, hhold, hnow, hregs⟩ := hxw
  have hev' : e.regs = v.regs ∧ e.boot = v.boot ∧ e.hold = v.hold ∧ e.now = v.now := by
    rw [hev]
    exact ⟨rfl, rfl, rfl, rfl⟩
  obtain ⟨hregs', hboot', hhold', hnow'⟩ := hev'
  have hxz : x.now = z.now ∧ x.boot = z.boot := ⟨hnow.trans (hzw .now (by decide)), hboot.trans (hzw .boot (by decide))⟩
  have hvy : v.regsBut y [Reg.DEV_BOOT_STATUS.addr] := fun a ha => by
    rw [hv]
    exact (Dev.reg_wr_ne _ _ _ _ (List.ne_of_not_mem_cons ha)).symm
  refine ⟨?_, ?_, ?_, by rw [hev], by rw [hev], ?_, ?_, ?_⟩
  · refine (Dev.rd_congr_reg (Dev.reg_congr hregs' _)).trans ?_
    rw [hv]
    exact Dev.rd_wr_same _ _ _ (by decide)
  · refine (Dev.flag_congr_reg (Dev.reg_congr hregs' _)).trans ((hvy.flag (by decide)).symm.trans ?_)
    rw [hy]
    refine (Dev.flag_wr_ne _ _ _ _ (by decide)).trans ((Dev.flag_congr_reg (Dev.reg_congr hregs _)).trans ?_)
    rw [hw]
    exact Dev.flag_setFlag_same _ _ _ (by decide) rfl
  · refine (Dev.rd_congr_reg (Dev.reg_congr hregs' _)).trans ((hvy.rd (by decide)).symm.trans ?_)
    rw [hy, Dev.rd_wr_same _ _ _ (by decide), hxz.1, hxz.2]
    rfl
  · exact hboot'.trans ((hyv .boot (by decide)).trans ((hxy .boot (by decide)).trans hxz.2))
  · exact hhold'.trans ((hyv .hold (by decide)).trans ((hxy .hold (by decide)).trans (hhold.trans (hzw .hold (by decide)))))
  · exact hnow'.trans ((hyv .now (by decide)).trans ((hxy .now (by decide)).trans hxz.1))

theorem forwardingRelease_effect {d e : Dev} (hp : d.phase = 4) (hq : d.boot.replay = some []) (hh : d.boot.hbmDone.length = 2)
    (hr : d.bootRuns = true) (he : e = forwardingRelease d) : e.boot.released = true ∧ e.phase = 5 ∧
      e.flag Reg.DEV_AUDIT_STATUS.RUNNING = true ∧ e.rd Reg.DEV_BOOT_TIME.RELEASE_US = (d.now - d.boot.t0) / 1000 % 2 ^ 32 ∧
      (∀ a ∈ allSeeds, a ∈ e.boot.latched) ∧ e.supv.refRegs = e.regs ∧ e.supv.refTabs = e.tabs ∧ e.boot.nvm = d.boot.nvm ∧
      e.hold = d.hold ∧ e.now = d.now := by
  obtain ⟨y, hy, heq⟩ := forwardingRelease_steady hp hq hh hr
  obtain ⟨z, hzy⟩ : ∃ z, z = y.releasePower.moduleStart := ⟨_, rfl⟩
  have hz : d.releasing.Steady z := hzy ▸ hy.releasePower.moduleStart
  rw [← hzy] at heq
  obtain ⟨hphase, hrun, hus, hregs, htabs, hboot, hhold, hnow⟩ := releaseEnd_effect (he.trans heq)
  have hb : e.boot = d.releasing.boot := hboot.trans hz.boot
  have hn : z.now = d.now := hz.now
  have ht : z.boot.t0 = d.boot.t0 := (congrArg BootSt.t0 hz.boot).trans rfl
  rw [hn, ht] at hus
  rw [hb]
  exact ⟨rfl, hphase, hrun, hus, latched_all _ _, hregs, htabs, rfl, hhold.trans hz.hold, hnow.trans hn⟩

/-! ### Fuses and the restart (R42, R68) -/

theorem fuseAdvance_of_not {d : Dev} {l : Load} (hl : d.boot.loaded = some l)
    (h : d.boot.released = false ∨ l.hdr.flags % 2 = 0 ∨ l.hdr.epoch ≤ d.boot.fuses.epoch) : fuseAdvance d = d := by
  rw [fuseAdvance, hl]
  refine if_neg ?_
  rcases h with h | h | h <;> simp [h]

theorem fuseAdvance_effect {d e : Dev} {l : Load} (hl : d.boot.loaded = some l) (hr : d.boot.released = true)
    (hf : l.hdr.flags % 2 = 1) (hlt : d.boot.fuses.epoch < l.hdr.epoch) (he : e = fuseAdvance d) :
    e.boot.fuses = { d.boot.fuses with epoch := l.hdr.epoch } ∧
      e.rd Reg.DEV_FUSE_COUNT.EPOCH = l.hdr.epoch % 2 ^ Reg.DEV_FUSE_COUNT.EPOCH.width ∧ d.regsBut e [Reg.DEV_FUSE_COUNT.addr] ∧
      d.Within e [.regs, .boot] := by
  obtain ⟨x, hx⟩ : ∃ x : Dev, x = { d with boot := { d.boot with fuses := { d.boot.fuses with epoch := l.hdr.epoch } } } :=
    ⟨_, rfl⟩
  have hboot : x.boot.fuses = { d.boot.fuses with epoch := l.hdr.epoch } := by rw [hx]
  have hxr : x.regs = d.regs := by rw [hx]
  have hxw : d.Within x [.regs, .boot] := hx ▸ (Dev.Within.refl d _).setBoot
  have hex : e = x.wr Reg.DEV_FUSE_COUNT.EPOCH l.hdr.epoch := by
    rw [he, hx, fuseAdvance, hl]
    exact if_pos (by simp [hr, hf, hlt])
  subst hex
  exact ⟨by simpa using hboot, Dev.rd_wr_same _ _ _ (by decide),
    .wr (r := Reg.DEV_FUSE_COUNT.EPOCH) (.of_regs (.refl d _) hxr) List.mem_cons_self, hxw.wr⟩

theorem recoveryRestart_of_not {d : Dev} {t : Nat} (ht : d.boot.restartAt = some t)
    (h : d.boot.recovery = false ∨ d.now < t + 10 ^ 8) : recoveryRestart d = d := by
  rw [recoveryRestart, ht]
  refine if_neg ?_
  rcases h with h | h
  · simp [h]
  · simp only [Bool.and_eq_true, decide_eq_true_eq, not_and, not_le]
    exact fun _ => h

theorem recoveryRestart_effect {d e : Dev} {t : Nat} (ht : d.boot.restartAt = some t) (hr : d.boot.recovery = true)
    (hn : t + 10 ^ 8 ≤ d.now) (he : e = recoveryRestart d) : e.phase = 0 ∧ e.boot.recovery = false ∧
      e.hold = { d.hold with clocks := false } ∧ e.boot.fuses = d.boot.fuses ∧ e.boot.t0 = d.now ∧
      e.rd Reg.DEV_STRAP.BOOT_SEL = d.rd Reg.DEV_STRAP.BOOT_SEL ∧ e.boot.bootCount = (d.boot.bootCount + 1) % 2 ^ 16 := by
  have hsel : d.rd Reg.DEV_STRAP.BOOT_SEL < 4 := fget_lt _ _ _
  have hmode : d.rd Reg.DEV_STRAP.NVM_MODE < 2 := fget_lt _ _ _
  have hex : e = (d.fullReset false { d.hold with clocks := false }).timeZero (d.rd Reg.DEV_STRAP.BOOT_SEL)
      (d.rd Reg.DEV_STRAP.NVM_MODE) := by
    rw [he, recoveryRestart, ht]
    exact if_pos (by simpa [hr] using hn)
  have hfrom := (d.fullReset_resetFrom false { d.hold with clocks := false }).timeZero (d.rd Reg.DEV_STRAP.BOOT_SEL)
    (d.rd Reg.DEV_STRAP.NVM_MODE)
  obtain ⟨hb, -, hp, ht0, hcount, -⟩ := d.fullReset_timeZero false { d.hold with clocks := false } hsel hmode
  rw [← hex] at hfrom hb hp ht0 hcount
  exact ⟨hp, by rw [hfrom.boot]; rfl, hfrom.hold, by rw [hfrom.boot], ht0, hb, hcount⟩

/-! ### The instructions of start-up -/

/-- What an instruction leaves, given what it does. -/
theorem exec_leaves {d : Dev} {q : List Instr} {i : Instr} {x : Dev} (hi : exec i ⟨d, q⟩ = .next ⟨x, q⟩) {P : Dev → Prop}
    (hP : ∀ e, e = x → P e) : ∃ e : Dev, exec i ⟨d, q⟩ = .next ⟨e, q⟩ ∧ P e := ⟨x, hi, hP x rfl⟩

theorem exec_pwrGoodRise (d : Dev) (q : List Instr) (b n : Nat) :
    exec (.pwrGoodRise b n) ⟨d, q⟩ = .next ⟨pwrGoodRise b n d, q⟩ := rfl

theorem exec_porRelease (d : Dev) (q : List Instr) (b n : Nat) :
    exec (.porRelease b n) ⟨d, q⟩ = .next ⟨porRelease b n d, q⟩ := rfl

theorem exec_pllLockDone (d : Dev) (q : List Instr) : exec .pllLockDone ⟨d, q⟩ = .next ⟨pllLockDone d, q⟩ := rfl

section
variable {d : Dev} (hl : d.hold.live = true) (q : List Instr)
include hl

theorem exec_nvmDiscovery : exec .nvmDiscovery ⟨d, q⟩ = .next ⟨nvmDiscovery d, q⟩ := State.on_live hl q nvmDiscovery
theorem exec_imageHeaderCheck : exec .imageHeaderCheck ⟨d, q⟩ = .next ⟨headerCheck d, q⟩ := State.on_live hl q headerCheck
theorem exec_firmwareSectionLoad : exec .firmwareSectionLoad ⟨d, q⟩ = .next ⟨firmwareLoad d, q⟩ := State.on_live hl q firmwareLoad
theorem exec_sectionHashCheck : exec .sectionHashCheck ⟨d, q⟩ = .next ⟨sectionCheck d, q⟩ := State.on_live hl q sectionCheck
theorem exec_journalEntryReplay : exec .journalEntryReplay ⟨d, q⟩ = .next ⟨journalReplay d, q⟩ := State.on_live hl q journalReplay
theorem exec_forwardingRelease : exec .forwardingRelease ⟨d, q⟩ = .next ⟨forwardingRelease d, q⟩ :=
  State.on_live hl q forwardingRelease
theorem exec_fuseAdvance : exec .fuseAdvance ⟨d, q⟩ = .next ⟨fuseAdvance d, q⟩ := State.on_live hl q fuseAdvance
theorem exec_recoveryRestart : exec .recoveryRestart ⟨d, q⟩ = .next ⟨recoveryRestart d, q⟩ := State.on_live hl q recoveryRestart
theorem exec_hbmTrainingDone (s : Nat) (ok : Bool) : exec (.hbmTrainingDone s ok) ⟨d, q⟩ = .next ⟨hbmTrained s ok d, q⟩ :=
  State.on_live hl q (hbmTrained s ok)

end

/-- Both edges that are time zero latch the straps and count the start (R43). -/
theorem exec_timeZero {d : Dev} (q : List Instr) {b n : Nat} {i : Instr}
    (h : (i = .pwrGoodRise b n ∧ d.hold.pwrGood = false ∧ d.hold.por = false) ∨
      (i = .porRelease b n ∧ d.hold.pwrGood = true ∧ d.hold.por = true)) :
    ∃ h : HoldSt, h.pwrGood = true ∧ h.por = false ∧ exec i ⟨d, q⟩ = .next ⟨({ d with hold := h } : Dev).timeZero b n, q⟩ := by
  obtain ⟨rfl, hg, hp⟩ | ⟨rfl, hg, hp⟩ := h
  · refine ⟨{ d.hold with pwrGood := true }, rfl, hp, ?_⟩
    rw [exec_pwrGoodRise, pwrGoodRise, if_neg (by simp [hg])]
    simp [hp]
  · refine ⟨{ d.hold with por := false }, hg, rfl, ?_⟩
    rw [exec_porRelease, porRelease, if_pos hp]
    simp [hg]

end Sys2Proof.Machine

section

open Sys2Proof Sys2Proof.Machine

/-- Settles O6: each step of start-up needs its phase, and leaves what the step's lemma says. -/
theorem startUpRunsItsSteps : Obligations.StartUpRunsItsSteps := by
  unfold Obligations.StartUpRunsItsSteps
  refine ⟨fun d q b n i hb hn _ hi => ?_, fun d q b n => ⟨fun hg => ?_, fun hp => ?_, fun hg hp hs hc => ?_, fun h => ?_⟩,
    fun d q hl hr => ⟨fun hp => ?_, fun hp hc l hord => ⟨fun htried => ?_, fun nv c hf hcode =>
      ⟨fun h1 => ?_, fun h1 h256 => ?_⟩⟩,
      fun l s hload => ⟨fun hc hh => ?_, fun hc hh hf => ?_, fun hc hh hf hs hlen => ?_, fun hc hh => ?_,
        fun hc hh hpos hlen => ?_, fun hc => ?_, fun hc => ?_⟩, fun hnone => ⟨?_, ?_⟩⟩,
    fun d q s hl hs hp hd hf => ⟨?_, fun ho => ?_⟩,
    fun d q hl => ⟨fun h => ?_, fun s l hq hp hr => ⟨fun hv => ?_, fun nv x a hf hc => ⟨fun ha => ?_, fun ha => ?_⟩,
      fun nv x a hf hc hrecs hsh => ?_⟩, fun h => ?_, fun hp hq hh hr => ?_, fun l hload => ⟨fun h => ?_, fun hr hf hlt _ => ?_⟩,
      fun t ht => ⟨fun h => ?_, fun hr hn => ?_⟩⟩⟩
  · obtain ⟨h, hg, hp, hexec⟩ := exec_timeZero q hi
    refine exec_leaves hexec fun e he => ?_
    obtain ⟨hhold, ht, hcount, hsel, hmode, hprov, hregs, hframe⟩ := timeZero_effect hb hn he
    exact ⟨hhold ▸ hg, hhold ▸ hp, ht, hcount, hsel, hmode, hprov, hregs, hframe.eq⟩
  · rw [exec_pwrGoodRise, pwrGoodRise, if_pos hg]
  · rw [exec_porRelease, porRelease, if_neg (by simp [hp])]
  · refine exec_leaves (exec_pllLockDone d q) fun e he => ?_
    obtain ⟨hlive, hlock, hphase, hvout, hwire, hwait, hframe⟩ := pllLockDone_effect hg hp hs hc he
    exact ⟨hlive, hlock, hphase, hvout, hwire, hwait, hframe.eq⟩
  · rw [exec_pllLockDone, pllLockDone_of_not h]
  · refine exec_leaves (exec_nvmDiscovery hl q) fun e he => ⟨nvm_nvmDiscovery hp hr he, fun hu h3 => ?_, fun hu => ?_⟩
    · obtain ⟨hphase, hrec, hregs, hframe⟩ := nvmDiscovery_goesOn hp hr hu h3 he
      exact ⟨hphase, hrec, hregs, hframe.eq⟩
    · obtain ⟨hphase, hrec, hsource, hrole, hframe⟩ := nvmDiscovery_recovers hp hr hu he
      exact ⟨hphase, hrec, hsource, hrole, hframe.eq⟩
  · subst hord
    refine exec_leaves (exec_imageHeaderCheck hl q) fun e he => ?_
    obtain ⟨hphase, hboot, -, hrole, hframe⟩ := enterRecovery_effect (he.trans (headerCheck_none hp hc hr htried))
    exact ⟨hphase, by rw [hboot], hrole, hframe.eq⟩
  · subst hord
    obtain ⟨e, he⟩ : ∃ e, e = headerCheck d := ⟨_, rfl⟩
    have hexec : exec .imageHeaderCheck ⟨d, q⟩ = .next ⟨e, q⟩ := he ▸ exec_imageHeaderCheck hl q
    have hone : d.candCode nv = 1 := hcode.symm.trans h1
    rw [headerCheck_some hp hc hr hf, if_neg (not_not_intro hone)] at he
    obtain ⟨hphase, hcand, hregs, hframe⟩ := candTaken_effect he
    exact ⟨e, d.newLoad nv, hexec, hphase, hcand, rfl, rfl, rfl, rfl, hregs, hframe.eq⟩
  · subst hord
    replace hcode : d.candCode nv = c := hcode.symm
    refine ⟨d.failCandidate nv c, (exec_imageHeaderCheck hl q).trans ?_, d.failCandidate_effect nv h256⟩
    rw [headerCheck_some hp hc hr hf, hcode, if_pos h1]
  · exact ⟨_, (exec_firmwareSectionLoad hl q).trans (by rw [firmwareLoad_badHash hload hc hh]),
      d.failCandidate_effect _ (by decide)⟩
  · exact ⟨_, (exec_firmwareSectionLoad hl q).trans (by rw [firmwareLoad_badSignature hload hc hh hf]),
      d.failCandidate_effect _ (by decide)⟩
  · refine exec_leaves (exec_firmwareSectionLoad hl q) fun e he => ?_
    obtain ⟨hrole, hother, hcand, hframe⟩ := firmwareStarts_effect (he.trans (firmwareLoad_good hload hc hh hf hs hlen))
    exact ⟨hrole, hother, hcand, hframe.eq⟩
  · exact ⟨_, (exec_sectionHashCheck hl q).trans (by rw [sectionCheck_badHash hload hc hh]), d.failCandidate_effect _ (by decide)⟩
  · refine exec_leaves (exec_sectionHashCheck hl q) fun e he => ?_
    rw [sectionCheck_done hload hc hh hpos hlen] at he
    exact ⟨by rw [he]; rfl, by rw [he]; rfl⟩
  · rw [exec_firmwareSectionLoad hl q, firmwareLoad_other hload hc]
  · rw [exec_sectionHashCheck hl q, sectionCheck_firmware hload hc]
  · rw [exec_firmwareSectionLoad hl q, firmwareLoad_none hnone]
  · rw [exec_sectionHashCheck hl q, sectionCheck_none hnone]
  · refine exec_leaves (exec_hbmTrainingDone hl q s true) fun e he => ?_
    obtain ⟨hdone, hup, hfree, hframe⟩ := hbmTrained_good hs hp hd hf he
    exact ⟨hdone, hup, hfree, hframe.eq⟩
  · refine exec_leaves (exec_hbmTrainingDone hl q s false) fun e he => ?_
    obtain ⟨hdone, hfail, hcause, halarm, hframe⟩ := hbmTrained_bad hs hp hd hf ho he
    exact ⟨hdone, hfail, hcause, halarm, hframe.eq⟩
  · rw [exec_journalEntryReplay hl q, journalReplay_idle h]
  · refine exec_leaves (exec_journalEntryReplay hl q) fun e he => ?_
    obtain ⟨hboot, hlog, hframe⟩ := replaySkipped_effect (he.trans (journalReplay_bad hq hp hr hv))
    exact ⟨hboot, hlog, hframe.eq⟩
  · refine exec_leaves (exec_journalEntryReplay hl q) fun e he => ?_
    rw [he, journalReplay_abandoned hq hp hr hf hc ha]
    exact ⟨rfl, rfl⟩
  · refine exec_leaves (exec_journalEntryReplay hl q) fun e he => ?_
    rw [he, journalReplay_waiting hq hp hr hf hc ha]
    exact ⟨rfl, rfl, rfl⟩
  · refine exec_leaves (exec_journalEntryReplay hl q) fun e he => ?_
    exact replayCommitted_effect hrecs hsh (he.trans (journalReplay_committed hq hp hr hf hc))
  · rw [exec_forwardingRelease hl q, forwardingRelease_of_not h]
  · exact exec_leaves (exec_forwardingRelease hl q) fun e he => forwardingRelease_effect hp hq hh hr he
  · rw [exec_fuseAdvance hl q, fuseAdvance_of_not hload h]
  · refine exec_leaves (exec_fuseAdvance hl q) fun e he => ?_
    obtain ⟨hfuses, hepoch, hregs, hframe⟩ := fuseAdvance_effect hload hr hf hlt he
    exact ⟨hfuses, hepoch, hregs, hframe.eq⟩
  · rw [exec_recoveryRestart hl q, recoveryRestart_of_not ht h]
  · exact exec_leaves (exec_recoveryRestart hl q) fun e he => recoveryRestart_effect ht hr hn he

end

/-! PROOFS about lanes and ports (R71, R74 to R91). First the shared rules: the bits of a mask, the records of a port and of its
pauses, and the zone of the port registers. -/

namespace Sys2Proof.Machine

open Sys2Proof

/-! ### Bits of a mask -/

namespace Dev.maskBit

variable {b d e : Dev} {r : FRef} {k : Nat} {v : Bool}

/-- Only the field's value counts, before and after. -/
theorem congr {d' e' : Dev} (h : d.maskBit e r k v) (hd : d'.rd r = d.rd r) (he : e'.rd r = e.rd r) : d'.maskBit e' r k v := by
  unfold Dev.maskBit Dev.bitOf at h ⊢
  rwa [hd, he]

theorem setBitOf (d : Dev) (h : r.lo + r.width ≤ 32) (hk : k < r.width) : d.maskBit (d.setBitOf r k v) r k v :=
  ⟨(d.bitOf_setBitOf _ _ _ _ h hk).trans (if_pos rfl), fun _ hj => (d.bitOf_setBitOf _ _ _ _ h hk).trans (if_neg hj)⟩

/-- A bit that stands as it is to stand. -/
theorem of_same (h : d.bitOf r k = v) : d.maskBit d r k v := ⟨h, fun _ _ => rfl⟩

theorem irq (d : Dev) {s : Nat} (hs : s < 7) : d.maskBit (d.irq s) Reg.HOST_INT_STATUS.SRC s true := by
  unfold Dev.irq
  split
  · next h => exact of_same h
  · have hset := setBitOf (v := true) d (r := Reg.HOST_INT_STATUS.SRC) (by decide) hs
    dsimp only
    split
    · exact hset.congr rfl (Dev.rd_congr_reg (Dev.reg_out _ _ _))
    · exact hset

theorem alarm (d : Dev) {g : Nat} (hk : k < 8) : d.maskBit (d.alarm g k) (almField g) k true := by
  have hw : (almField g).width = 8 ∧ (almField g).lo + 8 ≤ 32 := by
    unfold almField
    split <;> decide
  unfold Dev.alarm
  split
  · next h => exact of_same h
  · refine (setBitOf d (by omega) (by omega)).congr rfl (Dev.rd_congr_reg (Dev.reg_irq_ne _ _ _ ?_))
    rw [almField_addr]
    decide

/-- An alarm bit that was clear raises the interrupt source ALM (R341, R359). -/
theorem alarm_irq (d : Dev) {g : Nat} (h : d.bitOf (almField g) k = false) :
    d.maskBit (d.alarm g k) Reg.HOST_INT_STATUS.SRC 4 true := by
  rw [Dev.alarm, if_neg (by simp [h])]
  refine (irq (d.setBitOf (almField g) k true) (by decide)).congr (Dev.rd_congr_reg (Eq.symm ?_)) rfl
  exact d.reg_setBitOf_ne _ _ _ _ (by rw [almField_addr]; decide)

end Dev.maskBit

theorem Dev.rd_setBitOf_disjoint (d : Dev) (r q : FRef) (k : Nat) (b : Bool) (h : r.lo + r.width ≤ 32) (ha : q.addr = r.addr)
    (hd : q.lo + q.width ≤ r.lo ∨ r.lo + r.width ≤ q.lo) : (d.setBitOf r k b).rd q = d.rd q := d.rd_wr_disjoint r q _ h ha hd

/-- A mask bit written as it stands leaves the device's registers as they were. -/
theorem Dev.reg_setBitOf_self (d : Dev) {r : FRef} {k : Nat} {b : Bool} (hb : d.bitOf r k = b) (h : r.lo + r.width ≤ 32) (a : Nat) :
    (d.setBitOf r k b).reg a = d.reg a := by
  have hv : (if b then d.rd r ||| 2 ^ k else if (d.rd r).testBit k then d.rd r ^^^ 2 ^ k else d.rd r) = d.rd r := by
    subst hb
    by_cases hb : (d.rd r).testBit k = true
    · rw [Dev.bitOf, if_pos hb]
      exact Nat.eq_of_testBit_eq fun i => by
        rw [Nat.testBit_or, Nat.testBit_two_pow]
        by_cases hi : k = i
        · subst hi
          simp [hb]
        · simp [hi]
    · rw [Dev.bitOf, if_neg hb, if_neg hb]
  by_cases ha : a = r.addr
  · subst ha
    rw [Dev.setBitOf, hv, Dev.reg_wr_same, Dev.rd, fput_fget_self _ _ _ h]
  · exact d.reg_setBitOf_ne _ _ _ _ ha

/-! ### Counters -/

theorem Dev.counted_cntBy (d : Dev) (c : Ctr) (i : Nat) {n : Nat} (hn : n ≠ 0) : d.counted (d.cntBy c i n) c i n := by
  rw [Dev.counted, if_neg hn, Dev.ctr_cntBy_same]

theorem Dev.counted_cnt (d : Dev) (c : Ctr) (i : Nat) : d.counted (d.cnt c i) c i 1 := d.counted_cntBy c i one_ne_zero

/-- Only the counter's value counts, before and after. -/
theorem Dev.counted.congr {d e d' e' : Dev} {c : Ctr} {i n : Nat} (h : d.counted e c i n) (hd : d'.ctr c i = d.ctr c i)
    (he : e'.ctr c i = e.ctr c i) : d'.counted e' c i n := by
  unfold Dev.counted at h ⊢
  rwa [hd, he]

theorem Dev.ctr_cntBy_code (d : Dev) {c k : Ctr} (h : k.code ≠ c.code) (i n j : Nat) : (d.cntBy c i n).ctr k j = d.ctr k j :=
  d.ctr_cntBy_ne _ _ _ _ _ (Ctr.key_ne h _ _)

theorem Dev.ctr_cnt_code (d : Dev) {c k : Ctr} (h : k.code ≠ c.code) (i j : Nat) : (d.cnt c i).ctr k j = d.ctr k j :=
  d.ctr_cntBy_code h i 1 j

namespace Dev.ctrsBut

variable {b d e : Dev} {l : List Nat}

theorem trans (h : b.ctrsBut d l) (h' : d.ctrsBut e l) : b.ctrsBut e l := fun k hk =>
  ⟨(h' k hk).1.trans (h k hk).1, (h' k hk).2.trans (h k hk).2⟩

theorem mono {m : List Nat} (h : d.ctrsBut e l) (hl : l ⊆ m) : d.ctrsBut e m := fun k hk => h k fun hx => hk (hl hx)

theorem of_same (hc : e.ctrs = d.ctrs) (ho : e.ctrOvf = d.ctrOvf) (l : List Nat) : d.ctrsBut e l := fun k _ => by
  rw [hc, ho]
  exact ⟨rfl, rfl⟩

theorem cntBy (d : Dev) (c : Ctr) (i n : Nat) : d.ctrsBut (d.cntBy c i n) [c.key i] := fun k hk => by
  rw [List.mem_singleton] at hk
  refine ⟨tget_tput_ne _ _ _ _ _ _ hk, ?_⟩
  dsimp only [Dev.cntBy]
  split
  · rfl
  · exact tget_tput_ne _ _ _ _ _ _ hk

end Dev.ctrsBut

/-! ### The records of a port and of its pauses -/

@[simp] theorem Dev.portSt_setPortSt_same (d : Dev) (n : Nat) (s : PortSt) : (d.setPortSt n s).portSt n = s := tget_tput_same _ _ _ _

theorem Dev.portSt_setPortSt_ne (d : Dev) {n m : Nat} (s : PortSt) (h : m ≠ n) : (d.setPortSt n s).portSt m = d.portSt m :=
  tget_tput_ne _ _ _ _ _ _ h

@[simp] theorem Dev.pauseSt_setPauseSt_same (d : Dev) (n c : Nat) (s : PauseSt) : (d.setPauseSt n c s).pauseSt n c = s :=
  tget_tput_same _ _ _ _

theorem Dev.pauseSt_setPauseSt_ne (d : Dev) {n c m k : Nat} (s : PauseSt) (h : 8 * m + k ≠ 8 * n + c) :
    (d.setPauseSt n c s).pauseSt m k = d.pauseSt m k := tget_tput_ne _ _ _ _ _ _ h

theorem Dev.portSt_congr {d e : Dev} (h : e.ports.port = d.ports.port) (n : Nat) : e.portSt n = d.portSt n := by
  rw [Dev.portSt, h, Dev.portSt]

theorem Dev.pauseSt_congr {d e : Dev} (h : e.ports.pause = d.ports.pause) (n c : Nat) : e.pauseSt n c = d.pauseSt n c := by
  rw [Dev.pauseSt, h, Dev.pauseSt]

theorem Dev.rd_setPauseSt (d : Dev) (n c : Nat) (s : PauseSt) (r : FRef) : (d.setPauseSt n c s).rd r = d.rd r := rfl

namespace Dev.Within
section
variable {b d : Dev} {l : List Part} (h : b.Within d l)
include h

theorem setPorts {x : PortsSt} (hp : .ports ∈ l := by decide) : b.Within { d with ports := x } l :=
  h.trans fun p hx => by
    cases p with
    | ports => exact absurd hp hx
    | _ => rfl

theorem setPath {x : PathSt} (hp : .path ∈ l := by decide) : b.Within { d with path := x } l :=
  h.trans fun p hx => by
    cases p with
    | path => exact absurd hp hx
    | _ => rfl

theorem setLook {x : LookupSt} (hp : .look ∈ l := by decide) : b.Within { d with look := x } l :=
  h.trans fun p hx => by
    cases p with
    | look => exact absurd hp hx
    | _ => rfl

theorem setFab {x : FabricSt} (hp : .fab ∈ l := by decide) : b.Within { d with fab := x } l :=
  h.trans fun p hx => by
    cases p with
    | fab => exact absurd hp hx
    | _ => rfl

theorem setEgr {x : EgressSt} (hp : .egr ∈ l := by decide) : b.Within { d with egr := x } l :=
  h.trans fun p hx => by
    cases p with
    | egr => exact absurd hp hx
    | _ => rfl

theorem setPortSt {n : Nat} {s : PortSt} (hp : .ports ∈ l := by decide) : b.Within (d.setPortSt n s) l := h.setPorts hp
theorem setPauseSt {n c : Nat} {s : PauseSt} (hp : .ports ∈ l := by decide) : b.Within (d.setPauseSt n c s) l := h.setPorts hp
theorem cnt {c i} (hc : .ctrs ∈ l := by decide) (ho : .ctrOvf ∈ l := by decide) : b.Within (d.cnt c i) l := h.cntBy hc ho

end
end Dev.Within

namespace Dev.regsBut
section
variable {b d : Dev} {l : List Nat} (h : b.regsBut d l)
include h

theorem setPortSt {n : Nat} {s : PortSt} : b.regsBut (d.setPortSt n s) l := h
theorem setPauseSt {n c : Nat} {s : PauseSt} : b.regsBut (d.setPauseSt n c s) l := h
theorem out {o : Out} : b.regsBut (d.out o) l := h
theorem cntBy {c : Ctr} {i n : Nat} : b.regsBut (d.cntBy c i n) l := h
theorem cnt {c : Ctr} {i : Nat} : b.regsBut (d.cnt c i) l := h

end
end Dev.regsBut

/-! ### The zone of the port registers (R27) -/

/-- An address of zone PORT up to the block of MG1. -/
def portZone (a : Nat) : Prop := 0x01000000 ≤ a ∧ a < 0x01420000

theorem portBlock_le {n : Nat} (hn : n < 258) : portBlock n ≤ 0x410000 := by
  unfold portBlock
  split <;> omega

theorem portBlock_inj {n m : Nat} (hn : n < 258) (hm : m < 258) (h : portBlock n = portBlock m) : n = m := by
  unfold portBlock at h
  split at h
  · split at h <;> omega
  · split at h <;> omega

theorem portBlock_mod (n : Nat) : portBlock n % 0x1000 = 0 := by
  unfold portBlock
  split <;> omega

theorem pauseStat_ne_raised {n : Nat} (hn : n < 258) :
    Reg.PORT_PAUSE_STAT.addr n ≠ Reg.SUPV_ALM.addr ∧ Reg.PORT_PAUSE_STAT.addr n ≠ Reg.HOST_INT_STATUS.addr := by
  have := portBlock_le hn
  simp only [Reg.PORT_PAUSE_STAT.addr, Reg.SUPV_ALM.addr, Reg.HOST_INT_STATUS.addr]
  omega

/-! ### Fields of PORT_PAUSE_STAT -/

section
variable (d : Dev) (n k : Nat) (b : Bool)

theorem Dev.rd_wdHold_setRxPaused : (d.setBitOf (Reg.PORT_PAUSE_STAT.RX_PAUSED n) k b).rd (Reg.PORT_PAUSE_STAT.WD_HOLD n) =
    d.rd (Reg.PORT_PAUSE_STAT.WD_HOLD n) :=
  d.rd_setBitOf_disjoint _ _ _ _ (show 8 + 8 ≤ 32 by decide) rfl (.inr (Nat.le_refl 16))

theorem Dev.rd_txXoff_setRxPaused : (d.setBitOf (Reg.PORT_PAUSE_STAT.RX_PAUSED n) k b).rd (Reg.PORT_PAUSE_STAT.TX_XOFF n) =
    d.rd (Reg.PORT_PAUSE_STAT.TX_XOFF n) :=
  d.rd_setBitOf_disjoint _ _ _ _ (show 8 + 8 ≤ 32 by decide) rfl (.inl (Nat.le_refl 8))

theorem Dev.rd_rxPaused_setWdHold : (d.setBitOf (Reg.PORT_PAUSE_STAT.WD_HOLD n) k b).rd (Reg.PORT_PAUSE_STAT.RX_PAUSED n) =
    d.rd (Reg.PORT_PAUSE_STAT.RX_PAUSED n) :=
  d.rd_setBitOf_disjoint _ _ _ _ (show 16 + 8 ≤ 32 by decide) rfl (.inl (Nat.le_refl 16))

theorem Dev.rd_txXoff_setWdHold : (d.setBitOf (Reg.PORT_PAUSE_STAT.WD_HOLD n) k b).rd (Reg.PORT_PAUSE_STAT.TX_XOFF n) =
    d.rd (Reg.PORT_PAUSE_STAT.TX_XOFF n) :=
  d.rd_setBitOf_disjoint _ _ _ _ (show 16 + 8 ≤ 32 by decide) rfl (.inl (show 0 + 8 ≤ 16 by decide))

variable {k}

theorem Dev.maskBit_setRxPaused (hk : k < 8) :
    d.maskBit (d.setBitOf (Reg.PORT_PAUSE_STAT.RX_PAUSED n) k b) (Reg.PORT_PAUSE_STAT.RX_PAUSED n) k b :=
  .setBitOf d (show 8 + 8 ≤ 32 by decide) hk

theorem Dev.maskBit_setWdHold (hk : k < 8) :
    d.maskBit (d.setBitOf (Reg.PORT_PAUSE_STAT.WD_HOLD n) k b) (Reg.PORT_PAUSE_STAT.WD_HOLD n) k b :=
  .setBitOf d (show 16 + 8 ≤ 32 by decide) hk

end

/-- A class that goes from received pause to a hold of the watchdog. -/
theorem Dev.maskBit_swapHold (d : Dev) (n : Nat) {k : Nat} (hk : k < 8) :
    let e := (d.setBitOf (Reg.PORT_PAUSE_STAT.RX_PAUSED n) k false).setBitOf (Reg.PORT_PAUSE_STAT.WD_HOLD n) k true
    d.maskBit e (Reg.PORT_PAUSE_STAT.RX_PAUSED n) k false ∧ d.maskBit e (Reg.PORT_PAUSE_STAT.WD_HOLD n) k true :=
  ⟨(d.maskBit_setRxPaused n false hk).congr rfl (Dev.rd_rxPaused_setWdHold _ n k true),
    (Dev.maskBit_setWdHold _ n true hk).congr (d.rd_wdHold_setRxPaused n k false).symm rfl⟩

/-! ### PAUSE_EXPIRY (R82) -/

section
variable {d e : Dev} {n c : Nat}

theorem pauseExpiry_due {t : Nat} (ht : (d.pauseSt n c).rxEnd = some t) (hnow : t ≤ d.now)
    (hw : d.bitOf (Reg.PORT_PAUSE_STAT.WD_HOLD n) c = false) :
    pauseExpiry n c d = (d.setPauseSt n c { d.pauseSt n c with rxEnd := none }).setBitOf (Reg.PORT_PAUSE_STAT.RX_PAUSED n) c false := by
  rw [pauseExpiry, ht]
  simp [hnow, Dev.pauseClass, hw]

theorem pauseExpiry_effect (hc : c < 8) {t : Nat} (ht : (d.pauseSt n c).rxEnd = some t) (hnow : t ≤ d.now)
    (hw : d.bitOf (Reg.PORT_PAUSE_STAT.WD_HOLD n) c = false) (he : e = pauseExpiry n c d) :
    (e.pauseSt n c).rxEnd = none ∧ d.maskBit e (Reg.PORT_PAUSE_STAT.RX_PAUSED n) c false ∧
      e.rd (Reg.PORT_PAUSE_STAT.WD_HOLD n) = d.rd (Reg.PORT_PAUSE_STAT.WD_HOLD n) ∧
      e.rd (Reg.PORT_PAUSE_STAT.TX_XOFF n) = d.rd (Reg.PORT_PAUSE_STAT.TX_XOFF n) ∧
      (∀ m k, 8 * m + k ≠ 8 * n + c → e.pauseSt m k = d.pauseSt m k) ∧
      d.regsBut e [Reg.PORT_PAUSE_STAT.addr n] ∧ d.Within e [.regs, .ports] := by
  rw [pauseExpiry_due ht hnow hw] at he
  subst he
  refine ⟨?_, ?_, Dev.rd_wdHold_setRxPaused _ _ _ _, Dev.rd_txXoff_setRxPaused _ _ _ _, fun m k h => ?_, ?_,
    (Dev.Within.refl d _).setPauseSt.setBitOf⟩
  · exact congrArg PauseSt.rxEnd (d.pauseSt_setPauseSt_same n c _)
  · exact (Dev.maskBit_setRxPaused _ n false hc).congr rfl rfl
  · exact d.pauseSt_setPauseSt_ne _ h
  · exact (Dev.regsBut.refl d _).setPauseSt.setBitOf (List.mem_singleton_self _)

end

/-! ### The pause watchdog (R85) -/

/-- A class whose watchdog trips: the received pause ends and the hold begins. -/
def Dev.wdTripped (d : Dev) (n c : Nat) : Dev :=
  ((d.setPauseSt n c { d.pauseSt n c with
    rxEnd := none, wdEnd := d.now + d.rd (Reg.PORT_PAUSE_WD.WD_HOLD_MS n) * 10 ^ 6 }).setBitOf
      (Reg.PORT_PAUSE_STAT.RX_PAUSED n) c false).setBitOf (Reg.PORT_PAUSE_STAT.WD_HOLD n) c true

section
variable {d e : Dev} {n c : Nat}

theorem Dev.wdTripped_effect (hc : c < 8) (he : e = d.wdTripped n c) :
    (e.pauseSt n c).rxEnd = none ∧ (e.pauseSt n c).wdEnd = d.now + d.rd (Reg.PORT_PAUSE_WD.WD_HOLD_MS n) * 10 ^ 6 ∧
      d.maskBit e (Reg.PORT_PAUSE_STAT.RX_PAUSED n) c false ∧ d.maskBit e (Reg.PORT_PAUSE_STAT.WD_HOLD n) c true ∧
      d.regsBut e [Reg.PORT_PAUSE_STAT.addr n] ∧ d.Within e [.regs, .ports] := by
  subst he
  have hs : (d.wdTripped n c).pauseSt n c = _ := d.pauseSt_setPauseSt_same n c _
  have hrd := d.rd_setPauseSt n c { d.pauseSt n c with
    rxEnd := none, wdEnd := d.now + d.rd (Reg.PORT_PAUSE_WD.WD_HOLD_MS n) * 10 ^ 6 }
  refine ⟨by rw [hs], by rw [hs], ?_, ?_, ?_, (Dev.Within.refl d _).setPauseSt.setBitOf.setBitOf⟩
  · exact (Dev.maskBit_swapHold _ n hc).1.congr (hrd _).symm rfl
  · exact (Dev.maskBit_swapHold _ n hc).2.congr (hrd _).symm rfl
  · exact ((Dev.regsBut.refl d _).setPauseSt.setBitOf (List.mem_singleton_self _)).setBitOf (List.mem_singleton_self _)

theorem pauseWdTrip_due (hs : (d.pauseSt n c).rxEnd.isSome = true)
    (ht : (d.pauseSt n c).since + d.rd (Reg.PORT_PAUSE_WD.WD_MS n) * 10 ^ 6 < d.now) :
    pauseWdTrip n c d = (((d.wdTripped n c).cnt .pauseWdTrip n).alarm 3 0).log 0x1001 (groupOf n)
      ((((d.wdTripped n c).cnt .pauseWdTrip n).alarm 3 0).regData (Reg.PORT_PAUSE_STAT.addr n) ++ le 2 n ++ le 1 c) := by
  rw [pauseWdTrip]
  dsimp only
  rw [if_pos (by simp only [hs, ht, decide_true, Bool.and_self])]
  rfl

theorem pauseWdTrip_effect (hn : n < 258) (hc : c < 8) (hs : (d.pauseSt n c).rxEnd.isSome = true)
    (ht : (d.pauseSt n c).since + d.rd (Reg.PORT_PAUSE_WD.WD_MS n) * 10 ^ 6 < d.now) (he : e = pauseWdTrip n c d) :
    (e.pauseSt n c).rxEnd = none ∧ (e.pauseSt n c).wdEnd = d.now + d.rd (Reg.PORT_PAUSE_WD.WD_HOLD_MS n) * 10 ^ 6 ∧
      d.maskBit e (Reg.PORT_PAUSE_STAT.RX_PAUSED n) c false ∧ d.maskBit e (Reg.PORT_PAUSE_STAT.WD_HOLD n) c true ∧
      d.counted e .pauseWdTrip n 1 ∧ d.maskBit e Reg.SUPV_ALM.ALM3_SRC 0 true ∧
      (d.bitOf Reg.SUPV_ALM.ALM3_SRC 0 = false → d.maskBit e Reg.HOST_INT_STATUS.SRC 4 true) ∧
      e.supv.logQ = d.queued ⟨0x1001, 4, 0, groupOf n, false,
        le 4 (Reg.PORT_PAUSE_STAT.addr n) ++ le 4 (e.reg (Reg.PORT_PAUSE_STAT.addr n)).toNat ++ le 2 n ++ le 1 c⟩ ∧
      d.regsBut e [Reg.PORT_PAUSE_STAT.addr n, Reg.SUPV_ALM.addr, Reg.HOST_INT_STATUS.addr] ∧
      d.ctrsBut e [Ctr.pauseWdTrip.key n, Ctr.logOverrun.key 0] ∧
      d.Within e [.regs, .ctrs, .ctrOvf, .wire, .supv, .ports] := by
  rw [pauseWdTrip_due hs ht] at he
  obtain ⟨hrx, hwd, hbit, hhold, hregs, hw⟩ := Dev.wdTripped_effect (d := d) (n := n) hc rfl
  generalize d.wdTripped n c = x at *
  obtain ⟨ha, hi⟩ := pauseStat_ne_raised hn
  have hreg : ∀ a, e.reg a = ((x.cnt .pauseWdTrip n).alarm 3 0).reg a := fun a => he ▸ Dev.reg_log _ _ _ _ _
  have hstat : e.reg (Reg.PORT_PAUSE_STAT.addr n) = x.reg (Reg.PORT_PAUSE_STAT.addr n) :=
    (hreg _).trans ((Dev.reg_alarm_ne _ _ _ _ ha hi).trans (Dev.reg_cnt _ _ _ _))
  have hports : e.ports = x.ports := by simp [he]
  have hpause := Dev.pauseSt_congr (congrArg PortsSt.pause hports) n c
  have halm : (x.cnt .pauseWdTrip n).rd (almField 3) = d.rd Reg.SUPV_ALM.ALM3_SRC :=
    Dev.rd_congr_reg ((Dev.reg_cnt _ _ _ _).trans (hregs _ (by rw [almField_addr]; simpa using ha.symm)))
  have hsrc : (x.cnt .pauseWdTrip n).rd Reg.HOST_INT_STATUS.SRC = d.rd Reg.HOST_INT_STATUS.SRC :=
    Dev.rd_congr_reg ((Dev.reg_cnt _ _ _ _).trans (hregs _ (List.not_mem_cons_of_ne_of_not_mem hi.symm List.not_mem_nil)))
  refine ⟨hpause ▸ hrx, hpause ▸ hwd, hbit.congr rfl (Dev.rd_congr_reg hstat), hhold.congr rfl (Dev.rd_congr_reg hstat), ?_, ?_,
    fun h => ?_, ?_, ?_, ?_, ?_⟩
  · refine (x.counted_cnt .pauseWdTrip n).congr (Dev.ctr_congr (hw .ctrs (by decide)).symm _ _) ?_
    rw [he, Dev.log, Dev.ctr_submit _ _ (by decide), Dev.ctr_alarm]
  · exact (Dev.maskBit.alarm (x.cnt .pauseWdTrip n) (g := 3) (by decide)).congr halm.symm (Dev.rd_congr_reg (hreg _))
  · refine (Dev.maskBit.alarm_irq (x.cnt .pauseWdTrip n) (g := 3) ?_).congr hsrc.symm (Dev.rd_congr_reg (hreg _))
    rwa [Dev.bitOf, halm]
  · have hsupv : ((x.cnt .pauseWdTrip n).alarm 3 0).supv = d.supv := by
      rw [show ((x.cnt .pauseWdTrip n).alarm 3 0).supv = x.supv by simp]
      exact hw .supv (by decide)
    rw [hreg, ← Dev.queued_congr hsupv]
    nth_rw 1 [he]
    rw [Dev.log, Dev.logQ_submit, Dev.regData, show sevOf 0x1001 = 4 from rfl]
  · rw [he]
    exact (((hregs.mono (by simp)).of_regs (by simp)).alarm (by simp) (by simp)).log
  · rw [he]
    refine (((Dev.ctrsBut.of_same (hw .ctrs (by decide)) (hw .ctrOvf (by decide)) _).trans
      ((Dev.ctrsBut.cntBy x .pauseWdTrip n 1).mono (by simp))).trans
      (.of_same (e := (x.cnt .pauseWdTrip n).alarm 3 0) (by simp; rfl) (by simp; rfl) _)).trans ((Dev.ctrsBut_submit _ _).mono (by simp))
  · rw [he]
    exact (hw.mono).cnt.alarm.log

theorem pauseWdHoldEnd_due (hb : d.bitOf (Reg.PORT_PAUSE_STAT.WD_HOLD n) c = true) (ht : (d.pauseSt n c).wdEnd ≤ d.now) :
    pauseWdHoldEnd n c d = d.setBitOf (Reg.PORT_PAUSE_STAT.WD_HOLD n) c false := by
  simp [pauseWdHoldEnd, hb, ht]

end

/-! ### The instructions of the pause timers -/

section
variable {d : Dev} (hl : d.hold.live = true) (q : List Instr) (n c : Nat)
include hl

theorem exec_pauseExpiry : exec (.pauseExpiry n c) ⟨d, q⟩ = .next ⟨pauseExpiry n c d, q⟩ := State.on_live hl q _
theorem exec_pauseWdTrip : exec (.pauseWdTrip n c) ⟨d, q⟩ = .next ⟨pauseWdTrip n c d, q⟩ := State.on_live hl q _
theorem exec_pauseWdHoldEnd : exec (.pauseWdHoldEnd n c) ⟨d, q⟩ = .next ⟨pauseWdHoldEnd n c d, q⟩ := State.on_live hl q _

end

end Sys2Proof.Machine

section

open Sys2Proof Sys2Proof.Machine

/-- Settles O10: the three timers of a received pause act at their instants, as their effect lemmas say. -/
theorem pauseTimersAct : Obligations.PauseTimersAct := by
  unfold Obligations.PauseTimersAct
  refine ⟨fun d q n c t hl hn hc ht hnow hw => ?_, fun d q n c hl hn hc hs ht => ?_, fun d q n c hl hn hc hb ht => ?_⟩
  · refine exec_leaves (exec_pauseExpiry hl q n c) fun e he => ?_
    obtain ⟨hrx, hbit, hwd, htx, hother, hregs, hframe⟩ := pauseExpiry_effect hc ht hnow hw he
    exact ⟨hrx, hbit, hwd, htx, hother, hregs, hframe.eq⟩
  · refine exec_leaves (exec_pauseWdTrip hl q n c) fun e he => ?_
    obtain ⟨hrx, hwd, hbit, hhold, hctr, halm, hirq, hlog, hregs, hctrs, hframe⟩ := pauseWdTrip_effect hn hc hs ht he
    exact ⟨hrx, hwd, hbit, hhold, hctr, halm, hirq, hlog, hregs, hctrs, hframe.eq⟩
  · refine exec_leaves (exec_pauseWdHoldEnd hl q n c) fun e he => ?_
    rw [pauseWdHoldEnd_due hb ht] at he
    subst he
    exact ⟨d.maskBit_setWdHold n false hc, d.rd_rxPaused_setWdHold n c false, d.rd_txXoff_setWdHold n c false,
      (Dev.regsBut.refl d _).setBitOf (List.mem_singleton_self _), rfl⟩

end

/-! PROOFS about what the work on cells, copies and frames leaves alone of the ports (R79, R83, R235 to R248): the settings and
status of every port, the pause state of a port whose link is down, and the counters that do not belong to that work. -/

namespace Sys2Proof.Machine

open Sys2Proof

/-! ### Addresses of the port registers -/

theorem pauseStat_inj {n m : Nat} (hn : n < 258) (hm : m < 258) (h : Reg.PORT_PAUSE_STAT.addr n = Reg.PORT_PAUSE_STAT.addr m) :
    n = m := portBlock_inj hn hm (Nat.add_left_cancel h)

/-- A register of a port's block other than PORT_PAUSE_STAT. -/
theorem portReg_ne_pauseStat {off : Nat} (ho : off < 0x1000) (hx : off ≠ 0x18) (n m : Nat) :
    0x01004000 + off + portBlock n ≠ Reg.PORT_PAUSE_STAT.addr m := by
  have hn := portBlock_mod n
  have hm := portBlock_mod m
  simp only [Reg.PORT_PAUSE_STAT.addr]
  omega

theorem portReg_zone {off n : Nat} (ho : off < 0x1000) (hn : n < 258) : portZone (0x01004000 + off + portBlock n) := by
  have := portBlock_le hn
  unfold portZone
  omega

theorem portStatus_ne_pauseStat (n m : Nat) : Reg.PORT_STATUS.addr n ≠ Reg.PORT_PAUSE_STAT.addr m :=
  portReg_ne_pauseStat (off := 8) (by decide) (by decide) n m

theorem portStatus_zone {n : Nat} (hn : n < 258) : portZone (Reg.PORT_STATUS.addr n) := portReg_zone (off := 8) (by decide) hn

theorem not_portZone {a : Nat} (h : a < 0x01000000 ∨ 0x01420000 ≤ a) : ¬ portZone a := by
  unfold portZone
  omega

/-! ### The relation -/

/-- Counters of the work on cells and copies, and of the pause frames it draws. -/
def cellCtrs : List Ctr :=
  [.pointerCheckEvents, .logOverrun, .refcntError, .listRebuild, .lastElementContest, .txPause, .txPfcC0, .txPfcC1, .txPfcC2,
    .txPfcC3, .txPfcC4, .txPfcC5, .txPfcC6, .txPfcC7]

/-- Components that the work on cells and frames may change, and with it that on copies. -/
def cellParts : List Part := [.regs, .ctrs, .ctrOvf, .wire, .supv, .ports, .path, .vat]
def copyParts : List Part := cellParts ++ [.fab, .egr]

/-- Instance `i` of counter `k` is none that a drop before step 11 counts: the drop reasons of egress begin at 0x40 (R390). -/
def Ctr.asideOf (k : Ctr) (i : Nat) : Prop := k.code = Ctr.code .drop → 0x40 ≤ i ∧ i < 0x100

/-- `e` differs from `d` as the work on cells, copies and frames lets it: in the components listed, in no register of a port but
the pause status of ports that are up, in no record of a port, in no pause of a port that is down, and in none of the counters
listed. -/
structure Dev.CellWork (l : List Part) (ks : List Ctr) (d e : Dev) : Prop where
  beside : ∀ k ∈ ks, k.code ∉ cellCtrs.map Ctr.code
  within : d.Within e l
  regs : ∀ a, portZone a → (∀ m, m < 258 → a ≠ Reg.PORT_PAUSE_STAT.addr m) → e.reg a = d.reg a
  port : e.ports.port = d.ports.port
  down : ∀ n, n < 258 → d.flag (Reg.PORT_STATUS.LINK_UP n) = false →
    e.reg (Reg.PORT_PAUSE_STAT.addr n) = d.reg (Reg.PORT_PAUSE_STAT.addr n) ∧ ∀ c, c < 8 → e.pauseSt n c = d.pauseSt n c
  ctrs : ∀ k ∈ ks, ∀ i, k.asideOf i → e.ctr k i = d.ctr k i

namespace Dev.CellWork

variable {l : List Part} {ks : List Ctr}

theorem refl (d : Dev) (h : ∀ k ∈ ks, k.code ∉ cellCtrs.map Ctr.code := by decide) : d.CellWork l ks d :=
  ⟨h, .refl d l, fun _ _ _ => rfl, rfl, fun _ _ _ => ⟨rfl, fun _ _ => rfl⟩, fun _ _ _ _ => rfl⟩

section
variable {b d : Dev} (h : b.CellWork l ks d)
include h

theorem status {n : Nat} (hn : n < 258) : d.reg (Reg.PORT_STATUS.addr n) = b.reg (Reg.PORT_STATUS.addr n) :=
  h.regs _ (portStatus_zone hn) fun m _ => portStatus_ne_pauseStat n m

theorem linkUp {n : Nat} (hn : n < 258) : d.flag (Reg.PORT_STATUS.LINK_UP n) = b.flag (Reg.PORT_STATUS.LINK_UP n) :=
  Dev.flag_congr_reg (h.status hn)

theorem portSt (n : Nat) : d.portSt n = b.portSt n := Dev.portSt_congr h.port n

theorem trans {e : Dev} (h' : d.CellWork l ks e) : b.CellWork l ks e where
  beside := h.beside
  within := h.within.trans h'.within
  regs a ha hx := (h'.regs a ha hx).trans (h.regs a ha hx)
  port := h'.port.trans h.port
  down n hn hd := by
    obtain ⟨hr, hp⟩ := h.down n hn hd
    obtain ⟨hr', hp'⟩ := h'.down n hn ((h.linkUp hn).trans hd)
    exact ⟨hr'.trans hr, fun c hc => (hp' c hc).trans (hp c hc)⟩
  ctrs k hk i hi := (h'.ctrs k hk i hi).trans (h.ctrs k hk i hi)

/-- One operation that leaves every port and every counter listed. -/
theorem step {e : Dev} (hw : d.Within e l) (hp : e.ports = d.ports) (hr : ∀ a, portZone a → e.reg a = d.reg a)
    (hc : ∀ k ∈ ks, ∀ i, k.asideOf i → e.ctr k i = d.ctr k i) : b.CellWork l ks e :=
  h.trans {
    beside := h.beside
    within := hw
    regs := fun a ha _ => hr a ha
    port := by rw [hp]
    down := fun _ hn _ => ⟨hr _ (portReg_zone (off := 0x18) (by decide) hn), fun _ _ => Dev.pauseSt_congr (by rw [hp]) _ _⟩
    ctrs := hc }

theorem ite {c : Prop} [Decidable c] {e : Dev} (he : b.CellWork l ks e) : b.CellWork l ks (if c then d else e) := by
  split
  · exact h
  · exact he

theorem foldl {β : Type} {f : Dev → β → Dev} {t : List β} (hf : ∀ e, ∀ x ∈ t, b.CellWork l ks e → b.CellWork l ks (f e x)) :
    b.CellWork l ks (t.foldl f d) :=
  List.foldlRecOn t f h fun e he x hx => hf e x hx he

/-! Single writes. -/

theorem setReg {a : Nat} {w : Word} (ha : ¬ portZone a) (hr : .regs ∈ l := by decide) : b.CellWork l ks (d.setReg a w) :=
  h.step ((Dev.Within.refl d l).setReg hr) rfl (fun _ hx => d.reg_setReg_ne _ _ _ fun e => ha (e ▸ hx)) fun _ _ _ _ => rfl

theorem wr {r : FRef} {v : Nat} (ha : ¬ portZone r.addr) (hr : .regs ∈ l := by decide) : b.CellWork l ks (d.wr r v) := h.setReg ha hr

theorem setFlag {r : FRef} {v : Bool} (ha : ¬ portZone r.addr) (hr : .regs ∈ l := by decide) : b.CellWork l ks (d.setFlag r v) :=
  h.setReg ha hr

theorem out {o : Out} (hw : .wire ∈ l := by decide) : b.CellWork l ks (d.out o) :=
  h.step ((Dev.Within.refl d l).out hw) rfl (fun _ _ => rfl) fun _ _ _ _ => rfl

theorem setPath {x : PathSt} (hx : .path ∈ l := by decide) : b.CellWork l ks { d with path := x } :=
  h.step ((Dev.Within.refl d l).setPath hx) rfl (fun _ _ => rfl) fun _ _ _ _ => rfl

theorem setVat {x : VatSt} (hx : .vat ∈ l := by decide) : b.CellWork l ks { d with vat := x } :=
  h.step ((Dev.Within.refl d l).setVat hx) rfl (fun _ _ => rfl) fun _ _ _ _ => rfl

theorem setDeck {x : DeckleSt} (hx : .deck ∈ l := by decide) : b.CellWork l ks { d with deck := x } :=
  h.step ((Dev.Within.refl d l).setDeck hx) rfl (fun _ _ => rfl) fun _ _ _ _ => rfl

theorem setFab {x : FabricSt} (hx : .fab ∈ l := by decide) : b.CellWork l ks { d with fab := x } :=
  h.step ((Dev.Within.refl d l).setFab hx) rfl (fun _ _ => rfl) fun _ _ _ _ => rfl

theorem setEgr {x : EgressSt} (hx : .egr ∈ l := by decide) : b.CellWork l ks { d with egr := x } :=
  h.step ((Dev.Within.refl d l).setEgr hx) rfl (fun _ _ => rfl) fun _ _ _ _ => rfl

theorem setSupv {x : SupvSt} (hx : .supv ∈ l := by decide) : b.CellWork l ks { d with supv := x } :=
  h.step ((Dev.Within.refl d l).setSupv hx) rfl (fun _ _ => rfl) fun _ _ _ _ => rfl

theorem setLook {x : LookupSt} (hx : .look ∈ l := by decide) : b.CellWork l ks { d with look := x } :=
  h.step ((Dev.Within.refl d l).setLook hx) rfl (fun _ _ => rfl) fun _ _ _ _ => rfl

/-- A counter that is not listed. -/
theorem cntBy {c : Ctr} {i n : Nat} (hc : ∀ k ∈ ks, k.code ≠ c.code) (hx : .ctrs ∈ l := by decide) (ho : .ctrOvf ∈ l := by decide) :
    b.CellWork l ks (d.cntBy c i n) :=
  h.step ((Dev.Within.refl d l).cntBy hx ho) rfl (fun _ _ => rfl) fun k hk _ _ => d.ctr_cntBy_code (hc k hk) _ _ _

/-- A counter of this work. -/
theorem cnt {c : Ctr} {i : Nat} (hc : c.code ∈ cellCtrs.map Ctr.code) (hx : .ctrs ∈ l := by decide) (ho : .ctrOvf ∈ l := by decide) :
    b.CellWork l ks (d.cnt c i) := h.cntBy (fun k hk he => h.beside k hk (he ▸ hc)) hx ho

/-- A drop before step 11. -/
theorem dropCount {r : Nat} (hr : r < 0x40) (hx : .ctrs ∈ l := by decide) (ho : .ctrOvf ∈ l := by decide) :
    b.CellWork l ks (d.dropCount r) := by
  refine h.step ((Dev.Within.refl d l).cnt hx ho) rfl (fun _ _ => rfl) fun k _ i hi => ?_
  by_cases hk : k.code = Ctr.code .drop
  · obtain ⟨hlo, hhi⟩ := hi hk
    refine d.ctr_cntBy_ne _ _ _ _ _ ?_
    simp only [Ctr.key, hk]
    omega
  · exact d.ctr_cnt_code hk _ _

/-! Alarms and the log. -/

theorem alarm {g k : Nat} (hl : cellParts ⊆ l := by decide) : b.CellWork l ks (d.alarm g k) :=
  h.step ((Dev.Within.refl d l).alarm (hl (by decide)) (hl (by decide))) (by simp)
    (fun a ha => d.reg_alarm_ne _ _ _ (fun e => not_portZone (.inr (by decide)) (e ▸ ha)) fun e =>
      not_portZone (.inr (by decide)) (e ▸ ha)) fun _ _ _ _ => d.ctr_alarm _ _ _ _

theorem log {t u : Nat} {x : List Byte} (hl : cellParts ⊆ l := by decide) : b.CellWork l ks (d.log t u x) :=
  .ite (h.setSupv (hl (by decide))) ((h.cnt (by decide) (hl (by decide)) (hl (by decide))).setSupv (hl (by decide)))

end

/-! Pause toward the peer of a port that is up. -/

theorem setPauseSt {b d : Dev} (h : b.CellWork l ks d) {n c : Nat} {s : PauseSt} (hn : n < 258) (hc : c < 8)
    (hup : d.flag (Reg.PORT_STATUS.LINK_UP n) = true) (hp : .ports ∈ l := by decide) : b.CellWork l ks (d.setPauseSt n c s) :=
  h.trans {
    beside := h.beside
    within := (Dev.Within.refl d l).setPauseSt hp
    regs := fun _ _ _ => rfl
    port := rfl
    down := fun m hm hd => ⟨rfl, fun k hk => d.pauseSt_setPauseSt_ne s fun he => by
      obtain rfl : m = n := by omega
      rw [hup] at hd
      exact Bool.noConfusion hd⟩
    ctrs := fun _ _ _ _ => rfl }

theorem setPauseStat {b d : Dev} (h : b.CellWork l ks d) {r : FRef} {n v : Nat} (ha : r.addr = Reg.PORT_PAUSE_STAT.addr n)
    (hn : n < 258) (hup : d.flag (Reg.PORT_STATUS.LINK_UP n) = true) (hr : .regs ∈ l := by decide) : b.CellWork l ks (d.wr r v) :=
  h.trans {
    beside := h.beside
    within := (Dev.Within.refl d l).wr hr
    regs := fun a _ hx => d.reg_wr_ne _ _ _ (ha ▸ hx n hn)
    port := rfl
    down := fun m hm hd => ⟨d.reg_wr_ne _ _ _ fun he => by
      obtain rfl := pauseStat_inj hm hn (he.trans ha)
      rw [hup] at hd
      exact Bool.noConfusion hd, fun _ _ => rfl⟩
    ctrs := fun _ _ _ _ => rfl }

theorem txPfcCtr_cell (c : Nat) : (txPfcCtr c).code ∈ cellCtrs.map Ctr.code := by
  unfold txPfcCtr
  split <;> decide

theorem sendPause {b d : Dev} (h : b.CellWork l ks d) {n mode : Nat} {cs : List Nat} {x : Bool} (hn : n < 258) (hcs : ∀ c ∈ cs, c < 8)
    (hup : b.flag (Reg.PORT_STATUS.LINK_UP n) = true) (hl : cellParts ⊆ l := by decide) :
    b.CellWork l ks (d.sendPause n mode cs x) := by
  have up : ∀ {e : Dev}, b.CellWork l ks e → e.flag (Reg.PORT_STATUS.LINK_UP n) = true := fun he => (he.linkUp hn).trans hup
  have hr := hl (show Part.regs ∈ cellParts by decide)
  have hc := hl (show Part.ctrs ∈ cellParts by decide)
  have ho := hl (show Part.ctrOvf ∈ cellParts by decide)
  have hw := hl (show Part.wire ∈ cellParts by decide)
  have hp := hl (show Part.ports ∈ cellParts by decide)
  unfold Dev.sendPause
  dsimp only
  split
  · refine (h.foldl fun e c hx he => ?_).out hw
    have hcnt := he.cnt (i := n) (txPfcCtr_cell c) hc ho
    have hset := fun v => setPauseStat (r := Reg.PORT_PAUSE_STAT.TX_XOFF n) (v := v) hcnt rfl hn (up hcnt) hr
    exact (hset _).setPauseSt hn (hcs c hx) (up (hset _)) hp
  · have hcnt := h.cnt (c := .txPause) (i := n) (by decide) hc ho
    have hset := fun v => setPauseStat (r := Reg.PORT_PAUSE_STAT.TX_XOFF n) (v := v) hcnt rfl hn (up hcnt) hr
    exact ((hset _).setPauseSt hn (by decide) (up (hset _)) hp).out hw

/-- A port sends pause only where its MODE is one of pause or PFC, which ports past MG1 have not. -/
theorem evalPause {b d : Dev} (h : b.CellWork l ks d) {n : Nat} (hl : cellParts ⊆ l := by decide) :
    b.CellWork l ks (d.evalPause n) := by
  have hclasses : ∀ c ∈ classes, c < 8 := by decide
  unfold Dev.evalPause
  split
  · exact h
  · next hup =>
    simp only [Bool.not_eq_true', Bool.not_eq_false, Bool.and_eq_true] at hup
    have hmode : d.pauseMode n ≠ 0 → n < 258 := fun hm => by
      by_contra hn
      refine hm ?_
      unfold Dev.pauseMode
      split
      · rw [if_neg hn]
      · rw [if_neg (by omega)]
      · rfl
    have hlink : n < 258 → b.flag (Reg.PORT_STATUS.LINK_UP n) = true := fun hn => by
      have hx := hup.2
      rw [Dev.linkUp, h.linkUp hn, beq_false_of_ne (by omega), Bool.false_or] at hx
      exact hx
    dsimp only
    split
    · next hm =>
      have hn := hmode (by omega)
      have hs : ∀ x, b.CellWork l ks (d.sendPause n 1 [] x) := fun _ => h.sendPause hn (by simp) (hlink hn) hl
      exact .ite (.ite (hs _) h) (.ite h (hs _))
    · next hm =>
      have hn := hmode (by omega)
      have hon : ∀ {p : Nat → Bool}, ∀ c ∈ (classes.filter fun c => d.bitOf (Reg.PORT_PAUSE_CFG.PFC_CLASSES n) c).filter p, c < 8 :=
        fun c hc => hclasses c (List.mem_filter.mp (List.mem_filter.mp hc).1).1
      have hx : ∀ cs : List Nat, (∀ c ∈ cs, c < 8) → b.CellWork l ks (if cs.isEmpty then d else d.sendPause n 2 cs true) :=
        fun _ hcs => h.ite (h.sendPause hn hcs (hlink hn) hl)
      exact (hx _ hon).ite ((hx _ hon).sendPause hn hon (hlink hn) hl)
    · exact h

section
variable {b d : Dev} (h : b.CellWork l ks d) (hl : cellParts ⊆ l)
include h hl

theorem addIc {n c k : Nat} : b.CellWork l ks (d.addIc n c k) := .ite h ((h.setVat (hl (by decide))).evalPause hl)
theorem subIc {n c k : Nat} : b.CellWork l ks (d.subIc n c k) := .ite h ((h.setVat (hl (by decide))).evalPause hl)
theorem addEc {p m c k : Nat} : b.CellWork l ks (d.addEc p m c k) := h.setVat (hl (by decide))
theorem subEc {p m c k : Nat} : b.CellWork l ks (d.subEc p m c k) := h.setVat (hl (by decide))

/-! Cells. -/

theorem setBank {p : Nat} {x : Bank} : b.CellWork l ks (d.setBank p x) := h.setVat (hl (by decide))

theorem auditLost {x n : Nat} : b.CellWork l ks (d.auditLost x n) := by
  unfold Dev.auditLost
  split
  · next hx => exact h.wr (not_portZone (.inl (by simp only [Reg.DEV_AUDIT_LOST.LOST, Reg.DEV_AUDIT_LOST.addr]; omega))) (hl (by decide))
  · exact h

theorem ptrFail {s v : Nat} : b.CellWork l ks (d.ptrFail s v) := by
  have ha : ¬ portZone Reg.BUFF_PTR_ERR.addr := not_portZone (.inr (by decide))
  have hr := hl (show Part.regs ∈ cellParts by decide)
  have hc := h.cnt (c := .pointerCheckEvents) (i := s) (by decide) (hl (by decide)) (hl (by decide))
  exact ((hc.ite (((hc.setFlag ha hr).wr ha hr).wr ha hr)).alarm hl).log hl

theorem returnCell {p k flip : Nat} : b.CellWork l ks (d.returnCell p k flip) :=
  .ite (h.setBank hl) (((h.setBank hl).ptrFail hl).auditLost hl)

theorem unref {p k flip : Nat} : b.CellWork l ks (d.unref p k flip).1 := by
  have hc := h.cnt (c := .refcntError) (i := p) (by decide) (hl (by decide)) (hl (by decide))
  unfold Dev.unref
  dsimp only
  split
  · exact hc.ite ((hc.setBank hl).auditLost hl)
  · split
    · exact (h.setBank hl).returnCell hl
    · exact h.setBank hl

theorem startRebuild {p s : Nat} : b.CellWork l ks (d.startRebuild p s) :=
  h.ite (((h.setBank hl).cnt (by decide) (hl (by decide)) (hl (by decide))).setFlag
    (not_portZone (.inr (by simp only [Reg.BUFF_BANK_PEND.REBUILDING, Reg.BUFF_BANK_PEND.addr]; omega))) (hl (by decide)))

theorem allocCell {p fuel : Nat} : b.CellWork l ks (d.allocCell p fuel).2 := by
  induction fuel generalizing d with
  | zero => exact h
  | succ fuel ih =>
    unfold Dev.allocCell
    dsimp only
    split
    · exact h
    · split
      · exact h
      · split
        · exact h.setBank hl
        · exact ih (h.startRebuild hl)

theorem ofAllocCell {p fuel : Nat} {o : Option Nat} {e : Dev} (he : d.allocCell p fuel = (o, e)) : b.CellWork l ks e := by
  have hx := h.allocCell hl (p := p) (fuel := fuel)
  rwa [he] at hx

/-! Frames and copies in their lists. -/

theorem setFrame {f : Frame} : b.CellWork l ks (d.setFrame f) := h.setPath (hl (by decide))
theorem delFrame {i : Nat} : b.CellWork l ks (d.delFrame i) := h.setPath (hl (by decide))
theorem setCopy {c : Copy} : b.CellWork l ks (d.setCopy c) := h.setPath (hl (by decide))
theorem delCopy {i : Nat} : b.CellWork l ks (d.delCopy i) := h.setPath (hl (by decide))
theorem deliver {n m : Nat} : b.CellWork l ks (d.deliver n m) := h.setPath (hl (by decide))

theorem reap {i : Nat} : b.CellWork l ks (d.reap i) := by
  unfold Dev.reap
  split
  · exact .ite (h.delFrame hl) h
  · exact h

/-! A copy leaves. -/

theorem releaseRefs {c : Copy} {flip : Nat} : b.CellWork l ks (d.releaseRefs c flip) := by
  unfold Dev.releaseRefs
  split
  · exact h
  · next f _ =>
    split
    · exact h
    · extract_lets p r e
      have hr : b.CellWork l ks r.1 :=
        List.foldlRecOn (motive := fun a : Dev × Nat × Nat => b.CellWork l ks a.1) _ _ h fun _ ha _ _ => ha.unref hl
      have he : b.CellWork l ks e := hr.subEc hl
      exact .setCopy (he.ite (he.subIc hl)) hl

end

section
variable {b d : Dev} (h : b.CellWork l ks d) (hl : copyParts ⊆ l)
include h hl

theorem returnCredit {g n : Nat} : b.CellWork l ks (d.returnCredit g n) :=
  h.ite ((h.wr (not_portZone (.inr (by simp only [Reg.FABR_GRP_CREDIT.OUTSTANDING, Reg.FABR_GRP_CREDIT.addr]; omega)))
    (hl (by decide))).setFab (hl (by decide)))

theorem unstage {g n : Nat} : b.CellWork l ks (d.unstage g n) :=
  h.ite ((h.wr (not_portZone (.inr (by simp only [Reg.FABR_GRP_CREDIT.STAGED, Reg.FABR_GRP_CREDIT.addr]; omega)))
    (hl (by decide))).returnCredit hl)

theorem returnBlock {x : Nat × Nat × Nat} {flip : Nat} : b.CellWork l ks (d.returnBlock x flip) := by
  have hc : cellParts ⊆ l := List.Subset.trans (by decide) hl
  unfold Dev.returnBlock
  dsimp only
  split
  · exact h
  · split
    · exact CellWork.wr (d := d.setVatHalf _ _ _) (h.setVat (hl (by decide)))
        (not_portZone (.inr (by simp only [Reg.BUFF_VAT_FREE.FREE, Reg.BUFF_VAT_FREE.addr]; omega))) (hl (by decide))
    · exact (h.ptrFail hc).auditLost hc

theorem askRefills {p : Nat} : b.CellWork l ks (d.askRefills p) :=
  .ite h (h.foldl fun _ _ _ h => .ite (.ite h (.ite (h.setVat (hl (by decide))) h)) h)

theorem removeCopy {c : Copy} : b.CellWork l ks (d.removeCopy c) := by
  have hc : cellParts ⊆ l := List.Subset.trans (by decide) hl
  have hr := h.releaseRefs hc (c := c) (flip := 0)
  unfold Dev.removeCopy
  refine askRefills (reap (delCopy (?_ : b.CellWork l ks (Dev.clearTx _ _)) hc) hc) hl
  refine setEgr (unstage (returnCredit (setVat ?_ (hl (by decide))) hl) hl) (hl (by decide))
  split
  · exact hr.returnBlock hl
  · exact hr

/-- Copies that are cut, where drops are not among the counters listed. -/
theorem cutCopies {r : Nat} {p : Copy → Bool} (hk : ∀ k ∈ ks, k.code ≠ Ctr.code .drop) : b.CellWork l ks (d.cutCopies r p) := by
  refine h.foldl fun e _ _ he => ?_
  split
  · exact (CellWork.cntBy (c := .drop) (i := r) (n := 1) he hk (hl (by decide)) (hl (by decide))).removeCopy hl
  · exact he

end

/-! A frame leaves before step 11. Only staging blocks lie in the Deckle. -/

section
variable {b d : Dev} (h : b.CellWork l ks d) (hl : cellParts ⊆ l)
include h hl

theorem returnChain {f : Frame} : b.CellWork l ks (d.returnChain f) := .ite (h.foldl fun _ _ _ h => h.returnCell hl) h

theorem returnStaging {f : Frame} (hf : .deck ∈ l ∨ f.blocks = []) : b.CellWork l ks (d.returnStaging f) := by
  have hr := hl (show Part.regs ∈ cellParts by decide)
  unfold Dev.returnStaging
  split
  · exact h
  · next hb =>
    have hd : .deck ∈ l := hf.resolve_right fun he => hb (by simp [he])
    exact (((h.setVat (hl (by decide))).setDeck hd).wr (r := Reg.BUFF_PRIV_FREE.SEAL_FREE) (not_portZone (.inr (by decide))) hr).wr
      (r := Reg.SEAL_STATUS.BLOCKS_USED) (not_portZone (.inr (by decide))) hr

theorem endFrame {f : Frame} (hf : .deck ∈ l ∨ f.blocks = []) : b.CellWork l ks (d.endFrame f) :=
  ((((h.returnChain hl).returnStaging hl hf).setFrame hl).reap hl).deliver hl

theorem dropFrame {f : Frame} {r : Nat} (hr : r < 0x40) (hf : .deck ∈ l ∨ f.blocks = []) : b.CellWork l ks (d.dropFrame f r) :=
  (h.dropCount hr (hl (by decide)) (hl (by decide))).endFrame hl hf

theorem bankEmpty {f : Frame} (hf : .deck ∈ l ∨ f.blocks = []) : b.CellWork l ks (d.bankEmpty f) :=
  .ite (h.setFrame hl) (h.dropFrame hl (by decide) hf)

theorem writeCell {f : Frame} {last : Bool} (hf : .deck ∈ l ∨ f.blocks = []) : b.CellWork l ks (d.writeCell f last) := by
  unfold Dev.writeCell
  extract_lets p hs
  split
  · exact h.setFrame hl
  · split
    · next he => exact (h.ofAllocCell hl he).bankEmpty hl hf
    · next k e he =>
      extract_lets b1 b2 b3 d1 d2
      have hd : b.CellWork l ks d1 := ((h.ofAllocCell hl he).setBank hl).setFrame hl
      have hd2 : b.CellWork l ks d2 := hd.foldl fun _ _ _ h => h.addEc hl
      exact .ite (hd2.ite (hd2.addIc hl)) hd

end

end Dev.CellWork

end Sys2Proof.Machine

/-! PROOFS about the end of a reception (R77 to R79, R87, R89): what a frame keeps while its cells are stored, and what the end of
a frame leaves alone. -/

namespace Sys2Proof.Machine

open Sys2Proof

/-! ### A frame in the list -/

theorem Dev.frame_some {d : Dev} {i : Nat} {f : Frame} (h : d.frame i = some f) : f ∈ d.path.frames ∧ f.id = i :=
  ⟨List.mem_of_find?_eq_some h, by simpa using List.find?_some h⟩

theorem Dev.frame_isSome {d : Dev} {i : Nat} (h : ∃ f ∈ d.path.frames, f.id = i) : ∃ f, d.frame i = some f := by
  obtain ⟨f, hf, hi⟩ := h
  exact Option.isSome_iff_exists.mp (List.find?_isSome.mpr ⟨f, hf, by simp [hi]⟩)

theorem Dev.openRx_some {d : Dev} {n mac : Nat} {f : Frame} (h : d.openRx n mac = some f) :
    f ∈ d.path.frames ∧ f.port = n ∧ f.mac = mac ∧ f.ended = false := by
  have hp := List.find?_some h
  simp only [Bool.and_eq_true, beq_iff_eq, Bool.not_eq_true'] at hp
  obtain ⟨⟨hport, hmac⟩, hended⟩ := hp
  exact ⟨List.mem_of_find?_eq_some h, hport, hmac, hended⟩

theorem Dev.openRx_isSome {d : Dev} {n mac : Nat} {f : Frame} (hf : f ∈ d.path.frames) (hn : f.port = n) (hm : f.mac = mac)
    (he : f.ended = false) : ∃ g, d.openRx n mac = some g :=
  Option.isSome_iff_exists.mp (List.find?_isSome.mpr ⟨f, hf, by simp [hn, hm, he]⟩)

theorem Dev.mem_setFrame {d : Dev} {f g : Frame} (h : f ∈ (d.setFrame g).path.frames) :
    f = g ∨ (f ∈ d.path.frames ∧ f.id ≠ g.id) := by
  obtain ⟨x, hx, rfl⟩ := List.mem_map.mp h
  split
  · exact .inl rfl
  · next hi => exact .inr ⟨hx, hi⟩

theorem Dev.exists_setFrame {d : Dev} {i : Nat} (g : Frame) (h : ∃ f ∈ d.path.frames, f.id = i) :
    ∃ f ∈ (d.setFrame g).path.frames, f.id = i := by
  obtain ⟨f, hf, hi⟩ := h
  refine ⟨_, List.mem_map.mpr ⟨f, hf, rfl⟩, ?_⟩
  split
  · next hg => exact hg ▸ hi
  · exact hi

/-! ### What a frame keeps while its cells are stored -/

/-- The work on a frame's cells leaves `P` true of it: its chain grows, the bank is found empty, or it leaves its journey, and
vectors that waited for it go on. -/
structure Frame.Stays (P : Frame → Prop) : Prop where
  cells : ∀ f x, P f → P { f with cells := x }
  full : ∀ f, P f → P { f with full := true }
  gone : ∀ f, P f → P { f with stage := .gone, cells := [], blocks := [], handoff := false }
  identify : ∀ f, P f → f.stage = .vector → P { f with stage := .identify }

/-- `P` holds of every frame numbered `i`, and where it says that the reception goes on there is one. -/
structure Dev.Holds (d : Dev) (i : Nat) (P : Frame → Prop) : Prop where
  each : ∀ f ∈ d.path.frames, f.id = i → P f
  some : (∀ f, P f → f.ended = false) → ∃ f ∈ d.path.frames, f.id = i

theorem Frame.Stays.any : Frame.Stays fun _ => True := ⟨fun _ _ _ => trivial, fun _ _ => trivial, fun _ _ => trivial, fun _ _ _ => trivial⟩

/-- Of any frame nothing is asked. -/
theorem Dev.Holds.any (d : Dev) (i : Nat) : d.Holds i fun _ => True where
  each _ _ _ := trivial
  some h := by
    have hf := h { d.newFrame 0 0 0 with ended := true } trivial
    exact Bool.noConfusion hf

namespace Dev.Holds

variable {d e : Dev} {i : Nat} {P : Frame → Prop}

theorem congr (h : d.Holds i P) (he : e.path.frames = d.path.frames) : e.Holds i P := ⟨he ▸ h.each, he ▸ h.some⟩

theorem ofPath (h : d.Holds i P) (he : e.path = d.path) : e.Holds i P := h.congr (by rw [he])

theorem setFrame (h : d.Holds i P) {g : Frame} (hg : P g) : (d.setFrame g).Holds i P where
  each f hf hi := (Dev.mem_setFrame hf).elim (fun he => he ▸ hg) fun hx => h.each f hx.1 hi
  some hP := Dev.exists_setFrame g (h.some hP)

/-- A frame written over all of its number. -/
theorem ofSetFrame {g : Frame} (hi : g.id = i) (hg : P g) (h : ∃ f ∈ d.path.frames, f.id = i) : (d.setFrame g).Holds i P where
  each _ hf hx := (Dev.mem_setFrame hf).elim (fun he => he ▸ hg) fun hy => absurd (hx.trans hi.symm) hy.2
  some _ := Dev.exists_setFrame g h

theorem frame (h : d.Holds i P) {f : Frame} (hf : d.frame i = Option.some f) : P f :=
  have ⟨hm, hi⟩ := Dev.frame_some hf
  h.each f hm hi

theorem frameOpen (h : d.Holds i P) (hP : ∀ f, P f → f.ended = false) : ∃ f, d.frame i = Option.some f ∧ P f ∧ f.id = i := by
  obtain ⟨f, hf⟩ := Dev.frame_isSome (h.some hP)
  exact ⟨f, hf, h.frame hf, (Dev.frame_some hf).2⟩

theorem reap (h : d.Holds i P) : (d.reap i).Holds i P := by
  unfold Dev.reap
  split
  · next f hf =>
    split
    · next hc =>
      simp only [Bool.and_eq_true] at hc
      refine ⟨fun g hg => h.each g (List.mem_filter.mp hg).1, fun hP => ?_⟩
      rw [hP f (h.frame hf)] at hc
      exact Bool.noConfusion hc.1.1
    · exact h
  · exact h

theorem deliver (h : d.Holds i P) (hP : Frame.Stays P) (n m : Nat) : (d.deliver n m).Holds i P where
  each f hf hi := by
    obtain ⟨x, hx, rfl⟩ := List.mem_map.mp hf
    have hxi : x.id = i := by
      split at hi
      · exact hi
      · exact hi
    split
    · next hc =>
      simp only [Bool.and_eq_true, decide_eq_true_eq] at hc
      exact hP.identify x (h.each x hx hxi) hc.1.1.1
    · exact h.each x hx hxi
  some hx := by
    obtain ⟨f, hf, hi⟩ := h.some hx
    refine ⟨_, List.mem_map.mpr ⟨f, hf, rfl⟩, ?_⟩
    split
    · exact hi
    · exact hi

variable (h : d.Holds i P) (hP : Frame.Stays P)
include h hP

theorem dropFrame {f : Frame} (hi : f.id = i) (hf : P f) (r : Nat) : (d.dropFrame f r).Holds i P := by
  subst hi
  unfold Dev.dropFrame Dev.endFrame
  refine deliver ?_ hP _ _
  exact reap (setFrame (h.ofPath (by simp)) (hP.gone f hf))

theorem bankEmpty {f : Frame} (hi : f.id = i) (hf : P f) : (d.bankEmpty f).Holds i P := by
  unfold Dev.bankEmpty
  split
  · exact h.setFrame (hP.full f hf)
  · exact h.dropFrame hP hi hf _

theorem writeCell {f : Frame} (hi : f.id = i) (hf : P f) (last : Bool) : (d.writeCell f last).Holds i P := by
  unfold Dev.writeCell
  extract_lets p hs
  split
  · exact h.setFrame (hP.full f hf)
  · have hp := d.path_allocCell p 33
    split
    · next he =>
      rw [he] at hp
      exact (h.ofPath hp).bankEmpty hP hi hf
    · next k e he =>
      rw [he] at hp
      extract_lets b1 b2 b3 d1 d2
      have hd : d1.Holds i P := setFrame (h.ofPath (e := e.setBank p b3) (by simpa using hp)) (hP.cells f _ hf)
      refine hd.ofPath ?_
      split
      · split
        · exact foldl_keeps (g := Dev.path) (fun a x => by simp) _ _
        · rw [Dev.path_addIc]
          exact foldl_keeps (g := Dev.path) (fun a x => by simp) _ _
      · rfl

theorem fillCells (fuel : Nat) : (d.fillCells i fuel).Holds i P := by
  induction fuel generalizing d with
  | zero => exact h
  | succ fuel ih =>
    unfold Dev.fillCells
    split
    · exact h
    · next f hf =>
      split
      · exact h
      · exact ih (h.writeCell hP (Dev.frame_some hf).2 (h.frame hf) _)

theorem storeCells : (d.storeCells i).Holds i P := by
  unfold Dev.storeCells
  split
  · exact h
  · refine fillCells (h.ofPath ?_) hP _
    split
    · simp
    · rfl

end Dev.Holds

/-! ### Cells stored during a reception -/

namespace Dev.CellWork
section
variable {l : List Part} {ks : List Ctr} {b d : Dev} {i : Nat} {P : Frame → Prop} (h : b.CellWork l ks d) (hl : cellParts ⊆ l)
  (hP : Frame.Stays P) (hd : d.Holds i P) (hb : .deck ∈ l ∨ ∀ f, P f → f.blocks = [])
include h hl hP hd hb

theorem fillCells (fuel : Nat) : b.CellWork l ks (d.fillCells i fuel) := by
  induction fuel generalizing d with
  | zero => exact h
  | succ fuel ih =>
    unfold Dev.fillCells
    split
    · exact h
    · next f hf =>
      have hPf := hd.frame hf
      split
      · exact h
      · exact ih (h.writeCell hl (hb.imp_right fun hx => hx f hPf)) (hd.writeCell hP (Dev.frame_some hf).2 hPf _)

theorem storeCells : b.CellWork l ks (d.storeCells i) := by
  have hc := fun p => h.cnt (c := .lastElementContest) (i := p) (by decide) (hl (by decide)) (hl (by decide))
  have hp := fun p => hd.ofPath (e := d.cnt .lastElementContest p) rfl
  unfold Dev.storeCells
  split
  · exact h
  · split
    · exact (hc _).fillCells hl hP (hp _) hb _
    · exact h.fillCells hl hP hd hb _

end
end Dev.CellWork

/-- A frame none of whose cells is due leaves the bank alone. -/
theorem Dev.storeCells_of_none_wanted {d : Dev} {i : Nat} (h : ∀ f, d.frame i = some f → f.cellsWanted = 0) : d.storeCells i = d := by
  unfold Dev.storeCells
  split
  · rfl
  · next f hf =>
    rw [h f hf, if_neg (Nat.not_lt_zero _)]
    show d.fillCells i (103 + 1) = d
    rw [Dev.fillCells, hf]
    dsimp only
    rw [if_pos (h f hf)]

/-! ### A frame begins, and takes bytes -/

/-- What a reception finds open, or begins: a frame of that MAC in the list, not ended. -/
theorem Dev.rxFrame_effect {d e : Dev} {f : Frame} {n mac ago : Nat} (h : d.rxFrame n mac ago = (f, e)) :
    f ∈ e.path.frames ∧ f.port = n ∧ f.mac = mac ∧ f.ended = false ∧
      ∃ x : PathSt, e = { d with path := x } ∧ x.copies = d.path.copies := by
  unfold Dev.rxFrame at h
  split at h
  · next g hg =>
    cases h
    obtain ⟨hm, hn, hmac, he⟩ := Dev.openRx_some hg
    exact ⟨hm, hn, hmac, he, d.path, rfl, rfl⟩
  · cases h
    exact ⟨by simp, rfl, rfl, rfl, _, rfl, rfl⟩

section
variable {d : Dev} {f : Frame} {b : List Byte} {P : Frame → Prop} (hP : Frame.Stays P) (ho : ∀ f, P f → f.ended = false)
  (hf : P (d.addBytes f b)) (hm : ∃ g ∈ d.path.frames, g.id = f.id)
include hP hf hm

theorem Dev.takeBytes_holds : (d.takeBytes f b).2.Holds f.id P :=
  (Dev.Holds.ofSetFrame (g := d.addBytes f b) rfl hf hm).storeCells hP

theorem Dev.CellWork.takeBytes {l : List Part} {ks : List Ctr} {z : Dev} (h : z.CellWork l ks d) (hl : cellParts ⊆ l)
    (hb : .deck ∈ l ∨ ∀ f, P f → f.blocks = []) : z.CellWork l ks (d.takeBytes f b).2 :=
  CellWork.storeCells (h.setFrame hl) hl hP (Dev.Holds.ofSetFrame (g := d.addBytes f b) rfl hf hm) hb

include ho

/-- The frame that goes on is the one that stands in the list. -/
theorem Dev.takeBytes_frame : (d.takeBytes f b).2.frame f.id = some (d.takeBytes f b).1 ∧ P (d.takeBytes f b).1 := by
  obtain ⟨g, hg, hPg, -⟩ := (Dev.takeBytes_holds hP hf hm).frameOpen ho
  have he : (d.takeBytes f b).1 = g := by
    show ((d.takeBytes f b).2.frame f.id).getD _ = g
    rw [hg, Option.getD_some]
  exact ⟨he ▸ hg, he ▸ hPg⟩

end

/-! ### The end of a frame -/

/-- The MAC's counts of a frame that ends with drop reason `err`, 0 for none (R78, R87). -/
def Dev.rxCounted (d : Dev) (f : Frame) (err : Nat) : Dev :=
  let d := (d.cnt .rxFrames f.port).cntBy .rxOctets f.port f.len
  if err = 0 then (d.cnt .rxFramesOk f.port).cntBy .rxOctetsOk f.port f.len else d.countRxErr f.port err

/-- A frame as its end leaves it. -/
def Frame.ending (f : Frame) (err endNo : Nat) : Frame :=
  let hv := f.px.hv.set 2 (f.hv 2 / 2 ^ 14 * 2 ^ 14 + f.len % 2 ^ 14)
  let px := { f.px with hv := if f.stage = .receiving || f.stage = .intake then f.px.hv else hv }
  { f with ended := true, err := err, px := px, learn := none, node := none, endNo := endNo }

/-- The end of a frame stands in the list. -/
def Dev.frameEnds (d : Dev) (f : Frame) (err : Nat) : Dev :=
  ({ d with path := { d.path with nextEnd := d.path.nextEnd + 1 } } : Dev).setFrame (f.ending err d.path.nextEnd)

/-- What an error does to the frame once its cells are stored (R79, R131). -/
def Dev.errorEnds (d : Dev) (i err : Nat) : Dev :=
  match d.frame i with
  | none => d
  | some g =>
    match g.stage with
    | .linked => d.reap i
    | .gone => d.reap i
    | .intake => d
    | .engine _ => d
    | _ => d.dropFrame g err

theorem Dev.path_rxCounted (d : Dev) (f : Frame) (err : Nat) : (d.rxCounted f err).path = d.path := by
  simp [Dev.rxCounted]

theorem Dev.finishRx_error (d : Dev) (f : Frame) {err : Nat} (he : err ≠ 0) :
    d.finishRx f err = (((d.rxCounted f err).frameEnds f err).storeCells f.id).errorEnds f.id err := by
  unfold Dev.finishRx Dev.rxCounted Dev.frameEnds Frame.ending Dev.errorEnds
  simp only [if_neg he] <;> rfl

theorem Dev.finishRx_whole (d : Dev) (f : Frame) :
    d.finishRx f 0 = (((((d.rxCounted f 0).frameEnds f 0).issueHeld f).storeCells f.id).offerSpill f.id).reap f.id := by
  unfold Dev.finishRx Dev.rxCounted Dev.frameEnds Frame.ending
  simp only [if_true]

/-- Only a linked frame is offered to the spill engine (R243). -/
theorem Dev.offerSpill_of_unlinked {d : Dev} {i : Nat} (h : ∀ f, d.frame i = some f → f.stage ≠ .linked) : d.offerSpill i = d := by
  unfold Dev.offerSpill
  split
  · next f c hf _ =>
    dsimp only
    rw [if_neg (by simp [h f hf])]
  · rfl

theorem Dev.issueHeld_of_none {d : Dev} {f : Frame} (hl : f.learn = none) (hn : f.node = none) : d.issueHeld f = d := by
  unfold Dev.issueHeld
  rw [hl, hn]

section
variable {d : Dev} {f : Frame} {P : Frame → Prop} (hP : Frame.Stays P)

/-- The frames of the number, as the end leaves them. -/
theorem Dev.frameEnds_holds {err : Nat} (hf : P (f.ending err d.path.nextEnd)) (hm : ∃ g ∈ d.path.frames, g.id = f.id) :
    (d.frameEnds f err).Holds f.id P :=
  Dev.Holds.ofSetFrame (d := { d with path := { d.path with nextEnd := d.path.nextEnd + 1 } }) rfl hf hm

namespace Dev.CellWork

variable {l : List Part} {ks : List Ctr} {b : Dev} (h : b.CellWork l ks d) (hl : cellParts ⊆ l)
include h hl

theorem frameEnds (err : Nat) : b.CellWork l ks (d.frameEnds f err) :=
  CellWork.setFrame (d := { d with path := { d.path with nextEnd := d.path.nextEnd + 1 } }) (h.setPath (hl (by decide))) hl

theorem errorEnds {i err : Nat} (hr : err < 0x40) (hd : d.Holds i P) (hb : .deck ∈ l ∨ ∀ f, P f → f.blocks = []) :
    b.CellWork l ks (d.errorEnds i err) := by
  unfold Dev.errorEnds
  split
  · exact h
  · next g hg =>
    have hdrop := h.dropFrame hl hr (hb.imp_right fun hx => hx g (hd.frame hg))
    split
    · exact h.reap hl
    · exact h.reap hl
    · exact h
    · exact h
    · exact hdrop

end Dev.CellWork

include hP

/-- The end of a frame with an error, past the MAC's counts. -/
theorem Dev.CellWork.finishRx_error {l : List Part} {ks : List Ctr} {b : Dev} {err : Nat} (h : b.CellWork l ks (d.rxCounted f err))
    (hl : cellParts ⊆ l) (he : err ≠ 0) (hr : err < 0x40) (hf : P (f.ending err d.path.nextEnd)) (hm : ∃ g ∈ d.path.frames, g.id = f.id)
    (hb : .deck ∈ l ∨ ∀ f, P f → f.blocks = []) : b.CellWork l ks (d.finishRx f err) := by
  rw [Dev.finishRx_error _ _ he]
  have hpath := d.path_rxCounted f err
  have hd : ((d.rxCounted f err).frameEnds f err).Holds f.id P :=
    Dev.frameEnds_holds (d := d.rxCounted f err) (by rwa [hpath]) (by rwa [hpath])
  exact ((h.frameEnds hl err).storeCells hl hP hd hb).errorEnds hl hr (hd.storeCells hP) hb

/-- The end of a whole frame that holds no event back and is not linked, past the MAC's counts. -/
theorem Dev.CellWork.finishRx_whole {l : List Part} {ks : List Ctr} {b : Dev} (h : b.CellWork l ks (d.rxCounted f 0))
    (hl : cellParts ⊆ l) (hf : P (f.ending 0 d.path.nextEnd)) (hm : ∃ g ∈ d.path.frames, g.id = f.id)
    (hb : .deck ∈ l ∨ ∀ f, P f → f.blocks = []) (hs : ∀ f, P f → f.stage ≠ .linked) (hlearn : f.learn = none) (hnode : f.node = none) :
    b.CellWork l ks (d.finishRx f 0) ∧ (d.finishRx f 0).Holds f.id P := by
  have hpath := d.path_rxCounted f 0
  have hd : ((d.rxCounted f 0).frameEnds f 0).Holds f.id P :=
    Dev.frameEnds_holds (d := d.rxCounted f 0) (by rwa [hpath]) (by rwa [hpath])
  have hst := hd.storeCells hP
  rw [Dev.finishRx_whole, Dev.issueHeld_of_none hlearn hnode, Dev.offerSpill_of_unlinked fun g hg => hs g (hst.frame hg)]
  exact ⟨((h.frameEnds hl 0).storeCells hl hP hd hb).reap hl, hst.reap⟩

end

end Sys2Proof.Machine

/-! PROOFS about preemption, auto-negotiation and training (R71, R74, R75, R86, R87). -/

namespace Sys2Proof.Machine

open Sys2Proof

/-! ### Fragments (R87) -/

/-- Components that a reception may change. -/
def rxParts : List Part := copyParts ++ [.deck]

/-- The counters of fragments. -/
def fragmentCtrs : List Ctr := [.rxPreemptFragments, .rxPreemptAssyError]

/-- A frame open on the preemptable MAC of a port. -/
def Frame.openFragment (n : Nat) (f : Frame) : Prop := f.port = n ∧ f.mac = 1 ∧ f.ended = false

theorem Frame.openFragment_stays (n : Nat) : Frame.Stays (Frame.openFragment n) :=
  ⟨fun _ _ h => h, fun _ h => h, fun _ h => h, fun _ h _ => h⟩

/-- The bytes of a fragment join the frame open in reassembly, or begin one. -/
def Dev.fragmentTaken (d : Dev) (n ago : Nat) (b : List Byte) : Dev := ((d.rxFrame n 1 ago).2.takeBytes (d.rxFrame n 1 ago).1 b).2

theorem Dev.fragmentTaken_effect (d : Dev) (n ago : Nat) (b : List Byte) :
    d.CellWork rxParts fragmentCtrs (d.fragmentTaken n ago b) ∧ ∃ f, (d.fragmentTaken n ago b).openRx n 1 = some f := by
  obtain ⟨hm, hn, hmac, hend, x, hx, -⟩ := Dev.rxFrame_effect (d := d) (n := n) (mac := 1) (ago := ago) rfl
  have hstays := Frame.openFragment_stays n
  have hf : Frame.openFragment n ((d.rxFrame n 1 ago).2.addBytes (d.rxFrame n 1 ago).1 b) := ⟨hn, hmac, hend⟩
  have hwork : d.CellWork rxParts fragmentCtrs (d.rxFrame n 1 ago).2 := hx ▸ (Dev.CellWork.refl d).setPath
  refine ⟨hwork.takeBytes hstays hf ⟨_, hm, rfl⟩ (by decide) (.inl (by decide)), ?_⟩
  obtain ⟨f, hg, ⟨hp, hc, he⟩, -⟩ := (Dev.takeBytes_holds hstays hf ⟨_, hm, rfl⟩).frameOpen fun _ ⟨_, _, hopen⟩ => hopen
  exact Dev.openRx_isSome (Dev.frame_some hg).1 hp hc he

/-- The rejection of the frame open in reassembly counts it once and closes reassembly. -/
theorem Dev.rejectAssy_effect {d e : Dev} {n : Nat} {f : Frame} (hf : d.openRx n 1 = some f) (he : e = d.rejectAssy n) :
    d.counted e .rxPreemptAssyError n 1 ∧ e.ctr .rxPreemptFragments n = d.ctr .rxPreemptFragments n ∧ (e.portSt n).reasm = none := by
  obtain ⟨hm, rfl, -, -⟩ := Dev.openRx_some hf
  have hfin : e = (d.setPortSt f.port { d.portSt f.port with reasm := none }).finishRx f 4 := by
    rw [he, Dev.rejectAssy]
    dsimp only
    rw [show (d.setPortSt f.port { d.portSt f.port with reasm := none }).openRx f.port 1 = some f from hf]
  generalize hx : d.setPortSt f.port { d.portSt f.port with reasm := none } = x at hfin
  have hctr : x.ctrs = d.ctrs := hx ▸ rfl
  have hw : (x.rxCounted f 4).CellWork rxParts fragmentCtrs e :=
    hfin ▸ CellWork.finishRx_error Frame.Stays.any (.refl _) (by decide) (by decide) (by decide) trivial
      ⟨f, by rwa [← hx], rfl⟩ (.inl (by decide))
  have hcount : x.rxCounted f 4 = (((x.cnt .rxFrames f.port).cntBy .rxOctets f.port f.len).cnt .rxPreemptAssyError f.port) := rfl
  rw [hcount] at hw
  refine ⟨?_, ?_, ?_⟩
  · refine (Dev.counted_cnt _ .rxPreemptAssyError f.port).congr ?_ (hw.ctrs _ (by decide) _ (fun h => absurd h (by decide)))
    rw [Dev.ctr_cntBy_code _ (by decide), Dev.ctr_cnt_code _ (by decide), Dev.ctr_congr hctr]
  · rw [hw.ctrs _ (by decide) _ (fun h => absurd h (by decide)), Dev.ctr_cnt_code _ (by decide), Dev.ctr_cntBy_code _ (by decide),
      Dev.ctr_cnt_code _ (by decide), Dev.ctr_congr hctr]
  · rw [hw.portSt, ← hx]
    exact congrArg PortSt.reasm (d.portSt_setPortSt_same _ _)

section
variable {d e : Dev} {n ago k : Nat} {b : List Byte} (hr : d.receives n = true) (hn : n < 256)
  (hen : d.flag (Reg.PORT_PREEMPT_CFG.EN n) = true) (hb : b ≠ [])
include hr hn hen hb

/-- A fragment that continues, or starts where none is open, and does not end the frame. -/
theorem fragmentRx_goesOn {start : Bool} (h : (start = true ∧ (d.portSt n).reasm = none) ∨ (start = false ∧ (d.portSt n).reasm = some (k % 4)))
    (he : e = fragmentRx n ago start k false b d) :
    d.counted e .rxPreemptFragments n 1 ∧ d.counted e .rxPreemptAssyError n 0 ∧
      (e.portSt n).reasm = some (if start then 0 else (k + 1) % 4) := by
  have hreasm : ((d.cnt .rxPreemptFragments n).portSt n).reasm = (d.portSt n).reasm := rfl
  obtain ⟨hw, -⟩ := (d.cnt .rxPreemptFragments n).fragmentTaken_effect n ago b
  have hform : e = ((d.cnt .rxPreemptFragments n).fragmentTaken n ago b).setPortSt n
      { ((d.cnt .rxPreemptFragments n).fragmentTaken n ago b).portSt n with reasm := some (if start then 0 else (k + 1) % 4) } := by
    rw [he, fragmentRx]
    dsimp only
    rw [if_pos (by simp [hr, hn, hen, hb]), hreasm]
    obtain ⟨rfl, ho⟩ | ⟨rfl, ho⟩ := h
    · rw [ho]
      rfl
    · rw [ho]
      simp only [Bool.false_and, Bool.false_eq_true, if_false, Bool.false_or, beq_self_eq_true, if_true]
      rfl
  generalize (d.cnt .rxPreemptFragments n).fragmentTaken n ago b = x at hw hform
  subst hform
  have hctr : ∀ c ∈ fragmentCtrs, (x.setPortSt n { x.portSt n with reasm := some (if start then 0 else (k + 1) % 4) }).ctr c n =
      (d.cnt .rxPreemptFragments n).ctr c n := fun c hc => hw.ctrs c hc n fun h => absurd h (by revert c; decide)
  refine ⟨(d.counted_cnt _ _).congr rfl (hctr _ (by decide)), ?_, by rw [Dev.portSt_setPortSt_same]⟩
  rw [Dev.counted, if_pos rfl, hctr _ (by decide), Dev.ctr_cnt_code _ (by decide)]

/-- A continuation with a wrong count, or with no frame open, is a reassembly error. -/
theorem fragmentRx_rejected {last : Bool}
    (h : (∃ j, (d.portSt n).reasm = some j ∧ j ≠ k % 4 ∧ (d.openRx n 1).isSome = true) ∨ (d.portSt n).reasm = none)
    (he : e = fragmentRx n ago false k last b d) :
    d.counted e .rxPreemptFragments n 1 ∧ d.counted e .rxPreemptAssyError n 1 ∧ (e.portSt n).reasm = none := by
  have hreasm : ((d.cnt .rxPreemptFragments n).portSt n).reasm = (d.portSt n).reasm := rfl
  obtain ⟨hw, f, hopen⟩ := (d.cnt .rxPreemptFragments n).fragmentTaken_effect n ago b
  obtain ⟨x, hx, hfrag, hassy, g, hg⟩ : ∃ x : Dev, e = x.rejectAssy n ∧
      x.ctr .rxPreemptFragments n = (d.cnt .rxPreemptFragments n).ctr .rxPreemptFragments n ∧
      x.ctr .rxPreemptAssyError n = d.ctr .rxPreemptAssyError n ∧ ∃ g, x.openRx n 1 = some g := by
    have hassy := d.ctr_cnt_code (c := .rxPreemptFragments) (k := .rxPreemptAssyError) (by decide) n n
    obtain ⟨j, ho, hj, hs⟩ | ho := h
    · refine ⟨d.cnt .rxPreemptFragments n, ?_, rfl, hassy, Option.isSome_iff_exists.mp hs⟩
      rw [he, fragmentRx]
      dsimp only
      rw [if_pos (by simp [hr, hn, hen, hb]), hreasm, ho]
      simp [hj]
    · refine ⟨_, ?_, hw.ctrs _ (by decide) _ fun h => absurd h (by decide),
        (hw.ctrs _ (by decide) _ fun h => absurd h (by decide)).trans hassy, f, hopen⟩
      rw [he, fragmentRx]
      dsimp only
      rw [if_pos (by simp [hr, hn, hen, hb]), hreasm, ho]
      rfl
  obtain ⟨hcount, hsame, hclosed⟩ := Dev.rejectAssy_effect hg hx
  exact ⟨(d.counted_cnt _ _).congr rfl (hsame.trans hfrag), hcount.congr hassy.symm rfl, hclosed⟩

end

/-! ### Verification (R86) -/

section
variable {d : Dev} {n : Nat}

theorem verifyTimeout_again (hv : d.rd (Reg.PORT_STATUS.VERIFY_STATUS n) = 1)
    (ht : (d.portSt n).verAt + d.rd (Reg.PORT_PREEMPT_CFG.VERIFY_TIME n) * 10 ^ 6 ≤ d.now) (h3 : (d.portSt n).verTries < 3) :
    verifyTimeout n d =
      (d.setPortSt n { d.portSt n with verTries := (d.portSt n).verTries + 1, verAt := d.now }).out (.mpacket n false) := by
  rw [verifyTimeout, if_pos (by simp only [hv, ht, decide_true, Bool.and_self]), if_pos h3]

theorem verifyTimeout_failed (hv : d.rd (Reg.PORT_STATUS.VERIFY_STATUS n) = 1)
    (ht : (d.portSt n).verAt + d.rd (Reg.PORT_PREEMPT_CFG.VERIFY_TIME n) * 10 ^ 6 ≤ d.now) (h3 : ¬ (d.portSt n).verTries < 3) :
    verifyTimeout n d = d.wr (Reg.PORT_STATUS.VERIFY_STATUS n) 3 := by
  rw [verifyTimeout, if_pos (by simp only [hv, ht, decide_true, Bool.and_self]), if_neg h3]

theorem verifyRx_verify (hr : d.receives n = true) (hn : n < 256) (he : d.flag (Reg.PORT_PREEMPT_CFG.EN n) = true) :
    verifyRx n false d = d.out (.mpacket n true) := by
  rw [verifyRx, if_pos (by simp [hr, hn, he])]
  rfl

theorem verifyRx_response {e : Dev} (hr : d.receives n = true) (hn : n < 256) (hen : d.flag (Reg.PORT_PREEMPT_CFG.EN n) = true)
    (hv : d.rd (Reg.PORT_STATUS.VERIFY_STATUS n) = 1) (he : e = verifyRx n true d) :
    e.rd (Reg.PORT_STATUS.VERIFY_STATUS n) = 2 ∧ e.flag (Reg.PORT_STATUS.PREEMPT_ACTIVE n) = true ∧
      d.regsBut e [Reg.PORT_STATUS.addr n] ∧ d.Within e [.regs] := by
  rw [verifyRx, if_pos (by simp [hr, hn, hen]), if_pos rfl, if_pos hv] at he
  subst he
  refine ⟨?_, Dev.flag_setFlag_same _ _ _ (show 22 + 1 ≤ 32 by decide) rfl, ?_, (Dev.Within.refl d _).wr.setFlag⟩
  · rw [Dev.setFlag_eq, Dev.rd_wr_disjoint _ (Reg.PORT_STATUS.PREEMPT_ACTIVE n) (Reg.PORT_STATUS.VERIFY_STATUS n) _
      (show 22 + 1 ≤ 32 by decide) rfl (.inl (show 20 + 2 ≤ 22 by decide))]
    exact Dev.rd_wr_same _ _ _ (show 20 + 2 ≤ 32 by decide)
  · exact ((Dev.regsBut.refl d _).wr (List.mem_singleton_self _)).setFlag (List.mem_singleton_self _)

end

/-! ### Auto-negotiation and training (R71, R74) -/

theorem fecOk_lt {m f : Nat} (h : fecOk m f = true) : f < 4 := by
  unfold fecOk at h
  split at h <;> simp at h <;> omega

theorem autonegComplete_effect {d e : Dev} {n fec : Nat} (hs : d.serves n = true) (han : d.flag (Reg.PORT_CFG.AN_EN n) = true)
    (hb : d.portBad n = false) (hf : fecOk (d.portMode n) fec = true) (hle : fec ≤ d.portFec n) (he : e = autonegComplete n fec d) :
    e.flag (Reg.PORT_STATUS.AN_DONE n) = true ∧ e.rd (Reg.PORT_STATUS.FEC_ACTIVE n) = fec ∧ d.regsBut e [Reg.PORT_STATUS.addr n] ∧
      d.Within e [.regs] := by
  rw [autonegComplete, if_pos (by simp [hs, han, hb, hf, hle])] at he
  subst he
  refine ⟨?_, ?_, ?_, (Dev.Within.refl d _).setFlag.wr⟩
  · rw [Dev.flag, Dev.rd_wr_disjoint _ (Reg.PORT_STATUS.FEC_ACTIVE n) (Reg.PORT_STATUS.AN_DONE n) _
      (show 18 + 2 ≤ 32 by decide) rfl (.inr (show 18 + 2 ≤ 28 by decide))]
    exact Dev.flag_setFlag_same _ _ _ (show 28 + 1 ≤ 32 by decide) rfl
  · rw [Dev.rd_wr_same _ _ _ (show 18 + 2 ≤ 32 by decide)]
    exact Nat.mod_eq_of_lt (fecOk_lt hf)
  · exact ((Dev.regsBut.refl d _).setFlag (List.mem_singleton_self _)).wr (List.mem_singleton_self _)

/-- The mode of a port depends on its group's mode, the module's choice and recovery. -/
theorem Dev.portMode_congr {d e : Dev} (hm : e.mods = d.mods) (hb : e.boot = d.boot)
    (hr : ∀ i, e.reg (Reg.PORT_GRP_MODE.addr i) = d.reg (Reg.PORT_GRP_MODE.addr i)) (n : Nat) : e.portMode n = d.portMode n := by
  unfold Dev.portMode Dev.modeOver
  have hrd : ∀ i, e.rd (Reg.PORT_GRP_MODE.MODE i) = d.rd (Reg.PORT_GRP_MODE.MODE i) := fun i => Dev.rd_congr_reg (hr i)
  rw [hm, hb, hrd, hrd]

theorem Dev.lanesOf_congr {d e : Dev} {n : Nat} (h : e.portMode n = d.portMode n) : e.lanesOf n = d.lanesOf n := by
  unfold Dev.lanesOf
  rw [h]

/-- The mode of a group is no register of a port's block but those at its start. -/
theorem grpMode_ne_portReg {off : Nat} (h0 : off ≠ 0) (ho : off < 0x1000) (i n : Nat) :
    Reg.PORT_GRP_MODE.addr i ≠ 0x01004000 + off + portBlock n := by
  have hn := portBlock_mod n
  simp only [Reg.PORT_GRP_MODE.addr]
  omega

theorem grpMode_ne_portStatus (i n : Nat) : Reg.PORT_GRP_MODE.addr i ≠ Reg.PORT_STATUS.addr n :=
  grpMode_ne_portReg (off := 8) (by decide) (by decide) i n

/-- The word of PORT_LANE_TXEQ_ACT that shows the coefficients of a lane. -/
def txeqWord (w : Nat) : Nat := w % 2 ^ 31

/-- What training writes: the coefficients of each lane, at its register. -/
def Dev.trainedRegs (d : Dev) (n : Nat) (co : List Nat) : List (Nat × Nat) :=
  ((d.lanesOf n).zip co).map fun x => (Reg.PORT_LANE_TXEQ_ACT.addr x.1.1 x.1.2, txeqWord x.2)

theorem foldl_lanes (g : Nat → Nat) (l : List ((Nat × Nat) × Nat)) (d : Dev) :
    l.foldl (fun (d : Dev) (l, w) => d.setReg (Reg.PORT_LANE_TXEQ_ACT.addr l.1 l.2) (BitVec.ofNat 32 (g w))) d =
      (l.map fun x => (Reg.PORT_LANE_TXEQ_ACT.addr x.1.1 x.1.2, g x.2)).foldl (fun (d : Dev) x => d.setReg x.1 (BitVec.ofNat 32 x.2)) d := by
  rw [List.foldl_map]

theorem Dev.lanesOf_ltDone (d : Dev) (n m : Nat) : (d.setFlag (Reg.PORT_STATUS.LT_DONE n) true).lanesOf m = d.lanesOf m :=
  Dev.lanesOf_congr (Dev.portMode_congr (d := d) (e := d.setFlag (Reg.PORT_STATUS.LT_DONE n) true) (by simp) (by simp)
    (fun i => Dev.reg_setFlag_ne _ _ _ _ (grpMode_ne_portStatus i n)) m)

theorem trainingComplete_eq {d : Dev} {n : Nat} {co : List Nat} (hr : d.boot.released = true) (hl : d.flag (Reg.PORT_CFG.LT_EN n) = true)
    (hb : d.portBad n = false) :
    trainingComplete n co d = (d.trainedRegs n co).foldl (fun (d : Dev) x => d.setReg x.1 (BitVec.ofNat 32 x.2))
      (d.setFlag (Reg.PORT_STATUS.LT_DONE n) true) := by
  rw [trainingComplete, if_pos (by simp [hr, hl, hb]), Dev.trainedRegs, ← d.lanesOf_ltDone n n, ← foldl_lanes] <;> rfl

theorem map_fst_zip_sublist {α β : Type} (l : List α) (m : List β) : ((l.zip m).map Prod.fst).Sublist l := by
  induction l generalizing m with
  | nil => exact .slnil
  | cons x l ih => cases m with
    | nil => exact List.nil_sublist _
    | cons y m => exact (ih m).cons_cons x

theorem txeqAct_inj {g j k : Nat} (h : Reg.PORT_LANE_TXEQ_ACT.addr g j = Reg.PORT_LANE_TXEQ_ACT.addr g k) : j = k := by
  simp only [Reg.PORT_LANE_TXEQ_ACT.addr] at h
  omega

section
variable (d : Dev) (n : Nat) (co : List Nat)

theorem Dev.mem_trainedRegs {x : Nat × Nat} (h : x ∈ d.trainedRegs n co) :
    ∃ l ∈ d.lanesOf n, x.1 = Reg.PORT_LANE_TXEQ_ACT.addr l.1 l.2 := by
  obtain ⟨⟨l, w⟩, hy, rfl⟩ := List.mem_map.mp h
  exact ⟨l, (List.of_mem_zip hy).1, rfl⟩

theorem Dev.nodup_trainedRegs : ((d.trainedRegs n co).map (·.1)).Nodup := by
  have hl : ((d.lanesOf n).map fun l => Reg.PORT_LANE_TXEQ_ACT.addr l.1 l.2).Nodup := by
    unfold Dev.lanesOf
    split
    · rw [List.map_map]
      refine List.Nodup.map_on (fun j _ k _ h => ?_) List.nodup_range
      exact Nat.add_left_cancel (txeqAct_inj h)
    · exact List.nodup_nil
  refine List.Nodup.sublist ?_ hl
  rw [Dev.trainedRegs, List.map_map,
    show (Prod.fst ∘ fun x : (Nat × Nat) × Nat => (Reg.PORT_LANE_TXEQ_ACT.addr x.1.1 x.1.2, txeqWord x.2)) =
      (fun l : Nat × Nat => Reg.PORT_LANE_TXEQ_ACT.addr l.1 l.2) ∘ Prod.fst from rfl, ← List.map_map]
  exact (map_fst_zip_sublist _ _).map _

theorem Dev.lane_lt {l : Nat × Nat} (h : l ∈ d.lanesOf n) : n < 256 ∧ l.1 = n / 4 ∧ l.2 < 8 := by
  unfold Dev.lanesOf modeWidth at h
  split at h
  · next hn =>
    obtain ⟨k, hk, rfl⟩ := List.mem_map.mp h
    rw [List.mem_range] at hk
    refine ⟨hn, rfl, ?_⟩
    dsimp only
    split at hk
    · omega
    · split at hk
      · omega
      · split at hk <;> omega
  · cases h

/-- The state of a port and the coefficients of its lanes stand apart. -/
theorem Dev.portStatus_ne_txeqAct {l : Nat × Nat} (h : l ∈ d.lanesOf n) : Reg.PORT_STATUS.addr n ≠ Reg.PORT_LANE_TXEQ_ACT.addr l.1 l.2 := by
  obtain ⟨hn, h1, h2⟩ := d.lane_lt n h
  simp only [Reg.PORT_STATUS.addr, portBlock, hn, if_true, Reg.PORT_LANE_TXEQ_ACT.addr, h1]
  omega

theorem Dev.lane_mem_trainedRegs {k : Nat} (hk : k < modeWidth (d.portMode n)) (hc : k < co.length) (hn : n < 256) :
    (Reg.PORT_LANE_TXEQ_ACT.addr (n / 4) (n % 4 + k), txeqWord (co.getD k 0)) ∈ d.trainedRegs n co := by
  have hlen : k < (d.lanesOf n).length := by simpa [Dev.lanesOf, hn] using hk
  refine List.mem_map.mpr ⟨((n / 4, n % 4 + k), co.getD k 0), ?_, rfl⟩
  refine List.mem_iff_getElem.mpr ⟨k, by simp [hlen, hc], ?_⟩
  simp [Dev.lanesOf, hn, hc]

end


theorem trainingComplete_effect {d e : Dev} {n : Nat} {co : List Nat} (hr : d.boot.released = true)
    (hl : d.flag (Reg.PORT_CFG.LT_EN n) = true) (hb : d.portBad n = false) (he : e = trainingComplete n co d) :
    e.flag (Reg.PORT_STATUS.LT_DONE n) = true ∧
      (∀ k, k < modeWidth (d.portMode n) → k < co.length → n < 256 →
        e.reg (Reg.PORT_LANE_TXEQ_ACT.addr (n / 4) (n % 4 + k)) = BitVec.ofNat 32 (txeqWord (co.getD k 0))) ∧
      (∀ a, a ≠ Reg.PORT_STATUS.addr n → (∀ l ∈ d.lanesOf n, a ≠ Reg.PORT_LANE_TXEQ_ACT.addr l.1 l.2) → e.reg a = d.reg a) ∧
      e = { d with regs := e.regs } := by
  rw [trainingComplete_eq hr hl hb] at he
  have hother : ∀ a, (∀ l ∈ d.lanesOf n, a ≠ Reg.PORT_LANE_TXEQ_ACT.addr l.1 l.2) →
      e.reg a = (d.setFlag (Reg.PORT_STATUS.LT_DONE n) true).reg a := fun a ha => by
    rw [he]
    refine reg_foldl_setReg_of_notMem _ _ _ fun hx => ?_
    obtain ⟨x, hmem, hxa⟩ := List.mem_map.mp hx
    obtain ⟨l, hlane, hxl⟩ := d.mem_trainedRegs n co hmem
    exact ha l hlane (hxa.symm.trans hxl)
  refine ⟨?_, fun k hk hc hn => ?_, fun a ha hx => ?_, ?_⟩
  · refine (Dev.flag_congr_reg (hother _ fun l hl => d.portStatus_ne_txeqAct n hl)).trans
      (Dev.flag_setFlag_same _ _ _ (show 27 + 1 ≤ 32 by decide) rfl)
  · have hmem := d.lane_mem_trainedRegs n co hk hc hn
    rw [he]
    exact reg_foldl_setReg_of_mem _ _ _ (d.nodup_trainedRegs n co) hmem
  · rw [hother a hx]
    exact d.reg_setFlag_ne _ _ _ ha
  · rw [he]
    exact ((Dev.Within.refl d [.regs]).setFlag.foldl fun _ _ h => h.setReg).eq

/-! ### The instructions -/

section
variable {d : Dev} (hl : d.hold.live = true) (q : List Instr)
include hl

theorem exec_preemptFragmentRx (n ago : Nat) (start : Bool) (k : Nat) (last : Bool) (b : List Byte) :
    exec (.preemptFragmentRx n ago start k last b) ⟨d, q⟩ = .next ⟨fragmentRx n ago start k last b d, q⟩ := State.on_live hl q _

theorem exec_preemptVerifyTimeout (n : Nat) : exec (.preemptVerifyTimeout n) ⟨d, q⟩ = .next ⟨verifyTimeout n d, q⟩ :=
  State.on_live hl q _

theorem exec_verifyMpacketRx (n : Nat) (r : Bool) : exec (.verifyMpacketRx n r) ⟨d, q⟩ = .next ⟨verifyRx n r d, q⟩ :=
  State.on_live hl q _

theorem exec_autonegComplete (n fec : Nat) : exec (.autonegComplete n fec) ⟨d, q⟩ = .next ⟨autonegComplete n fec d, q⟩ :=
  State.on_live hl q _

theorem exec_linkTrainingComplete (n : Nat) (co : List Nat) :
    exec (.linkTrainingComplete n co) ⟨d, q⟩ = .next ⟨trainingComplete n co d, q⟩ := State.on_live hl q _

end

theorem exec_rxAdaptUpdate (d : Dev) (q : List Instr) (n : Nat) : exec (.rxAdaptUpdate n) ⟨d, q⟩ = .next ⟨d, q⟩ := by
  show State.on ⟨d, q⟩ (rxAdaptUpdate n) = _
  unfold State.on State.always rxAdaptUpdate
  simp

end Sys2Proof.Machine

section

open Sys2Proof Sys2Proof.Machine

/-- Settles O14: fragments by what reassembly has open, verification by its attempts, and the lanes by their registers. -/
theorem preemptionAndLanes : Obligations.PreemptionAndLanes := by
  unfold Obligations.PreemptionAndLanes
  refine ⟨fun d q n ago k start b hl hr hn hen hb => ⟨fun hs ho => ?_, fun hs ho => ?_, fun last j hs ho hj hopen => ?_, fun last hs ho => ?_⟩,
    fun d q n hl hn hv ht => ⟨fun h3 => ?_, fun h3 => ?_⟩, fun d q n hl hr hn hen => ⟨?_, fun hv => ?_⟩, exec_rxAdaptUpdate,
    fun d q n fec hl hn hs han hb hf hle => ?_, fun d q n co hl hn hr hlt hb => ?_⟩
  · subst hs
    exact exec_leaves (exec_preemptFragmentRx hl q n ago true k false b) fun e he => fragmentRx_goesOn hr hn hen hb (.inl ⟨rfl, ho⟩) he
  · subst hs
    exact exec_leaves (exec_preemptFragmentRx hl q n ago false k false b) fun e he => fragmentRx_goesOn hr hn hen hb (.inr ⟨rfl, ho⟩) he
  · subst hs
    exact exec_leaves (exec_preemptFragmentRx hl q n ago false k last b) fun e he =>
      fragmentRx_rejected hr hn hen hb (.inl ⟨j, ho, hj, hopen⟩) he
  · subst hs
    exact exec_leaves (exec_preemptFragmentRx hl q n ago false k last b) fun e he => fragmentRx_rejected hr hn hen hb (.inr ho) he
  · refine exec_leaves (exec_preemptVerifyTimeout hl q n) fun e he => ?_
    rw [verifyTimeout_again hv ht h3] at he
    subst he
    have hsame := d.portSt_setPortSt_same n { d.portSt n with verTries := (d.portSt n).verTries + 1, verAt := d.now }
    exact ⟨congrArg PortSt.verTries hsame, congrArg PortSt.verAt hsame, rfl, fun m hm => d.portSt_setPortSt_ne _ hm, rfl⟩
  · exact exec_leaves (exec_preemptVerifyTimeout hl q n) fun e he => he.trans (verifyTimeout_failed hv ht h3)
  · exact exec_leaves (exec_verifyMpacketRx hl q n false) fun e he => he.trans (verifyRx_verify hr hn hen)
  · refine exec_leaves (exec_verifyMpacketRx hl q n true) fun e he => ?_
    obtain ⟨hstatus, hactive, hregs, hframe⟩ := verifyRx_response hr hn hen hv he
    exact ⟨hstatus, hactive, hregs, hframe.eq⟩
  · refine exec_leaves (exec_autonegComplete hl q n fec) fun e he => ?_
    obtain ⟨hdone, hfec, hregs, hframe⟩ := autonegComplete_effect hs han hb hf hle he
    exact ⟨hdone, hfec, hregs, hframe.eq⟩
  · exact exec_leaves (exec_linkTrainingComplete hl q n co) fun e he => trainingComplete_effect hr hlt hb he

end

/-! PROOFS about a link that falls (R89 to R91): the fields of PORT_STATUS, the pauses that clear, and what the fall keeps. -/

namespace Sys2Proof.Machine

open Sys2Proof

/-! ### Fields of PORT_STATUS -/

/-- A field of PORT_STATUS of port `n`. -/
abbrev statusField (n lo w : Nat) : FRef := ⟨Reg.PORT_STATUS.addr n, lo, w⟩

/-- Every field of PORT_STATUS of port `n` apart from those listed, by lowest bit and width, reads in `e` as in `d`. -/
def Dev.statusBut (d e : Dev) (n : Nat) (l : List (Nat × Nat)) : Prop :=
  ∀ lo w, (∀ x ∈ l, lo + w ≤ x.1 ∨ x.1 + x.2 ≤ lo) → e.rd (statusField n lo w) = d.rd (statusField n lo w)

theorem Dev.rd_wr_status_same (d : Dev) (n lo w v : Nat) (h : lo + w ≤ 32 := by decide) :
    (d.wr (statusField n lo w) v).rd (statusField n lo w) = v % 2 ^ w := d.rd_wr_same _ _ h

theorem Dev.flag_setFlag_status_same (d : Dev) (n lo : Nat) (b : Bool) (h : lo + 1 ≤ 32 := by decide) :
    (d.setFlag (statusField n lo 1) b).flag (statusField n lo 1) = b := d.flag_setFlag_same _ _ h rfl

namespace Dev.statusBut

variable {b d e : Dev} {n : Nat} {l : List (Nat × Nat)}

theorem refl (d : Dev) (n : Nat) (l : List (Nat × Nat)) : d.statusBut d n l := fun _ _ _ => rfl

theorem rd (h : d.statusBut e n l) {lo w : Nat} (hx : ∀ x ∈ l, lo + w ≤ x.1 ∨ x.1 + x.2 ≤ lo := by decide) :
    e.rd (statusField n lo w) = d.rd (statusField n lo w) := h lo w hx

theorem flag (h : d.statusBut e n l) {lo w : Nat} (hx : ∀ x ∈ l, lo + w ≤ x.1 ∨ x.1 + x.2 ≤ lo := by decide) :
    e.flag (statusField n lo w) = d.flag (statusField n lo w) := by
  rw [Dev.flag, h.rd hx, Dev.flag]

theorem trans (h : b.statusBut d n l) (h' : d.statusBut e n l) : b.statusBut e n l := fun lo w hx => (h' lo w hx).trans (h lo w hx)

theorem mono (h : d.statusBut e n l) {m : List (Nat × Nat)} (hl : ∀ x ∈ l, x ∈ m) : d.statusBut e n m := fun lo w hx =>
  h lo w fun x hm => hx x (hl x hm)

theorem of_reg (h : b.statusBut d n l) (hr : e.reg (Reg.PORT_STATUS.addr n) = d.reg (Reg.PORT_STATUS.addr n)) :
    b.statusBut e n l := fun lo w hx => (Dev.rd_congr_reg hr).trans (h lo w hx)

theorem wr (h : b.statusBut d n l) {lo w v : Nat} (ho : lo + w ≤ 32 ∧ (lo, w) ∈ l := by decide) :
    b.statusBut (d.wr (statusField n lo w) v) n l := fun lo' w' hx =>
  (d.rd_wr_disjoint (statusField n lo w) (statusField n lo' w') v ho.1 rfl (hx (lo, w) ho.2)).trans (h lo' w' hx)

theorem setFlag (h : b.statusBut d n l) {lo w : Nat} {v : Bool} (ho : lo + w ≤ 32 ∧ (lo, w) ∈ l := by decide) :
    b.statusBut (d.setFlag (statusField n lo w) v) n l := h.wr ho

end Dev.statusBut

/-! ### The pauses of a port's classes -/

theorem Dev.foldl_setPauseSt (g : PauseSt → PauseSt) (n : Nat) {l : List Nat} (hl : l.Nodup) (d : Dev) (c : Nat) :
    (l.foldl (fun (d : Dev) k => d.setPauseSt n k (g (d.pauseSt n k))) d).pauseSt n c =
      if c ∈ l then g (d.pauseSt n c) else d.pauseSt n c := by
  induction l generalizing d with
  | nil => rfl
  | cons k l ih =>
    obtain ⟨hk, hl⟩ := List.nodup_cons.mp hl
    rw [List.foldl_cons, ih hl]
    by_cases hc : c = k
    · subst hc
      rw [if_neg hk, if_pos List.mem_cons_self, Dev.pauseSt_setPauseSt_same]
    · rw [Dev.pauseSt_setPauseSt_ne _ _ (by omega)]
      simp only [List.mem_cons, hc, false_or]

theorem classes_nodup : classes.Nodup := by decide

theorem mem_classes {c : Nat} : c ∈ classes ↔ c < 8 := by
  unfold classes
  simp only [List.mem_cons, List.not_mem_nil, or_false]
  omega

/-- A change of every class's pause record. -/
def Dev.mapPauses (d : Dev) (n : Nat) (g : PauseSt → PauseSt) : Dev :=
  classes.foldl (fun (d : Dev) k => d.setPauseSt n k (g (d.pauseSt n k))) d

section
variable (d : Dev) (n : Nat) (g : PauseSt → PauseSt)

theorem Dev.pauseSt_mapPauses {c : Nat} (hc : c < 8) : (d.mapPauses n g).pauseSt n c = g (d.pauseSt n c) :=
  (Dev.foldl_setPauseSt g n classes_nodup d c).trans (if_pos (mem_classes.mpr hc))

theorem Dev.within_mapPauses : d.Within (d.mapPauses n g) [.ports] := (Dev.Within.refl d _).foldl fun _ _ h => h.setPauseSt

theorem Dev.port_mapPauses : (d.mapPauses n g).ports.port = d.ports.port :=
  List.foldlRecOn (motive := fun e : Dev => e.ports.port = d.ports.port) _ _ rfl fun _ he _ _ => he

theorem Dev.reg_mapPauses (a : Nat) : (d.mapPauses n g).reg a = d.reg a := Dev.reg_congr (d.within_mapPauses n g .regs (by decide)) a

end

/-! ### A link that is down -/

/-- The fields of PORT_STATUS that a link going down may write. -/
def downFields : List (Nat × Nat) := [(31, 1), (30, 1), (29, 1), (28, 1), (27, 1), (22, 1), (20, 2)]

/-- Components that a link going down may change. -/
def downParts : List Part := copyParts ++ [.deck, .look]

/-- `e` is what `d` becomes when the link of port `n` goes down, as far as the port's registers, its pauses and the count of falls go. -/
structure Dev.WentDown (n : Nat) (d e : Dev) : Prop where
  up : e.flag (Reg.PORT_STATUS.LINK_UP n) = false
  preempt : e.flag (Reg.PORT_STATUS.PREEMPT_ACTIVE n) = false
  verify : e.rd (Reg.PORT_STATUS.VERIFY_STATUS n) = 0
  status : d.statusBut e n downFields
  stat : e.reg (Reg.PORT_PAUSE_STAT.addr n) = 0
  pause : ∀ c, c < 8 → e.pauseSt n c = PauseSt.zero
  regs : ∀ a, portZone a → a ≠ Reg.PORT_STATUS.addr n → (∀ m, m < 258 → a ≠ Reg.PORT_PAUSE_STAT.addr m) → e.reg a = d.reg a
  events : d.counted e .linkDownEvents n (if d.flag (Reg.PORT_STATUS.LINK_UP n) then 1 else 0)
  within : d.Within e downParts

namespace Dev.WentDown

variable {d e x : Dev} {n : Nat}

/-- What the work on cells and copies makes of it. -/
theorem work {ks : List Ctr} (h : d.WentDown n x) (hn : n < 258) (hw : x.CellWork downParts ks e) (hk : .linkDownEvents ∈ ks) :
    d.WentDown n e where
  up := (hw.linkUp hn).trans h.up
  preempt := (Dev.flag_congr_reg (hw.status hn)).trans h.preempt
  verify := (Dev.rd_congr_reg (hw.status hn)).trans h.verify
  status := h.status.of_reg (hw.status hn)
  stat := (hw.down n hn h.up).1.trans h.stat
  pause c hc := ((hw.down n hn h.up).2 c hc).trans (h.pause c hc)
  regs a ha hs hp := (hw.regs a ha hp).trans (h.regs a ha hs hp)
  events := h.events.congr rfl (hw.ctrs _ hk _ fun hx => absurd hx (by decide))
  within := h.within.trans hw.within

theorem setPortSt (h : d.WentDown n x) (m : Nat) (s : PortSt) : d.WentDown n (x.setPortSt m s) :=
  { h with within := h.within.setPortSt }

/-- HOLD or FLUSHING is written. -/
theorem setFlag (h : d.WentDown n x) {lo : Nat} (b : Bool) (hlo : lo = 30 ∨ lo = 29) :
    d.WentDown n (x.setFlag (statusField n lo 1) b) := by
  have hone : x.statusBut (x.setFlag (statusField n lo 1) b) n [(lo, 1)] := Dev.statusBut.setFlag (.refl x n _) ⟨by omega, by simp⟩
  have hne : ∀ a, a ≠ Reg.PORT_STATUS.addr n → (x.setFlag (statusField n lo 1) b).reg a = x.reg a := fun a ha =>
    x.reg_setFlag_ne _ _ _ ha
  exact {
    up := (hone.flag (by simp; omega)).trans h.up
    preempt := (hone.flag (by simp; omega)).trans h.preempt
    verify := (hone.rd (by simp; omega)).trans h.verify
    status := h.status.setFlag ⟨by omega, by rcases hlo with rfl | rfl <;> decide⟩
    stat := (hne _ (portStatus_ne_pauseStat n n).symm).trans h.stat
    pause := h.pause
    regs := fun a ha hs hp => (hne a hs).trans (h.regs a ha hs hp)
    events := h.events
    within := h.within.setFlag }

end Dev.WentDown

/-! ### The fall itself -/

theorem Dev.clearPause_eq (d : Dev) (n : Nat) :
    d.clearPause n = (d.setReg (Reg.PORT_PAUSE_STAT.addr n) 0).mapPauses n fun _ => PauseSt.zero := rfl

section
variable (d : Dev) (n : Nat)

theorem Dev.linkLost_within : d.Within (d.linkLost n) [.regs, .ctrs, .ctrOvf] := by
  unfold Dev.linkLost
  split
  · exact (Dev.Within.refl d _).cnt.setFlag
  · exact .refl d _

theorem Dev.linkLost_ctr (k : Ctr) (hk : k.code ≠ Ctr.code .linkDownEvents) (i : Nat) : (d.linkLost n).ctr k i = d.ctr k i := by
  unfold Dev.linkLost
  split
  · rw [Dev.ctr_setFlag, Dev.ctr_cnt_code _ hk]
  · rfl

theorem Dev.linkLost_counted : d.counted (d.linkLost n) .linkDownEvents n (if d.flag (Reg.PORT_STATUS.LINK_UP n) then 1 else 0) := by
  unfold Dev.linkLost
  split
  · exact (d.counted_cnt _ _).congr rfl (Dev.ctr_setFlag _ _ _ _ _)
  · rfl

theorem Dev.linkLost_status : d.statusBut (d.linkLost n) n downFields := by
  unfold Dev.linkLost
  split
  · exact Dev.statusBut.setFlag (lo := 31) (w := 1) (.of_reg (.refl d n _) rfl)
  · exact .refl d n _

theorem Dev.linkLost_reg {a : Nat} (ha : a ≠ Reg.PORT_STATUS.addr n) : (d.linkLost n).reg a = d.reg a := by
  unfold Dev.linkLost
  split
  · exact Dev.reg_setFlag_ne _ _ _ _ ha
  · rfl

end

/-- Preemption, auto-negotiation and training of a port end. -/
def Dev.flagsCleared (d : Dev) (n : Nat) : Dev :=
  (((d.setFlag (Reg.PORT_STATUS.PREEMPT_ACTIVE n) false).wr (Reg.PORT_STATUS.VERIFY_STATUS n) 0).setFlag
    (Reg.PORT_STATUS.AN_DONE n) false).setFlag (Reg.PORT_STATUS.LT_DONE n) false

section
variable (d : Dev) (n : Nat)

theorem Dev.flagsCleared_status : d.statusBut (d.flagsCleared n) n [(28, 1), (27, 1), (22, 1), (20, 2)] :=
  .setFlag (lo := 27) (w := 1) (.setFlag (lo := 28) (w := 1) (.wr (lo := 20) (w := 2) (.setFlag (lo := 22) (w := 1) (.refl d n _))))

theorem Dev.flagsCleared_after (y : Dev) :
    y.statusBut ((y.setFlag (Reg.PORT_STATUS.AN_DONE n) false).setFlag (Reg.PORT_STATUS.LT_DONE n) false) n [(28, 1), (27, 1)] :=
  .setFlag (lo := 27) (w := 1) (.setFlag (lo := 28) (w := 1) (.refl y n _))

theorem Dev.flagsCleared_preempt : (d.flagsCleared n).flag (Reg.PORT_STATUS.PREEMPT_ACTIVE n) = false := by
  refine ((Dev.flagsCleared_after n _).flag (lo := 22) (w := 1)).trans ?_
  have hv := Dev.statusBut.wr (lo := 20) (w := 2) (v := 0) (l := [(20, 2)])
    (.refl (d.setFlag (Reg.PORT_STATUS.PREEMPT_ACTIVE n) false) n _)
  exact (hv.flag (lo := 22) (w := 1)).trans (d.flag_setFlag_status_same n 22 false)

theorem Dev.flagsCleared_verify : (d.flagsCleared n).rd (Reg.PORT_STATUS.VERIFY_STATUS n) = 0 :=
  ((Dev.flagsCleared_after n _).rd (lo := 20) (w := 2)).trans (Dev.rd_wr_status_same _ n 20 2 0)

theorem Dev.flagsCleared_reg {a : Nat} (ha : a ≠ Reg.PORT_STATUS.addr n) : (d.flagsCleared n).reg a = d.reg a := by
  rw [Dev.flagsCleared, Dev.reg_setFlag_ne _ _ _ _ ha, Dev.reg_setFlag_ne _ _ _ _ ha, Dev.reg_wr_ne _ _ _ _ ha,
    Dev.reg_setFlag_ne _ _ _ _ ha]

theorem Dev.flagsCleared_within : d.Within (d.flagsCleared n) [.regs] := (Dev.Within.refl d _).setFlag.wr.setFlag.setFlag

end

/-- What the fall writes before receptions are cut off. -/
def Dev.linkCleared (d : Dev) (n : Nat) : Dev := ((d.linkLost n).clearPause n).flagsCleared n

section
variable {d y : Dev} {n : Nat}

/-- Only the port's pauses change, in PORT_PAUSE_STAT and in its records. -/
theorem Dev.clearPause_effect (hy : y = d.clearPause n) :
    y.reg (Reg.PORT_PAUSE_STAT.addr n) = 0 ∧ (∀ a, a ≠ Reg.PORT_PAUSE_STAT.addr n → y.reg a = d.reg a) ∧
      (∀ c, c < 8 → y.pauseSt n c = PauseSt.zero) ∧ y.ports.port = d.ports.port ∧ d.Within y [.regs, .ports] := by
  rw [Dev.clearPause_eq] at hy
  subst hy
  refine ⟨?_, fun a ha => ?_, fun c hc => Dev.pauseSt_mapPauses _ _ _ hc, Dev.port_mapPauses _ _ _,
    ((Dev.Within.refl d [.regs, .ports]).setReg).trans (Dev.within_mapPauses _ _ _).mono⟩
  · rw [Dev.reg_mapPauses, Dev.reg_setReg_same]
  · rw [Dev.reg_mapPauses, Dev.reg_setReg_ne _ _ _ _ ha]

theorem Dev.linkCleared_wentDown (d : Dev) {n : Nat} (hn : n < 258) : d.WentDown n (d.linkCleared n) := by
  obtain ⟨hstat, hreg, hpause, -, hwithin⟩ := Dev.clearPause_effect (d := d.linkLost n) (n := n) rfl
  have hstatus := hreg _ (portStatus_ne_pauseStat n n)
  have hlater := Dev.flagsCleared_status ((d.linkLost n).clearPause n) n
  have hwx := Dev.flagsCleared_within ((d.linkLost n).clearPause n) n
  exact {
    up := (hlater.flag (lo := 31) (w := 1)).trans ((Dev.flag_congr_reg hstatus).trans (d.flag_linkLost n))
    preempt := Dev.flagsCleared_preempt _ n
    verify := Dev.flagsCleared_verify _ n
    status := ((d.linkLost_status n).of_reg hstatus).trans (hlater.mono (by decide))
    stat := (Dev.flagsCleared_reg _ n (portStatus_ne_pauseStat n n).symm).trans hstat
    pause := fun c hc => (Dev.pauseSt_congr (congrArg PortsSt.pause (hwx .ports (by decide))) n c).trans (hpause c hc)
    regs := fun a _ hs hp => (Dev.flagsCleared_reg _ n hs).trans ((hreg a (hp n hn)).trans (d.linkLost_reg n hs))
    events := (d.linkLost_counted n).congr rfl
      ((Dev.ctr_congr (hwx .ctrs (by decide)) _ _).trans (Dev.ctr_congr (hwithin .ctrs (by decide)) _ _))
    within := ((d.linkLost_within n).mono.trans hwithin.mono).trans hwx.mono }

theorem Dev.linkCleared_port (d : Dev) (n : Nat) : (d.linkCleared n).ports.port = d.ports.port := by
  obtain ⟨-, -, -, hport, -⟩ := Dev.clearPause_effect (d := d.linkLost n) (n := n) rfl
  have hwx := Dev.flagsCleared_within ((d.linkLost n).clearPause n) n
  exact (congrArg PortsSt.port (hwx .ports (by decide))).trans (hport.trans (congrArg PortsSt.port (d.linkLost_within n .ports (by decide))))

theorem Dev.linkCleared_path (d : Dev) (n : Nat) : (d.linkCleared n).path = d.path := by
  obtain ⟨-, -, -, -, hwithin⟩ := Dev.clearPause_effect (d := d.linkLost n) (n := n) rfl
  have hwx := Dev.flagsCleared_within ((d.linkLost n).clearPause n) n
  exact (hwx .path (by decide)).trans ((hwithin .path (by decide)).trans (d.linkLost_within n .path (by decide)))

theorem Dev.linkCleared_ctr (d : Dev) (n : Nat) (k : Ctr) (hk : k.code ≠ Ctr.code .linkDownEvents) (i : Nat) :
    (d.linkCleared n).ctr k i = d.ctr k i := by
  obtain ⟨-, -, -, -, hwithin⟩ := Dev.clearPause_effect (d := d.linkLost n) (n := n) rfl
  have hwx := Dev.flagsCleared_within ((d.linkLost n).clearPause n) n
  rw [Dev.linkCleared, Dev.ctr_congr (hwx .ctrs (by decide)), Dev.ctr_congr (hwithin .ctrs (by decide)), d.linkLost_ctr n k hk]

end

/-! ### Receptions cut off (R89) -/

/-- The counters of frames that end. -/
def rxEndCtrs : List Ctr :=
  [.rxFrames, .rxOctets, .rxFramesOk, .rxOctetsOk, .rxRunt, .rxFcsError, .rxOversize, .rxPreemptAssyError]

namespace Dev.CellWork

variable {l : List Part} {ks : List Ctr} {b d : Dev}

/-- The MAC's counts of an error, where they are not among the counters listed. -/
theorem rxCounted (h : b.CellWork l ks d) (hl : cellParts ⊆ l) (hk : ∀ k ∈ ks, k.code ∉ rxEndCtrs.map Ctr.code) (f : Frame) (err : Nat) :
    b.CellWork l ks (d.rxCounted f err) := by
  have hc := hl (show Part.ctrs ∈ cellParts by decide)
  have ho := hl (show Part.ctrOvf ∈ cellParts by decide)
  have step : ∀ {x : Dev} (c : Ctr) (i n : Nat), c ∈ rxEndCtrs → b.CellWork l ks x → b.CellWork l ks (x.cntBy c i n) :=
    fun c _ _ hm hx => hx.cntBy (fun k hm' he => hk k hm' (he ▸ List.mem_map_of_mem hm)) hc ho
  have hx : b.CellWork l ks ((d.cnt .rxFrames f.port).cntBy .rxOctets f.port f.len) :=
    step .rxOctets _ _ (by decide) (step .rxFrames _ 1 (by decide) h)
  refine .ite (step .rxOctetsOk _ _ (by decide) (step .rxFramesOk _ 1 (by decide) hx)) ?_
  unfold Dev.countRxErr
  split
  · exact step .rxRunt _ 1 (by decide) hx
  · exact step .rxFcsError _ 1 (by decide) hx
  · exact step .rxOversize _ 1 (by decide) hx
  · exact step .rxPreemptAssyError _ 1 (by decide) hx
  · exact hx

/-- A reception cut off. -/
theorem cutRx (h : b.CellWork l ks d) (hl : cellParts ⊆ l) (hd : .deck ∈ l) (hk : ∀ k ∈ ks, k.code ∉ rxEndCtrs.map Ctr.code) (n mac : Nat) :
    b.CellWork l ks (d.cutRx n mac) := by
  unfold Dev.cutRx
  split
  · exact h
  · next f hf =>
    have hfin : ∀ err, err ≠ 0 → err < 0x40 → b.CellWork l ks (d.finishRx f err) := fun err h0 h40 =>
      CellWork.finishRx_error Frame.Stays.any (h.rxCounted hl hk f err) hl h0 h40 trivial ⟨f, (Dev.openRx_some hf).1, rfl⟩ (.inl hd)
    have herr : ∀ {a b : Prop} [Decidable a] [Decidable b] (c : Bool),
        (if a then 4 else if b then 1 else if c then 5 else 2) ≠ 0 ∧ (if a then 4 else if b then 1 else if c then 5 else 2) < 0x40 :=
      fun c => by split_ifs <;> decide
    exact .ite (h.delFrame hl) (hfin _ (herr _).1 (herr _).2)

/-- The removal of learned entries starts. -/
theorem startRemoval (h : b.CellWork l ks d) (hr : .regs ∈ l := by decide) (hx : .look ∈ l := by decide) (n : Nat) :
    b.CellWork l ks (d.startRemoval n) := by
  refine h.foldl fun e p hp he => CellWork.setFlag (r := Reg.LKUP_TBL_STATUS.FLUSHING p) (he.setLook hx) (not_portZone (.inr ?_)) hr
  simp only [Reg.LKUP_TBL_STATUS.FLUSHING, Reg.LKUP_TBL_STATUS.addr]
  omega

end Dev.CellWork

/-! ### The fall as a whole -/

/-- The counters that a fall keeps once the link is down. -/
def downCtrs : List Ctr := [.linkDownEvents, .drop]

section
variable (d : Dev) (n : Nat)

/-- A fall up to the end of the receptions. -/
def Dev.rxCut : Dev := ((d.linkCleared n).cutRx n 0).cutRx n 1

theorem Dev.rxCut_work : (d.linkCleared n).CellWork downParts downCtrs (d.rxCut n) :=
  ((Dev.CellWork.refl _).cutRx (by decide) (by decide) (by decide) n 0).cutRx (by decide) (by decide) (by decide) n 1

/-- The record of a port whose link fell. -/
def PortSt.fallen (s : PortSt) : PortSt := { s with reasm := none, upPending := false }

theorem Dev.linkFalls_eq : d.linkFalls n =
    let x := (d.rxCut n).setPortSt n ((d.rxCut n).portSt n).fallen
    if x.flag (Reg.PORT_CFG.KEEP_LEARNED n) then x else x.startRemoval n := rfl

theorem Dev.linkFalls_work : ((d.rxCut n).setPortSt n ((d.rxCut n).portSt n).fallen).CellWork downParts downCtrs (d.linkFalls n) := by
  rw [Dev.linkFalls_eq]
  exact .ite (.refl _) (Dev.CellWork.startRemoval (.refl _) (by decide) (by decide) n)

theorem Dev.linkFalls_portSt : (d.linkFalls n).portSt n = (d.portSt n).fallen := by
  rw [(d.linkFalls_work n).portSt, Dev.portSt_setPortSt_same, (d.rxCut_work n).portSt, Dev.portSt_congr (d.linkCleared_port n)]

variable {n} (hn : n < 258)
include hn

theorem Dev.linkFalls_wentDown : d.WentDown n (d.linkFalls n) :=
  (((d.linkCleared_wentDown hn).work hn (d.rxCut_work n) (by decide)).setPortSt n _).work hn (d.linkFalls_work n) (by decide)

omit hn in
/-- A fall drops no copy. -/
theorem Dev.linkFalls_drops (i : Nat) (hi : 0x40 ≤ i ∧ i < 0x100) : (d.linkFalls n).ctr .drop i = d.ctr .drop i := by
  rw [(d.linkFalls_work n).ctrs .drop (by decide) i fun _ => hi]
  exact ((d.rxCut_work n).ctrs .drop (by decide) i fun _ => hi).trans (d.linkCleared_ctr n .drop (by decide) i)

end

/-! ### Hold and flush (R90) -/

theorem Dev.flag_setPortSt (d : Dev) (n : Nat) (s : PortSt) (r : FRef) : (d.setPortSt n s).flag r = d.flag r := rfl

section
variable {d x e : Dev} {n : Nat}

/-- Copies that are cut, once the link is down. -/
theorem Dev.WentDown.cutCopies (h : d.WentDown n x) (hn : n < 258) (r : Nat) (p : Copy → Bool) : d.WentDown n (x.cutCopies r p) :=
  h.work (ks := [.linkDownEvents]) hn (Dev.CellWork.cutCopies (.refl x) (by decide) (by decide)) (by decide)

/-- A flush begins: step 3b of R90 before its copies are cut. -/
def Dev.flushBegun (d : Dev) (n : Nat) : Dev :=
  let d := (d.setFlag (Reg.PORT_STATUS.HOLD n) false).setFlag (Reg.PORT_STATUS.FLUSHING n) true
  d.setPortSt n { d.portSt n with holdEnd := none }

theorem Dev.flushPort_eq (d : Dev) (n : Nat) : d.flushPort n = (d.flushBegun n).cutCopies 0x41 fun c => c.dst == n := rfl

theorem Dev.flushBegun_effect (he : e = d.flushBegun n) :
    e.flag (Reg.PORT_STATUS.HOLD n) = false ∧ e.flag (Reg.PORT_STATUS.FLUSHING n) = true ∧
      e.portSt n = { d.portSt n with holdEnd := none } ∧ e.ctrs = d.ctrs ∧ e.path = d.path ∧ d.Within e [.regs, .ports] := by
  subst he
  have hw : d.Within (d.flushBegun n) [.regs, .ports] := (Dev.Within.refl d _).setFlag.setFlag.setPortSt
  have hport : ((d.setFlag (Reg.PORT_STATUS.HOLD n) false).setFlag (Reg.PORT_STATUS.FLUSHING n) true).portSt n = d.portSt n :=
    Dev.portSt_congr (by simp) n
  have hset : (d.flushBegun n).portSt n = { d.portSt n with holdEnd := none } := by
    rw [Dev.flushBegun, Dev.portSt_setPortSt_same, hport]
  refine ⟨?_, (Dev.flag_setPortSt _ _ _ _).trans (Dev.flag_setFlag_status_same _ n 29 true), hset, hw .ctrs (by decide), hw .path (by decide), hw⟩
  have hone := Dev.statusBut.setFlag (lo := 29) (w := 1) (v := true) (l := [(29, 1)]) (.refl (d.setFlag (Reg.PORT_STATUS.HOLD n) false) n _)
  exact (Dev.flag_setPortSt _ _ _ _).trans ((hone.flag (lo := 30) (w := 1)).trans (d.flag_setFlag_status_same n 30 false))

/-- A field of the port's status, once copies are cut. -/
theorem Dev.cutCopies_status (d : Dev) {n : Nat} (hn : n < 258) (r : Nat) (p : Copy → Bool) :
    (d.cutCopies r p).reg (Reg.PORT_STATUS.addr n) = d.reg (Reg.PORT_STATUS.addr n) :=
  (Dev.CellWork.cutCopies (l := copyParts) (ks := []) (.refl d) (by decide) (by simp)).status hn

theorem Dev.cutCopies_portSt (d : Dev) (r : Nat) (p : Copy → Bool) (n : Nat) : (d.cutCopies r p).portSt n = d.portSt n :=
  (Dev.CellWork.cutCopies (l := copyParts) (ks := []) (.refl d) (by decide) (by simp)).portSt n

theorem Dev.flushPort_effect (hn : n < 258) (he : e = d.flushPort n) :
    e.flag (Reg.PORT_STATUS.HOLD n) = false ∧ e.flag (Reg.PORT_STATUS.FLUSHING n) = true ∧
      e.portSt n = { d.portSt n with holdEnd := none } := by
  obtain ⟨hhold, hflush, hport, -⟩ := Dev.flushBegun_effect (d := d) (n := n) rfl
  have hs := (d.flushBegun n).cutCopies_status hn 0x41 fun c => c.dst == n
  rw [he, Dev.flushPort_eq]
  exact ⟨(Dev.flag_congr_reg hs).trans hhold, (Dev.flag_congr_reg hs).trans hflush, (Dev.cutCopies_portSt _ _ _ _).trans hport⟩

theorem Dev.WentDown.flushPort (h : d.WentDown n x) (hn : n < 258) : d.WentDown n (x.flushPort n) :=
  Dev.WentDown.cutCopies (((h.setFlag (lo := 30) false (.inl rfl)).setFlag (lo := 29) true (.inr rfl)).setPortSt n _) hn _ _

/-- LINK_HOLD is none of the registers that a fall writes. -/
theorem Dev.WentDown.linkHold (h : d.WentDown n x) (hn : n < 258) :
    x.rd (Reg.PORT_LINK_TIMING.LINK_HOLD n) = d.rd (Reg.PORT_LINK_TIMING.LINK_HOLD n) := by
  refine Dev.rd_congr_reg (h.regs _ (portReg_zone (off := 4) (by decide) hn) ?_ fun m _ => ?_)
  · simp only [Reg.PORT_LINK_TIMING.LINK_HOLD, Reg.PORT_LINK_TIMING.addr, Reg.PORT_STATUS.addr]
    omega
  · exact portReg_ne_pauseStat (off := 4) (by decide) (by decide) n m

/-- A fall and the cut of the copies that no Hold keeps: those being sent, and those of frames by command. -/
def Dev.heldBack (d : Dev) (n : Nat) : Dev :=
  let d := (d.linkFalls n).cutCopies 0x41 fun c => c.dst == n && c.txAt.isSome
  let cmd := (d.path.frames.filter fun f => f.cmd).map fun (f : Frame) => f.id
  d.cutCopies 0x41 fun c => c.dst == n && cmd.contains c.frame

/-- Hold begins. -/
def Dev.holdBegun (d : Dev) (n t : Nat) : Dev :=
  (d.setFlag (Reg.PORT_STATUS.HOLD n) true).setPortSt n { d.portSt n with holdEnd := some t }

theorem Dev.enterHold_eq (d : Dev) (n : Nat) : d.enterHold n =
    if (d.heldBack n).rd (Reg.PORT_LINK_TIMING.LINK_HOLD n) = 0 then (d.heldBack n).flushPort n
    else (d.heldBack n).holdBegun n ((d.heldBack n).now + (d.heldBack n).rd (Reg.PORT_LINK_TIMING.LINK_HOLD n) * 1000) := rfl

theorem Dev.heldBack_wentDown (d : Dev) (hn : n < 258) : d.WentDown n (d.heldBack n) :=
  ((d.linkFalls_wentDown hn).cutCopies hn _ _).cutCopies hn _ _

theorem Dev.heldBack_portSt (d : Dev) (n : Nat) : (d.heldBack n).portSt n = (d.portSt n).fallen := by
  unfold Dev.heldBack
  rw [Dev.cutCopies_portSt, Dev.cutCopies_portSt, Dev.linkFalls_portSt]

theorem Dev.enterHold_wentDown (d : Dev) (hn : n < 258) : d.WentDown n (d.enterHold n) := by
  have h := d.heldBack_wentDown hn
  rw [Dev.enterHold_eq]
  split
  · exact h.flushPort hn
  · exact (h.setFlag (lo := 30) true (.inl rfl)).setPortSt n _

theorem Dev.enterHold_held (hn : n < 258) (hh : d.rd (Reg.PORT_LINK_TIMING.LINK_HOLD n) ≠ 0) (he : e = d.enterHold n) :
    e.flag (Reg.PORT_STATUS.HOLD n) = true ∧ (e.portSt n).reasm = none ∧
      (e.portSt n).holdEnd = some (d.now + d.rd (Reg.PORT_LINK_TIMING.LINK_HOLD n) * 1000) := by
  have h := d.heldBack_wentDown hn
  rw [Dev.enterHold_eq, h.linkHold hn, if_neg hh, show (d.heldBack n).now = d.now from h.within .now (by decide)] at he
  subst he
  refine ⟨(Dev.flag_setPortSt _ _ _ _).trans (Dev.flag_setFlag_status_same _ n 30 true), ?_⟩
  rw [Dev.holdBegun, Dev.portSt_setPortSt_same, Dev.heldBack_portSt]
  exact ⟨rfl, rfl⟩

theorem Dev.enterHold_flushed (hn : n < 258) (hh : d.rd (Reg.PORT_LINK_TIMING.LINK_HOLD n) = 0) (he : e = d.enterHold n) :
    e.flag (Reg.PORT_STATUS.HOLD n) = false ∧ e.flag (Reg.PORT_STATUS.FLUSHING n) = true ∧ (e.portSt n).reasm = none ∧
      (e.portSt n).holdEnd = none := by
  have h := d.heldBack_wentDown hn
  rw [Dev.enterHold_eq, h.linkHold hn, if_pos hh] at he
  obtain ⟨hhold, hflush, hport⟩ := Dev.flushPort_effect hn he
  rw [hport, Dev.heldBack_portSt]
  exact ⟨hhold, hflush, rfl, rfl⟩

end

end Sys2Proof.Machine

/-! PROOFS about pause toward the peer (R76, R82, R83): a new value of PORT_PAUSE_CFG, and the repetition of XOFF. -/

namespace Sys2Proof.Machine

open Sys2Proof

/-! ### PORT_PAUSE_CFG as a register (R15, R27) -/

/-- PORT_PAUSE_CFG as the register table declares it. -/
def pauseCfgDecl : RDecl :=
  ⟨"PORT_PAUSE_CFG", [(0x01004010, [(64, 0x10000), (4, 0x1000)]), (0x01404010, [(2, 0x10000)])], [0x0000FFFF],
    [⟨30, 2, .rw, true, .any⟩, ⟨29, 1, .rw, true, .any⟩, ⟨28, 1, .rw, true, .any⟩, ⟨16, 8, .rw, true, .any⟩, ⟨0, 16, .rw, true, .any⟩]⟩

/-- A block of registers has none at this address. -/
def blockMisses (a : Nat) (b : Nat × List (Nat × Nat)) : Prop := a < b.1 ∨ matchDims b.2 (a - b.1) = none

/-- Group unit and block of a port: four ports to a group, a unit each for MG0 and MG1. -/
theorem portBlock_split {n : Nat} (hn : n < 258) :
    ∃ g k, portBlock n = 0x10000 * g + 0x1000 * k ∧
      ((g < 64 ∧ k < 4 ∧ n = 4 * g + k) ∨ (64 ≤ g ∧ g < 66 ∧ k = 0 ∧ n = 256 + (g - 64))) := by
  unfold portBlock
  split
  · exact ⟨n / 4, n % 4, rfl, .inl (by omega)⟩
  · exact ⟨64 + (n - 256), 0, by omega, .inr (by omega)⟩

section
variable {n : Nat} (hn : n < 258)
include hn

theorem portOfAddr_pauseCfg : portOfAddr (Reg.PORT_PAUSE_CFG.addr n) = some n := by
  obtain ⟨g, k, hp, hg⟩ := portBlock_split hn
  simp only [portOfAddr, Reg.PORT_PAUSE_CFG.addr, hp]
  rw [if_pos (by omega)]
  obtain ⟨hg, hk, hn⟩ | ⟨hg, hg', rfl, hn⟩ := hg
  · rw [if_pos (by omega)]
    exact congrArg some (by omega)
  · rw [if_neg (by omega), if_pos (by omega)]
    exact congrArg some (by omega)

/-- The registers of zone PORT before PORT_PAUSE_CFG lie elsewhere. -/
theorem pauseCfg_missed : ∀ x ∈ regZone1.take 7, ∀ b ∈ x.blocks, blockMisses (Reg.PORT_PAUSE_CFG.addr n) b := by
  obtain ⟨g, k, hp, hg⟩ := portBlock_split hn
  simp only [regZone1, List.take_succ_cons, List.take_zero, List.forall_mem_cons, List.not_mem_nil, false_imp_iff, implies_true, and_true,
    blockMisses, matchDims, Reg.PORT_PAUSE_CFG.addr, hp, Option.map_eq_none_iff, ite_eq_right_iff, reduceCtorEq]
  omega

omit hn in
/-- A block that has a register at this address, after blocks that have none. -/
theorem blocks_found {r : RDecl} {a : Nat} {b : Nat × List (Nat × Nat)} {l m : List (Nat × List (Nat × Nat))} {ix : List Nat}
    (hl : ∀ x ∈ l, blockMisses a x) (ha : ¬ a < b.1) (hb : matchDims b.2 (a - b.1) = some ix) :
    ((l ++ b :: m).findSome? fun b => if a < b.1 then none else (matchDims b.2 (a - b.1)).map (r, ·)) = some (r, ix) := by
  refine List.findSome?_eq_some_iff.mpr ⟨l, b, m, rfl, ?_, fun x hx => ?_⟩
  · rw [if_neg ha, hb, Option.map_some]
  · obtain hlt | hnone := hl x hx
    · exact if_pos hlt
    · rw [hnone]
      exact ite_self _

theorem pauseCfg_found :
    ∃ ix, (pauseCfgDecl.blocks.findSome? fun b => if Reg.PORT_PAUSE_CFG.addr n < b.1 then none else
      (matchDims b.2 (Reg.PORT_PAUSE_CFG.addr n - b.1)).map (pauseCfgDecl, ·)) = some (pauseCfgDecl, ix) := by
  obtain ⟨g, k, hp, hg⟩ := portBlock_split hn
  have ha : Reg.PORT_PAUSE_CFG.addr n = 0x01004010 + (0x10000 * g + 0x1000 * k) := by rw [Reg.PORT_PAUSE_CFG.addr, hp]
  generalize Reg.PORT_PAUSE_CFG.addr n = a at ha ⊢
  obtain ⟨hg, hk, -⟩ | ⟨hg, hg', rfl, -⟩ := hg
  · refine ⟨[g, k], blocks_found (l := []) (by simp) (by dsimp only; omega) ?_⟩
    dsimp only [matchDims]
    rw [if_pos (by omega), if_pos (by omega), if_pos (by omega), show (a - 0x01004010) / 0x10000 = g by omega,
      show (a - 0x01004010) % 0x10000 / 0x1000 = k by omega, Option.map_some, Option.map_some]
  · refine ⟨[g - 64], blocks_found (l := [(0x01004010, [(64, 0x10000), (4, 0x1000)])]) (by simp [blockMisses, matchDims]; omega)
      (by dsimp only; omega) ?_⟩
    dsimp only [matchDims]
    rw [if_pos (by omega), if_pos (by omega), show (a - 0x01404010) / 0x10000 = g - 64 by omega, Option.map_some]

theorem findReg_pauseCfg : ∃ ix, findReg (Reg.PORT_PAUSE_CFG.addr n) = some (pauseCfgDecl, ix) := by
  obtain ⟨ix, hix⟩ := pauseCfg_found hn
  have hzone : Reg.PORT_PAUSE_CFG.addr n / 2 ^ 24 = 1 := by
    have := portBlock_le hn
    simp only [Reg.PORT_PAUSE_CFG.addr]
    omega
  refine ⟨ix, ?_⟩
  rw [findReg, hzone]
  refine List.findSome?_eq_some_iff.mpr ⟨regZone1.take 7, pauseCfgDecl, regZone1.drop 8, rfl, hix, fun x hx => ?_⟩
  refine List.findSome?_eq_none_iff.mpr fun b hb => ?_
  obtain hlt | hnone := pauseCfg_missed hn x hx b hb
  · exact if_pos hlt
  · rw [hnone]
    exact ite_self _

end

/-! ### The new value -/

/-- The word of PORT_PAUSE_CFG after a privileged write. -/
def pauseCfgWord (old v : Word) : Word :=
  fput (fput (fput (fput (fput old 30 2 (fget v 30 2)) 29 1 (fget v 29 1)) 28 1 (fget v 28 1)) 16 8 (fget v 16 8)) 0 16 (fget v 0 16)

theorem writeWord_pauseCfg (old v : Word) : writeWord true pauseCfgDecl old v 0 = pauseCfgWord old v := rfl

theorem fget_pauseCfgWord (old v : Word) :
    ∀ f ∈ ([(30, 2), (29, 1), (28, 1), (16, 8), (0, 16)] : List (Nat × Nat)), fget (pauseCfgWord old v) f.1 f.2 = fget v f.1 f.2 := by
  have hself : ∀ lo wd, fget v lo wd % 2 ^ wd = fget v lo wd := fun lo wd => Nat.mod_mod _ _
  simp (disch := decide) only [pauseCfgWord, List.forall_mem_cons, fget_fput_same, fget_fput_disjoint, hself, List.not_mem_nil,
    false_imp_iff, implies_true, and_true]

theorem pauseCfg_ne_status (n : Nat) : Reg.PORT_PAUSE_CFG.addr n ≠ Reg.PORT_STATUS.addr n := by
  simp only [Reg.PORT_PAUSE_CFG.addr, Reg.PORT_STATUS.addr]
  omega

theorem pauseCfg_ne_pauseStat (n m : Nat) : Reg.PORT_PAUSE_CFG.addr n ≠ Reg.PORT_PAUSE_STAT.addr m :=
  portReg_ne_pauseStat (off := 0x10) (by decide) (by decide) n m

section
variable {d e : Dev} {n v : Nat} (hn : n < 258)
include hn

/-- The write of PORT_PAUSE_CFG sets its word, and CFG_CLAMP of the port. -/
theorem writeReg_pauseCfg (d : Dev) (w : Word) :
    ∃ b, d.writeReg true (Reg.PORT_PAUSE_CFG.addr n) w 0 =
      (d.setReg (Reg.PORT_PAUSE_CFG.addr n) (pauseCfgWord (d.reg (Reg.PORT_PAUSE_CFG.addr n)) w)).setFlag
        (Reg.PORT_STATUS.CFG_CLAMP n) b := by
  obtain ⟨ix, hf⟩ := findReg_pauseCfg hn
  refine ⟨clamped pauseCfgDecl w, ?_⟩
  rw [Dev.writeReg, hf, portOfAddr_pauseCfg hn]
  dsimp only
  rw [writeWord_pauseCfg, if_pos (by decide)]

theorem pauseCfg_written (he : e = d.writeReg true (Reg.PORT_PAUSE_CFG.addr n) (BitVec.ofNat 32 v) 0) :
    (∀ f ∈ ([(30, 2), (29, 1), (28, 1), (16, 8), (0, 16)] : List (Nat × Nat)),
      e.rd ⟨Reg.PORT_PAUSE_CFG.addr n, f.1, f.2⟩ = v / 2 ^ f.1 % 2 ^ f.2) ∧
      d.regsBut e [Reg.PORT_PAUSE_CFG.addr n, Reg.PORT_STATUS.addr n] ∧ d.Within e [.regs] := by
  obtain ⟨b, hb⟩ := writeReg_pauseCfg hn d (BitVec.ofNat 32 v)
  rw [hb] at he
  have hreg : e.reg (Reg.PORT_PAUSE_CFG.addr n) = pauseCfgWord (d.reg (Reg.PORT_PAUSE_CFG.addr n)) (BitVec.ofNat 32 v) := by
    rw [he, Dev.reg_setFlag_ne _ _ _ _ (pauseCfg_ne_status n), Dev.reg_setReg_same]
  refine ⟨fun f hf => ?_, ?_, ?_⟩
  · have hw : f.1 + f.2 ≤ 32 := by
      revert f
      decide
    rw [Dev.rd, hreg, fget_pauseCfgWord _ _ f hf, fget_ofNat _ _ _ hw]
  · rw [he]
    exact ((Dev.regsBut.refl d _).setReg List.mem_cons_self).setFlag (List.mem_cons_of_mem _ (List.mem_singleton_self _))
  · rw [he]
    exact (Dev.Within.refl d _).setReg.setFlag

end

/-! ### Pause sent, and its watermarks (R83) -/

/-- Components that pause toward the peer may change. -/
def pauseParts : List Part := [.regs, .ctrs, .ctrOvf, .wire, .ports]

/-- Only PORT_PAUSE_STAT of port `n` differs among the registers, and only the components of pause. -/
structure Dev.PauseWork (n : Nat) (d e : Dev) : Prop where
  regs : d.regsBut e [Reg.PORT_PAUSE_STAT.addr n]
  within : d.Within e pauseParts

namespace Dev.PauseWork

variable {b d e : Dev} {n : Nat}

theorem refl (n : Nat) (d : Dev) : d.PauseWork n d := ⟨.refl d _, .refl d _⟩

theorem trans (h : b.PauseWork n d) (h' : d.PauseWork n e) : b.PauseWork n e := ⟨h.regs.trans h'.regs, h.within.trans h'.within⟩

theorem ite {c : Prop} [Decidable c] (h : b.PauseWork n d) (he : b.PauseWork n e) : b.PauseWork n (if c then d else e) := by
  split
  · exact h
  · exact he

theorem wr (h : b.PauseWork n d) {lo w v : Nat} : b.PauseWork n (d.wr ⟨Reg.PORT_PAUSE_STAT.addr n, lo, w⟩ v) :=
  ⟨h.regs.wr (List.mem_singleton_self _), h.within.wr⟩

theorem mapPauses (h : b.PauseWork n d) {g : PauseSt → PauseSt} : b.PauseWork n (d.mapPauses n g) :=
  h.trans ⟨fun a _ => d.reg_mapPauses n g a, (d.within_mapPauses n g).mono⟩

theorem sendPause (h : b.PauseWork n d) {mode : Nat} {cs : List Nat} {x : Bool} : b.PauseWork n (d.sendPause n mode cs x) := by
  have hm := List.mem_singleton_self (Reg.PORT_PAUSE_STAT.addr n)
  unfold Dev.sendPause
  refine .ite ⟨?_, ?_⟩ ⟨?_, ?_⟩
  · exact (h.regs.foldl fun _ _ h => (h.cnt.setBitOf hm).setPauseSt).out
  · exact (h.within.foldl fun _ _ h => h.cnt.setBitOf.setPauseSt).out
  · exact (h.regs.cnt.wr hm).setPauseSt.out
  · exact h.within.cnt.wr.setPauseSt.out

theorem evalPause (h : b.PauseWork n d) : b.PauseWork n (d.evalPause n) := by
  unfold Dev.evalPause
  refine .ite h ?_
  dsimp only
  split
  · exact .ite (.ite h.sendPause h) (.ite h h.sendPause)
  · exact .ite (.ite h h.sendPause) (.sendPause (.ite h h.sendPause))
  · exact h

end Dev.PauseWork

/-! ### A change of PORT_PAUSE_CFG (R82, R83) -/

/-- Received pause of a class ends. -/
def PauseSt.released (s : PauseSt) : PauseSt := { s with rxEnd := none }

/-- What a change of MODE or TX_EN does: XON in the old format, and every pair afresh. -/
def Dev.txChanged (d : Dev) (n : Nat) (old : Word) : Dev :=
  let new := d.reg (Reg.PORT_PAUSE_CFG.addr n)
  let oldMode := match fget old 30 2 with
    | 1 => 1
    | 2 => if n < 256 then 2 else 0
    | _ => 0
  if fget old 30 2 ≠ fget new 30 2 || fget old 29 1 ≠ fget new 29 1 then
    let xs := classes.filter fun c => d.bitOf (Reg.PORT_PAUSE_STAT.TX_XOFF n) c
    let d := if xs.isEmpty || !d.linkUp n || oldMode = 0 then d else d.sendPause n oldMode xs false
    (d.wr (Reg.PORT_PAUSE_STAT.TX_XOFF n) 0).evalPause n
  else d

/-- Received pause of every class ends. -/
def Dev.rxReleased (d : Dev) (n : Nat) : Dev := (d.wr (Reg.PORT_PAUSE_STAT.RX_PAUSED n) 0).mapPauses n PauseSt.released

theorem Dev.pauseChanged_eq (d : Dev) (n : Nat) (old : Word) : d.pauseChanged n old =
    if fget old 30 2 ≠ fget (d.reg (Reg.PORT_PAUSE_CFG.addr n)) 30 2 || fget old 28 1 ≠ fget (d.reg (Reg.PORT_PAUSE_CFG.addr n)) 28 1 then
      (d.txChanged n old).rxReleased n
    else d.txChanged n old := rfl

section
variable {d e : Dev} {n : Nat} {old : Word}

theorem Dev.txChanged_work (d : Dev) (n : Nat) (old : Word) : d.PauseWork n (d.txChanged n old) :=
  .ite (.evalPause (.wr (.ite (.refl n d) (.sendPause (.refl n d))))) (.refl n d)

theorem Dev.rxReleased_effect (d : Dev) (n : Nat) :
    (d.rxReleased n).rd (Reg.PORT_PAUSE_STAT.RX_PAUSED n) = 0 ∧ ∀ c, c < 8 → ((d.rxReleased n).pauseSt n c).rxEnd = none := by
  refine ⟨?_, fun c hc => ?_⟩
  · rw [Dev.rxReleased, Dev.rd_congr_reg (Dev.reg_mapPauses _ _ _ _)]
    exact Dev.rd_wr_same _ _ _ (show 8 + 8 ≤ 32 by decide)
  · rw [Dev.rxReleased, Dev.pauseSt_mapPauses _ _ _ hc]
    rfl

theorem Dev.pauseChanged_work (d : Dev) (n : Nat) (old : Word) : d.PauseWork n (d.pauseChanged n old) := by
  rw [Dev.pauseChanged_eq]
  exact .ite (.mapPauses (.wr (d.txChanged_work n old))) (d.txChanged_work n old)

theorem Dev.pauseChanged_released
    (h : fget old 30 2 ≠ fget (d.reg (Reg.PORT_PAUSE_CFG.addr n)) 30 2 ∨ fget old 28 1 ≠ fget (d.reg (Reg.PORT_PAUSE_CFG.addr n)) 28 1)
    (he : e = d.pauseChanged n old) :
    e.rd (Reg.PORT_PAUSE_STAT.RX_PAUSED n) = 0 ∧ ∀ c, c < 8 → (e.pauseSt n c).rxEnd = none := by
  rw [Dev.pauseChanged_eq, if_pos (by simpa using h)] at he
  exact he ▸ (d.txChanged n old).rxReleased_effect n

end

/-! ### CFG_ERR, and a configuration that holds the port down (R69, R70, R76, R93) -/

/-- Addresses of the registers that decide whether a configuration holds a port down: the start of each block, and zone MODL. -/
def configZone (a : Nat) : Prop := a % 0x1000 = 0 ∨ 0x01420000 ≤ a

theorem not_configZone_portReg {off n : Nat} (h0 : off ≠ 0) (ho : off < 0x1000) (hn : n < 258) :
    ¬ configZone (0x01004000 + off + portBlock n) := by
  have hm := portBlock_mod n
  have hle := portBlock_le hn
  unfold configZone
  omega

section
variable {d e : Dev} (h : ∀ a, configZone a → e.reg a = d.reg a)
include h

theorem Dev.cageOf_congr (n : Nat) : e.cageOf n = d.cageOf n := by
  have hz : ∀ c, configZone (Reg.MODL_CAGE_CFG.addr c) := fun c => .inr (by simp only [Reg.MODL_CAGE_CFG.addr]; omega)
  have hen : ∀ c, e.flag (Reg.MODL_CAGE_CFG.EN c) = d.flag (Reg.MODL_CAGE_CFG.EN c) := fun c => Dev.flag_congr_reg (h _ (hz c))
  have hgroup : ∀ c, e.rd (Reg.MODL_CAGE_CFG.GROUP c) = d.rd (Reg.MODL_CAGE_CFG.GROUP c) := fun c => Dev.rd_congr_reg (h _ (hz c))
  have hfirst : ∀ c, e.rd (Reg.MODL_CAGE_CFG.FIRST_LANE c) = d.rd (Reg.MODL_CAGE_CFG.FIRST_LANE c) := fun c =>
    Dev.rd_congr_reg (h _ (hz c))
  have hwidth : ∀ c, e.rd (Reg.MODL_CAGE_CFG.WIDTH c) = d.rd (Reg.MODL_CAGE_CFG.WIDTH c) := fun c => Dev.rd_congr_reg (h _ (hz c))
  unfold Dev.cageOf
  simp only [hen, hgroup, hfirst, hwidth]

theorem Dev.cageBad_congr (hm : e.mods = d.mods) (n : Nat) : e.cageBad n = d.cageBad n := by
  have herr : ∀ c, e.flag (Reg.MODL_CAGE_STATUS.CFG_ERR c) = d.flag (Reg.MODL_CAGE_STATUS.CFG_ERR c) := fun c =>
    Dev.flag_congr_reg (h _ (.inr (by simp only [Reg.MODL_CAGE_STATUS.CFG_ERR, Reg.MODL_CAGE_STATUS.addr]; omega)))
  unfold Dev.cageBad Dev.cage
  simp only [Dev.cageOf_congr h, herr, hm]

theorem Dev.portBad_congr (hm : e.mods = d.mods) (hb : e.boot = d.boot) (n : Nat) : e.portBad n = d.portBad n := by
  have hcfg : configZone (Reg.PORT_CFG.addr n) := by
    have := portBlock_mod n
    simp only [configZone, Reg.PORT_CFG.addr]
    omega
  have hfec : e.rd (Reg.PORT_CFG.FEC n) = d.rd (Reg.PORT_CFG.FEC n) := Dev.rd_congr_reg (h _ hcfg)
  have han : e.flag (Reg.PORT_CFG.AN_EN n) = d.flag (Reg.PORT_CFG.AN_EN n) := Dev.flag_congr_reg (h _ hcfg)
  have hlt : e.flag (Reg.PORT_CFG.LT_EN n) = d.flag (Reg.PORT_CFG.LT_EN n) := Dev.flag_congr_reg (h _ hcfg)
  have hmode : e.portMode n = d.portMode n := Dev.portMode_congr hm hb (fun i => h _ (.inl (by simp only [Reg.PORT_GRP_MODE.addr]; omega))) n
  unfold Dev.portBad Dev.portFec Dev.modeOver
  simp only [hmode, hfec, han, hlt, Dev.cageBad_congr h hm, hm, hb]

end

section
variable {d e : Dev} {n : Nat}

/-- CFG_ERR follows the configuration. -/
def Dev.cfgErrShown (d : Dev) (n : Nat) : Dev :=
  d.setFlag (Reg.PORT_STATUS.CFG_ERR n)
    (d.portBad n || (decide (256 ≤ n) && d.rd (Reg.PORT_PAUSE_CFG.MODE n) == 2) || classes.any fun c => !d.pairPauses n c)

theorem Dev.portCheck_eq (d : Dev) (n : Nat) : d.portCheck n =
    if (d.cfgErrShown n).portBad n && (d.cfgErrShown n).linkUp n then (d.cfgErrShown n).enterHold n else d.cfgErrShown n := rfl

theorem Dev.cfgErrShown_pfc (hn : 256 ≤ n) (hm : d.rd (Reg.PORT_PAUSE_CFG.MODE n) = 2) :
    (d.cfgErrShown n).flag (Reg.PORT_STATUS.CFG_ERR n) = true := by
  rw [Dev.cfgErrShown]
  refine (d.flag_setFlag_status_same n 24 _).trans ?_
  simp [hn, hm]

variable (hn : n < 258)
include hn

theorem Dev.portCheck_cfg (d : Dev) : (d.portCheck n).reg (Reg.PORT_PAUSE_CFG.addr n) = d.reg (Reg.PORT_PAUSE_CFG.addr n) := by
  have hset := d.reg_setFlag_ne (Reg.PORT_STATUS.CFG_ERR n)
    (d.portBad n || (decide (256 ≤ n) && d.rd (Reg.PORT_PAUSE_CFG.MODE n) == 2) || classes.any fun c => !d.pairPauses n c) _ (pauseCfg_ne_status n)
  rw [Dev.portCheck_eq]
  split
  · exact (((d.cfgErrShown n).enterHold_wentDown hn).regs _ (portReg_zone (off := 0x10) (by decide) hn) (pauseCfg_ne_status n)
      fun m _ => pauseCfg_ne_pauseStat n m).trans hset
  · exact hset

/-- CFG_ERR outlives the fall that a bad configuration brings. -/
theorem Dev.portCheck_pfc (h256 : 256 ≤ n) (hm : d.rd (Reg.PORT_PAUSE_CFG.MODE n) = 2) :
    (d.portCheck n).flag (Reg.PORT_STATUS.CFG_ERR n) = true := by
  rw [Dev.portCheck_eq]
  split
  · exact (((d.cfgErrShown n).enterHold_wentDown hn).status.flag (lo := 24) (w := 1)).trans (Dev.cfgErrShown_pfc h256 hm)
  · exact Dev.cfgErrShown_pfc h256 hm

/-- Received pause that has ended stays ended. -/
theorem Dev.portCheck_released (hr : d.rd (Reg.PORT_PAUSE_STAT.RX_PAUSED n) = 0) (hp : ∀ c, c < 8 → (d.pauseSt n c).rxEnd = none) :
    (d.portCheck n).rd (Reg.PORT_PAUSE_STAT.RX_PAUSED n) = 0 ∧ ∀ c, c < 8 → ((d.portCheck n).pauseSt n c).rxEnd = none := by
  rw [Dev.portCheck_eq]
  split
  · have hdown := (d.cfgErrShown n).enterHold_wentDown hn
    refine ⟨?_, fun c hc => congrArg PauseSt.rxEnd (hdown.pause c hc)⟩
    rw [Dev.rd, show (Reg.PORT_PAUSE_STAT.RX_PAUSED n).addr = Reg.PORT_PAUSE_STAT.addr n from rfl, hdown.stat]
    simp [fget]
  · have hports : (d.cfgErrShown n).ports = d.ports := by simp [Dev.cfgErrShown]
    refine ⟨(Dev.rd_congr_reg (d.reg_setFlag_ne _ _ _ (portStatus_ne_pauseStat n n).symm)).trans hr, fun c hc => ?_⟩
    rw [Dev.pauseSt_congr (congrArg PortsSt.pause hports), hp c hc]

/-- Without a configuration that holds the port down only CFG_ERR is written. -/
theorem Dev.portCheck_good (hb : d.portBad n = false) :
    d.regsBut (d.portCheck n) [Reg.PORT_STATUS.addr n] ∧ d.Within (d.portCheck n) [.regs] := by
  have hstatus : ¬ configZone (Reg.PORT_STATUS.addr n) := not_configZone_portReg (off := 8) (by decide) (by decide) hn
  have hne : ∀ a, configZone a → a ≠ Reg.PORT_STATUS.addr n := fun a ha he => hstatus (he ▸ ha)
  have hgood : (d.cfgErrShown n).portBad n = false :=
    (Dev.portBad_congr (fun a ha => d.reg_setFlag_ne _ _ _ (hne a ha)) (by simp) (by simp) n).trans hb
  rw [Dev.portCheck_eq, hgood, Bool.false_and, if_neg Bool.false_ne_true]
  exact ⟨(Dev.regsBut.refl d _).setFlag (List.mem_singleton_self _), (Dev.Within.refl d _).setFlag⟩

end

/-! ### PAUSE_CFG_CHANGE -/

section
variable {d e : Dev} {n v : Nat} (hn : n < 258)
include hn

theorem pauseCfgChange_eq (d : Dev) (v : Nat) : pauseCfgChange n v d =
    ((d.writeReg true (Reg.PORT_PAUSE_CFG.addr n) (BitVec.ofNat 32 v) 0).pauseChanged n (d.reg (Reg.PORT_PAUSE_CFG.addr n))).portCheck n := by
  rw [pauseCfgChange, if_pos hn]

theorem pauseCfgChange_fields (he : e = pauseCfgChange n v d) :
    ∀ f ∈ ([(30, 2), (29, 1), (28, 1), (16, 8), (0, 16)] : List (Nat × Nat)),
      e.rd ⟨Reg.PORT_PAUSE_CFG.addr n, f.1, f.2⟩ = v / 2 ^ f.1 % 2 ^ f.2 := fun f hf => by
  obtain ⟨hfields, -, -⟩ := pauseCfg_written (d := d) (v := v) hn rfl
  rw [pauseCfgChange_eq hn] at he
  generalize d.writeReg true (Reg.PORT_PAUSE_CFG.addr n) (BitVec.ofNat 32 v) 0 = w at he hfields
  have hkeep := (w.pauseChanged_work n (d.reg (Reg.PORT_PAUSE_CFG.addr n))).regs (Reg.PORT_PAUSE_CFG.addr n)
    (by simpa using pauseCfg_ne_pauseStat n n)
  rw [he, Dev.rd_congr_reg ((Dev.portCheck_cfg hn _).trans hkeep)]
  exact hfields f hf

theorem pauseCfgChange_pfc (h256 : 256 ≤ n) (hv : v / 2 ^ 30 % 4 = 2) (he : e = pauseCfgChange n v d) :
    e.flag (Reg.PORT_STATUS.CFG_ERR n) = true := by
  obtain ⟨hfields, -, -⟩ := pauseCfg_written (d := d) (v := v) hn rfl
  rw [pauseCfgChange_eq hn] at he
  generalize d.writeReg true (Reg.PORT_PAUSE_CFG.addr n) (BitVec.ofNat 32 v) 0 = w at he hfields
  have hkeep := (w.pauseChanged_work n (d.reg (Reg.PORT_PAUSE_CFG.addr n))).regs (Reg.PORT_PAUSE_CFG.addr n)
    (by simpa using pauseCfg_ne_pauseStat n n)
  rw [he]
  exact Dev.portCheck_pfc hn h256 ((Dev.rd_congr_reg hkeep).trans ((hfields (30, 2) (by decide)).trans hv))

theorem pauseCfgChange_released
    (h : d.rd (Reg.PORT_PAUSE_CFG.MODE n) ≠ v / 2 ^ 30 % 4 ∨ d.rd (Reg.PORT_PAUSE_CFG.RX_EN n) ≠ v / 2 ^ 28 % 2)
    (he : e = pauseCfgChange n v d) :
    e.rd (Reg.PORT_PAUSE_STAT.RX_PAUSED n) = 0 ∧ ∀ c, c < 8 → (e.pauseSt n c).rxEnd = none := by
  obtain ⟨hfields, -, -⟩ := pauseCfg_written (d := d) (v := v) hn rfl
  rw [pauseCfgChange_eq hn] at he
  generalize d.writeReg true (Reg.PORT_PAUSE_CFG.addr n) (BitVec.ofNat 32 v) 0 = w at he hfields
  have hmode : fget (w.reg (Reg.PORT_PAUSE_CFG.addr n)) 30 2 = v / 2 ^ 30 % 4 := hfields (30, 2) (by decide)
  have hrx : fget (w.reg (Reg.PORT_PAUSE_CFG.addr n)) 28 1 = v / 2 ^ 28 % 2 := hfields (28, 1) (by decide)
  obtain ⟨hr, hp⟩ := Dev.pauseChanged_released (d := w) (n := n) (old := d.reg (Reg.PORT_PAUSE_CFG.addr n)) (by rwa [hmode, hrx]) rfl
  rw [he]
  exact Dev.portCheck_released hn hr hp

theorem pauseCfgChange_good (hb : d.portBad n = false) (he : e = pauseCfgChange n v d) :
    d.regsBut e [Reg.PORT_PAUSE_CFG.addr n, Reg.PORT_PAUSE_STAT.addr n, Reg.PORT_STATUS.addr n] ∧ d.Within e pauseParts := by
  obtain ⟨-, hwregs, hwithin⟩ := pauseCfg_written (d := d) (v := v) hn rfl
  rw [pauseCfgChange_eq hn] at he
  generalize d.writeReg true (Reg.PORT_PAUSE_CFG.addr n) (BitVec.ofNat 32 v) 0 = w at he hwregs hwithin
  have hwork := w.pauseChanged_work n (d.reg (Reg.PORT_PAUSE_CFG.addr n))
  generalize w.pauseChanged n (d.reg (Reg.PORT_PAUSE_CFG.addr n)) = p at he hwork
  have hregs : d.regsBut p [Reg.PORT_PAUSE_CFG.addr n, Reg.PORT_PAUSE_STAT.addr n, Reg.PORT_STATUS.addr n] :=
    (hwregs.mono (by simp)).trans (hwork.regs.mono (by simp))
  have hp : d.Within p pauseParts := hwithin.mono.trans hwork.within
  have hcfg : ¬ configZone (Reg.PORT_PAUSE_CFG.addr n) := not_configZone_portReg (off := 0x10) (by decide) (by decide) hn
  have hstat : ¬ configZone (Reg.PORT_PAUSE_STAT.addr n) := not_configZone_portReg (off := 0x18) (by decide) (by decide) hn
  have hstatus : ¬ configZone (Reg.PORT_STATUS.addr n) := not_configZone_portReg (off := 8) (by decide) (by decide) hn
  have hconfig : ∀ a, configZone a → p.reg a = d.reg a := fun a ha => hregs a fun hm => by
    simp only [List.mem_cons, List.not_mem_nil, or_false] at hm
    obtain rfl | rfl | rfl := hm
    · exact hcfg ha
    · exact hstat ha
    · exact hstatus ha
  obtain ⟨hce, hcw⟩ := Dev.portCheck_good hn ((Dev.portBad_congr hconfig (hp .mods (by decide)) (hp .boot (by decide)) n).trans hb)
  rw [he]
  exact ⟨hregs.trans (hce.mono (by simp)), hp.trans hcw.mono⟩

end

/-! ### XOFF_REPEAT -/

section
variable {d e : Dev} {n c : Nat}

/-- A PFC frame for one class is counted, and the class's mask bit and instant follow. -/
theorem Dev.sendPfc_effect (hx : d.bitOf (Reg.PORT_PAUSE_STAT.TX_XOFF n) c = true) (he : e = d.sendPause n 2 [c] true) :
    d.counted e (txPfcCtr c) n 1 ∧ (e.pauseSt n c).xoffAt = d.now ∧
      e.wire = d.wire ++ [.pause n true [(c, d.rd (Reg.PORT_PAUSE_CFG.QUANTA n))]] ∧ (∀ a, e.reg a = d.reg a) ∧
      d.ctrsBut e [(txPfcCtr c).key n] ∧ d.Within e pauseParts := by
  have hwork : d.PauseWork n e := he ▸ (Dev.PauseWork.refl n d).sendPause
  generalize hy : (d.cnt (txPfcCtr c) n).setBitOf (Reg.PORT_PAUSE_STAT.TX_XOFF n) c true = y
  have hform : e = (y.setPauseSt n c { y.pauseSt n c with xoffAt := y.now }).out
      (.pause n true [(c, d.rd (Reg.PORT_PAUSE_CFG.QUANTA n))]) := by
    rw [he, Dev.sendPause, if_pos rfl, ← hy]
    rfl
  have hctrs : e.ctrs = (d.cnt (txPfcCtr c) n).ctrs := by rw [hform, ← hy]; simp [Dev.setPauseSt]
  have hovf : e.ctrOvf = (d.cnt (txPfcCtr c) n).ctrOvf := by rw [hform, ← hy]; simp [Dev.setPauseSt]
  have hwire : y.wire = d.wire := by rw [← hy]; simp
  have hreg : ∀ a, e.reg a = y.reg a := fun a => by rw [hform]; rfl
  have hself : ∀ a, y.reg a = d.reg a := fun a => by
    rw [← hy, Dev.reg_setBitOf_self (d.cnt (txPfcCtr c) n) hx (show 0 + 8 ≤ 32 by decide)]
    rfl
  refine ⟨(d.counted_cnt _ _).congr rfl (Dev.ctr_congr hctrs _ _), ?_, ?_, fun a => (hreg a).trans (hself a), ?_, hwork.within⟩
  · have hnow : y.now = d.now := by rw [← hy]; simp
    rw [hform]
    exact (congrArg PauseSt.xoffAt (y.pauseSt_setPauseSt_same n c _)).trans hnow
  · rw [hform, ← hwire]
    rfl
  · exact (Dev.ctrsBut.cntBy d (txPfcCtr c) n 1).trans (.of_same hctrs hovf _)

/-- An Annex 31B frame is counted, and the port's instant follows. -/
theorem Dev.sendAnnex31B_effect {cs : List Nat} (he : e = d.sendPause n 1 cs true) :
    d.counted e .txPause n 1 ∧ (e.pauseSt n 0).xoffAt = d.now ∧
      e.wire = d.wire ++ [.pause n false [(0, d.rd (Reg.PORT_PAUSE_CFG.QUANTA n))]] ∧ d.regsBut e [Reg.PORT_PAUSE_STAT.addr n] ∧
      d.ctrsBut e [Ctr.txPause.key n] ∧ d.Within e pauseParts := by
  have hwork : d.PauseWork n e := he ▸ (Dev.PauseWork.refl n d).sendPause
  generalize hy : (d.cnt .txPause n).wr (Reg.PORT_PAUSE_STAT.TX_XOFF n) 255 = y
  have hform : e = (y.setPauseSt n 0 { y.pauseSt n 0 with xoffAt := y.now }).out
      (.pause n false [(0, d.rd (Reg.PORT_PAUSE_CFG.QUANTA n))]) := by
    rw [he, Dev.sendPause, if_neg (by decide), ← hy]
    rfl
  have hctrs : e.ctrs = (d.cnt .txPause n).ctrs := by rw [hform, ← hy]; simp [Dev.setPauseSt]
  have hovf : e.ctrOvf = (d.cnt .txPause n).ctrOvf := by rw [hform, ← hy]; simp [Dev.setPauseSt]
  have hwire : y.wire = d.wire := by rw [← hy]; simp
  refine ⟨(d.counted_cnt _ _).congr rfl (Dev.ctr_congr hctrs _ _), ?_, ?_, hwork.regs, ?_, hwork.within⟩
  · have hnow : y.now = d.now := by rw [← hy]; simp
    rw [hform]
    exact (congrArg PauseSt.xoffAt (y.pauseSt_setPauseSt_same n 0 _)).trans hnow
  · rw [hform, ← hwire]
    rfl
  · exact (Dev.ctrsBut.cntBy d .txPause n 1).trans (.of_same hctrs hovf _)

theorem xoffRepeat_pfc (htx : d.flag (Reg.PORT_PAUSE_CFG.TX_EN n) = true) (hup : d.linkUp n = true) (hm : d.pauseMode n = 2)
    (hx : d.bitOf (Reg.PORT_PAUSE_STAT.TX_XOFF n) c = true) (ha : d.aboveLow n c = true)
    (ht : (d.pauseSt n c).xoffAt + d.quantaNs n (d.rd (Reg.PORT_PAUSE_CFG.QUANTA n)) / 2 ≤ d.now) :
    xoffRepeat n c d = d.sendPause n 2 [c] true := by
  simp [xoffRepeat, htx, hup, hm, hx, ha, ht]

theorem xoffRepeat_annex31B (htx : d.flag (Reg.PORT_PAUSE_CFG.TX_EN n) = true) (hup : d.linkUp n = true) (hm : d.pauseMode n = 1)
    (hx : d.bitOf (Reg.PORT_PAUSE_STAT.TX_XOFF n) 0 = true) (ha : classes.any (d.aboveLow n) = true)
    (ht : (d.pauseSt n 0).xoffAt + d.quantaNs n (d.rd (Reg.PORT_PAUSE_CFG.QUANTA n)) / 2 ≤ d.now) :
    xoffRepeat n c d = d.sendPause n 1 [c] true := by
  simp only [xoffRepeat, htx, hup, hm, hx, ha, ht, decide_true, if_true, ne_eq, one_ne_zero, not_false_eq_true, Bool.and_self]

end

section
variable {d : Dev} (hl : d.hold.live = true) (q : List Instr) (n c : Nat)
include hl

theorem exec_pauseCfgChange : exec (.pauseCfgChange n c) ⟨d, q⟩ = .next ⟨pauseCfgChange n c d, q⟩ := State.on_live hl q _
theorem exec_xoffRepeat : exec (.xoffRepeat n c) ⟨d, q⟩ = .next ⟨xoffRepeat n c d, q⟩ := State.on_live hl q _

end

end Sys2Proof.Machine

section

open Sys2Proof Sys2Proof.Machine

/-- Settles O13: the write of PORT_PAUSE_CFG and what follows it, and the frame that repeats XOFF. -/
theorem pauseTowardThePeer : Obligations.PauseTowardThePeer := by
  unfold Obligations.PauseTowardThePeer
  refine ⟨fun d q n v hl hn => ?_, fun d q n c hl hn hc htx hup => ⟨fun hm hx ha ht => ?_, fun hm hx ha ht => ?_⟩⟩
  · refine exec_leaves (exec_pauseCfgChange hl q n v) fun e he => ?_
    have hfields := pauseCfgChange_fields hn he
    refine ⟨hfields (30, 2) (by decide), hfields (29, 1) (by decide), hfields (28, 1) (by decide), hfields (16, 8) (by decide), ?_,
      fun h256 hv => pauseCfgChange_pfc hn h256 hv he, fun h => pauseCfgChange_released hn h he, fun hb => ?_⟩
    · exact (hfields (0, 16) (by decide)).trans (by rw [Nat.pow_zero, Nat.div_one])
    · obtain ⟨hregs, hframe⟩ := pauseCfgChange_good hn hb he
      exact ⟨hregs, hframe.eq⟩
  · refine exec_leaves (exec_xoffRepeat hl q n c) fun e he => ?_
    obtain ⟨hctr, hat, hwire, hreg, hctrs, hframe⟩ := Dev.sendPfc_effect hx (he.trans (xoffRepeat_pfc htx hup hm hx ha ht))
    exact ⟨hctr, hat, hwire, hreg, hctrs, hframe.eq⟩
  · refine exec_leaves (exec_xoffRepeat hl q n c) fun e he => ?_
    obtain ⟨hctr, hat, hwire, hreg, hctrs, hframe⟩ :=
      Dev.sendAnnex31B_effect (he.trans (xoffRepeat_annex31B htx hup hm hx ha ht))
    exact ⟨hctr, hat, hwire, hreg, hctrs, hframe.eq⟩

end

/-! PROOFS about frames that end at the MAC (R77, R78, R81, R82): how a frame is judged and counted, and MAC control frames. -/

namespace Sys2Proof.Machine

open Sys2Proof

/-! ### A frame at its MAC -/

/-- A frame of port `n` that the Beater has not taken: it is being received, or has left its journey. -/
structure Frame.AtMac (n : Nat) (f : Frame) : Prop where
  port : f.port = n
  blocks : f.blocks = []
  learn : f.learn = none
  node : f.node = none
  stage : f.stage = .receiving ∨ f.stage = .gone

theorem Frame.AtMac.stays (n : Nat) : Frame.Stays (Frame.AtMac n) where
  cells _ _ h := { h with }
  full _ h := { h with }
  gone _ h := { h with blocks := rfl, stage := .inr rfl }
  identify f h hs := by
    obtain he | he := h.stage
    · rw [he] at hs
      exact Stage.noConfusion hs
    · rw [he] at hs
      exact Stage.noConfusion hs

theorem Frame.AtMac.ending {n : Nat} {f : Frame} (h : f.AtMac n) (err k : Nat) : (f.ending err k).AtMac n :=
  ⟨h.port, h.blocks, rfl, rfl, h.stage⟩

theorem Frame.AtMac.notLinked {n : Nat} {f : Frame} (h : f.AtMac n) : f.stage ≠ .linked := by
  obtain he | he := h.stage
  · rw [he]
    exact Stage.noConfusion
  · rw [he]
    exact Stage.noConfusion

/-- A frame being received on the express MAC with these bytes. -/
structure Frame.Incoming (n : Nat) (b : List Byte) (f : Frame) : Prop where
  atMac : f.AtMac n
  mac : f.mac = 0
  bytes : f.bytes = b
  ended : f.ended = false

theorem Frame.Incoming.stays (n : Nat) (b : List Byte) : Frame.Stays (Frame.Incoming n b) where
  cells f x h := ⟨(Frame.AtMac.stays n).cells f x h.atMac, h.mac, h.bytes, h.ended⟩
  full f h := ⟨(Frame.AtMac.stays n).full f h.atMac, h.mac, h.bytes, h.ended⟩
  gone f h := ⟨(Frame.AtMac.stays n).gone f h.atMac, h.mac, h.bytes, h.ended⟩
  identify f h hs := ⟨(Frame.AtMac.stays n).identify f h.atMac hs, h.mac, h.bytes, h.ended⟩

/-! ### The frame that begins -/

/-- The device with a new frame in its list. -/
def Dev.rxBegun (d : Dev) (n ago : Nat) : Dev :=
  { d with path := { d.path with frames := d.path.frames ++ [d.newFrame n 0 ago], nextFrame := d.path.nextFrame + 1 } }

section
variable {d : Dev} {n ago : Nat} {b : List Byte}

theorem Dev.rxFrame_new (ho : d.openRx n 0 = none) : d.rxFrame n 0 ago = (d.newFrame n 0 ago, d.rxBegun n ago) := by
  rw [Dev.rxFrame, ho]
  rfl

theorem Dev.rxBegun_mem (d : Dev) (n ago : Nat) : ∃ f ∈ (d.rxBegun n ago).path.frames, f.id = (d.newFrame n 0 ago).id :=
  ⟨_, List.mem_append_right _ (List.mem_singleton_self _), rfl⟩

/-- The frame that begins, with all its bytes. -/
def Dev.wholeFrame (d : Dev) (n ago : Nat) (b : List Byte) : Frame := { d.newFrame n 0 ago with bytes := b }

theorem Dev.addBytes_new (hn : n < 258) (hb : b.length ≤ d.rd (Reg.PORT_CFG.MAX_FRAME n) + 1) :
    (d.rxBegun n ago).addBytes (d.newFrame n 0 ago) b = d.wholeFrame n ago b := by
  have hmax : (d.rxBegun n ago).maxFrame n = d.rd (Reg.PORT_CFG.MAX_FRAME n) := if_pos hn
  show ({ d.newFrame n 0 ago with bytes := ([] ++ b).take ((d.rxBegun n ago).maxFrame n + 1) } : Frame) = _
  rw [hmax, List.nil_append, List.take_of_length_le hb]
  rfl

theorem Dev.wholeFrame_incoming (d : Dev) (n ago : Nat) (b : List Byte) : (d.wholeFrame n ago b).Incoming n b :=
  ⟨⟨rfl, rfl, rfl, rfl, .inl rfl⟩, rfl, rfl, rfl⟩

end

/-! ### The verdict (R77, R78) -/

/-- Drop reason of a frame received whole on the express MAC, runt first; 0 for a good frame. -/
def rxVerdict (mx : Nat) (b : List Byte) : Nat := if b.length < 64 then 1 else if mx < b.length then 3 else if fcsGood b then 0 else 2

/-- The counters of a frame that ends on the express MAC. -/
def rxCtrs : List Ctr := [.rxFrames, .rxOctets, .rxRunt, .rxOversize, .rxFcsError, .rxFramesOk, .rxOctetsOk]

theorem rxCtr_aside {k : Ctr} (hk : k ∈ rxCtrs) (i : Nat) : k.asideOf i := fun h => absurd h (by revert k; decide)

/-- Counters of MAC control frames. -/
def controlCtrs : List Ctr :=
  [.rxPause, .rxPfcC0, .rxPfcC1, .rxPfcC2, .rxPfcC3, .rxPfcC4, .rxPfcC5, .rxPfcC6, .rxPfcC7, .rxMacCtrlIgnored]

/-- Counters of the consumption of a frame at the MAC. -/
def consumeCtrs : List Ctr := .framesConsumed :: controlCtrs

theorem rxPfcCtr_mem (c : Nat) : rxPfcCtr c ∈ controlCtrs := by
  unfold rxPfcCtr
  split <;> decide

namespace Dev.CellWork

variable {l : List Part} {ks : List Ctr} {b d : Dev} {n : Nat} (h : b.CellWork l ks d) (hl : cellParts ⊆ l)
  (hn : n < 258) (hup : b.flag (Reg.PORT_STATUS.LINK_UP n) = true)
include h hl

theorem cntControl (hk : ∀ k ∈ ks, k.code ∉ consumeCtrs.map Ctr.code) {c : Ctr} (hc : c ∈ consumeCtrs) {i : Nat} :
    b.CellWork l ks (d.cnt c i) :=
  h.cntBy (fun k hm he => hk k hm (he ▸ List.mem_map_of_mem hc)) (hl (by decide)) (hl (by decide))

include hn hup

/-- Received pause of a port that is up. -/
theorem pauseClass {c q : Nat} (hc : c < 8) : b.CellWork l ks (d.pauseClass n c q) := by
  have hr := hl (show Part.regs ∈ cellParts by decide)
  have hp := hl (show Part.ports ∈ cellParts by decide)
  have hset : ∀ s v, b.CellWork l ks ((d.setPauseSt n c s).setBitOf (Reg.PORT_PAUSE_STAT.RX_PAUSED n) c v) := fun s v => by
    have hx := h.setPauseSt (s := s) hn hc ((h.linkUp hn).trans hup) hp
    exact setPauseStat (r := Reg.PORT_PAUSE_STAT.RX_PAUSED n) hx rfl hn ((hx.linkUp hn).trans hup) hr
  unfold Dev.pauseClass
  exact .ite h (.ite (hset _ _) (hset _ _))

theorem control (hk : ∀ k ∈ ks, k.code ∉ consumeCtrs.map Ctr.code) {x : List Byte} : b.CellWork l ks (d.control n x) := by
  unfold Dev.control
  extract_lets rx
  split
  · have hc := h.cntControl hl hk (c := .rxPause) (i := n) (by decide)
    exact .ite (hc.foldl fun _ c hm he => he.pauseClass hl hn hup (mem_classes.mp hm)) hc
  · refine h.foldl fun e c hm he => ?_
    have hc := he.cntControl hl hk (List.mem_cons_of_mem _ (rxPfcCtr_mem c)) (i := n)
    exact .ite (.ite (hc.pauseClass hl hn hup (mem_classes.mp hm)) hc) he
  · exact h.cntControl hl hk (by decide)

end Dev.CellWork

section
variable {x : Dev} {f : Frame} {n : Nat} {b : List Byte} (hf : Frame.Incoming n b f) (hm : ∃ g ∈ x.path.frames, g.id = f.id)
include hf hm

theorem Dev.finishRx_error_work {err : Nat} (he : err ≠ 0) (hr : err < 0x40) :
    (x.rxCounted f err).CellWork cellParts rxCtrs (x.finishRx f err) :=
  Dev.CellWork.finishRx_error (Frame.AtMac.stays n) (.refl _) (List.Subset.refl _) he hr (hf.atMac.ending _ _) hm (.inr fun _ h => h.blocks)

theorem Dev.finishRx_whole_work :
    (x.rxCounted f 0).CellWork cellParts rxCtrs (x.finishRx f 0) ∧ (x.finishRx f 0).Holds f.id (Frame.AtMac n) :=
  Dev.CellWork.finishRx_whole (Frame.AtMac.stays n) (.refl _) (List.Subset.refl _) (hf.atMac.ending _ _) hm (.inr fun _ h => h.blocks)
    (fun _ h => h.notLinked) hf.atMac.learn hf.atMac.node

variable (hn : n < 258) (hup : x.flag (Reg.PORT_STATUS.LINK_UP n) = true) (hb : b ≠ [])
  (hlen : b.length ≤ x.rd (Reg.PORT_CFG.MAX_FRAME n) + 1)

theorem Dev.recoveryRx_work : (x.rxCounted f 0).CellWork cellParts rxCtrs (x.recoveryRx f) := by
  obtain ⟨hw, hg⟩ := Dev.finishRx_whole_work hf hm
  unfold Dev.recoveryRx
  dsimp only
  split
  · next g he =>
    have hc : (x.rxCounted f 0).CellWork cellParts rxCtrs ((x.finishRx f 0).consumeFrame g) :=
      (hw.cntControl (List.Subset.refl _) (c := .framesConsumed) (by decide) (by decide)).endFrame (List.Subset.refl _) (.inr (hg.frame he).blocks)
    exact .ite hc.setVat hc
  · exact hw

include hn hup hb hlen

/-- The end of a frame received whole: the MAC's counts by the verdict, and then work on the frame alone. -/
theorem Dev.endRx_work :
    (x.rxCounted f (rxVerdict (x.rd (Reg.PORT_CFG.MAX_FRAME n)) b)).CellWork cellParts rxCtrs (x.endRx f) := by
  have herr := fun {err : Nat} => Dev.finishRx_error_work (err := err) hf hm
  obtain rfl := hf.bytes
  obtain rfl := hf.atMac.port
  have hne : f.bytes.isEmpty = false := by simpa using hb
  unfold Dev.endRx rxVerdict
  dsimp only
  rw [hne, if_neg Bool.false_ne_true, List.take_of_length_le hlen, show f.len = f.bytes.length from rfl]
  by_cases h64 : f.bytes.length < 64
  · rw [if_pos h64, if_pos h64]
    exact herr one_ne_zero (by decide)
  rw [if_neg h64, if_neg h64]
  by_cases hmx : x.rd (Reg.PORT_CFG.MAX_FRAME f.port) < f.bytes.length
  · rw [if_pos hmx, if_pos hmx]
    exact herr (by decide) (by decide)
  rw [if_neg hmx, if_neg hmx]
  by_cases hfcs : fcsGood f.bytes = true
  · rw [hfcs, if_pos rfl]
    obtain ⟨hw, hg⟩ := Dev.finishRx_whole_work hf hm
    split
    · next hbad => simp at hbad
    · split
      · split
        · next g he =>
          have hgm := hg.frame he
          have hup' : (x.rxCounted f 0).flag (Reg.PORT_STATUS.LINK_UP f.port) = true := hup
          rw [hgm.port]
          exact ((hw.control (List.Subset.refl _) hn hup' (by decide)).cntControl (List.Subset.refl _) (c := .framesConsumed) (by decide)
            (by decide)).endFrame (List.Subset.refl _) (.inr hgm.blocks)
        · exact hw
      · exact .ite (Dev.recoveryRx_work hf hm) hw
  · rw [Bool.not_eq_true] at hfcs
    rw [hfcs, hf.mac]
    exact herr (by decide) (by decide)

end

/-! ### Counts of the verdict -/

section
variable {d x e : Dev} {f : Frame} {n : Nat}

theorem Dev.ctr_countRxErr {k : Ctr} {r : Nat} (h : ∀ c ∈ [Ctr.rxRunt, .rxFcsError, .rxOversize, .rxPreemptAssyError], k.code ≠ c.code)
    (i : Nat) : (d.countRxErr n r).ctr k i = d.ctr k i := by
  unfold Dev.countRxErr
  split
  · exact Dev.ctr_cnt_code _ (h _ (by decide)) _ _
  · exact Dev.ctr_cnt_code _ (h _ (by decide)) _ _
  · exact Dev.ctr_cnt_code _ (h _ (by decide)) _ _
  · exact Dev.ctr_cnt_code _ (h _ (by decide)) _ _
  · rfl

/-- The counts of every frame. -/
theorem Dev.rxCounted_all (d : Dev) (f : Frame) (err : Nat) (hb : f.bytes ≠ []) :
    d.counted (d.rxCounted f err) .rxFrames f.port 1 ∧ d.counted (d.rxCounted f err) .rxOctets f.port f.len := by
  have hlen : f.len ≠ 0 := fun h => hb (List.eq_nil_of_length_eq_zero h)
  have hframes : ((d.cnt .rxFrames f.port).cntBy .rxOctets f.port f.len).ctr .rxFrames f.port = (d.cnt .rxFrames f.port).ctr .rxFrames f.port :=
    Dev.ctr_cntBy_code _ (by decide) _ _ _
  have hoctets := (d.cnt .rxFrames f.port).counted_cntBy .rxOctets f.port hlen
  have hold : (d.cnt .rxFrames f.port).ctr .rxOctets f.port = d.ctr .rxOctets f.port := Dev.ctr_cnt_code _ (by decide) _ _
  unfold Dev.rxCounted
  split
  · refine ⟨(d.counted_cnt .rxFrames f.port).congr rfl ?_, hoctets.congr hold.symm ?_⟩
    · rw [Dev.ctr_cntBy_code _ (by decide), Dev.ctr_cnt_code _ (by decide), hframes]
    · rw [Dev.ctr_cntBy_code _ (by decide), Dev.ctr_cnt_code _ (by decide)]
  · refine ⟨(d.counted_cnt .rxFrames f.port).congr rfl ?_, hoctets.congr hold.symm ?_⟩
    · rw [Dev.ctr_countRxErr (by decide), hframes]
    · rw [Dev.ctr_countRxErr (by decide)]

/-- The counts of a frame before its verdict. -/
theorem Dev.ctr_rxBase (d : Dev) (f : Frame) {k : Ctr} (hk : k.code ≠ Ctr.code .rxFrames ∧ k.code ≠ Ctr.code .rxOctets) (i : Nat) :
    ((d.cnt .rxFrames f.port).cntBy .rxOctets f.port f.len).ctr k i = d.ctr k i := by
  rw [Dev.ctr_cntBy_code _ hk.2, Dev.ctr_cnt_code _ hk.1]

theorem Dev.rxCounted_runt (d : Dev) (f : Frame) : d.counted (d.rxCounted f 1) .rxRunt f.port 1 :=
  (Dev.counted_cnt _ .rxRunt f.port).congr (d.ctr_rxBase f (by decide) _).symm rfl

theorem Dev.rxCounted_oversize (d : Dev) (f : Frame) : d.counted (d.rxCounted f 3) .rxOversize f.port 1 :=
  (Dev.counted_cnt _ .rxOversize f.port).congr (d.ctr_rxBase f (by decide) _).symm rfl

theorem Dev.rxCounted_fcs (d : Dev) (f : Frame) :
    d.counted (d.rxCounted f 2) .rxFcsError f.port 1 ∧ d.counted (d.rxCounted f 2) .rxFramesOk f.port 0 :=
  ⟨(Dev.counted_cnt _ .rxFcsError f.port).congr (d.ctr_rxBase f (by decide) _).symm rfl,
    (Dev.ctr_cnt_code _ (by decide) _ _).trans (d.ctr_rxBase f (by decide) _)⟩

theorem Dev.rxCounted_good (d : Dev) (f : Frame) (hb : f.bytes ≠ []) :
    d.counted (d.rxCounted f 0) .rxFramesOk f.port 1 ∧ d.counted (d.rxCounted f 0) .rxOctetsOk f.port f.len := by
  have hlen : f.len ≠ 0 := fun h => hb (List.eq_nil_of_length_eq_zero h)
  refine ⟨(Dev.counted_cnt _ .rxFramesOk f.port).congr (d.ctr_rxBase f (by decide) _).symm (Dev.ctr_cntBy_code _ (by decide) _ _ _),
    (Dev.counted_cntBy _ .rxOctetsOk f.port hlen).congr ?_ rfl⟩
  rw [Dev.ctr_cnt_code _ (by decide), d.ctr_rxBase f (by decide)]

/-- Counters that no verdict counts. -/
theorem Dev.ctr_rxCounted (d : Dev) (f : Frame) (err : Nat) {k : Ctr} (hk : k.code ∉ rxEndCtrs.map Ctr.code) (i : Nat) :
    (d.rxCounted f err).ctr k i = d.ctr k i := by
  have hne : ∀ c ∈ rxEndCtrs, k.code ≠ c.code := fun c hc he => hk (he ▸ List.mem_map_of_mem hc)
  unfold Dev.rxCounted
  split
  · rw [Dev.ctr_cntBy_code _ (hne _ (by decide)), Dev.ctr_cnt_code _ (hne _ (by decide)),
      d.ctr_rxBase f ⟨hne _ (by decide), hne _ (by decide)⟩]
  · rw [Dev.ctr_countRxErr fun c hc => hne c (by revert c; decide), d.ctr_rxBase f ⟨hne _ (by decide), hne _ (by decide)⟩]

theorem Dev.within_rxCounted (d : Dev) (f : Frame) (err : Nat) : d.Within (d.rxCounted f err) [.ctrs, .ctrOvf] := by
  have hb : d.Within ((d.cnt .rxFrames f.port).cntBy .rxOctets f.port f.len) [.ctrs, .ctrOvf] := (Dev.Within.refl d _).cnt.cntBy
  unfold Dev.rxCounted
  refine .ite hb.cnt.cntBy ?_
  unfold Dev.countRxErr
  split
  · exact hb.cnt
  · exact hb.cnt
  · exact hb.cnt
  · exact hb.cnt
  · exact hb

end

/-! ### A frame whose cells are not due -/

section
variable {d : Dev} {f g : Frame} {i : Nat} {b : List Byte}

/-- The frame written over its number is the one that stands there. -/
theorem Dev.frame_setFrame (hm : ∃ h ∈ d.path.frames, h.id = g.id) : (d.setFrame g).frame g.id = some g := by
  obtain ⟨h, hh⟩ := Dev.frame_isSome (Dev.exists_setFrame g hm)
  have heq : h = g := (Dev.Holds.ofSetFrame (P := fun h => h = g) rfl rfl hm).frame hh
  rw [hh, heq]

theorem Dev.storeCells_setFrame (hm : ∃ h ∈ d.path.frames, h.id = g.id) (h0 : g.cellsWanted = 0) :
    (d.setFrame g).storeCells g.id = d.setFrame g :=
  Dev.storeCells_of_none_wanted fun h hh => by
    rw [Dev.frame_setFrame hm] at hh
    exact Option.some.inj hh ▸ h0

theorem Dev.takeBytes_idle (hm : ∃ h ∈ d.path.frames, h.id = f.id) (h0 : (d.addBytes f b).cellsWanted = 0) :
    d.takeBytes f b = (d.addBytes f b, d.setFrame (d.addBytes f b)) := by
  have hm' : ∃ h ∈ d.path.frames, h.id = (d.addBytes f b).id := hm
  unfold Dev.takeBytes
  dsimp only
  rw [Dev.storeCells_setFrame hm' h0, Dev.frame_setFrame hm', Option.getD_some]

theorem Frame.cellsWanted_of_due (h : f.cellsDue = 0) : f.cellsWanted = 0 := by
  unfold Frame.cellsWanted
  rw [h, Nat.zero_sub, ite_self]

theorem Frame.cellsDue_control (hs : f.stage = .receiving) (hc : isControl f.bytes = true) : f.cellsDue = 0 := by
  rw [Frame.cellsDue, if_pos (by simp [hs, hc])]

theorem Frame.cellsDue_short (he : f.ended = false) (hl : f.len < 64) : f.cellsDue = 0 := by
  rw [Frame.cellsDue, he, if_neg Bool.false_ne_true, if_pos (show f.len < 104 by omega), ite_self]

theorem Frame.cellsDue_runt (he : f.ended = true) (hr : f.err = 1) : f.cellsDue = 0 := by
  rw [Frame.cellsDue, he, if_pos rfl, if_pos hr, ite_self]

/-! Copies are no part of the list of frames. -/

theorem Dev.copies_reap (d : Dev) (i : Nat) : (d.reap i).path.copies = d.path.copies := by
  unfold Dev.reap
  split
  · split
    · rfl
    · rfl
  · rfl

/-- A frame without cells and blocks leaves only the list of frames changed. -/
theorem Dev.endFrame_idle (d : Dev) (hc : f.cells = []) (hb : f.blocks = []) :
    d.Within (d.endFrame f) [.path] ∧ (d.endFrame f).path.copies = d.path.copies := by
  have hchain : d.returnChain f = d := by
    rw [Dev.returnChain, hc]
    exact ite_self _
  have hstaging : d.returnStaging f = d := by
    rw [Dev.returnStaging, hb]
    rfl
  unfold Dev.endFrame
  rw [hchain, hstaging]
  dsimp only
  refine ⟨?_, (Dev.copies_reap _ _).trans rfl⟩
  have hset : d.Within (d.setFrame { f with stage := .gone, cells := [], blocks := [], handoff := false }) [.path] :=
    (Dev.Within.refl d _).setPath
  refine Dev.Within.setPath (d := Dev.reap _ _) ?_
  unfold Dev.reap
  split
  · exact .ite hset.setPath hset
  · exact hset

/-- A frame being received is not reaped. -/
theorem Dev.reap_receiving (h : ∀ g, d.frame i = some g → g.stage = .receiving) : d.reap i = d := by
  unfold Dev.reap
  split
  · next g hg => rw [if_neg (by simp [h g hg])]
  · rfl

end

/-! ### A runt, and a whole control frame, at the MAC -/

section
variable {x : Dev} {f : Frame} (hs : f.stage = .receiving) (hm : ∃ g ∈ x.path.frames, g.id = f.id)

theorem Dev.frameEnds_frame (hm : ∃ g ∈ x.path.frames, g.id = f.id) (err : Nat) :
    (x.frameEnds f err).frame f.id = some (f.ending err x.path.nextEnd) :=
  Dev.frame_setFrame (d := { x with path := { x.path with nextEnd := x.path.nextEnd + 1 } }) (g := f.ending err x.path.nextEnd) hm

theorem Dev.frameEnds_storeCells (hm : ∃ g ∈ x.path.frames, g.id = f.id) {err : Nat} (h0 : (f.ending err x.path.nextEnd).cellsDue = 0) :
    (x.frameEnds f err).storeCells f.id = x.frameEnds f err :=
  Dev.storeCells_setFrame (d := { x with path := { x.path with nextEnd := x.path.nextEnd + 1 } }) (g := f.ending err x.path.nextEnd) hm
    (Frame.cellsWanted_of_due h0)

theorem Dev.copies_frameEnds (x : Dev) (f : Frame) (err : Nat) : (x.frameEnds f err).path.copies = x.path.copies := rfl

theorem Dev.within_frameEnds (x : Dev) (f : Frame) (err : Nat) : x.Within (x.frameEnds f err) [.path] :=
  (Dev.Within.refl x _).setPath.setPath

include hs hm

theorem Dev.finishRx_runt : x.finishRx f 1 = ((x.rxCounted f 1).frameEnds f 1).dropFrame (f.ending 1 x.path.nextEnd) 1 := by
  have hpath := x.path_rxCounted f 1
  have hm' : ∃ g ∈ (x.rxCounted f 1).path.frames, g.id = f.id := by rwa [hpath]
  have hst : (f.ending 1 x.path.nextEnd).stage = .receiving := hs
  rw [Dev.finishRx_error _ _ one_ne_zero, Dev.frameEnds_storeCells hm' (Frame.cellsDue_runt rfl rfl), Dev.errorEnds,
    Dev.frameEnds_frame hm', hpath]
  dsimp only
  rw [hst]

/-- A runt's count, and its drop; no cell and no copy changes. -/
theorem Dev.finishRx_runt_effect {e : Dev} (hc : f.cells = []) (hb : f.blocks = []) (he : e = x.finishRx f 1) :
    x.counted e .drop 0x01 1 ∧ e.path.copies = x.path.copies ∧ x.Within e [.ctrs, .ctrOvf, .path] := by
  have hpath := x.path_rxCounted f 1
  rw [Dev.finishRx_runt hs hm, Dev.dropFrame] at he
  have hends := (x.rxCounted f 1).within_frameEnds f 1
  have hcopies : ((x.rxCounted f 1).frameEnds f 1).path.copies = x.path.copies := by
    rw [Dev.copies_frameEnds, hpath]
  generalize (x.rxCounted f 1).frameEnds f 1 = y at he hends hcopies
  obtain ⟨hw, hcp⟩ := (y.dropCount 1).endFrame_idle (f := f.ending 1 x.path.nextEnd) hc hb
  have hyctr : y.ctr .drop 1 = x.ctr .drop 1 :=
    (Dev.ctr_congr (hends .ctrs (by decide)) _ _).trans (x.ctr_rxCounted f 1 (by decide) 1)
  rw [he]
  refine ⟨(y.counted_cnt .drop 1).congr hyctr.symm (Dev.ctr_congr (hw .ctrs (by decide)) _ _), hcp.trans hcopies, ?_⟩
  have hxy : x.Within y [.ctrs, .ctrOvf, .path] := (x.within_rxCounted f 1).mono.trans hends.mono
  exact hxy.cnt.trans hw.mono

/-- The end of a whole control frame: counted, and its frame stands ended in the list. -/
theorem Dev.finishRx_control (hc : isControl f.bytes = true) (hl : f.learn = none) (hn : f.node = none) :
    x.finishRx f 0 = (x.rxCounted f 0).frameEnds f 0 ∧ (x.finishRx f 0).frame f.id = some (f.ending 0 x.path.nextEnd) := by
  have hpath := x.path_rxCounted f 0
  have hm' : ∃ g ∈ (x.rxCounted f 0).path.frames, g.id = f.id := by rwa [hpath]
  have hframe := Dev.frameEnds_frame hm' 0
  have hst : ∀ g, ((x.rxCounted f 0).frameEnds f 0).frame f.id = some g → g.stage = .receiving := fun g hg => by
    rw [hframe] at hg
    exact Option.some.inj hg ▸ hs
  have hfin : x.finishRx f 0 = (x.rxCounted f 0).frameEnds f 0 := by
    rw [Dev.finishRx_whole, Dev.issueHeld_of_none hl hn, Dev.frameEnds_storeCells hm' (Frame.cellsDue_control hs hc),
      Dev.offerSpill_of_unlinked fun g hg => by rw [hst g hg]; exact Stage.noConfusion, Dev.reap_receiving hst]
  rw [hfin, hframe, hpath]
  exact ⟨rfl, rfl⟩

end

/-! ### Received pause by class (R82) -/

/-- Class `c` of port `n` stands in `e` as in `d`, whatever a control frame did to other classes. -/
structure Dev.OtherClass (n c : Nat) (d e : Dev) : Prop where
  regs : d.regsBut e [Reg.PORT_PAUSE_STAT.addr n]
  within : d.Within e [.regs, .ctrs, .ctrOvf, .ports, .path]
  hold : e.rd (Reg.PORT_PAUSE_STAT.WD_HOLD n) = d.rd (Reg.PORT_PAUSE_STAT.WD_HOLD n)
  pause : e.pauseSt n c = d.pauseSt n c
  paused : e.bitOf (Reg.PORT_PAUSE_STAT.RX_PAUSED n) c = d.bitOf (Reg.PORT_PAUSE_STAT.RX_PAUSED n) c
  ctr : e.ctr (rxPfcCtr c) n = d.ctr (rxPfcCtr c) n

namespace Dev.OtherClass

variable {b d e : Dev} {n c k q : Nat}

theorem refl (n c : Nat) (d : Dev) : d.OtherClass n c d := ⟨.refl d _, .refl d _, rfl, rfl, rfl, rfl⟩

theorem trans (h : b.OtherClass n c d) (h' : d.OtherClass n c e) : b.OtherClass n c e :=
  ⟨h.regs.trans h'.regs, h.within.trans h'.within, h'.hold.trans h.hold, h'.pause.trans h.pause, h'.paused.trans h.paused,
    h'.ctr.trans h.ctr⟩

theorem ite {p : Prop} [Decidable p] (h : b.OtherClass n c d) (h' : b.OtherClass n c e) : b.OtherClass n c (if p then d else e) := by
  split
  · exact h
  · exact h'

theorem cnt (h : b.OtherClass n c d) {a : Ctr} (ha : (rxPfcCtr c).code ≠ a.code) : b.OtherClass n c (d.cnt a n) :=
  h.trans ⟨.cnt (.refl d _), .cnt (.refl d _), rfl, rfl, rfl, Dev.ctr_cnt_code _ ha _ _⟩

theorem pauseClass (h : b.OtherClass n c d) (hk : k < 8) (hck : c ≠ k) : b.OtherClass n c (d.pauseClass n k q) := by
  have hset : ∀ s v, d.OtherClass n c ((d.setPauseSt n k s).setBitOf (Reg.PORT_PAUSE_STAT.RX_PAUSED n) k v) := fun s v => {
    regs := (Dev.regsBut.refl d _).setPauseSt.setBitOf (List.mem_singleton_self _)
    within := (Dev.Within.refl d _).setPauseSt.setBitOf
    hold := Dev.rd_wdHold_setRxPaused _ n k v
    pause := d.pauseSt_setPauseSt_ne s (by omega)
    paused := (Dev.maskBit_setRxPaused (d.setPauseSt n k s) n v hk).2 c hck
    ctr := rfl }
  refine h.trans ?_
  unfold Dev.pauseClass
  exact .ite (.refl n c d) (.ite (hset _ _) (hset _ _))

end Dev.OtherClass

/-- Counters of the classes are their own. -/
theorem rxPfcCtr_code_ne : ∀ c, c < 8 → ∀ k, k < 8 → c ≠ k → (rxPfcCtr c).code ≠ (rxPfcCtr k).code := by decide

/-- A fold over classes each of which leaves the others alone acts on a class that stands as before. -/
theorem Dev.OtherClass.foldl {n c : Nat} {F : Dev → Nat → Dev} (hF : ∀ (d : Dev) k, k < 8 → c ≠ k → d.OtherClass n c (F d k))
    {l : List Nat} (hl : l.Nodup) (h8 : ∀ k ∈ l, k < 8) (hc : c ∈ l) (d : Dev) : ∃ x, d.OtherClass n c x ∧ (F x c).OtherClass n c (l.foldl F d) := by
  induction l generalizing d with
  | nil => cases hc
  | cons k l ih =>
    obtain ⟨hk, hl⟩ := List.nodup_cons.mp hl
    have h8l : ∀ j ∈ l, j < 8 := fun j hj => h8 j (List.mem_cons_of_mem _ hj)
    obtain rfl | hcl := List.mem_cons.mp hc
    · refine ⟨d, .refl n c d, ?_⟩
      exact List.foldlRecOn (motive := fun e : Dev => (F d c).OtherClass n c e) l F (.refl n c _) fun e he j hj =>
        he.trans (hF e j (h8l j hj) fun h => hk (h ▸ hj))
    · obtain ⟨x, hx, hFx⟩ := ih hl h8l hcl (F d k)
      exact ⟨x, (hF d k (h8 k List.mem_cons_self) fun h => hk (h ▸ hcl)).trans hx, hFx⟩

section
variable {d x e : Dev} {n c q : Nat}

theorem Dev.quantaNs_congr (h : d.regsBut e [Reg.PORT_PAUSE_STAT.addr n]) (hm : e.mods = d.mods) (hb : e.boot = d.boot) (q : Nat) :
    e.quantaNs n q = d.quantaNs n q := by
  have hmode : e.portMode n = d.portMode n := Dev.portMode_congr hm hb (fun i => h _ (by
    rw [List.mem_singleton]
    exact grpMode_ne_portReg (off := 0x18) (by decide) (by decide) i n)) n
  unfold Dev.quantaNs Dev.portRate
  rw [hmode]

/-- The pause of a class as a control frame with these quanta sets it. -/
def Dev.pausedFor (d e : Dev) (n c q : Nat) : Prop :=
  (e.pauseSt n c).rxEnd = (if q = 0 then none else some (d.now + d.quantaNs n q)) ∧
    e.bitOf (Reg.PORT_PAUSE_STAT.RX_PAUSED n) c = decide (q ≠ 0)

theorem Dev.pauseClass_paused (hc : c < 8) (hw : d.bitOf (Reg.PORT_PAUSE_STAT.WD_HOLD n) c = false) :
    d.pausedFor (d.pauseClass n c q) n c q := by
  have hbit : ∀ s v, ((d.setPauseSt n c s).setBitOf (Reg.PORT_PAUSE_STAT.RX_PAUSED n) c v).bitOf (Reg.PORT_PAUSE_STAT.RX_PAUSED n) c = v :=
    fun s v => (Dev.maskBit_setRxPaused (d.setPauseSt n c s) n v hc).1
  unfold Dev.pausedFor Dev.pauseClass
  rw [if_neg (by simp [hw])]
  dsimp only
  by_cases hq : q = 0
  · rw [if_pos hq, if_pos hq, hbit, decide_eq_false (not_not_intro hq)]
    exact ⟨congrArg PauseSt.rxEnd (d.pauseSt_setPauseSt_same n c _), rfl⟩
  · rw [if_neg hq, if_neg hq, hbit, decide_eq_true hq]
    exact ⟨congrArg PauseSt.rxEnd (d.pauseSt_setPauseSt_same n c _), rfl⟩

/-- The class is seen from a state in which it stood as before, and in one in which it stands as after. -/
theorem Dev.pausedFor.congr {y : Dev} (h : x.pausedFor y n c q) (hdx : d.OtherClass n c x) (hye : y.OtherClass n c e) :
    d.pausedFor e n c q := by
  obtain ⟨hend, hbit⟩ := h
  refine ⟨?_, hye.paused.trans hbit⟩
  rw [hye.pause, hend, show x.now = d.now from hdx.within .now (by decide),
    Dev.quantaNs_congr hdx.regs (hdx.within .mods (by decide)) (hdx.within .boot (by decide))]

theorem Dev.OtherClass.notHeld (h : d.OtherClass n c x) (hw : d.bitOf (Reg.PORT_PAUSE_STAT.WD_HOLD n) c = false) :
    x.bitOf (Reg.PORT_PAUSE_STAT.WD_HOLD n) c = false := by
  rwa [Dev.bitOf, h.hold]

/-! ### What a control frame does (R81, R82) -/

/-- A pause frame for every class. -/
def Dev.pauseAll (d : Dev) (n q : Nat) : Dev := classes.foldl (fun (d : Dev) c => d.pauseClass n c q) d

theorem Dev.control_pause {b : List Byte} (hk : d.ctrlKind n b = 1) : d.control n b =
    if d.flag (Reg.PORT_PAUSE_CFG.RX_EN n) then (d.cnt .rxPause n).pauseAll n (fromBe (slice b 16 2)) else d.cnt .rxPause n := by
  rw [Dev.control, hk]
  rfl

theorem Dev.pauseAll_paused (hc : c < 8) (hw : d.bitOf (Reg.PORT_PAUSE_STAT.WD_HOLD n) c = false) : d.pausedFor (d.pauseAll n q) n c q := by
  obtain ⟨x, hx, he⟩ := Dev.OtherClass.foldl (F := fun (d : Dev) c => d.pauseClass n c q)
    (fun d k h8 hck => (Dev.OtherClass.refl n c d).pauseClass h8 hck) classes_nodup (fun _ => mem_classes.mp) (mem_classes.mpr hc) d
  exact (Dev.pauseClass_paused hc (hx.notHeld hw)).congr hx he

/-- What a PFC frame does to one class. -/
def Dev.pfcStep (rx : Bool) (n : Nat) (b : List Byte) (d : Dev) (c : Nat) : Dev :=
  if (fromBe (slice b 16 2)).testBit c then
    let d := d.cnt (rxPfcCtr c) n
    if rx && d.bitOf (Reg.PORT_PAUSE_CFG.PFC_CLASSES n) c then d.pauseClass n c (fromBe (slice b (18 + 2 * c) 2)) else d
  else d

theorem Dev.control_pfc {b : List Byte} (hk : d.ctrlKind n b = 2) :
    d.control n b = classes.foldl (Dev.pfcStep (d.flag (Reg.PORT_PAUSE_CFG.RX_EN n)) n b) d := by
  rw [Dev.control, hk]
  rfl

theorem Dev.control_other {b : List Byte} (hk : d.ctrlKind n b = 0) : d.control n b = d.cnt .rxMacCtrlIgnored n := by
  rw [Dev.control, hk]
  rfl

theorem Dev.pfcStep_other (rx : Bool) (b : List Byte) (hc : c < 8) {k : Nat} (hk : k < 8) (hck : c ≠ k) :
    d.OtherClass n c (d.pfcStep rx n b k) :=
  have hcnt := (Dev.OtherClass.refl n c d).cnt (a := rxPfcCtr k) (rxPfcCtr_code_ne c hc k hk hck)
  .ite (.ite (hcnt.pauseClass hk hck) hcnt) (.refl n c d)

/-- A class of a PFC frame stands, when its turn comes, as before the frame. -/
theorem Dev.pfc_class {b : List Byte} (rx : Bool) (hc : c < 8) (d : Dev) :
    ∃ x, d.OtherClass n c x ∧ (x.pfcStep rx n b c).OtherClass n c (classes.foldl (Dev.pfcStep rx n b) d) :=
  Dev.OtherClass.foldl (fun _ _ h8 hck => Dev.pfcStep_other rx b hc h8 hck) classes_nodup (fun _ => mem_classes.mp) (mem_classes.mpr hc) d

theorem Dev.ctr_pauseClass (a : Ctr) (i : Nat) : (d.pauseClass n c q).ctr a i = d.ctr a i := by
  have hset : ∀ s v, ((d.setPauseSt n c s).setBitOf (Reg.PORT_PAUSE_STAT.RX_PAUSED n) c v).ctr a i = d.ctr a i := fun s v =>
    (Dev.ctr_setBitOf _ _ _ _ _ _).trans rfl
  unfold Dev.pauseClass
  dsimp only
  split
  · rfl
  · split
    · exact hset _ _
    · exact hset _ _

theorem Dev.pfcStep_counted (rx : Bool) (b : List Byte) :
    d.counted (d.pfcStep rx n b c) (rxPfcCtr c) n (if (fromBe (slice b 16 2)).testBit c then 1 else 0) := by
  unfold Dev.pfcStep
  split
  · refine (d.counted_cnt _ _).congr rfl ?_
    dsimp only
    split
    · exact Dev.ctr_pauseClass _ _
    · rfl
  · rfl

theorem Dev.pfcStep_paused {b : List Byte} (hc : c < 8) (ht : (fromBe (slice b 16 2)).testBit c = true)
    (hp : d.bitOf (Reg.PORT_PAUSE_CFG.PFC_CLASSES n) c = true) (hw : d.bitOf (Reg.PORT_PAUSE_STAT.WD_HOLD n) c = false) :
    d.pausedFor (d.pfcStep true n b c) n c (fromBe (slice b (18 + 2 * c) 2)) := by
  have hstep : d.pfcStep true n b c = (d.cnt (rxPfcCtr c) n).pauseClass n c (fromBe (slice b (18 + 2 * c) 2)) := by
    have hp' : (d.cnt (rxPfcCtr c) n).bitOf (Reg.PORT_PAUSE_CFG.PFC_CLASSES n) c = true := hp
    rw [Dev.pfcStep, if_pos ht]
    dsimp only
    rw [hp']
    rfl
  rw [hstep]
  exact Dev.pauseClass_paused (d := d.cnt (rxPfcCtr c) n) hc hw

/-- Components that a control frame's action may change, and the one register. -/
structure Dev.ControlWork (n : Nat) (d e : Dev) : Prop where
  regs : d.regsBut e [Reg.PORT_PAUSE_STAT.addr n]
  within : d.Within e [.regs, .ctrs, .ctrOvf, .ports]
  ctrs : ∀ k : Ctr, k.code ∉ controlCtrs.map Ctr.code → ∀ i, e.ctr k i = d.ctr k i

namespace Dev.ControlWork

variable {b : Dev}

theorem refl (n : Nat) (d : Dev) : d.ControlWork n d := ⟨.refl d _, .refl d _, fun _ _ _ => rfl⟩

theorem ite {p : Prop} [Decidable p] (h : b.ControlWork n d) (h' : b.ControlWork n e) : b.ControlWork n (if p then d else e) := by
  split
  · exact h
  · exact h'

theorem cnt (h : b.ControlWork n d) {a : Ctr} (ha : a ∈ controlCtrs) : b.ControlWork n (d.cnt a n) :=
  ⟨h.regs.cnt, h.within.cnt, fun k hk i =>
    (d.ctr_cnt_code (c := a) (k := k) (fun he => hk (he ▸ List.mem_map_of_mem ha)) n i).trans (h.ctrs k hk i)⟩

theorem pauseClass (h : b.ControlWork n d) : b.ControlWork n (d.pauseClass n c q) where
  regs := .ite h.regs (.ite (h.regs.setPauseSt.setBitOf (List.mem_singleton_self _)) (h.regs.setPauseSt.setBitOf (List.mem_singleton_self _)))
  within := .ite h.within (.ite h.within.setPauseSt.setBitOf h.within.setPauseSt.setBitOf)
  ctrs k hk i := (Dev.ctr_pauseClass _ _).trans (h.ctrs k hk i)

theorem pfcStep (h : b.ControlWork n d) {rx : Bool} {x : List Byte} : b.ControlWork n (d.pfcStep rx n x c) :=
  .ite (.ite (h.cnt (rxPfcCtr_mem c)).pauseClass (h.cnt (rxPfcCtr_mem c))) h

theorem foldl {β : Type} {F : Dev → β → Dev} {l : List β} (h : b.ControlWork n d)
    (hF : ∀ e x, b.ControlWork n e → b.ControlWork n (F e x)) : b.ControlWork n (l.foldl F d) :=
  List.foldlRecOn l F h fun e he x _ => hF e x he

end Dev.ControlWork

theorem Dev.control_work (d : Dev) (n : Nat) (b : List Byte) : d.ControlWork n (d.control n b) := by
  unfold Dev.control
  extract_lets rx
  split
  · have hc : d.ControlWork n (d.cnt .rxPause n) := (Dev.ControlWork.refl n d).cnt (by decide)
    exact .ite (hc.foldl fun _ _ h => h.pauseClass) hc
  · exact (Dev.ControlWork.refl n d).foldl fun _ _ h => h.pfcStep
  · exact (Dev.ControlWork.refl n d).cnt (by decide)

end

/-! ### MAC_FRAME_END -/

section
variable {d e : Dev} {n ago : Nat} {b : List Byte} (ho : d.openRx n 0 = none)

/-- The frame that begins takes its bytes. -/
def Dev.rxTaken (d : Dev) (n ago : Nat) (b : List Byte) : Frame × Dev := (d.rxBegun n ago).takeBytes (d.newFrame n 0 ago) b

/-- The device with the frame that began in its list, its bytes whole. -/
def Dev.rxStood (d : Dev) (n ago : Nat) (b : List Byte) : Dev := (d.rxBegun n ago).setFrame (d.wholeFrame n ago b)

theorem Dev.rxStood_effect {x : Dev} (hx : d.rxStood n ago b = x) :
    (∃ g ∈ x.path.frames, g.id = (d.wholeFrame n ago b).id) ∧ x.path.copies = d.path.copies ∧ d.Within x [.path] := by
  subst hx
  exact ⟨Dev.exists_setFrame _ (d.rxBegun_mem n ago), rfl, ((Dev.Within.refl d _).setPath).setPath⟩

theorem macFrameEnd_new (hr : d.receives n = true) (ho : d.openRx n 0 = none) :
    macFrameEnd n 0 ago b d = (d.rxTaken n ago b).2.endRx (d.rxTaken n ago b).1 := by
  rw [macFrameEnd, if_pos hr]
  dsimp only
  rw [show 0 % 2 = 0 from rfl, Dev.rxFrame_new ho]
  rfl

theorem Dev.receives_iff : d.receives n = true ↔ d.serves n = true ∧ n < 258 ∧ d.flag (Reg.PORT_STATUS.LINK_UP n) = true := by
  simp [Dev.receives, and_assoc]

theorem Dev.port_of_receives (hr : d.receives n = true) : n < 258 := by
  obtain ⟨-, hn, -⟩ := Dev.receives_iff.mp hr
  exact hn

theorem Dev.linkUp_of_receives (hr : d.receives n = true) : d.flag (Reg.PORT_STATUS.LINK_UP n) = true := by
  obtain ⟨-, -, hup⟩ := Dev.receives_iff.mp hr
  exact hup

variable (hn : n < 258) (hb : b.length ≤ d.rd (Reg.PORT_CFG.MAX_FRAME n) + 1)
include hn hb

theorem Dev.rxTaken_effect :
    d.CellWork cellParts rxCtrs (d.rxTaken n ago b).2 ∧ (d.rxTaken n ago b).1.Incoming n b ∧
      ∃ g ∈ (d.rxTaken n ago b).2.path.frames, g.id = (d.rxTaken n ago b).1.id := by
  have hstays := Frame.Incoming.stays n b
  have hin : Frame.Incoming n b ((d.rxBegun n ago).addBytes (d.newFrame n 0 ago) b) := by
    rw [Dev.addBytes_new hn hb]
    exact d.wholeFrame_incoming n ago b
  have hm := d.rxBegun_mem n ago
  obtain ⟨hframe, hf⟩ := Dev.takeBytes_frame hstays (fun _ h => h.ended) hin hm
  have hwork : d.CellWork cellParts rxCtrs (d.rxBegun n ago) := (Dev.CellWork.refl d).setPath
  exact ⟨hwork.takeBytes hstays hin hm (List.Subset.refl _) (.inr fun _ h => h.atMac.blocks), hf, _, (Dev.frame_some hframe).1, rfl⟩

/-- A frame none of whose cells is due stands in the list with its bytes, and nothing else changes. -/
theorem Dev.rxTaken_idle (h0 : (d.wholeFrame n ago b).cellsDue = 0) :
    d.rxTaken n ago b = (d.wholeFrame n ago b, d.rxStood n ago b) := by
  have hadd := d.addBytes_new (ago := ago) hn hb
  rw [Dev.rxTaken, Dev.takeBytes_idle (d.rxBegun_mem n ago) (by rw [hadd]; exact Frame.cellsWanted_of_due h0), hadd]
  rfl

omit hb in
theorem portCfg_kept {x : Dev} (hw : d.CellWork cellParts rxCtrs x) :
    x.rd (Reg.PORT_CFG.MAX_FRAME n) = d.rd (Reg.PORT_CFG.MAX_FRAME n) :=
  Dev.rd_congr_reg (hw.regs _ (portReg_zone (off := 0) (by decide) hn) fun m _ => portReg_ne_pauseStat (off := 0) (by decide) (by decide) n m)

/-- The counts of a frame that ends are those of its verdict. -/
theorem macFrameEnd_counts (hr : d.receives n = true) (ho : d.openRx n 0 = none) (hne : b ≠ []) (he : e = macFrameEnd n 0 ago b d) :
    ∃ (x : Dev) (f : Frame), f.port = n ∧ f.bytes = b ∧ d.Within e cellParts ∧
      ∀ k ∈ rxCtrs, ∀ m, x.counted (x.rxCounted f (rxVerdict (d.rd (Reg.PORT_CFG.MAX_FRAME n)) b)) k n m → d.counted e k n m := by
  rw [macFrameEnd_new hr ho] at he
  obtain ⟨hw, hf, hm⟩ := d.rxTaken_effect (ago := ago) hn hb
  have hcfg := portCfg_kept hn hw
  have hend := Dev.endRx_work hf hm hn ((hw.linkUp hn).trans (Dev.linkUp_of_receives hr)) hne (hcfg ▸ hb)
  rw [hcfg, ← he] at hend
  refine ⟨_, _, hf.atMac.port, hf.bytes, ?_, fun k hk m hc => hc.congr (hw.ctrs k hk n (rxCtr_aside hk n)).symm
    (hend.ctrs k hk n (rxCtr_aside hk n))⟩
  exact hw.within.trans (((Dev.within_rxCounted _ _ _).mono).trans hend.within)

/-- A runt drops, and touches neither cells nor copies. -/
theorem macFrameEnd_runt (hr : d.receives n = true) (ho : d.openRx n 0 = none) (hne : b ≠ []) (h64 : b.length < 64)
    (he : e = macFrameEnd n 0 ago b d) : d.counted e .drop 0x01 1 ∧ e.vat = d.vat ∧ e.path.copies = d.path.copies := by
  have hend : ∀ {x : Dev}, x.endRx (d.wholeFrame n ago b) = x.finishRx (d.wholeFrame n ago b) 1 := fun {x} => by
    rw [Dev.endRx, if_neg (by simpa [Dev.wholeFrame] using hne), if_pos (show (d.wholeFrame n ago b).len < 64 from h64)]
  rw [macFrameEnd_new hr ho, Dev.rxTaken_idle hn hb (Frame.cellsDue_short rfl h64)] at he
  dsimp only at he
  generalize hx : d.rxStood n ago b = x at he
  obtain ⟨hm, hxcopies, hdx⟩ := Dev.rxStood_effect hx
  rw [hend] at he
  obtain ⟨hdrop, hcopies, hw⟩ := Dev.finishRx_runt_effect (x := x) (f := d.wholeFrame n ago b) rfl hm rfl rfl he
  exact ⟨hdrop.congr (Dev.ctr_congr (hdx .ctrs (by decide)).symm _ _) rfl, (hw .vat (by decide)).trans (hdx .vat (by decide)),
    hcopies.trans hxcopies⟩

end

/-! ### MAC control frames (R81, R82) -/

section
variable {d e : Dev} {n : Nat} {b : List Byte} {kind : Nat}

theorem Dev.endRx_control {x : Dev} {f g : Frame} (hm : 64 ≤ f.len ∧ f.len ≤ x.rd (Reg.PORT_CFG.MAX_FRAME f.port))
    (hfcs : fcsGood f.bytes = true) (hc : isControl f.bytes = true) (hs : f.stage = .receiving)
    (hg : (x.finishRx f 0).frame f.id = some g) : x.endRx f = ((x.finishRx f 0).control g.port g.bytes).consumeFrame g := by
  have hne : ¬ f.bytes.isEmpty = true := fun h => by
    rw [List.isEmpty_iff] at h
    have hz : f.len = 0 := congrArg List.length h
    omega
  rw [Dev.endRx, if_neg hne, if_neg (by omega), if_neg (by omega), hfcs, if_neg (by decide), hc, hs,
    if_pos (by decide)]
  dsimp only
  rw [hg]

theorem Dev.ctrlKind_congr {x : Dev} (h : x.regs = d.regs) (n : Nat) (b : List Byte) : x.ctrlKind n b = d.ctrlKind n b := by
  unfold Dev.ctrlKind Dev.pauseMode
  rw [Dev.rd_congr_reg (Dev.reg_congr h _)]

variable (hr : d.receives n = true) (ho : d.openRx n 0 = none) (h64 : 64 ≤ b.length) (hmx : b.length ≤ d.rd (Reg.PORT_CFG.MAX_FRAME n))
  (hc : isControl b = true) (hfcs : fcsGood b = true) (hk : d.ctrlKind n b = kind)
include hr ho h64 hmx hc hfcs hk

/-- A whole control frame: the MAC's counts, the frame's action, and its consumption, which leaves only the list of frames changed. -/
theorem Dev.rxControl_eq : ∃ (y : Dev) (g : Frame), d.rxControl n b kind = (y.control n b).consumeFrame g ∧ g.cells = [] ∧ g.blocks = [] ∧
    d.Within y [.ctrs, .ctrOvf, .path] ∧ y.path.copies = d.path.copies ∧ d.counted y .rxFrames n 1 ∧
    (∀ k : Ctr, k.code ∉ rxEndCtrs.map Ctr.code → ∀ i, y.ctr k i = d.ctr k i) := by
  have hn := Dev.port_of_receives hr
  have hne : b ≠ [] := fun h => by
    rw [h] at h64
    exact absurd h64 (by decide)
  have htaken := Dev.rxTaken_idle (d := d) (n := n) (ago := 0) (b := b) hn (by omega) (Frame.cellsDue_control rfl hc)
  have hx : d.rxControl n b kind = (d.rxTaken n 0 b).2.endRx (d.rxTaken n 0 b).1 := by
    rw [Dev.rxControl, if_pos (by simp [hr, hc, hk, ho]), Dev.rxFrame_new ho]
    rfl
  rw [htaken] at hx
  dsimp only at hx
  generalize hxd : d.rxStood n 0 b = x at hx
  obtain ⟨hm, hcopies, hdx⟩ := Dev.rxStood_effect hxd
  have hmax : x.rd (Reg.PORT_CFG.MAX_FRAME n) = d.rd (Reg.PORT_CFG.MAX_FRAME n) :=
    Dev.rd_congr_reg (Dev.reg_congr (hdx .regs (by decide)) _)
  obtain ⟨hy, hframe⟩ := Dev.finishRx_control (x := x) (f := d.wholeFrame n 0 b) rfl hm hc rfl rfl
  rw [Dev.endRx_control (x := x) (f := d.wholeFrame n 0 b) ⟨h64, hmax ▸ hmx⟩ hfcs hc rfl hframe] at hx
  have hends := Dev.within_frameEnds (x.rxCounted (d.wholeFrame n 0 b) 0) (d.wholeFrame n 0 b) 0
  have hctr : ∀ k i, (x.finishRx (d.wholeFrame n 0 b) 0).ctr k i = (x.rxCounted (d.wholeFrame n 0 b) 0).ctr k i := fun k i =>
    Dev.ctr_congr (hy ▸ hends .ctrs (by decide)) k i
  have hxctr : x.ctrs = d.ctrs := hdx .ctrs (by decide)
  refine ⟨_, _, hx, rfl, rfl, ?_, ?_, ?_, fun k hk' i => ?_⟩
  · exact hdx.mono.trans ((Dev.within_rxCounted x _ 0).mono.trans (hy ▸ hends.mono))
  · rw [hy, Dev.copies_frameEnds, Dev.path_rxCounted, hcopies]
  · exact (x.rxCounted_all (d.wholeFrame n 0 b) 0 hne).1.congr (Dev.ctr_congr hxctr _ _).symm (hctr _ _)
  · rw [hctr, x.ctr_rxCounted _ 0 hk', Dev.ctr_congr hxctr]

/-- What a whole control frame does: the frame's own action on a state that differs from the one before only by the MAC's counts. -/
theorem Dev.rxControl_effect (he : e = d.rxControl n b kind) : ∃ y : Dev, y.ctrlKind n b = kind ∧ y.regs = d.regs ∧
    (∀ c, d.OtherClass n c y ∧ (y.control n b).OtherClass n c e) ∧
    (∀ k ∈ controlCtrs, y.ctr k n = d.ctr k n ∧ e.ctr k n = (y.control n b).ctr k n) ∧
    d.counted e .rxFrames n 1 ∧ d.counted e .framesConsumed 0 1 ∧ e.path.copies = d.path.copies ∧
    d.Within y [.ctrs, .ctrOvf, .path] ∧ (y.control n b).Within e [.ctrs, .ctrOvf, .path] := by
  obtain ⟨y, g, hx, hcells, hblocks, hdy, hcopies, hframes, hyctr⟩ := Dev.rxControl_eq hr ho h64 hmx hc hfcs hk
  rw [hx] at he
  have hwork := y.control_work n b
  obtain ⟨hew, hecopies⟩ := ((y.control n b).cnt .framesConsumed 0).endFrame_idle (f := g) hcells hblocks
  have hce : (y.control n b).Within e [.ctrs, .ctrOvf, .path] := he ▸ ((Dev.Within.refl (y.control n b) _).cnt).trans hew.mono
  have hectr : ∀ k i, e.ctr k i = ((y.control n b).cnt .framesConsumed 0).ctr k i := fun k i => by
    rw [he]
    exact Dev.ctr_congr (hew .ctrs (by decide)) k i
  have hectr' : ∀ k : Ctr, k.code ≠ Ctr.code .framesConsumed → ∀ i, e.ctr k i = (y.control n b).ctr k i := fun k h i =>
    (hectr k i).trans (Dev.ctr_cnt_code _ h _ _)
  have hregs : y.regs = d.regs := hdy .regs (by decide)
  have hctrl : ∀ k ∈ controlCtrs, k.code ∉ rxEndCtrs.map Ctr.code ∧ k.code ≠ Ctr.code .framesConsumed := by decide
  refine ⟨y, (Dev.ctrlKind_congr hregs n b).trans hk, hregs, fun c => ⟨?_, ?_⟩, fun k hm => ?_, ?_, ?_, ?_, hdy, hce⟩
  · exact {
      regs := fun a _ => Dev.reg_congr hregs a
      within := hdy.mono
      hold := Dev.rd_congr_reg (Dev.reg_congr hregs _)
      pause := Dev.pauseSt_congr (congrArg PortsSt.pause (hdy .ports (by decide))) n c
      paused := Dev.bitOf_congr_reg (Dev.reg_congr hregs _) c
      ctr := hyctr _ (hctrl _ (rxPfcCtr_mem c)).1 n }
  · have hereg : e.regs = (y.control n b).regs := hce .regs (by decide)
    exact {
      regs := fun a _ => Dev.reg_congr hereg a
      within := hce.mono
      hold := Dev.rd_congr_reg (Dev.reg_congr hereg _)
      pause := Dev.pauseSt_congr (congrArg PortsSt.pause (hce .ports (by decide))) n c
      paused := Dev.bitOf_congr_reg (Dev.reg_congr hereg _) c
      ctr := hectr' _ (hctrl _ (rxPfcCtr_mem c)).2 n }
  · exact ⟨hyctr k (hctrl k hm).1 n, hectr' k (hctrl k hm).2 n⟩
  · exact hframes.congr rfl ((hectr' _ (by decide) n).trans (hwork.ctrs _ (by decide) n))
  · refine (Dev.counted_cnt (y.control n b) .framesConsumed 0).congr ?_ (hectr _ _)
    exact ((hwork.ctrs _ (by decide) 0).trans (hyctr _ (by decide) 0)).symm
  · rw [he]
    exact hecopies.trans ((congrArg (fun p : PathSt => p.copies) (hwork.within .path (by decide))).trans hcopies)

/-- What a control frame leaves as it was. -/
theorem Dev.rxControl_frame (he : e = d.rxControl n b kind) :
    d.regsBut e [Reg.PORT_PAUSE_STAT.addr n] ∧ e.vat = d.vat ∧ d.Within e [.regs, .ctrs, .ctrOvf, .ports, .path] := by
  obtain ⟨y, -, -, hclass, -, -, -, -, hdy, hce⟩ := Dev.rxControl_effect hr ho h64 hmx hc hfcs hk he
  obtain ⟨hdc, hcc⟩ := hclass 0
  have hwork := y.control_work n b
  have hw : d.Within e [.regs, .ctrs, .ctrOvf, .ports, .path] := hdy.mono.trans (hwork.within.mono.trans hce.mono)
  exact ⟨hdc.regs.trans (hwork.regs.trans hcc.regs), hw .vat (by decide), hw⟩

end

section
variable {d e y : Dev} {n c : Nat} {b : List Byte}

theorem Dev.ctr_pauseAll (q : Nat) (k : Ctr) (i : Nat) : (d.pauseAll n q).ctr k i = d.ctr k i :=
  List.foldlRecOn (motive := fun e : Dev => e.ctr k i = d.ctr k i) _ _ rfl fun _ he _ _ => (Dev.ctr_pauseClass _ _).trans he

/-- A pause frame is counted, and where RX_EN is set it stops or releases every class. -/
theorem Dev.control_pause_effect (hk : y.ctrlKind n b = 1) :
    y.counted (y.control n b) .rxPause n 1 ∧
      (∀ c, c < 8 → y.flag (Reg.PORT_PAUSE_CFG.RX_EN n) = true → y.bitOf (Reg.PORT_PAUSE_STAT.WD_HOLD n) c = false →
        y.pausedFor (y.control n b) n c (fromBe (slice b 16 2))) := by
  rw [Dev.control_pause hk]
  refine ⟨(y.counted_cnt .rxPause n).congr rfl ?_, fun c hc hrx hw => ?_⟩
  · split
    · exact Dev.ctr_pauseAll _ _ _
    · rfl
  · rw [if_pos hrx]
    exact Dev.pauseAll_paused (d := y.cnt .rxPause n) hc hw

/-- A PFC frame is counted for each class it names, and stops or releases those that PFC_CLASSES lets it, where RX_EN is set. -/
theorem Dev.control_pfc_effect (hk : y.ctrlKind n b = 2) (hc : c < 8) :
    y.counted (y.control n b) (rxPfcCtr c) n (if (fromBe (slice b 16 2)).testBit c then 1 else 0) ∧
      ((fromBe (slice b 16 2)).testBit c = true → y.flag (Reg.PORT_PAUSE_CFG.RX_EN n) = true →
        y.bitOf (Reg.PORT_PAUSE_CFG.PFC_CLASSES n) c = true → y.bitOf (Reg.PORT_PAUSE_STAT.WD_HOLD n) c = false →
          y.pausedFor (y.control n b) n c (fromBe (slice b (18 + 2 * c) 2))) := by
  rw [Dev.control_pfc hk]
  obtain ⟨x, hx, he⟩ := Dev.pfc_class (n := n) (b := b) (y.flag (Reg.PORT_PAUSE_CFG.RX_EN n)) hc y
  refine ⟨(Dev.pfcStep_counted _ b).congr hx.ctr.symm he.ctr, fun ht hrx hp hw => ?_⟩
  have hclass : x.bitOf (Reg.PORT_PAUSE_CFG.PFC_CLASSES n) c = true := by
    rw [Dev.bitOf_congr_reg (hx.regs (Reg.PORT_PAUSE_CFG.addr n) (by simpa using pauseCfg_ne_pauseStat n n))]
    exact hp
  rw [hrx] at he ⊢
  exact (Dev.pfcStep_paused hc ht hclass (hx.notHeld hw)).congr hx he

end

section
variable {d : Dev} (hl : d.hold.live = true) (q : List Instr) (n : Nat) (b : List Byte)
include hl

theorem exec_macFrameEnd (mac ago : Nat) : exec (.macFrameEnd n mac ago b) ⟨d, q⟩ = .next ⟨macFrameEnd n mac ago b d, q⟩ :=
  State.on_live hl q _

theorem exec_pauseRx : exec (.pauseRx n b) ⟨d, q⟩ = .next ⟨d.rxControl n b 1, q⟩ := State.on_live hl q _
theorem exec_pfcRx : exec (.pfcRx n b) ⟨d, q⟩ = .next ⟨d.rxControl n b 2, q⟩ := State.on_live hl q _
theorem exec_macCtrlIgnored : exec (.macCtrlIgnored n b) ⟨d, q⟩ = .next ⟨d.rxControl n b 0, q⟩ := State.on_live hl q _

end

/-! ### Frames that end, as the statement reads -/

section
variable {d e : Dev} {n ago : Nat} {b : List Byte} (hr : d.receives n = true) (ho : d.openRx n 0 = none) (hne : b ≠ [])
  (hb : b.length ≤ d.rd (Reg.PORT_CFG.MAX_FRAME n) + 1) (he : e = macFrameEnd n 0 ago b d)
include hr ho hne hb he

theorem macFrameEnd_all : d.counted e .rxFrames n 1 ∧ d.counted e .rxOctets n b.length ∧ d.Within e cellParts := by
  obtain ⟨x, f, rfl, rfl, hw, hcount⟩ := macFrameEnd_counts (Dev.port_of_receives hr) hb hr ho hne he
  obtain ⟨hf, ho⟩ := x.rxCounted_all f _ hne
  exact ⟨hcount _ (by decide) _ hf, hcount _ (by decide) _ ho, hw⟩

theorem macFrameEnd_short (h64 : b.length < 64) : d.counted e .rxRunt n 1 := by
  obtain ⟨x, f, rfl, rfl, -, hcount⟩ := macFrameEnd_counts (Dev.port_of_receives hr) hb hr ho hne he
  rw [rxVerdict, if_pos h64] at hcount
  exact hcount _ (by decide) _ (x.rxCounted_runt f)

theorem macFrameEnd_long (h64 : 64 ≤ b.length) (hmx : d.rd (Reg.PORT_CFG.MAX_FRAME n) < b.length) : d.counted e .rxOversize n 1 := by
  obtain ⟨x, f, rfl, rfl, -, hcount⟩ := macFrameEnd_counts (Dev.port_of_receives hr) hb hr ho hne he
  rw [rxVerdict, if_neg (Nat.not_lt.mpr h64), if_pos hmx] at hcount
  exact hcount _ (by decide) _ (x.rxCounted_oversize f)

theorem macFrameEnd_broken (h64 : 64 ≤ b.length) (hmx : b.length ≤ d.rd (Reg.PORT_CFG.MAX_FRAME n)) (hfcs : fcsGood b = false) :
    d.counted e .rxFcsError n 1 ∧ d.counted e .rxFramesOk n 0 := by
  obtain ⟨x, f, rfl, rfl, -, hcount⟩ := macFrameEnd_counts (Dev.port_of_receives hr) hb hr ho hne he
  rw [rxVerdict, if_neg (Nat.not_lt.mpr h64), if_neg (Nat.not_lt.mpr hmx), hfcs, if_neg Bool.false_ne_true] at hcount
  obtain ⟨herr, hok⟩ := x.rxCounted_fcs f
  exact ⟨hcount _ (by decide) _ herr, hcount _ (by decide) _ hok⟩

theorem macFrameEnd_whole (h64 : 64 ≤ b.length) (hmx : b.length ≤ d.rd (Reg.PORT_CFG.MAX_FRAME n)) (hfcs : fcsGood b = true) :
    d.counted e .rxFramesOk n 1 ∧ d.counted e .rxOctetsOk n b.length := by
  obtain ⟨x, f, rfl, rfl, -, hcount⟩ := macFrameEnd_counts (Dev.port_of_receives hr) hb hr ho hne he
  rw [rxVerdict, if_neg (Nat.not_lt.mpr h64), if_neg (Nat.not_lt.mpr hmx), hfcs, if_pos rfl] at hcount
  obtain ⟨hok, hoct⟩ := x.rxCounted_good f hne
  exact ⟨hcount _ (by decide) _ hok, hcount _ (by decide) _ hoct⟩

end

end Sys2Proof.Machine

section

open Sys2Proof Sys2Proof.Machine

/-- Settles O12: the verdict on a frame decides its counts, and a control frame acts class by class and is consumed. -/
theorem receptionIsCountedAndJudged : Obligations.ReceptionIsCountedAndJudged := by
  unfold Obligations.ReceptionIsCountedAndJudged
  refine ⟨fun d q n ago b hl hr ho _ hne hb _ => ?_, fun d q n b hl hr ho _ h64 hmx hc hfcs => ⟨fun hk => ?_, fun hk => ?_, fun hk => ?_⟩⟩
  · refine exec_leaves (exec_macFrameEnd hl q n b 0 ago) fun e he => ?_
    obtain ⟨hframes, hoctets, hframe⟩ := macFrameEnd_all hr ho hne hb he
    refine ⟨hframes, hoctets, fun h => ?_, fun h h' => macFrameEnd_long hr ho hne hb he h h',
      fun h h' h'' => macFrameEnd_broken hr ho hne hb he h h' h'', fun h h' h'' => macFrameEnd_whole hr ho hne hb he h h' h'', hframe.eq⟩
    exact ⟨macFrameEnd_short hr ho hne hb he h, macFrameEnd_runt (Dev.port_of_receives hr) hb hr ho hne h he⟩
  · refine exec_leaves (exec_pauseRx hl q n b) fun e he => ?_
    obtain ⟨y, hyk, hregs, hclass, hctrs, hframes, hconsumed, hcopies, -, -⟩ := Dev.rxControl_effect hr ho h64 hmx hc hfcs hk he
    obtain ⟨hbut, hvat, hframe⟩ := Dev.rxControl_frame hr ho h64 hmx hc hfcs hk he
    obtain ⟨hcount, hpaused⟩ := Dev.control_pause_effect hyk
    obtain ⟨hy, hec⟩ := hctrs .rxPause (by decide)
    refine ⟨hcount.congr hy.symm hec, hframes, hconsumed, hvat, hcopies, fun c h8 hrx hw => ?_, hbut, hframe.eq⟩
    obtain ⟨hdy, hce⟩ := hclass c
    exact (hpaused c h8 ((Dev.flag_congr_reg (Dev.reg_congr hregs _)).trans hrx) (hdy.notHeld hw)).congr hdy hce
  · refine exec_leaves (exec_pfcRx hl q n b) fun e he => ?_
    obtain ⟨y, hyk, hregs, hclass, hctrs, hframes, hconsumed, hcopies, -, -⟩ := Dev.rxControl_effect hr ho h64 hmx hc hfcs hk he
    obtain ⟨hbut, hvat, hframe⟩ := Dev.rxControl_frame hr ho h64 hmx hc hfcs hk he
    refine ⟨hframes, hconsumed, hvat, hcopies, fun c h8 => ?_, hbut, hframe.eq⟩
    obtain ⟨hcount, hpaused⟩ := Dev.control_pfc_effect hyk h8
    obtain ⟨hdy, hce⟩ := hclass c
    refine ⟨hcount.congr hdy.ctr.symm hce.ctr, fun ht hrx hp hw => ?_⟩
    exact (hpaused ht ((Dev.flag_congr_reg (Dev.reg_congr hregs _)).trans hrx)
      ((Dev.bitOf_congr_reg (Dev.reg_congr hregs _) c).trans hp) (hdy.notHeld hw)).congr hdy hce
  · refine exec_leaves (exec_macCtrlIgnored hl q n b) fun e he => ?_
    obtain ⟨y, hyk, -, -, hctrs, hframes, hconsumed, hcopies, hdy, hce⟩ := Dev.rxControl_effect hr ho h64 hmx hc hfcs hk he
    obtain ⟨-, hvat, -⟩ := Dev.rxControl_frame hr ho h64 hmx hc hfcs hk he
    obtain ⟨hy, hec⟩ := hctrs .rxMacCtrlIgnored (by decide)
    rw [Dev.control_other hyk] at hce hec
    refine ⟨(y.counted_cnt _ _).congr hy.symm hec, hframes, hconsumed, hvat, hcopies, ?_⟩
    exact (hdy.trans ((Dev.Within.refl y _).cnt.trans hce)).eq

end

/-! PROOFS about copies (R90, R91): the end of a reception keeps them, and cut copies leave the list, each counted as a drop. -/

namespace Sys2Proof.Machine

open Sys2Proof

/-! ### The end of a reception keeps the copies -/

section
variable (d : Dev) (f : Frame)

theorem Dev.copies_of_path {d e : Dev} (h : e.path = d.path) : e.path.copies = d.path.copies := by rw [h]

theorem Dev.copies_setFrame (d : Dev) (f : Frame) : (d.setFrame f).path.copies = d.path.copies := rfl

theorem Dev.copies_dropFrame (r : Nat) : (d.dropFrame f r).path.copies = d.path.copies := by
  have hp : (((d.dropCount r).returnChain f).returnStaging f).path = d.path := by simp
  unfold Dev.dropFrame Dev.endFrame
  exact (Dev.copies_reap _ _).trans ((Dev.copies_setFrame _ _).trans (Dev.copies_of_path hp))

theorem Dev.copies_bankEmpty : (d.bankEmpty f).path.copies = d.path.copies := by
  unfold Dev.bankEmpty
  split
  · rfl
  · exact d.copies_dropFrame f _

theorem Dev.copies_writeCell (last : Bool) : (d.writeCell f last).path.copies = d.path.copies := by
  unfold Dev.writeCell
  extract_lets p hs
  split
  · rfl
  · have hp := d.path_allocCell p 33
    split
    · next he =>
      rw [he] at hp
      exact (Dev.copies_bankEmpty _ f).trans (Dev.copies_of_path hp)
    · next k e he =>
      rw [he] at hp
      extract_lets b1 b2 b3 d1 d2
      have hd : d1.path.copies = d.path.copies :=
        (Dev.copies_setFrame _ _).trans (Dev.copies_of_path ((Dev.path_setBank _ _ _).trans hp))
      have hd2 : d2.path = d1.path := foldl_keeps (g := Dev.path) (fun a x => by simp) _ _
      split
      · split
        · exact (Dev.copies_of_path hd2).trans hd
        · exact (Dev.copies_of_path ((Dev.path_addIc _ _ _ _).trans hd2)).trans hd
      · exact hd

theorem Dev.copies_fillCells (i fuel : Nat) : (d.fillCells i fuel).path.copies = d.path.copies := by
  induction fuel generalizing d with
  | zero => rfl
  | succ fuel ih =>
    unfold Dev.fillCells
    split
    · rfl
    · split
      · rfl
      · exact (ih _).trans (d.copies_writeCell _ _)

theorem Dev.copies_storeCells (i : Nat) : (d.storeCells i).path.copies = d.path.copies := by
  unfold Dev.storeCells
  split
  · rfl
  · refine (Dev.copies_fillCells _ _ _).trans ?_
    split
    · exact Dev.copies_of_path (by simp)
    · rfl

theorem Dev.copies_errorEnds (i err : Nat) : (d.errorEnds i err).path.copies = d.path.copies := by
  unfold Dev.errorEnds
  split
  · rfl
  · split
    · exact d.copies_reap i
    · exact d.copies_reap i
    · rfl
    · rfl
    · exact d.copies_dropFrame _ _

theorem Dev.copies_finishRx {err : Nat} (he : err ≠ 0) : (d.finishRx f err).path.copies = d.path.copies := by
  rw [Dev.finishRx_error _ _ he, Dev.copies_errorEnds, Dev.copies_storeCells, Dev.copies_frameEnds, Dev.path_rxCounted]

theorem Dev.copies_cutRx (n mac : Nat) : (d.cutRx n mac).path.copies = d.path.copies := by
  unfold Dev.cutRx
  split
  · rfl
  · split
    · rfl
    · exact d.copies_finishRx _ (by split_ifs <;> decide)

theorem Dev.copies_linkFalls (n : Nat) : (d.linkFalls n).path.copies = d.path.copies := by
  have hcut : (d.rxCut n).path.copies = d.path.copies := by
    rw [Dev.rxCut, Dev.copies_cutRx, Dev.copies_cutRx, d.linkCleared_path n]
  have hset : ((d.rxCut n).setPortSt n ((d.rxCut n).portSt n).fallen).path.copies = d.path.copies := hcut
  rw [Dev.linkFalls_eq]
  dsimp only
  split
  · exact hset
  · rw [Dev.path_startRemoval]
    exact hset

end

/-! ### A copy leaves the list -/

section
variable {d e : Dev}

theorem Dev.copy_some {i : Nat} {c : Copy} (h : d.copy i = some c) : c ∈ d.path.copies ∧ c.id = i :=
  ⟨List.mem_of_find?_eq_some h, by simpa using List.find?_some h⟩

theorem filter_replaced {i : Nat} {c : Copy} (hc : c.id = i) (l : List Copy) :
    ((l.map fun (g : Copy) => if g.id = i then c else g).filter fun g => g.id != i) = l.filter fun g => g.id != i := by
  induction l with
  | nil => rfl
  | cons g l ih =>
    rw [List.map_cons]
    by_cases hg : g.id = i
    · rw [if_pos hg, List.filter_cons_of_neg (by simp [hc]), List.filter_cons_of_neg (by simp [hg]), ih]
    · rw [if_neg hg, List.filter_cons_of_pos (by simp [hg]), List.filter_cons_of_pos (by simp [hg]), ih]

/-- Whatever happens to the copies of a number, the others stay. -/
theorem Dev.copies_releaseRefs (d : Dev) (c : Copy) (flip : Nat) :
    ((d.releaseRefs c flip).path.copies.filter fun g => g.id != c.id) = d.path.copies.filter fun g => g.id != c.id := by
  unfold Dev.releaseRefs
  split
  · rfl
  · next f _ =>
    split
    · rfl
    · extract_lets p r x
      have hr : r.1.path = d.path :=
        List.foldlRecOn (motive := fun a : Dev × Nat × Nat => a.1.path = d.path) _ _ rfl fun _ ha _ _ => (Dev.path_unref _ _ _ _).trans ha
      have hx : x.path = d.path := (Dev.path_subEc _ _ _ _ _).trans hr
      have hif : (if f.refilled then x else x.subIc f.port f.cls r.2.1).path.copies = d.path.copies := by
        split
        · exact Dev.copies_of_path hx
        · exact Dev.copies_of_path ((Dev.path_subIc _ _ _ _).trans hx)
      exact (filter_replaced (c := { c with read := true }) rfl _).trans (by rw [hif])

theorem Dev.copies_removeCopy (d : Dev) (c : Copy) : (d.removeCopy c).path.copies = d.path.copies.filter fun g => g.id != c.id := by
  rw [← d.copies_releaseRefs c 0]
  unfold Dev.removeCopy
  extract_lets x y p v z g w
  have hy : y.path = x.path := by
    dsimp only [y]
    split
    · exact Dev.path_returnBlock _ _ _
    · rfl
  have hw : (w.clearTx c.id).path = x.path := by
    rw [Dev.path_clearTx, Dev.path_unstage, Dev.path_returnCredit]
    exact hy
  rw [Dev.path_askRefills, Dev.copies_reap]
  exact congrArg (fun p : PathSt => p.copies.filter fun g => g.id != c.id) hw

/-! ### Copies that are cut -/

/-- The cut of one copy by its number. -/
def Dev.cutCopy (d : Dev) (r : Nat) (c : Copy) : Dev :=
  match d.copy c.id with
  | some c => (d.dropCount r).removeCopy c
  | none => d

theorem Dev.cutCopies_eq (d : Dev) (r : Nat) (p : Copy → Bool) : d.cutCopies r p = (d.path.copies.filter p).foldl (fun d c => d.cutCopy r c) d :=
  rfl

theorem Dev.copies_cutCopy (d : Dev) (r : Nat) (c : Copy) : (d.cutCopy r c).path.copies = d.path.copies.filter fun g => g.id != c.id := by
  unfold Dev.cutCopy
  split
  · next g hg =>
    rw [Dev.copies_removeCopy, (Dev.copy_some hg).2]
    rfl
  · next hnone =>
    refine (List.filter_eq_self.mpr fun g hg => ?_).symm
    simpa using List.find?_eq_none.mp hnone g hg

/-- The copies that are left are those before whose number is none of those cut. -/
theorem Dev.mem_foldl_cutCopy {r : Nat} {l : List Copy} {g : Copy} (h : g ∈ (l.foldl (fun d c => d.cutCopy r c) d).path.copies) :
    g ∈ d.path.copies ∧ ∀ c ∈ l, g.id ≠ c.id := by
  induction l generalizing d with
  | nil => exact ⟨h, fun _ hc => absurd hc List.not_mem_nil⟩
  | cons c l ih =>
    obtain ⟨hg, hl⟩ := ih h
    rw [Dev.copies_cutCopy, List.mem_filter, bne_iff_ne] at hg
    exact ⟨hg.1, List.forall_mem_cons.mpr ⟨hg.2, hl⟩⟩

theorem Dev.not_of_mem_cutCopies {r : Nat} {p : Copy → Bool} {g : Copy} (h : g ∈ (d.cutCopies r p).path.copies) : p g = false := by
  rw [Dev.cutCopies_eq] at h
  obtain ⟨hg, hne⟩ := Dev.mem_foldl_cutCopy h
  by_contra hp
  exact hne g (List.mem_filter.mpr ⟨hg, by simpa using hp⟩) rfl

theorem Dev.counted.add {x : Dev} {c : Ctr} {i k : Nat} (h : d.counted x c i 1) (h' : x.counted e c i k) : d.counted e c i (k + 1) := by
  unfold Dev.counted at h h' ⊢
  rw [if_neg one_ne_zero] at h
  rw [if_neg k.succ_ne_zero, h']
  split
  · next hk => rw [h, hk]
  · rw [h, Nat.mod_add_mod, Nat.add_assoc, Nat.add_comm 1 k]

/-- A copy in the list that is cut counts one drop. -/
theorem Dev.cutCopy_counted {r : Nat} (hr : 0x40 ≤ r ∧ r < 0x100) {c : Copy} (hc : c ∈ d.path.copies) :
    d.counted (d.cutCopy r c) .drop r 1 := by
  obtain ⟨g, hg⟩ := Option.isSome_iff_exists.mp ((List.find?_isSome (p := fun g : Copy => g.id == c.id)).mpr ⟨c, hc, beq_self_eq_true c.id⟩)
  have hcopy : d.copy c.id = some g := hg
  have hw : (d.dropCount r).CellWork copyParts [.drop] ((d.dropCount r).removeCopy g) :=
    (Dev.CellWork.refl _).removeCopy (List.Subset.refl _)
  rw [Dev.cutCopy, hcopy]
  exact (d.counted_cnt .drop r).congr rfl (hw.ctrs .drop (by decide) r fun _ => hr)

/-- Copies in the list whose numbers differ count a drop each. -/
theorem Dev.foldl_cutCopy_counted {r : Nat} (hr : 0x40 ≤ r ∧ r < 0x100) {l : List Copy} (hl : (l.map (·.id)).Nodup)
    (hm : ∀ c ∈ l, c ∈ d.path.copies) : d.counted (l.foldl (fun d c => d.cutCopy r c) d) .drop r l.length := by
  induction l generalizing d with
  | nil => rfl
  | cons c l ih =>
    rw [List.map_cons, List.nodup_cons] at hl
    obtain ⟨hc, hml⟩ := List.forall_mem_cons.mp hm
    refine (Dev.cutCopy_counted hr hc).add (ih hl.2 fun g hg => ?_)
    rw [Dev.copies_cutCopy, List.mem_filter, bne_iff_ne]
    exact ⟨hml g hg, fun he => hl.1 (he ▸ List.mem_map_of_mem hg)⟩

theorem Dev.cutCopies_counted {r : Nat} (hr : 0x40 ≤ r ∧ r < 0x100) (hn : (d.path.copies.map (·.id)).Nodup) (p : Copy → Bool) :
    d.counted (d.cutCopies r p) .drop r (d.path.copies.filter p).length := by
  rw [Dev.cutCopies_eq]
  exact Dev.foldl_cutCopy_counted hr (hn.sublist (List.filter_sublist.map _)) fun c hc => (List.mem_filter.mp hc).1

end

end Sys2Proof.Machine

/-! PROOFS about link down, link up, Hold and flush, and the clearing of ADMIN_EN (R89 to R91). -/

namespace Sys2Proof.Machine

open Sys2Proof

/-! ### LINK_DOWN -/

/-- What the cause of a fall shows before it. -/
def Dev.downShown (d : Dev) (n cause : Nat) : Dev :=
  match cause with
  | 0 => (d.lanesOf n).foldl (fun (d : Dev) (l : Nat × Nat) => d.setBitOf (Reg.PORT_GRP_STATUS.CDR_LOCK l.1) l.2 false) d
  | 2 => d.setFlag (Reg.PORT_STATUS.LOCAL_FAULT n) true
  | 3 => d.setFlag (Reg.PORT_STATUS.REMOTE_FAULT n) true
  | _ => d

/-- The status of a group is no register of a port's block. -/
theorem grpStatus_ne_portReg {off : Nat} (h : off ≠ 4) (ho : off < 0x1000) (i n : Nat) :
    Reg.PORT_GRP_STATUS.addr i ≠ 0x01004000 + off + portBlock n := by
  have hn := portBlock_mod n
  simp only [Reg.PORT_GRP_STATUS.addr]
  omega

theorem grpStatus_ne_portStatus (i n : Nat) : Reg.PORT_GRP_STATUS.addr i ≠ Reg.PORT_STATUS.addr n :=
  grpStatus_ne_portReg (off := 8) (by decide) (by decide) i n

section
variable {d e x : Dev} {n : Nat}

theorem linkDown_eq (d : Dev) (n cause : Nat) : linkDown n cause d =
    if (d.downShown n cause).flag (Reg.PORT_STATUS.LINK_UP n) then (d.downShown n cause).enterHold n else d.downShown n cause := rfl

/-- The link timing of a port is none of the registers that show a cause. -/
theorem linkTiming_ne_shown (n i : Nat) :
    Reg.PORT_LINK_TIMING.addr n ≠ Reg.PORT_STATUS.addr n ∧ Reg.PORT_LINK_TIMING.addr n ≠ Reg.PORT_GRP_STATUS.addr i := by
  have hn : portBlock n % 0x10000 ≤ 0x3000 := by
    unfold portBlock
    split <;> omega
  simp only [Reg.PORT_LINK_TIMING.addr, Reg.PORT_STATUS.addr, Reg.PORT_GRP_STATUS.addr]
  omega

/-- Showing the cause writes the two fault flags, or bits of the group's status. -/
theorem Dev.downShown_effect (d : Dev) (n cause : Nat) (hx : x = d.downShown n cause) :
    d.statusBut x n [(26, 1), (25, 1)] ∧ x.reg (Reg.PORT_LINK_TIMING.addr n) = d.reg (Reg.PORT_LINK_TIMING.addr n) ∧
      d.Within x [.regs] ∧ (cause = 2 → x.flag (Reg.PORT_STATUS.LOCAL_FAULT n) = true) ∧
      (cause = 3 → x.flag (Reg.PORT_STATUS.REMOTE_FAULT n) = true) := by
  subst hx
  unfold Dev.downShown
  split
  · have hreg : ∀ a, (∀ i, a ≠ Reg.PORT_GRP_STATUS.addr i) →
        ((d.lanesOf n).foldl (fun (d : Dev) (l : Nat × Nat) => d.setBitOf (Reg.PORT_GRP_STATUS.CDR_LOCK l.1) l.2 false) d).reg a = d.reg a :=
      fun a ha => List.foldlRecOn (motive := fun e : Dev => e.reg a = d.reg a) _ _ rfl fun e he l _ =>
        (e.reg_setBitOf_ne _ _ _ _ (ha l.1)).trans he
    refine ⟨.of_reg (.refl d n _) (hreg _ fun i => (grpStatus_ne_portStatus i n).symm), hreg _ fun i => (linkTiming_ne_shown n i).2,
      (Dev.Within.refl d _).foldl fun _ _ h => h.setBitOf, nofun, nofun⟩
  · exact ⟨.setFlag (lo := 26) (w := 1) (.refl d n _), d.reg_setFlag_ne _ _ _ (linkTiming_ne_shown n 0).1, (Dev.Within.refl d _).setFlag,
      fun _ => d.flag_setFlag_status_same n 26 true, nofun⟩
  · exact ⟨.setFlag (lo := 25) (w := 1) (.refl d n _), d.reg_setFlag_ne _ _ _ (linkTiming_ne_shown n 0).1, (Dev.Within.refl d _).setFlag,
      nofun, fun _ => d.flag_setFlag_status_same n 25 true⟩
  · next _ h2 h3 => exact ⟨.refl d n _, rfl, .refl d _, fun h => absurd h h2, fun h => absurd h h3⟩

/-- Reassembly ends with the link, held or flushed. -/
theorem Dev.enterHold_reasm (d : Dev) (hn : n < 258) : ((d.enterHold n).portSt n).reasm = none := by
  by_cases hz : d.rd (Reg.PORT_LINK_TIMING.LINK_HOLD n) = 0
  · obtain ⟨-, -, hreasm, -⟩ := Dev.enterHold_flushed hn hz rfl
    exact hreasm
  · obtain ⟨-, hreasm, -⟩ := Dev.enterHold_held hn hz rfl
    exact hreasm

/-- The fall of a link that is up: its flags, pauses and count, the faults its cause shows, and the Hold or flush that follows. -/
theorem linkDown_effect {cause : Nat} (hn : n < 258) (hup : d.flag (Reg.PORT_STATUS.LINK_UP n) = true) (he : e = linkDown n cause d) :
    e.flag (Reg.PORT_STATUS.LINK_UP n) = false ∧
      (d.rd (Reg.PORT_LINK_TIMING.LINK_HOLD n) ≠ 0 → e.flag (Reg.PORT_STATUS.HOLD n) = true ∧
        (e.portSt n).holdEnd = some (d.now + d.rd (Reg.PORT_LINK_TIMING.LINK_HOLD n) * 1000)) ∧
      (d.rd (Reg.PORT_LINK_TIMING.LINK_HOLD n) = 0 → e.flag (Reg.PORT_STATUS.HOLD n) = false ∧
        e.flag (Reg.PORT_STATUS.FLUSHING n) = true ∧ (e.portSt n).holdEnd = none) ∧
      (cause = 2 → e.flag (Reg.PORT_STATUS.LOCAL_FAULT n) = true) ∧ (cause = 3 → e.flag (Reg.PORT_STATUS.REMOTE_FAULT n) = true) ∧
      e.flag (Reg.PORT_STATUS.PREEMPT_ACTIVE n) = false ∧ e.rd (Reg.PORT_STATUS.VERIFY_STATUS n) = 0 ∧
      e.reg (Reg.PORT_PAUSE_STAT.addr n) = 0 ∧ (e.portSt n).reasm = none ∧ d.counted e .linkDownEvents n 1 ∧ d.Within e downParts := by
  obtain ⟨hstatus, htiming, hdx, h2, h3⟩ := Dev.downShown_effect d n cause rfl
  rw [linkDown_eq] at he
  generalize d.downShown n cause = x at *
  have hxup : x.flag (Reg.PORT_STATUS.LINK_UP n) = true := (hstatus.flag (lo := 31) (w := 1)).trans hup
  have hhold : x.rd (Reg.PORT_LINK_TIMING.LINK_HOLD n) = d.rd (Reg.PORT_LINK_TIMING.LINK_HOLD n) := Dev.rd_congr_reg htiming
  have hnow : x.now = d.now := hdx .now (by decide)
  rw [if_pos hxup] at he
  have hdown : x.WentDown n e := he ▸ x.enterHold_wentDown hn
  have hevents := hdown.events
  rw [if_pos hxup] at hevents
  have hreasm : (e.portSt n).reasm = none := he ▸ x.enterHold_reasm hn
  refine ⟨hdown.up, fun hz => ?_, fun hz => ?_, fun hc => (hdown.status.flag (lo := 26) (w := 1)).trans (h2 hc),
    fun hc => (hdown.status.flag (lo := 25) (w := 1)).trans (h3 hc), hdown.preempt, hdown.verify, hdown.stat, hreasm,
    hevents.congr (Dev.ctr_congr (hdx .ctrs (by decide)).symm _ _) rfl, hdx.mono.trans hdown.within⟩
  · rw [← hhold] at hz
    obtain ⟨hflag, -, hend⟩ := Dev.enterHold_held hn hz he
    rw [hhold, hnow] at hend
    exact ⟨hflag, hend⟩
  · rw [← hhold] at hz
    obtain ⟨hflag, hflush, -, hend⟩ := Dev.enterHold_flushed hn hz he
    exact ⟨hflag, hflush, hend⟩

end

/-! ### LINK_UP takes effect (R86, R89, R90) -/

/-- The fields of PORT_STATUS that a link going up writes. -/
def upFields : List (Nat × Nat) := [(31, 1), (30, 1), (22, 1), (20, 2)]

/-- `e` is what `d` becomes when the link of port `n` takes effect. -/
structure Dev.WentUp (n : Nat) (d e : Dev) : Prop where
  up : e.flag (Reg.PORT_STATUS.LINK_UP n) = true
  hold : e.flag (Reg.PORT_STATUS.HOLD n) = false
  holdEnd : (e.portSt n).holdEnd = none
  status : d.statusBut e n upFields
  regs : d.regsBut e [Reg.PORT_STATUS.addr n, Reg.PORT_PAUSE_STAT.addr n]
  within : d.Within e pauseParts

section
variable {d e x : Dev} {n : Nat}

theorem Dev.reg_setPortSt (d : Dev) (n : Nat) (s : PortSt) (a : Nat) : (d.setPortSt n s).reg a = d.reg a := rfl

theorem Dev.portSt_setPortSt_out (d : Dev) (n : Nat) (s : PortSt) (o : Out) : ((d.setPortSt n s).out o).portSt n = s :=
  d.portSt_setPortSt_same n s

/-- A record of a port and an output leave the registers. -/
theorem Dev.reg_setPortSt_out (d : Dev) (n : Nat) (s : PortSt) (o : Out) (a : Nat) : ((d.setPortSt n s).out o).reg a = d.reg a := rfl

/-- The link is declared: LINK_UP sets, and Hold ends. -/
def Dev.linkDeclared (d : Dev) (n : Nat) : Dev :=
  let d := (d.setFlag (Reg.PORT_STATUS.LINK_UP n) true).setFlag (Reg.PORT_STATUS.HOLD n) false
  d.setPortSt n { d.portSt n with holdEnd := none, upPending := false }

theorem Dev.linkRises_eq (d : Dev) (n : Nat) : d.linkRises n = ((d.linkDeclared n).startVerify n).evalPause n := rfl

theorem Dev.linkDeclared_wentUp (d : Dev) (n : Nat) : d.WentUp n (d.linkDeclared n) := by
  have hm : Reg.PORT_STATUS.addr n ∈ [Reg.PORT_STATUS.addr n, Reg.PORT_PAUSE_STAT.addr n] := List.mem_cons_self
  have hone := Dev.statusBut.setFlag (lo := 30) (w := 1) (v := false) (l := [(30, 1)]) (.refl (d.setFlag (Reg.PORT_STATUS.LINK_UP n) true) n _)
  have hset : (d.linkDeclared n).portSt n = _ := Dev.portSt_setPortSt_same _ _ _
  exact {
    up := (Dev.flag_setPortSt _ _ _ _).trans ((hone.flag (lo := 31) (w := 1)).trans (d.flag_setFlag_status_same n 31 true))
    hold := (Dev.flag_setPortSt _ _ _ _).trans (Dev.flag_setFlag_status_same _ n 30 false)
    holdEnd := congrArg PortSt.holdEnd hset
    status := .of_reg (.setFlag (lo := 30) (w := 1) (.setFlag (lo := 31) (w := 1) (.refl d n _))) (Dev.reg_setPortSt _ _ _ _)
    regs := (((Dev.regsBut.refl d _).setFlag hm).setFlag hm).setPortSt
    within := (Dev.Within.refl d _).setFlag.setFlag.setPortSt }

/-- Verification starts, or preemption stands as it is configured. -/
theorem Dev.startVerify_wentUp (h : d.WentUp n x) : d.WentUp n (x.startVerify n) := by
  have hm : Reg.PORT_STATUS.addr n ∈ [Reg.PORT_STATUS.addr n, Reg.PORT_PAUSE_STAT.addr n] := List.mem_cons_self
  have hflags : ∀ v b, d.WentUp n ((x.wr (Reg.PORT_STATUS.VERIFY_STATUS n) v).setFlag (Reg.PORT_STATUS.PREEMPT_ACTIVE n) b) := fun v b => by
    have hx : x.statusBut ((x.wr (Reg.PORT_STATUS.VERIFY_STATUS n) v).setFlag (Reg.PORT_STATUS.PREEMPT_ACTIVE n) b) n [(22, 1), (20, 2)] :=
      .setFlag (lo := 22) (w := 1) (.wr (lo := 20) (w := 2) (.refl x n _))
    have hports : ((x.wr (Reg.PORT_STATUS.VERIFY_STATUS n) v).setFlag (Reg.PORT_STATUS.PREEMPT_ACTIVE n) b).ports = x.ports := by simp
    exact {
      up := (hx.flag (lo := 31) (w := 1)).trans h.up
      hold := (hx.flag (lo := 30) (w := 1)).trans h.hold
      holdEnd := (congrArg PortSt.holdEnd (Dev.portSt_congr (congrArg PortsSt.port hports) n)).trans h.holdEnd
      status := h.status.trans (hx.mono (by decide))
      regs := (h.regs.wr hm).setFlag hm
      within := h.within.wr.setFlag }
  unfold Dev.startVerify
  split
  · split
    · exact hflags 0 true
    · have hv := hflags 1 false
      exact {
        up := (Dev.flag_congr_reg (Dev.reg_setPortSt_out _ _ _ _ _)).trans hv.up
        hold := (Dev.flag_congr_reg (Dev.reg_setPortSt_out _ _ _ _ _)).trans hv.hold
        holdEnd := (congrArg PortSt.holdEnd (Dev.portSt_setPortSt_out _ _ _ _)).trans hv.holdEnd
        status := hv.status.of_reg (Dev.reg_setPortSt_out _ _ _ _ _)
        regs := hv.regs.setPortSt.out
        within := hv.within.setPortSt.out }
  · exact hflags 0 false

theorem Dev.evalPause_wentUp (hn : n < 258) (h : d.WentUp n x) : d.WentUp n (x.evalPause n) := by
  have hwork := (Dev.PauseWork.refl n x).evalPause
  have hcell : x.CellWork cellParts [] (x.evalPause n) := (Dev.CellWork.refl x).evalPause
  have hstatus := hcell.status hn
  exact {
    up := (Dev.flag_congr_reg hstatus).trans h.up
    hold := (Dev.flag_congr_reg hstatus).trans h.hold
    holdEnd := (congrArg PortSt.holdEnd (hcell.portSt n)).trans h.holdEnd
    status := h.status.of_reg hstatus
    regs := h.regs.trans (hwork.regs.mono (by simp))
    within := h.within.trans hwork.within }

theorem Dev.linkRises_wentUp (d : Dev) (hn : n < 258) : d.WentUp n (d.linkRises n) :=
  Dev.evalPause_wentUp hn (Dev.startVerify_wentUp (d.linkDeclared_wentUp n))

/-- What verification sets as a link goes up. -/
theorem Dev.startVerify_preempt (hn : n < 256) (hup : x.flag (Reg.PORT_STATUS.LINK_UP n) = true)
    (hen : x.flag (Reg.PORT_PREEMPT_CFG.EN n) = true) :
    (x.startVerify n).flag (Reg.PORT_STATUS.PREEMPT_ACTIVE n) = x.flag (Reg.PORT_PREEMPT_CFG.VERIFY_DIS n) ∧
      (x.startVerify n).rd (Reg.PORT_STATUS.VERIFY_STATUS n) = if x.flag (Reg.PORT_PREEMPT_CFG.VERIFY_DIS n) then 0 else 1 := by
  have hverify : ∀ v b, v < 4 → ((x.wr (Reg.PORT_STATUS.VERIFY_STATUS n) v).setFlag (Reg.PORT_STATUS.PREEMPT_ACTIVE n) b).rd
      (Reg.PORT_STATUS.VERIFY_STATUS n) = v := fun v b hv => by
    have hone := Dev.statusBut.setFlag (lo := 22) (w := 1) (v := b) (l := [(22, 1)])
      (.refl (x.wr (Reg.PORT_STATUS.VERIFY_STATUS n) v) n _)
    exact (hone.rd (lo := 20) (w := 2)).trans ((x.rd_wr_status_same n 20 2 v).trans (Nat.mod_eq_of_lt hv))
  unfold Dev.startVerify
  rw [if_pos (by simp [hn, hen, Dev.linkUp, hup])]
  by_cases hd : x.flag (Reg.PORT_PREEMPT_CFG.VERIFY_DIS n) = true
  · rw [if_pos hd, if_pos hd, hd]
    exact ⟨Dev.flag_setFlag_status_same _ n 22 true, hverify 0 true (by decide)⟩
  · rw [if_neg hd, if_neg hd, eq_false_of_ne_true hd]
    exact ⟨(Dev.flag_congr_reg (Dev.reg_setPortSt_out _ _ _ _ _)).trans
      (Dev.flag_setFlag_status_same (x.wr (Reg.PORT_STATUS.VERIFY_STATUS n) 1) n 22 false),
      (Dev.rd_congr_reg (Dev.reg_setPortSt_out _ _ _ _ _)).trans (hverify 1 false (by decide))⟩

/-- The configuration of preemption is no register that a link going up writes. -/
theorem preemptCfg_ne (n : Nat) :
    Reg.PORT_PREEMPT_CFG.addr n ≠ Reg.PORT_STATUS.addr n ∧ Reg.PORT_PREEMPT_CFG.addr n ≠ Reg.PORT_PAUSE_STAT.addr n := by
  simp only [Reg.PORT_PREEMPT_CFG.addr, Reg.PORT_STATUS.addr, Reg.PORT_PAUSE_STAT.addr]
  omega

theorem Dev.linkRises_preempt (d : Dev) (hn : n < 256) (hen : d.flag (Reg.PORT_PREEMPT_CFG.EN n) = true) :
    (d.linkRises n).flag (Reg.PORT_STATUS.PREEMPT_ACTIVE n) = d.flag (Reg.PORT_PREEMPT_CFG.VERIFY_DIS n) ∧
      (d.linkRises n).rd (Reg.PORT_STATUS.VERIFY_STATUS n) = if d.flag (Reg.PORT_PREEMPT_CFG.VERIFY_DIS n) then 0 else 1 := by
  have hup := d.linkDeclared_wentUp n
  have hcfg : (d.linkDeclared n).reg (Reg.PORT_PREEMPT_CFG.addr n) = d.reg (Reg.PORT_PREEMPT_CFG.addr n) :=
    hup.regs _ (by simpa using preemptCfg_ne n)
  have hstatus := (Dev.CellWork.evalPause (l := cellParts) (ks := []) (.refl ((d.linkDeclared n).startVerify n)) (n := n)).status
    (Nat.lt_trans hn (by decide))
  obtain ⟨hactive, hverify⟩ := Dev.startVerify_preempt hn hup.up ((Dev.flag_congr_reg hcfg).trans hen)
  rw [Dev.flag_congr_reg (r := Reg.PORT_PREEMPT_CFG.VERIFY_DIS n) hcfg] at hactive hverify
  rw [Dev.linkRises_eq]
  exact ⟨(Dev.flag_congr_reg hstatus).trans hactive, (Dev.rd_congr_reg hstatus).trans hverify⟩

end

/-! ### LINK_UP -/

/-- The faults of a port end. -/
def Dev.faultsCleared (d : Dev) (n : Nat) : Dev :=
  (d.setFlag (Reg.PORT_STATUS.LOCAL_FAULT n) false).setFlag (Reg.PORT_STATUS.REMOTE_FAULT n) false

/-- One lane shows lock and signal. -/
def Dev.laneShown (d : Dev) (l : Nat × Nat) : Dev :=
  (d.setBitOf (Reg.PORT_GRP_STATUS.CDR_LOCK l.1) l.2 true).setBitOf (Reg.PORT_GRP_STATUS.SIG_DET l.1) l.2 true

/-- A lane's bits of lock and signal are set. -/
def Dev.laneUp (d : Dev) (l : Nat × Nat) : Prop :=
  d.bitOf (Reg.PORT_GRP_STATUS.CDR_LOCK l.1) l.2 = true ∧ d.bitOf (Reg.PORT_GRP_STATUS.SIG_DET l.1) l.2 = true

section
variable {d e x : Dev} {n : Nat}

/-- Showing a lane sets its two bits, and no bit clears. -/
theorem Dev.laneShown_effect (d : Dev) {l : Nat × Nat} (hl : l.2 < 4) :
    (d.laneShown l).laneUp l ∧ ∀ m : Nat × Nat, m.1 = l.1 → d.laneUp m → (d.laneShown l).laneUp m := by
  have hlock : d.maskBit (d.laneShown l) (Reg.PORT_GRP_STATUS.CDR_LOCK l.1) l.2 true :=
    (Dev.maskBit.setBitOf d (r := Reg.PORT_GRP_STATUS.CDR_LOCK l.1) (show 8 + 4 ≤ 32 by decide) hl).congr rfl
      (Dev.rd_setBitOf_disjoint _ (Reg.PORT_GRP_STATUS.SIG_DET l.1) (Reg.PORT_GRP_STATUS.CDR_LOCK l.1) _ _ (show 4 + 4 ≤ 32 by decide) rfl
        (.inr (show 4 + 4 ≤ 8 by decide)))
  have hsig : d.maskBit (d.laneShown l) (Reg.PORT_GRP_STATUS.SIG_DET l.1) l.2 true :=
    (Dev.maskBit.setBitOf (d.setBitOf (Reg.PORT_GRP_STATUS.CDR_LOCK l.1) l.2 true) (r := Reg.PORT_GRP_STATUS.SIG_DET l.1)
      (show 4 + 4 ≤ 32 by decide) hl).congr
      (Dev.rd_setBitOf_disjoint _ (Reg.PORT_GRP_STATUS.CDR_LOCK l.1) (Reg.PORT_GRP_STATUS.SIG_DET l.1) _ _ (show 8 + 4 ≤ 32 by decide) rfl
        (.inl (show 4 + 4 ≤ 8 by decide))).symm rfl
  obtain ⟨hlset, hlkeep⟩ := hlock
  obtain ⟨hsset, hskeep⟩ := hsig
  refine ⟨⟨hlset, hsset⟩, fun m hm hup => ?_⟩
  obtain ⟨g, k⟩ := m
  obtain rfl : g = l.1 := hm
  by_cases hk : k = l.2
  · rw [hk]
    exact ⟨hlset, hsset⟩
  · exact ⟨(hlkeep k hk).trans hup.1, (hskeep k hk).trans hup.2⟩

/-- Every lane of a list within one group is shown. -/
theorem Dev.foldl_laneShown (g : Nat) {ls : List (Nat × Nat)} (hls : ∀ l ∈ ls, l.1 = g ∧ l.2 < 4) (d : Dev) :
    ∀ m : Nat × Nat, m.1 = g → (d.laneUp m ∨ m ∈ ls) → (ls.foldl Dev.laneShown d).laneUp m := by
  induction ls generalizing d with
  | nil => exact fun m _ h => h.resolve_right List.not_mem_nil
  | cons l ls ih =>
    intro m hm h
    obtain ⟨⟨hg, h4⟩, hls⟩ := List.forall_mem_cons.mp hls
    obtain ⟨hset, hkeep⟩ := d.laneShown_effect h4
    refine ih hls (d.laneShown l) m hm ?_
    obtain hup | hmem := h
    · exact .inl (hkeep m (hm.trans hg.symm) hup)
    · obtain rfl | hin := List.mem_cons.mp hmem
      · exact .inl hset
      · exact .inr hin

/-- The lanes of a configured port lie in its group, four to a group (R7). -/
theorem Dev.lane_of_configured (hc : d.configured n = true) {l : Nat × Nat} (h : l ∈ d.lanesOf n) : l.1 = n / 4 ∧ l.2 < 4 := by
  unfold Dev.lanesOf at h
  unfold Dev.configured at hc
  split at h
  · next hn =>
    rw [if_pos hn] at hc
    obtain ⟨k, hk, rfl⟩ := List.mem_map.mp h
    rw [List.mem_range] at hk
    refine ⟨rfl, ?_⟩
    unfold modeWidth at hk
    unfold modeLanes at hc
    dsimp only
    split at hk
    · omega
    · next h1 =>
      rw [if_neg h1] at hc
      split at hk
      · next h2 =>
        rw [if_pos h2] at hc
        simp only [List.contains_cons, List.contains_nil, Bool.or_false, Bool.or_eq_true, beq_iff_eq] at hc
        omega
      · next h2 =>
        rw [if_neg h2] at hc
        split at hk
        · next h3 =>
          rw [if_pos h3] at hc
          simp only [List.contains_cons, List.contains_nil, Bool.or_false, beq_iff_eq] at hc
          omega
        · omega
  · cases h

/-- The lanes of a port show lock and signal. -/
def Dev.lanesShown (d : Dev) (n : Nat) : Dev := (d.lanesOf n).foldl Dev.laneShown d

theorem Dev.lanesShown_effect (hc : d.configured n = true) :
    (∀ l ∈ d.lanesOf n, (d.lanesShown n).laneUp l) ∧ d.regsBut (d.lanesShown n) [Reg.PORT_GRP_STATUS.addr (n / 4)] ∧
      d.Within (d.lanesShown n) [.regs] := by
  have hls : ∀ l ∈ d.lanesOf n, l.1 = n / 4 ∧ l.2 < 4 := fun l => Dev.lane_of_configured hc
  refine ⟨fun l hl => Dev.foldl_laneShown (n / 4) hls d l (hls l hl).1 (.inr hl), ?_, ?_⟩
  · refine List.foldlRecOn (motive := fun e : Dev => d.regsBut e [Reg.PORT_GRP_STATUS.addr (n / 4)]) _ _ (.refl d _) fun e he l hl => ?_
    have hm : Reg.PORT_GRP_STATUS.addr l.1 ∈ [Reg.PORT_GRP_STATUS.addr (n / 4)] := by
      rw [(hls l hl).1]
      exact List.mem_singleton_self _
    exact (he.setBitOf (r := Reg.PORT_GRP_STATUS.CDR_LOCK l.1) hm).setBitOf (r := Reg.PORT_GRP_STATUS.SIG_DET l.1) hm
  · exact (Dev.Within.refl d _).foldl fun _ _ h => h.setBitOf.setBitOf

/-- The faults end and the lanes are shown. -/
def Dev.upShown (d : Dev) (n : Nat) : Dev := (d.faultsCleared n).lanesShown n

theorem Dev.faultsCleared_effect (hx : d.faultsCleared n = x) :
    x.flag (Reg.PORT_STATUS.LOCAL_FAULT n) = false ∧ x.flag (Reg.PORT_STATUS.REMOTE_FAULT n) = false ∧
      d.statusBut x n [(26, 1), (25, 1)] ∧ d.regsBut x [Reg.PORT_STATUS.addr n] ∧ d.Within x [.regs] := by
  subst hx
  have hm := List.mem_singleton_self (Reg.PORT_STATUS.addr n)
  have hone := Dev.statusBut.setFlag (lo := 25) (w := 1) (v := false) (l := [(25, 1)]) (.refl (d.setFlag (Reg.PORT_STATUS.LOCAL_FAULT n) false) n _)
  exact ⟨(hone.flag (lo := 26) (w := 1)).trans (d.flag_setFlag_status_same n 26 false), Dev.flag_setFlag_status_same _ n 25 false,
    .setFlag (lo := 25) (w := 1) (.setFlag (lo := 26) (w := 1) (.refl d n _)), ((Dev.regsBut.refl d _).setFlag hm).setFlag hm,
    (Dev.Within.refl d _).setFlag.setFlag⟩

theorem Dev.upShown_effect (hc : d.configured n = true) (hy : d.upShown n = x) :
    x.flag (Reg.PORT_STATUS.LOCAL_FAULT n) = false ∧ x.flag (Reg.PORT_STATUS.REMOTE_FAULT n) = false ∧
      d.statusBut x n [(26, 1), (25, 1)] ∧ (∀ l ∈ d.lanesOf n, x.laneUp l) ∧
      d.regsBut x [Reg.PORT_STATUS.addr n, Reg.PORT_GRP_STATUS.addr (n / 4)] ∧ d.Within x [.regs] := by
  subst hy
  unfold Dev.upShown
  generalize hf : d.faultsCleared n = f
  obtain ⟨hlocal, hremote, hstatus, hregs, hw⟩ := Dev.faultsCleared_effect hf
  have hmode : f.portMode n = d.portMode n := Dev.portMode_congr (hw .mods (by decide)) (hw .boot (by decide))
    (fun i => hregs _ (by simpa using grpMode_ne_portStatus i n)) n
  have hfc : f.configured n = true := by
    unfold Dev.configured at hc ⊢
    rwa [hmode]
  obtain ⟨hlanes, hlregs, hlw⟩ := Dev.lanesShown_effect hfc
  have hreg := hlregs (Reg.PORT_STATUS.addr n) (by simpa using (grpStatus_ne_portStatus (n / 4) n).symm)
  exact ⟨(Dev.flag_congr_reg hreg).trans hlocal, (Dev.flag_congr_reg hreg).trans hremote, hstatus.of_reg hreg,
    Dev.lanesOf_congr hmode ▸ hlanes, (hregs.mono (by simp)).trans (hlregs.mono (by simp)), hw.trans hlw⟩

/-- A link up of a port that is in use, configured and clocked, and clear for long enough (R89). -/
theorem linkUpDecl_due {clear : Nat} (hn : n < 258) (hs : d.serves n = true) (hc : d.configured n = true) (hm : d.portMode n ≠ 0)
    (ha : d.adminUp n = true) (hb : d.portBad n = false) (hr : d.moduleReady n = true) (hk : d.clocked n = true)
    (hup : d.flag (Reg.PORT_STATUS.LINK_UP n) = false) (ht : d.rd (Reg.PORT_LINK_TIMING.LINK_UP_STABLE n) * 10 ^ 6 ≤ clear) :
    linkUpDecl n clear d = if (d.upShown n).flag (Reg.PORT_STATUS.FLUSHING n)
      then (d.upShown n).setPortSt n { (d.upShown n).portSt n with upPending := true } else (d.upShown n).linkRises n := by
  have h258 : (n != 258) = true := bne_iff_ne.mpr (by omega)
  have hmode : (d.portMode n != 0) = true := bne_iff_ne.mpr hm
  rw [linkUpDecl, if_pos (by simp only [hs, hc, h258, hmode, ha, hb, hr, hk, hup, ht, decide_true, Bool.not_false, Bool.and_self])]
  rfl

/-- What LINK_UP leaves: the faults end, the lanes are shown, and the link is remembered during a flush, else declared. -/
theorem linkUpDecl_effect {clear : Nat} (hn : n < 258) (hs : d.serves n = true) (hc : d.configured n = true) (hm : d.portMode n ≠ 0)
    (ha : d.adminUp n = true) (hb : d.portBad n = false) (hr : d.moduleReady n = true) (hk : d.clocked n = true)
    (hup : d.flag (Reg.PORT_STATUS.LINK_UP n) = false) (ht : d.rd (Reg.PORT_LINK_TIMING.LINK_UP_STABLE n) * 10 ^ 6 ≤ clear)
    (he : e = linkUpDecl n clear d) :
    e.flag (Reg.PORT_STATUS.LOCAL_FAULT n) = false ∧ e.flag (Reg.PORT_STATUS.REMOTE_FAULT n) = false ∧
      (d.flag (Reg.PORT_STATUS.FLUSHING n) = true → e.flag (Reg.PORT_STATUS.LINK_UP n) = false ∧ (e.portSt n).upPending = true) ∧
      (d.flag (Reg.PORT_STATUS.FLUSHING n) = false → e.flag (Reg.PORT_STATUS.LINK_UP n) = true ∧
        e.flag (Reg.PORT_STATUS.HOLD n) = false ∧ (e.portSt n).holdEnd = none ∧
        (n < 256 → d.flag (Reg.PORT_PREEMPT_CFG.EN n) = true →
          (d.flag (Reg.PORT_PREEMPT_CFG.VERIFY_DIS n) = true →
            e.flag (Reg.PORT_STATUS.PREEMPT_ACTIVE n) = true ∧ e.rd (Reg.PORT_STATUS.VERIFY_STATUS n) = 0) ∧
          (d.flag (Reg.PORT_PREEMPT_CFG.VERIFY_DIS n) = false →
            e.flag (Reg.PORT_STATUS.PREEMPT_ACTIVE n) = false ∧ e.rd (Reg.PORT_STATUS.VERIFY_STATUS n) = 1))) ∧
      (∀ l ∈ d.lanesOf n, e.laneUp l) ∧
      d.regsBut e [Reg.PORT_STATUS.addr n, Reg.PORT_PAUSE_STAT.addr n, Reg.PORT_GRP_STATUS.addr (n / 4)] ∧ d.Within e pauseParts := by
  rw [linkUpDecl_due hn hs hc hm ha hb hr hk hup ht] at he
  generalize hx : d.upShown n = x at he
  obtain ⟨hlocal, hremote, hstatus, hlanes, hregs, hw⟩ := Dev.upShown_effect hc hx
  have hflush : x.flag (Reg.PORT_STATUS.FLUSHING n) = d.flag (Reg.PORT_STATUS.FLUSHING n) := hstatus.flag (lo := 29) (w := 1)
  by_cases hf : d.flag (Reg.PORT_STATUS.FLUSHING n) = true
  · rw [hflush, if_pos hf] at he
    subst he
    refine ⟨hlocal, hremote, fun _ => ⟨(hstatus.flag (lo := 31) (w := 1)).trans hup, ?_⟩, fun h => ?_, hlanes, (hregs.mono (by simp)).setPortSt,
      hw.mono.setPortSt⟩
    · exact congrArg PortSt.upPending (x.portSt_setPortSt_same n _)
    · rw [hf] at h
      exact Bool.noConfusion h
  · rw [hflush, if_neg hf] at he
    subst he
    have hrise := x.linkRises_wentUp hn
    have hpre : x.reg (Reg.PORT_PREEMPT_CFG.addr n) = d.reg (Reg.PORT_PREEMPT_CFG.addr n) := hregs _ (by
      simpa using ⟨(preemptCfg_ne n).1, (grpStatus_ne_portReg (off := 0x1C) (by decide) (by decide) (n / 4) n).symm⟩)
    have hgrp : (x.linkRises n).reg (Reg.PORT_GRP_STATUS.addr (n / 4)) = x.reg (Reg.PORT_GRP_STATUS.addr (n / 4)) := hrise.regs _ (by
      simpa using ⟨grpStatus_ne_portStatus (n / 4) n, grpStatus_ne_portReg (off := 0x18) (by decide) (by decide) (n / 4) n⟩)
    refine ⟨(hrise.status.flag (lo := 26) (w := 1)).trans hlocal, (hrise.status.flag (lo := 25) (w := 1)).trans hremote,
      fun h => absurd h hf, fun _ => ⟨hrise.up, hrise.hold, hrise.holdEnd, fun h256 hen => ?_⟩, fun l hl => ?_,
      (hregs.mono (by simp)).trans (hrise.regs.mono (by simp)), hw.mono.trans hrise.within⟩
    · obtain ⟨hactive, hverify⟩ := x.linkRises_preempt h256 ((Dev.flag_congr_reg hpre).trans hen)
      rw [Dev.flag_congr_reg (r := Reg.PORT_PREEMPT_CFG.VERIFY_DIS n) hpre] at hactive hverify
      exact ⟨fun hd => ⟨hactive.trans hd, hverify.trans (if_pos hd)⟩,
        fun hd => ⟨hactive.trans hd, hverify.trans (if_neg (by simp [hd]))⟩⟩
    · have hg := (Dev.lane_of_configured hc hl).1
      rw [← hg] at hgrp
      obtain ⟨hlock, hsig⟩ := hlanes l hl
      exact ⟨(Dev.bitOf_congr_reg (r := Reg.PORT_GRP_STATUS.CDR_LOCK l.1) hgrp _).trans hlock,
        (Dev.bitOf_congr_reg (r := Reg.PORT_GRP_STATUS.SIG_DET l.1) hgrp _).trans hsig⟩

/-! ### HOLD_EXPIRY and FLUSH_DONE (R90) -/

theorem holdExpiry_due {t : Nat} (hh : (d.portSt n).holdEnd = some t) (ht : t ≤ d.now) (hf : d.flag (Reg.PORT_STATUS.HOLD n) = true) :
    holdExpiry n d = d.flushPort n := by
  simp [holdExpiry, hh, ht, hf]

/-- A flush leaves no copy for the port, each dropped as link_down_flush. -/
theorem Dev.flushPort_copies (d : Dev) (n : Nat) :
    (∀ c ∈ (d.flushPort n).path.copies, c.dst ≠ n) ∧
      ((d.path.copies.map (·.id)).Nodup → d.counted (d.flushPort n) .drop 0x41 (d.path.copies.filter fun c => c.dst == n).length) ∧
      d.Within (d.flushPort n) copyParts := by
  obtain ⟨-, -, -, hctrs, hpath, hw⟩ := Dev.flushBegun_effect (d := d) (n := n) rfl
  rw [Dev.flushPort_eq]
  generalize d.flushBegun n = x at *
  refine ⟨fun c hc => by simpa using Dev.not_of_mem_cutCopies hc, fun hn => ?_, hw.mono.trans ?_⟩
  · rw [← hpath] at hn ⊢
    exact (Dev.cutCopies_counted (by decide) hn _).congr (Dev.ctr_congr hctrs.symm _ _) rfl
  · exact (Dev.CellWork.cutCopies (ks := []) (.refl x) (List.Subset.refl _) (by simp)).within

theorem flushDone_due (hf : d.flag (Reg.PORT_STATUS.FLUSHING n) = true) : flushDone n d =
    if (d.portSt n).upPending then (d.setFlag (Reg.PORT_STATUS.FLUSHING n) false).linkRises n
    else d.setFlag (Reg.PORT_STATUS.FLUSHING n) false := by
  have hport : (d.setFlag (Reg.PORT_STATUS.FLUSHING n) false).portSt n = d.portSt n := Dev.portSt_congr (by simp) n
  rw [flushDone, if_pos hf]
  dsimp only
  rw [hport]

theorem flushDone_effect (hn : n < 258) (hf : d.flag (Reg.PORT_STATUS.FLUSHING n) = true) (he : e = flushDone n d) :
    e.flag (Reg.PORT_STATUS.FLUSHING n) = false ∧
      ((d.portSt n).upPending = true → e.flag (Reg.PORT_STATUS.LINK_UP n) = true ∧ e.flag (Reg.PORT_STATUS.HOLD n) = false) ∧
      ((d.portSt n).upPending = false → e = d.setFlag (Reg.PORT_STATUS.FLUSHING n) false) ∧
      d.regsBut e [Reg.PORT_STATUS.addr n, Reg.PORT_PAUSE_STAT.addr n] ∧ d.Within e pauseParts := by
  rw [flushDone_due hf] at he
  have hclear := d.flag_setFlag_status_same n 29 false
  have hregs : d.regsBut (d.setFlag (Reg.PORT_STATUS.FLUSHING n) false) [Reg.PORT_STATUS.addr n, Reg.PORT_PAUSE_STAT.addr n] :=
    (Dev.regsBut.refl d _).setFlag List.mem_cons_self
  have hw : d.Within (d.setFlag (Reg.PORT_STATUS.FLUSHING n) false) pauseParts := (Dev.Within.refl d _).setFlag
  by_cases hp : (d.portSt n).upPending = true
  · rw [if_pos hp] at he
    subst he
    have hrise := (d.setFlag (Reg.PORT_STATUS.FLUSHING n) false).linkRises_wentUp hn
    refine ⟨(hrise.status.flag (lo := 29) (w := 1)).trans hclear, fun _ => ⟨hrise.up, hrise.hold⟩, fun h => ?_, hregs.trans hrise.regs,
      hw.trans hrise.within⟩
    rw [hp] at h
    exact Bool.noConfusion h
  · rw [if_neg hp] at he
    subst he
    exact ⟨hclear, fun h => absurd h hp, fun _ => rfl, hregs, hw⟩

/-! ### ADMIN_EN_CLEAR (R91) -/

/-- Hold and flush of a port end without a flush of its copies. -/
def Dev.holdCleared (d : Dev) (n : Nat) : Dev :=
  let d := (d.setFlag (Reg.PORT_STATUS.HOLD n) false).setFlag (Reg.PORT_STATUS.FLUSHING n) false
  d.setPortSt n { d.portSt n with holdEnd := none }

theorem Dev.adminFalls_eq (d : Dev) (n : Nat) : d.adminFalls n = ((d.linkFalls n).holdCleared n).cutCopies 0x43 fun c => c.dst == n := rfl

theorem Dev.holdCleared_effect (hx : d.holdCleared n = x) :
    x.flag (Reg.PORT_STATUS.HOLD n) = false ∧ x.flag (Reg.PORT_STATUS.FLUSHING n) = false ∧ (x.portSt n).holdEnd = none ∧
      x.ctrs = d.ctrs ∧ x.path = d.path := by
  subst hx
  have hw : d.Within (d.holdCleared n) [.regs, .ports] := (Dev.Within.refl d _).setFlag.setFlag.setPortSt
  have hone := Dev.statusBut.setFlag (lo := 29) (w := 1) (v := false) (l := [(29, 1)]) (.refl (d.setFlag (Reg.PORT_STATUS.HOLD n) false) n _)
  refine ⟨(Dev.flag_setPortSt _ _ _ _).trans ((hone.flag (lo := 30) (w := 1)).trans (d.flag_setFlag_status_same n 30 false)),
    (Dev.flag_setPortSt _ _ _ _).trans (Dev.flag_setFlag_status_same _ n 29 false), ?_, hw .ctrs (by decide), hw .path (by decide)⟩
  rw [Dev.holdCleared, Dev.portSt_setPortSt_same]

theorem Dev.WentDown.holdCleared (h : d.WentDown n x) : d.WentDown n (x.holdCleared n) :=
  ((h.setFlag (lo := 30) false (.inl rfl)).setFlag (lo := 29) false (.inr rfl)).setPortSt n _

/-- What clearing ADMIN_EN does past the flag itself. -/
theorem Dev.adminFalls_effect (hn : n < 258) (he : e = d.adminFalls n) :
    d.WentDown n e ∧ e.flag (Reg.PORT_STATUS.HOLD n) = false ∧ e.flag (Reg.PORT_STATUS.FLUSHING n) = false ∧ (e.portSt n).holdEnd = none ∧
      (∀ c ∈ e.path.copies, c.dst ≠ n) ∧
      ((d.path.copies.map (·.id)).Nodup → d.counted e .drop 0x43 (d.path.copies.filter fun c => c.dst == n).length) := by
  have hdown := (d.linkFalls_wentDown hn).holdCleared
  have hdrops := Dev.linkFalls_drops d (n := n) 0x43 (by decide)
  have hcopies := d.copies_linkFalls n
  rw [Dev.adminFalls_eq] at he
  generalize d.linkFalls n = y at *
  generalize hx : y.holdCleared n = x at *
  obtain ⟨hhold, hflush, hend, hctrs, hpath⟩ := Dev.holdCleared_effect hx
  have hs := x.cutCopies_status hn 0x43 fun c => c.dst == n
  have hxcopies : x.path.copies = d.path.copies := (Dev.copies_of_path hpath).trans hcopies
  have hxdrop : x.ctr .drop 0x43 = d.ctr .drop 0x43 := (Dev.ctr_congr hctrs _ _).trans hdrops
  subst he
  refine ⟨hdown.cutCopies hn _ _, (Dev.flag_congr_reg hs).trans hhold, (Dev.flag_congr_reg hs).trans hflush, ?_,
    fun c hc => by simpa using Dev.not_of_mem_cutCopies hc, fun hnd => ?_⟩
  · rw [Dev.cutCopies_portSt]
    exact hend
  · rw [← hxcopies] at hnd ⊢
    exact (Dev.cutCopies_counted (by decide) hnd _).congr hxdrop.symm rfl

theorem adminEnClear_eq (hn : n < 258) (ha : d.flag (Reg.PORT_CFG.ADMIN_EN n) = true) :
    adminEnClear n d = (d.setFlag (Reg.PORT_CFG.ADMIN_EN n) false).adminFalls n := by
  rw [adminEnClear, if_pos (by simp [hn, ha])]

theorem adminEnClear_effect (hn : n < 258) (ha : d.flag (Reg.PORT_CFG.ADMIN_EN n) = true) (he : e = adminEnClear n d) :
    e.reg (Reg.PORT_CFG.addr n) = fput (d.reg (Reg.PORT_CFG.addr n)) 31 1 0 ∧ e.flag (Reg.PORT_STATUS.LINK_UP n) = false ∧
      e.flag (Reg.PORT_STATUS.HOLD n) = false ∧ e.flag (Reg.PORT_STATUS.FLUSHING n) = false ∧ (e.portSt n).holdEnd = none ∧
      e.reg (Reg.PORT_PAUSE_STAT.addr n) = 0 ∧ (∀ c ∈ e.path.copies, c.dst ≠ n) ∧
      d.counted e .linkDownEvents n (if d.flag (Reg.PORT_STATUS.LINK_UP n) then 1 else 0) ∧
      ((d.path.copies.map (·.id)).Nodup → d.counted e .drop 0x43 (d.path.copies.filter fun c => c.dst == n).length) ∧
      d.Within e downParts := by
  rw [adminEnClear_eq hn ha] at he
  have hdx : d.Within (d.setFlag (Reg.PORT_CFG.ADMIN_EN n) false) [.regs] := (Dev.Within.refl d _).setFlag
  have hcfg : (d.setFlag (Reg.PORT_CFG.ADMIN_EN n) false).reg (Reg.PORT_CFG.addr n) = fput (d.reg (Reg.PORT_CFG.addr n)) 31 1 0 :=
    d.reg_wr_same _ _
  have hne : Reg.PORT_CFG.addr n ≠ Reg.PORT_STATUS.addr n := by
    simp only [Reg.PORT_CFG.addr, Reg.PORT_STATUS.addr]
    omega
  have hstatus : (d.setFlag (Reg.PORT_CFG.ADMIN_EN n) false).reg (Reg.PORT_STATUS.addr n) = d.reg (Reg.PORT_STATUS.addr n) :=
    d.reg_setFlag_ne _ _ _ hne.symm
  generalize d.setFlag (Reg.PORT_CFG.ADMIN_EN n) false = x at *
  obtain ⟨hdown, hhold, hflush, hend, hcopies, hdrop⟩ := Dev.adminFalls_effect hn he
  have hctrs := fun c i => Dev.ctr_congr (hdx .ctrs (by decide)) c i
  have hevents := hdown.events
  rw [Dev.flag_congr_reg (r := Reg.PORT_STATUS.LINK_UP n) hstatus] at hevents
  rw [hdx .path (by decide)] at hdrop
  refine ⟨?_, hdown.up, hhold, hflush, hend, hdown.stat, hcopies, hevents.congr (hctrs _ _).symm rfl,
    fun hnd => (hdrop hnd).congr (hctrs _ _).symm rfl, hdx.mono.trans hdown.within⟩
  exact (hdown.regs _ (portReg_zone (off := 0) (by decide) hn) hne fun m _ => portReg_ne_pauseStat (off := 0) (by decide) (by decide) n m).trans
    hcfg

end

section
variable {d : Dev} (hl : d.hold.live = true) (q : List Instr) (n : Nat)
include hl

theorem exec_linkDown (cause : Nat) : exec (.linkDown n cause) ⟨d, q⟩ = .next ⟨linkDown n cause d, q⟩ := State.on_live hl q _
theorem exec_linkUp (clear : Nat) : exec (.linkUp n clear) ⟨d, q⟩ = .next ⟨linkUpDecl n clear d, q⟩ := State.on_live hl q _
theorem exec_holdExpiry : exec (.holdExpiry n) ⟨d, q⟩ = .next ⟨holdExpiry n d, q⟩ := State.on_live hl q _
theorem exec_flushDone : exec (.flushDone n) ⟨d, q⟩ = .next ⟨flushDone n d, q⟩ := State.on_live hl q _
theorem exec_adminEnClear : exec (.adminEnClear n) ⟨d, q⟩ = .next ⟨adminEnClear n d, q⟩ := State.on_live hl q _

end

end Sys2Proof.Machine

section

open Sys2Proof Sys2Proof.Machine

/-- Settles O11: a fall and a rise of the link by the states they pass through, and the copies that a flush cuts. -/
theorem linkStateFollowsHold : Obligations.LinkStateFollowsHold := by
  unfold Obligations.LinkStateFollowsHold
  refine ⟨fun d q n cause hl hn hup => ?_, fun d q n clear hl hn hs hc hm ha hb hr hk hup ht => ?_, fun d q n t hl hn hh ht hf => ?_,
    fun d q n hl hn hf => ?_, fun d q n hl hn ha => ?_⟩
  · refine exec_leaves (exec_linkDown hl q n cause) fun e he => ?_
    obtain ⟨hfell, hheld, hflushed, hlocal, hremote, hactive, hverify, hstat, hreasm, hevents, hframe⟩ := linkDown_effect hn hup he
    exact ⟨hfell, hheld, hflushed, hlocal, hremote, hactive, hverify, hstat, hreasm, hevents, hframe.eq⟩
  · refine exec_leaves (exec_linkUp hl q n clear) fun e he => ?_
    obtain ⟨hlocal, hremote, hflush, hdecl, hlanes, hregs, hframe⟩ := linkUpDecl_effect hn hs hc hm ha hb hr hk hup ht he
    exact ⟨hlocal, hremote, hflush, hdecl, hlanes, hregs, hframe.eq⟩
  · refine exec_leaves (exec_holdExpiry hl q n) fun e he => ?_
    rw [holdExpiry_due hh ht hf] at he
    obtain ⟨hhold, hflush, hport⟩ := Dev.flushPort_effect hn he
    obtain ⟨hcopies, hdrop, hframe⟩ := he ▸ d.flushPort_copies n
    exact ⟨hhold, hflush, congrArg PortSt.holdEnd hport, hcopies, hdrop, hframe.eq⟩
  · refine exec_leaves (exec_flushDone hl q n) fun e he => ?_
    obtain ⟨hflush, hpending, hnone, hregs, hframe⟩ := flushDone_effect hn hf he
    exact ⟨hflush, hpending, hnone, hregs, hframe.eq⟩
  · refine exec_leaves (exec_adminEnClear hl q n) fun e he => ?_
    obtain ⟨hcfg, hup, hhold, hflush, hend, hstat, hcopies, hevents, hdrop, hframe⟩ := adminEnClear_effect hn ha he
    exact ⟨hcfg, hup, hhold, hflush, hend, hstat, hcopies, hevents, hdrop, hframe.eq⟩

end
